-- ==== Sys2Proof/Word.lean ====
section
/-! DEFINITION. The word types of the block and their plainest readings. -/

namespace Sys2Proof

/-- A byte of a payload, a record or a memory. -/
abbrev Byte := BitVec 8

/-- A 64-bit word: a register (R67, R452), an Alanik word (R178), a slot entry (R120). -/
abbrev Word64 := BitVec 64

/-- A fabric ID (R75): domain in bits 31:16, local ID in bits 15:0. -/
abbrev Fid := BitVec 32

/-- The value that means "no ID" (R77). -/
def noFid : Fid := 0xFFFFFFFF

/-- The domain of a fabric ID (R75). -/
def Fid.domain (f : Fid) : Nat := f.toNat / 65536

/-- The local ID of a fabric ID (R75). -/
def Fid.localId (f : Fid) : Nat := f.toNat % 65536

end Sys2Proof
end

