-- ==== Sys2Proof/Syntax.lean ====
section
/-! DEFINITION. The commands of the block: one constructor of `Instr` for each row of spec/opcode_table.json, with the
operand types they carry. No row of the table gives bits, so operands are decoded values; packets, frames, patches and
records keep the byte layouts of the spec. -/

namespace Sys2Proof

/-! ## Who acts -/

/-- Privilege levels (R3). -/
inductive Level where
  | tenant | operator | vendor
deriving DecidableEq, Repr

/-- The two agent variants (R38). -/
inductive Variant where
  | s | e
deriving DecidableEq, Repr

/-- An agent of the domain, named by its variant and a number (log entry 7). -/
structure AgentRef where
  variant : Variant
  num : Nat
deriving DecidableEq, Repr

/-- Where a port, a stream end or a tree node sits: the controller or an agent. -/
inductive Node where
  | ctl
  | agent (a : AgentRef)
deriving DecidableEq, Repr

/-! ## Packets (R82, R92) -/

/-- CLASS of the header (R92). -/
inductive PktClass where
  | express | collective | bulk | control
deriving DecidableEq, Repr

/-- The header (R92). -/
structure Header where
  dest : Fid
  src : Fid
  cls : PktClass
  ord : Bool := false
  bcast : Bool := false
  resend : Bool := false
  zblk : Bool := false
  reserved : BitVec 2 := 0
  typ : BitVec 8
  partition : BitVec 12 := 0
  hops : BitVec 6 := 63
  length : BitVec 13 := 0
  addr : BitVec 57 := 0
  stream : BitVec 16 := 0
  seq : BitVec 32 := 0
  prec : BitVec 16 := 0
  aux : BitVec 24 := 0
deriving DecidableEq, Repr

/-- A packet: header, payload bytes and the CRC-32C trailer (R82, R104). -/
structure Packet where
  hdr : Header
  payload : List Byte := []
  crc : BitVec 32 := 0
deriving DecidableEq, Repr

/-- A frame as a receiving port sees it (R82, R84): FEC and GCM verdicts are the line's and the cipher's. -/
structure Frame where
  fecOk : Bool := true
  /-- codewords of the frame that FEC corrected (R91) -/
  corrected : Nat := 0
  ctr : Word64
  tagOk : Bool := true
  credit : BitVec 32 := 0
  pkt : Packet
deriving DecidableEq, Repr

/-- Why a port declares its link down (R66). -/
inductive LinkDownCause where
  | blockLock | codewords | noCodeword
deriving DecidableEq, Repr

/-! ## Events (R63, R370) -/

/-- First-error capture (R366, R367, R368). -/
structure Capture where
  addr : Word64 := 0
  initiator : BitVec 32 := 0xFFFFFFFF
  access : BitVec 8 := 0xFF
  timeNs : Nat := 0
  detail : BitVec 16 := 0
deriving DecidableEq, Repr

/-- An event on its way to the collector or in an agent's event buffer (R63, R369, R370). -/
structure Event where
  origin : Fid
  source : Nat
  port : Nat := 0xFFFF
  severity : Nat
  detail : BitVec 16 := 0
  shadow : Bool := false
  forced : Bool := false
  count : Nat := 1
  timeNs : Nat := 0
  capture : Option Capture := none
  agentOrigin : Bool := false
  /-- the object named by a figure-lapse record (R7) -/
  object : Word64 := 0
  /-- a copy of an RT0 security record (R390) -/
  security : Bool := false
  /-- raised one severity by a repeated or overlong reset (R377, R378) -/
  escalated : Bool := false
  /-- holds a reserved entry of the agent's event buffer (R65) -/
  reserved : Bool := false
deriving DecidableEq, Repr

/-! ## Discovery (R422, R333) -/

/-- What a discovery answer lets the controller and RT0 know of an agent (R422, R333, R346, R68). -/
structure DiscoverInfo where
  agent : AgentRef
  /-- the controller's view of the port of the agent on which discovery reached it -/
  agentPort : Nat
  ports : Nat
  chainOk : Bool
  certDigest : BitVec 384
  release : BitVec 12
  ownerGeneration : BitVec 32
  installVersion : BitVec 32
  partition : BitVec 12
  memBytes : Nat
  scrubbing : Bool
  epochNum : Nat
deriving DecidableEq, Repr

/-! ## Tables in a planner bundle (R206) -/

/-- One Express flow of a schedule (R132, R133): its head slot and its route as (agent, output port) from the source. -/
structure Flow where
  src : Fid
  dest : Fid
  stream : BitVec 16
  flits : Nat
  headSlot : Nat
  path : List (Fid × Nat)
deriving DecidableEq, Repr

/-- An Express schedule (R133). `nested` holds the Express budget in ns when the route crosses domains (R465, R466). -/
structure Schedule where
  slots : Nat
  slotTicks : Nat
  flows : List Flow
  nestedBudget : Option Nat := none
  partition : BitVec 12 := 0
deriving DecidableEq, Repr

/-- A section of a gambit record (R158): the agent and its patches as bytes (R154). -/
structure GambitSection where
  agent : Fid
  patches : List Byte
deriving DecidableEq, Repr

/-- A gambit record (R157). `faultPort = none` is a switch fault. -/
structure GambitRec where
  gambitId : BitVec 24
  slot : BitVec 6
  faultAgent : Fid
  faultPort : Option Nat
  treesReplaced : List (BitVec 24 × BitVec 24) := []
  sections : List GambitSection
deriving DecidableEq, Repr

/-- A node or leaf of a tree as the planner gives it (R235): tree-table index, children, role. -/
structure TreeNode where
  node : Fid
  index : Nat
  /-- children with their ports, in input order (R236, R237) -/
  children : List (Nat × Fid) := []
  isRoot : Bool := false
  localInput : Bool := false
deriving DecidableEq, Repr

/-- A tree (R234, R237): its nodes and its leaves. -/
structure TreeRec where
  treeId : BitVec 24
  partition : BitVec 12
  nodes : List TreeNode
deriving DecidableEq, Repr

/-- A member entry of a group record (R232). -/
structure Member where
  fid : Fid
  rank : Nat
  queue : Nat
  ringLog2 : Nat
  ringBase : Nat
  gateway : Bool := false
deriving DecidableEq, Repr

/-- What a group record says (R231). -/
structure GroupRec where
  groupId : Nat
  library : Bool
  policyRing : Bool
  chunkLog2 : Nat
  treeId : BitVec 24
  window : Nat
  timeoutUs : Nat
  uplinkGroup : Nat := 0
  partition : BitVec 12
  members : List Member
deriving DecidableEq, Repr

/-- The footprint of one endpoint (R322). -/
structure DevFootprint where
  endpoint : Nat
  weights : Nat
  kvPool : Nat
  activations : Nat
  /-- KV pool base and page size (R315) -/
  kvBase : Nat := 0
  /-- expert pool (R311): base, slots, slot bytes, capacity per step -/
  poolBase : Nat := 0
  poolSlots : Nat := 0
  slotBytes : Nat := 0
  poolCap : Nat := 0
  /-- weights lie outside the model's binding set (R323): bytes -/
  outsideBinding : Nat := 0
deriving DecidableEq, Repr

/-- A replica the bundle declares (R296, R311). -/
structure ReplicaDecl where
  layer : Nat
  expert : Nat
  endpoint : Nat
  tier : Nat
  cap : Nat
  slot : Nat
  weightBytes : Nat
deriving DecidableEq, Repr

/-- The footprint part of a bundle (R322). -/
structure Footprint where
  devices : List DevFootprint
  bindingSet : Nat := 0
  pageBytes : Nat := 0
  extents : Nat := 0
  placementEntries : Nat := 0
  squares : Nat := 0
  replicas : List ReplicaDecl := []
deriving DecidableEq, Repr

/-- A planner bundle (R206): schedules, gambits, trees, groups and footprint, decoded (log entry 8). -/
structure Bundle where
  partition : BitVec 12
  schedules : List Schedule := []
  gambits : List GambitRec := []
  trees : List TreeRec := []
  /-- group records as bytes (R231, R232) -/
  groups : List (List Byte) := []
  footprint : Option Footprint := none
deriving DecidableEq, Repr

/-! ## Other operands -/

/-- A go notice or reissue notice (R276, R286): its payload layout is not given (log entry 9). -/
structure GoNotice where
  group : Nat
  opSeq : BitVec 32
  ring : Bool
  tree : BitVec 24
  generation : BitVec 8
  reissue : Bool := false
  /-- an operation ended before its go notice (R290, R292): the reason -/
  withdrawn : Option Nat := none
  /-- the parent-domain tree of a group with an uplink (R240) -/
  parentTree : Option (BitVec 24) := none
  /-- a library-mode reservation that is granted or released (log entry 27) -/
  library : Bool := false
deriving DecidableEq, Repr

/-- What a host-memory read was for (R201, R205, R210). -/
inductive HostRead where
  | ring | image | bundle | args
deriving DecidableEq, Repr

/-- What is drained (R156). -/
inductive DrainElem where
  | switch (a : Fid)
  | link (a : Fid) (port : Nat)
deriving DecidableEq, Repr

/-- An IEEE 1588 frame as the port sees it (R454). -/
structure PtpFrame where
  domain : BitVec 8
  offsetNs : BitVec 32
  meanPathDelayNs : BitVec 32
  timeOfDayNs : Nat
  fromMaster : Bool
deriving DecidableEq, Repr

/-- Bring-up phase result (R417, R419): blocks whose known-answer run failed, squares that failed per quarter, whether a
boot image verified, what the inventory holds. -/
structure PhaseResult where
  failedBlocks : List Nat := []
  failedSquares : List Nat := []
  bootOk : Bool := true
  bootDigest : BitVec 384 := 0
  gatesOk : Bool := true
  partnerId : Fid := 0xFFFFFFFF
  ptpDomain : BitVec 8 := 0
  ptpUdp : Bool := false
  domainNum : BitVec 16 := 1
  gateway : Fid := 0xFFFFFFFF
  localId : BitVec 16 := 0xA000
  mac : BitVec 48 := 0
  ip : BitVec 32 := 0
  anchorDigest : BitVec 384 := 0
  inventory : List (BitVec 384 × Fid × Variant) := []
  inventoryDigest : BitVec 384 := 0
  inventoryOk : Bool := true
  badEntries : Nat := 0
  slotImages : List (Nat × List Byte) := []
  badSlots : List Nat := []
deriving DecidableEq, Repr

/-- The two heartbeat paths (R407). -/
inductive HbPath where
  | pair | inband
deriving DecidableEq, Repr

/-- Classes of wake requests, highest first (R432). -/
inductive WakeClass where
  | recovery | control | collective | bulk | bringup
deriving DecidableEq, Repr

/-- The commands: one constructor per row of spec/opcode_table.json, in the table's order (the rule is the row's). -/
inductive Instr where
  | registerWrite (lvl : Level) (size addr : Nat) (v : Word64)                    -- R452
  | nocItemArrive (src dst seq : Nat) (data : Word64)                             -- R15
  | nocItemAck (src dst seq : Nat)                                                -- R15
  | nocRouterFail (cf : Nat)                                                      -- R15
  | slotTick                                                                      -- R28
  | timeBaseSwitchover                                                            -- R30
  | supplyOutOfRange (source : Nat)                                               -- R448
  | brownOut (rail : Nat)                                                         -- R448
  | brownOutRecovery                                                              -- R448
  | tempHigh (source celsius : Nat)                                               -- R460
  | thermalTrip (source celsius : Nat)                                            -- R460
  | quarterRampDone                                           -- R35
  | quarterIdleTimeout (quarter : Nat)                                            -- R429
  | dieLost (block : Nat)                                                         -- R36
  | crstAssert (a : AgentRef)                                                     -- R40
  | computeReset (a : AgentRef) (p : Packet)                                      -- R40
  | computeResetEnd (a : AgentRef)                                                -- R40
  | crstDeassert (a : AgentRef)                                                   -- R42
  | rejoinStart (a : AgentRef) (failedStep : Option Nat)                          -- R42
  | rejoinDone (a : AgentRef) (p : Packet)                                        -- R69
  | linkReset (a : AgentRef) (p : Packet)                                         -- R43
  | lrstAssert (a : AgentRef)                                                     -- R43
  | jxFltForce (a : AgentRef) (p : Packet)                                        -- R365
  | epochBoundary                                                                 -- R45
  | shadowCopyDone (a : AgentRef)                                                 -- R45
  | install (a : AgentRef) (p : Packet)                                           -- R155
  | commit (a : AgentRef) (p : Packet)                                            -- R155
  | stageWrite (a : AgentRef) (p : Packet)                                        -- R48
  | stageInvalidate (a : AgentRef) (p : Packet)                                   -- R160
  | stageRebase (a : AgentRef) (p : Packet)                                       -- R153
  | stagedSlotEccError (a : AgentRef) (slot : BitVec 6)                           -- R160
  | play (a : AgentRef) (p : Packet)                                              -- R161
  | playApplyDone (a : AgentRef)                                                  -- R50
  | reserveWrite (a : AgentRef) (p : Packet)                                      -- R270
  | reserveFree (a : AgentRef) (p : Packet)                                       -- R270
  | gqDoorbell (a : AgentRef) (q : Nat) (part : BitVec 12) (tail : BitVec 32)     -- R55
  | sampleFlushTimer (a : AgentRef)                                               -- R57
  | beaconTimer                                                                   -- R60
  | beacon (a : AgentRef) (port : Nat) (p : Packet)                               -- R100
  | statusReportTimer (a : AgentRef)                                              -- R60
  | orphanTimeout (a : AgentRef)                                                  -- R61
  | holdoverExceeded (a : AgentRef)                                               -- R118
  | claim (a : AgentRef) (port : Nat) (p : Packet) (chainOk sigOk deviceMatch : Bool)  -- R59
  | eventsSendTimer (a : AgentRef)                                                -- R65
  | linkDown (n : Node) (port : Nat) (cause : LinkDownCause)                      -- R66
  | frameReceive (n : Node) (port : Nat) (f : Frame)                              -- R84
  | creditFrame (n : Node) (port : Nat) (f : Frame)                               -- R90
  | creditFrameTimer (n : Node) (port : Nat)                                      -- R90
  | rekeyThreshold (n : Node) (port : Nat)                                        -- R86
  | rekeyOverrun (n : Node) (port : Nat)                                          -- R86
  | packetPost (a : AgentRef) (p : Packet)                                        -- R123
  | expressHeadSlot (a : AgentRef) (port slot : Nat)                              -- R124
  | retryTimeout (n : Node) (dest : Fid) (stream : BitVec 16) (seq : BitVec 32)   -- R107
  | ack (n : Node) (p : Packet)                                                   -- R105
  | nak (n : Node) (p : Packet)                                                   -- R106
  | resendReq (n : Node) (p : Packet)                                             -- R107
  | precedentTimer (n : Node) (src : Fid) (stream : BitVec 16) (seq : BitVec 32)   -- R110
  | write (n : Node) (p : Packet)                                                 -- R95
  | readReq (n : Node) (p : Packet) (tagOk : Bool)                                -- R96
  | readResp (n : Node) (p : Packet)                                              -- R96
  | sendPacket (n : Node) (p : Packet)                                            -- R227
  | rxRingHeadWrite (a : AgentRef) (v : Nat)                                      -- R227
  | streamsReset (a : AgentRef) (p : Packet)                                      -- R471
  | streamsResetTimeout (dest : Fid)                                              -- R471
  | discoverReq (a : AgentRef) (port : Nat) (p : Packet)                          -- R78
  | discoverResp (port : Nat) (r : DiscoverInfo)                                  -- R422
  | katOrder (a : AgentRef) (p : Packet) (failed : BitVec 32)                     -- R422
  | katResult (p : Packet)                                                        -- R102
  | statusReport (p : Packet)                                                     -- R102
  | windowReport (p : Packet)                                                     -- R308
  | idleReport (p : Packet)                                                       -- R277
  | regRead (a : AgentRef) (p : Packet) (lvl : Level)                             -- R99
  | regWrite (a : AgentRef) (p : Packet)                                          -- R99
  | regResp (p : Packet)                                                          -- R99
  | events (p : Packet)                                                           -- R102
  | samples (p : Packet)                                                          -- R57
  | rekeyReq (p : Packet)                                                         -- R337
  | sleep (n : Node) (port : Nat) (p : Packet)                                    -- R429
  | portIdleTimeout (n : Node) (port : Nat)                                       -- R429
  | wakeRequest (port : Nat) (cls : WakeClass)                                    -- R431
  | wakeGrant (group : Nat)                                                       -- R432
  | wakeComplete (port : Nat)                                                     -- R429
  | eIdleRequest (a : AgentRef)                                                   -- R429
  | eDeepRequest (a : AgentRef)                                                   -- R429
  | eWake (a : AgentRef)                                                          -- R429
  | epochCfgWrite (lvl : Level) (v : Word64)                                      -- R115
  | syncArm (lvl : Level) (v : Word64)                                            -- R143
  | syncRearmTimer                                                                -- R142
  | syncInEdge (falling : Bool) (ns : Nat)                                        -- R441
  | ppsInEdge (ns : Nat)                                                          -- R441
  | ptpFrame (f : PtpFrame)                                                       -- R454
  | arpRequest (isArp : Bool) (ip : BitVec 32)                                    -- R454
  | retrainComplete (n : Node) (port lanes : Nat)                                 -- R136
  | portRetrain (lvl : Level) (v : Word64)                                        -- R91
  | rekey (lvl : Level) (v : Word64)                                              -- R91
  | commitDeadline                                                                -- R155
  | drainQuiet (d : DrainElem)                                                    -- R156
  | drainTimeout (d : DrainElem)                                                  -- R156
  | classificationClose                                                           -- R163
  | playResendTimer                                                               -- R164
  | autoPlayWrite (lvl : Level) (v : Word64)                                      -- R166
  | attemptResumeTimer (a : AgentRef)                                             -- R284
  | inv (e : Nat)
  | nop (e : Nat)
  | add (e : Nat)
  | sub (e : Nat)
  | mul (e : Nat)
  | mulhu (e : Nat)
  | divu (e : Nat)
  | remu (e : Nat)
  | and (e : Nat)
  | or (e : Nat)
  | xor (e : Nat)
  | shl (e : Nat)
  | shr (e : Nat)
  | sar (e : Nat)
  | minu (e : Nat)
  | maxu (e : Nat)
  | addi (e : Nat)
  | andi (e : Nat)
  | ori (e : Nat)
  | xori (e : Nat)
  | shli (e : Nat)
  | shri (e : Nat)
  | li (e : Nat)
  | lih (e : Nat)
  | sel (e : Nat)
  | bfx (e : Nat)
  | bfi (e : Nat)
  | popc (e : Nat)
  | clz (e : Nat)
  | crc (e : Nat)
  | cmp (e : Nat)
  | cmpi (e : Nat)
  | ld (e : Nat)
  | lds (e : Nat)
  | st (e : Nat)
  | ldl (e : Nat)
  | stl (e : Nat)
  | cas (e : Nat)
  | fadd (e : Nat)
  | mcopy (e : Nat)
  | tlook (e : Nat)
  | seal (e : Nat)
  | tinst (e : Nat)
  | tstage (e : Nat)
  | send (e : Nat)
  | wait (e : Nat)
  | tagComplete (e tag status : Nat) (result : Word64)                            -- R185
  | recv (e : Nat)
  | rread (e : Nat)
  | rwrite (e : Nat)
  | evwait (e : Nat)
  | evwaitDeadline (e : Nat)                                                      -- R174
  | evsub (e : Nat)
  | evpost (e : Nat)
  | time (e : Nat)
  | epoch (e : Nat)
  | glaunch (e : Nat)
  | gresv (e : Nat)
  | grel (e : Nat)
  | gcancel (e : Nat)
  | imgrun (e : Nat)
  | plook (e : Nat)
  | pload (e : Nat)
  | kvlook (e : Nat)
  | kvput (e : Nat)
  | kvmove (e : Nat)
  | foot (e : Nat) (fp : Footprint)
  | hopen (e : Nat)
  | hclose (e : Nat)
  | hdup (e : Nat)
  | hinfo (e : Nat)
  | kgen (e : Nat)
  | kwrap (e : Nat)
  | kinst (e : Nat)
  | kzero (e : Nat)
  | mext (e : Nat)
  | zfill (e : Nat)
  | lcadv (e : Nat)
  | br (e : Nat)
  | call (e : Nat)
  | ret (e : Nat)
  | loop (e : Nat)
  | plog (e : Nat)
  | halt (e : Nat)
  | trap (e : Nat)
  | fence (e : Nat)
  | sqDoorbell (q : Nat) (v : BitVec 32)                                          -- R200
  | cqHeadDoorbell (q : Nat) (v : BitVec 32)                                      -- R200
  | queueFetch (q : Nat)                                                          -- R201
  | queueEnable (lvl : Level) (q : Nat) (v : Word64)                              -- R199
  | queueDisable (lvl : Level) (q : Nat) (v : Word64)                             -- R216
  | engineGrant (q : Nat)                                                         -- R203
  | cmdNop (q : Nat)                                                              -- R205
  | load (q : Nat) (sigOk : Bool)                                                 -- R208
  | unload (q : Nat)                                                              -- R205
  | run (q : Nat)                                                                 -- R210
  | cancel (q : Nat)                                                              -- R216
  | imgload (q : Nat) (sigOk selfCheckOk : Bool)                                  -- R221
  | imgfree (q : Nat)                                                             -- R224
  | imgfreeComplete (image : Nat)                                                 -- R224
  | admission (q : Nat) (b : Bundle)                                                  -- R206
  | wallTimeLimit (e : Nat)                                                       -- R212
  | launch (a : AgentRef) (group : Nat) (p : Packet)                              -- R245
  | launchNotice (p : Packet) (group : Nat) (opSeq : BitVec 32) (sparse : Bool)-- R274
  | ticketGrant                                                                   -- R275
  | go (a : AgentRef) (p : Packet) (g : GoNotice)                                        -- R276
  | chunk (n : Node) (p : Packet)                                                 -- R255
  | chunkResult (n : Node) (p : Packet)                                           -- R255
  | chunkAck (n : Node) (p : Packet)                                              -- R255
  | chunkTimeout (a : AgentRef) (group : Nat) (opSeq : BitVec 32) (index : Nat)   -- R257
  | reservationReleaseTimer (group : Nat)                                         -- R277
  | crossOrderTimer (ticket : Nat)                                                -- R279
  | dispatch (a : AgentRef) (port : Nat) (p : Packet)                             -- R301
  | dispatchCopy (a : AgentRef) (p : Packet)                                      -- R302
  | pendingRecordTimeout (a : AgentRef) (src : Fid) (stream : BitVec 16) (seq : BitVec 32)  -- R305
  | brokerWindowEnd                                                               -- R309
  | kvOpen (p : Packet)                                                           -- R316
  | kvGrow (p : Packet)                                                           -- R318
  | kvClose (p : Packet)                                                          -- R314
  | kvPrefetch (p : Packet)                                                       -- R319
  | kvRenew (p : Packet)                                                          -- R321
  | kvMoveStart                                                                   -- R319
  | kvGraceTimer                                                                  -- R319
  | partOpen (lvl : Level) (v : Word64)                                           -- R329
  | partEnd (lvl : Level) (v : Word64)                                            -- R330
  | partFree (part : Nat)                                                         -- R330
  | devAssign (lvl : Level) (v : Word64)                                          -- R329
  | devRelease (lvl : Level) (v : Word64)                                         -- R329
  | devRescrub (lvl : Level) (v : Word64)                                         -- R329
  | scrubStart (dev : Nat)                                                        -- R345
  | scrubZeroDone (a : AgentRef)                                                  -- R346
  | scrubVerifyDone (a : AgentRef) (zeroed verified : Nat)                        -- R346
  | scrubStatusTimer (a : AgentRef)                                               -- R347
  | scrubStatus (p : Packet)                                                      -- R347
  | scrubStatusMissing (dev : Nat)                                                -- R347
  | bootImageVerified (image : Nat) (digest : BitVec 384)                         -- R355
  | getVersion
  | getCapabilities
  | negotiateAlgorithms
  | getDigests
  | getCertificate (offset length : Nat)
  | challenge (nonce : BitVec 256)                                                -- R351
  | getMeasurements (nonce : BitVec 256) (index : Nat)                            -- R354
  | spdmUnsupported (code : BitVec 8)                                             -- R350
  | eventIngress (ev : Option Event)                                              -- R370
  | eventServe                                                                    -- R373
  | ledgerWrite                                                                   -- R385
  | msBoundary                                                                    -- R388
  | flashCopy                                                                     -- R389
  | recordCloseTimer (origin : Fid) (source : Nat)                                -- R389
  | shadowClose (block : Nat)                                                     -- R375
  | resetTimeout (block : Nat)                                                    -- R378
  | quietExpire (block : Nat)                                                     -- R379
  | fltForce (lvl : Level) (n : Nat) (v : Word64)                                 -- R365
  | severityWrite (lvl : Level) (n : Nat) (v : Word64)                            -- R364
  | faultnClr (lvl : Level) (v : Word64)                                          -- R382
  | actCopyArrive (gate die unit seq : Nat) (content : List Byte)                 -- R395
  | voteTimeout (gate unit seq : Nat)                                             -- R395
  | fenceEffect                                                                   -- R397
  | fenceReq (lvl : Level) (v : Word64)                                           -- R399
  | resyncReq (lvl : Level) (v : Word64)                                          -- R398
  | resyncPassDone (markedBytes : Nat)                                            -- R401
  | resyncPauseDone (digestsEqual : Bool)                                         -- R401
  | gateProbeTimer                                                                -- R403
  | comparatorSelftest (gate : Nat) (detected : Bool)                             -- R403
  | digestProbeTimer (digests : List (BitVec 384))                                -- R403
  | patrolRead (parityErrors : List Nat)                                          -- R403
  | pairEnable (lvl : Level) (v : Word64)                                         -- R404
  | mirror (p : Packet)                                                           -- R405
  | mirrorLagTimeout                                                              -- R406
  | heartbeatTimer                                                                -- R407
  | heartbeat (path : HbPath) (bytes : List Byte)                                 -- R410
  | hbPathLost (path : HbPath)                                                    -- R409
  | takeoverStart                                                                 -- R412
  | holdExpire                                                                    -- R411
  | healthReportTimer                                                             -- R414
  | powerGood                                                                     -- R417
  | bringupPhaseDone (r : PhaseResult)                                            -- R417
  | powerLoss                                                                     -- R447
  | resetNAssert                                                                  -- R426
  | ctrlReset (lvl : Level) (v : Word64)                                          -- R426
  | blockReset (lvl : Level) (v : Word64)                                         -- R427
  | perstAssert (hub : Nat)                                                       -- R453
  | linkTrainDone (n : Node) (port lanes planned delayPs : Nat) (far : Fid) (farPort : Nat)  -- R421
  | trainTimeout (n : Node) (port : Nat)                                          -- R421
  | discoveryClose                                                                -- R424
  | powerInterval (packageW : Nat) (endpoints : List (Nat × Nat))                 -- R344
  | supplyBackInRange (source : Nat)                                              -- R7
  | blockResetDone (block : Nat) (katPass : Bool) (startNs : Nat)                 -- R379
  | perstDeassert (hub : Nat)                                                     -- R453
  | lrstDeassert (a : AgentRef)                                                   -- R43
  | resetNDeassert                                                                -- R426
  | jtagInternalScan (digest : BitVec 384)                                        -- R457
  | localPathWrite (a : AgentRef) (offset : Nat) (v : Word64)                     -- R67
  | gqCqHeadDoorbell (a : AgentRef) (q : Nat) (v : BitVec 32)                     -- R226
  | partRecordTimeout (a : AgentRef) (src : Fid) (tag : Word64)                   -- R306
  | switchWindowEnd (a : AgentRef)                                                -- R308
  | hostReadCompletion (q : Nat) (what : HostRead) (ok : Bool) (data : List Byte) -- R201
  | claimAckTimeout (dest : Fid)                                                  -- R412
deriving DecidableEq, Repr

end Sys2Proof
end

