-- ==== Sys2Proof/Decode.lean ====
section
/-! DEFINITION. Commands from table words. spec/opcode_table.json gives no bits for any of its rows (no match, no mask, no
fields), so no word spells a command and the block has no decoder. -/

namespace Sys2Proof

/-- The command that a word of `nbits` bits spells by the table's bits: none, since no row gives bits. -/
def decodeTableWord (_nbits _w : Nat) : Option Instr := none

end Sys2Proof
end

