-- ==== Sys2Proof/Config.lean ====
section
/-! DEFINITION. What an implementation fixes and the free values: constants without a body, so that no proof can see their values. -/

namespace Sys2Proof

/-- A fresh free value: what the spec leaves open, number `n` of the run (log entry 2). -/
opaque Config.free (n : Nat) : BitVec 64

/-- RELEASE of JX_ID of agent number `n` (R68, "Macro release", log entry 4). -/
opaque Config.macroRelease (n : Nat) : BitVec 12

/-- PORTS of JX_ID of agent number `n` (R68, "As integrated", log entry 4). -/
opaque Config.portCount (n : Nat) : BitVec 10

/-- The default severity the licensee gives agent source 224 to 255 at integration (R62, R362, log entry 4). -/
opaque Config.licenseeSeverity (agent source : Nat) : BitVec 3

/-- The STREAM that controller and agents give packets of their own for which no rule names a stream: one of the
reserved values (R93, log entry 14). -/
opaque Config.ownStream : BitVec 16

/-- The STREAM of the controller's BCAST packets, whose copies every agent receives (R93, R152, log entry 20). -/
opaque Config.bcastStream : BitVec 16

/-- What entry `entry` of fabric image `image` writes for these input bytes (R190, R220: the image body is the
planner's format, log entry 5). -/
opaque Config.imageOutput (image entry : Nat) (input : List Byte) : List Byte

/-- Key material RT0 draws for key number `n` (R331, R332: never readable, log entry 6). -/
opaque Config.keyMaterial (n : Nat) : BitVec 256

/-- AES-256-GCM of RT0: 32 bytes of wrapped key and a 16-byte tag under a key, a nonce and additional data
(R334: the cipher is the standard's, log entry 6). -/
opaque Config.gcmWrap (key : BitVec 256) (nonce : BitVec 96) (aad : List Byte) (plain : BitVec 256) : List Byte

/-- AES-256-GCM of a link under key number `key`: ciphertext and 16-byte tag (R82, R83: the cipher is the standard's, log
entry 6). -/
opaque Config.gcmFrame (key : Nat) (nonce : BitVec 96) (aad plain : List Byte) : List Byte

/-- An ECDSA P-384 signature by the alias key over these bytes, 96 bytes (R348, R351, log entry 6). -/
opaque Config.aliasSign (bytes : List Byte) : List Byte

/-- The certificate chain of slot 0 in bytes (R350, R351, log entry 6). -/
opaque Config.certificateChain : List Byte

/-- The ROM identity and fuse configuration that MEAS0 is extended with (R352, log entry 6). -/
opaque Config.romIdentity : BitVec 384

/-- Element `i` of an MX block that takes scale 0xFF: R251 states no elements (log entry 22). -/
opaque Config.nanBlockElement (i : Nat) : BitVec 8

/-- Payload of a GO packet (R276: what it names is given, its layout is not; log entry 9). -/
opaque Config.goPayload (group : Nat) (opSeq : BitVec 32) (algo : Nat) (tree : BitVec 24) (generation : BitVec 8)
    (reissue : Bool) (parentTree : Option (BitVec 24)) : List (BitVec 8)

/-- How an SPDM request reaches the device (R350, R456): a PCIe vendor-defined message of H0 or H1, or an SMBus block write of H3 with
its address, its bytes (command code, byte count, source address, MCTP packet) and its PEC. -/
inductive SpdmPath where
  | pcie (hub : Nat)
  | smbus (addr : Nat) (bytes : List (BitVec 8)) (pec : BitVec 8)
deriving DecidableEq, Repr, Inhabited

/-- The path over which an SPDM request comes, which no row of the table names (R350, R456; log entry 166). -/
opaque Config.spdmPath (n : Nat) : SpdmPath

/-- The squares of a quarter, 0 to 575, that fail the next known-answer run (R21: which fail is not given; log entry 174). -/
opaque Config.failingSquares (n : Nat) : List Nat

/-- The SMB_ADDR[1:0] straps (R456): the board sets them; log entry 166. -/
opaque Config.smbAddr : BitVec 2

/-- The image of this digest is a root image: controller roots combine through a triple of it (R239: how a root image is told from
others is not given; log entry 164). -/
opaque Config.rootImage (digest : BitVec 384) : Bool

/-- Payload of a LAUNCH_NOTICE packet (R274: what it names is given, its layout is not; log entry 9). -/
opaque Config.launchNoticePayload (group : Nat) (opSeq : BitVec 32) : List (BitVec 8)

/-- Payload of a DISCOVER_RESP packet of agent number `n` (R422; log entry 9). -/
opaque Config.discoverPayload (n : Nat) : List (BitVec 8)

/-- WRITE windows the controller registers for an endpoint of a partition: base and length (R95, R227: the spec says they
are registered and not by what; log entry 23). -/
opaque Config.windows (partition endpoint : Nat) : List (Nat × Nat)

/-- Receive ring the controller registers for an endpoint of a partition: base and log2 of the slots, 4 to 12 (R227, log
entry 23). -/
opaque Config.rxRing (partition endpoint : Nat) : Option (Nat × Nat)

/-- Bytes of the objects of R176 whose size no rule gives (log entry 24). -/
opaque Config.objectSize (kind obj : Nat) : Nat

/-- The inbox message of an engine's own completion or of an event delivered to a subscriber (R194, R189; log entry 25). -/
opaque Config.inboxMessage (kind source severity : Nat) (detail : BitVec 16) : List (BitVec 8)

/-- What a mirror record of one kind of mirrored state holds after its sequence number (R405: what is mirrored is given, its
layout is not; log entry 9). -/
opaque Config.mirrorItem (item seq : Nat) : List (BitVec 8)

/-- The command journal of a mirror record of row 4: queue, CMD_ID and opcode of each command that had started and not completed
(R219, R405: what it records is given, its layout is not; log entry 9). -/
opaque Config.mirrorJournal (item : List (BitVec 8)) : List (Nat × Nat × Nat)

/-- The queue configuration of a mirror record of row 4: queue and CTL_CQn_CFG word (R219, R405; log entry 9). -/
opaque Config.mirrorQueues (item : List (BitVec 8)) : List (Nat × BitVec 64)

/-- The patches of the base route, broadcast, domain-map and tree tables the controller compiles for the agent of a fabric ID
(R424: that it compiles them is given, which routes it chooses is not; log entry 45). `n` numbers the compilation. -/
opaque Config.baseTables (n fid : Nat) : List (BitVec 8)

/-- Offset in ps of H3's counter from H2's at a controller time (R30: within 2,000 ps either way; its value is not given; log
entry 48): the offset plus 2,000, taken modulo 4,001. -/
opaque Config.standbyOffset (now : Nat) : Nat

/-- The time in ps a beacon spends in an agent before its replica leaves (R100: measured, not given; log entry 26). -/
opaque Config.residencePs (agent : Nat) (seq : BitVec 32) : Nat

end Sys2Proof
end

