-- ==== Sys2Proof/Machine/Maps.lean ====
section
/-! DEFINITION. Sparse maps and byte memories: sorted association lists, so that equal contents are equal data. -/

namespace Sys2Proof.Machine

/-- A map from numbers, sorted by key. -/
abbrev NMap (α : Type) := List (Nat × α)

/-- The entry of a key, if listed. -/
def NMap.get {α : Type} : NMap α → Nat → Option α
  | [], _ => none
  | (k, v) :: t, i => if k = i then some v else NMap.get t i

/-- Lists a value under a key, keeping the order of keys. -/
def NMap.set {α : Type} : NMap α → Nat → α → NMap α
  | [], i, x => [(i, x)]
  | (k, v) :: t, i, x =>
    if i < k then (i, x) :: (k, v) :: t else if i = k then (i, x) :: t else (k, v) :: NMap.set t i x

/-- Unlists a key. -/
def NMap.erase {α : Type} : NMap α → Nat → NMap α
  | [], _ => []
  | (k, v) :: t, i => if k = i then t else (k, v) :: NMap.erase t i

/-- The entry of a key, or a default. -/
def NMap.getD {α : Type} (m : NMap α) (i : Nat) (d : α) : α := (m.get i).getD d

/-- Keeps the entries that satisfy a test. -/
def NMap.keep {α : Type} (m : NMap α) (p : Nat → α → Bool) : NMap α := m.filter fun x => p x.1 x.2

/-- Changes every entry. -/
def NMap.mapVals {α : Type} (m : NMap α) (f : Nat → α → α) : NMap α := m.map fun x => (x.1, f x.1 x.2)

/-- Number of entries that satisfy a test. -/
def NMap.countIf {α : Type} (m : NMap α) (p : Nat → α → Bool) : Nat := (m.filter fun x => p x.1 x.2).length

/-- A byte memory: listed bytes at rising addresses, none of them zero; an unlisted byte reads 0 (log entry 10). -/
abbrev Memory := List Host.Cell

/-- What an unlisted address reads as. -/
def Memory.unlisted : Byte := 0

/-- One byte of a memory. -/
def Memory.read : Memory → Nat → Byte
  | [], _ => Memory.unlisted
  | (k, v) :: t, a => if k = a then v else Memory.read t a

/-- Writes one byte, keeping the canonical form. -/
def Memory.write : Memory → Nat → Byte → Memory
  | [], a, b => if b = Memory.unlisted then [] else [(a, b)]
  | (k, v) :: t, a, b =>
    if a < k then (if b = Memory.unlisted then (k, v) :: t else (a, b) :: (k, v) :: t)
    else if a = k then (if b = Memory.unlisted then t else (a, b) :: t)
    else (k, v) :: Memory.write t a b

/-- The canonical form: addresses strictly rising from `lo`, no byte equal to the unlisted one. -/
def Memory.wfFrom : Nat → Memory → Bool
  | _, [] => true
  | lo, (k, v) :: t => decide (lo ≤ k) && decide (v ≠ Memory.unlisted) && Memory.wfFrom (k + 1) t

/-- The canonical form of a memory. -/
def Memory.wf (m : Memory) : Bool := Memory.wfFrom 0 m

/-- `n` bytes from an address on. -/
def Memory.readBytes (m : Memory) (a : Nat) : Nat → List Byte
  | 0 => []
  | n + 1 => m.read a :: Memory.readBytes m (a + 1) n

/-- Writes bytes from an address on. -/
def Memory.writeBytes (m : Memory) (a : Nat) : List Byte → Memory
  | [] => m
  | b :: t => Memory.writeBytes (m.write a b) (a + 1) t

/-- Sets `n` bytes from an address on to zero. -/
def Memory.zero (m : Memory) (a n : Nat) : Memory := m.filter fun c => decide (c.1 < a ∨ a + n ≤ c.1)

/-- Changes the element at an index of a list (nothing beyond its end). -/
def listSet {α : Type} : List α → Nat → α → List α
  | [], _, _ => []
  | _ :: t, 0, x => x :: t
  | y :: t, i + 1, x => y :: listSet t i x

/-- Removes the first element that satisfies a test. -/
def removeFirst {α : Type} (p : α → Bool) : List α → List α
  | [] => []
  | x :: t => if p x then t else x :: removeFirst p t

/-- Removes the last element that satisfies a test. -/
def removeLast {α : Type} (p : α → Bool) (l : List α) : List α := (removeFirst p l.reverse).reverse

/-- Changes the first element that satisfies a test. -/
def updateFirst {α : Type} (p : α → Bool) (f : α → α) : List α → List α
  | [] => []
  | x :: t => if p x then f x :: t else x :: updateFirst p f t

end Sys2Proof.Machine
end

