-- ==== Sys2Proof/Machine/Bytes.lean ====
section
/-! DEFINITION. Byte orders (R470), CRC-32C (R104) and SHA-384 (the hash the spec names in R207, R348, R352; FIPS 180-4). -/

namespace Sys2Proof.Machine

/-- The low `n` bytes of a number, least significant first (R470). -/
def leBytes : Nat → Nat → List Byte
  | 0, _ => []
  | n + 1, v => BitVec.ofNat 8 v :: leBytes n (v / 256)

/-- The number whose bytes these are, least significant first. -/
def leNat : List Byte → Nat
  | [] => 0
  | b :: t => b.toNat + 256 * leNat t

/-- The low `n` bytes of a number, most significant first (R470). -/
def beBytes (n v : Nat) : List Byte := (leBytes n v).reverse

/-- The number whose bytes these are, most significant first. -/
def beNat (l : List Byte) : Nat := leNat l.reverse

/-- Bytes `off` to `off + n - 1` of a record, padded with zeros. -/
def slice (l : List Byte) (off n : Nat) : List Byte := ((l.drop off).take n) ++ List.replicate (n - ((l.drop off).take n).length) 0

/-- A little-endian field of a record. -/
def leAt (l : List Byte) (off n : Nat) : Nat := leNat (slice l off n)

/-- A big-endian field of a record. -/
def beAt (l : List Byte) (off n : Nat) : Nat := beNat (slice l off n)

/-- `n` zero bytes. -/
def zeros (n : Nat) : List Byte := List.replicate n 0

/-- All bytes of a range of a record are zero. -/
def allZero (l : List Byte) (off n : Nat) : Bool := (slice l off n).all fun b => b == 0

/-- One bit of a CRC-32C step, reflected polynomial of 0x1EDC_6F41 (R104). -/
def crcBit (c : Nat) : Nat := if c % 2 = 1 then (c / 2) ^^^ 0x82F63B78 else c / 2

/-- One bit of the CRC-8 with polynomial x^8 + x^2 + x + 1. -/
def crc8Step (c : Nat) : Nat := if 128 ≤ c then (c * 2 % 256) ^^^ 7 else c * 2

/-- The packet error code of SMBus over bytes (R456; log entry 166). -/
def crc8 (l : List Byte) : Nat := l.foldl (fun c b => (List.range 8).foldl (fun x _ => crc8Step x) (c ^^^ b.toNat)) 0

/-- CRC-32C over one more byte (R104). -/
def crcByte (c : Nat) (b : Byte) : Nat :=
  crcBit (crcBit (crcBit (crcBit (crcBit (crcBit (crcBit (crcBit (c ^^^ b.toNat))))))))

/-- A CRC-32C step over bytes without initial value and final XOR (R186, CRC). -/
def crcRun (c : Nat) (l : List Byte) : Nat := l.foldl crcByte c

/-- CRC-32C with initial value and final XOR 0xFFFF_FFFF (R104). -/
def crc32c (l : List Byte) : Nat := crcRun 0xFFFFFFFF l ^^^ 0xFFFFFFFF

/-- Rotates a 32-bit value left (R150). -/
def rotl32 (x n : Nat) : Nat := ((x <<< n) ||| (x >>> (32 - n))) % 4294967296

/-! ## SHA-384 -/

/-- Rotates a 64-bit value right. -/
def rotr64 (x n : Nat) : Nat := ((x >>> n) ||| (x <<< (64 - n))) % 18446744073709551616

/-- The round constants. -/
def shaK : List Nat :=
  [0x428A2F98D728AE22, 0x7137449123EF65CD, 0xB5C0FBCFEC4D3B2F, 0xE9B5DBA58189DBBC,
  0x3956C25BF348B538, 0x59F111F1B605D019, 0x923F82A4AF194F9B, 0xAB1C5ED5DA6D8118,
  0xD807AA98A3030242, 0x12835B0145706FBE, 0x243185BE4EE4B28C, 0x550C7DC3D5FFB4E2,
  0x72BE5D74F27B896F, 0x80DEB1FE3B1696B1, 0x9BDC06A725C71235, 0xC19BF174CF692694,
  0xE49B69C19EF14AD2, 0xEFBE4786384F25E3, 0x0FC19DC68B8CD5B5, 0x240CA1CC77AC9C65] ++
  [0x2DE92C6F592B0275, 0x4A7484AA6EA6E483, 0x5CB0A9DCBD41FBD4, 0x76F988DA831153B5,
  0x983E5152EE66DFAB, 0xA831C66D2DB43210, 0xB00327C898FB213F, 0xBF597FC7BEEF0EE4,
  0xC6E00BF33DA88FC2, 0xD5A79147930AA725, 0x06CA6351E003826F, 0x142929670A0E6E70,
  0x27B70A8546D22FFC, 0x2E1B21385C26C926, 0x4D2C6DFC5AC42AED, 0x53380D139D95B3DF,
  0x650A73548BAF63DE, 0x766A0ABB3C77B2A8, 0x81C2C92E47EDAEE6, 0x92722C851482353B] ++
  [0xA2BFE8A14CF10364, 0xA81A664BBC423001, 0xC24B8B70D0F89791, 0xC76C51A30654BE30,
  0xD192E819D6EF5218, 0xD69906245565A910, 0xF40E35855771202A, 0x106AA07032BBD1B8,
  0x19A4C116B8D2D0C8, 0x1E376C085141AB53, 0x2748774CDF8EEB99, 0x34B0BCB5E19B48A8,
  0x391C0CB3C5C95A63, 0x4ED8AA4AE3418ACB, 0x5B9CCA4F7763E373, 0x682E6FF3D6B2B8A3,
  0x748F82EE5DEFB2FC, 0x78A5636F43172F60, 0x84C87814A1F0AB72, 0x8CC702081A6439EC] ++
  [0x90BEFFFA23631E28, 0xA4506CEBDE82BDE9, 0xBEF9A3F7B2C67915, 0xC67178F2E372532B,
  0xCA273ECEEA26619C, 0xD186B8C721C0C207, 0xEADA7DD6CDE0EB1E, 0xF57D4F7FEE6ED178,
  0x06F067AA72176FBA, 0x0A637DC5A2C898A6, 0x113F9804BEF90DAE, 0x1B710B35131C471B,
  0x28DB77F523047D84, 0x32CAAB7B40C72493, 0x3C9EBE0A15C9BEBC, 0x431D67C49C100D4C,
  0x4CC5D4BECB3E42B6, 0x597F299CFC657E2A, 0x5FCB6FAB3AD6FAEC, 0x6C44198C4A475817]

/-- The initial hash value of SHA-384. -/
def shaInit : List Nat :=
  [0xCBBB9D5DC1059ED8, 0x629A292A367CD507, 0x9159015A3070DD17, 0x152FECD8F70E5939,
  0x67332667FFC00B31, 0x8EB44A8768581511, 0xDB0C2E0D64F98FA7, 0x47B5481DBEFA4FA4]

/-- Splits bytes into `n` big-endian 64-bit words. -/
def shaWords : Nat → List Byte → List Nat
  | 0, _ => []
  | n + 1, l => beNat (l.take 8) :: shaWords n (l.drop 8)

/-- Extends a message schedule, newest word first, by `n` words. -/
def shaSchedule : Nat → List Nat → List Nat
  | 0, w => w
  | n + 1, w =>
    let a := w.getD 1 0
    let b := w.getD 14 0
    let s1 := rotr64 a 19 ^^^ rotr64 a 61 ^^^ (a >>> 6)
    let s0 := rotr64 b 1 ^^^ rotr64 b 8 ^^^ (b >>> 7)
    shaSchedule n (((s1 + w.getD 6 0 + s0 + w.getD 15 0) % 18446744073709551616) :: w)

/-- One round over the eight working words. -/
def shaRound (h : List Nat) (kw : Nat × Nat) : List Nat :=
  match h with
  | [a, b, c, d, e, f, g, hh] =>
    let t1 := hh + (rotr64 e 14 ^^^ rotr64 e 18 ^^^ rotr64 e 41) + ((e &&& f) ^^^ ((e ^^^ 0xFFFFFFFFFFFFFFFF) &&& g)) + kw.1 + kw.2
    let t2 := (rotr64 a 28 ^^^ rotr64 a 34 ^^^ rotr64 a 39) + ((a &&& b) ^^^ (a &&& c) ^^^ (b &&& c))
    [(t1 + t2) % 18446744073709551616, a, b, c, (d + t1) % 18446744073709551616, e, f, g]
  | _ => h

/-- One 128-byte block. -/
def shaBlock (h : List Nat) (block : List Byte) : List Nat :=
  let w := (shaSchedule 64 (shaWords 16 block).reverse).reverse
  let r := (shaK.zip w).foldl shaRound h
  (h.zip r).map fun x => (x.1 + x.2) % 18446744073709551616

/-- Blocks one after another. -/
def shaBlocks : Nat → List Nat → List Byte → List Nat
  | 0, h, _ => h
  | n + 1, h, l => shaBlocks n (shaBlock h (l.take 128)) (l.drop 128)

/-- The padded message. -/
def shaPad (l : List Byte) : List Byte :=
  let n := l.length
  let z := (128 - (n + 17) % 128) % 128
  l ++ [0x80] ++ zeros z ++ beBytes 16 (8 * n)

/-- SHA-384 of a byte string, most significant byte first (FIPS 180-4). -/
def sha384 (l : List Byte) : BitVec 384 :=
  let p := shaPad l
  let h := shaBlocks (p.length / 128) shaInit p
  BitVec.ofNat 384 (beNat ((h.take 6).flatMap fun x => beBytes 8 x))

/-- The 48 bytes of a digest, most significant first. -/
def digestBytes (d : BitVec 384) : List Byte := beBytes 48 d.toNat

/-- Extension of a measurement register: SHA-384(old || new) (R352). -/
def extendDigest (old new : BitVec 384) : BitVec 384 := sha384 (digestBytes old ++ digestBytes new)

end Sys2Proof.Machine
end

