-- ==== Sys2Proof/Machine/Packets.lean ====
section
/-! DEFINITION. Bytes of headers, packets, events and captures (R63, R82, R92, R104, R368, R470). -/

namespace Sys2Proof

open Sys2Proof.Machine

/-! ## Headers and packets (R82, R92, R104) -/

/-- CLASS code (R92). -/
def PktClass.code : PktClass → Nat
  | .express => 0
  | .collective => 1
  | .bulk => 2
  | .control => 3

/-- CLASS from its code. -/
def classOf (n : Nat) : PktClass := match n % 4 with | 0 => .express | 1 => .collective | 2 => .bulk | _ => .control

/-- A Bool as a bit. -/
def bit (b : Bool) : Nat := if b then 1 else 0

/-- The 256 header bits as a number (R92). -/
def Header.num (h : Header) : Nat :=
  h.dest.toNat * 2 ^ 224 + h.src.toNat * 2 ^ 192 + h.cls.code * 2 ^ 190 + bit h.ord * 2 ^ 189 + bit h.bcast * 2 ^ 188
    + bit h.resend * 2 ^ 187 + bit h.zblk * 2 ^ 186 + h.reserved.toNat * 2 ^ 184 + h.typ.toNat * 2 ^ 176
    + h.partition.toNat * 2 ^ 164 + h.hops.toNat * 2 ^ 158 + h.length.toNat * 2 ^ 145 + h.addr.toNat * 2 ^ 88
    + h.stream.toNat * 2 ^ 72 + h.seq.toNat * 2 ^ 40 + h.prec.toNat * 2 ^ 24 + h.aux.toNat

/-- The 32 header bytes, most significant first (R92, R470). -/
def Header.bytes (h : Header) : List Byte := beBytes 32 h.num

/-- Bits `lo` and up, `n` of them, of a number. -/
def bitsAt (v lo n : Nat) : Nat := v / 2 ^ lo % 2 ^ n

/-- A header from its 32 bytes (R92). -/
def Header.parse (l : List Byte) : Header :=
  let v := beNat (slice l 0 32)
  { dest := BitVec.ofNat 32 (bitsAt v 224 32), src := BitVec.ofNat 32 (bitsAt v 192 32), cls := classOf (bitsAt v 190 2)
    ord := bitsAt v 189 1 == 1, bcast := bitsAt v 188 1 == 1, resend := bitsAt v 187 1 == 1
    zblk := bitsAt v 186 1 == 1, reserved := BitVec.ofNat 2 (bitsAt v 184 2), typ := BitVec.ofNat 8 (bitsAt v 176 8)
    partition := BitVec.ofNat 12 (bitsAt v 164 12), hops := BitVec.ofNat 6 (bitsAt v 158 6)
    length := BitVec.ofNat 13 (bitsAt v 145 13), addr := BitVec.ofNat 57 (bitsAt v 88 57)
    stream := BitVec.ofNat 16 (bitsAt v 72 16), seq := BitVec.ofNat 32 (bitsAt v 40 32)
    prec := BitVec.ofNat 16 (bitsAt v 24 16), aux := BitVec.ofNat 24 (bitsAt v 0 24) }

/-- Payload flits of a packet (R82). -/
def Header.flits (h : Header) : Nat := (h.length.toNat + 63) / 64

/-- Bytes of the packet's frame on a link (R82). -/
def Header.frameBytes (h : Header) : Nat := 64 + 64 * h.flits

/-- Credit units of the packet's frame (R88). -/
def Header.units (h : Header) : Nat := 1 + h.flits

/-- A packet from a source without an ID that is no discovery response (R78). -/
def Header.homeless (h : Header) : Bool := h.src == noFid && !(h.cls == .control && h.typ == 0x28)

/-- A credit frame, link-local (R90). -/
def Header.isCredit (h : Header) : Bool := h.cls == .control && h.typ == 0

/-- A chunk of KIND 2: a short frame that goes ahead of Control (R246, R262). -/
def Header.isShort (h : Header) : Bool :=
  h.cls == .collective && decide (0x10 ≤ h.typ.toNat ∧ h.typ.toNat ≤ 0x12) && bitsAt h.aux.toNat 4 4 == 2

/-- A frame that draws on the Control bucket (R103, R262). -/
def Header.drawsBucket (h : Header) : Bool := h.cls == .control || h.isShort

/-- CRC-32C of a packet: header with HOPS zero, then the padded payload (R104). -/
def Packet.crcOf (p : Packet) : BitVec 32 :=
  BitVec.ofNat 32 (crc32c (Header.bytes { p.hdr with hops := 0 } ++ slice p.payload 0 (64 * p.hdr.flits)))

/-- The packet with its CRC computed (R104). -/
def Packet.seal (p : Packet) : Packet := { p with crc := p.crcOf }

/-- The packet's CRC agrees (R104). -/
def Packet.crcOk (p : Packet) : Bool := p.crc == p.crcOf

/-- What a frame encrypts (R82): header, payload padded to whole flits, CRC-32C with its least significant byte first (R104),
credit word. DEDUCED (log entry 145): the credit word is little-endian like every field R470 does not name. -/
def Packet.framePlain (p : Packet) (credit : BitVec 32) : List Byte :=
  p.hdr.bytes ++ slice p.payload 0 (64 * p.hdr.flits) ++ leBytes 4 p.crc.toNat ++ leBytes 4 credit.toNat

/-- The bytes of a frame on a link (R82, R83): PKT_CTR, the encrypted part and the tag of AES-256-GCM, whose nonce is the link
salt followed by PKT_CTR and whose additional data is PKT_CTR. -/
def Packet.frame (p : Packet) (key : Nat) (salt : BitVec 32) (ctr : Nat) (credit : BitVec 32) : List Byte :=
  let plain := p.framePlain credit
  let nonce : BitVec 96 := BitVec.ofNat 96 (salt.toNat * 2 ^ 64 + ctr)
  beBytes 8 ctr ++ slice (Config.gcmFrame key nonce (beBytes 8 ctr) plain) 0 (plain.length + 16)

/-- LENGTH for a payload. -/
def lenOf (l : List Byte) : BitVec 13 := BitVec.ofNat 13 l.length

/-! ## Events -/

/-- The 16-byte agent event record (R63). -/
def Event.record (e : Event) : List Byte :=
  leBytes 8 e.timeNs ++
    [BitVec.ofNat 8 e.source,
     BitVec.ofNat 8 (e.severity * 32 + bit e.shadow * 16 + bit e.capture.isSome * 8 + bit e.forced * 4)] ++
    leBytes 2 e.count ++ leBytes 2 e.port ++ leBytes 2 e.detail.toNat

/-- The 16-byte capture record (R368). -/
def Capture.record (c : Capture) : List Byte :=
  leBytes 8 c.addr.toNat ++ leBytes 4 c.initiator.toNat ++ [c.access] ++ zeros 3

/-- An event with its capture record: its records in an EVENTS packet. -/
def Event.records (e : Event) : List Byte :=
  e.record ++ (match e.capture with | some c => c.record | none => [])

/-- Records an event takes in an EVENTS packet (R368). -/
def Event.slots (e : Event) : Nat := if e.capture.isSome then 2 else 1

/-- Identical in the sense of R64 and R370, origins aside. -/
def Event.same (a b : Event) : Bool :=
  a.source == b.source && a.port == b.port && a.severity == b.severity && a.detail == b.detail
    && a.shadow == b.shadow && a.forced == b.forced

/-- Packets of the controller that follow an acknowledged mirror record: COMMIT, STAGE, RESERVE, GO and CLAIM (R405). -/
def Header.behindMirror (h : Header) : Bool :=
  h.cls == .control && [0x23, 0x24, 0x2B, 0x2D, 0x33].contains h.typ.toNat

end Sys2Proof
end

