-- ==== Sys2Proof/Machine/Operands.lean ====
section
/-! DEFINITION. The Alanik instruction word: its fields by format (R178, R179), which fields an instruction uses, which words
are illegal (R180), and what an instruction names as its destinations (R182). -/

namespace Sys2Proof.Machine

/-! ## Fields (R178, R179) -/

/-- A field of a word: its low bit and its width. -/
def wf (w : Word64) (lo n : Nat) : Nat := bitsAt w.toNat lo n

/-- OP, the guard's NEG and PIDX (R178). -/
def wOp (w : Word64) : Nat := wf w 56 8
def wNeg (w : Word64) : Bool := wf w 55 1 == 1
def wPidx (w : Word64) : Nat := wf w 52 3

/-- RD (RT in format M), RA, RB, RC (R179). -/
def wRd (w : Word64) : Nat := wf w 46 6
def wRa (w : Word64) : Nat := wf w 40 6
def wRb (w : Word64) : Nat := wf w 34 6
def wRc (w : Word64) : Nat := wf w 28 6

/-- MOD of format R, with the bit range of BFX and BFI (R179, R186). -/
def wMod (w : Word64) : Nat := wf w 16 12
def wHi (w : Word64) : Nat := wf w 22 6
def wLo (w : Word64) : Nat := wf w 16 6

/-- Handles, MOD and IMM of format H; MOD[2:0] names the status predicate, MOD[3] a variant, MOD[5:3] a code. -/
def wHa (w : Word64) : Nat := wf w 30 4
def wHb (w : Word64) : Nat := wf w 26 4
def wHd (w : Word64) : Nat := wf w 22 4
def wModH (w : Word64) : Nat := wf w 16 6
def wSp (w : Word64) : Nat := wf w 16 3
def wMod3 (w : Word64) : Bool := wf w 19 1 == 1
def wModHi (w : Word64) : Nat := wf w 19 3
def wImmH (w : Word64) : Nat := wf w 0 16

/-- IMM of formats I and B, sign-extended. -/
def wImm (w : Word64) : Word64 := (BitVec.ofNat 40 w.toNat).signExtend 64

/-- HS, SZ and OFF of format M. -/
def wHs (w : Word64) : Nat := wf w 36 4
def wSz (w : Word64) : Nat := wf w 33 3
def wOff (w : Word64) : Word64 := (BitVec.ofNat 33 w.toNat).signExtend 64

/-- PD and PC of formats C and CI; COND and COMB of each; IMM of format CI, sign-extended. -/
def wPd (w : Word64) : Nat := wf w 49 3
def wPc (w : Word64) : Nat := wf w 46 3
def wCond (w : Word64) : Nat := wf w 30 4
def wComb (w : Word64) : Nat := wf w 28 2
def wCondI (w : Word64) : Nat := wf w 36 4
def wCombI (w : Word64) : Nat := wf w 34 2
def wImmC (w : Word64) : Word64 := (BitVec.ofNat 34 w.toNat).signExtend 64

/-- Bytes an access of a size code takes (R179). -/
def szBytes (sz : Nat) : Nat :=
  if sz = 0 then 1 else if sz = 1 ∨ sz = 5 then 2 else if sz = 2 ∨ sz = 6 then 4 else if sz = 4 then 64 else 8

/-- A value from the bytes of an access: size codes 5 to 7 are big-endian (R179). -/
def szValue (sz : Nat) (l : List Byte) : Nat := if 5 ≤ sz then beNat l else leNat l

/-- The bytes of a value for an access of a size code. -/
def szStore (sz v : Nat) : List Byte :=
  let n := szBytes sz
  if 5 ≤ sz then beBytes n (v % 2 ^ (8 * n)) else leBytes n (v % 2 ^ (8 * n))

/-! ## Fields an instruction uses (R180, R186 to R193) -/

/-- The bits of a field. -/
def fm (lo n : Nat) : Nat := (2 ^ n - 1) * 2 ^ lo

def mRd : Nat := fm 46 6
def mRa : Nat := fm 40 6
def mRb : Nat := fm 34 6
def mHa : Nat := fm 30 4
def mHb : Nat := fm 26 4
def mHd : Nat := fm 22 4
def mSp : Nat := fm 16 3
def mImmH : Nat := fm 0 16
def mI : Nat := mRd + mRa + fm 0 40
def mM : Nat := mRd + mRa + fm 0 40
def mR3 : Nat := mRd + mRa + mRb

/-- The bits an opcode uses below its guard; `none` for an undefined opcode. -/
def usedMask (op : Nat) : Option Nat :=
  if op = 0x00 ∨ op = 0x01 ∨ op = 0x87 then some 0
  else if op ≤ 0x0F then some mR3
  else if op = 0x16 then some (mRd + fm 0 40)
  else if op ≤ 0x17 then some mI
  else if op = 0x18 then some (mR3 + fm 28 6)
  else if op = 0x19 then some (mRd + mRa + fm 16 12)
  else if op = 0x1A then some (mR3 + fm 16 12)
  else if op = 0x1B ∨ op = 0x1C then some (mRd + mRa)
  else if op = 0x1D then some (mR3 + fm 16 4)
  else if op = 0x1E ∨ op = 0x84 then some (mRd + mRa + mRb + fm 28 6)
  else if op = 0x1F then some mI
  else if op ≤ 0x26 then some mM
  else if op = 0x27 then some (mR3 + mHa + mHd)
  else if op = 0x28 then some (mRd + mRa + mHa + fm 19 1)
  else if op = 0x29 then some (mR3 + mHa + mImmH)
  else if op = 0x2A then some (mRd + mHa)
  else if op = 0x2B then some (mRd + mRa + mHa)
  else if op = 0x30 then some (mRd + mHa + fm 16 4)
  else if op = 0x31 then some (mRd + mRa + mSp)
  else if op = 0x32 then some (mRd + mHd + mSp)
  else if op = 0x33 then some (mRd + mRa + mImmH + mSp)
  else if op = 0x34 then some (mR3 + mImmH + mSp)
  else if op = 0x40 then some (mRd + mRa + mHa + mHb)
  else if op = 0x41 then some (mRd + mHb + mSp)
  else if op = 0x42 then some mHb
  else if op = 0x43 then some (mRd + mRa)
  else if op = 0x44 then some (mR3 + mHa + mHb + mHd + mImmH)
  else if op = 0x50 then some (mRd + mRb)
  else if op = 0x51 ∨ op = 0x52 then some (mRa + mRb + fm 19 3)
  else if op = 0x53 ∨ op = 0x54 then some mRd
  else if op = 0x60 ∨ op = 0x61 ∨ op = 0x64 then some (mR3 + mHa)
  else if op = 0x62 then some (mR3 + mSp)
  else if op = 0x63 then some mR3
  else if op = 0x65 then some (mHa + mHd + mSp)
  else if op = 0x70 then some (mRa + mHd + mImmH + mSp)
  else if op = 0x71 ∨ op = 0x77 then some mHa
  else if op = 0x72 then some (mHa + mHd + mImmH)
  else if op = 0x73 ∨ op = 0x79 then some (mRd + mHa)
  else if op = 0x74 then some (mHd + mImmH)
  else if op = 0x75 then some (mRd + mRa + mHa + mHb + mHd)
  else if op = 0x76 then some (mR3 + mHa + fm 19 3)
  else if op = 0x78 then some (mRa + mRb + mHa)
  else if op = 0x7A then some (mRa + mSp)
  else if op = 0x80 then some (fm 0 40)
  else if op = 0x81 then some (mRd + fm 0 40)
  else if op = 0x82 ∨ op = 0x85 ∨ op = 0x86 then some mRa
  else if op = 0x83 then some (mRa + fm 0 40)
  else none

/-- The field values an instruction's row allows (R179 to R181, R186 to R193). With COMB 0 the PC field is unused. -/
def rowOk (w : Word64) : Bool :=
  let op := wOp w
  let rd := wRd w
  let sz := wSz w
  let wide : Bool := rd % 8 == 0 && rd != 0
  if op = 0x14 ∨ op = 0x15 then wf w 6 34 == 0
  else if op = 0x17 then wf w 24 16 == 0
  else if op = 0x18 then decide (wRc w < 8)
  else if op = 0x19 ∨ op = 0x1A then decide (wLo w ≤ wHi w)
  else if op = 0x1D then decide (1 ≤ wf w 16 4 ∧ wf w 16 4 ≤ 8)
  else if op = 0x1E then decide (wCond w < 8 ∧ wComb w < 3) && (wComb w != 0 || wPc w == 0)
  else if op = 0x1F then decide (wCondI w < 8 ∧ wCombI w < 3) && (wCombI w != 0 || wPc w == 0)
  else if op = 0x84 then decide (wRa w < 8 ∧ wRb w < 8 ∧ wComb w < 3) && (wComb w != 0 || wPc w == 0)
  else if op = 0x20 ∨ op = 0x21 ∨ op = 0x22 then sz != 4
  else if op = 0x23 then sz == 4 && wide
  else if op = 0x24 then sz == 4
  else if op = 0x25 then (sz == 2 || sz == 3 || sz == 6 || sz == 7) && rd % 2 == 0 && rd != 0
  else if op = 0x26 then sz == 2 || sz == 3 || sz == 6 || sz == 7
  else if op = 0x28 then decide (1 ≤ rd ∧ rd ≤ 59)
  else if op = 0x31 then decide (1 ≤ rd ∧ rd ≤ 62)
  else if op = 0x60 ∨ op = 0x62 ∨ op = 0x63 then wide
  else if op = 0x70 then decide (wImmH w < 256) && wHd w != 0
  else if op = 0x72 then wImmH w % 16 == 0 && decide (wImmH w < 256)
  else if op = 0x73 then decide (rd ≤ 62)
  else if op = 0x74 then decide (wImmH w < 16)
  else if op = 0x76 then decide (1 ≤ wRb w ∧ wRb w ≤ 62 ∧ wModHi w ≤ 2)
  else true

/-- A legal word (R180): a defined opcode, every unused field zero, no forbidden field value. -/
def legal (w : Word64) : Bool :=
  match usedMask (wOp w) with
  | none => false
  | some m => (BitVec.ofNat 52 w.toNat &&& ~~~(BitVec.ofNat 52 m)) == 0 && rowOk w

/-! ## Destinations (R182) -/

/-- The registers an instruction writes. -/
def destRegs (w : Word64) : List Nat :=
  let op := wOp w
  let rd := wRd w
  if op = 0x23 ∨ op = 0x60 ∨ op = 0x62 then (List.range 8).map (rd + ·)
  else if op = 0x28 then (List.range 5).map (rd + ·)
  else if op = 0x31 ∨ op = 0x73 then [rd, rd + 1]
  else if op = 0x83 then [wRa w]
  else if op < 2 ∨ op = 0x1E ∨ op = 0x1F ∨ op = 0x22 ∨ op = 0x24 ∨ op = 0x27 ∨ op = 0x42 ∨ op = 0x51 ∨ op = 0x52 ∨ op = 0x63
      ∨ op = 0x65 ∨ op = 0x70 ∨ op = 0x71 ∨ op = 0x72 ∨ op = 0x74 ∨ op = 0x77 ∨ op = 0x78 ∨ op = 0x7A ∨ op = 0x80
      ∨ (0x82 ≤ op ∧ op ≤ 0x87) then []
  else [rd]

/-- The predicate an instruction writes; p0 where it writes none. -/
def destPred (w : Word64) : Nat :=
  let op := wOp w
  if op = 0x1E ∨ op = 0x1F ∨ op = 0x84 then wPd w
  else if (0x30 ≤ op ∧ op ≤ 0x34) ∨ op = 0x41 ∨ op = 0x62 ∨ op = 0x65 ∨ op = 0x70 ∨ op = 0x7A then wSp w
  else 0

/-- The handle an instruction writes; h0 where it writes none. -/
def destHandle (w : Word64) : Nat :=
  let op := wOp w
  if op = 0x70 ∨ op = 0x72 ∨ op = 0x74 then wHd w else 0

end Sys2Proof.Machine
end

