-- ==== Sys2Proof/Machine/Flags.lean ====
section
/-! DEFINITION. The predicates comparisons write: COND, COMB and the truth tables of PLOG (R181, R193). -/

namespace Sys2Proof.Machine

/-- The condition of CMP and CMPI (R181). -/
def condHolds (c : Nat) (a b : Word64) : Bool :=
  match c with
  | 0 => a == b
  | 1 => a != b
  | 2 => a.ult b
  | 3 => !(a.ult b)
  | 4 => a.slt b
  | 5 => !(a.slt b)
  | 6 => (a &&& b) != 0
  | _ => (a &&& b) == 0

/-- The value a predicate takes (R181): alone, AND with p[PC], OR with p[PC]. -/
def combine (comb : Nat) (c p : Bool) : Bool :=
  match comb with
  | 0 => c
  | 1 => c && p
  | _ => c || p

/-- PLOG's truth table: bit 2 × first + second of COND (R193). -/
def truthTable (cond : Nat) (a b : Bool) : Bool := bitsAt cond (2 * bit a + bit b) 1 == 1

end Sys2Proof.Machine
end

