-- ==== Sys2Proof/Machine/Regs.lean ====
section
/-! DEFINITION. Register maps: BAR0 offsets (R452), JX offsets (R67), fields, access codes (R11) and reset values, from the
register tables of R68-R74, R91, R144, R145, R168, R199, R225, R269, R293, R327, R357, R391, R392, R416, R435. -/

namespace Sys2Proof.Machine

/-- A field of a register: the register's offset and the field's high and low bits. -/
structure Field where
  off : Nat
  hi : Nat
  lo : Nat
deriving DecidableEq, Repr

/-- The largest value a field holds. -/
def Field.max (f : Field) : Nat := 2 ^ (f.hi - f.lo + 1) - 1

/-- The field's value in a word. -/
def Field.of (f : Field) (w : Word64) : Nat := w.toNat / 2 ^ f.lo % 2 ^ (f.hi - f.lo + 1)

/-- The word with the field replaced (by the value's low bits). -/
def Field.put (f : Field) (w : Word64) (v : Nat) : Word64 :=
  BitVec.ofNat 64 (w.toNat - f.of w * 2 ^ f.lo + v % 2 ^ (f.hi - f.lo + 1) * 2 ^ f.lo)

/-- The field's value read as two's complement. -/
def Field.signed (f : Field) (w : Word64) : Int :=
  let v := f.of w
  if v < 2 ^ (f.hi - f.lo) then (v : Int) else (v : Int) - 2 ^ (f.hi - f.lo + 1)

/-- A register that stands alone: offset, writable bits, write-1-to-clear bits, reset value. -/
structure RegDesc where
  off : Nat
  rw : Nat
  w1c : Nat
  reset : Nat
deriving DecidableEq, Repr

/-- JX_ID (R68). -/
def JX_ID : Nat := 0x0
/-- JX_CTRL (R69). -/
def JX_CTRL : Nat := 0x8
/-- JX_STATUS (R70). -/
def JX_STATUS : Nat := 0x10
/-- JX_OWNER (R71). -/
def JX_OWNER : Nat := 0x18
/-- JX_EPOCH (R71). -/
def JX_EPOCH : Nat := 0x20
/-- JX_GAMBIT (R71). -/
def JX_GAMBIT : Nat := 0x28
/-- JX_GAMBIT_STAGED (R71). -/
def JX_GAMBIT_STAGED : Nat := 0x30
/-- JX_RCTX (R72). -/
def JX_RCTX : Nat := 0x38
/-- JX_RMEM (R72). -/
def JX_RMEM : Nat := 0x40
/-- JX_SAMPLE (R73). -/
def JX_SAMPLE : Nat := 0x48
/-- JX_HB (R73). -/
def JX_HB : Nat := 0x50
/-- JX_EVDROP (R74). -/
def JX_EVDROP : Nat := 0x58
/-- JX_VIOL (R74). -/
def JX_VIOL : Nat := 0x60
/-- LNK_SEL (R91). -/
def LNK_SEL : Nat := 0xC0000
/-- LNK_PORT (R91). -/
def LNK_PORT : Nat := 0xC0008
/-- LNK_FEC (R91). -/
def LNK_FEC : Nat := 0xC0010
/-- LNK_TX_KEY (R91). -/
def LNK_TX_KEY : Nat := 0xC0018
/-- LNK_TX_CTR (R91). -/
def LNK_TX_CTR : Nat := 0xC0020
/-- LNK_CREDIT (R91). -/
def LNK_CREDIT : Nat := 0xC0028
/-- LNK_CTRL (R91). -/
def LNK_CTRL : Nat := 0xC0030
/-- SCH_EPOCH_CFG (R144). -/
def SCH_EPOCH_CFG : Nat := 0xE0000
/-- SCH_EPOCH_NOW (R144). -/
def SCH_EPOCH_NOW : Nat := 0xE0008
/-- SCH_SYNC_CFG (R144). -/
def SCH_SYNC_CFG : Nat := 0xE0010
/-- SCH_SYNC_STATUS (R144). -/
def SCH_SYNC_STATUS : Nat := 0xE0018
/-- SCH_ADMIT (R144). -/
def SCH_ADMIT : Nat := 0xE0020
/-- TIM_NOW (R145). -/
def TIM_NOW : Nat := 0x180000
/-- TIM_TICK (R145). -/
def TIM_TICK : Nat := 0x180008
/-- TIM_STATUS (R145). -/
def TIM_STATUS : Nat := 0x180010
/-- TIM_CAL (R145). -/
def TIM_CAL : Nat := 0x180018
/-- TIM_PTP (R145). -/
def TIM_PTP : Nat := 0x180020
/-- TIM_PTP_CFG (R145). -/
def TIM_PTP_CFG : Nat := 0x180028
/-- TIM_SYNC_EDGE (R145). -/
def TIM_SYNC_EDGE : Nat := 0x180030
/-- TIM_PPS_EDGE (R145). -/
def TIM_PPS_EDGE : Nat := 0x180038
/-- RTE_INSTALL (R168). -/
def RTE_INSTALL : Nat := 0x100000
/-- RTE_GAMBIT (R168). -/
def RTE_GAMBIT : Nat := 0x100008
/-- RTE_FAILOVER (R168). -/
def RTE_FAILOVER : Nat := 0x100010
/-- CTL_CQn_CFG (R199). -/
def CTL_CQn_CFG : Nat := 0x1000
/-- CTL_CQn_SQ_BASE (R199). -/
def CTL_CQn_SQ_BASE : Nat := 0x1008
/-- CTL_CQn_CQ_BASE (R199). -/
def CTL_CQn_CQ_BASE : Nat := 0x1010
/-- CTL_CQn_STATUS (R199). -/
def CTL_CQn_STATUS : Nat := 0x1018
/-- CFB_STATUS (R225). -/
def CFB_STATUS : Nat := 0x160000
/-- CFB_QUOTA_SEL (R225). -/
def CFB_QUOTA_SEL : Nat := 0x160008
/-- CFB_QUOTA (R225). -/
def CFB_QUOTA : Nat := 0x160010
/-- GRP_STATUS (R269). -/
def GRP_STATUS : Nat := 0x120000
/-- GRP_ROOT (R269). -/
def GRP_ROOT : Nat := 0x120008
/-- GRP_ABORTS (R269). -/
def GRP_ABORTS : Nat := 0x120010
/-- GRP_TICKET (R293). -/
def GRP_TICKET : Nat := 0x120018
/-- GRP_FALLBACK (R293). -/
def GRP_FALLBACK : Nat := 0x120020
/-- GRP_XORDER (R293). -/
def GRP_XORDER : Nat := 0x120028
/-- GRP_RESV_CFG (R293). -/
def GRP_RESV_CFG : Nat := 0x120030
/-- PLC_STATUS (R327). -/
def PLC_STATUS : Nat := 0x140000
/-- PLC_BROKER_CFG (R327). -/
def PLC_BROKER_CFG : Nat := 0x140008
/-- PLC_ADMIT_CFG (R327). -/
def PLC_ADMIT_CFG : Nat := 0x140010
/-- PLC_KV_CFG (R327). -/
def PLC_KV_CFG : Nat := 0x140018
/-- PLC_KV_STATUS (R327). -/
def PLC_KV_STATUS : Nat := 0x140020
/-- PLC_PART_SEL (R327). -/
def PLC_PART_SEL : Nat := 0x140028
/-- PLC_PART_QUOTA (R327). -/
def PLC_PART_QUOTA : Nat := 0x140030
/-- PLC_PART_USE (R327). -/
def PLC_PART_USE : Nat := 0x140038
/-- PLC_DEV_SEL (R327). -/
def PLC_DEV_SEL : Nat := 0x140040
/-- PLC_DEV_CAP (R327). -/
def PLC_DEV_CAP : Nat := 0x140048
/-- PLC_DISPATCH (R327). -/
def PLC_DISPATCH : Nat := 0x140050
/-- PLC_BROKER_STAT (R327). -/
def PLC_BROKER_STAT : Nat := 0x140058
/-- SEC_STATUS (R357). -/
def SEC_STATUS : Nat := 0x80000
/-- SEC_PART_SEL (R357). -/
def SEC_PART_SEL : Nat := 0x80008
/-- SEC_PART (R357). -/
def SEC_PART : Nat := 0x80010
/-- SEC_DEV_SEL (R357). -/
def SEC_DEV_SEL : Nat := 0x80018
/-- SEC_DEV (R357). -/
def SEC_DEV : Nat := 0x80020
/-- SEC_SCRUB (R357). -/
def SEC_SCRUB : Nat := 0x80028
/-- FLT_STATUS (R391). -/
def FLT_STATUS : Nat := 0x40000
/-- FLT_CFG (R391). -/
def FLT_CFG : Nat := 0x40008
/-- FLT_DROP (R391). -/
def FLT_DROP : Nat := 0x40010
/-- FLT_VIOL (R391). -/
def FLT_VIOL : Nat := 0x40018
/-- FLT_CAP_SEL (R391). -/
def FLT_CAP_SEL : Nat := 0x40020
/-- FLT_CAP_ADDR (R391). -/
def FLT_CAP_ADDR : Nat := 0x40028
/-- FLT_CAP_INFO (R391). -/
def FLT_CAP_INFO : Nat := 0x40030
/-- FLT_CAP_TIME (R391). -/
def FLT_CAP_TIME : Nat := 0x40038
/-- FLT_BLKn (R391). -/
def FLT_BLKn : Nat := 0x40800
/-- FLT_SRCn (R391). -/
def FLT_SRCn : Nat := 0x41000
/-- LED_SEQ (R392). -/
def LED_SEQ : Nat := 0x60000
/-- LED_STATUS (R392). -/
def LED_STATUS : Nat := 0x60008
/-- LED_FLASH (R392). -/
def LED_FLASH : Nat := 0x60010
/-- LED_COUNT (R392). -/
def LED_COUNT : Nat := 0x60018
/-- LED_TIME (R392). -/
def LED_TIME : Nat := 0x60020
/-- LED_PCYCLE (R392). -/
def LED_PCYCLE : Nat := 0x60028
/-- LED_SEC_SEL (R392). -/
def LED_SEC_SEL : Nat := 0x60030
/-- LED_SEC_DATA (R392). -/
def LED_SEC_DATA : Nat := 0x60040
/-- TRI_STATUS (R416). -/
def TRI_STATUS : Nat := 0x20000
/-- TRI_CFG (R416). -/
def TRI_CFG : Nat := 0x20008
/-- TRI_STANDBY_CFG (R416). -/
def TRI_STANDBY_CFG : Nat := 0x20010
/-- TRI_STANDBY_STATUS (R416). -/
def TRI_STANDBY_STATUS : Nat := 0x20018
/-- TRI_EVENTS (R416). -/
def TRI_EVENTS : Nat := 0x20020
/-- PWR_STATUS (R435). -/
def PWR_STATUS : Nat := 0xA0000
/-- PWR_CTRL (R435). -/
def PWR_CTRL : Nat := 0xA0008
/-- PWR_WAKE_CFG (R435). -/
def PWR_WAKE_CFG : Nat := 0xA0010
/-- PWR_WAKE_STATUS (R435). -/
def PWR_WAKE_STATUS : Nat := 0xA0018
/-- PWR_PORTS (R435). -/
def PWR_PORTS : Nat := 0xA0020
/-- PWR_DOMAIN (R435). -/
def PWR_DOMAIN : Nat := 0xA0028
/-- PWR_PART_SEL (R435). -/
def PWR_PART_SEL : Nat := 0xA0030
/-- PWR_PART (R435). -/
def PWR_PART : Nat := 0xA0038

/-- JX_ID.VARIANT[63:60], RO (R68). -/
def JX_ID_VARIANT : Field := ⟨JX_ID, 63, 60⟩
/-- JX_ID.RELEASE[59:48], RO (R68). -/
def JX_ID_RELEASE : Field := ⟨JX_ID, 59, 48⟩
/-- JX_ID.PORTS[47:38], RO (R68). -/
def JX_ID_PORTS : Field := ⟨JX_ID, 47, 38⟩
/-- JX_ID.FABRIC_ID[31:0], RO (R68). -/
def JX_ID_FABRIC_ID : Field := ⟨JX_ID, 31, 0⟩
/-- JX_CTRL.REJOIN_DONE[2:2], W1S (R69). -/
def JX_CTRL_REJOIN_DONE : Field := ⟨JX_CTRL, 2, 2⟩
/-- JX_CTRL.COMPUTE_RESET[1:1], W1S (R69). -/
def JX_CTRL_COMPUTE_RESET : Field := ⟨JX_CTRL, 1, 1⟩
/-- JX_CTRL.LINK_RESET[0:0], W1S (R69). -/
def JX_CTRL_LINK_RESET : Field := ⟨JX_CTRL, 0, 0⟩
/-- JX_STATUS.INSTALL_VERSION[63:32], RO (R70). -/
def JX_STATUS_INSTALL_VERSION : Field := ⟨JX_STATUS, 63, 32⟩
/-- JX_STATUS.PORTS_UP[25:16], RO (R70). -/
def JX_STATUS_PORTS_UP : Field := ⟨JX_STATUS, 25, 16⟩
/-- JX_STATUS.REJOINED[6:6], RO (R70). -/
def JX_STATUS_REJOINED : Field := ⟨JX_STATUS, 6, 6⟩
/-- JX_STATUS.COMPUTE_IN_RESET[5:5], RO (R70). -/
def JX_STATUS_COMPUTE_IN_RESET : Field := ⟨JX_STATUS, 5, 5⟩
/-- JX_STATUS.PLAY_PENDING[4:4], RO (R70). -/
def JX_STATUS_PLAY_PENDING : Field := ⟨JX_STATUS, 4, 4⟩
/-- JX_STATUS.BANK_ACTIVE[3:3], RO (R70). -/
def JX_STATUS_BANK_ACTIVE : Field := ⟨JX_STATUS, 3, 3⟩
/-- JX_STATUS.DRAINED[2:2], RO (R70). -/
def JX_STATUS_DRAINED : Field := ⟨JX_STATUS, 2, 2⟩
/-- JX_STATUS.ORPHAN[1:1], RO (R70). -/
def JX_STATUS_ORPHAN : Field := ⟨JX_STATUS, 1, 1⟩
/-- JX_OWNER.GENERATION[63:32], RO (R71). -/
def JX_OWNER_GENERATION : Field := ⟨JX_OWNER, 63, 32⟩
/-- JX_OWNER.OWNER_ID[31:0], RO (R71). -/
def JX_OWNER_OWNER_ID : Field := ⟨JX_OWNER, 31, 0⟩
/-- JX_EPOCH.EPOCH_NUM[63:16], RO (R71). -/
def JX_EPOCH_EPOCH_NUM : Field := ⟨JX_EPOCH, 63, 16⟩
/-- JX_EPOCH.SLOT[11:0], RO (R71). -/
def JX_EPOCH_SLOT : Field := ⟨JX_EPOCH, 11, 0⟩
/-- JX_GAMBIT.PLAY_SEQ[63:48], RO (R71). -/
def JX_GAMBIT_PLAY_SEQ : Field := ⟨JX_GAMBIT, 63, 48⟩
/-- JX_GAMBIT.SWAP_EPOCH[47:16], RO (R71). -/
def JX_GAMBIT_SWAP_EPOCH : Field := ⟨JX_GAMBIT, 47, 16⟩
/-- JX_GAMBIT.PLAY_SLOT[13:8], RO (R71). -/
def JX_GAMBIT_PLAY_SLOT : Field := ⟨JX_GAMBIT, 13, 8⟩
/-- JX_GAMBIT.LATE_PLAYS[7:0], RO (R71). -/
def JX_GAMBIT_LATE_PLAYS : Field := ⟨JX_GAMBIT, 7, 0⟩
/-- JX_GAMBIT_STAGED.VALID[63:0], RO (R71). -/
def JX_GAMBIT_STAGED_VALID : Field := ⟨JX_GAMBIT_STAGED, 63, 0⟩
/-- JX_RCTX.CTX_FREE[42:32], RO (R72). -/
def JX_RCTX_CTX_FREE : Field := ⟨JX_RCTX, 42, 32⟩
/-- JX_RCTX.RESERVE_FAILS[31:16], RO (R72). -/
def JX_RCTX_RESERVE_FAILS : Field := ⟨JX_RCTX, 31, 16⟩
/-- JX_RCTX.CTX_TOTAL[10:0], RO (R72). -/
def JX_RCTX_CTX_TOTAL : Field := ⟨JX_RCTX, 10, 0⟩
/-- JX_RMEM.BLOCKS_FREE[63:32], RO (R72). -/
def JX_RMEM_BLOCKS_FREE : Field := ⟨JX_RMEM, 63, 32⟩
/-- JX_RMEM.BLOCKS_TOTAL[31:0], RO (R72). -/
def JX_RMEM_BLOCKS_TOTAL : Field := ⟨JX_RMEM, 31, 0⟩
/-- JX_SAMPLE.DROPPED[63:48], RO (R73). -/
def JX_SAMPLE_DROPPED : Field := ⟨JX_SAMPLE, 63, 48⟩
/-- JX_SAMPLE.SHIFT_EXPRESS[28:24], RW (R73). -/
def JX_SAMPLE_SHIFT_EXPRESS : Field := ⟨JX_SAMPLE, 28, 24⟩
/-- JX_SAMPLE.SHIFT_COLLECTIVE[20:16], RW (R73). -/
def JX_SAMPLE_SHIFT_COLLECTIVE : Field := ⟨JX_SAMPLE, 20, 16⟩
/-- JX_SAMPLE.SHIFT_BULK[12:8], RW (R73). -/
def JX_SAMPLE_SHIFT_BULK : Field := ⟨JX_SAMPLE, 12, 8⟩
/-- JX_SAMPLE.SHIFT_CONTROL[4:0], RW (R73). -/
def JX_SAMPLE_SHIFT_CONTROL : Field := ⟨JX_SAMPLE, 4, 0⟩
/-- JX_HB.BEACON_MISS[63:56], RO (R73). -/
def JX_HB_BEACON_MISS : Field := ⟨JX_HB, 63, 56⟩
/-- JX_HB.HELD_EVENTS[47:32], RO (R73). -/
def JX_HB_HELD_EVENTS : Field := ⟨JX_HB, 47, 32⟩
/-- JX_HB.STATUS_PERIOD_MS[15:8], RW (R73). -/
def JX_HB_STATUS_PERIOD_MS : Field := ⟨JX_HB, 15, 8⟩
/-- JX_HB.ORPHAN_MS[7:0], RW (R73). -/
def JX_HB_ORPHAN_MS : Field := ⟨JX_HB, 7, 0⟩
/-- JX_EVDROP.DROP_SEV2[47:32], W1C (R74). -/
def JX_EVDROP_DROP_SEV2 : Field := ⟨JX_EVDROP, 47, 32⟩
/-- JX_EVDROP.DROP_SEV1[31:16], W1C (R74). -/
def JX_EVDROP_DROP_SEV1 : Field := ⟨JX_EVDROP, 31, 16⟩
/-- JX_EVDROP.DROP_SEV0[15:0], W1C (R74). -/
def JX_EVDROP_DROP_SEV0 : Field := ⟨JX_EVDROP, 15, 0⟩
/-- JX_VIOL.TENANT[63:32], W1C (R74). -/
def JX_VIOL_TENANT : Field := ⟨JX_VIOL, 63, 32⟩
/-- JX_VIOL.OPERATOR[31:0], W1C (R74). -/
def JX_VIOL_OPERATOR : Field := ⟨JX_VIOL, 31, 0⟩
/-- LNK_SEL.PORT[6:0], RW (R91). -/
def LNK_SEL_PORT : Field := ⟨LNK_SEL, 6, 0⟩
/-- LNK_PORT.STATE[63:61], RO (R91). -/
def LNK_PORT_STATE : Field := ⟨LNK_PORT, 63, 61⟩
/-- LNK_PORT.LANES[60:58], RO (R91). -/
def LNK_PORT_LANES : Field := ⟨LNK_PORT, 60, 58⟩
/-- LNK_PORT.KEY[51:50], RO (R91). -/
def LNK_PORT_KEY : Field := ⟨LNK_PORT, 51, 50⟩
/-- LNK_PORT.SCRUB[49:49], RO (R91). -/
def LNK_PORT_SCRUB : Field := ⟨LNK_PORT, 49, 49⟩
/-- LNK_PORT.DELAY_PS[47:32], RO (R91). -/
def LNK_PORT_DELAY_PS : Field := ⟨LNK_PORT, 47, 32⟩
/-- LNK_PORT.FAR_ID[31:0], RO (R91). -/
def LNK_PORT_FAR_ID : Field := ⟨LNK_PORT, 31, 0⟩
/-- LNK_FEC.CORRECTED[63:32], W1C (R91). -/
def LNK_FEC_CORRECTED : Field := ⟨LNK_FEC, 63, 32⟩
/-- LNK_FEC.UNCORRECTABLE[31:0], W1C (R91). -/
def LNK_FEC_UNCORRECTABLE : Field := ⟨LNK_FEC, 31, 0⟩
/-- LNK_TX_KEY.FRAMES[63:24], RO (R91). -/
def LNK_TX_KEY_FRAMES : Field := ⟨LNK_TX_KEY, 63, 24⟩
/-- LNK_TX_KEY.REKEYS[7:0], W1C (R91). -/
def LNK_TX_KEY_REKEYS : Field := ⟨LNK_TX_KEY, 7, 0⟩
/-- LNK_TX_CTR.PKT_CTR[63:0], RO (R91). -/
def LNK_TX_CTR_PKT_CTR : Field := ⟨LNK_TX_CTR, 63, 0⟩
/-- LNK_CREDIT.CONTROL[63:48], RO (R91). -/
def LNK_CREDIT_CONTROL : Field := ⟨LNK_CREDIT, 63, 48⟩
/-- LNK_CREDIT.COLL_DATA[47:32], RO (R91). -/
def LNK_CREDIT_COLL_DATA : Field := ⟨LNK_CREDIT, 47, 32⟩
/-- LNK_CREDIT.COLL_SHORT[31:16], RO (R91). -/
def LNK_CREDIT_COLL_SHORT : Field := ⟨LNK_CREDIT, 31, 16⟩
/-- LNK_CREDIT.BULK[15:0], RO (R91). -/
def LNK_CREDIT_BULK : Field := ⟨LNK_CREDIT, 15, 0⟩
/-- LNK_CTRL.RETRAIN[63:63], W1S (R91). -/
def LNK_CTRL_RETRAIN : Field := ⟨LNK_CTRL, 63, 63⟩
/-- LNK_CTRL.REKEY[62:62], W1S (R91). -/
def LNK_CTRL_REKEY : Field := ⟨LNK_CTRL, 62, 62⟩
/-- SCH_EPOCH_CFG.LENGTH_NS[52:32], RO (R144). -/
def SCH_EPOCH_CFG_LENGTH_NS : Field := ⟨SCH_EPOCH_CFG, 52, 32⟩
/-- SCH_EPOCH_CFG.PENDING[31:31], RO (R144). -/
def SCH_EPOCH_CFG_PENDING : Field := ⟨SCH_EPOCH_CFG, 31, 31⟩
/-- SCH_EPOCH_CFG.SLOT_TICKS[16:16], RW (R144). -/
def SCH_EPOCH_CFG_SLOT_TICKS : Field := ⟨SCH_EPOCH_CFG, 16, 16⟩
/-- SCH_EPOCH_CFG.SLOTS[12:0], RW (R144). -/
def SCH_EPOCH_CFG_SLOTS : Field := ⟨SCH_EPOCH_CFG, 12, 0⟩
/-- SCH_EPOCH_NOW.EPOCH_NUM[63:16], RO (R144). -/
def SCH_EPOCH_NOW_EPOCH_NUM : Field := ⟨SCH_EPOCH_NOW, 63, 16⟩
/-- SCH_EPOCH_NOW.SLOT[11:0], RO (R144). -/
def SCH_EPOCH_NOW_SLOT : Field := ⟨SCH_EPOCH_NOW, 11, 0⟩
/-- SCH_SYNC_CFG.PHASE_TICKS[47:32], RW (R144). -/
def SCH_SYNC_CFG_PHASE_TICKS : Field := ⟨SCH_SYNC_CFG, 47, 32⟩
/-- SCH_SYNC_CFG.SYNC_DIV[23:16], RW (R144). -/
def SCH_SYNC_CFG_SYNC_DIV : Field := ⟨SCH_SYNC_CFG, 23, 16⟩
/-- SCH_SYNC_CFG.ARM[3:3], W1S (R144). -/
def SCH_SYNC_CFG_ARM : Field := ⟨SCH_SYNC_CFG, 3, 3⟩
/-- SCH_SYNC_CFG.AUTO_REARM[2:2], RW (R144). -/
def SCH_SYNC_CFG_AUTO_REARM : Field := ⟨SCH_SYNC_CFG, 2, 2⟩
/-- SCH_SYNC_CFG.EDGE[1:1], RW (R144). -/
def SCH_SYNC_CFG_EDGE : Field := ⟨SCH_SYNC_CFG, 1, 1⟩
/-- SCH_SYNC_CFG.SYNC_EN[0:0], RW (R144). -/
def SCH_SYNC_CFG_SYNC_EN : Field := ⟨SCH_SYNC_CFG, 0, 0⟩
/-- SCH_SYNC_STATUS.STATE[63:62], RO (R144). -/
def SCH_SYNC_STATUS_STATE : Field := ⟨SCH_SYNC_STATUS, 63, 62⟩
/-- SCH_SYNC_STATUS.CAUSE[61:59], RO (R144). -/
def SCH_SYNC_STATUS_CAUSE : Field := ⟨SCH_SYNC_STATUS, 61, 59⟩
/-- SCH_SYNC_STATUS.ACCUM[47:32], RO (R144). -/
def SCH_SYNC_STATUS_ACCUM : Field := ⟨SCH_SYNC_STATUS, 47, 32⟩
/-- SCH_SYNC_STATUS.LAST_ERR[31:0], RO (R144). -/
def SCH_SYNC_STATUS_LAST_ERR : Field := ⟨SCH_SYNC_STATUS, 31, 0⟩
/-- SCH_ADMIT.ADMITTED[63:48], RO (R144). -/
def SCH_ADMIT_ADMITTED : Field := ⟨SCH_ADMIT, 63, 48⟩
/-- SCH_ADMIT.UNFIT[47:32], RO (R144). -/
def SCH_ADMIT_UNFIT : Field := ⟨SCH_ADMIT, 47, 32⟩
/-- SCH_ADMIT.REFUSED[31:0], W1C (R144). -/
def SCH_ADMIT_REFUSED : Field := ⟨SCH_ADMIT, 31, 0⟩
/-- TIM_NOW.NS[63:0], RO (R145). -/
def TIM_NOW_NS : Field := ⟨TIM_NOW, 63, 0⟩
/-- TIM_TICK.SOURCE[63:63], RO (R145). -/
def TIM_TICK_SOURCE : Field := ⟨TIM_TICK, 63, 63⟩
/-- TIM_TICK.TICK_SEQ[31:0], RO (R145). -/
def TIM_TICK_TICK_SEQ : Field := ⟨TIM_TICK, 31, 0⟩
/-- TIM_STATUS.SWITCHOVERS[63:48], W1C (R145). -/
def TIM_STATUS_SWITCHOVERS : Field := ⟨TIM_STATUS, 63, 48⟩
/-- TIM_STATUS.B_OFFSET_PS[47:32], RO (R145). -/
def TIM_STATUS_B_OFFSET_PS : Field := ⟨TIM_STATUS, 47, 32⟩
/-- TIM_STATUS.PPS[7:6], RO (R145). -/
def TIM_STATUS_PPS : Field := ⟨TIM_STATUS, 7, 6⟩
/-- TIM_STATUS.PTP[5:3], RO (R145). -/
def TIM_STATUS_PTP : Field := ⟨TIM_STATUS, 5, 3⟩
/-- TIM_CAL.NS[63:0], RO (R145). -/
def TIM_CAL_NS : Field := ⟨TIM_CAL, 63, 0⟩
/-- TIM_PTP.OFFSET_NS[63:32], RO (R145). -/
def TIM_PTP_OFFSET_NS : Field := ⟨TIM_PTP, 63, 32⟩
/-- TIM_PTP.MPD_NS[31:0], RO (R145). -/
def TIM_PTP_MPD_NS : Field := ⟨TIM_PTP, 31, 0⟩
/-- TIM_PTP_CFG.DOMAIN[15:8], RW (R145). -/
def TIM_PTP_CFG_DOMAIN : Field := ⟨TIM_PTP_CFG, 15, 8⟩
/-- TIM_PTP_CFG.TRANSPORT[1:1], RW (R145). -/
def TIM_PTP_CFG_TRANSPORT : Field := ⟨TIM_PTP_CFG, 1, 1⟩
/-- TIM_PTP_CFG.ENABLE[0:0], RW (R145). -/
def TIM_PTP_CFG_ENABLE : Field := ⟨TIM_PTP_CFG, 0, 0⟩
/-- TIM_SYNC_EDGE.NS[63:0], RO (R145). -/
def TIM_SYNC_EDGE_NS : Field := ⟨TIM_SYNC_EDGE, 63, 0⟩
/-- TIM_PPS_EDGE.NS[63:0], RO (R145). -/
def TIM_PPS_EDGE_NS : Field := ⟨TIM_PPS_EDGE, 63, 0⟩
/-- RTE_INSTALL.VERSION_ACTIVE[63:32], RO (R168). -/
def RTE_INSTALL_VERSION_ACTIVE : Field := ⟨RTE_INSTALL, 63, 32⟩
/-- RTE_INSTALL.VERSION_PENDING[31:0], RO (R168). -/
def RTE_INSTALL_VERSION_PENDING : Field := ⟨RTE_INSTALL, 31, 0⟩
/-- RTE_GAMBIT.PLAYS[63:48], RO (R168). -/
def RTE_GAMBIT_PLAYS : Field := ⟨RTE_GAMBIT, 63, 48⟩
/-- RTE_GAMBIT.UNARMED[43:32], RO (R168). -/
def RTE_GAMBIT_UNARMED : Field := ⟨RTE_GAMBIT, 43, 32⟩
/-- RTE_GAMBIT.LAST_GAMBIT[31:8], RO (R168). -/
def RTE_GAMBIT_LAST_GAMBIT : Field := ⟨RTE_GAMBIT, 31, 8⟩
/-- RTE_FAILOVER.LAST_INTERRUPT_US[63:48], RO (R168). -/
def RTE_FAILOVER_LAST_INTERRUPT_US : Field := ⟨RTE_FAILOVER, 63, 48⟩
/-- RTE_FAILOVER.NO_GAMBIT[47:32], W1C (R168). -/
def RTE_FAILOVER_NO_GAMBIT : Field := ⟨RTE_FAILOVER, 47, 32⟩
/-- RTE_FAILOVER.AUTO_PLAY[0:0], RW (R168). -/
def RTE_FAILOVER_AUTO_PLAY : Field := ⟨RTE_FAILOVER, 0, 0⟩
/-- CTL_CQn_CFG.ENABLE[63:63], RW (R199). -/
def CTL_CQn_CFG_ENABLE : Field := ⟨CTL_CQn_CFG, 63, 63⟩
/-- CTL_CQn_CFG.LEVEL[62:62], RW (R199). -/
def CTL_CQn_CFG_LEVEL : Field := ⟨CTL_CQn_CFG, 62, 62⟩
/-- CTL_CQn_CFG.HUB[61:61], RW (R199). -/
def CTL_CQn_CFG_HUB : Field := ⟨CTL_CQn_CFG, 61, 61⟩
/-- CTL_CQn_CFG.SIZE_LOG2[55:52], RW (R199). -/
def CTL_CQn_CFG_SIZE_LOG2 : Field := ⟨CTL_CQn_CFG, 55, 52⟩
/-- CTL_CQn_CFG.MAX_ENGINES[51:47], RW (R199). -/
def CTL_CQn_CFG_MAX_ENGINES : Field := ⟨CTL_CQn_CFG, 51, 47⟩
/-- CTL_CQn_CFG.MSIX_VECTOR[42:32], RW (R199). -/
def CTL_CQn_CFG_MSIX_VECTOR : Field := ⟨CTL_CQn_CFG, 42, 32⟩
/-- CTL_CQn_CFG.PARTITION[31:20], RW (R199). -/
def CTL_CQn_CFG_PARTITION : Field := ⟨CTL_CQn_CFG, 31, 20⟩
/-- CTL_CQn_CFG.MAX_TIME_MS[19:0], RW (R199). -/
def CTL_CQn_CFG_MAX_TIME_MS : Field := ⟨CTL_CQn_CFG, 19, 0⟩
/-- CTL_CQn_SQ_BASE.ADDR[63:6], RW (R199). -/
def CTL_CQn_SQ_BASE_ADDR : Field := ⟨CTL_CQn_SQ_BASE, 63, 6⟩
/-- CTL_CQn_CQ_BASE.ADDR[63:5], RW (R199). -/
def CTL_CQn_CQ_BASE_ADDR : Field := ⟨CTL_CQn_CQ_BASE, 63, 5⟩
/-- CTL_CQn_STATUS.SQ_HEAD[63:48], RO (R199). -/
def CTL_CQn_STATUS_SQ_HEAD : Field := ⟨CTL_CQn_STATUS, 63, 48⟩
/-- CTL_CQn_STATUS.CQ_TAIL[47:32], RO (R199). -/
def CTL_CQn_STATUS_CQ_TAIL : Field := ⟨CTL_CQn_STATUS, 47, 32⟩
/-- CTL_CQn_STATUS.CQ_HEAD[31:16], RO (R199). -/
def CTL_CQn_STATUS_CQ_HEAD : Field := ⟨CTL_CQn_STATUS, 31, 16⟩
/-- CTL_CQn_STATUS.STALLED[15:15], RO (R199). -/
def CTL_CQn_STATUS_STALLED : Field := ⟨CTL_CQn_STATUS, 15, 15⟩
/-- CTL_CQn_STATUS.DOORBELL_BAD[7:0], W1C (R199). -/
def CTL_CQn_STATUS_DOORBELL_BAD : Field := ⟨CTL_CQn_STATUS, 7, 0⟩
/-- CFB_STATUS.SQUARES_FREE[62:48], RO (R225). -/
def CFB_STATUS_SQUARES_FREE : Field := ⟨CFB_STATUS, 62, 48⟩
/-- CFB_STATUS.SQUARES_EXCLUDED[46:32], RO (R225). -/
def CFB_STATUS_SQUARES_EXCLUDED : Field := ⟨CFB_STATUS, 46, 32⟩
/-- CFB_STATUS.IMAGES[26:16], RO (R225). -/
def CFB_STATUS_IMAGES : Field := ⟨CFB_STATUS, 26, 16⟩
/-- CFB_STATUS.QUARTERS_GATED[5:0], RO (R225). -/
def CFB_STATUS_QUARTERS_GATED : Field := ⟨CFB_STATUS, 5, 0⟩
/-- CFB_QUOTA_SEL.PARTITION[11:0], RW (R225). -/
def CFB_QUOTA_SEL_PARTITION : Field := ⟨CFB_QUOTA_SEL, 11, 0⟩
/-- CFB_QUOTA.USED[62:48], RO (R225). -/
def CFB_QUOTA_USED : Field := ⟨CFB_QUOTA, 62, 48⟩
/-- CFB_QUOTA.LIMIT[14:0], RW (R225). -/
def CFB_QUOTA_LIMIT : Field := ⟨CFB_QUOTA, 14, 0⟩
/-- GRP_STATUS.GROUPS_QUEUE[63:48], RO (R269). -/
def GRP_STATUS_GROUPS_QUEUE : Field := ⟨GRP_STATUS, 63, 48⟩
/-- GRP_STATUS.GROUPS_LIBRARY[47:32], RO (R269). -/
def GRP_STATUS_GROUPS_LIBRARY : Field := ⟨GRP_STATUS, 47, 32⟩
/-- GRP_STATUS.TREES[31:16], RO (R269). -/
def GRP_STATUS_TREES : Field := ⟨GRP_STATUS, 31, 16⟩
/-- GRP_STATUS.UNBOUNDED[15:0], RO (R269). -/
def GRP_STATUS_UNBOUNDED : Field := ⟨GRP_STATUS, 15, 0⟩
/-- GRP_ROOT.ROOT_CTX_FREE[63:48], RO (R269). -/
def GRP_ROOT_ROOT_CTX_FREE : Field := ⟨GRP_ROOT, 63, 48⟩
/-- GRP_ROOT.ROOT_BLOCKS_FREE[31:0], RO (R269). -/
def GRP_ROOT_ROOT_BLOCKS_FREE : Field := ⟨GRP_ROOT, 31, 0⟩
/-- GRP_ABORTS.ABORTS[63:32], W1C (R269). -/
def GRP_ABORTS_ABORTS : Field := ⟨GRP_ABORTS, 63, 32⟩
/-- GRP_ABORTS.EXHAUSTED[31:0], W1C (R269). -/
def GRP_ABORTS_EXHAUSTED : Field := ⟨GRP_ABORTS, 31, 0⟩
/-- GRP_TICKET.NEXT[63:32], RO (R293). -/
def GRP_TICKET_NEXT : Field := ⟨GRP_TICKET, 63, 32⟩
/-- GRP_TICKET.WAITING[31:16], RO (R293). -/
def GRP_TICKET_WAITING : Field := ⟨GRP_TICKET, 31, 16⟩
/-- GRP_TICKET.GAMBIT_WAITING[15:0], RO (R293). -/
def GRP_TICKET_GAMBIT_WAITING : Field := ⟨GRP_TICKET, 15, 0⟩
/-- GRP_FALLBACK.RING[63:32], W1C (R293). -/
def GRP_FALLBACK_RING : Field := ⟨GRP_FALLBACK, 63, 32⟩
/-- GRP_FALLBACK.WAITED[31:0], W1C (R293). -/
def GRP_FALLBACK_WAITED : Field := ⟨GRP_FALLBACK, 31, 0⟩
/-- GRP_XORDER.REPORTS[63:32], W1C (R293). -/
def GRP_XORDER_REPORTS : Field := ⟨GRP_XORDER, 63, 32⟩
/-- GRP_XORDER.WAITING_GROUP[29:16], RO (R293). -/
def GRP_XORDER_WAITING_GROUP : Field := ⟨GRP_XORDER, 29, 16⟩
/-- GRP_XORDER.HOLDING_GROUP[13:0], RO (R293). -/
def GRP_XORDER_HOLDING_GROUP : Field := ⟨GRP_XORDER, 13, 0⟩
/-- GRP_RESV_CFG.REISSUES[63:32], W1C (R293). -/
def GRP_RESV_CFG_REISSUES : Field := ⟨GRP_RESV_CFG, 63, 32⟩
/-- GRP_RESV_CFG.RELEASE_US[15:0], RW (R293). -/
def GRP_RESV_CFG_RELEASE_US : Field := ⟨GRP_RESV_CFG, 15, 0⟩
/-- PLC_STATUS.SEQUENCES[63:43], RO (R327). -/
def PLC_STATUS_SEQUENCES : Field := ⟨PLC_STATUS, 63, 43⟩
/-- PLC_STATUS.EXTENTS_USED[42:24], RO (R327). -/
def PLC_STATUS_EXTENTS_USED : Field := ⟨PLC_STATUS, 42, 24⟩
/-- PLC_STATUS.MOVES_PENDING[15:0], RO (R327). -/
def PLC_STATUS_MOVES_PENDING : Field := ⟨PLC_STATUS, 15, 0⟩
/-- PLC_BROKER_CFG.ENABLE[56:56], RW (R327). -/
def PLC_BROKER_CFG_ENABLE : Field := ⟨PLC_BROKER_CFG, 56, 56⟩
/-- PLC_BROKER_CFG.MAX_ADDS[55:48], RW (R327). -/
def PLC_BROKER_CFG_MAX_ADDS : Field := ⟨PLC_BROKER_CFG, 55, 48⟩
/-- PLC_BROKER_CFG.HOT_PCT[47:40], RW (R327). -/
def PLC_BROKER_CFG_HOT_PCT : Field := ⟨PLC_BROKER_CFG, 47, 40⟩
/-- PLC_BROKER_CFG.COLD_PCT[39:32], RW (R327). -/
def PLC_BROKER_CFG_COLD_PCT : Field := ⟨PLC_BROKER_CFG, 39, 32⟩
/-- PLC_BROKER_CFG.WINDOW_MS[9:0], RW (R327). -/
def PLC_BROKER_CFG_WINDOW_MS : Field := ⟨PLC_BROKER_CFG, 9, 0⟩
/-- PLC_ADMIT_CFG.REFUSED[63:32], W1C (R327). -/
def PLC_ADMIT_CFG_REFUSED : Field := ⟨PLC_ADMIT_CFG, 63, 32⟩
/-- PLC_ADMIT_CFG.OVERCOMMIT_PCT[3:0], RW (R327). -/
def PLC_ADMIT_CFG_OVERCOMMIT_PCT : Field := ⟨PLC_ADMIT_CFG, 3, 0⟩
/-- PLC_KV_CFG.MAX_MOVES[47:32], RW (R327). -/
def PLC_KV_CFG_MAX_MOVES : Field := ⟨PLC_KV_CFG, 47, 32⟩
/-- PLC_KV_CFG.GRACE_US[19:0], RW (R327). -/
def PLC_KV_CFG_GRACE_US : Field := ⟨PLC_KV_CFG, 19, 0⟩
/-- PLC_KV_STATUS.PAGES_LOST[63:54], W1C (R327). -/
def PLC_KV_STATUS_PAGES_LOST : Field := ⟨PLC_KV_STATUS, 63, 54⟩
/-- PLC_KV_STATUS.PAGES_SPILLED[53:27], RO (R327). -/
def PLC_KV_STATUS_PAGES_SPILLED : Field := ⟨PLC_KV_STATUS, 53, 27⟩
/-- PLC_KV_STATUS.PAGES_RESIDENT[26:0], RO (R327). -/
def PLC_KV_STATUS_PAGES_RESIDENT : Field := ⟨PLC_KV_STATUS, 26, 0⟩
/-- PLC_PART_SEL.PARTITION[11:0], RW (R327). -/
def PLC_PART_SEL_PARTITION : Field := ⟨PLC_PART_SEL, 11, 0⟩
/-- PLC_PART_QUOTA.SPILL_GIB[56:48], RW (R327). -/
def PLC_PART_QUOTA_SPILL_GIB : Field := ⟨PLC_PART_QUOTA, 56, 48⟩
/-- PLC_PART_QUOTA.EXTENTS[18:0], RW (R327). -/
def PLC_PART_QUOTA_EXTENTS : Field := ⟨PLC_PART_QUOTA, 18, 0⟩
/-- PLC_PART_USE.SPILL_RESERVED_MIB[63:45], RO (R327). -/
def PLC_PART_USE_SPILL_RESERVED_MIB : Field := ⟨PLC_PART_USE, 63, 45⟩
/-- PLC_PART_USE.SPILL_USED_MIB[44:26], RO (R327). -/
def PLC_PART_USE_SPILL_USED_MIB : Field := ⟨PLC_PART_USE, 44, 26⟩
/-- PLC_PART_USE.EXTENTS_USED[18:0], RO (R327). -/
def PLC_PART_USE_EXTENTS_USED : Field := ⟨PLC_PART_USE, 18, 0⟩
/-- PLC_DEV_SEL.ENDPOINT[14:0], RW (R327). -/
def PLC_DEV_SEL_ENDPOINT : Field := ⟨PLC_DEV_SEL, 14, 0⟩
/-- PLC_DEV_CAP.CAP_MIB[31:0], RW (R327). -/
def PLC_DEV_CAP_CAP_MIB : Field := ⟨PLC_DEV_CAP, 31, 0⟩
/-- PLC_DISPATCH.FULL[63:32], W1C (R327). -/
def PLC_DISPATCH_FULL : Field := ⟨PLC_DISPATCH, 63, 32⟩
/-- PLC_DISPATCH.OVERFLOW[31:0], W1C (R327). -/
def PLC_DISPATCH_OVERFLOW : Field := ⟨PLC_DISPATCH, 31, 0⟩
/-- PLC_BROKER_STAT.ADDED[63:48], W1C (R327). -/
def PLC_BROKER_STAT_ADDED : Field := ⟨PLC_BROKER_STAT, 63, 48⟩
/-- PLC_BROKER_STAT.REMOVED[47:32], W1C (R327). -/
def PLC_BROKER_STAT_REMOVED : Field := ⟨PLC_BROKER_STAT, 47, 32⟩
/-- PLC_BROKER_STAT.NO_SLOT[31:16], W1C (R327). -/
def PLC_BROKER_STAT_NO_SLOT : Field := ⟨PLC_BROKER_STAT, 31, 16⟩
/-- PLC_BROKER_STAT.PAGES_MOVED[15:0], W1C (R327). -/
def PLC_BROKER_STAT_PAGES_MOVED : Field := ⟨PLC_BROKER_STAT, 15, 0⟩
/-- SEC_STATUS.LC_STATE[63:62], RO (R357). -/
def SEC_STATUS_LC_STATE : Field := ⟨SEC_STATUS, 63, 62⟩
/-- SEC_STATUS.KEYS_USED[61:48], RO (R357). -/
def SEC_STATUS_KEYS_USED : Field := ⟨SEC_STATUS, 61, 48⟩
/-- SEC_STATUS.QUOTE_FLAGS[34:32], RO (R357). -/
def SEC_STATUS_QUOTE_FLAGS : Field := ⟨SEC_STATUS, 34, 32⟩
/-- SEC_STATUS.SCRUBS_ACTIVE[31:28], RO (R357). -/
def SEC_STATUS_SCRUBS_ACTIVE : Field := ⟨SEC_STATUS, 31, 28⟩
/-- SEC_STATUS.REFUSED[15:0], W1C (R357). -/
def SEC_STATUS_REFUSED : Field := ⟨SEC_STATUS, 15, 0⟩
/-- SEC_PART_SEL.PARTITION[11:0], RW (R357). -/
def SEC_PART_SEL_PARTITION : Field := ⟨SEC_PART_SEL, 11, 0⟩
/-- SEC_PART.STATE[63:62], RO (R357). -/
def SEC_PART_STATE : Field := ⟨SEC_PART, 63, 62⟩
/-- SEC_PART.DEVICES[47:32], RO (R357). -/
def SEC_PART_DEVICES : Field := ⟨SEC_PART, 47, 32⟩
/-- SEC_PART.KEYS[31:23], RO (R357). -/
def SEC_PART_KEYS : Field := ⟨SEC_PART, 31, 23⟩
/-- SEC_PART.ACTION[1:0], WO (R357). -/
def SEC_PART_ACTION : Field := ⟨SEC_PART, 1, 0⟩
/-- SEC_DEV_SEL.ENDPOINT[14:0], RW (R357). -/
def SEC_DEV_SEL_ENDPOINT : Field := ⟨SEC_DEV_SEL, 14, 0⟩
/-- SEC_DEV.STATE[63:62], RO (R357). -/
def SEC_DEV_STATE : Field := ⟨SEC_DEV, 63, 62⟩
/-- SEC_DEV.PARTITION[43:32], RW (R357). -/
def SEC_DEV_PARTITION : Field := ⟨SEC_DEV, 43, 32⟩
/-- SEC_DEV.ACTION[1:0], WO (R357). -/
def SEC_DEV_ACTION : Field := ⟨SEC_DEV, 1, 0⟩
/-- SEC_SCRUB.DROPPED[63:32], W1C (R357). -/
def SEC_SCRUB_DROPPED : Field := ⟨SEC_SCRUB, 63, 32⟩
/-- SEC_SCRUB.FAILED[31:16], W1C (R357). -/
def SEC_SCRUB_FAILED : Field := ⟨SEC_SCRUB, 31, 16⟩
/-- SEC_SCRUB.DONE[15:0], W1C (R357). -/
def SEC_SCRUB_DONE : Field := ⟨SEC_SCRUB, 15, 0⟩
/-- FLT_STATUS.FAULTN[63:63], RO (R391). -/
def FLT_STATUS_FAULTN : Field := ⟨FLT_STATUS, 63, 63⟩
/-- FLT_STATUS.WORST_OPEN[62:60], RO (R391). -/
def FLT_STATUS_WORST_OPEN : Field := ⟨FLT_STATUS, 62, 60⟩
/-- FLT_STATUS.QUEUE_USED[44:32], RO (R391). -/
def FLT_STATUS_QUEUE_USED : Field := ⟨FLT_STATUS, 44, 32⟩
/-- FLT_STATUS.QUEUE_PEAK[28:16], W1C (R391). -/
def FLT_STATUS_QUEUE_PEAK : Field := ⟨FLT_STATUS, 28, 16⟩
/-- FLT_STATUS.BLOCKS_OPEN[6:0], RO (R391). -/
def FLT_STATUS_BLOCKS_OPEN : Field := ⟨FLT_STATUS, 6, 0⟩
/-- FLT_CFG.FORCE_SAFE[31:31], RW (R391). -/
def FLT_CFG_FORCE_SAFE : Field := ⟨FLT_CFG, 31, 31⟩
/-- FLT_CFG.FAULTN_SEV[30:28], RW (R391). -/
def FLT_CFG_FAULTN_SEV : Field := ⟨FLT_CFG, 30, 28⟩
/-- FLT_CFG.FAULTN_CLR[27:27], W1S (R391). -/
def FLT_CFG_FAULTN_CLR : Field := ⟨FLT_CFG, 27, 27⟩
/-- FLT_DROP.SEV2[59:40], W1C (R391). -/
def FLT_DROP_SEV2 : Field := ⟨FLT_DROP, 59, 40⟩
/-- FLT_DROP.SEV1[39:20], W1C (R391). -/
def FLT_DROP_SEV1 : Field := ⟨FLT_DROP, 39, 20⟩
/-- FLT_DROP.SEV0[19:0], W1C (R391). -/
def FLT_DROP_SEV0 : Field := ⟨FLT_DROP, 19, 0⟩
/-- FLT_VIOL.TENANT[63:32], W1C (R391). -/
def FLT_VIOL_TENANT : Field := ⟨FLT_VIOL, 63, 32⟩
/-- FLT_VIOL.OPERATOR[31:0], W1C (R391). -/
def FLT_VIOL_OPERATOR : Field := ⟨FLT_VIOL, 31, 0⟩
/-- FLT_CAP_SEL.SOURCE[12:0], RW (R391). -/
def FLT_CAP_SEL_SOURCE : Field := ⟨FLT_CAP_SEL, 12, 0⟩
/-- FLT_CAP_ADDR.ADDR[63:0], RO (R391). -/
def FLT_CAP_ADDR_ADDR : Field := ⟨FLT_CAP_ADDR, 63, 0⟩
/-- FLT_CAP_INFO.INITIATOR[63:32], RO (R391). -/
def FLT_CAP_INFO_INITIATOR : Field := ⟨FLT_CAP_INFO, 63, 32⟩
/-- FLT_CAP_INFO.ACCESS[31:24], RO (R391). -/
def FLT_CAP_INFO_ACCESS : Field := ⟨FLT_CAP_INFO, 31, 24⟩
/-- FLT_CAP_INFO.DETAIL[15:0], RO (R391). -/
def FLT_CAP_INFO_DETAIL : Field := ⟨FLT_CAP_INFO, 15, 0⟩
/-- FLT_CAP_TIME.TIME_NS[63:0], RO (R391). -/
def FLT_CAP_TIME_TIME_NS : Field := ⟨FLT_CAP_TIME, 63, 0⟩
/-- FLT_BLKn.STATE[63:62], RO (R391). -/
def FLT_BLKn_STATE : Field := ⟨FLT_BLKn, 63, 62⟩
/-- FLT_BLKn.WORST[61:59], RO (R391). -/
def FLT_BLKn_WORST : Field := ⟨FLT_BLKn, 61, 59⟩
/-- FLT_BLKn.SHADOW[58:58], RO (R391). -/
def FLT_BLKn_SHADOW : Field := ⟨FLT_BLKn, 58, 58⟩
/-- FLT_BLKn.PIPS[55:48], W1C (R391). -/
def FLT_BLKn_PIPS : Field := ⟨FLT_BLKn, 55, 48⟩
/-- FLT_BLKn.PIP_LIMIT[47:40], RW (R391). -/
def FLT_BLKn_PIP_LIMIT : Field := ⟨FLT_BLKn, 47, 40⟩
/-- FLT_BLKn.QUIET_MS[15:0], RW (R391). -/
def FLT_BLKn_QUIET_MS : Field := ⟨FLT_BLKn, 15, 0⟩
/-- FLT_SRCn.FORCE[63:63], W1S (R391). -/
def FLT_SRCn_FORCE : Field := ⟨FLT_SRCn, 63, 63⟩
/-- FLT_SRCn.SEVERITY[62:60], RW (R391). -/
def FLT_SRCn_SEVERITY : Field := ⟨FLT_SRCn, 62, 60⟩
/-- FLT_SRCn.MASK[59:59], RW (R391). -/
def FLT_SRCn_MASK : Field := ⟨FLT_SRCn, 59, 59⟩
/-- FLT_SRCn.CAPTURED[58:58], W1C (R391). -/
def FLT_SRCn_CAPTURED : Field := ⟨FLT_SRCn, 58, 58⟩
/-- FLT_SRCn.LAST_DETAIL[47:32], RO (R391). -/
def FLT_SRCn_LAST_DETAIL : Field := ⟨FLT_SRCn, 47, 32⟩
/-- FLT_SRCn.COUNT[31:0], W1C (R391). -/
def FLT_SRCn_COUNT : Field := ⟨FLT_SRCn, 31, 0⟩
/-- LED_SEQ.NEXT_SEQ[63:0], RO (R392). -/
def LED_SEQ_NEXT_SEQ : Field := ⟨LED_SEQ, 63, 0⟩
/-- LED_STATUS.BACKLOG[48:32], RO (R392). -/
def LED_STATUS_BACKLOG : Field := ⟨LED_STATUS, 48, 32⟩
/-- LED_STATUS.COPY_B_OK[1:1], RO (R392). -/
def LED_STATUS_COPY_B_OK : Field := ⟨LED_STATUS, 1, 1⟩
/-- LED_STATUS.COPY_A_OK[0:0], RO (R392). -/
def LED_STATUS_COPY_A_OK : Field := ⟨LED_STATUS, 0, 0⟩
/-- LED_FLASH.FLASH_OK[63:63], RO (R392). -/
def LED_FLASH_FLASH_OK : Field := ⟨LED_FLASH, 63, 63⟩
/-- LED_FLASH.LAG[55:32], RO (R392). -/
def LED_FLASH_LAG : Field := ⟨LED_FLASH, 55, 32⟩
/-- LED_FLASH.MISSED[31:0], W1C (R392). -/
def LED_FLASH_MISSED : Field := ⟨LED_FLASH, 31, 0⟩
/-- LED_COUNT.MERGED[63:32], W1C (R392). -/
def LED_COUNT_MERGED : Field := ⟨LED_COUNT, 63, 32⟩
/-- LED_COUNT.RECORDS[31:0], W1C (R392). -/
def LED_COUNT_RECORDS : Field := ⟨LED_COUNT, 31, 0⟩
/-- LED_TIME.OPER_MS[47:0], RO (R392). -/
def LED_TIME_OPER_MS : Field := ⟨LED_TIME, 47, 0⟩
/-- LED_PCYCLE.COUNT[31:0], RO (R392). -/
def LED_PCYCLE_COUNT : Field := ⟨LED_PCYCLE, 31, 0⟩
/-- LED_SEC_SEL.INDEX[13:0], RW (R392). -/
def LED_SEC_SEL_INDEX : Field := ⟨LED_SEC_SEL, 13, 0⟩
/-- LED_SEC_DATA.WORD[63:0], RO (R392). -/
def LED_SEC_DATA_WORD : Field := ⟨LED_SEC_DATA, 63, 0⟩
/-- TRI_STATUS.VOTING[63:61], RO (R416). -/
def TRI_STATUS_VOTING : Field := ⟨TRI_STATUS, 63, 61⟩
/-- TRI_STATUS.RESYNC_DIE[60:59], RO (R416). -/
def TRI_STATUS_RESYNC_DIE : Field := ⟨TRI_STATUS, 60, 59⟩
/-- TRI_STATUS.PHASE[58:56], RO (R416). -/
def TRI_STATUS_PHASE : Field := ⟨TRI_STATUS, 58, 56⟩
/-- TRI_STATUS.ROLE[55:54], RO (R416). -/
def TRI_STATUS_ROLE : Field := ⟨TRI_STATUS, 55, 54⟩
/-- TRI_STATUS.LAST_RESYNC_US[31:16], RO (R416). -/
def TRI_STATUS_LAST_RESYNC_US : Field := ⟨TRI_STATUS, 31, 16⟩
/-- TRI_STATUS.DIVERGENCES[15:0], W1C (R416). -/
def TRI_STATUS_DIVERGENCES : Field := ⟨TRI_STATUS, 15, 0⟩
/-- TRI_CFG.RESYNC_REQ[8:8], W1S (R416). -/
def TRI_CFG_RESYNC_REQ : Field := ⟨TRI_CFG, 8, 8⟩
/-- TRI_CFG.FENCE_REQ[7:7], W1S (R416). -/
def TRI_CFG_FENCE_REQ : Field := ⟨TRI_CFG, 7, 7⟩
/-- TRI_CFG.FENCE_DIE[6:5], RW (R416). -/
def TRI_CFG_FENCE_DIE : Field := ⟨TRI_CFG, 6, 5⟩
/-- TRI_CFG.AUTO_RESYNC[4:4], RW (R416). -/
def TRI_CFG_AUTO_RESYNC : Field := ⟨TRI_CFG, 4, 4⟩
/-- TRI_STANDBY_CFG.PARTNER_ID[63:32], RW (R416). -/
def TRI_STANDBY_CFG_PARTNER_ID : Field := ⟨TRI_STANDBY_CFG, 63, 32⟩
/-- TRI_STANDBY_CFG.PAIR_EN[16:16], RW (R416). -/
def TRI_STANDBY_CFG_PAIR_EN : Field := ⟨TRI_STANDBY_CFG, 16, 16⟩
/-- TRI_STANDBY_CFG.HB_MISS[15:8], RW (R416). -/
def TRI_STANDBY_CFG_HB_MISS : Field := ⟨TRI_STANDBY_CFG, 15, 8⟩
/-- TRI_STANDBY_CFG.HOLD_MS[7:0], RW (R416). -/
def TRI_STANDBY_CFG_HOLD_MS : Field := ⟨TRI_STANDBY_CFG, 7, 0⟩
/-- TRI_STANDBY_STATUS.GENERATION[63:32], RO (R416). -/
def TRI_STANDBY_STATUS_GENERATION : Field := ⟨TRI_STANDBY_STATUS, 63, 32⟩
/-- TRI_STANDBY_STATUS.PATH_PAIR[31:31], RO (R416). -/
def TRI_STANDBY_STATUS_PATH_PAIR : Field := ⟨TRI_STANDBY_STATUS, 31, 31⟩
/-- TRI_STANDBY_STATUS.PATH_INBAND[30:30], RO (R416). -/
def TRI_STANDBY_STATUS_PATH_INBAND : Field := ⟨TRI_STANDBY_STATUS, 30, 30⟩
/-- TRI_STANDBY_STATUS.PARTNER_ROLE[29:28], RO (R416). -/
def TRI_STANDBY_STATUS_PARTNER_ROLE : Field := ⟨TRI_STANDBY_STATUS, 29, 28⟩
/-- TRI_STANDBY_STATUS.HOLD[27:27], RO (R416). -/
def TRI_STANDBY_STATUS_HOLD : Field := ⟨TRI_STANDBY_STATUS, 27, 27⟩
/-- TRI_STANDBY_STATUS.MIRROR_LAG[15:0], RO (R416). -/
def TRI_STANDBY_STATUS_MIRROR_LAG : Field := ⟨TRI_STANDBY_STATUS, 15, 0⟩
/-- TRI_EVENTS.TAKEOVERS[63:48], W1C (R416). -/
def TRI_EVENTS_TAKEOVERS : Field := ⟨TRI_EVENTS, 63, 48⟩
/-- TRI_EVENTS.STEPDOWNS[47:32], W1C (R416). -/
def TRI_EVENTS_STEPDOWNS : Field := ⟨TRI_EVENTS, 47, 32⟩
/-- TRI_EVENTS.PAIR_LOSSES[31:16], W1C (R416). -/
def TRI_EVENTS_PAIR_LOSSES : Field := ⟨TRI_EVENTS, 31, 16⟩
/-- TRI_EVENTS.INBAND_LOSSES[15:0], W1C (R416). -/
def TRI_EVENTS_INBAND_LOSSES : Field := ⟨TRI_EVENTS, 15, 0⟩
/-- PWR_STATUS.READY[63:63], RO (R435). -/
def PWR_STATUS_READY : Field := ⟨PWR_STATUS, 63, 63⟩
/-- PWR_STATUS.DOMAIN_READY[62:62], RO (R435). -/
def PWR_STATUS_DOMAIN_READY : Field := ⟨PWR_STATUS, 62, 62⟩
/-- PWR_STATUS.PHASE[61:58], RO (R435). -/
def PWR_STATUS_PHASE : Field := ⟨PWR_STATUS, 61, 58⟩
/-- PWR_STATUS.LAST_RESET[57:55], RO (R435). -/
def PWR_STATUS_LAST_RESET : Field := ⟨PWR_STATUS, 57, 55⟩
/-- PWR_STATUS.TJ_MAX_C[47:40], RO (R435). -/
def PWR_STATUS_TJ_MAX_C : Field := ⟨PWR_STATUS, 47, 40⟩
/-- PWR_STATUS.PKG_POWER_W[31:16], RO (R435). -/
def PWR_STATUS_PKG_POWER_W : Field := ⟨PWR_STATUS, 31, 16⟩
/-- PWR_STATUS.RAILS_OUT[7:0], RO (R435). -/
def PWR_STATUS_RAILS_OUT : Field := ⟨PWR_STATUS, 7, 0⟩
/-- PWR_CTRL.CTRL_RESET[63:63], W1S (R435). -/
def PWR_CTRL_CTRL_RESET : Field := ⟨PWR_CTRL, 63, 63⟩
/-- PWR_CTRL.BLOCK_RESET[62:62], W1S (R435). -/
def PWR_CTRL_BLOCK_RESET : Field := ⟨PWR_CTRL, 62, 62⟩
/-- PWR_CTRL.BLOCK[5:0], RW (R435). -/
def PWR_CTRL_BLOCK : Field := ⟨PWR_CTRL, 5, 0⟩
/-- PWR_WAKE_CFG.WAKE_LANES[39:32], RO (R435). -/
def PWR_WAKE_CFG_WAKE_LANES : Field := ⟨PWR_WAKE_CFG, 39, 32⟩
/-- PWR_WAKE_CFG.GATE_MS[31:24], RW (R435). -/
def PWR_WAKE_CFG_GATE_MS : Field := ⟨PWR_WAKE_CFG, 31, 24⟩
/-- PWR_WAKE_CFG.IDLE_US[19:0], RW (R435). -/
def PWR_WAKE_CFG_IDLE_US : Field := ⟨PWR_WAKE_CFG, 19, 0⟩
/-- PWR_WAKE_STATUS.QUEUED[63:56], RO (R435). -/
def PWR_WAKE_STATUS_QUEUED : Field := ⟨PWR_WAKE_STATUS, 63, 56⟩
/-- PWR_WAKE_STATUS.DEFERRED[47:32], W1C (R435). -/
def PWR_WAKE_STATUS_DEFERRED : Field := ⟨PWR_WAKE_STATUS, 47, 32⟩
/-- PWR_WAKE_STATUS.GRANTED[31:0], W1C (R435). -/
def PWR_WAKE_STATUS_GRANTED : Field := ⟨PWR_WAKE_STATUS, 31, 0⟩
/-- PWR_PORTS.SLEEPING[63:56], RO (R435). -/
def PWR_PORTS_SLEEPING : Field := ⟨PWR_PORTS, 63, 56⟩
/-- PWR_PORTS.UP[55:48], RO (R435). -/
def PWR_PORTS_UP : Field := ⟨PWR_PORTS, 55, 48⟩
/-- PWR_PORTS.DEGRADED[47:40], RO (R435). -/
def PWR_PORTS_DEGRADED : Field := ⟨PWR_PORTS, 47, 40⟩
/-- PWR_PORTS.FAILED[39:32], RO (R435). -/
def PWR_PORTS_FAILED : Field := ⟨PWR_PORTS, 39, 32⟩
/-- PWR_DOMAIN.AGENTS[63:48], RO (R435). -/
def PWR_DOMAIN_AGENTS : Field := ⟨PWR_DOMAIN, 63, 48⟩
/-- PWR_DOMAIN.DEGRADED[47:32], RO (R435). -/
def PWR_DOMAIN_DEGRADED : Field := ⟨PWR_DOMAIN, 47, 32⟩
/-- PWR_DOMAIN.EXCLUDED[31:16], RO (R435). -/
def PWR_DOMAIN_EXCLUDED : Field := ⟨PWR_DOMAIN, 31, 16⟩
/-- PWR_DOMAIN.FAILED[15:0], RO (R435). -/
def PWR_DOMAIN_FAILED : Field := ⟨PWR_DOMAIN, 15, 0⟩
/-- PWR_PART_SEL.PARTITION[11:0], RW (R435). -/
def PWR_PART_SEL_PARTITION : Field := ⟨PWR_PART_SEL, 11, 0⟩
/-- PWR_PART.INTERVAL_MS[63:32], RO (R435). -/
def PWR_PART_INTERVAL_MS : Field := ⟨PWR_PART, 63, 32⟩
/-- PWR_PART.POWER_W[31:0], RO (R435). -/
def PWR_PART_POWER_W : Field := ⟨PWR_PART, 31, 0⟩

/-- The LNK registers. -/
def regsLNK : List RegDesc :=
  [⟨LNK_SEL, 0x7F, 0x0, 0x0⟩,
   ⟨LNK_PORT, 0x0, 0x0, 0xFFFFFFFF⟩,
   ⟨LNK_FEC, 0x0, 0xFFFFFFFFFFFFFFFF, 0x0⟩,
   ⟨LNK_TX_KEY, 0x0, 0xFF, 0x0⟩,
   ⟨LNK_TX_CTR, 0x0, 0x0, 0x0⟩,
   ⟨LNK_CREDIT, 0x0, 0x0, 0x0⟩,
   ⟨LNK_CTRL, 0x0, 0x0, 0x0⟩]

/-- The SCH registers. -/
def regsSCH : List RegDesc :=
  [⟨SCH_EPOCH_CFG, 0x11FFF, 0x0, 0x3D080000007A1⟩,
   ⟨SCH_EPOCH_NOW, 0x0, 0x0, 0x0⟩,
   ⟨SCH_SYNC_CFG, 0xFFFF00FF0007, 0x0, 0x0⟩,
   ⟨SCH_SYNC_STATUS, 0x0, 0x0, 0x0⟩,
   ⟨SCH_ADMIT, 0x0, 0xFFFFFFFF, 0x0⟩]

/-- The TIM registers. -/
def regsTIM : List RegDesc :=
  [⟨TIM_NOW, 0x0, 0x0, 0x0⟩,
   ⟨TIM_TICK, 0x0, 0x0, 0x0⟩,
   ⟨TIM_STATUS, 0x0, 0xFFFF000000000000, 0x0⟩,
   ⟨TIM_CAL, 0x0, 0x0, 0x0⟩,
   ⟨TIM_PTP, 0x0, 0x0, 0x0⟩,
   ⟨TIM_PTP_CFG, 0xFF03, 0x0, 0x0⟩,
   ⟨TIM_SYNC_EDGE, 0x0, 0x0, 0x0⟩,
   ⟨TIM_PPS_EDGE, 0x0, 0x0, 0x0⟩]

/-- The RTE registers. -/
def regsRTE : List RegDesc :=
  [⟨RTE_INSTALL, 0x0, 0x0, 0x0⟩,
   ⟨RTE_GAMBIT, 0x0, 0x0, 0x0⟩,
   ⟨RTE_FAILOVER, 0x1, 0xFFFF00000000, 0x1⟩]

/-- The CFB registers. -/
def regsCFB : List RegDesc :=
  [⟨CFB_STATUS, 0x0, 0x0, 0x30⟩,
   ⟨CFB_QUOTA_SEL, 0xFFF, 0x0, 0x0⟩,
   ⟨CFB_QUOTA, 0x7FFF, 0x0, 0x0⟩]

/-- The GRP registers. -/
def regsGRP : List RegDesc :=
  [⟨GRP_STATUS, 0x0, 0x0, 0x0⟩,
   ⟨GRP_ROOT, 0x0, 0x0, 0x1000000000008000⟩,
   ⟨GRP_ABORTS, 0x0, 0xFFFFFFFFFFFFFFFF, 0x0⟩,
   ⟨GRP_TICKET, 0x0, 0x0, 0x100000000⟩,
   ⟨GRP_FALLBACK, 0x0, 0xFFFFFFFFFFFFFFFF, 0x0⟩,
   ⟨GRP_XORDER, 0x0, 0xFFFFFFFF00000000, 0x0⟩,
   ⟨GRP_RESV_CFG, 0xFFFF, 0xFFFFFFFF00000000, 0x64⟩]

/-- The PLC registers. -/
def regsPLC : List RegDesc :=
  [⟨PLC_STATUS, 0x0, 0x0, 0x0⟩,
   ⟨PLC_BROKER_CFG, 0x1FFFFFF000003FF, 0x0, 0x1085A1E00000064⟩,
   ⟨PLC_ADMIT_CFG, 0xF, 0xFFFFFFFF00000000, 0x0⟩,
   ⟨PLC_KV_CFG, 0xFFFF000FFFFF, 0x0, 0x400000001F4⟩,
   ⟨PLC_KV_STATUS, 0x0, 0xFFC0000000000000, 0x0⟩,
   ⟨PLC_PART_SEL, 0xFFF, 0x0, 0x0⟩,
   ⟨PLC_PART_QUOTA, 0x1FF00000007FFFF, 0x0, 0x0⟩,
   ⟨PLC_PART_USE, 0x0, 0x0, 0x0⟩,
   ⟨PLC_DEV_SEL, 0x7FFF, 0x0, 0x0⟩,
   ⟨PLC_DEV_CAP, 0xFFFFFFFF, 0x0, 0x0⟩,
   ⟨PLC_DISPATCH, 0x0, 0xFFFFFFFFFFFFFFFF, 0x0⟩,
   ⟨PLC_BROKER_STAT, 0x0, 0xFFFFFFFFFFFFFFFF, 0x0⟩]

/-- The SEC registers. -/
def regsSEC : List RegDesc :=
  [⟨SEC_STATUS, 0x0, 0xFFFF, 0x0⟩,
   ⟨SEC_PART_SEL, 0xFFF, 0x0, 0x0⟩,
   ⟨SEC_PART, 0x0, 0x0, 0x0⟩,
   ⟨SEC_DEV_SEL, 0x7FFF, 0x0, 0x0⟩,
   ⟨SEC_DEV, 0xFFF00000000, 0x0, 0x0⟩,
   ⟨SEC_SCRUB, 0x0, 0xFFFFFFFFFFFFFFFF, 0x0⟩]

/-- The FLT registers. -/
def regsFLT : List RegDesc :=
  [⟨FLT_STATUS, 0x0, 0x1FFF0000, 0x0⟩,
   ⟨FLT_CFG, 0xF0000000, 0x0, 0xB0000000⟩,
   ⟨FLT_DROP, 0x0, 0xFFFFFFFFFFFFFFF, 0x0⟩,
   ⟨FLT_VIOL, 0x0, 0xFFFFFFFFFFFFFFFF, 0x0⟩,
   ⟨FLT_CAP_SEL, 0x1FFF, 0x0, 0x0⟩,
   ⟨FLT_CAP_ADDR, 0x0, 0x0, 0x0⟩,
   ⟨FLT_CAP_INFO, 0x0, 0x0, 0xFFFFFFFFFF000000⟩,
   ⟨FLT_CAP_TIME, 0x0, 0x0, 0x0⟩]

/-- The LED registers. -/
def regsLED : List RegDesc :=
  [⟨LED_SEQ, 0x0, 0x0, 0x0⟩,
   ⟨LED_STATUS, 0x0, 0x0, 0x3⟩,
   ⟨LED_FLASH, 0x0, 0xFFFFFFFF, 0x0⟩,
   ⟨LED_COUNT, 0x0, 0xFFFFFFFFFFFFFFFF, 0x0⟩,
   ⟨LED_TIME, 0x0, 0x0, 0x0⟩,
   ⟨LED_PCYCLE, 0x0, 0x0, 0x0⟩,
   ⟨LED_SEC_SEL, 0x3FFF, 0x0, 0x0⟩]

/-- The TRI registers. -/
def regsTRI : List RegDesc :=
  [⟨TRI_STATUS, 0x0, 0xFFFF, 0xE000000000000000⟩,
   ⟨TRI_CFG, 0x70, 0x0, 0x10⟩,
   ⟨TRI_STANDBY_CFG, 0xFFFFFFFF0001FFFF, 0x0, 0xFFFFFFFF00000A14⟩,
   ⟨TRI_STANDBY_STATUS, 0x0, 0x0, 0x0⟩,
   ⟨TRI_EVENTS, 0x0, 0xFFFFFFFFFFFFFFFF, 0x0⟩]

/-- The PWR registers. -/
def regsPWR : List RegDesc :=
  [⟨PWR_STATUS, 0x0, 0x0, 0x0⟩,
   ⟨PWR_CTRL, 0x3F, 0x0, 0x0⟩,
   ⟨PWR_WAKE_CFG, 0xFF0FFFFF, 0x0, 0x180A000000⟩,
   ⟨PWR_WAKE_STATUS, 0x0, 0xFFFFFFFFFFFF, 0x0⟩,
   ⟨PWR_PORTS, 0x0, 0x0, 0x0⟩,
   ⟨PWR_DOMAIN, 0x0, 0x0, 0x0⟩,
   ⟨PWR_PART_SEL, 0xFFF, 0x0, 0x0⟩,
   ⟨PWR_PART, 0x0, 0x0, 0x0⟩]

/-- All registers of BAR0 but the arrays. -/
def regTable : List RegDesc :=
  regsLNK ++ regsSCH ++ regsTIM ++ regsRTE ++ regsCFB ++ regsGRP ++ regsPLC ++ regsSEC ++ regsFLT ++ regsLED ++ regsTRI ++ regsPWR

/-- The JX registers but JX_FLT_SRCn (R67). -/
def jxTable : List RegDesc :=
  [⟨JX_ID, 0x0, 0x0, 0xFFFFFFFF⟩,
   ⟨JX_CTRL, 0x0, 0x0, 0x0⟩,
   ⟨JX_STATUS, 0x0, 0x0, 0x0⟩,
   ⟨JX_OWNER, 0x0, 0x0, 0xFFFFFFFF⟩,
   ⟨JX_EPOCH, 0x0, 0x0, 0x0⟩,
   ⟨JX_GAMBIT, 0x0, 0x0, 0x0⟩,
   ⟨JX_GAMBIT_STAGED, 0x0, 0x0, 0x0⟩,
   ⟨JX_RCTX, 0x0, 0x0, 0x0⟩,
   ⟨JX_RMEM, 0x0, 0x0, 0x0⟩,
   ⟨JX_SAMPLE, 0x1F1F1F1F, 0x0, 0xE0E0E00⟩,
   ⟨JX_HB, 0xFFFF, 0x0, 0x6405⟩,
   ⟨JX_EVDROP, 0x0, 0xFFFFFFFFFFFF, 0x0⟩,
   ⟨JX_VIOL, 0x0, 0xFFFFFFFFFFFFFFFF, 0x0⟩]

/-- Description of CTL_CQn_CFG at its base offset. -/
def descCTL_CQn_CFG : RegDesc := ⟨CTL_CQn_CFG, 0xE0FF87FFFFFFFFFF, 0x0, 0x420000000003E8⟩

/-- Description of CTL_CQn_SQ_BASE at its base offset. -/
def descCTL_CQn_SQ_BASE : RegDesc := ⟨CTL_CQn_SQ_BASE, 0xFFFFFFFFFFFFFFC0, 0x0, 0x0⟩

/-- Description of CTL_CQn_CQ_BASE at its base offset. -/
def descCTL_CQn_CQ_BASE : RegDesc := ⟨CTL_CQn_CQ_BASE, 0xFFFFFFFFFFFFFFE0, 0x0, 0x0⟩

/-- Description of CTL_CQn_STATUS at its base offset. -/
def descCTL_CQn_STATUS : RegDesc := ⟨CTL_CQn_STATUS, 0x0, 0xFF, 0x0⟩

/-- Description of FLT_BLKn at its base offset. -/
def descFLT_BLKn : RegDesc := ⟨FLT_BLKn, 0xFF000000FFFF, 0xFF000000000000, 0x800000000C8⟩

/-- Description of FLT_SRCn at its base offset. -/
def descFLT_SRCn : RegDesc := ⟨FLT_SRCn, 0x7800000000000000, 0x4000000FFFFFFFF, 0x0⟩

/-! ## Arrays -/

/-- Register `r` (its base offset) of command queue `n` (R199). -/
def cqReg (r n : Nat) : Nat := r + 0x20 * n

/-- FLT_BLKn (R391). -/
def fltBlk (n : Nat) : Nat := FLT_BLKn + 8 * n

/-- FLT_SRCn (R391). -/
def fltSrc (n : Nat) : Nat := FLT_SRCn + 8 * n

/-- JX_FLT_SRCn (R67). -/
def jxSrc (n : Nat) : Nat := 0x1000 + 8 * n

/-- The same field of another register of its array. -/
def Field.at (f : Field) (off : Nat) : Field := ⟨off, f.hi, f.lo⟩

/-! ## Default severities (R362, R363; log entry 11) -/

/-- Default severity of the sources 0x0000 to 0x011F: the highest severity the rules state for the source. -/
def defaultSevBlocks (n : Nat) : Nat :=
  if n = 0x0007 then 0 else if n = 0x0008 then 4 else if n = 0x0009 then 2 else if n = 0x000A then 2
  else if n = 0x000B then 2 else if n = 0x000C then 3 else if n = 0x0010 then 3 else if n = 0x0018 then 4
  else if n = 0x0020 then 2 else if n = 0x0040 then 3 else if n = 0x0048 then 2 else if n = 0x0050 then 2
  else if n = 0x0060 then 2 else 1

/-- Default severity of a port-die source by its offset (R359). -/
def defaultSevPort (o : Nat) : Nat :=
  if 12 ≤ o ∧ o ≤ 14 then 3 else if 18 ≤ o ∧ o ≤ 20 then 2 else if o = 21 ∨ o = 23 then 3 else 1

/-- Default severity of a controller source (R362, R363). -/
def defaultSev (n : Nat) : Nat :=
  if n < 0x0200 then defaultSevBlocks n
  else if n < 0x02C0 then (let o := n % 0x40; if o = 0 ∨ o = 4 then 3 else 1)
  else if n < 0x0400 then 1
  else if n < 0x1000 then (let o := n % 0x100; if o = 5 ∨ o = 8 then 3 else if o = 7 then 2 else 1)
  else if n < 0x1600 then defaultSevPort (n % 0x40)
  else if n < 0x1780 then
    (let o := n % 0x20; let d := (n - 0x1600) / 0x20; let two := 5 ≤ d ∧ d ≤ 8
     if o = 1 then (if two then 2 else 3) else if o = 2 then 3 else if o = 3 then (if two then 2 else 3) else 1)
  else if n < 0x1800 then 1
  else if n < 0x1900 then
    (let o := n % 0x20; if o = 1 ∨ o = 2 ∨ o = 4 then 3 else if o = 3 then 2 else 1)
  else if n < 0x1A00 then (let o := n % 0x40; if o = 0 then 2 else if o = 1 then 3 else if o = 2 then 0 else 1)
  else if n < 0x1A40 then (let o := n % 0x40; if o = 0 ∨ o = 3 then 4 else if o = 5 ∨ o = 6 then 3 else 1)
  else if n < 0x1A7A then 4
  else if 0x1F00 ≤ n ∧ n < 0x2000 then 0
  else 1

/-- Default severity of an agent source (R62, R469 and the rules it lists; log entry 11). -/
def jxDefaultSev (v : Variant) (num n : Nat) : Nat :=
  if n = 3 ∨ n = 8 ∨ n = 16 then 2 else if n = 9 then 3 else if n < 33 then 1
  else if n ≤ 38 then 2 else if n = 68 then 2 else if n = 70 then 0 else if n = 96 then 2 else if n = 97 then 3
  else if n < 128 then 1 else if n < 192 then 3
  else if n < 224 then
    match v with
    | .e => if n = 192 ∨ n = 193 ∨ n = 194 ∨ n = 196 then 2 else if n = 200 then 0 else 1
    | .s => if n = 192 ∨ n = 193 then 0 else 1
  else (Config.licenseeSeverity num n).toNat

/-! ## Reset values -/

/-- Finds the description of a register. -/
def findDesc : List RegDesc → Nat → Option RegDesc
  | [], _ => none
  | d :: t, off => if d.off = off then some d else findDesc t off

/-- The description of any BAR0 offset that holds a register (R452). -/
def regDesc (off : Nat) : Option RegDesc :=
  match findDesc regTable off with
  | some d => some d
  | none =>
    if 0x1000 ≤ off ∧ off < 0x1800 ∧ off % 8 = 0 then
      let n := (off - 0x1000) / 0x20
      let lvl := if n = 0 then 2 ^ 62 else 0
      if off % 0x20 = 0 then
        some { descCTL_CQn_CFG with off := off, rw := descCTL_CQn_CFG.rw - lvl, reset := descCTL_CQn_CFG.reset + lvl }
      else if off % 0x20 = 8 then some { descCTL_CQn_SQ_BASE with off := off }
      else if off % 0x20 = 0x10 then some { descCTL_CQn_CQ_BASE with off := off }
      else some { descCTL_CQn_STATUS with off := off }
    else if FLT_BLKn ≤ off ∧ off < FLT_BLKn + 0x200 ∧ off % 8 = 0 then some { descFLT_BLKn with off := off }
    else if FLT_SRCn ≤ off ∧ off < FLT_SRCn + 0x10000 ∧ off % 8 = 0 then
      some { descFLT_SRCn with off := off, reset := defaultSev ((off - FLT_SRCn) / 8) * 2 ^ 60 }
    else if LED_SEC_DATA ≤ off ∧ off < LED_SEC_DATA + 64 ∧ off % 8 = 0 then some ⟨off, 0, 0, 0⟩
    else none

/-- The reset value of a BAR0 register; LC_STATE comes from the fuses and the power-cycle count from RT0 (log entry 3). -/
def regReset (off : Nat) : Word64 :=
  match regDesc off with
  | some d => BitVec.ofNat 64 d.reset
  | none => 0

/-- Contexts of an agent (R38). -/
def ctxTotal : Variant → Nat
  | .s => 1024
  | .e => 16

/-- Reduction-memory blocks of an agent (R38). -/
def blocksTotal : Variant → Nat
  | .s => 1024
  | .e => 128

/-- Bytes of a staging slot (R38). -/
def slotBytes : Variant → Nat
  | .s => 262144
  | .e => 16384

/-- Most ports of an agent (R38). -/
def maxPorts : Variant → Nat
  | .s => 512
  | .e => 8

/-- The reset value of a JX register (R68-R74). -/
def jxReset (v : Variant) (num off : Nat) : Word64 :=
  if off = JX_ID then
    BitVec.ofNat 64 ((match v with | .s => 1 | .e => 2) * 2 ^ 60 + (Config.macroRelease num).toNat * 2 ^ 48
      + (Config.portCount num).toNat * 2 ^ 38 + 0xFFFFFFFF)
  else if off = JX_RCTX then BitVec.ofNat 64 (ctxTotal v * 2 ^ 32 + ctxTotal v)
  else if off = JX_RMEM then BitVec.ofNat 64 (blocksTotal v * 2 ^ 32 + blocksTotal v)
  else if 0x1000 ≤ off ∧ off < 0x1800 ∧ off % 8 = 0 then
    BitVec.ofNat 64 (jxDefaultSev v num ((off - 0x1000) / 8) * 2 ^ 60)
  else
    match findDesc jxTable off with
    | some d => BitVec.ofNat 64 d.reset
    | none => 0

end Sys2Proof.Machine
end

