-- ==== Sys2Proof/Machine/State.lean ====
section
/-! DEFINITION. The state of the block, as plain data, and the state after reset. Controller registers are 64-bit words
under their BAR0 offsets (`regs`), JX registers under their offsets (`Agent.jx`): an unlisted register holds its reset
value. All other state of the spec stands in the structures below, each at its reset value as its default. -/

namespace Sys2Proof.Machine

/-! ## What leaves the block -/

/-- A thing that leaves the block or that its surroundings can see happen: the model's own record (log entry 12). -/
inductive Out where
  /-- a packet leaves a node that originates it -/
  | packet (by_ : Node) (p : Packet)
  /-- a frame leaves a port with its PKT_CTR and credit word (R82): originated, forwarded, replicated, or link-local -/
  | portFrame (by_ : Node) (port ctr : Nat) (credit : BitVec 32) (p : Packet)
  /-- a packet reaches the node it is addressed to -/
  | delivered (at_ : Node) (port : Nat) (p : Packet)
  /-- a frame was discarded, and why (R84) -/
  | discarded (at_ : Node) (port : Nat) (detail : BitVec 16)
  /-- a packet's source learns its end: status 0 done, a NAK reason, 0xF0 no answer, 0xE0 refused post -/
  | packetDone (by_ : Node) (dest : Fid) (stream : BitVec 16) (seq : BitVec 32) (status : Nat)
  /-- bytes written into host memory through a hub (R215) -/
  | hostWrite (hub addr : Nat) (bytes : List Byte)
  /-- a read of host memory is issued (R201) -/
  | hostFetch (hub addr len : Nat)
  /-- an MSI-X message (R215) -/
  | msix (vector : Nat)
  /-- a heartbeat (R407) -/
  | heartbeat (path : HbPath) (bytes : List Byte)
  /-- an SPDM answer over a hub: PCIe of H0 or H1, SMBus of H3 (R350, R456) -/
  | spdm (hub : Nat) (bytes : List Byte)
  /-- an answer of the management port (R454) -/
  | arpReply (mac : BitVec 48) (ip : BitVec 32)
  /-- a record written to the flash ledger region (R389) -/
  | flashRecord (bytes : List Byte)
  /-- the accelerator's own completion ring of a group queue (R226, R258) -/
  | groupCompletion (a : AgentRef) (queue : Nat) (bytes : List Byte)
  /-- the report of a schedule marked unfit (R136, R137; log entry 173) -/
  | unfitReport (schedule : Nat) (items : List Byte)
deriving DecidableEq, Repr

/-! ## Ports and streams -/

/-- The four credited pools (R88), in the order of the credit word (R89). -/
structure Pools where
  control : Nat := 0
  collData : Nat := 0
  collShort : Nat := 0
  bulk : Nat := 0
deriving DecidableEq, Repr

/-- A frame that waits at an output port, and the input port whose pool it still occupies (R88, R89). -/
structure QFrame where
  pkt : Packet
  source : Option Nat := none
deriving DecidableEq, Repr

/-- A key at one direction of a port: its number at RT0 (0 the bootstrap key) and its link salt (R83, R336). -/
structure LinkKey where
  key : Nat := 0
  salt : BitVec 32 := 0
deriving DecidableEq, Repr

/-- A port of the controller or of an agent (R66, R82-R91, R103, R127, R128, R346, R429). -/
structure PortSt where
  /-- 0 down, 1 training, 2 trained, 3 degraded, 4 excluded, 5 failed, 6 asleep (R91) -/
  state : Nat := 0
  lanes : Nat := 0
  planned : Nat := 4
  delayPs : Nat := 0
  farId : Fid := 0xFFFFFFFF
  farPort : Nat := 0
  /-- 0 none, 1 bootstrap key, 2 link key, 3 rekey in progress (R91) -/
  key : Nat := 0
  /-- the key in force on reception is the bootstrap key (R336) -/
  rxBoot : Bool := false
  txCtr : Nat := 0
  /-- frames sent and received under the key in force (R83) -/
  txFrames : Nat := 0
  rxFrames : Nat := 0
  rekeys : Nat := 0
  /-- the keys in force (R83) -/
  txKey : LinkKey := {}
  rxKey : LinkKey := {}
  /-- keys installed and not yet in force (R83, R337) -/
  txNext : LinkKey := {}
  rxNext : LinkKey := {}
  /-- activation counters of keys installed and not yet in force (R337) -/
  txAct : Option Nat := none
  rxAct : Option Nat := none
  lastRx : Option Nat := none
  /-- when the training in progress began (R421) -/
  trainNs : Nat := 0
  /-- another class than Control passed in the epoch in progress, or the port did not watch all of it (R156) -/
  carried : Bool := true
  /-- whole epochs in which only Control frames passed, up to now (R156) -/
  quietEpochs : Nat := 0
  corrected : Nat := 0
  uncorrectable : Nat := 0
  /-- credit held toward the far end (R88) -/
  credit : Pools := {}
  /-- cumulative units sent (R90) -/
  sent : Pools := {}
  /-- units accounted for on reception (R90) -/
  accounted : Pools := {}
  /-- cumulative units freed (R89) -/
  freed : Pools := {}
  /-- units freed up to the last credit word sent (R89) -/
  freedSent : Pools := {}
  /-- credit-word fields last received (R89) -/
  lastWord : Pools := {}
  /-- Collective data units whose credit return is withheld by chunk pacing (R463) -/
  withheld : Nat := 0
  /-- Control token bucket in bytes (R103) -/
  bucket : Nat := 66560
  /-- output queue depth in flits (R150) -/
  depth : Nat := 0
  /-- frames that wait for credit, for the token bucket or for the link (R88, R103) -/
  queue : List QFrame := []
  /-- controller time in ps at which the last flit of the frame in progress leaves (R127) -/
  busyPs : Nat := 0
  /-- the Express ingress buffer of two maximum frames: output port and frame (R128) -/
  express : List (Nat × Packet) := []
  /-- Collective flits less three times the Bulk flits sent while both waited (R103) -/
  collShare : Int := 0
  /-- flits passed in the current Express run: head slot and count (R126) -/
  runPassed : Option (Nat × Nat) := none
  /-- devices whose tenant frames this port discards: scrub mode (R346) -/
  scrub : List Fid := []
  /-- packets counted for sampling, per class in the order of JX_SAMPLE (R56) -/
  sampleCount : List Nat := [0, 0, 0, 0]
  /-- stopped after 2^40 - 1 frames under one key (R86) -/
  overrun : Bool := false
  rekeyAsked : Bool := false
  /-- time of the last frame that was no idle frame (R429) -/
  lastFrameNs : Nat := 0
  /-- time of the last credit frame sent (R90) -/
  lastCreditNs : Nat := 0
  /-- sleep handshake sent and not answered (R429) -/
  sleepAsked : Bool := false
deriving DecidableEq, Repr

/-- A packet its source keeps until it is acknowledged (R107). -/
structure TxPkt where
  pkt : Packet
  resends : Nat := 0
  emittedNs : Nat := 0
  queuedNs : Nat := 0
  /-- an Express packet, or a resend of one, that waits for a head entry (R124) -/
  waiting : Bool := false
  /-- the port over which a link-local packet leaves again (R98, R107) -/
  port : Option Nat := none
  /-- refused by a NAK that leads to a resend and not sent again yet: answers are ignored (R106, R112) -/
  refused : Bool := false
  /-- a report kept after its attempts until the next beacon (R102, R473) -/
  parked : Bool := false
deriving DecidableEq, Repr

/-- Source state of a stream (R93, R109). -/
structure StreamTx where
  nextSeq : BitVec 32 := 0
  /-- sequence number of the previous flagged packet; 0xFFFF_FFFF before the first (R471) -/
  lastFlag : BitVec 32 := 0xFFFFFFFF
  outstanding : List TxPkt := []
deriving DecidableEq, Repr

/-- A flagged packet whose completion is held (R110). -/
structure HeldFlag where
  seq : BitVec 32
  prec : BitVec 16
  arrivedNs : Nat
  requests : Nat := 0
  hdr : Header
deriving DecidableEq, Repr

/-- Destination state of a stream (R108, R110). -/
structure StreamRx where
  /-- last 1,024 sequence numbers delivered, newest first -/
  delivered : List (BitVec 32) := []
  /-- latest number delivered, and the runs of numbers before it that are not: first and count, oldest first (R110) -/
  top : BitVec 32 := 0xFFFFFFFF
  gaps : List (BitVec 32 × Nat) := []
  /-- flagged packets completed with an error, newest first -/
  flagsBad : List (BitVec 32) := []
  /-- REG_WRITE packets answered with status 0xF2, newest first (R99) -/
  refused : List (BitVec 32) := []
  held : List HeldFlag := []
deriving DecidableEq, Repr

/-- Streams of one node, by far end and stream ID. -/
structure Streams where
  tx : NMap StreamTx := []
  rx : NMap StreamRx := []
deriving DecidableEq, Repr

/-! ## Agents -/

/-- One bank of tables (R45): raw entries, an unlisted entry is all zero. -/
structure Bank where
  /-- route entries by local ID (R147) -/
  routes : NMap (BitVec 512) := []
  /-- slot entries by port × 4,096 + slot (R120) -/
  slots : NMap Word64 := []
  /-- broadcast entries (R152, R154) -/
  bcast : NMap Word64 := []
  /-- domain-map entries, 1,024 the default entry (R79, R154) -/
  dmap : NMap Word64 := []
  /-- tree entries (R235) -/
  trees : NMap (BitVec 128) := []
  /-- placement entries (R294) -/
  places : NMap (BitVec 512) := []
deriving DecidableEq, Repr

/-- A staging slot (R48, R160). -/
structure Staged where
  tag : Option (BitVec 24) := none
  valid : Bool := false
  base : BitVec 32 := 0
  bytes : Memory := []
  /-- what has arrived since the slot was invalidated: offset and length of each write (R48) -/
  arrived : List (Nat × Nat) := []
deriving DecidableEq, Repr

/-- A pending play (R49, R161). -/
structure PendingPlay where
  seq : BitVec 16
  swapEpoch : BitVec 32
  resultVersion : BitVec 32
  slots : List Nat
  /-- application to the shadow bank has finished -/
  applied : Bool := false
deriving DecidableEq, Repr

/-- What one input of a set sent (R255): payload or elision, part structure for SPARSE, flags. -/
structure Contribution where
  input : Nat
  elided : Bool
  payload : List Byte
  part : Nat := 0
  parts : Nat := 1
  value : BitVec 32 := 0
  flags : BitVec 4 := 0
deriving DecidableEq, Repr

/-- Where a chunk stands at a node (R255). -/
inductive ChunkPhase where
  | open_ | partialSent | result | acked | released
deriving DecidableEq, Repr

/-- A chunk of a context (R255). -/
structure ChunkSet where
  opSeq : BitVec 32
  index : Nat
  kind : Nat
  combine : Nat
  fmt : Nat
  /-- bytes of a chunk of the operation (R247; log entry 34) -/
  size : Nat
  phase : ChunkPhase := .open_
  inputs : List Contribution := []
  /-- result or partial: payload, elision, value, flags -/
  outElided : Bool := false
  outBytes : List Byte := []
  outValue : BitVec 32 := 0
  outFlags : BitVec 4 := 0
  acks : List Nat := []
  lastResendNs : Nat := 0
  /-- parts of a SPARSE result that have arrived from the parent (R265) -/
  resParts : List (Nat × List Byte) := []
deriving DecidableEq, Repr

/-- A reduction context (R260). -/
structure Ctx where
  treeId : BitVec 24
  generation : BitVec 8
  group : Nat
  partition : BitVec 12
  inputs : Nat
  chunkLog2 : Nat
  window : Nat
  blockBase : Nat
  blockCount : Nat
  state : Nat := 1
  /-- lowest unreleased chunk: operation and index (R260) -/
  lowOp : BitVec 32 := 0
  lowIndex : Nat := 0
  sets : List ChunkSet := []
  /-- operations released by an abort: operation, reason, chunks of later operations released since (R255) -/
  abortedOps : List (BitVec 32 × Nat × Nat) := []
deriving DecidableEq, Repr

/-- A chunk of a member's operation (R253-R257). -/
structure MemberChunk where
  index : Nat
  sent : Bool := false
  hasResult : Bool := false
  released : Bool := false
  resends : Nat := 0
  emittedNs : Nat := 0
  /-- on the ring: a finished block's chunk, and what was sent (R282) -/
  ringFinal : Bool := false
  data : List Byte := []
  elided : Bool := false
  value : BitVec 32 := 0
  /-- parts of a SPARSE result that have arrived (R265) -/
  parts : List (Nat × List Byte) := []
deriving DecidableEq, Repr

/-- An operation at a member (R244, R253, R276, R286). -/
structure MemberOp where
  queue : Nat
  group : Nat
  desc : List Byte
  opSeq : BitVec 32
  ring : Bool := false
  started : Bool := false
  tree : BitVec 24 := 0
  firstTree : BitVec 24 := 0
  generation : BitVec 8 := 0
  chunks : List MemberChunk := []
  total : Nat := 0
  elidedResults : Nat := 0
  flags : BitVec 4 := 0
  scalar : BitVec 32 := 0
  parentTree : Option (BitVec 24) := none
  /-- a GLAUNCH brought it: a copy of its record goes to the controller (R245) -/
  copy : Bool := false
  /-- on the ring: partials that arrived, and chunks finished here (R282) -/
  ringIn : NMap (List Byte × BitVec 32) := []
  ringDone : List Nat := []
deriving DecidableEq, Repr

/-- A group queue of a Jexjan-E (R55, R226, R232). -/
structure GroupQueue where
  group : Nat
  partition : BitVec 12
  library : Bool
  policyRing : Bool
  treeId : BitVec 24
  rank : Nat
  members : Nat
  chunkLog2 : Nat
  window : Nat
  timeoutUs : Nat
  ringBase : Nat
  ringLog2 : Nat
  head : Nat := 0
  tail : Nat := 0
  cqTail : Nat := 0
  cqHead : Nat := 0
  completions : Nat := 0
  doorbellBad : Nat := 0
  nextOpSeq : BitVec 32 := 1
  /-- a library-mode reservation is held (R233) -/
  reserved : Bool := false
  reservedRing : Bool := false
  /-- tree and generation of the last go notice (R276, R286) -/
  curTree : BitVec 24 := 0
  curGen : BitVec 8 := 0
  /-- parent-domain tree of the last go notice (R240) -/
  curParent : Option (BitVec 24) := none
  /-- idle as reported (R277) -/
  idle : Bool := true
  /-- last time a chunk of the group was released and an operation launched (R279) -/
  lastReleaseNs : Nat := 0
  lastLaunchNs : Nat := 0
  /-- the previous member on the ring (R282) -/
  ringPrev : Fid := 0xFFFFFFFF
  /-- right and left neighbours on the ring (R282) -/
  ringNext : Fid := 0xFFFFFFFF
deriving DecidableEq, Repr

/-- A receive ring (R227). -/
structure RxRing where
  partition : BitVec 12
  base : Nat
  log2 : Nat
  head : Nat := 0
  fill : Nat := 0
deriving DecidableEq, Repr

/-- A WRITE window (R95). -/
structure Window where
  partition : BitVec 12
  base : Nat
  length : Nat
deriving DecidableEq, Repr

/-- One copy of a dispatched token (R302, R303). -/
structure DispCopy where
  choice : Nat
  endpoint : Nat
  replica : Nat
  seq : BitVec 32
  slot : Nat
  outcome : Nat
  acked : Bool := false
  failed : Bool := false
  /-- placed once more after a refusal (R303) -/
  again : Bool := false
deriving DecidableEq, Repr

/-- A pending dispatch record (R305). -/
structure DispRecord where
  src : Fid
  stream : BitVec 16
  seq : BitVec 32
  createdNs : Nat
  hdr : Header
  flit : List Byte
  outcomes : List Nat
  copies : List DispCopy
  receiptSent : Bool := false
  receiptSeq : BitVec 32 := 0
  receiptAcked : Bool := false
deriving DecidableEq, Repr

/-- Outcomes of part 0 of a split token (R306). -/
structure PartRecord where
  src : Fid
  stream : BitVec 16
  tag : Word64
  createdNs : Nat
  outcomes : List Nat
  copies : List DispCopy
  parts : Nat
  partsAcked : List Nat := []
deriving DecidableEq, Repr

/-- Step counters of one layer entry (R300): current and previous step, each expert word counter by entry × 16 + replica. -/
structure LayerSteps where
  cur : Option Nat := none
  prev : Option Nat := none
  curCnt : NMap Nat := []
  prevCnt : NMap Nat := []
  stepsSeen : List Nat := []
deriving DecidableEq, Repr

/-- Window counts of one expert at a switch (R308). -/
structure ExpertCount where
  looked : Nat := 0
  placed : Nat := 0
  overflow : Nat := 0
  full : Nat := 0
deriving DecidableEq, Repr

/-- Dispatch state of a Jexjan-S (R300-R308). -/
structure DispatchSt where
  layers : NMap LayerSteps := []
  pending : List DispRecord := []
  parts : List PartRecord := []
  /-- last acknowledged originals (R305) -/
  done : List (Fid × BitVec 16 × BitVec 32) := []
  counts : NMap ExpertCount := []
deriving DecidableEq, Repr

/-- A scrub as the agent runs it (R346, R347). -/
structure AgentScrub where
  phase : Nat := 1
  former : BitVec 12
  done : Nat := 0
  seqNo : Nat
deriving DecidableEq, Repr

/-- A sample record (R57). -/
structure Sample where
  bytes : List Byte
  atNs : Nat
deriving DecidableEq, Repr

/-- A Jexjan agent (R38). -/
structure Agent where
  /-- JX registers that differ from reset (R67) -/
  jx : NMap Word64 := []
  active : Bank := {}
  shadow : Bank := {}
  /-- version the shadow bank holds; none when clean (R155) -/
  shadowHolds : Option (BitVec 32) := none
  /-- the shadow bank broke a check at INSTALL: the source of the event (R151) -/
  shadowBad : Option Nat := none
  /-- copy of the active bank into the shadow bank in progress (R45) -/
  copying : Bool := false
  copyStartNs : Nat := 0
  /-- patches acknowledged while the copy runs (R45) -/
  deferred : List (List Byte) := []
  /-- committed version and epoch (R155) -/
  commitAt : Option (BitVec 32 × BitVec 32) := none
  staged : NMap Staged := []
  play : Option PendingPlay := none
  playSeqSeen : Bool := false
  /-- attempt counting suspended until this epoch (R165) -/
  suspendUntil : Option (BitVec 32) := none
  /-- chunk attempts suspended since; resumes 5 ms after the swap epoch opens (R284) -/
  chunkSuspended : Bool := false
  swapOpenedNs : Option Nat := none
  ctxs : List Ctx := []
  /-- reduction-memory account in bytes (R462) -/
  account : Int := 2097152
  /-- Express entries or non-Control packets seen: epochs quiet so far (R44) -/
  quietEpochs : Nat := 0
  nonControlSeen : Bool := false
  ports : NMap PortSt := []
  streams : Streams := {}
  /-- domain anchor digest recorded from the first accepted claim (R101, R338) -/
  anchor : Option (BitVec 384) := none
  transportKey : Bool := false
  lastBeaconNs : Option Nat := none
  lastBeaconSeq : Option (BitVec 32) := none
  /-- whole beacon periods since the last beacon: JX_HB.BEACON_MISS before it saturates (R73) -/
  missedBeacons : Nat := 0
  statusNs : Nat := 0
  holdoverRaised : Bool := false
  /-- agent time minus controller time in ns, pending slew and pending step (R117-R119; log entry 13) -/
  phaseNs : Int := 0
  slewNs : Int := 0
  stepNs : Option Int := none
  /-- adjustments and geometry learned from beacons (R140, R100) -/
  adjusts : List (BitVec 32 × Int) := []
  geometry : Nat × Nat := (1953, 1)
  pendingGeometry : Option (Nat × Nat × BitVec 32) := none
  /-- ticks since the agent's own epoch opened, and the adjustment it applies to that epoch (R139, R140) -/
  epochTick : Nat := 0
  epochAdj : Int := 0
  /-- ticks by which its boundaries come after the controller's, before them where negative: adjustments it missed (R146) -/
  late : Int := 0
  /-- a beacon has told it where the boundaries lie: the next boundary restores them (R119, R146) -/
  realign : Bool := false
  /-- the agent's boundary of the controller's last one is still to come, in so many ticks (R146) -/
  boundaryIn : Option Nat := none
  /-- it crossed the controller's next boundary before the controller did (R146) -/
  crossed : Bool := false
  /-- an epoch has been observed from its opening boundary on (R44) -/
  wholeEpoch : Bool := false
  /-- event buffer (R65), oldest first, and severity 3-4 events held by their detectors -/
  buffer : List Event := []
  latched : List Event := []
  eventsSent : List (BitVec 32 × List Event) := []
  /-- start and close, in agent time, of the shadow of the last link-domain reset (R66, R374) -/
  ownShadow : Option (Nat × Nat) := none
  /-- acknowledged reports kept for the next beacon (R473) -/
  reports : List Packet := []
  samples : List Sample := []
  captured : NMap Capture := []
  /-- partition the controller set (R329); 0 when unassigned -/
  partition : BitVec 12 := 0
  memBytes : Nat := 0
  mem : Memory := []
  windows : List Window := []
  rxRing : Option RxRing := none
  keySlots : NMap Nat := []
  gqs : NMap GroupQueue := []
  /-- group queue whose descriptors were taken last (R201, R226) -/
  gqTurn : Nat := 63
  ops : List MemberOp := []
  crstN : Bool := true
  lrstN : Bool := true
  /-- E-IDLE and E-DEEP (R429) -/
  lowPower : Nat := 0
  deepDeferred : Bool := false
  scrub : Option AgentScrub := none
  disp : DispatchSt := {}
  powerW : Nat := 0
deriving DecidableEq, Repr

/-! ## Time, package, power -/

/-- The time base beside its registers (R28-R30, R139-R143, R441). -/
structure TimeSt where
  /-- ticks since the current epoch opened -/
  epochTick : Nat := 0
  /-- ticks of the current epoch beyond SLOTS × SLOT_TICKS (R139) -/
  epochAdj : Int := 0
  pendingGeom : Option (Nat × Nat × BitVec 32) := none
  adjusts : List (BitVec 32 × Int) := []
  /-- adjustments announced in the last 1,024 beacons, newest first, 0 where none (R141) -/
  announced : List Int := []
  lastSyncNs : Option Nat := none
  lastPpsNs : Option Nat := none
  /-- newest matched edge in ticks, not yet used; tick of its target boundary with the adjustments pending there (R141) -/
  edge : Option (Int × Int) := none
  /-- tick of the target boundary last matched, and target boundaries opened since without an edge (R142) -/
  lastMatch : Option Int := none
  missing : Nat := 0
  lostNs : Option Nat := none
  beaconSeq : BitVec 32 := 0
  lastBeaconNs : Option Nat := none
  /-- the last four adjustments announced, newest first (R100, R140) -/
  history : List (BitVec 32 × Int) := []
  /-- operating ns since power good (R384) -/
  operNs : Nat := 0
deriving DecidableEq, Repr

/-- Items of one die pair (R15). -/
structure NocPair where
  src : Nat
  dst : Nat
  nextSeq : Nat := 0
  /-- sent and not acknowledged, oldest first; one not seen yet has no data (log entry 19) -/
  kept : List (Nat × Option Word64) := []
  /-- arrived ahead of a missing one -/
  held : List (Nat × Word64) := []
  delivered : List Word64 := []
  /-- sends over the destination's second attachment -/
  second : Bool := false
  reissued : List (Nat × Option Word64) := []
deriving DecidableEq, Repr

/-- The in-package network (R15). -/
structure NocSt where
  pairs : List NocPair := []
  routersDown : List Nat := []
deriving DecidableEq, Repr

/-- State of a quarter of a CF die (R35, R429). -/
inductive QuarterState where
  | gated | waiting | ramping | on
deriving DecidableEq, Repr

/-- A context of an image rectangle: image, instance, quarter and rectangle of squares (R221, R222). -/
structure Tile where
  image : Nat
  inst : Nat
  quarter : Nat
  row : Nat
  col : Nat
  h : Nat
  w : Nat
  sramUnits : Nat
  exclusive : Bool
  owner : Nat
deriving DecidableEq, Repr

/-- A loaded fabric image (R220-R224). -/
structure Image where
  level : Level
  partition : BitVec 12
  entries : Nat
  freeing : Bool := false
  /-- loaded through a tenant queue (R225) -/
  tenant : Bool := false
  squares : Nat
  /-- digest of the body (R220) -/
  digest : BitVec 384 := 0
  /-- runs in voted order: engine and tag, 0xFF and 0 once the program has ended (R183, R224) -/
  runs : List (Nat × Nat) := []
  /-- the IMGFREE that waits: queue and CMD_ID -/
  freeCmd : Option (Nat × Nat) := none
deriving DecidableEq, Repr

/-- An instance that is to be loaded again (R36, R396): one of its tiles, how many it has, the die of its loss, and whether no
dies have room until that die returns. -/
structure Reload where
  tile : Tile
  count : Nat
  die : Nat
  stuck : Bool := false
deriving DecidableEq, Repr

/-- Squares and images (R21, R35, R220-R225). -/
structure SquareSt where
  /-- state of quarters by die × 4 + quarter; unlisted gated -/
  quarters : NMap QuarterState := []
  /-- ungating queue: class and quarter, in arrival order (R35) -/
  ungate : List (Nat × Nat) := []
  lastUse : NMap Nat := []
  /-- excluded squares by quarter × 576 + row × 24 + column (R21) -/
  excluded : List Nat := []
  tested : List Nat := []
  /-- squares of an odd instance, not used before their quarter's next known-answer run (R396) -/
  suspect : List Nat := []
  /-- the model's own: which squares of a quarter fail its next known-answer run (R21; log entry 174) -/
  failing : List Nat := []
  reloads : List Reload := []
  tiles : List Tile := []
  images : NMap Image := []
  quota : NMap Nat := []
deriving DecidableEq, Repr

/-- A waiting wake request (R432). -/
structure WakeReq where
  port : Nat
  cls : Nat
  lanes : Nat
  order : Nat
  deferred : Bool := false
deriving DecidableEq, Repr

/-- What waits for the PCIe link of a hub to return (R453): a completion record without its phase, or a read or write of
host memory. -/
inductive HeldIo where
  | record (q : Nat) (bytes : List Byte) (irq : Bool)
  | out (hub : Nat) (o : Out)
deriving DecidableEq, Repr

/-- Power, pins and resets (R426-R437, R439, R446-R448, R460). -/
structure PowerSt where
  /-- bring-up has ended without a ready controller: no boot image, or a known-answer run too many failed (R418, R419) -/
  stuck : Bool := false
  pwrgd : Bool := false
  resetN : Bool := true
  faultN : Bool := true
  thermtripN : Bool := true
  /-- voter gates hold: brown-out (R448) or thermal trip (R460) -/
  held : Bool := false
  tripped : Bool := false
  brownRails : List Nat := []
  brownBackNs : Option Nat := none
  railsOut : List Nat := []
  sensorsOut : List Nat := []
  temps : NMap Nat := []
  wakeQ : List WakeReq := []
  wakeOrder : Nat := 0
  /-- grants in the window: group, tick, lanes (R432) -/
  grants : List (Nat × Nat × Nat) := []
  waking : List Nat := []
  perst : List Nat := []
  /-- reads and writes of host memory held while their hub's PCIe link is in reset (R453) -/
  heldIo : List HeldIo := []
  /-- blocks in reset, first begun first: block, kind, start (R353, R355) -/
  resets : List (Nat × Nat) := []
  /-- blocks out of service: lost, in reset or retired (R36, R361) -/
  deadBlocks : List Nat := []
  /-- retired blocks whose PIPS the operator has cleared (R381) -/
  pipsCleared : List Nat := []
  /-- table-store dies whose lost content was rebuilt into TS11 (R36) -/
  rebuilt : List Nat := []
  partPower : NMap (Nat × Nat) := []
  resetKind : Nat := 0
deriving DecidableEq, Repr

/-! ## Collector and ledger -/

/-- An entry of the ingress queue (R369). -/
structure QEntry where
  ev : Event
  reserved : Bool
  /-- time of the latest occurrence merged into the entry (R370, R384) -/
  lastNs : Nat := 0
deriving DecidableEq, Repr

/-- A reaction shadow (R374, R375). -/
structure Shadow where
  /-- block number, or 64 for a port retrain, 65 an agent link-domain reset, 66 a compute reset -/
  kind : Nat
  origin : Fid := 0xFFFFFFFF
  port : Nat := 0xFFFF
  openNs : Nat
  closeNs : Option Nat := none
deriving DecidableEq, Repr

/-- The fault collector (R366-R382). -/
structure CollectorSt where
  /-- raised and on their way to the collector, in merge order (R369) -/
  raised : List Event := []
  queue : List QEntry := []
  /-- ingress dies hold the merge order: severity 3-4 found no entry (R371) -/
  accountNs : Nat := 0
  captures : NMap Capture := []
  shadows : List Shadow := []
  quietUntil : NMap Nat := []
  resetStart : NMap Nat := []
  /-- EVSUB subscriptions: engine, first, last, least severity (R189) -/
  subs : List (Nat × Nat × Nat × Nat) := []
  /-- severity 3-4 deliveries that wait for room at LRE0 (R373) -/
  lre0Wait : List Event := []
  /-- standby takeover is requested (R37, R361) -/
  takeoverReq : Bool := false
  /-- a controller reset is due: severity 4 without a standby (R426) -/
  resetDue : Bool := false
deriving DecidableEq, Repr

/-- A record waiting to be written or written (R384). -/
structure LedgerRec where
  seq : Nat := 0
  firstMs : Nat
  firstTick : Nat
  lastMs : Nat
  pcycle : Nat
  origin : Fid
  source : Nat
  severity : Nat
  shadow : Bool
  escalated : Bool
  forced : Bool
  typ : Nat
  tally : Nat
  detail : BitVec 16
  port : Nat
  capture : Option Capture
  addr : Word64
  pips : Nat
deriving DecidableEq, Repr

/-- The ledger (R383-R390). -/
structure LedgerSt where
  /-- records on their way to the writer, oldest first (R387) -/
  buffer : List LedgerRec := []
  writerNs : Nat := 0
  /-- the ring, by index (R384) -/
  ring : NMap LedgerRec := []
  closed : List Nat := []
  /-- time of the last merge or write, by SEQ, while the record is open -/
  mergedNs : NMap Nat := []
  /-- flash copies waiting: SEQ, in order; tally of the last copy by SEQ (R389) -/
  flashQ : List Nat := []
  flashTally : NMap Nat := []
  flash : List (List Byte) := []
  /-- drops of the millisecond by severity (R388) -/
  drops : List Nat := [0, 0, 0]
  /-- the operating millisecond up to which drops have been summed up (R388) -/
  summedMs : Nat := 0
  /-- the next SEQ of the security ring (R390) -/
  securitySeq : Nat := 0
  /-- the MRAM ring of security records (R390), newest last -/
  security : List (List Byte) := []
deriving DecidableEq, Repr

/-! ## Triad and standby -/

/-- An act at a gate with its copies (R394): unit, act number, copies by die, time of first arrival, pass. -/
structure GateAct where
  gate : Nat
  unit : Nat
  seq : Nat
  copies : List (Nat × List Byte)
  firstNs : Nat
  passed : Bool := false
  passedNs : Nat := 0
  value : List Byte := []
deriving DecidableEq, Repr

/-- An act that waits for the standby's acknowledgement (R405): a packet over a controller port, or the completion of an ADMIT. -/
inductive Behind where
  | packet (port : Nat) (p : Packet)
  | admission (queue cmdId number status : Nat) (irq : Bool)
deriving DecidableEq, Repr

/-- The triad, the mirror and the heartbeats (R394-R415). -/
structure TriadSt where
  acts : List GateAct := []
  passedActs : List (Nat × Nat × Nat) := []
  /-- engines whose act or shared access waits at the gates, in order of arrival, and the engine served last (R173, R195) -/
  gateWait : List Nat := []
  gateTurn : Nat := 0
  /-- dies fenced at the next tick: die and gate index (R397) -/
  fencing : List (Nat × Nat) := []
  /-- the scales passed nothing: severity 4 on 0x0008 (R395, R408) -/
  refused : Bool := false
  resyncStartNs : Nat := 0
  marked : Nat := 0
  passes : Nat := 0
  paired : Bool := false
  fullCopy : Bool := false
  mirrorSeq : Nat := 0
  /-- mirror records sent and not acknowledged: sequence, time and kind of item (R405, R406) -/
  mirrorOpen : List (Nat × Nat × Nat) := []
  /-- acts that wait until the standby has acknowledged what they follow from (R405) -/
  behind : List Behind := []
  mirrorApplied : Nat := 0
  mirrorItems : NMap (Nat × List Byte) := []
  mirrorHeld : List (Nat × Nat × List Byte) := []
  lagRaised : Bool := false
  hbSeq : BitVec 32 := 0
  lastPairNs : Nat := 0
  lastInbandNs : Nat := 0
  holdEndNs : Option Nat := none
  partnerVoting : Nat := 0
  partnerGeneration : BitVec 32 := 0
  partnerReq : Bool := false
  takeoverNs : Option Nat := none
  /-- reads of step 3 of a takeover that wait for their answers, none before step 3: agent and register (R412) -/
  takeoverReads : Option (List (Fid × Nat)) := none
  selfTestFails : Nat := 0
  divergences : Nat := 0
  health : List (List Byte) := []
  probes : Nat := 0
deriving DecidableEq, Repr

/-! ## Domain, routes, schedules -/

/-- A link the controller knows (R117, R421). -/
structure Link where
  aId : Fid
  aPort : Nat
  bId : Fid
  bPort : Nat
  lanes : Nat
  planned : Nat
  delayPs : Nat
  up : Bool := true
deriving DecidableEq, Repr

/-- An agent the controller knows (R422). -/
structure Known where
  ref : AgentRef
  fid : Fid
  ports : Nat
  admitted : Bool := false
  version : BitVec 32 := 0
  memBytes : Nat := 0
  needsRestart : Bool := false
  restartAcked : Bool := false
  claimSentNs : Nat := 0
  claimAcked : Bool := false
  port : Nat := 0
  /-- the agent's own port on which discovery reached it (R335) -/
  agentPort : Nat := 0
  katAsked : Bool := false
  /-- false for an agent adopted with tables that no install has written in full yet (R428) -/
  full : Bool := true
  /-- digest of the DeviceID certificate and release, as discovery found them (R352, R422) -/
  cert : BitVec 384 := 0
  release : BitVec 12 := 0
  status : List Byte := []
deriving DecidableEq, Repr

/-- A rejoin that waits for the known-answer run of step 2 (R42): attempts that failed, and the later step that fails twice. -/
structure Rejoin where
  fid : Fid
  tries : Nat := 0
  failsAt : Option Nat := none
deriving DecidableEq, Repr

/-- The domain as the controller knows it (R422-R428). -/
structure DomainSt where
  known : List Known := []
  links : List Link := []
  inventory : List (BitVec 384 × Fid × Variant) := []
  domain : Nat := 1
  /-- the gateway ID under which this domain stands in its parent, none without a parent (R79, R80; log entry 21) -/
  gateway : Fid := 0xFFFFFFFF
  localId : Nat := 0xA000
  closed : Bool := false
  mac : BitVec 48 := 0
  ip : BitVec 32 := 0
  /-- STREAMS_RESET in progress for this ID: agents yet to acknowledge and time (R471) -/
  restarts : List (Fid × List Fid × Nat) := []
  adopted : Bool := false
  /-- rejoins in progress, and endpoints kept out until their next compute reset (R42) -/
  rejoins : List Rejoin := []
  rejoinOut : List Fid := []
  /-- partner and IEEE 1588 settings of the inventory, taken up at controller ready (R423, R145) -/
  partnerId : Fid := 0xFFFFFFFF
  ptpDomain : BitVec 8 := 0
  ptpUdp : Bool := false
  /-- where the next sample records go in the telemetry area -/
  telemetryAt : Nat := 0
deriving DecidableEq, Repr

/-- What an install was submitted for: the tag of a TINST and its install set, an ADMIT command, the broker, a drain. -/
inductive InstallFor where
  | nobody
  | tag (engine tag set : Nat)
  | admission (queue cmdId number : Nat) (irq : Bool)
  | broker
  | drain (d : DrainElem)
deriving DecidableEq, Repr

/-- An install in progress (R155). -/
structure InstallSt where
  version : BitVec 32
  /-- patches per agent -/
  sets : List (Fid × List Byte)
  /-- INSTALL messages not yet acknowledged -/
  openMsgs : List (Fid × BitVec 32)
  committed : Bool := false
  epoch : BitVec 32 := 0
  postponements : Nat := 0
  /-- when the COMMIT last left (R107, R155) -/
  commitNs : Nat := 0
  commitAcks : List Fid := []
  /-- agents to which the COMMIT went as unicast (R155, step 3) -/
  unicast : List Fid := []
  silent : List Fid := []
  refused : Bool := false
  purpose : InstallFor := .nobody
deriving DecidableEq, Repr

/-- A gambit the controller stores (R157, R160). -/
structure Gambit where
  rec_ : GambitRec
  job : Nat
  base : BitVec 32
  armed : Bool := false
  /-- STAGE pieces not yet acknowledged: agent and number (R160) -/
  pieces : List (Fid × BitVec 32) := []
  /-- its staging is still to be sent: put off by a hold (R411) or a pending play (R169) -/
  due : Bool := false
  invalid : Bool := false
  tag : Option (Nat × Nat) := none
deriving DecidableEq, Repr

/-- A gambit whose taking waits for the swap of a pending play (R169). -/
structure GambitWait where
  rec_ : GambitRec
  job : Nat
  base : BitVec 32
  tag : Option (Nat × Nat) := none
deriving DecidableEq, Repr

/-- A link-down report (R163). -/
structure DownReport where
  agent : Fid
  port : Nat
  atNs : Nat
deriving DecidableEq, Repr

/-- A play the controller emitted (R164). -/
structure CtlPlay where
  seq : BitVec 16
  swapEpoch : BitVec 32
  result : BitVec 32
  gambits : List (BitVec 24)
  emittedNs : Nat
  firstReportNs : Nat
  acks : List Fid := []
  resends : Nat := 0
deriving DecidableEq, Repr

/-- Drains in progress (R156). -/
structure Drain where
  elem : DrainElem
  /-- when its install came in force, none before -/
  startNs : Option Nat := none
  permitted : Bool := false
  late : Bool := false
deriving DecidableEq, Repr

/-- Routes, installs and gambits at the controller (R155-R169). -/
structure RouteSt where
  install : Option InstallSt := none
  waiting : List (List (Fid × List Byte) × InstallFor) := []
  /-- the controller's copies of the agents' tables in force and in the shadow banks (R24, R27), by fabric ID -/
  copy : NMap Bank := []
  shadow : NMap Bank := []
  gambits : List Gambit := []
  /-- gambits that arrived while a play was pending (R169) -/
  gambitWait : List GambitWait := []
  reports : List DownReport := []
  classNs : Option Nat := none
  /-- failed links and switches (agent, port or none) -/
  failed : List (Fid × Option Nat) := []
  play : Option CtlPlay := none
  playSeq : BitVec 16 := 0
  selected : List (BitVec 24) := []
  /-- arrival of the first report of the faults they are selected for (R168) -/
  selectedNs : Option Nat := none
  drains : List Drain := []
deriving DecidableEq, Repr

/-- An admitted schedule (R133, R136). -/
structure Admitted where
  number : Nat
  sched : Schedule
  /-- runs by flow index: agent, port, first slot, last slot -/
  runs : List (Nat × Fid × Nat × Nat × Nat)
  unfit : Bool := false
  /-- the last report of R137 on this schedule -/
  report : List Byte := []
  /-- faults whose gambit of the job has been played (R167) -/
  played : List (Fid × Option Nat) := []
deriving DecidableEq, Repr

/-- Admission (R132-R137). -/
structure SchedSt where
  nextNumber : Nat := 1
  admitted : List Admitted := []
deriving DecidableEq, Repr

/-! ## Groups -/

/-- What a reservation is for: launches in queue mode (R274), a GRESV of an engine (R278), a group whose tree a gambit
replaced (R285). -/
inductive ResvFor where
  | launch
  | library (engine : Nat)
  | gambit
deriving DecidableEq, Repr

/-- A ticket (R274, R278, R285). -/
structure Ticket where
  number : Nat
  group : Nat
  goal : ResvFor
  sinceNs : Nat
  /-- holders of which a cross-order wait has been reported (R279) -/
  reported : List Nat := []
deriving DecidableEq, Repr

/-- What the reservation map holds of a node (R271): free contexts and blocks, and the contexts in it: tree, group, first
block, blocks. -/
structure NodeMap where
  ctxFree : Nat
  blkFree : Nat
  held : List (BitVec 24 × Nat × Nat × Nat) := []
deriving DecidableEq, Repr

/-- What a parent controller says of a child group's place in the parent domain: tree, parent node, input number (R240), and the
partition of the parent group with the generation last seen (log entry 37). -/
structure Uplink where
  tree : BitVec 24
  parent : Fid
  input : Nat
  partition : BitVec 12
  generation : BitVec 8 := 0
deriving DecidableEq, Repr

/-- A copy of a member's completion record for a GLAUNCH tag (R245). -/
structure LaunchCopy where
  group : Nat
  opSeq : BitVec 32
  member : Fid
  bytes : List Byte
deriving DecidableEq, Repr

/-- A group as admitted (R230). -/
structure Group where
  rec_ : GroupRec
  admission : Nat
  /-- 0 no reservation, 1 writes not all acknowledged, 2 held, 3 rolled back (R271) -/
  resv : Nat := 0
  /-- a ring reservation of library mode (R281) -/
  ring : Bool := false
  tree : BitVec 24
  generation : BitVec 8 := 0
  /-- the ticket, number 0 where none was drawn, that the writes in progress serve -/
  serving : Option Ticket := none
  /-- agents whose context write is not yet acknowledged, and those whose context is written -/
  asked : List Fid := []
  written : List Fid := []
  /-- operations that wait for their go notice -/
  waiting : List (BitVec 32) := []
  /-- members that reported idle, and the time of the report that made the group idle (R277) -/
  idle : List Fid := []
  idleSinceNs : Option Nat := none
  /-- when the reservation was granted last (R279) -/
  heldNs : Nat := 0
  lastOp : BitVec 32 := 0
  decided : List (BitVec 32) := []
  uplink : Option Uplink := none
deriving DecidableEq, Repr

/-- Groups, trees, the reservation map and tickets (R230-R293). -/
structure GroupSt where
  groups : List Group := []
  trees : List TreeRec := []
  unbounded : List (BitVec 24) := []
  tickets : List Ticket := []
  /-- the reservation map by fabric ID (R271); an unlisted node is all free -/
  map : NMap NodeMap := []
  /-- controller root contexts (R239) -/
  rootCtxs : List Ctx := []
  rootHeads : List (BitVec 24 × BitVec 128 × List (BitVec 128)) := []
  rootBusy : Bool := false
  copies : List LaunchCopy := []
deriving DecidableEq, Repr

/-! ## Broker -/

/-- A replica in a master table (R296, R309). -/
structure Replica where
  endpoint : Nat
  tier : Nat
  cap : Nat
  slot : Nat
  declared : Bool
  weightBytes : Nat := 0
deriving DecidableEq, Repr

/-- An expert of a partition's master table (R296, R308). -/
structure Expert where
  partition : BitVec 12
  layer : Nat
  expert : Nat
  replicas : List Replica
  /-- T_e of the last window, FULL, largest step count, tokens by switch -/
  window : Nat := 0
  full : Nat := 0
  steps : Nat := 0
  bySwitch : List (Fid × Nat) := []
  cold : Nat := 0
  lastWindow : Nat := 0
deriving DecidableEq, Repr

/-- An open sequence (R314). -/
structure Seq where
  seqId : BitVec 32
  partition : BitVec 12
  opener : Fid
  home : List Nat
  extents : List Nat
  pages : Nat := 0
  tokens : Nat := 0
  closedNs : Option Nat := none
deriving DecidableEq, Repr

/-- A KV directory entry (R315). -/
structure Page where
  state : Nat
  partition : BitVec 12
  page : Nat
  seqId : BitVec 32
  fill : Nat
  endpoint : Nat
  slot : Nat
  version : BitVec 32 := 0
  moves : Nat := 0
  movedMs : Nat := 0
deriving DecidableEq, Repr

/-- A move in progress (R319): entry, destination, tag of a KVMOVE. -/
structure Move where
  entry : Nat
  endpoint : Nat
  slot : Nat
  tag : Option (Nat × Nat) := none
deriving DecidableEq, Repr

/-- An old slot or extents to free at a time (R319, R314). -/
structure Grace where
  atNs : Nat
  endpoint : Nat
  slot : Nat
  partition : BitVec 12
  /-- a closed sequence whose pages and extents go at this time -/
  seq : Option (BitVec 32) := none
deriving DecidableEq, Repr

/-- An admitted footprint (R322). -/
structure AdmittedFoot where
  number : Nat
  partition : BitVec 12
  foot : Footprint
  own : Nat
  spill : Nat
  /-- own-device reserve in bytes per headroom device -/
  ownBy : List (Nat × Nat)
deriving DecidableEq, Repr

/-- The broker, the KV directory and admission (R308-R327). -/
structure BrokerSt where
  spillQuota : NMap Nat := []
  extentQuota : NMap Nat := []
  devCap : NMap Nat := []
  experts : List Expert := []
  window : Nat := 0
  windowNs : Nat := 0
  seqs : List Seq := []
  nextSeqId : Nat := 1
  pages : NMap Page := []
  moves : List Move := []
  prefetch : List Nat := []
  grace : List Grace := []
  feet : List AdmittedFoot := []
  /-- removed replicas' descriptors to clear one window after: endpoint, slot, descriptor address, window -/
  clearing : List (Nat × Nat × Nat × Nat) := []
  /-- experts of a layer entry reported so far in the window: switch, entry, count (R308) -/
  reported : List (Fid × Nat × Nat) := []
  spillNext : NMap Nat := []
  movedInWindow : Nat := 0
deriving DecidableEq, Repr

/-! ## Security -/

/-- A partition (R328, R357): 0 FREE, 1 ACTIVE, 2 ENDING. -/
structure PartSt where
  state : Nat := 0
  spillKey : Option Nat := none
  spillScrub : Bool := false
  spillRecord : Bool := true
deriving DecidableEq, Repr

/-- A device (R329, R357): 0 FREE, 1 ASSIGNED, 2 SCRUBBING, 3 QUARANTINED. -/
structure DevSt where
  state : Nat := 0
  partition : BitVec 12 := 0
  /-- partition it served before the scrub -/
  former : BitVec 12 := 0
  scrubWaiting : Bool := false
  scrubStartMs : Nat := 0
  seqNo : Nat := 0
  engine : Option Nat := none
  lastStatusNs : Nat := 0
  statusRaised : Bool := false
  /-- tenant frames discarded in scrub mode during this scrub (R348) -/
  dropped : Nat := 0
deriving DecidableEq, Repr

/-- A key RT0 holds (R331). -/
structure Key where
  typ : Nat
  partition : BitVec 12
  level : Level
  /-- install targets: kind, port or agent, slot or agent port -/
  targets : List (Nat × Nat × Nat) := []
  binding : Option Nat := none
  nonceCtr : Nat := 0
  salt : BitVec 32 := 0
deriving DecidableEq, Repr

/-- RT0, partitions, devices, attestation (R328-R358). -/
structure SecSt where
  /-- life-cycle state (R349); log entry 3 -/
  lifeCycle : Nat := 1
  /-- the model's own: the path over which the next SPDM request comes (R350, R456; log entry 166) -/
  spdmVia : SpdmPath := .pcie 0
  wipePending : Bool := false
  powerCycles : Nat := 0
  parts : NMap PartSt := []
  devs : NMap DevSt := []
  keys : NMap Key := []
  nextKey : Nat := 1
  meas : List (BitVec 384) := [0, 0, 0, 0, 0, 0, 0, 0]
  updatePending : Option (BitVec 384) := none
  scrubSeq : Nat := 0
  scrubRecords : List (List Byte) := []
  anchor : BitVec 384 := 0
  fusesBlown : Nat := 1
deriving DecidableEq, Repr

/-! ## Engines, queues and programs -/

/-- A handle (R176, R177). -/
structure Handle where
  kind : Nat
  obj : Nat
  rights : Nat
  level : Level
  partition : BitVec 12
  size : Nat
deriving DecidableEq, Repr

/-- An install set in TS11 (R176, R229); locked while its TINST tag is outstanding (R187, R197). -/
structure InstallSet where
  size : Nat
  bytes : Memory := []
  locked : Bool := false
deriving DecidableEq, Repr

/-- What a tag stands for (R185). -/
inductive TagKind where
  | install | stage | send | collective (group : Nat) (opSeq : BitVec 32)
  /-- image, entry, where the input lies and its length, where the output goes (R190, R224) -/
  | imgrun (image entry : Nat) (src : Handle) (addr len : Nat) (dst : Handle)
  | kvmove (entry : Nat)
  | kinst | zfill
deriving DecidableEq, Repr

/-- A tag: handle indexes it uses, and its completion once ready (R185). -/
structure Tag where
  kind : TagKind
  handles : List Nat := []
  ready : Option (Nat × Word64) := none
deriving DecidableEq, Repr

/-- Why an engine is blocked (R182, R185, R188, R189, R190). -/
inductive Blocked where
  | no
  | wait (tag rd sp : Nat)
  | answer (rd sp : Nat) (isRead : Bool)
  | evwait (rd sp : Nat) (deadline : Nat)
  | gresv (group rd sp : Nat)
deriving DecidableEq, Repr

/-- The command an engine's program answers (R203, R213). -/
structure RunInfo where
  queue : Nat
  cmdId : Nat
  irq : Bool
  budget0 : Nat
  reportH : Nat
  reportAddr : Nat
  reportLen : Nat
  deadlineNs : Nat
  slot : Nat
  /-- which start of its queue it is (R216) -/
  order : Nat := 0
deriving DecidableEq, Repr

/-- A route engine (R170, R175). -/
structure Engine where
  running : Bool := false
  level : Level := .tenant
  partition : BitVec 12 := 0
  /-- g1 to g63 that are not zero -/
  g : NMap Word64 := []
  /-- p1 to p7 -/
  p : List Bool := [false, false, false, false, false, false, false]
  /-- h1 to h15 that are open -/
  h : NMap Handle := []
  pc : Nat := 0
  budget : Nat := 0
  code : List Word64 := []
  localMem : Memory := []
  bufs : NMap Memory := []
  /-- inbox messages, oldest first; severity of fault reports, 0 otherwise -/
  inbox : List (Nat × List Byte) := []
  drops : Nat := 0
  tags : NMap Tag := []
  nextTag : Nat := 1
  blocked : Blocked := .no
  run : Option RunInfo := none
  scrubDev : Option Nat := none
deriving DecidableEq, Repr

/-- A program slot (R207, R208). -/
structure Program where
  code : List Word64
  level : Level
  signed : Bool
  minInvoke : Nat
  queueLevel : Level
  partition : BitVec 12
deriving DecidableEq, Repr

/-- What the controller waits for an acknowledgement of. -/
inductive AckKind where
  /-- an INSTALL message of a version to an agent (R155) -/
  | install (version : BitVec 32) (agent : Fid)
  /-- the COMMIT of a version (R155) -/
  | commit (version : BitVec 32)
  /-- a STAGE message of a gambit to an agent (R160) -/
  | stage (gambit : BitVec 24) (agent : Fid)
  /-- a PLAY (R164) -/
  | play (seq : BitVec 16)
  /-- a claim (R101, R412) -/
  | claim
  /-- STREAMS_RESET for a reset agent (R471) -/
  | streamsReset (agent : Fid)
  /-- a context write of a ticket's reservation at a node (R270, R271) -/
  | reserve (group : Nat) (agent : Fid)
  /-- a free order (R270) -/
  | freeOrder (group : Nat) (agent : Fid)
  /-- a SEND of a program: tag, or a blocked engine (R188) -/
  | sendTag (engine tag : Nat)
  | sendBlock (engine : Nat)
  /-- a KAT_ORDER of discovery or of a rejoin (R42, R422) -/
  | kat
  /-- the read of an agent's register in step 3 of a takeover (R412) -/
  | takeoverRead (reg : Nat)
  /-- a go notice, a LAUNCH or a reply: nothing waits for it -/
  | other
deriving DecidableEq, Repr

/-- A packet of the controller whose acknowledgement has an effect: its end, stream and number; `dest = none` is a BCAST,
answered by many. -/
structure AckHook where
  dest : Option Fid
  stream : BitVec 16
  seq : BitVec 32
  kind : AckKind
deriving DecidableEq, Repr

/-- State of a command entry (R216). -/
inductive CmdState where
  | fetched | started | done
deriving DecidableEq, Repr

/-- A fetched command entry (R204). -/
structure Cmd where
  bytes : List Byte
  state : CmdState := .fetched
  /-- of a RUN that has started: which start of its queue it was (R216) -/
  order : Nat := 0
  /-- image, bundle or argument block read from host memory (R201) -/
  data : Option (List Byte) := none
  readFailed : Bool := false
deriving DecidableEq, Repr

/-- A command queue beside its registers (R198-R203, R219). -/
structure QueueSt where
  tail : Nat := 0
  cmds : List Cmd := []
  inFlight : Nat := 0
  written : Nat := 0
  disabling : Bool := false
  running : Nat := 0
  /-- RUNs started so far (R216) -/
  starts : Nat := 0
  /-- commands that had started when a handover came: CMD_ID and opcode (R219) -/
  journal : List (Nat × Nat) := []
deriving DecidableEq, Repr

/-- Whose turn it is among the command queues: those served in the round of fetches in progress (R201), and the one an engine was
granted to last (R203). -/
structure TurnSt where
  served : List Nat := []
  granted : Nat := 63
deriving DecidableEq, Repr

/-! ## The whole -/

/-- The state of the block. -/
structure State where
  regs : NMap Word64 := []
  time : TimeSt := {}
  noc : NocSt := {}
  sq : SquareSt := {}
  pwr : PowerSt := {}
  col : CollectorSt := {}
  led : LedgerSt := {}
  tri : TriadSt := {}
  dom : DomainSt := {}
  rte : RouteSt := {}
  sch : SchedSt := {}
  grp : GroupSt := {}
  plc : BrokerSt := {}
  sec : SecSt := {}
  engines : NMap Engine := []
  programs : NMap Program := []
  queues : NMap QueueSt := []
  turn : TurnSt := {}
  /-- install sets by object number (R229) -/
  sets : NMap InstallSet := []
  /-- table-store regions by row of R24, HBM system area, spill pools by partition (R24, R26) -/
  store : NMap Memory := []
  hbm : Memory := []
  spill : NMap Memory := []
  /-- ports of the controller (R22) -/
  ports : NMap PortSt := []
  streams : Streams := {}
  hooks : List AckHook := []
  agents : NMap Agent := []
  /-- last known values reported by agents' packets: capture of figure lapses open, code and object (R7) -/
  lapses : List (Nat × Nat) := []
  out : List Out := []
  /-- numbers the free values (log entry 2) -/
  fresh : Nat := 0
  /-- the commands that wait, first in first out -/
  pending : List Instr := []
deriving DecidableEq, Repr

/-- Reasons the machine stops. No meaning of this model raises one: the spec gives every row of the table an effect. -/
inductive Fault where
  /-- Raised by no meaning (safe): kept because the host's interface asks for a type of faults. -/
  | none_
deriving DecidableEq, Repr

/-- Reasons a command is turned away. -/
inductive Refusal where
  /-- A command without a meaning yet, by its mnemonic (safe): raised only by arms of Machine/Dispatch.lean. -/
  | notModelled (mnemonic : String)
deriving DecidableEq, Repr

/-- The block right after reset: no power good yet, registers at their reset values, no agent heard of, every agent at
its own reset, no command waiting. -/
def State.reset : State := {}

end Sys2Proof.Machine
end

