-- ==== Sys2Proof/Machine/Ops.lean ====
section
/-! DEFINITION. Named operations over registers, ports, packets, streams and events, shared by every command. -/

namespace Sys2Proof.Machine

/-- The outcome type of every command. -/
abbrev Answer := Host.Outcome State Fault Refusal

/-! ## Lists of things to do -/

/-- Applies an operation for every element of a list, left to right. -/
def State.forEach {α : Type} (s : State) (l : List α) (f : State → α → State) : State := l.foldl f s

/-! ## Registers -/

/-- The word of a BAR0 register (R452). -/
def State.reg (s : State) (off : Nat) : Word64 := s.regs.getD off (regReset off)

/-- Sets the word of a BAR0 register. -/
def State.setReg (s : State) (off : Nat) (w : Word64) : State := { s with regs := s.regs.set off w }

/-- A field of a BAR0 register. -/
def State.fld (s : State) (f : Field) : Nat := f.of (s.reg f.off)

/-- Sets a field of a BAR0 register. -/
def State.setFld (s : State) (f : Field) (v : Nat) : State := s.setReg f.off (f.put (s.reg f.off) v)

/-- Adds to a saturating counter field. -/
def State.satFld (s : State) (f : Field) (n : Nat) : State := s.setFld f (min (s.fld f + n) f.max)

/-- Takes from a counter field, not below zero. -/
def State.subFld (s : State) (f : Field) (n : Nat) : State := s.setFld f (s.fld f - n)

/-- The map key of an agent. -/
def agentKey (a : AgentRef) : Nat := 2 * a.num + (match a.variant with | .s => 0 | .e => 1)

/-- An agent; one nothing has been said of stands at its reset state (log entry 7). -/
def State.agent (s : State) (a : AgentRef) : Agent := s.agents.getD (agentKey a) {}

/-- Replaces an agent. -/
def State.setAgent (s : State) (a : AgentRef) (x : Agent) : State := { s with agents := s.agents.set (agentKey a) x }

/-- Changes an agent. -/
def State.updAgent (s : State) (a : AgentRef) (f : Agent → Agent) : State := s.setAgent a (f (s.agent a))

/-- The word of a JX register (R67). -/
def State.jx (s : State) (a : AgentRef) (off : Nat) : Word64 := (s.agent a).jx.getD off (jxReset a.variant a.num off)

/-- Sets the word of a JX register. -/
def State.setJx (s : State) (a : AgentRef) (off : Nat) (w : Word64) : State :=
  s.updAgent a fun x => { x with jx := x.jx.set off w }

/-- A field of a JX register. -/
def State.jfld (s : State) (a : AgentRef) (f : Field) : Nat := f.of (s.jx a f.off)

/-- Sets a field of a JX register. -/
def State.setJfld (s : State) (a : AgentRef) (f : Field) (v : Nat) : State := s.setJx a f.off (f.put (s.jx a f.off) v)

/-- Adds to a saturating counter field of a JX register. -/
def State.satJfld (s : State) (a : AgentRef) (f : Field) (n : Nat) : State :=
  s.setJfld a f (min (s.jfld a f + n) f.max)

/-- The word after a register write: writable bits taken, bits written as 1 cleared where they are W1C (R11). -/
def writeWord (d : RegDesc) (old v : Word64) : Word64 :=
  let rw := BitVec.ofNat 64 d.rw
  let w1c := BitVec.ofNat 64 d.w1c
  (old &&& ~~~rw &&& ~~~(w1c &&& v)) ||| (v &&& rw)

/-! ## Identity and time -/

/-- The controller's fabric ID (R75, R76, R423). -/
def State.fid (s : State) : Fid := BitVec.ofNat 32 (s.dom.domain * 65536 + s.dom.localId)

/-- The fabric ID of a node. -/
def State.nodeFid (s : State) : Node → Fid
  | .ctl => s.fid
  | .agent a => BitVec.ofNat 32 (s.jfld a JX_ID_FABRIC_ID)

/-- The agent the controller knows under a fabric ID. -/
def State.refOf (s : State) (f : Fid) : Option AgentRef := (s.dom.known.find? fun k => k.fid == f).map (·.ref)

/-- The node of a fabric ID: the controller or an agent it knows. -/
def State.nodeOf (s : State) (f : Fid) : Option Node :=
  if f = s.fid then some .ctl else (s.refOf f).map .agent

/-- Controller time in ns (R28). -/
def State.now (s : State) : Nat := (s.reg TIM_NOW).toNat

/-- An agent's time in ns (R117 to R119, log entry 13). -/
def State.agentNow (s : State) (a : AgentRef) : Nat := ((s.now : Int) + (s.agent a).phaseNs).toNat

/-- Time at a node. -/
def State.nodeNow (s : State) : Node → Nat
  | .ctl => s.now
  | .agent a => s.agentNow a

/-- Local ID of an endpoint as the JX_ID of a Jexjan-E holds it (R76). -/
def State.localOf (s : State) (a : AgentRef) : Nat := (s.nodeFid (.agent a)).localId

/-- A fresh free value (log entry 2). -/
def State.free (s : State) : BitVec 64 := Config.free s.fresh

/-- Goes on to the next free value. -/
def State.useFree (s : State) : State := { s with fresh := s.fresh + 1 }

/-! ## What leaves -/

/-- Appends to the record of what leaves (log entry 12). -/
def State.emit (s : State) (o : Out) : State := { s with out := s.out ++ [o] }

/-- Number of arbiters that vote (TRI_STATUS.VOTING, R416). -/
def State.voters (s : State) : Nat :=
  let v := s.fld TRI_STATUS_VOTING
  v % 2 + v / 2 % 2 + v / 4 % 2

/-- The voter gates pass acts: power good, no brown-out hold (R448), no thermal trip (R460), at least two arbiters
vote (R396, R447, log entry 15). -/
def State.gatesOpen (s : State) : Bool :=
  s.pwr.pwrgd && !s.pwr.held && !s.pwr.tripped && decide (2 ≤ s.voters) && !s.tri.refused

/-- Instances of an image that are loaded. -/
def State.instances (s : State) (image : Nat) : List Nat := ((s.sq.tiles.filter fun t => t.image == image).map (·.inst)).dedup

/-- An image's triple gives its output: two instances at least agree at an open gate (R16, R17, R396). -/
def State.tripleServes (s : State) (image : Nat) : Bool := s.gatesOpen && decide (2 ≤ (s.instances image).length)

/-- A root image triple serves the controller's roots (R239; log entry 164). -/
def State.rootImageUp (s : State) : Bool := s.sq.images.any fun x => Config.rootImage x.2.digest && s.tripleServes x.1

/-- The controller is ready (R417). -/
def State.ready (s : State) : Bool := s.fld PWR_STATUS_READY == 1

/-- RT0 is lost: no new keys, quotes or security records (R36). -/
def State.rt0Out (s : State) : Bool := s.pwr.deadBlocks.contains 63

/-- The pause at the end of a resync: engines and the collector stand (R401). -/
def State.pausing (s : State) : Bool := s.fld TRI_STATUS_PHASE == 4

/-- Emits an act of the controller, when the gates pass it. -/
def State.act (s : State) (o : Out) : State := if s.gatesOpen then s.emit o else s

/-! ## Ports (R88, R89, R103) -/

/-- The ports of a node. -/
def State.nodePorts (s : State) : Node → NMap PortSt
  | .ctl => s.ports
  | .agent a => (s.agent a).ports

/-- A port of a node. -/
def State.port (s : State) (n : Node) (p : Nat) : PortSt := (s.nodePorts n).getD p {}

/-- Replaces a port of a node. -/
def State.setPort (s : State) (n : Node) (p : Nat) (x : PortSt) : State :=
  match n with
  | .ctl => { s with ports := s.ports.set p x }
  | .agent a => s.updAgent a fun g => { g with ports := g.ports.set p x }

/-- The pool a frame occupies (R88): 0 Control, 1 Collective data, 2 Collective short, 3 Bulk; none for Express. -/
def poolOf (h : Header) : Option Nat :=
  match h.cls with
  | .express => none
  | .control => some 0
  | .collective => if h.length.toNat = 0 then some 2 else some 1
  | .bulk => some 3

/-- Units of a pool. -/
def Pools.get (q : Pools) : Nat → Nat
  | 0 => q.control
  | 1 => q.collData
  | 2 => q.collShort
  | _ => q.bulk

/-- Sets the units of a pool. -/
def Pools.set (q : Pools) (i v : Nat) : Pools :=
  match i with
  | 0 => { q with control := v }
  | 1 => { q with collData := v }
  | 2 => { q with collShort := v }
  | _ => { q with bulk := v }

/-- Adds units to a pool. -/
def Pools.add (q : Pools) (i v : Nat) : Pools := q.set i (q.get i + v)

/-- The pool sizes the model's ports advertise at training: the minimum sizes (R88, log entry 16). -/
def poolSizes : Pools := { control := 130, collData := 520, collShort := 64, bulk := 520 }

/-! ## Slot tables and the time of a port (R120, R121, R127) -/

/-- KIND, RUN, FLITS, IN_PORT, SRC_LOCAL and STREAM of a slot entry (R120). -/
def slotKind (w : Word64) : Nat := bitsAt w.toNat 62 2
def slotRun (w : Word64) : Nat := bitsAt w.toNat 59 3
def slotFlits (w : Word64) : Nat := bitsAt w.toNat 49 8
def slotInPort (w : Word64) : Nat := bitsAt w.toNat 40 9
def slotSrc (w : Word64) : Nat := bitsAt w.toNat 24 16
def slotStream (w : Word64) : Nat := bitsAt w.toNat 8 16

/-- The slot entry of a port in the active bank. -/
def State.slotEntry (s : State) (a : AgentRef) (port slot : Nat) : Word64 := (s.agent a).active.slots.getD (port * 4096 + slot) 0

/-- The head slot of the run that covers a slot of a port: at most 8 slots back (R120, R121). -/
def State.runHead (s : State) (a : AgentRef) (port slot : Nat) : Option (Nat × Word64) :=
  ((List.range (min 8 (slot + 1))).map fun k => (slot - k, s.slotEntry a port (slot - k))).find? fun x =>
    slotKind x.2 == 1 && decide (slot ≤ x.1 + slotRun x.2)

/-- Flits passed in the run with this head slot in the agent's current epoch (R126). -/
def State.runPassed (s : State) (a : AgentRef) (port head : Nat) : Nat :=
  match (s.port (.agent a) port).runPassed with
  | some (k, n) => if k = s.jfld a JX_EPOCH_EPOCH_NUM * 4096 + head then n else 0
  | none => 0

/-- Ticks of an agent's epoch as it stands: its geometry and the adjustment it takes (R139). -/
def Agent.epochLen (g : Agent) : Nat := ((g.geometry.1 * g.geometry.2 : Nat) + g.epochAdj).toNat

/-- Ticks until the next head slot of a port opens, in this epoch or else in the next (R120, R127). -/
def Agent.nextRun (g : Agent) (port : Nat) : Option Nat :=
  let heads := (g.active.slots.filter fun x => x.1 / 4096 == port && slotKind x.2 == 1).map fun x => x.1 % 4096 * g.geometry.2
  match heads.find? fun h => decide (g.epochTick < h) with
  | some h => some (h - g.epochTick)
  | none => heads.head?.map fun h => g.epochLen - g.epochTick + h

/-- Time in ps from now that is open at a port for frames of other classes than Express: none inside a run until FLITS flits
of it have passed, otherwise until the port's next run; `none` where no run comes. Controller ports have no slot table (R127). -/
def State.openPs (s : State) (n : Node) (port : Nat) : Option Nat :=
  match n with
  | .ctl => none
  | .agent a =>
    let next := ((s.agent a).nextRun port).map (· * 128000)
    match s.runHead a port (s.jfld a JX_EPOCH_SLOT) with
    | some (hd, w) => if slotFlits w ≤ s.runPassed a port hd then next else some 0
    | none => next

/-- Serialization time of a frame in ps: 512 bits per flit at 200 Gb/s per lane (R125, R132). -/
def PortSt.serPs (x : PortSt) (h : Header) : Nat := h.units * 2560 / x.lanes

/-- Time in ps at which a frame handed over now can start: behind the frame in progress (R128). -/
def PortSt.startPs (x : PortSt) (now : Nat) : Nat := max (now * 1000) x.busyPs

/-- The link is free within the tick in progress (log entry 143). -/
def PortSt.linkFree (x : PortSt) (now : Nat) : Bool := decide (x.startPs now < now * 1000 + 128000)

/-- The last flit of a frame that starts now leaves before the port's next run (R127). -/
def PortSt.clears (x : PortSt) (now : Nat) (open_ : Option Nat) (h : Header) : Bool :=
  match open_ with
  | none => true
  | some d => decide (x.startPs now + x.serPs h ≤ now * 1000 + d)

/-! ## Frames that start (R83, R86, R88 to R90, R103, R262) -/

/-- A new transmit key takes effect with the next frame (R83). -/
def PortSt.txTakes (x : PortSt) : Bool := match x.txAct with | some c => decide (c ≤ x.txCtr) | none => false

/-- A frame of this header may start: link up, credit and token bucket cover it, and the key has frames left (R86, R88, R103).
A credit frame needs no credit (R90). -/
def PortSt.mayStart (x : PortSt) (h : Header) : Bool :=
  (x.state == 2 || x.state == 3) && !x.overrun && (x.txTakes || decide (x.txFrames < 2 ^ 40 - 1)) &&
    match poolOf h with
    | none => true
    | some i => (decide (h.units ≤ x.credit.get i) || h.isCredit) && (!h.drawsBucket || decide (h.frameBytes ≤ x.bucket))

/-- A frame of a credited pool may start now: it may start, the link is free and the port's next run is clear (R127). -/
def PortSt.fits (x : PortSt) (now : Nat) (open_ : Option Nat) (h : Header) : Bool :=
  x.mayStart h && x.linkFree now && x.clears now open_ h

/-- Collective and Bulk both wait (R103). -/
def PortSt.bothWait (x : PortSt) : Bool :=
  (x.queue.any fun q => q.pkt.hdr.cls == .collective && !q.pkt.hdr.isShort) && x.queue.any fun q => q.pkt.hdr.cls == .bulk

/-- The share of Collective over Bulk after a frame: counted while both wait, forgotten while either is idle (R103). -/
def PortSt.shareAfter (x : PortSt) (h : Header) : Int :=
  if x.bothWait = false then 0
  else if h.cls = .collective ∧ h.isShort = false then x.collShare + h.units
  else if h.cls = .bulk then x.collShare - 3 * h.units
  else x.collShare

/-- A frame starts at a time: counters, the key from its activation counter on (R337), credit and bucket (R83, R86, R88,
R103, R262). -/
def PortSt.start (x : PortSt) (now : Nat) (h : Header) : PortSt :=
  let act := x.txTakes
  let x := { x with txCtr := x.txCtr + 1, txFrames := if act then 1 else x.txFrames + 1, freedSent := x.freed
                    txAct := if act then none else x.txAct, txKey := if act then x.txNext else x.txKey
                    rekeys := if act then min (x.rekeys + 1) 255 else x.rekeys
                    rekeyAsked := x.rekeyAsked && !act, key := if act && x.rxAct.isNone then 2 else x.key
                    busyPs := x.startPs now + x.serPs h, collShare := x.shareAfter h
                    bucket := if h.drawsBucket then x.bucket - h.frameBytes else x.bucket }
  match poolOf h with
  | some i =>
    if h.isCredit then x
    else { x with credit := x.credit.set i (x.credit.get i - h.units), sent := x.sent.add i h.units }
  | none => x

/-- The credit word of a port (R89): cumulative units freed, modulo 256. -/
def creditWord (f : Pools) : BitVec 32 :=
  BitVec.ofNat 32 (f.control % 256 * 2 ^ 24 + f.collData % 256 * 2 ^ 16 + f.collShort % 256 * 2 ^ 8 + f.bulk % 256)

/-- A credit frame of a port (R90). -/
def creditPacket (x : PortSt) : Packet :=
  Packet.seal { hdr := { dest := 0, src := 0, cls := .control, typ := 0, hops := 0
                         addr := BitVec.ofNat 57 (x.sent.control % 65536 * 2 ^ 32 + x.sent.collData % 65536 * 2 ^ 16
                           + x.sent.collShort % 65536)
                         aux := BitVec.ofNat 24 (x.sent.bulk % 65536) } }

/-- What a port puts on the wire for a packet: a credit frame takes its audit fields as it starts (R90). -/
def PortSt.wire (x : PortSt) (k : Packet) : Packet := if k.hdr.isCredit then creditPacket x else k

/-- The next frame of the queue that may start: short chunks, then Control, then Collective and Bulk 3 to 1 in flits (R103,
R262). -/
def PortSt.pick (x : PortSt) (now : Nat) (open_ : Option Nat) : Option QFrame :=
  let ok := fun (c : PktClass) (q : QFrame) => q.pkt.hdr.cls == c && !q.pkt.hdr.isShort && x.fits now open_ q.pkt.hdr
  match x.queue.find? fun q => q.pkt.hdr.isShort && x.fits now open_ q.pkt.hdr with
  | some q => some q
  | none =>
    match x.queue.find? (ok .control) with
    | some q => some q
    | none =>
      match x.queue.find? (ok .collective), x.queue.find? (ok .bulk) with
      | some c, some b => if x.collShare ≤ 0 then some c else some b
      | some c, none => some c
      | none, b => b

/-- A frame that started: its packet as sent, its input port, its PKT_CTR and its credit word. -/
structure Sent where
  frame : QFrame
  ctr : Nat
  credit : BitVec 32
deriving DecidableEq, Repr

/-- The frame a port starts (R82, R83, R89). -/
def PortSt.sends (x : PortSt) (q : QFrame) : Sent :=
  { frame := { q with pkt := x.wire q.pkt }, ctr := x.txCtr, credit := creditWord x.freed }

/-- Starts what may start, at most `k` frames; answers what left. -/
def PortSt.pump (now : Nat) (open_ : Option Nat) : Nat → PortSt → PortSt × List Sent
  | 0, x => (x, [])
  | k + 1, x =>
    match x.pick now open_ with
    | none => (x, [])
    | some q =>
      let y := x.start now q.pkt.hdr
      let r := PortSt.pump now open_ k { y with queue := removeFirst (· == q) x.queue }
      (r.1, x.sends q :: r.2)

/-- A frame has left the pool of its input port: its units are freed, or withheld under chunk pacing (R89, R463). -/
def PortSt.free (x : PortSt) (h : Header) (withhold : Bool) : PortSt :=
  match poolOf h with
  | none => x
  | some i =>
    if h.isCredit then x
    else if withhold && i == 1 then { x with withheld := x.withheld + h.units }
    else { x with freed := x.freed.add i h.units }

/-- 128 units or more freed in a pool since the last credit word (R89). -/
def PortSt.owesCredit (x : PortSt) : Bool :=
  [0, 1, 2, 3].any fun i => decide (128 ≤ x.freed.get i - x.freedSent.get i)

/-- The node's reduction-memory account is negative: Collective data credit is withheld (R462, R463). -/
def State.pacing (s : State) (n : Node) : Bool :=
  match n with
  | .agent a => decide ((s.agent a).account < 0)
  | .ctl => s.grp.rootBusy

/-- A port starts one frame now, whatever waits. -/
def State.startFrame (s : State) (n : Node) (p : Nat) (k : Packet) : State :=
  let x := s.port n p
  (s.setPort n p (x.start s.now k.hdr)).emit (.portFrame n p x.txCtr (creditWord x.freed) (x.wire k))

/-- Sends a credit frame, now or as soon as the port may (R89, R90). -/
def State.sendCredit (s : State) (n : Node) (p : Nat) : State :=
  let x := s.port n p
  let k := creditPacket x
  if x.queue.any fun q => q.pkt.hdr.isCredit then s
  else if x.fits s.now (s.openPs n p) k.hdr then
    (s.setPort n p { x with lastCreditNs := s.nodeNow n }).startFrame n p k
  else s.setPort n p { x with queue := { pkt := k } :: x.queue, lastCreditNs := s.nodeNow n }

/-- Sends a credit frame when the port owes one (R89). -/
def State.returnCredit (s : State) (n : Node) (p : Nat) : State :=
  let x := s.port n p
  if x.owesCredit && (x.state == 2 || x.state == 3) then s.sendCredit n p else s

/-- A frame that arrived at a port leaves its pool there: forwarded, consumed or discarded (R89). -/
def State.freeUnits (s : State) (n : Node) (p : Nat) (h : Header) : State :=
  (s.setPort n p ((s.port n p).free h (s.pacing n))).returnCredit n p

/-- Records frames that started on a port, and frees the units they held at their input ports. -/
def State.recordSent (s : State) (n : Node) (p : Nat) (l : List Sent) : State :=
  let s : State := { s with out := s.out ++ l.map fun t => Out.portFrame n p t.ctr t.credit t.frame.pkt }
  s.forEach l fun s t => match t.frame.source with
    | some i => s.freeUnits n i t.frame.pkt.hdr
    | none => s

/-- Starts what may start on a port. -/
def State.pumpPort (s : State) (n : Node) (p : Nat) : State :=
  let r := PortSt.pump s.now (s.openPs n p) (s.port n p).queue.length (s.port n p)
  (s.setPort n p r.1).recordSent n p r.2

/-- A packet other than Control class crosses a port: the port is not quiet (R156), and DRAINED of an agent clears (R44). -/
def State.noteTraffic (s : State) (n : Node) (port : Nat) (h : Header) : State :=
  if h.cls = .control then s
  else
    let s := s.setPort n port { s.port n port with carried := true, quietEpochs := 0 }
    match n with
    | .ctl => s
    | .agent a => (s.updAgent a fun g => { g with nonControlSeen := true, quietEpochs := 0 }).setJfld a JX_STATUS_DRAINED 0

/-- A sleeping port wakes, without retraining (R429). -/
def PortSt.wake (x : PortSt) : PortSt :=
  if x.state = 6 then { x with state := if x.lanes < x.planned then 3 else 2, sleepAsked := false } else x

/-- A port of an agent that the agent or the controller has a use for wakes: agents apply a budget of their own (R430 to
R432; log entry 44). A controller port wakes only by a grant. -/
def State.wakeAgentPort (s : State) (n : Node) (p : Nat) : State :=
  match n with
  | .ctl => s
  | .agent _ => if (s.port n p).state = 6 then s.setPort n p (s.port n p).wake else s

/-- Wakes a port of an agent named by its fabric ID (R430). -/
def State.wakeFor (s : State) (f : Fid) (p : Nat) : State :=
  match s.refOf f with
  | some a => s.wakeAgentPort (.agent a) p
  | none => s

/-- Hands a frame to a port, with the input port whose pool it occupies, if any. An Express frame leaves in its slot and never
waits for credit (R88, R127). -/
def State.portSend (s : State) (n : Node) (p : Nat) (k : Packet) (source : Option Nat := none) : State :=
  let s := (s.noteTraffic n p k.hdr).wakeAgentPort n p
  let x := s.port n p
  let x := { x with depth := x.depth + k.hdr.units }
  let x := if k.hdr.typ = 0x26 ∨ (k.hdr.typ = 0x08 ∧ k.hdr.dest = x.farId) then x else { x with lastFrameNs := s.nodeNow n, sleepAsked := false }
  if k.hdr.cls = .express then
    if x.mayStart k.hdr then (s.setPort n p x).startFrame n p k else s.setPort n p x
  else (s.setPort n p { x with queue := x.queue ++ [{ pkt := k, source := source }] }).pumpPort n p

/-! ## Streams (R93, R107 to R110, R471) -/

/-- The map key of a stream toward or from a far end. -/
def streamKey (far : Fid) (stream : BitVec 16) : Nat := far.toNat * 65536 + stream.toNat

/-- The streams of a node. -/
def State.nodeStreams (s : State) : Node → Streams
  | .ctl => s.streams
  | .agent a => (s.agent a).streams

/-- Replaces the streams of a node. -/
def State.setStreams (s : State) (n : Node) (x : Streams) : State :=
  match n with
  | .ctl => { s with streams := x }
  | .agent a => s.updAgent a fun g => { g with streams := x }

/-- Source state of a stream. -/
def State.tx (s : State) (n : Node) (dest : Fid) (stream : BitVec 16) : StreamTx :=
  (s.nodeStreams n).tx.getD (streamKey dest stream) {}

/-- Replaces the source state of a stream. -/
def State.setTx (s : State) (n : Node) (dest : Fid) (stream : BitVec 16) (x : StreamTx) : State :=
  s.setStreams n { s.nodeStreams n with tx := (s.nodeStreams n).tx.set (streamKey dest stream) x }

/-- Destination state of a stream. -/
def State.rx (s : State) (n : Node) (src : Fid) (stream : BitVec 16) : StreamRx :=
  (s.nodeStreams n).rx.getD (streamKey src stream) {}

/-- Replaces the destination state of a stream. -/
def State.setRx (s : State) (n : Node) (src : Fid) (stream : BitVec 16) (x : StreamRx) : State :=
  s.setStreams n { s.nodeStreams n with rx := (s.nodeStreams n).rx.set (streamKey src stream) x }

/-- `a` is later than `b` (R93). -/
def seqLater (a b : BitVec 32) : Bool := let d := (a - b).toNat; decide (0 < d ∧ d < 2 ^ 31)

/-- `a` is higher than `b` among play sequences (R50). -/
def playHigher (a b : BitVec 16) : Bool := let d := (a - b).toNat; decide (0 < d ∧ d < 2 ^ 15)

/-! ## Table reads -/

/-- A route entry of the active bank; an unlisted entry is all zero (R147). -/
def State.route (s : State) (a : AgentRef) (loc : Nat) : BitVec 512 := (s.agent a).active.routes.getD loc 0

/-- The control word of a route entry: bytes 0 to 7 (R147). -/
def ctlWord (e : BitVec 512) : Nat := e.toNat / 2 ^ 448

/-- Hop `i` of a route entry: four bytes from byte 8 + 4 × i (R147). -/
def hopWord (e : BitVec 512) (i : Nat) : Nat := e.toNat / 2 ^ (416 - 32 * i) % 2 ^ 32

/-- VALID, GATEWAY and ADAPT, NHOPS and FIXED of the control word (R147). -/
def routeValid (e : BitVec 512) : Bool := bitsAt (ctlWord e) 63 1 == 1
def routeGateway (e : BitVec 512) : Bool := bitsAt (ctlWord e) 62 1 == 1
def routeAdapt (e : BitVec 512) : Bool := bitsAt (ctlWord e) 61 1 == 1
def routeNhops (e : BitVec 512) : Nat := bitsAt (ctlWord e) 56 3
def routeFixed (e : BitVec 512) : Nat := bitsAt (ctlWord e) 53 3

/-- PORT and WEIGHT of a hop (R148). -/
def hopPort (h : Nat) : Nat := bitsAt h 23 9
def hopWeight (h : Nat) : Nat := bitsAt h 15 8

/-- A port counts as up when it is trained or degraded (R150). -/
def State.portUp (s : State) (n : Node) (p : Nat) : Bool := let x := (s.port n p).state; x == 2 || x == 3

/-- A port that can carry a frame once it is awake: up or asleep. -/
def State.portUsable (s : State) (n : Node) (p : Nat) : Bool := s.portUp n p || (s.port n p).state == 6

/-- The local ID a packet is routed on: its own; 0xA000 for the gateway ID under which this domain stands in its parent (R80,
log entry 21); otherwise that of the gateway its foreign domain maps to (R79). -/
def State.routeLocal (s : State) (a : AgentRef) (dest : Fid) : Option Nat :=
  let me := s.nodeFid (.agent a)
  if dest.domain = me.domain then some dest.localId
  else if dest = s.dom.gateway ∧ dest ≠ noFid then some 0xA000
  else
    let m := (s.agent a).active.dmap
    let hit := m.find? fun x => decide (x.1 < 1024) && bitsAt x.2.toNat 63 1 == 1 && bitsAt x.2.toNat 32 16 == dest.domain
    match hit with
    | some x => some (bitsAt x.2.toNat 0 16)
    | none =>
      let d := (m.getD 1024 0).toNat
      if bitsAt d 63 1 = 1 then some (bitsAt d 0 16) else none

/-- FIXED hop, or the lowest-index hop whose port is up (R149). -/
def State.controlHop (s : State) (a : AgentRef) (e : BitVec 512) : Option Nat :=
  let p := hopPort (hopWord e (routeFixed e))
  if s.portUsable (.agent a) p then some p
  else ((List.range (routeNhops e + 1)).map fun i => hopPort (hopWord e i)).find? fun p => s.portUsable (.agent a) p

/-- Walks candidates in index order: the hop where `v` falls below the running sum of WEIGHT (R150). -/
def pickHop : List (Nat × Nat) → Nat → Option Nat
  | [], _ => none
  | (p, w) :: t, v => if v < w then some p else pickHop t (v - w)

/-- The output port of a Bulk packet (R150). -/
def State.bulkHop (s : State) (a : AgentRef) (e : BitVec 512) (h : Header) : Option Nat :=
  let cand := ((List.range (routeNhops e + 1)).map fun i => (hopPort (hopWord e i), hopWeight (hopWord e i))).filter
    fun x => decide (0 < x.2) && s.portUsable (.agent a) x.1
  let w := (cand.map (·.2)).sum
  let key := beBytes 4 h.src.toNat ++ beBytes 4 h.dest.toNat ++ beBytes 2 h.stream.toNat
  if cand.isEmpty then none
  else if routeAdapt e = false then pickHop cand (crc32c key % w)
  else
    let x := crc32c (key ++ beBytes 4 h.seq.toNat ++ [BitVec.ofNat 8 (bit h.resend)])
    match pickHop cand (x % w), pickHop cand (rotl32 x 16 % w) with
    | some a1, some b1 =>
      let pa := s.port (.agent a) a1
      let pb := s.port (.agent a) b1
      if pb.depth * pa.lanes < pa.depth * pb.lanes then some b1 else some a1
    | r, _ => r

/-- The output port of a packet on a route entry (R149). -/
def State.outHop (s : State) (a : AgentRef) (e : BitVec 512) (h : Header) : Option Nat :=
  if routeValid e = false then none
  else match h.cls with
    | .express => (let p := hopPort (hopWord e (routeFixed e)); if s.portUp (.agent a) p then some p else none)
    | .bulk => s.bulkHop a e h
    | _ => s.controlHop a e

/-! ## Originating -/

/-- The port on which a node originates a packet: the controller's port of discovery, while that is down one that faces the
destination or else its first port that is up (R36); at an agent the port of its route entry, without one a port that faces the destination, without one its first port that is up (log entry 17). -/
def State.originPort (s : State) (n : Node) (h : Header) : Nat :=
  match n with
  | .ctl =>
    let home := (s.dom.known.find? fun k => k.fid == h.dest).map (·.port)
    let facing := (s.ports.find? fun x => x.2.farId == h.dest && s.portUsable .ctl x.1).map (·.1)
    match home.filter (s.portUsable .ctl), facing, s.ports.find? fun x => s.portUsable .ctl x.1 with
    | some p, _, _ => p
    | none, some p, _ => p
    | none, none, some x => x.1
    | none, none, none => home.getD 0
  | .agent a =>
    let routed := match s.routeLocal a h.dest with
      | some loc => s.outHop a (s.route a loc) h
      | none => none
    match routed with
    | some p => p
    | none =>
      let up := (s.agent a).ports.filter fun x => x.2.state == 2 || x.2.state == 3
      match up.find? fun x => x.2.farId == h.dest with
      | some x => x.1
      | none => match up with
        | x :: _ => x.1
        | [] => 0

/-- The node has a fabric ID, or the packet is a discovery response (R78); a controller that stands by emits to its partner alone
(R404, R413). -/
def State.mayOriginate (s : State) (n : Node) (h : Header) : Bool :=
  (s.nodeFid n != noFid || (h.cls == .control && h.typ == 0x28)) &&
    !(n == .ctl && s.fld TRI_STATUS_ROLE == 1 && h.dest.toNat != s.fld TRI_STANDBY_CFG_PARTNER_ID)

/-- A primary in the hold of R411 commits no install, stages no gambit and awaits no mirror acknowledgement. -/
def State.inHold (s : State) : Bool := s.tri.holdEndNs.isSome

/-- The standby has yet to acknowledge mirror records of a kind that goes before an act: rows 1 to 8 of R405, or one of them. -/
def State.mirrorBlocks (s : State) (row : Option Nat := none) : Bool :=
  s.tri.paired && s.fld TRI_STATUS_ROLE == 0 && !s.inHold && s.tri.mirrorOpen.any fun x =>
    match row with | some r => x.2.2 == r | none => decide (1 ≤ x.2.2 ∧ x.2.2 ≤ 8)

/-- A node originates a packet: it is recorded and handed to a port; the controller only through open gates and behind the
mirror records it follows from (R405), an agent without an ID only discovery responses (R78). -/
def State.originateOn (s : State) (n : Node) (port : Nat) (p : Packet) : State :=
  if (n = .ctl ∧ s.gatesOpen = false) ∨ s.mayOriginate n p.hdr = false then s
  else if n = .ctl ∧ p.hdr.behindMirror ∧ s.mirrorBlocks then
    { s with tri := { s.tri with behind := s.tri.behind ++ [.packet port p] } }
  else (s.emit (.packet n p)).portSend n port p

/-- The same over the port its destination is reached by. -/
def State.originate (s : State) (n : Node) (p : Packet) : State := s.originateOn n (s.originPort n p.hdr) p

/-- A kept packet leaves: a link-local one over its own port. -/
def State.emitTx (s : State) (n : Node) (t : TxPkt) : State :=
  match t.port with
  | some port => s.originateOn n port t.pkt
  | none => s.originate n t.pkt

/-- Retry timer of a class in ns (R107). -/
def retryNs : PktClass → Nat
  | .express => 50000
  | .bulk => 200000
  | _ => 100000

/-- The next packet of the stream may leave: fewer than 1,024 others unacknowledged, those that wait to be sent again among
them (R93), and a flagged packet held for its
precedents leaves only when every earlier one is acknowledged (R109). -/
def StreamTx.mayEmit (x : StreamTx) (p : Packet) : Bool :=
  decide ((x.outstanding.filter fun t => t.pkt.hdr.seq != p.hdr.seq && (!t.waiting || t.pkt.hdr.resend)).length < 1024) &&
    (p.hdr.prec != 0xFFFF || !p.hdr.ord || !(x.outstanding.any fun t => seqLater p.hdr.seq t.pkt.hdr.seq))

/-- Gives a packet its place in its stream: SRC, SEQ and PREC (R93, R109), HOPS 63 (R92) and CRC (R104). -/
def State.number (s : State) (n : Node) (p : Packet) : Packet :=
  let x := s.tx n p.hdr.dest p.hdr.stream
  let dist := (x.nextSeq - x.lastFlag - 1).toNat
  Packet.seal { p with hdr := { p.hdr with
    src := s.nodeFid n, seq := x.nextSeq, hops := 63
    prec := if p.hdr.ord then (if dist > 65534 then 0xFFFF else BitVec.ofNat 16 dist) else 0 } }

/-- Sends a packet on its stream: it is numbered, kept until acknowledged where `kept`, and leaves at once where it may;
an Express packet waits for its head entry (R123, R124). A link-local packet leaves over `port`. -/
def State.sendPkt (s : State) (n : Node) (p : Packet) (kept : Bool := true) (port : Option Nat := none) : State :=
  let x := s.tx n p.hdr.dest p.hdr.stream
  let q := s.number n p
  let x1 : StreamTx := { x with nextSeq := x.nextSeq + 1, lastFlag := if q.hdr.ord then q.hdr.seq else x.lastFlag }
  if kept then
    let wait := q.hdr.cls == .express || !x.mayEmit q
    let t : TxPkt := { pkt := q, emittedNs := s.nodeNow n, queuedNs := s.nodeNow n, waiting := wait, port := port }
    let s := s.setTx n q.hdr.dest q.hdr.stream { x1 with outstanding := x.outstanding ++ [t] }
    if wait then s else s.emitTx n t
  else (s.setTx n q.hdr.dest q.hdr.stream x1).emitTx n { pkt := q, port := port }

/-- Emits the first waiting packet of a stream that may leave (not Express). -/
def State.releaseWaiting (s : State) (n : Node) (dest : Fid) (stream : BitVec 16) : State :=
  let x := s.tx n dest stream
  match x.outstanding.find? fun t => t.waiting && t.pkt.hdr.cls != .express with
  | none => s
  | some t =>
    if x.mayEmit t.pkt then
      let l := updateFirst (fun u => u == t) (fun u => { u with waiting := false, emittedNs := s.nodeNow n }) x.outstanding
      (s.setTx n dest stream { x with outstanding := l }).emitTx n t
    else s

/-- A header from a node: Control class, own stream (R92, log entry 14). -/
def ownHdr (dest : Fid) (typ : BitVec 8) (payload : List Byte) : Header :=
  { dest := dest, src := 0, cls := .control, typ := typ, length := lenOf payload, stream := Config.ownStream }

/-- A management packet of a node, acknowledged by its destination (R98). -/
def State.sendMgmt (s : State) (n : Node) (dest : Fid) (typ : BitVec 8) (payload : List Byte) (aux : BitVec 24 := 0)
    (kept : Bool := true) : State :=
  s.sendPkt n { hdr := { ownHdr dest typ payload with aux := aux }, payload := payload } kept

/-- A management packet of the controller whose acknowledgement has an effect. -/
def State.sendHooked (s : State) (dest : Fid) (typ : BitVec 8) (payload : List Byte) (kind : AckKind)
    (addr : BitVec 57 := 0) (aux : BitVec 24 := 0) : State :=
  let seq := (s.tx .ctl dest Config.ownStream).nextSeq
  let k : AckHook := { dest := some dest, stream := Config.ownStream, seq := seq, kind := kind }
  let s : State := { s with hooks := s.hooks ++ [k] }
  s.sendPkt .ctl { hdr := { ownHdr dest typ payload with addr := addr, aux := aux }, payload := payload }

/-- A MIRROR payload (R102): sequence, kind of item by its row of R405 (0 the full copy of R404), length, item. -/
def mirrorPayload (seq item : Nat) : List Byte :=
  let l := Config.mirrorItem item seq
  leBytes 8 seq ++ leBytes 2 item ++ zeros 2 ++ leBytes 4 l.length ++ l

/-- A paired primary mirrors state of one kind of R405 to its standby. -/
def State.mirrorOut (s : State) (item : Nat) : State :=
  if s.tri.paired = false ∨ s.fld TRI_STATUS_ROLE ≠ 0 ∨ s.inHold then s
  else
    let seq := s.tri.mirrorSeq + 1
    let dest : Fid := BitVec.ofNat 32 (s.fld TRI_STANDBY_CFG_PARTNER_ID)
    let s : State := { s with tri := { s.tri with mirrorSeq := seq, mirrorOpen := s.tri.mirrorOpen ++ [(seq, s.now, item)] } }
    let s := s.setFld TRI_STANDBY_STATUS_MIRROR_LAG (min s.tri.mirrorOpen.length 65535)
    s.sendMgmt .ctl dest 0x2E (mirrorPayload seq item)

/-- Controller ports that are up, with the agents they face (R91). -/
def State.facing (s : State) : List (Nat × Fid) :=
  (s.ports.filter fun x => (x.2.state == 2 || x.2.state == 3) && x.2.farId != noFid).map fun x => (x.1, x.2.farId)

/-- A BCAST packet of the controller: one copy for each agent that faces it, which replicate it (R152, log entry 20).
With `kind`, acknowledgements of the copies and replicas have an effect. -/
def State.broadcast (s : State) (typ : BitVec 8) (payload : List Byte) (kind : Option AckKind)
    (addr : BitVec 57 := 0) (aux : BitVec 24 := 0) : State :=
  s.forEach s.facing fun s x =>
    let seq := (s.tx .ctl x.2 Config.bcastStream).nextSeq
    let s : State := match kind with
      | some k =>
        let k : AckHook := { dest := none, stream := Config.bcastStream, seq := seq, kind := k }
        { s with hooks := s.hooks ++ [k] }
      | none => s
    let h : Header := { ownHdr x.2 typ payload with addr := addr, aux := aux, bcast := true, stream := Config.bcastStream }
    s.sendPkt .ctl { hdr := h, payload := payload } false

/-- The answer packet of R105: ACK, NAK or RESEND_REQ for an original with this header. -/
def answerPkt (me : Fid) (h : Header) (typ : BitVec 8) (seq : BitVec 32) (aux : BitVec 24) : Packet :=
  Packet.seal { hdr := { dest := h.src, src := me, cls := if h.cls = .bulk then .bulk else .control, typ := typ
                         partition := h.partition, addr := BitVec.ofNat 57 h.dest.toNat, stream := h.stream
                         seq := seq, aux := aux } }

/-- A node answers an original; a Collective packet is never answered (R105), nor one from a source without an ID, which no
answer could name as its destination (R77). -/
def State.answer (s : State) (n : Node) (h : Header) (typ : BitVec 8) (seq : BitVec 32) (aux : BitVec 24) : State :=
  if h.cls = .collective ∨ h.src = noFid then s else s.originate n (answerPkt (s.nodeFid n) h typ seq aux)

/-- Acknowledges one packet (R105; one ACK for each packet, log entry 18). -/
def State.ackPkt (s : State) (n : Node) (h : Header) : State := s.answer n h 0x08 h.seq 0

/-- Refuses one packet with a reason of R106. -/
def State.nakPkt (s : State) (n : Node) (h : Header) (reason : Nat) : State := s.answer n h 0x09 h.seq (BitVec.ofNat 24 reason)

/-! ## Delivery and completion (R96, R104, R105, R108 to R111) -/

/-- A gap without one number: what is left of it. -/
def splitGap (seq : BitVec 32) (g : BitVec 32 × Nat) : List (BitVec 32 × Nat) :=
  let i := (seq - g.1).toNat
  if i < g.2 then [(g.1, i), (seq + 1, g.2 - i - 1)].filter fun x => decide (0 < x.2) else [g]

/-- A delivered number enters a stream's record: the last 1,024 numbers (R108), and what is missing before the latest one as
far back as PREC reaches (R109, R110). -/
def StreamRx.record (x : StreamRx) (seq : BitVec 32) : StreamRx :=
  let l := (seq :: x.delivered).take 1024
  if seqLater seq x.top then
    let n := (seq - x.top - 1).toNat
    let gaps := (if n = 0 then x.gaps else x.gaps ++ [(x.top + 1, n)]).filter fun g =>
      decide ((seq - (g.1 + BitVec.ofNat 32 g.2)).toNat < 65536)
    { x with delivered := l, top := seq, gaps := gaps }
  else { x with delivered := l, gaps := x.gaps.flatMap (splitGap seq) }

/-- Records a delivered sequence number (R108). -/
def State.recordSeq (s : State) (n : Node) (h : Header) : State :=
  s.setRx n h.src h.stream ((s.rx n h.src h.stream).record h.seq)

/-- The packet is a copy of a delivered one (R108). -/
def State.isDup (s : State) (n : Node) (h : Header) : Bool := (s.rx n h.src h.stream).delivered.contains h.seq

/-- The previous flag of a flagged packet: 0xFFFF_FFFF for the first one of a stream (R109, R471). -/
def prevFlag (seq : BitVec 32) (prec : BitVec 16) : BitVec 32 := seq - 1 - prec.setWidth 32

/-- The numbers of a gap that a flagged packet depends on: those from packet f to the one before it (R109). -/
def gapWithin (seq : BitVec 32) (prec : BitVec 16) (g : BitVec 32 × Nat) : List (BitVec 32) :=
  let d := (seq - 1 - g.1).toNat
  if 2 ^ 31 ≤ d then []
  else (List.range (min g.2 (d + 1) - (d - prec.toNat))).map fun i => g.1 + BitVec.ofNat 32 (d - prec.toNat + i)

/-- The packets a flagged packet depends on that are not delivered yet, oldest first, packet f among them (R109, R110). -/
def StreamRx.missing (x : StreamRx) (seq : BitVec 32) (prec : BitVec 16) : List (BitVec 32) := x.gaps.flatMap (gapWithin seq prec)

/-- A held completion is due: nothing is missing and packet f has completed. -/
def StreamRx.due (x : StreamRx) (h : HeldFlag) : Bool :=
  (x.missing h.seq h.prec).isEmpty && !(x.held.any fun y => y.seq == prevFlag h.seq h.prec)

/-- Packet f completed with an error. -/
def StreamRx.badFlag (x : StreamRx) (h : HeldFlag) : Bool := x.flagsBad.contains (prevFlag h.seq h.prec)

/-- The bytes a READ_REQ asks for, at an agent or in a partition's spill pool (R96, R320). -/
def State.readBytes (s : State) (n : Node) (h : Header) : List Byte :=
  let len := bitsAt h.aux.toNat 0 13
  match n with
  | .agent a => (s.agent a).mem.readBytes h.addr.toNat len
  | .ctl => (s.spill.getD h.partition.toNat []).readBytes h.addr.toNat len

/-- READ_RESP on stream 0xFFFD (R96). DESIGN CHOICE (log entry 144): its CLASS and PARTITION are the request's. -/
def State.readAnswer (s : State) (n : Node) (h : Header) : State :=
  let l := s.readBytes n h
  s.sendPkt n { hdr := { dest := h.src, src := 0, cls := h.cls, typ := 0x04, partition := h.partition, length := lenOf l
                         addr := BitVec.ofNat 57 (h.seq.toNat + h.stream.toNat * 2 ^ 32), stream := 0xFFFD }, payload := l }

/-- The answer to a completed packet: READ_RESP for a READ_REQ, ACK for the others. -/
def State.finish (s : State) (n : Node) (h : Header) : State := if h.typ = 0x03 then s.readAnswer n h else s.ackPkt n h

/-- A held completion ends: with an ACK, or with an error and NAK 0x0A (R110). -/
def State.endHeld (s : State) (n : Node) (f : HeldFlag) (bad : Bool) : State :=
  let x := s.rx n f.hdr.src f.hdr.stream
  let l := x.held.filter fun y => y.seq != f.seq
  let x := { x with held := l, flagsBad := if bad then (f.seq :: x.flagsBad).take 1024 else x.flagsBad }
  let s := s.setRx n f.hdr.src f.hdr.stream x
  if bad then s.nakPkt n f.hdr 0x0A else s.finish n f.hdr

/-- Completions of a stream that are due, one after another. -/
def State.settle (n : Node) (src : Fid) (stream : BitVec 16) : Nat → State → State
  | 0, s => s
  | k + 1, s =>
    let x := s.rx n src stream
    match x.held.find? x.due with
    | none => s
    | some f => State.settle n src stream k (s.endHeld n f (x.badFlag f))

/-- Completions a node holds (R111). -/
def Streams.heldCount (x : Streams) : Nat := (x.rx.map fun y => y.2.held.length).sum

/-- A packet has had its effect: its record and its answer. A flagged one is held for its precedents, but for PREC 0xFFFF
(R105, R108 to R110). -/
def State.complete (s : State) (n : Node) (h : Header) : State :=
  let s := s.recordSeq n h
  if h.ord ∧ h.prec ≠ 0xFFFF then
    let x := s.rx n h.src h.stream
    let f : HeldFlag := { seq := h.seq, prec := h.prec, arrivedNs := s.nodeNow n, hdr := h }
    State.settle n h.src h.stream (x.held.length + 1) (s.setRx n h.src h.stream { x with held := x.held ++ [f] })
  else State.settle n h.src h.stream (s.rx n h.src h.stream).held.length (s.finish n h)

/-- A copy of a delivered packet: acknowledged again; a flagged one that failed is refused again, and one whose completion is
held gets no answer yet (R108, R110). A READ_REQ is read again (R96). -/
def State.again (s : State) (n : Node) (h : Header) : State :=
  let x := s.rx n h.src h.stream
  if x.held.any fun y => y.seq == h.seq then s
  else if x.flagsBad.contains h.seq then s.nakPkt n h 0x0A
  else s.finish n h

/-- No completion is left for a flagged packet that would be held (R111). DESIGN CHOICE (log entry 63): one with PREC 0xFFFF,
which R109 completes on arrival, takes none. -/
def State.orderFull (s : State) (n : Node) (h : Header) : Bool :=
  h.ord && h.prec != 0xFFFF && decide (4096 ≤ (s.nodeStreams n).heldCount)

/-- A packet that is acknowledged arrives (R104, R105, R108 to R111): a bad CRC is NAKed with reason 0x01; a copy is answered
again without a second effect; a full order table refuses a flagged packet with reason 0x07; otherwise `body` answers the state
after the effect and the reason of a refusal, if any. -/
def State.accept (s : State) (n : Node) (p : Packet) (body : State → State × Option Nat) : State :=
  if p.crcOk = false then s.nakPkt n p.hdr 0x01
  else if s.isDup n p.hdr then s.again n p.hdr
  else if s.orderFull n p.hdr then s.nakPkt n p.hdr 0x07
  else match body s with
    | (s, none) => s.complete n p.hdr
    | (s, some r) => s.nakPkt n p.hdr r

/-- A packet that is not acknowledged arrives: a bad CRC is NAKed with reason 0x01 (R84, R104). -/
def State.consume (s : State) (n : Node) (p : Packet) (body : State → State) : State :=
  if p.crcOk = false then s.nakPkt n p.hdr 0x01 else body s

/-! ## Events (R63 to R65, R361 to R368) -/

/-- The severity an event is raised at (R363). -/
def raisedSev (stated cur dflt : Nat) : Nat :=
  let v := min 4 (stated + cur - dflt)
  if 3 ≤ stated then max 3 v else v

/-- A controller source sees an event: COUNT, LAST_DETAIL, and, where `cap` is given and CAPTURED is 0, the first-error
capture (R364, R366). -/
def State.countSource (s : State) (src n : Nat) (detail : BitVec 16) (cap : Option Capture) : State :=
  let off := fltSrc src
  let s := s.satFld (FLT_SRCn_COUNT.at off) n
  let s := s.setFld (FLT_SRCn_LAST_DETAIL.at off) detail.toNat
  match cap with
  | some c =>
    if s.fld (FLT_SRCn_CAPTURED.at off) = 0 then
      let s := s.setFld (FLT_SRCn_CAPTURED.at off) 1
      { s with col := { s.col with captures := s.col.captures.set src { c with detail := detail } } }
    else s
  | none => s

/-- The capture of an event without an access (R367), at a time. -/
def plainCapture (t : Nat) : Capture := { timeNs := t }

/-- The controller's event as its detector presents it: severity as raised, capture when it is the source's first. -/
def State.mkEvent (s : State) (src stated port : Nat) (detail : BitVec 16) (cap : Capture) : Event :=
  { origin := s.fid, source := src, port := port, detail := detail, timeNs := s.now
    severity := raisedSev stated (s.fld (FLT_SRCn_SEVERITY.at (fltSrc src))) (defaultSev src)
    capture := if s.fld (FLT_SRCn_CAPTURED.at (fltSrc src)) = 0 then some cap else none }

/-- Index of an event's ingress die in the merge order (R19): PD0 to PD23, H0 to H3, RT0; an agent's event arrives at the port
die on which the controller reaches the agent. DESIGN CHOICE (log entry 153): events of the other dies come after them. -/
def State.ingressDie (s : State) (ev : Event) : Nat :=
  let n := ev.source
  if ev.agentOrigin then ((s.dom.known.find? fun k => k.fid == ev.origin).map fun k => k.port / 3).getD 29
  else if 0x1000 ≤ n ∧ n < 0x1600 then (n - 0x1000) / 0x40
  else if 0x1900 ≤ n ∧ n < 0x1A00 then 24 + (n - 0x1900) / 0x40
  else if 0x1A00 ≤ n ∧ n < 0x1A40 then 28
  else 29

/-- The place of an event in the merge order: slot tick, then ingress die (R19, R369). -/
def State.mergeKey (s : State) (ev : Event) : Nat := ev.timeNs / 128 * 64 + s.ingressDie ev

/-- Puts an event on its way to the collector, in the merge order; events of one die and tick keep their order (R19, R369). -/
def State.present (s : State) (ev : Event) : State :=
  let before := fun (x : Event) => decide (s.mergeKey x ≤ s.mergeKey ev)
  { s with col := { s.col with raised := s.col.raised.takeWhile before ++ ev :: s.col.raised.dropWhile before } }

/-- A controller source raises an event at a stated severity (R363, R364, R366). A masked source only counts. -/
def State.raise (s : State) (src stated : Nat) (detail : BitVec 16 := 0) (port : Nat := 0xFFFF)
    (cap : Option Capture := none) : State :=
  let c := match cap with | some c => { c with timeNs := s.now } | none => plainCapture s.now
  let ev := s.mkEvent src stated port detail c
  let masked := s.fld (FLT_SRCn_MASK.at (fltSrc src))
  let s := s.countSource src 1 detail (some c)
  if masked = 1 then s else s.present ev

/-- The FLT source that stands for an agent's port source at a controller port (R113, R359): offset `o` + i of its die. -/
def portSource (o p : Nat) : Nat := 0x1000 + 0x40 * (p / 3) + o + p % 3

/-- Events that hold entries of the buffer. -/
def Agent.held (g : Agent) : List Event := g.buffer ++ g.eventsSent.flatMap (·.2)

/-- Reserved entries in use (R38, R65). -/
def Agent.usedReserved (g : Agent) : Nat := (g.held.filter fun e => e.reserved).length

/-- General entries in use. -/
def Agent.usedGeneral (g : Agent) : Nat := (g.held.filter fun e => !e.reserved).length

/-- The lowest severity among buffered events in general entries, none when there are none. -/
def lowestSev (l : List Event) : Option Nat := (l.filter fun e => !e.reserved).foldl
  (fun m e => match m with | none => some e.severity | some v => some (min v e.severity)) none

/-- A buffered event of a severity in a general entry. -/
def Event.generalOf (sev : Nat) (e : Event) : Bool := !e.reserved && e.severity == sev

/-- Removes the newest event of a severity from the last packet sent that holds one. -/
def dropSent (sev : Nat) : List (BitVec 32 × List Event) → List (BitVec 32 × List Event)
  | [] => []
  | x :: t => if t.any fun y => y.2.any (Event.generalOf sev) then x :: dropSent sev t
    else (x.1, removeLast (Event.generalOf sev) x.2) :: t

/-- The newest buffered event of a severity in a general entry: not yet sent, or sent and not acknowledged (R65, R102). -/
def Agent.newestOf (g : Agent) (sev : Nat) : Option Event :=
  match g.buffer.reverse.find? (Event.generalOf sev) with
  | some e => some e
  | none => (g.eventsSent.flatMap (·.2)).reverse.find? (Event.generalOf sev)

/-- Removes the newest buffered event of a severity from the general entries. -/
def Agent.dropNewest (g : Agent) (sev : Nat) : Agent :=
  if g.buffer.any (Event.generalOf sev) then { g with buffer := removeLast (Event.generalOf sev) g.buffer }
  else { g with eventsSent := dropSent sev g.eventsSent }

/-- The JX_EVDROP field of a severity (R74). -/
def evdropField : Nat → Field
  | 0 => JX_EVDROP_DROP_SEV0
  | 1 => JX_EVDROP_DROP_SEV1
  | _ => JX_EVDROP_DROP_SEV2

/-- Merges an event into the newest unsent record where it is identical and the count allows (R64). -/
def mergeNewest (l : List Event) (e : Event) : Option (List Event) :=
  match l.getLast? with
  | some x => if x.same e && decide (x.count < 65535) then some (l.dropLast ++ [{ x with count := x.count + 1 }]) else none
  | none => none

/-- Counts a dropped event in JX_EVDROP: every event a merged record stands for (R65; log entry 88). -/
def State.countDrop (s : State) (a : AgentRef) (e : Event) : State := s.satJfld a (evdropField e.severity) e.count

/-- Discards the newest buffered event of a severity and counts the drop (R65). -/
def State.displace (s : State) (a : AgentRef) (sev : Nat) : State :=
  match (s.agent a).newestOf sev with
  | some e => (s.updAgent a fun g => g.dropNewest sev).countDrop a e
  | none => s

/-- Puts an event into an agent's event buffer (R64, R65). -/
def State.bufferEvent (s : State) (a : AgentRef) (e : Event) : State :=
  let g := s.agent a
  let put := fun (s : State) (e : Event) => s.updAgent a fun g => { g with buffer := g.buffer ++ [e] }
  match mergeNewest g.buffer e with
  | some l => s.updAgent a fun g => { g with buffer := l }
  | none =>
    if e.severity < 3 then
      if g.usedGeneral < 240 then put s e
      else match lowestSev g.held with
        | some m => if m < e.severity then put (s.displace a m) e else s.countDrop a e
        | none => s.countDrop a e
    else if g.usedReserved < 16 then put s { e with reserved := true }
    else if g.usedGeneral < 240 then put s e
    else match lowestSev g.held with
      | some m =>
        if m < 3 then put (s.displace a m) e else s.updAgent a fun g => { g with latched := g.latched ++ [e] }
      | none => s.updAgent a fun g => { g with latched := g.latched ++ [e] }

/-- The owner's fabric ID (R58). -/
def State.owner (s : State) (a : AgentRef) : Fid := BitVec.ofNat 32 (s.jfld a JX_OWNER_OWNER_ID)

/-- The agent is orphaned (R61). -/
def State.orphan (s : State) (a : AgentRef) : Bool := s.jfld a JX_STATUS_ORPHAN == 1

/-- The agent may report: it has an owner and is not orphaned (R61). -/
def State.mayReport (s : State) (a : AgentRef) : Bool := !s.orphan a && s.owner a != noFid

/-- Sends these buffered events in one EVENTS packet (R65, R102); they keep their entries until it is acknowledged. -/
def State.sendEvents (s : State) (a : AgentRef) (evs : List Event) : State :=
  let dest := s.owner a
  let seq := (s.tx (.agent a) dest Config.ownStream).nextSeq
  let s := s.updAgent a fun g => { g with
    buffer := evs.foldl (fun l e => removeFirst (· == e) l) g.buffer, eventsSent := g.eventsSent ++ [(seq, evs)] }
  s.sendMgmt (.agent a) dest 0x34 (evs.flatMap Event.records)

/-- Sends every buffered severity 3 or 4 event, oldest first, each in its own packet (R65). -/
def State.sendUrgent (s : State) (a : AgentRef) : State :=
  if s.mayReport a then s.forEach ((s.agent a).buffer.filter fun e => decide (3 ≤ e.severity)) fun s e => s.sendEvents a [e] else s

/-- An agent source sees an event: COUNT, LAST_DETAIL and first-error capture (R67, R366). -/
def State.countAgentSource (s : State) (a : AgentRef) (src : Nat) (detail : BitVec 16) (cap : Option Capture) : State :=
  let off := jxSrc src
  let s := s.satJfld a (FLT_SRCn_COUNT.at off) 1
  let s := s.setJfld a (FLT_SRCn_LAST_DETAIL.at off) detail.toNat
  match cap with
  | some c =>
    if s.jfld a (FLT_SRCn_CAPTURED.at off) = 0 then
      (s.setJfld a (FLT_SRCn_CAPTURED.at off) 1).updAgent a fun g => { g with captured := g.captured.set src c }
    else s
  | none => s

/-- The agent's own reaction shadow is open (R66, R374). -/
def State.inOwnShadow (s : State) (a : AgentRef) : Bool :=
  match (s.agent a).ownShadow with
  | some (lo, hi) => decide (lo ≤ s.agentNow a ∧ s.agentNow a ≤ hi)
  | none => false

/-- The event as the agent's detector presents it (R63, R363). -/
def State.mkAgentEvent (s : State) (a : AgentRef) (src stated port : Nat) (detail : BitVec 16) (cap : Capture) : Event :=
  { origin := s.nodeFid (.agent a), source := src, port := port, detail := detail, timeNs := s.agentNow a
    severity := raisedSev stated (s.jfld a (FLT_SRCn_SEVERITY.at (jxSrc src))) (jxDefaultSev a.variant a.num src)
    shadow := s.inOwnShadow a, agentOrigin := true
    capture := if s.jfld a (FLT_SRCn_CAPTURED.at (jxSrc src)) = 0 then some cap else none }

/-- An agent source raises an event at a stated severity (R62 to R65, R363, R364, R366). -/
def State.raiseAgent (s : State) (a : AgentRef) (src stated : Nat) (detail : BitVec 16 := 0) (port : Nat := 0xFFFF)
    (cap : Option Capture := none) : State :=
  let c := match cap with | some c => { c with timeNs := s.agentNow a } | none => plainCapture (s.agentNow a)
  let ev := s.mkAgentEvent a src stated port detail c
  let masked := s.jfld a (FLT_SRCn_MASK.at (jxSrc src))
  let s := s.countAgentSource a src detail (some c)
  if masked = 1 then s
  else if 3 ≤ ev.severity then (s.bufferEvent a ev).sendUrgent a else s.bufferEvent a ev

/-- Frees buffer entries lets latched detectors present again, in source and then port order (R65). -/
def latchedNext (l : List Event) : Option Event :=
  l.foldl (fun m e => match m with
    | none => some e
    | some x => if e.source < x.source ∨ (e.source = x.source ∧ e.port < x.port) then some e else some x) none

/-- Latched events present themselves again while an entry is free for them, at most `k` of them (R65). -/
def State.presentLatched (a : AgentRef) : Nat → State → State
  | 0, s => s
  | k + 1, s =>
    match latchedNext (s.agent a).latched with
    | none => s
    | some e =>
      let g := s.agent a
      let low := match lowestSev g.held with | some m => decide (m < 3) | none => false
      if g.usedReserved < 16 ∨ g.usedGeneral < 240 ∨ low = true then
        State.presentLatched a k
          (((s.updAgent a fun g => { g with latched := removeFirst (· == e) g.latched }).bufferEvent a e).sendUrgent a)
      else s

/-- An event of the port-side rules at a node (R113): agent source `asrc`, or the controller's source at offset `o`. -/
def State.raiseAt (s : State) (n : Node) (asrc o stated port : Nat) (detail : BitVec 16) : State :=
  match n with
  | .agent a => s.raiseAgent a asrc stated detail port
  | .ctl => s.raise (portSource o port) stated detail port

/-- A discarded frame: recorded, with a severity 1 event on the port's source (R84, R62). -/
def State.discard (s : State) (n : Node) (port : Nat) (detail : BitVec 16) (sev : Nat := 1) : State :=
  (s.emit (.discarded n port detail)).raiseAt n (128 + port / 8) 15 sev port detail

/-! ## Figure lapses and violations (R4, R7) -/

/-- The lapse record itself: severity 0 on source 0x0007, the object in the captured-address field, capture bit clear. -/
def State.lapseRecord (s : State) (detail : BitVec 16) (object : Nat) : State :=
  let masked := s.fld (FLT_SRCn_MASK.at (fltSrc 7))
  let ev : Event := { origin := s.fid, source := 7, detail := detail, timeNs := s.now, object := BitVec.ofNat 64 object
                      severity := raisedSev 0 (s.fld (FLT_SRCn_SEVERITY.at (fltSrc 7))) (defaultSev 7) }
  let s := s.countSource 7 1 detail none
  if masked = 1 then s else s.present ev

/-- A condition of R6 lapses (R7): recorded once until it is restored. -/
def State.lapse (s : State) (code object : Nat) : State :=
  if s.lapses.contains (code, object) then s
  else { s with lapses := s.lapses ++ [(code, object)] }.lapseRecord (BitVec.ofNat 16 code) object

/-- A lapsed condition is restored (R7). -/
def State.restore (s : State) (code object : Nat) : State :=
  if s.lapses.contains (code, object) then
    { s with lapses := removeFirst (· == (code, object)) s.lapses }.lapseRecord (BitVec.ofNat 16 (code + 0x8000)) object
  else s

/-- An access above the requester's level counts at the controller (R4). Vendor has no interactive access (R3). -/
def State.violation (s : State) (lvl : Level) : State :=
  match lvl with
  | .tenant => s.satFld FLT_VIOL_TENANT 1
  | _ => s.satFld FLT_VIOL_OPERATOR 1

/-- The same at an agent (R67, R74). -/
def State.agentViolation (s : State) (a : AgentRef) (lvl : Level) : State :=
  match lvl with
  | .tenant => s.satJfld a JX_VIOL_TENANT 1
  | _ => s.satJfld a JX_VIOL_OPERATOR 1

/-- The owner stands behind a packet; an agent without an owner takes none (R58). -/
def State.ownerSent (s : State) (a : AgentRef) (h : Header) : Bool := h.src == s.owner a && s.owner a != noFid

/-- An owner-only packet: a source other than the owner is ignored with an event, which an orphan holds, and an orphan accepts
nothing but claims and beacons (R58, R61). -/
def State.fromOwner (s : State) (a : AgentRef) (p : Packet) (body : State → State) : State :=
  if s.ownerSent a p.hdr = false then s.raiseAgent a 8 2 (p.hdr.src.setWidth 16)
  else if s.orphan a then s
  else body s

/-! ## Completions of asynchronous operations (R185) -/

/-- An engine; one that runs nothing stands at its reset state. -/
def State.engine (s : State) (e : Nat) : Engine := s.engines.getD e {}

/-- Replaces an engine. -/
def State.setEngine (s : State) (e : Nat) (x : Engine) : State := { s with engines := s.engines.set e x }

/-- A general register (R171): g0 reads zero. -/
def Engine.reg (x : Engine) (r : Nat) : Word64 := if r = 0 then 0 else x.g.getD r 0

/-- Writes a general register; g0 discards it. A register that holds zero is not listed. -/
def Engine.setG (x : Engine) (r : Nat) (v : Word64) : Engine :=
  if r = 0 then x else { x with g := if v = 0 then x.g.erase r else x.g.set r v }

/-- A predicate (R171): p0 reads 1. -/
def Engine.pred (x : Engine) (i : Nat) : Bool := if i = 0 then true else x.p.getD (i - 1) false

/-- Writes a predicate; p0 discards it. -/
def Engine.setP (x : Engine) (i : Nat) (b : Bool) : Engine := if i = 0 then x else { x with p := listSet x.p (i - 1) b }

/-- Messages in an inbox outside the reserved entries of LRE0 (R175, R194). -/
def Engine.general (x : Engine) : Nat := (x.inbox.filter fun m => decide (m.1 < 3)).length

/-- An engine's inbox takes a message of a severity: 256 entries, the last 16 of LRE0 reserved to severity 3 and 4 (R175,
R194). -/
def Engine.inboxRoom (x : Engine) (e sev : Nat) : Bool :=
  decide (x.inbox.length < 256) && (e != 0 || decide (3 ≤ sev) || decide (x.general < 240))

/-- A message reaches an inbox; a blocked EVWAIT goes on with 1 (R189). -/
def Engine.receive (x : Engine) (sev : Nat) (m : List Byte) : Engine :=
  let x := { x with inbox := x.inbox ++ [(sev, m)] }
  match x.blocked with
  | .evwait rd sp _ => { ((x.setG rd 1).setP sp true) with blocked := .no, pc := x.pc + 1 }
  | _ => x

/-- Puts a message into an engine's inbox; without room it is dropped and counted (R194). -/
def State.inboxPut (s : State) (e sev : Nat) (m : List Byte) : State :=
  let x := s.engine e
  if x.inboxRoom e sev then s.setEngine e (x.receive sev m) else s.setEngine e { x with drops := x.drops + 1 }

/-- A tag's operation completes: a blocked WAIT takes status and result and goes on, otherwise the tag is ready (R185). -/
def Engine.finishTag (x : Engine) (tag status : Nat) (result : Word64) : Engine :=
  match x.tags.get tag with
  | none => x
  | some t =>
    let ready := { x with tags := x.tags.set tag { t with ready := some (status, result) } }
    match x.blocked with
    | .wait w rd sp =>
      if w = tag then
        { (((x.setG rd (BitVec.ofNat 64 status)).setG (rd + 1) result).setP sp (status == 0)) with
          tags := x.tags.erase tag, blocked := .no, pc := x.pc + 1 }
      else ready
    | _ => ready

/-- A tag completes; the completion also reaches the program's inbox (R189, log entry 25). A tag of a program that has
stopped is discarded (R183). -/
def State.completeTag (s : State) (e tag status : Nat) (result : Word64) : State :=
  if ((s.engine e).tags.get tag).isSome then
    (s.setEngine e ((s.engine e).finishTag tag status result)).inboxPut e 0 (Config.inboxMessage 1 tag status (result.setWidth 16))
  else s

/-- A blocked SEND, RREAD or RWRITE goes on: the value of a register read, the status otherwise (R188). -/
def Engine.answered (x : Engine) (status : Nat) (value : Word64) : Engine :=
  match x.blocked with
  | .answer rd sp isRead =>
    let v := if isRead && status == 0 then value else BitVec.ofNat 64 status
    { ((x.setG rd v).setP sp (status == 0)) with blocked := .no, pc := x.pc + 1 }
  | _ => x

/-- Completes an optional tag. -/
def State.completeOpt (s : State) (tag : Option (Nat × Nat)) (status : Nat) (result : Word64 := 0) : State :=
  match tag with
  | some (e, t) => s.completeTag e t status result
  | none => s

end Sys2Proof.Machine
end

