-- ==== Sys2Proof/Machine/Engines.lean ====
section
/-! DEFINITION. Route engines and what they answer to: completion records (R213 to R215), handles (R176, R177, R192),
bindings (R211), the start and the end of a program (R171, R183, R203, R210 to R212, R216, R218). -/

namespace Sys2Proof.Machine

/-! ## Levels -/

/-- Rank of a level (R3). -/
def levelRank : Level → Nat
  | .tenant => 0
  | .operator => 1
  | .vendor => 2

/-- Level from its code (R207). -/
def levelOf (n : Nat) : Level := if n = 0 then .tenant else if n = 1 then .operator else .vendor

/-- Counts an access above a program's level (R4, R182). -/
def State.countViolation (s : State) (l : Level) : State := s.violation l

/-- A partition is ACTIVE (R328). -/
def State.partActive (s : State) (p : Nat) : Bool := (s.sec.parts.getD p {}).state == 1

/-! ## Queues and completion records (R199, R213 to R215) -/

/-- A register of queue n (R199). -/
def cqOff (n reg : Nat) : Nat := reg + 0x20 * n

/-- A field of a queue register. -/
def State.cq (s : State) (n : Nat) (f : Field) : Nat := s.fld (f.at (cqOff n f.off))

/-- Sets a field of a queue register. -/
def State.setCq (s : State) (n : Nat) (f : Field) (v : Nat) : State := s.setFld (f.at (cqOff n f.off)) v

/-- The queue's state beside its registers. -/
def State.queue (s : State) (n : Nat) : QueueSt := s.queues.getD n {}

/-- Replaces the queue's state. -/
def State.setQueue (s : State) (n : Nat) (x : QueueSt) : State := { s with queues := s.queues.set n x }

/-- Entries of the rings (R199). -/
def State.ringSize (s : State) (n : Nat) : Nat := 2 ^ s.cq n CTL_CQn_CFG_SIZE_LOG2

/-- The queue's level (R199). -/
def State.queueLevel (s : State) (n : Nat) : Level := if s.cq n CTL_CQn_CFG_LEVEL = 1 then .operator else .tenant

/-- The queue's partition; 0 at operator level. -/
def State.queuePartition (s : State) (n : Nat) : Nat :=
  if s.cq n CTL_CQn_CFG_LEVEL = 1 then 0 else s.cq n CTL_CQn_CFG_PARTITION

/-- What a completion record says (R213). -/
structure Record where
  cmdId : Nat
  opcode : Nat
  status : Nat := 0
  detail : Nat := 0
  engine : Nat := 0xFF
  result : Word64 := 0
  faultPc : Nat := 0
  drops : Nat := 0
  budgetUsed : Nat := 0
  reportBytes : Nat := 0
  trunc : Bool := false
deriving DecidableEq, Repr

/-- The 32 bytes of a record (R213). -/
def Record.bytes (r : Record) (phase : Nat) : List Byte :=
  leBytes 4 r.cmdId ++ [BitVec.ofNat 8 r.opcode, BitVec.ofNat 8 r.status, BitVec.ofNat 8 r.detail, BitVec.ofNat 8 r.engine]
    ++ leBytes 8 r.result.toNat ++ leBytes 2 r.faultPc ++ [BitVec.ofNat 8 (min r.drops 255), 0] ++ leBytes 6 r.budgetUsed
    ++ zeros 2 ++ leBytes 3 r.reportBytes ++ [BitVec.ofNat 8 (phase * 128 + bit r.trunc * 64)]

/-- The bus address of record `i` of a queue. -/
def State.recordAddr (s : State) (n i : Nat) : Nat := s.cq n CTL_CQn_CQ_BASE_ADDR * 32 + 32 * i

/-- The held item is a completion record of a queue. -/
def HeldIo.ofQueue (n : Nat) : HeldIo → Bool
  | .record q _ _ => q == n
  | .out _ _ => false

/-- Completion records of a queue that wait for its hub's PCIe link (R453). -/
def State.heldRecords (s : State) (n : Nat) : Nat := s.pwr.heldIo.countP (HeldIo.ofQueue n)

/-- A hub's PCIe link is gone: in reset (R453), or its die is out (R36). -/
def State.hubDown (s : State) (hub : Nat) : Bool := s.pwr.perst.contains hub || s.pwr.deadBlocks.contains (59 + hub)

/-- Holds a read or write of host memory until the hub's PCIe link returns (R453). -/
def State.hold (s : State) (x : HeldIo) : State := { s with pwr := { s.pwr with heldIo := s.pwr.heldIo ++ [x] } }

/-- A read or write of host memory over a hub; held while the hub's PCIe link is in reset (R453). -/
def State.hubAct (s : State) (hub : Nat) (o : Out) : State :=
  if s.hubDown hub then s.hold (.out hub o) else s.act o

/-- Shows CQ_TAIL and STALLED (R199, R201). -/
def State.freeRecords (s : State) (n : Nat) : Nat :=
  let size := s.ringSize n
  let used := (s.cq n CTL_CQn_STATUS_CQ_TAIL + size - s.cq n CTL_CQn_STATUS_CQ_HEAD) % size
  size - 1 - used - (s.queue n).cmds.length - (s.queue n).inFlight - s.heldRecords n

/-- Sets the phase bit of a record's bytes (R213). -/
def withPhase (l : List Byte) (phase : Nat) : List Byte :=
  l.take 31 ++ [BitVec.ofNat 8 ((l.getD 31 0).toNat % 128 + phase * 128)]

/-- Writes a record's bytes, then the MSI-X message where it is asked for (R215). -/
def State.putRecord (s : State) (n : Nat) (l : List Byte) (irq : Bool) : State :=
  let q := s.queue n
  let size := s.ringSize n
  let tail := s.cq n CTL_CQn_STATUS_CQ_TAIL
  let phase := if q.written / size % 2 = 0 then 1 else 0
  let s := s.act (.hostWrite (s.cq n CTL_CQn_CFG_HUB) (s.recordAddr n tail) (withPhase l phase))
  let s := (s.setCq n CTL_CQn_STATUS_CQ_TAIL ((tail + 1) % size)).setQueue n { q with written := q.written + 1 }
  if irq then s.act (.msix (s.cq n CTL_CQn_CFG_MSIX_VECTOR)) else s

/-- Writes a record; held while the PCIe link of the queue's hub is in reset (R215, R453). -/
def State.writeRecord (s : State) (n : Nat) (r : Record) (irq : Bool) : State :=
  if s.hubDown (s.cq n CTL_CQn_CFG_HUB) then s.hold (.record n (r.bytes 0) irq) else s.putRecord n (r.bytes 0) irq

/-- Fields of a command entry (R204). -/
def Cmd.opcode (c : Cmd) : Nat := leAt c.bytes 0 1
def Cmd.serial (c : Cmd) : Bool := leAt c.bytes 1 1 % 2 == 1
def Cmd.irq (c : Cmd) : Bool := leAt c.bytes 1 1 / 2 % 2 == 1
def Cmd.cmdId (c : Cmd) : Nat := leAt c.bytes 4 4

/-- Disabling ends once every fetched command has completed (R199). -/
def State.endDisable (s : State) (n : Nat) : State :=
  let q := s.queue n
  if q.disabling ∧ q.cmds.isEmpty ∧ q.inFlight = 0 ∧ s.heldRecords n = 0 then
    (s.setQueue n { q with disabling := false }).setCq n CTL_CQn_CFG_ENABLE 0
  else s

/-- A held read or write belongs to a hub. -/
def State.heldAt (s : State) (hub : Nat) : HeldIo → Bool
  | .record q _ _ => s.cq q CTL_CQn_CFG_HUB == hub
  | .out h _ => h == hub

/-- A held read or write takes place. -/
def State.releaseIo (s : State) : HeldIo → State
  | .record q l irq => (s.putRecord q l irq).endDisable q
  | .out _ o => s.act o

/-- What was held for a hub goes, in order, once its PCIe link is there (R453). -/
def State.releaseHub (s : State) (hub : Nat) : State :=
  if s.hubDown hub then s
  else
    let go := s.pwr.heldIo.filter (s.heldAt hub)
    let s : State := { s with pwr := { s.pwr with heldIo := s.pwr.heldIo.filter fun x => !s.heldAt hub x } }
    s.forEach go fun s x => s.releaseIo x

/-- A command completes: its record is written and the entry leaves (R215). -/
def State.completeCmd (s : State) (n : Nat) (c : Cmd) (r : Record) : State :=
  let s := s.writeRecord n r c.irq
  let q := s.queue n
  (s.setQueue n { q with cmds := removeFirst (· == c) q.cmds }).endDisable n

/-- A record for a command without an engine. -/
def Cmd.record (c : Cmd) (status detail : Nat) (result : Word64 := 0) : Record :=
  { cmdId := c.cmdId, opcode := c.opcode, status := status, detail := detail, result := result }

/-! ## Handles (R176, R177, R192) -/

/-- What opening an object answers: a handle, a check of level or partition that fails, or no such object. -/
inductive Opened where
  | handle (h : Handle)
  | denied
  | absent
deriving DecidableEq, Repr

/-- The program may use objects of a partition: it is an operator's, or its own. -/
def ownPartition (l : Level) (part obj : Nat) : Bool := decide (1 ≤ levelRank l) || part == obj

/-- Keys and spill pools of a tenant partition open to the partition and to vendor programs, not to the operator (R342). -/
def plainOf (l : Level) (part obj : Nat) : Bool := obj == 0 && decide (1 ≤ levelRank l) || part == obj || l == .vendor

/-- Sizes of the table-store regions by row (R24). -/
def regionSize (i : Nat) : Nat :=
  if i = 0 then 4294967296 else if i = 1 ∨ i = 5 then 1073741824 else 2147483648

/-- Sizes of the parts of the HBM system area: KV directory, ledger ring, telemetry, working state (R26). -/
def hbmSize (i : Nat) : Nat :=
  if i = 0 then 4294967296 else if i = 1 then 67108864 else if i = 2 then 8589934592 else 4227858432

/-- Opens an object of a kind at a level and partition (R176, R177, R342). -/
def State.openHandle (s : State) (l : Level) (part kind obj rights : Nat) (size : Nat := 0) : Opened :=
  let h : Handle := { kind := kind, obj := obj, rights := rights % 16, level := l, partition := BitVec.ofNat 12 part, size := size }
  let op := decide (1 ≤ levelRank l)
  match kind with
  | 2 => if obj < 16 then .handle { h with size := 4128 } else .absent
  | 3 => if op = false ∨ obj = 4 then .denied
    else if obj < 6 then .handle { h with size := regionSize obj }
    else if (s.refOf (BitVec.ofNat 32 obj)).isSome then .handle { h with size := 4194304 } else .absent
  | 4 => if op = false then .denied
    else if obj < 4 then .handle { h with size := hbmSize obj, rights := if obj = 1 then rights % 2 else rights % 16 }
    else .absent
  | 5 => if plainOf l part obj = false then .denied
    else if 0 < obj ∧ s.partActive obj then .handle { h with size := s.plc.spillQuota.getD obj 0 * 1073741824 } else .absent
  | 6 => match s.sec.keys.get obj with
    | some k => if plainOf l part k.partition.toNat then .handle { h with size := Config.objectSize 6 obj } else .denied
    | none => .absent
  | 7 => match s.sq.images.get obj with
    | some i => if levelRank i.level ≤ levelRank l ∧ (i.level ≠ .tenant ∨ ownPartition l part i.partition.toNat) then
        (if i.freeing then .absent else .handle { h with size := Config.objectSize 7 obj }) else .denied
    | none => .absent
  | 8 => match s.grp.groups.find? fun g => g.rec_.groupId == obj with
    | some g => if ownPartition l part g.rec_.partition.toNat then .handle { h with size := Config.objectSize 8 obj } else .denied
    | none => .absent
  | 9 => if op = false then .denied
    else match s.sets.get obj with
      | some x => .handle { h with size := x.size }
      | none => .absent
  | 10 => if op = false then .denied else if obj < 13 then .handle { h with size := 0x20000 } else .absent
  | 11 => if ownPartition l part obj = false then .denied
    else if 0 < obj ∧ obj < 4096 then .handle { h with size := Config.objectSize 11 obj } else .absent
  | _ => .absent

/-- The next number for an install set. -/
def State.nextSet (s : State) : Nat := s.sets.foldl (fun m x => max m (x.1 + 1)) 1

/-- A handle of an engine; h0 names the local space (R175). -/
def Engine.handle (x : Engine) (i : Nat) : Option Handle :=
  if i = 0 then some { kind := 1, obj := 0, rights := 15, level := x.level, partition := x.partition, size := 262144 }
  else x.h.get i

/-! ## The end of a program (R183, R216, R218) -/

/-- Nothing waits for the tags of an engine any longer: their operations run to their end, and the results are discarded
(R183). -/
def State.forgetTags (s : State) (e : Nat) : State :=
  let mine : Option (Nat × Nat) → Option (Nat × Nat) := fun t => match t with
    | some (x, n) => if x = e then none else some (x, n)
    | none => none
  let purpose : InstallFor → InstallFor := fun p => match p with
    | .tag x n i => if x = e then .tag 0xFF 0 i else .tag x n i
    | p => p
  { s with
    hooks := s.hooks.map fun k => match k.kind with
      | .sendTag x _ => if x = e then { k with kind := .other } else k
      | .sendBlock x => if x = e then { k with kind := .other } else k
      | _ => k
    rte := { s.rte with
      install := s.rte.install.map fun i => { i with purpose := purpose i.purpose }
      waiting := s.rte.waiting.map fun w => (w.1, purpose w.2)
      gambits := s.rte.gambits.map fun g => { g with tag := mine g.tag } }
    sq := { s.sq with images := s.sq.images.mapVals fun _ i => { i with runs := i.runs.map fun r => if r.1 = e then (0xFF, 0) else r } }
    plc := { s.plc with moves := s.plc.moves.map fun m =>
      { m with tag := if (m.tag.map (·.1)) = some e then some (0xFF, m.entry) else m.tag } }
    grp := { s.grp with
      tickets := s.grp.tickets.filter fun t => t.goal != .library e }
    col := { s.col with subs := s.col.subs.filter fun x => x.1 != e } }

/-- The FLT source of an engine (R359). -/
def engineSource (e : Nat) : Nat := 0x0100 + e

/-- The report a HALT leaves: the bytes of the named message buffer (R210). -/
def Engine.report (x : Engine) (r : RunInfo) : List Byte :=
  match x.h.get r.reportH with
  | some h => if h.kind = 2 then (x.bufs.getD h.obj []).readBytes 0 4128 else []
  | none => []

/-- An engine whose program ends waits at no gate. -/
def State.quitGate (s : State) (e : Nat) : State :=
  if s.tri.gateWait.contains e then { s with tri := { s.tri with gateWait := s.tri.gateWait.filter (· != e) } } else s

/-- Ends the program of an engine: handles close, tags and messages go, and the record of its command is written (R183,
R213, R216). A resident program has no command. FAULT_PC of a record without a fault is a free value (log entry 50). -/
def State.endProgram (s : State) (e status detail : Nat) (result : Word64) (faultPc : Nat) : State :=
  let x := s.engine e
  if x.running = false then s
  else
    let s := ((s.forgetTags e).quitGate e).setEngine e {}
    match x.run with
    | none => s
    | some r =>
      let rep := if status = 0 then x.report r else []
      let s := if rep.isEmpty ∨ r.reportLen = 0 then s
        else s.hubAct (s.cq r.queue CTL_CQn_CFG_HUB) (.hostWrite (s.cq r.queue CTL_CQn_CFG_HUB) r.reportAddr (rep.take r.reportLen))
      let q := s.queue r.queue
      let s := s.setQueue r.queue { q with running := q.running - 1 }
      match q.cmds.find? fun c => c.cmdId == r.cmdId && c.opcode == 3 && c.state == .started && c.order == r.order with
      | none => s
      | some c =>
        let pc := if status = 1 then faultPc else s.free.toNat % 65536
        let s := if status = 1 then s else s.useFree
        s.completeCmd r.queue c { cmdId := r.cmdId, opcode := 3, status := status, detail := detail, engine := e
                                  result := result, faultPc := pc, drops := x.drops, budgetUsed := r.budget0 - x.budget
                                  reportBytes := rep.length, trunc := decide (r.reportLen < rep.length) }

/-- A fault ends the program: the record and a severity 1 event on the engine's source (R183). -/
def State.faultProgram (s : State) (e code : Nat) (result : Word64 := 0) : State :=
  (s.endProgram e 1 code result (s.engine e).pc).raise (engineSource e) 1 (BitVec.ofNat 16 code)

/-! ## The start of a program (R171, R203, R210, R211) -/

/-- Fields of a RUN entry (R210). -/
def Cmd.runSlot (c : Cmd) : Nat := leAt c.bytes 8 1
def Cmd.runEngine (c : Cmd) : Nat := leAt c.bytes 9 1
def Cmd.runReportH (c : Cmd) : Nat := leAt c.bytes 10 1
def Cmd.runBudget (c : Cmd) : Nat := leAt c.bytes 12 6
def Cmd.runTimeMs (c : Cmd) : Nat := leAt c.bytes 20 4
def Cmd.runArgAddr (c : Cmd) : Nat := leAt c.bytes 24 8
def Cmd.runArgLen (c : Cmd) : Nat := leAt c.bytes 32 4
def Cmd.runBinds (c : Cmd) : Nat := leAt c.bytes 36 4
def Cmd.runReportAddr (c : Cmd) : Nat := leAt c.bytes 40 8
def Cmd.runReportLen (c : Cmd) : Nat := leAt c.bytes 48 4

/-- One binding of an argument block is well formed (R211). -/
def bindingOk (l : List Byte) (i : Nat) : Bool :=
  let b := slice l (16 * i) 16
  let idx := leAt b 1 1
  match leAt b 0 1 with
  | 1 => decide (1 ≤ idx ∧ idx ≤ 63) && allZero b 2 6
  | 2 => decide (1 ≤ idx ∧ idx ≤ 15) && allZero b 2 2 && decide (leAt b 4 4 ≤ 4128)
      && decide (leAt b 8 8 + leAt b 4 4 ≤ l.length)
  | 3 => decide (1 ≤ idx ∧ idx ≤ 15) &&
      (if leAt b 2 1 = 9 ∧ leAt b 8 8 = 0 then
        decide (leAt b 4 4 % 64 = 0 ∧ 0 < leAt b 4 4 ∧ leAt b 4 4 ≤ 67108864) else leAt b 4 4 == 0)
  | _ => false

/-- The argument block is well formed (R211). -/
def bindingsOk (l : List Byte) (n : Nat) : Bool :=
  decide (16 * n ≤ l.length) && (List.range n).all fun i => bindingOk l i

/-- The lowest message buffer that no handle names. -/
def Engine.freeBuffer (x : Engine) : Nat :=
  ((List.range 16).find? fun i => !(x.h.any fun h => h.2.kind == 2 && h.2.obj == i)).getD 15

/-- Applies one binding (R211): a register, a message buffer with data, or a handle opened as HOPEN would at the queue's
level and partition. -/
def State.bindOne (s : State) (e : Nat) (l : Level) (part : Nat) (arg : List Byte) (i : Nat) : State :=
  let b := slice arg (16 * i) 16
  let idx := leAt b 1 1
  let x := s.engine e
  match leAt b 0 1 with
  | 1 => s.setEngine e (x.setG idx (BitVec.ofNat 64 (leAt b 8 8)))
  | 2 =>
    let x := { x with h := x.h.erase idx }
    let k := x.freeBuffer
    let data := (arg.drop (leAt b 8 8)).take (leAt b 4 4)
    let h : Handle := { kind := 2, obj := k, rights := 15, level := l, partition := BitVec.ofNat 12 part, size := 4128 }
    s.setEngine e { x with h := x.h.set idx h, bufs := x.bufs.set k (Memory.writeBytes [] 0 data) }
  | _ =>
    let kind := leAt b 2 1
    let obj := leAt b 8 8
    let fresh := kind == 9 && obj == 0
    let s := if fresh ∧ 1 ≤ levelRank l then { s with sets := s.sets.set s.nextSet { size := leAt b 4 4 } } else s
    let obj := if fresh then s.nextSet - 1 else obj
    match s.openHandle l part kind obj (leAt b 3 1) with
    | .handle h => s.setEngine e { x with h := x.h.set idx h }
    | .denied => (s.setEngine e { x with h := x.h.erase idx }).countViolation l
    | .absent => s.setEngine e { x with h := x.h.erase idx }

/-- Free engines among LRE4 to LRE31 (R203), or the one a RUN names. -/
def State.freeEngine (s : State) (want : Nat) : Option Nat :=
  if want = 0xFF then ((List.range 28).map (· + 4)).find? fun e => !(s.engine e).running
  else if 4 ≤ want ∧ want ≤ 31 ∧ (s.engine want).running = false then some want else none

/-- Starts a program on an engine for a RUN (R171, R203, R210, R212). -/
def State.startProgram (s : State) (n : Nat) (c : Cmd) (p : Program) (e : Nat) : State :=
  let ms := if c.runTimeMs = 0 ∨ s.cq n CTL_CQn_CFG_MAX_TIME_MS < c.runTimeMs then s.cq n CTL_CQn_CFG_MAX_TIME_MS else c.runTimeMs
  let part := s.queuePartition n
  let info : RunInfo := { queue := n, cmdId := c.cmdId, irq := c.irq, budget0 := c.runBudget, reportH := c.runReportH
                          reportAddr := c.runReportAddr, reportLen := c.runReportLen
                          deadlineNs := s.now + ms * 1000000, slot := c.runSlot, order := (s.queue n).starts }
  let x : Engine := { running := true, level := p.level, partition := BitVec.ofNat 12 part, budget := c.runBudget
                      code := p.code, run := some info }
  let q := s.queue n
  let cmds := updateFirst (fun d => d.cmdId == c.cmdId && d.opcode == 3 && d.state == .fetched) (fun d => { d with state := .started, order := q.starts }) q.cmds
  let s := (s.setQueue n { q with cmds := cmds, running := q.running + 1, starts := q.starts + 1 }).setEngine e x
  s.forEach (List.range c.runBinds) fun s i => s.bindOne e (s.queueLevel n) part (c.data.getD []) i

end Sys2Proof.Machine
end

