-- ==== Sys2Proof/Machine/Schedules.lean ====
section
/-! DEFINITION. Express schedules: runs (R132), the checks of admission (R133, R134), reports (R137), schedules marked unfit
(R136) and nested routes (R465, R466). -/

namespace Sys2Proof.Machine

/-- The link that leaves a port of an agent, with its far end. -/
def State.linkFrom (s : State) (f : Fid) (p : Nat) : Option (Link × Fid × Nat) :=
  match s.dom.links.find? fun l => (l.aId == f && l.aPort == p) || (l.bId == f && l.bPort == p) with
  | some l => if l.aId == f && l.aPort == p then some (l, l.bId, l.bPort) else some (l, l.aId, l.aPort)
  | none => none

/-- Half width: ⌈planned lanes ÷ 2⌉ (R421). -/
def halfWidth (planned : Nat) : Nat := (planned + 1) / 2

/-- The link carries traffic: up and at half width or more (R133, R135). -/
def Link.usable (l : Link) : Bool := l.up && decide (halfWidth l.planned ≤ l.lanes ∧ 0 < l.lanes)

/-- One run: slots relative to the head slot, first and last (R132). -/
structure RunSpan where
  first : Nat
  last : Nat
deriving DecidableEq, Repr

/-- Slots of a run. -/
def RunSpan.len (r : RunSpan) : Nat := r.last - r.first + 1

/-- The spans along a route (R132). Times are in 1/6000 ns, so that FLITS × 2.56 ÷ lanes is exact for one to four lanes.
A hop: width of the link leaving it, its delay in ps, and whether its two agents lie in different domains (R466). -/
def spansFrom (slotNs flits : Nat) : List (Nat × Nat × Bool) → Nat → Nat → Nat → Bool → List RunSpan
  | [], _, _, _, _ => []
  | (lanes, dps, cross) :: t, lo, hi, narrow, isSource =>
    let w := min narrow lanes
    let ser := flits * 15360 / w
    let widen := if isSource then 0 else if cross then 158 * 6000 else 30 * 6000
    let first := (lo - widen) / (slotNs * 6000)
    let last := (hi + ser + widen) / (slotNs * 6000)
    ⟨first, last⟩ :: spansFrom slotNs flits t (lo + dps * 6 + 100 * 6000) (hi + dps * 6 + 130 * 6000) w false

/-- The spans of a flow of FLITS along hops, from the source on (R132). -/
def spans (slotNs flits : Nat) (hops : List (Nat × Nat × Bool)) : List RunSpan :=
  spansFrom slotNs flits hops 0 (20 * 6000) 4 true

/-- Marks the hops whose two agents lie in different domains (R466). -/
def crossings : Fid → List (Fid × Nat) → List Bool
  | _, [] => []
  | prev, (f, _) :: t => (prev.domain != f.domain) :: crossings f t

/-- Width and delay of the links leaving a flow's ports; a link that is not known counts as one lane. -/
def State.flowHops (s : State) (f : Flow) : List (Nat × Nat × Bool) :=
  (f.path.zip (crossings f.src f.path)).map fun x =>
    match s.linkFrom x.1.1 x.1.2 with
    | some (l, _, _) => (max 1 l.lanes, l.delayPs, x.2)
    | none => (1, 0, x.2)

/-- The length of a slot in ns. -/
def slotNsOf (slotTicks : Nat) : Nat := 128 * (if slotTicks = 0 then 1 else slotTicks)

/-- The runs of a schedule: flow index, agent, port, first and last slot. -/
def State.scheduleRuns (s : State) (c : Schedule) : List (Nat × Fid × Nat × Nat × Nat) :=
  ((List.range c.flows.length).zip c.flows).flatMap fun x =>
    (x.2.path.zip (spans (slotNsOf c.slotTicks) x.2.flits (s.flowHops x.2))).map fun y =>
      (x.1, y.1.1, y.1.2, x.2.headSlot + y.2.first, x.2.headSlot + y.2.last)

/-! ## Reports (R137) -/

/-- A report item: 16 bytes (R137). -/
def reportItem (code port : Nat) (agent : Fid) (first last stream srcLocal : Nat) : List Byte :=
  [BitVec.ofNat 8 code, 0] ++ leBytes 2 port ++ leBytes 4 agent.toNat ++ leBytes 2 first ++ leBytes 2 last
    ++ leBytes 2 stream ++ leBytes 2 srcLocal

/-- An item about a flow at a port. -/
def flowItem (code : Nat) (f : Flow) (agent : Fid) (port first last : Nat) : List Byte :=
  reportItem code port agent first last f.stream.toNat f.src.localId

/-- The geometry of the domain, or the pending one (R115, R133, R146): slots and ticks per slot. -/
def State.geometry (s : State) : Nat × Nat := (s.fld SCH_EPOCH_CFG_SLOTS, s.fld SCH_EPOCH_CFG_SLOT_TICKS + 1)

/-- The geometry an admission is checked against: the pending one while PENDING is 1 (R146). -/
def State.admitGeometry (s : State) : Nat × Nat :=
  match s.time.pendingGeom with
  | some (a, b, _) => (a, b)
  | none => s.geometry

/-- Slots of the steering tail (R134). -/
def tailSlots (slots : Nat) : Nat := (slots + 19) / 20

/-- The route joins: its first port is one of the source, every port leads to the next hop's agent, the last one to the
destination (R133). -/
def State.routeJoins (s : State) (f : Flow) : List (List Byte) :=
  let next := (f.path.drop 1).map (·.1) ++ [f.dest]
  (match f.path with
    | x :: _ => if x.1 = f.src then [] else [flowItem 0x0B f x.1 x.2 f.headSlot f.headSlot]
    | [] => [flowItem 0x0B f f.src 0xFFFF f.headSlot f.headSlot])
  ++ (f.path.zip next).filterMap fun x =>
    match s.linkFrom x.1.1 x.1.2 with
    | some (_, far, _) => if far == x.2 then none else some (flowItem 0x0B f x.1.1 x.1.2 f.headSlot f.headSlot)
    | none => some (flowItem 0x0B f x.1.1 x.1.2 f.headSlot f.headSlot)

/-- Items on the links of a flow: down or below half width, delay above 50 ns. -/
def State.linkItems (s : State) (f : Flow) : List (List Byte) :=
  f.path.flatMap fun x =>
    match s.linkFrom x.1 x.2 with
    | some (l, _, _) =>
      (if l.usable then [] else [flowItem 0x02 f x.1 x.2 f.headSlot f.headSlot])
        ++ (if 50000 < l.delayPs then [flowItem 0x03 f x.1 x.2 f.headSlot f.headSlot] else [])
    | none => [flowItem 0x02 f x.1 x.2 f.headSlot f.headSlot]

/-- The ports at which a route transits a controller, and its ends where they are no endpoints: one item each (R133, R137, R23). -/
def routeKindItems (f : Flow) : List (List Byte) :=
  let at_ := fun (x : Fid × Nat) => flowItem 0x04 f x.1 x.2 f.headSlot f.headSlot
  (if 0x8000 ≤ f.src.localId then [at_ (f.path.headD (f.src, 0xFFFF))] else [])
    ++ ((f.path.drop 1).filter fun x => decide (0xA000 ≤ x.1.localId)).map at_
    ++ (if 0x8000 ≤ f.dest.localId then [at_ (f.path.getLastD (f.src, 0xFFFF))] else [])

/-- Two slot ranges share slots: the shared range. -/
def overlap (a b : Nat × Nat) : Option (Nat × Nat) :=
  let lo := max a.1 b.1
  let hi := min a.2 b.2
  if lo ≤ hi then some (lo, hi) else none

/-- Overlap items of a list of runs, each pair once, and with the runs of admitted schedules (R133). -/
def overlapItems (flows : List Flow) (others : List (Fid × Nat × Nat × Nat)) :
    List (Nat × Fid × Nat × Nat × Nat) → List (List Byte)
  | [] => []
  | (i, f, p, a, b) :: t =>
    let fl := flows.getD i { src := 0, dest := 0, stream := 0, flits := 0, headSlot := 0, path := [] }
    (others.filterMap fun o => if o.1 == f && o.2.1 == p then
        (overlap (a, b) (o.2.2.1, o.2.2.2)).map fun r => flowItem 0x06 fl f p r.1 r.2 else none)
      ++ (t.filterMap fun o => if o.2.1 == f && o.2.2.1 == p then
        (overlap (a, b) (o.2.2.2.1, o.2.2.2.2)).map fun r => flowItem 0x06 fl f p r.1 r.2 else none)
      ++ overlapItems flows others t

/-- The runs of the admitted schedules but one: agent, port, first, last. -/
def State.otherRuns (s : State) (number : Nat) : List (Fid × Nat × Nat × Nat) :=
  (s.sch.admitted.filter fun a => a.number != number).flatMap fun a => a.runs.map fun r => (r.2.1, r.2.2.1, r.2.2.2.1, r.2.2.2.2)

/-- Bytes the run lists of these runs take: 16 for each port with a run and 8 for each run (R25). -/
def runListBytes (l : List (Fid × Nat)) : Nat := 16 * l.dedup.length + 8 * l.length

/-- The slot-table region (R24): 1 GiB. -/
def slotRegion : Nat := 1073741824

/-- A route runs through more than one domain (R465). -/
def flowNested (f : Flow) : Bool := f.path.any (fun x => x.1.domain != f.src.domain) || f.dest.domain != f.src.domain

/-- The nested-route checks (R465, R466): bound within the budget, the controller's sync locked. A route that crosses domains under
no declared budget fits none. -/
def State.nestedItems (s : State) (c : Schedule) (f : Flow) : List (List Byte) :=
  match c.nestedBudget with
  | none => if flowNested f then [flowItem 0x09 f f.src 0xFFFF f.headSlot f.headSlot] else []
  | some b =>
    if b < 600 + 180 * (f.path.length - 1) ∨ 63 < f.path.length - 1 ∨ s.fld SCH_SYNC_STATUS_STATE ≠ 2 then
      [flowItem 0x09 f f.src 0xFFFF f.headSlot f.headSlot]
    else []

/-- Every violation of a schedule (R133, R137); `number` is left out of the schedules it is compared with. DESIGN CHOICE (log entry
155): the runs that do not fit the slot region are counted as the bytes beyond it, 8 for each run. -/
def State.scheduleItems (s : State) (c : Schedule) (number : Nat) : List (List Byte) :=
  let runs := s.scheduleRuns c
  let g := s.admitGeometry
  let others := s.otherRuns number
  (if g = (c.slots, c.slotTicks) then [] else [reportItem 0x01 0xFFFF s.fid 0 0 0 0])
    ++ (c.flows.flatMap fun f => s.linkItems f)
    ++ (c.flows.flatMap fun f => routeKindItems f)
    ++ (c.flows.flatMap fun f => s.routeJoins f)
    ++ (runs.filterMap fun r => if 8 < r.2.2.2.2 - r.2.2.2.1 + 1 then
        (c.flows[r.1]?).map fun f => flowItem 0x05 f r.2.1 r.2.2.1 r.2.2.2.1 r.2.2.2.2 else none)
    ++ overlapItems c.flows others runs
    ++ (runs.filterMap fun r => if c.slots - tailSlots c.slots ≤ r.2.2.2.2 then
        (c.flows[r.1]?).map fun f => flowItem 0x07 f r.2.1 r.2.2.1 r.2.2.2.1 r.2.2.2.2 else none)
    ++ (c.flows.filterMap fun f => if f.flits < 1 ∨ 130 < f.flits then
        some (flowItem 0x08 f f.src ((f.path.map (·.2)).headD 0) f.headSlot f.headSlot) else none)
    ++ (c.flows.flatMap fun f => s.nestedItems c f)
    ++ (let all := others.map (fun o => (o.1, o.2.1)) ++ runs.map fun r => (r.2.1, r.2.2.1)
        if slotRegion < runListBytes all then
          [[BitVec.ofNat 8 0x0A, 0] ++ leBytes 2 0xFFFF ++ leBytes 4 s.fid.toNat
            ++ leBytes 4 ((runListBytes all - slotRegion + 7) / 8) ++ zeros 4]
        else [])

/-! ## Admitted schedules -/

/-- SCH_ADMIT.ADMITTED and UNFIT (R144). -/
def State.showAdmit (s : State) : State :=
  (s.setFld SCH_ADMIT_ADMITTED s.sch.admitted.length).setFld SCH_ADMIT_UNFIT
    (s.sch.admitted.countP fun a => a.unfit)

/-- Replaces an admitted schedule. -/
def State.setAdmitted (s : State) (a : Admitted) : State :=
  { s with sch := { s.sch with admitted := updateFirst (fun b => b.number == a.number) (fun _ => a) s.sch.admitted } }

/-- The schedule uses a link or a switch. -/
def scheduleUses (c : Schedule) (f : Fid) (port : Option Nat) : Bool :=
  c.flows.any fun x => x.path.any fun h => h.1 == f && (match port with | some p => h.2 == p | none => true)

/-- Items of a schedule whose installed runs no longer cover the computed ones (R136). -/
def unfitItems (flows : List Flow) (others : List (Fid × Nat × Nat × Nat))
    (inst now : List (Nat × Fid × Nat × Nat × Nat)) : List (List Byte) :=
  overlapItems flows others now ++ (inst.zip now).flatMap fun x =>
    let fl := flows.getD x.1.1 { src := 0, dest := 0, stream := 0, flits := 0, headSlot := 0, path := [] }
    let i := x.1.2.2.2
    let n := x.2.2.2.2
    (if i.2 < n.2 then [flowItem 0x0C fl x.1.2.1 x.1.2.2.1 (i.2 + 1) n.2] else [])
      ++ (if n.1 < i.1 then [flowItem 0x0C fl x.1.2.1 x.1.2.2.1 n.1 (i.1 - 1)] else [])
      ++ (if 8 < n.2 - n.1 + 1 then [flowItem 0x05 fl x.1.2.1 x.1.2.2.1 n.1 n.2] else [])

/-- The installed runs cover the computed ones. -/
def covers (inst now : List (Nat × Fid × Nat × Nat × Nat)) : Bool :=
  (inst.zip now).all fun x => decide (x.1.2.2.2.1 ≤ x.2.2.2.2.1 ∧ x.2.2.2.2.2 ≤ x.1.2.2.2.2)

/-- Marks a schedule unfit and issues its report: the lapse of R7, code 0x0001 (R136). DESIGN CHOICE (log entry 173): the report has
no completion record to stand in and leaves by itself. -/
def State.markUnfit (s : State) (a : Admitted) (report : List Byte) : State :=
  (((s.setAdmitted { a with unfit := true, report := report }).showAdmit).act (.unfitReport a.number report)).lapse 0x0001 a.number

/-- The widths of the links a schedule uses become the planned ones (R135, R136). -/
def State.planWidths (s : State) (c : Schedule) : State :=
  let uses := fun (f : Fid) (p : Nat) => c.flows.any fun x => x.path.any fun h => h == (f, p)
  { s with dom := { s.dom with links := s.dom.links.map fun l =>
    if (uses l.aId l.aPort || uses l.bId l.bPort) && l.usable then { l with planned := l.lanes } else l } }

/-- Re-runs admission of one schedule at the widths the links have now (R136). -/
def State.recheck (s : State) (a : Admitted) : State :=
  let now := s.scheduleRuns a.sched
  let others := s.otherRuns a.number
  if covers a.runs now then s.planWidths a.sched
  else s.markUnfit a ((unfitItems a.sched.flows others a.runs now).flatten)

/-- Re-runs admission for every schedule that uses a link end (R136). -/
def State.recheckLink (s : State) (f : Fid) (port : Nat) : State :=
  s.forEach (s.sch.admitted.filter fun a => scheduleUses a.sched f (some port)) fun s a => s.recheck a

/-- Every nested schedule is marked unfit when sync is lost, with a report of its nested routes (R137, R466). -/
def State.unfitNested (s : State) : State :=
  let l := s.sch.admitted.filter fun a => a.sched.nestedBudget.isSome && !a.unfit
  let s := s.forEach l fun s a => s.markUnfit a ((a.sched.flows.filter flowNested).flatMap fun f =>
    flowItem 0x09 f f.src 0xFFFF f.headSlot f.headSlot)
  if l.isEmpty then s else s.lapse 0x000B 0

end Sys2Proof.Machine
end

