-- ==== Sys2Proof/Machine/Links.lean ====
section
/-! DEFINITION. Frames on links: checks and counters (R82 to R91), sampling (R56, R57), routing (R79, R80, R147 to R152),
Express policing (R126), link-down (R66), credit frames (R90) and rekey (R86, R337). -/

namespace Sys2Proof.Machine

/-! ## Express policing (R120, R126) -/

/-- Polices an Express frame at an output port: the detail of the discard, or the run's key and flits passed. SCHED_TAG is
copied into no detail: R469 and R126 state the whole detail of these events (DESIGN CHOICE, log entry 147). -/
def State.police (s : State) (a : AgentRef) (inPort outPort : Nat) (h : Header) : BitVec 16 ⊕ (Nat × Nat) :=
  match s.runHead a outPort (s.jfld a JX_EPOCH_SLOT) with
  | none => .inl 0x0110
  | some (hd, w) =>
    if slotInPort w = inPort ∧ slotSrc w = h.src.localId ∧ slotStream w = h.stream.toNat then
      let passed := s.runPassed a outPort hd + h.units
      if slotFlits w < passed then .inl 0x0111 else .inr (s.jfld a JX_EPOCH_EPOCH_NUM * 4096 + hd, passed)
    else .inl 0x0110

/-! ## Sampling (R56, R57) -/

/-- The shift field of a class. -/
def sampleShift : PktClass → Field
  | .express => JX_SAMPLE_SHIFT_EXPRESS
  | .collective => JX_SAMPLE_SHIFT_COLLECTIVE
  | .bulk => JX_SAMPLE_SHIFT_BULK
  | .control => JX_SAMPLE_SHIFT_CONTROL

/-- A sample record: 48 bytes (R57). DESIGN CHOICE (log entry 146): class and shift take two bytes each of the last four. -/
def sampleRecord (h : Header) (ns port depth cls shift : Nat) : List Byte :=
  h.bytes ++ leBytes 8 ns ++ leBytes 2 port ++ leBytes 2 depth ++ leBytes 2 cls ++ leBytes 2 shift

/-- Records of a full samples packet (R57). -/
def samplesPerPacket : Nat := 85

/-- Sends the collected sample records in one Control packet (R57). -/
def State.flushSamples (s : State) (a : AgentRef) : State :=
  let l := (s.agent a).samples
  if l.isEmpty then s
  else
    let s := s.updAgent a fun g => { g with samples := [] }
    if s.mayReport a then s.sendMgmt (.agent a) (s.owner a) 0x35 ((l.flatMap (·.bytes)).take 4080) 0 false
    else s.satJfld a JX_SAMPLE_DROPPED l.length

/-- Samples packets of an agent that wait on its ports: its sample buffer (R57). -/
def State.samplesWaiting (s : State) (a : AgentRef) : Nat :=
  ((s.agent a).ports.map fun x => x.2.queue.countP fun q => q.pkt.hdr.typ == 0x35 && q.pkt.hdr.cls == .control
    && q.pkt.hdr.src == s.nodeFid (.agent a)).sum

/-- Adds a sample record; an orphan discards it, a full buffer of 64 packets drops it (R57). -/
def State.addSample (s : State) (a : AgentRef) (r : Sample) : State :=
  if s.orphan a ∨ 64 ≤ s.samplesWaiting a then s.satJfld a JX_SAMPLE_DROPPED 1
  else
    let s := s.updAgent a fun g => { g with samples := g.samples ++ [r] }
    if samplesPerPacket ≤ (s.agent a).samples.length then s.flushSamples a else s

/-- Samples one packet in every 2^n of its class at a port (R56). DESIGN CHOICE (log entry 146): the output queue depth of the
record is that of the port the packet arrived on. -/
def State.sample (s : State) (a : AgentRef) (port : Nat) (h : Header) : State :=
  let shift := s.jfld a (sampleShift h.cls)
  if shift = 0 then s
  else
    let x := s.port (.agent a) port
    let c := h.cls.code
    let n := x.sampleCount.getD c 0 + 1
    let hit := n % 2 ^ shift = 0
    let s := s.setPort (.agent a) port { x with sampleCount := listSet x.sampleCount c (n % 2 ^ shift) }
    if hit then s.addSample a { bytes := sampleRecord h (s.agentNow a) port x.depth c shift, atNs := s.agentNow a } else s

/-! ## Header checks (R84, R94, R98) -/

/-- TYPEs of the classes (R94, R98). -/
def typeAllowed (c : PktClass) (t : Nat) : Bool :=
  match c with
  | .express => t == 1 || t == 2
  | .bulk => (decide (1 ≤ t) && decide (t ≤ 4)) || (decide (8 ≤ t) && decide (t ≤ 10)) || t == 0x18
  | .collective => decide (0x10 ≤ t) && decide (t ≤ 0x12)
  | .control => t == 0 || (decide (2 ≤ t) && decide (t ≤ 4)) || (decide (8 ≤ t) && decide (t ≤ 10))
      || (decide (0x20 ≤ t) && decide (t ≤ 0x38))

/-- LENGTHs a TYPE fixes, where a rule fixes one (R57, R90, R96, R99 to R102, R105, R153, R227, R246, R270, R347, R368, R407,
R471). -/
def lengthAllowed (h : Header) : Bool :=
  let t := h.typ.toNat
  let len := h.length.toNat
  if t = 0x00 ∨ t = 0x03 ∨ t = 0x08 ∨ t = 0x09 ∨ t = 0x0A ∨ t = 0x12 ∨ t = 0x29 then len == 0
  else if t = 0x04 then decide (1 ≤ len)
  else if t = 0x23 ∨ t = 0x30 then len == 8
  else if t = 0x31 ∨ t = 0x38 then len == 16
  else if t = 0x2B ∨ t = 0x37 then len == 32
  else if t = 0x2F then len == 64
  else if t = 0x32 then len == 96
  else if t = 0x33 then decide (192 ≤ len)
  else if t = 0x25 then len % 8 == 0 && decide (8 ≤ len ∧ len ≤ 128)
  else if t = 0x2E then decide (16 ≤ len)
  else if t = 0x34 then len % 16 == 0 && decide (16 ≤ len ∧ len ≤ 128)
  else if t = 0x35 then len % 48 == 0 && decide (48 ≤ len ∧ len ≤ 4080)
  else if t = 0x36 then
    (match h.aux.toNat % 256 with
     | 0 => len == 64
     | 1 => len % 16 == 0 && decide (16 ≤ len)
     | 2 => len == 16
     | 3 => len == 16
     | _ => true)
  else true

/-- Detail of the header check that fails first, if any (R84). -/
def headerFault (h : Header) : Option (BitVec 16) :=
  if h.reserved ≠ 0 ∨ typeAllowed h.cls h.typ.toNat = false ∨ (h.bcast = true ∧ h.cls ≠ .control)
      ∨ (h.zblk = true ∧ h.cls ≠ .collective) ∨ (h.ord = true ∧ h.cls = .collective) then some 0x0103
  else if 4096 < h.length.toNat ∨ lengthAllowed h = false
      ∨ (h.zblk = true ∧ 0 < h.length.toNat) then some 0x0104
  else none

/-! ## Credit (R88 to R90, R463) -/

/-- Takes a received credit word (R89): credit grows by the difference to the last word, modulo 256. -/
def PortSt.takeCredit (x : PortSt) (w : BitVec 32) : PortSt :=
  let v : Pools := { control := bitsAt w.toNat 24 8, collData := bitsAt w.toNat 16 8
                     collShort := bitsAt w.toNat 8 8, bulk := bitsAt w.toNat 0 8 }
  let d := fun i => (v.get i + 256 - x.lastWord.get i % 256) % 256
  { x with credit := (((x.credit.add 0 (d 0)).add 1 (d 1)).add 2 (d 2)).add 3 (d 3), lastWord := v }

/-- Accounts for a received frame whose class is known (R90). -/
def PortSt.account (x : PortSt) (h : Header) : PortSt :=
  match poolOf h with
  | none => x
  | some i => if h.isCredit then x else { x with accounted := x.accounted.add i h.units }

/-- A frame leaves the pool of its input port, where it holds one. -/
def State.freeSource (s : State) (n : Node) (source : Option Nat) (h : Header) : State :=
  match source with
  | some p => s.freeUnits n p h
  | none => s

/-! ## Forwarding and delivery -/

/-- Discards a packet that finds no route or has no hop left, with the NAK its class gets where `nak` (R79, R84, R149); what it
held at its input port is freed. -/
def State.noRoute (s : State) (a : AgentRef) (port : Nat) (source : Option Nat) (h : Header) (detail : BitVec 16) (reason : Nat)
    (nak : Bool := true) : State :=
  let s := (s.discard (.agent a) port detail).freeSource (.agent a) source h
  if nak = false ∨ h.typ = 0x08 ∨ h.typ = 0x09 ∨ h.typ = 0x0A then s else s.nakPkt (.agent a) h reason

/-- Units of Express frames a port's ingress buffer holds (R128). -/
def PortSt.expressUnits (x : PortSt) : Nat := (x.express.map fun q => q.2.hdr.units).sum

/-- An Express frame whose head can reach the output port now is policed and leaves, or is discarded (R126). -/
def State.expressOut (s : State) (a : AgentRef) (inPort out : Nat) (k : Packet) : State :=
  match s.police a inPort out k.hdr with
  | .inl d => s.discard (.agent a) out d
  | .inr r => (s.setPort (.agent a) out { s.port (.agent a) out with runPassed := some r }).portSend (.agent a) out k

/-- A switch forwards an Express frame: behind a frame in progress it waits in the ingress buffer of its input port (R128). A
frame that finds that buffer full reaches no run (DESIGN CHOICE, log entry 143). -/
def State.forwardExpress (s : State) (a : AgentRef) (inPort out : Nat) (k : Packet) : State :=
  if (s.port (.agent a) out).linkFree s.now then s.expressOut a inPort out k
  else
    let x := s.port (.agent a) inPort
    if x.expressUnits + k.hdr.units ≤ 130 then s.setPort (.agent a) inPort { x with express := x.express ++ [(out, k)] }
    else s.discard (.agent a) out 0x0110

/-- Express frames of one ingress buffer whose output port has come free, in order of arrival (R128). -/
def State.serveIngress (s : State) (a : AgentRef) (inPort : Nat) : State :=
  let x := s.port (.agent a) inPort
  let go := x.express.filter fun q => (s.port (.agent a) q.1).linkFree s.now
  let s := s.setPort (.agent a) inPort { x with express := x.express.filter fun q => !(s.port (.agent a) q.1).linkFree s.now }
  s.forEach go fun s q => s.forwardExpress a inPort q.1 q.2

/-- The crossbar serves Express heads ahead of every other class (R128). -/
def State.serveExpress (s : State) (a : AgentRef) : State :=
  s.forEach ((s.agent a).ports.filter fun x => !x.2.express.isEmpty) fun s x => s.serveIngress a x.1

/-- Sends a packet on by the route table (R79, R80, R84, R126, R149). `inPort` is its input port, `source` the one whose pool it
holds. An Express packet whose fixed hop is down is discarded without a NAK. -/
def State.forward (s : State) (a : AgentRef) (inPort : Nat) (source : Option Nat) (p : Packet) : State :=
  if p.hdr.hops = 0 then s.noRoute a inPort source p.hdr 0x0105 0x08
  else match s.routeLocal a p.hdr.dest with
    | none => s.noRoute a inPort source p.hdr 0x0106 0x06
    | some loc =>
      match s.outHop a (s.route a loc) p.hdr with
      | none => s.noRoute a inPort source p.hdr 0x0106 0x06 (p.hdr.cls != .express)
      | some out =>
        let q := { p with hdr := { p.hdr with hops := p.hdr.hops - 1 } }
        if p.hdr.cls = .express ∧ a.variant = .s then s.forwardExpress a inPort out q
        else s.portSend (.agent a) out q source

/-- Child entries of the broadcast table: port and child (R152, R154). DESIGN CHOICE (log entry 148): an entry has no valid
bit; one that names a child fabric ID other than 0 is in use. -/
def Bank.children (b : Bank) : List (Nat × Fid) :=
  (b.bcast.filter fun x => decide (1 ≤ x.1 ∧ x.1 ≤ 512) && bitsAt x.2.toNat 0 32 != 0).map fun x =>
    (bitsAt x.2.toNat 55 9, BitVec.ofNat 32 (bitsAt x.2.toNat 0 32))

/-- Replicates a BCAST packet to every child (R152); `payload` is that of a copy. One that has no hop left is not forwarded
(R84). -/
def State.replicate (s : State) (a : AgentRef) (inPort : Nat) (p : Packet) (payload : List Byte) : State :=
  if (s.agent a).active.children.isEmpty then s
  else if p.hdr.hops = 0 then s.noRoute a inPort none p.hdr 0x0105 0x08
  else s.forEach (s.agent a).active.children fun s c =>
    let q := Packet.seal { p with hdr := { p.hdr with dest := c.2, hops := p.hdr.hops - 1 }, payload := payload }
    if s.portUsable (.agent a) c.1 then s.portSend (.agent a) c.1 q
    else s.forward a inPort none { q with hdr := { q.hdr with hops := p.hdr.hops } }

/-- A management packet that an agent in discovery still takes and sends (R78). -/
def State.inDiscovery (s : State) (a : AgentRef) : Bool := s.nodeFid (.agent a) == noFid

/-- The packet is addressed to this agent, or comes to it as a discovery request or claim before it has an ID (R78). -/
def State.forMe (s : State) (a : AgentRef) (h : Header) : Bool :=
  h.dest == s.nodeFid (.agent a) || h.typ == 0x26
    || (h.cls == .control && (h.typ == 0x20 || (h.typ == 0x33 && s.inDiscovery a)) )

/-- A frame is in scrub mode's way: a tenant frame of a device under scrub (R346). -/
def PortSt.scrubBlocks (x : PortSt) (h : Header) : Bool :=
  h.partition != 0 && x.scrub.any fun f => h.src == f || h.dest == f

/-- A frame discarded in scrub mode counts at the SEC block and for the devices it names (R348, R357; log entry 170). -/
def State.countScrub (s : State) (x : PortSt) (h : Header) : State :=
  let ids := (x.scrub.filter fun f => h.src == f || h.dest == f).map (·.localId)
  let devs := s.sec.devs.mapVals fun e d => if ids.contains e then { d with dropped := d.dropped + 1 } else d
  ({ s with sec := { s.sec with devs := devs } } : State).satFld SEC_SCRUB_DROPPED 1

/-- An agent routes or delivers a packet that passed the header checks, and replicates a BCAST one (R78, R149, R152). A
beacon's replicas carry its accumulated correction and leave with the BEACON command. DESIGN CHOICE (log entry 149): a packet
that R78 has an agent discard is recorded with detail 0x0106. -/
def State.agentTake (s : State) (a : AgentRef) (port : Nat) (p : Packet) : State :=
  if p.hdr.homeless ∨ (s.inDiscovery a ∧ !(p.hdr.cls == .control && (p.hdr.typ == 0x20 || p.hdr.typ == 0x33))) then
    (s.discard (.agent a) port 0x0106).freeUnits (.agent a) port p.hdr
  else if s.forMe a p.hdr then
    let s := (s.emit (.delivered (.agent a) port p)).freeUnits (.agent a) port p.hdr
    if p.hdr.bcast = true ∧ p.hdr.typ ≠ 0x32 ∧ p.crcOk = true then s.replicate a port p p.payload else s
  else s.forward a port (some port) p

/-- Adds to a counter of LNK_FEC, saturating (R91). -/
def sat32 (x n : Nat) : Nat := min (x + n) 0xFFFFFFFF

/-- A port after a frame passed FEC, counter check and decryption (R83 to R85, R89 to R91, R336): the key in force from its
activation counter on, per-key counts, the credit word, and the units it takes in its pool. -/
def PortSt.taken (x : PortSt) (f : Frame) : PortSt :=
  let act := match x.rxAct with | some c => decide (c ≤ f.ctr.toNat) | none => false
  let x := { x with lastRx := some f.ctr.toNat, corrected := sat32 x.corrected f.corrected
                    rxFrames := if act then 1 else x.rxFrames + 1, rxKey := if act then x.rxNext else x.rxKey
                    rxAct := if act then none else x.rxAct, key := if act && x.txAct.isNone then 2 else x.key
                    rxBoot := x.rxBoot && !act }
  (x.takeCredit f.credit).account f.pkt.hdr

/-- The frame is one of a sleep handshake or its acknowledgement, which do not keep a port awake (R429). -/
def PortSt.sleepTalk (x : PortSt) (h : Header) : Bool := h.typ == 0x26 || (h.typ == 0x08 && h.src == x.farId)

/-- The credit audit of a credit frame (R90): the difference to what was accounted for is accounted for and freed. -/
def PortSt.audit (x : PortSt) (h : Header) : PortSt :=
  let a := h.addr.toNat
  let v : Pools := { control := bitsAt a 32 16, collData := bitsAt a 16 16, collShort := bitsAt a 0 16
                     bulk := bitsAt h.aux.toNat 0 16 }
  let d := fun i => (v.get i + 65536 - x.accounted.get i % 65536) % 65536
  { x with accounted := (((x.accounted.add 0 (d 0)).add 1 (d 1)).add 2 (d 2)).add 3 (d 3)
           freed := (((x.freed.add 0 (d 0)).add 1 (d 1)).add 2 (d 2)).add 3 (d 3) }

/-- A frame reaches a port: FEC, counter check and decryption in this order; the first step that fails discards it (R84, R85).
An event for which R84 and R469 state no code carries detail 0. -/
def State.frameIn (s : State) (n : Node) (port : Nat) (f : Frame) (body : State → State) : State :=
  let x := s.port n port
  if f.fecOk = false then
    (s.setPort n port { x with uncorrectable := sat32 x.uncorrectable 1 }).discard n port 0x0000
  else if (match x.lastRx with | some c => decide (f.ctr.toNat ≤ c) | none => false) then
    (s.setPort n port { x with corrected := sat32 x.corrected f.corrected }).discard n port 0x0102
  else if f.tagOk = false then (s.setPort n port { x with corrected := sat32 x.corrected f.corrected }).discard n port 0x0101
  else body (s.setPort n port (x.taken f))

/-- A credit frame is consumed by its port (R90). -/
def State.takeCreditFrame (s : State) (n : Node) (port : Nat) (h : Header) : State :=
  ((s.setPort n port ((s.port n port).audit h)).pumpPort n port).returnCredit n port

/-- A frame of a packet after decryption: header checks, scrub mode and sampling, then routing or delivery (R84, R336, R346). -/
def State.takeFrame (s : State) (n : Node) (port : Nat) (p : Packet) : State :=
  let h := p.hdr
  let x := s.port n port
  let x := if x.sleepTalk h then x else { x with lastFrameNs := s.nodeNow n, sleepAsked := false }
  let s := ((s.setPort n port x).wakeAgentPort n port).pumpPort n port
  match (if x.rxBoot ∧ h.cls ≠ .control then some 0x0103 else headerFault h) with
  | some d => (s.discard n port d).freeUnits n port h
  | none =>
    if x.scrubBlocks h then ((s.discard n port 0x0120 0).countScrub x h).freeUnits n port h
    else match n with
      | .ctl => ((s.noteTraffic n port h).emit (.delivered .ctl port p)).freeUnits .ctl port h
      | .agent a => ((s.noteTraffic n port h).sample a port h).agentTake a port p

/-- FRAME_RECEIVE (R84, R85, R89, R336, R346). -/
def execFrameReceive (n : Node) (port : Nat) (f : Frame) (s : State) : Answer :=
  .next (s.frameIn n port f fun s =>
    if f.pkt.hdr.isCredit then s.takeCreditFrame n port f.pkt.hdr else s.takeFrame n port f.pkt)

/-- CREDIT_FRAME (R90): the receiver compares the audit fields with what it accounted for and frees the difference. -/
def execCreditFrame (n : Node) (port : Nat) (f : Frame) (s : State) : Answer :=
  .next (s.frameIn n port f fun s => s.takeCreditFrame n port f.pkt.hdr)

/-- CREDIT_FRAME_TIMER (R90): a credit frame while any pool has credit outstanding. -/
def execCreditFrameTimer (n : Node) (port : Nat) (s : State) : Answer :=
  if s.portUp n port ∧ [0, 1, 2, 3].any (fun i => decide ((s.port n port).credit.get i < poolSizes.get i)) then
    .next (s.sendCredit n port)
  else .next s

/-! ## Link down and rekey (R66, R86, R337) -/

/-- Detail of the cause that declared a link down (R469). -/
def linkDownDetail : LinkDownCause → BitVec 16
  | .blockLock => 0x0201
  | .codewords => 0x0202
  | .noCodeword => 0x0203

/-- PORTS_UP of an agent (R70). -/
def State.showPortsUp (s : State) (n : Node) : State :=
  match n with
  | .ctl => s
  | .agent a => s.setJfld a JX_STATUS_PORTS_UP ((s.agent a).ports.countIf fun _ x => x.state == 2 || x.state == 3)

/-- PWR_PORTS (R435). -/
def State.showPorts (s : State) : State :=
  let c := fun (f : PortSt → Bool) => s.ports.countIf fun _ x => f x
  (((s.setFld PWR_PORTS_SLEEPING (c fun x => x.state == 6)).setFld PWR_PORTS_UP (c fun x => x.state == 2)).setFld
    PWR_PORTS_DEGRADED (c fun x => x.state == 3)).setFld PWR_PORTS_FAILED (c fun x => x.state == 4 || x.state == 5)

/-- A port as a retrain leaves it before training ends: counters, credit and queue start again (R39, R90); keys and
PKT_CTR are kept (R434). -/
def PortSt.retrain (x : PortSt) : PortSt :=
  { x with state := 1, lanes := 0, queue := [], depth := 0, sent := {}, accounted := {}, freed := {}, freedSent := {}
           lastWord := {}, credit := {}, withheld := 0, runPassed := none, bucket := 66560, sleepAsked := false
           busyPs := 0, express := [], collShare := 0, carried := true, quietEpochs := 0 }

/-- A port of a node retrains: what its queue held is lost, and freed at the input ports it came from (R39, R89). -/
def State.resetPort (s : State) (n : Node) (p : Nat) : State :=
  let l := (s.port n p).queue
  (s.setPort n p { (s.port n p).retrain with trainNs := s.now }).forEach l fun s q => s.freeSource n q.source q.pkt.hdr

/-- PWR_WAKE_STATUS.QUEUED (R435). -/
def State.showWakes (s : State) : State := s.setFld PWR_WAKE_STATUS_QUEUED (min s.pwr.wakeQ.length 255)

/-- A request to wake the lanes of a controller port (R431, R432, R437): dropped while the port's die is in partial reset,
merged with one that waits. -/
def State.queueWake (s : State) (port cls : Nat) : State :=
  if s.pwr.resets.any fun x => x.1 == 15 + port / 3 then s
  else
    let x := s.port .ctl port
    let l :=
      if s.pwr.wakeQ.any fun w => w.port == port then
        s.pwr.wakeQ.map fun (w : WakeReq) => if w.port = port then { w with cls := min w.cls cls } else w
      else s.pwr.wakeQ ++ [{ port := port, cls := cls, lanes := if x.state = 6 then x.lanes else x.planned, order := s.pwr.wakeOrder }]
    ({ s with pwr := { s.pwr with wakeQ := l, wakeOrder := s.pwr.wakeOrder + 1 } } : State).showWakes

/-- A port goes down and retrains (R66, R426), with the event. A link down opens the shadow of a port retrain (R374). -/
def State.portDown (s : State) (n : Node) (port : Nat) (detail : BitVec 16) : State :=
  let s := (s.resetPort n port).showPortsUp n
  let s := match n with | .ctl => s.showPorts.queueWake port 0 | .agent _ => s
  let s := s.raiseAt n (128 + port / 8) 12 3 port detail
  let origin := s.nodeFid n
  { s with col := { s.col with shadows := s.col.shadows ++
    [{ kind := 64, origin := origin, port := port, openNs := s.now + 1 }] } }

/-- LINK_DOWN (R66): the port declares the link down and emits the severity 3 event with the cause. -/
def execLinkDown (n : Node) (port : Nat) (cause : LinkDownCause) (s : State) : Answer :=
  if s.portUsable n port then .next (s.portDown n port (linkDownDetail cause)) else .next s

/-- REKEY_OVERRUN (R86): the port stops emitting, declares the link down, severity 3 with detail 0x0107. -/
def execRekeyOverrun (n : Node) (port : Nat) (s : State) : Answer :=
  let s := s.portDown n port 0x0107
  .next (s.setPort n port { s.port n port with overrun := true })

end Sys2Proof.Machine
end

