-- ==== Sys2Proof/Machine/Tables.lean ====
section
/-! DEFINITION. Table banks, installs, staging and plays at an agent (R45 to R50, R120 to R122, R147 to R161, R235 to R238,
R294 to R297, R472). -/

namespace Sys2Proof.Machine

/-! ## Patches (R154) -/

/-- A patch: kind, port, start and entries as numbers. -/
structure Patch where
  kind : Nat
  port : Nat
  start : Nat
  count : Nat
  entries : List Nat
deriving DecidableEq, Repr

/-- Bytes of one entry of a kind (R154, R235, R294). -/
def entryBytes (kind : Nat) : Nat :=
  match kind with
  | 1 => 64
  | 2 => 8
  | 4 => 8
  | 5 => 8
  | 6 => 16
  | 7 => 64
  | _ => 0

/-- Cuts bytes into `n` big-endian numbers of `w` bytes. -/
def beList (w : Nat) : Nat → List Byte → List Nat
  | 0, _ => []
  | n + 1, l => beNat (l.take w) :: beList w n (l.drop w)

/-- Entries in the table of a kind at a variant: a patch must lie inside (R38, R79, R152, R154, R235, R294). -/
def tableSize (v : Variant) (kind : Nat) : Nat :=
  match kind with
  | 1 => 65536
  | 2 => 4096
  | 3 => 4096
  | 4 => 513
  | 5 => 1025
  | 6 => 65536
  | 7 => (match v with | .s => 65536 | .e => 0)
  | _ => 0

/-- A broadcast or domain-map entry keeps to its fields (R154). -/
def entryFieldsOk (kind e : Nat) : Bool :=
  if kind = 4 then bitsAt e 32 23 == 0
  else if kind = 5 then bitsAt e 48 15 == 0 && bitsAt e 16 16 == 0
  else true

/-- Reads the patches of a payload; `none` where one breaks R154. -/
def parsePatches (v : Variant) : Nat → List Byte → Option (List Patch)
  | 0, l => if l.isEmpty then some [] else none
  | n + 1, l =>
    if l.isEmpty then some []
    else if l.length < 8 then none
    else
      let h := beNat (l.take 8)
      let kind := bitsAt h 60 4
      let port := bitsAt h 51 9
      let start := bitsAt h 32 16
      let count := bitsAt h 16 16
      let w := entryBytes kind
      let rest := l.drop 8
      let es := if w = 0 then [] else beList w count rest
      if kind = 0 ∨ 7 < kind ∨ bitsAt h 48 3 ≠ 0 ∨ bitsAt h 0 16 ≠ 0 ∨ count = 0 ∨ (port ≠ 0 ∧ kind ≠ 2 ∧ kind ≠ 3)
          ∨ maxPorts v ≤ port ∨ tableSize v kind < start + count ∨ rest.length < w * count
          ∨ es.all (entryFieldsOk kind) = false then none
      else match parsePatches v n (rest.drop (w * count)) with
        | some t => some (⟨kind, port, start, count, es⟩ :: t)
        | none => none

/-- Writes an entry; an entry of all zeros is not listed. -/
def setEntry {w : Nat} (m : NMap (BitVec w)) (i v : Nat) : NMap (BitVec w) :=
  if BitVec.ofNat w v = 0 then m.erase i else m.set i (BitVec.ofNat w v)

/-- Writes entries from an index on. -/
def setEntries {w : Nat} (m : NMap (BitVec w)) (i : Nat) : List Nat → NMap (BitVec w)
  | [] => m
  | v :: t => setEntries (setEntry m i v) (i + 1) t

/-- Applies one patch to a bank (R154). -/
def Bank.patch (b : Bank) (p : Patch) : Bank :=
  match p.kind with
  | 1 => { b with routes := setEntries b.routes p.start p.entries }
  | 2 => { b with slots := setEntries b.slots (p.port * 4096 + p.start) p.entries }
  | 3 => { b with slots := setEntries b.slots (p.port * 4096 + p.start) (List.replicate p.count 0) }
  | 4 => { b with bcast := setEntries b.bcast p.start p.entries }
  | 5 => { b with dmap := setEntries b.dmap p.start p.entries }
  | 6 => { b with trees := setEntries b.trees p.start p.entries }
  | _ => { b with places := setEntries b.places p.start p.entries }

/-- Applies patches in order. -/
def Bank.patches (b : Bank) (l : List Patch) : Bank := l.foldl Bank.patch b

/-! ## Checks before commit -/

/-- SCHED_TAG of a slot entry (R120). -/
def slotTag (w : Word64) : Nat := bitsAt w.toNat 0 8

/-- A continuation carries its head's IN_PORT, SRC_LOCAL, STREAM and SCHED_TAG (R121). -/
def contMatches (hd c : Word64) : Bool :=
  slotKind c == 2 && slotInPort c == slotInPort hd && slotSrc c == slotSrc hd && slotStream c == slotStream hd
    && slotTag c == slotTag hd

/-- One slot entry passes the check of R122, in its table and an epoch of `slots` slots. -/
def slotOkAt (m : NMap Word64) (slots key : Nat) (w : Word64) : Bool :=
  let port := key / 4096
  let i := key % 4096
  match slotKind w with
  | 0 => true
  | 1 => decide (i + slotRun w < slots) && (List.range (slotRun w)).all fun k => contMatches w (m.getD (port * 4096 + i + k + 1) 0)
  | 2 => (List.range 7).any fun k => decide (k + 1 ≤ i) &&
      (let hd := m.getD (port * 4096 + i - (k + 1)) 0; slotKind hd == 1 && decide (k + 1 ≤ slotRun hd) && contMatches hd w)
  | _ => false

/-- The slot tables pass R122. -/
def Bank.slotsOk (b : Bank) (slots : Nat) : Bool := b.slots.all fun x => slotOkAt b.slots slots x.1 x.2

/-- A route entry keeps R148. -/
def routeOk (e : BitVec 512) : Bool :=
  let c := ctlWord e
  bitsAt c 59 2 == 0 && bitsAt c 0 53 == 0 && decide (routeFixed e ≤ routeNhops e) && e.toNat % 2 ^ 192 == 0
    && (List.range 8).all fun i => if i ≤ routeNhops e then hopWord e i % 2 ^ 15 == 0 else hopWord e i == 0

/-- Routes and domain map pass R148 and R151. -/
def Bank.routesOk (b : Bank) : Bool :=
  b.routes.all (fun x => routeOk x.2)
    && b.dmap.all fun x => bitsAt x.2.toNat 63 1 == 0 || routeGateway (b.routes.getD (bitsAt x.2.toNat 0 16) 0)

/-- Fields of a head entry (R235) and of a child entry (R236). -/
def treeType (e : BitVec 128) : Nat := bitsAt e.toNat 126 2
def headRole (e : BitVec 128) : Nat := bitsAt e.toNat 124 2
def headLocal (e : BitVec 128) : Bool := bitsAt e.toNat 123 1 == 1
def headChildren (e : BitVec 128) : Nat := bitsAt e.toNat 112 8
def headIndex (e : BitVec 128) : Nat := bitsAt e.toNat 104 8
def headParentPort (e : BitVec 128) : Nat := bitsAt e.toNat 95 9
def headTree (e : BitVec 128) : BitVec 24 := BitVec.ofNat 24 (bitsAt e.toNat 60 24)
def headPartition (e : BitVec 128) : BitVec 12 := BitVec.ofNat 12 (bitsAt e.toNat 48 12)
def headParent (e : BitVec 128) : Fid := BitVec.ofNat 32 (bitsAt e.toNat 16 32)
def childPort (e : BitVec 128) : Nat := bitsAt e.toNat 96 9
def childId (e : BitVec 128) : Fid := BitVec.ofNat 32 (bitsAt e.toNat 64 32)

/-- Head entries of a bank, with their indexes. -/
def Bank.heads (b : Bank) : List (Nat × BitVec 128) := b.trees.filter fun x => treeType x.2 == 1

/-- Child entries of the head at an index. -/
def Bank.childrenOf (b : Bank) (i : Nat) (hd : BitVec 128) : List (BitVec 128) :=
  (List.range (headChildren hd)).map fun k => b.trees.getD (i + k + 1) 0

/-- The head of a tree (R235). -/
def Bank.head (b : Bank) (t : BitVec 24) : Option (Nat × BitVec 128) := b.heads.find? fun x => headTree x.2 == t

/-- A head and what follows it pass R238 at a variant. -/
def headOk (v : Variant) (b : Bank) (i : Nat) (e : BitVec 128) : Bool :=
  (b.childrenOf i e).all (fun c => treeType c == 2)
    && treeType (b.trees.getD (i + headChildren e + 1) 0) != 2
    && headRole e != 3
    && (headRole e != 1 || headParentPort e == 0x1FF)
    && (headRole e != 2 || (headChildren e == 0 && headLocal e))
    && (match v with | .s => !headLocal e && headRole e != 2 | .e => true)

/-- A child entry follows a head that counts it (R238). -/
def childHasHead (b : Bank) (i : Nat) : Bool :=
  b.heads.any fun x => decide (x.1 < i ∧ i ≤ x.1 + headChildren x.2)

/-- Tree tables pass R238. -/
def Bank.treesOk (v : Variant) (b : Bank) : Bool :=
  b.trees.all (fun x => treeType x.2 != 3 && (treeType x.2 != 1 || headOk v b x.1 x.2)
      && (treeType x.2 != 2 || childHasHead b x.1))
    && decide (b.heads.length ≤ 4096) && decide ((b.heads.map fun x => headTree x.2).Nodup)

/-- Words of a layer entry and fields (R295). -/
def layerWord (e : BitVec 512) (i : Nat) : Nat := e.toNat / 2 ^ (448 - 64 * i) % 2 ^ 64
def layerValid (e : BitVec 512) : Bool := bitsAt (layerWord e 0) 63 1 == 1
def layerPartition (e : BitVec 512) : Nat := bitsAt (layerWord e 0) 48 12
def layerNumber (e : BitVec 512) : Nat := bitsAt (layerWord e 0) 32 16
def layerBase (e : BitVec 512) : Nat := bitsAt (layerWord e 0) 16 16
def layerExperts (e : BitVec 512) : Nat := bitsAt (layerWord e 0) 0 13
def layerKmax (e : BitVec 512) : Nat := bitsAt (layerWord e 1) 60 4

/-- Replica word `i` of an expert entry and fields (R296). -/
def replicaWord (e : BitVec 512) (i : Nat) : Nat := e.toNat / 2 ^ (480 - 32 * i) % 2 ^ 32
def replicaValid (w : Nat) : Bool := bitsAt w 31 1 == 1
def replicaTier (w : Nat) : Nat := bitsAt w 30 1
def replicaEndpoint (w : Nat) : Nat := bitsAt w 15 15
def replicaShare (w : Nat) : Nat := bitsAt w 3 12

/-- An expert entry passes R297. -/
def expertOk (e : BitVec 512) : Bool :=
  let l := (List.range 16).map (replicaWord e)
  l.all (fun w => replicaValid w || w == 0) && decide (((l.filter replicaValid).map replicaEndpoint).Nodup)

/-- Two valid layer entries agree with R297. -/
def layersDisjoint (a b : BitVec 512) : Bool :=
  !(layerPartition a == layerPartition b && layerNumber a == layerNumber b)
    && (decide (layerBase a + layerExperts a ≤ layerBase b) || decide (layerBase b + layerExperts b ≤ layerBase a))

/-- Placement tables pass R297. -/
def Bank.placesOk (b : Bank) : Bool :=
  let ls := (b.places.filter fun x => decide (x.1 < 1024) && layerValid x.2).map (·.2)
  ls.all (fun e => decide (1024 ≤ layerBase e ∧ layerBase e + layerExperts e ≤ 65536 ∧ 1 ≤ layerKmax e ∧ layerKmax e ≤ 8))
    && decide (ls.Pairwise fun a b => layersDisjoint a b = true)
    && (b.places.filter fun x => decide (1024 ≤ x.1)).all fun x => expertOk x.2

/-- The source of the first check a bank fails: 35 (R122), 36 (R151), 37 (R238), 38 (R297). -/
def Bank.fault (v : Variant) (slots : Nat) (b : Bank) : Option Nat :=
  if b.slotsOk slots = false then some 35
  else if b.routesOk = false then some 36
  else if b.treesOk v = false then some 37
  else if b.placesOk = false then some 38
  else none

/-! ## Banks of an agent -/

/-- Writes an INSTALL payload into the shadow bank; a patch that breaks R154 marks the install (R151). -/
def Agent.writeShadow (g : Agent) (v : Variant) (payload : List Byte) : Agent :=
  match parsePatches v payload.length payload with
  | some l => { g with shadow := g.shadow.patches l }
  | none => { g with shadowBad := some 36 }

/-- The shadow bank is copied afresh from the active bank (R45, R50, R155). -/
def Agent.recopy (g : Agent) : Agent := { g with shadow := g.active, shadowHolds := none, shadowBad := none, deferred := [] }

/-- Ends a copy: the patches acknowledged while it ran are applied (R45). -/
def Agent.finishCopy (g : Agent) (v : Variant) : Agent :=
  if g.copying then (g.deferred.foldl (fun g p => g.writeShadow v p) { g with copying := false, deferred := [] }) else g

/-- SHADOW_COPY_DONE (R45). -/
def execShadowCopyDone (a : AgentRef) (s : State) : Answer :=
  .next (s.updAgent a fun g => g.finishCopy a.variant)

/-- INSTALL_VERSION of an agent (R70). -/
def State.version (s : State) (a : AgentRef) : BitVec 32 := BitVec.ofNat 32 (s.jfld a JX_STATUS_INSTALL_VERSION)

/-- Low 16 bits of a version, as an event's detail (R469). -/
def low16 (v : BitVec 32) : BitVec 16 := v.setWidth 16

/-- Discards the install in the shadow bank with the event on source 34, and recopies (R50, R155, R469). -/
def State.discardInstall (s : State) (a : AgentRef) : State :=
  let g := s.agent a
  match g.shadowHolds, g.commitAt with
  | some w, _ => (s.updAgent a fun g => { g.recopy with copying := true, commitAt := none }).raiseAgent a 34 2 (low16 w)
  | none, some (v, _) => (s.updAgent a fun g => { g with commitAt := none }).raiseAgent a 34 2 (low16 v)
  | none, none => s

/-- The effect of an INSTALL message of version V (R155). -/
def State.takeInstall (s : State) (a : AgentRef) (v : BitVec 32) (payload : List Byte) : State × Option Nat :=
  let g := s.agent a
  if g.play.isSome ∨ v = s.version a then (s, some 0x09)
  else
    let s := if g.shadowHolds = none ∨ g.shadowHolds = some v then s else s.discardInstall a
    (s.updAgent a fun g => { (if g.copying then { g with deferred := g.deferred ++ [payload] }
      else g.writeShadow a.variant payload) with shadowHolds := some v }, none)

/-- INSTALL (R155, R45, R50, R58, R472). -/
def execInstall (a : AgentRef) (p : Packet) (s : State) : Answer :=
  .next (s.fromOwner a p fun s => s.accept (.agent a) p fun s =>
    s.takeInstall a (BitVec.ofNat 32 (bitsAt p.hdr.addr.toNat 0 32)) p.payload)

/-- Epoch `e` has begun at the agent: it is not later than the current one, modulo 2^32 (R46, R153). -/
def State.epochBegun (s : State) (a : AgentRef) (e : BitVec 32) : Bool :=
  !seqLater e (BitVec.ofNat 32 (s.jfld a JX_EPOCH_EPOCH_NUM))

/-- The effect of a COMMIT for V at an epoch (R155, R46, R122, R151, R238, R297). -/
def State.takeCommit (s : State) (a : AgentRef) (v e : BitVec 32) : State × Option Nat :=
  let g := s.agent a
  if s.epochBegun a e then (s.raiseAgent a 33 2 (low16 v), some 0x09)
  else if g.play.isSome then (s, some 0x09)
  else if g.shadowHolds = none ∧ v = s.version a then (s, none)
  else if g.shadowHolds = none ∨ g.shadowHolds = some v then
    let f := g.finishCopy a.variant
    let bad := match f.shadowBad with
      | some x => some x
      | none => f.shadow.fault a.variant (match f.pendingGeometry with | some (n, _, _) => n | none => f.geometry.1)
    match bad with
    | some src => (s.raiseAgent a src 2 (low16 v), some 0x09)
    | none => (s.updAgent a fun g => { g with commitAt := some (v, e) }, none)
  else (s, some 0x09)

/-- COMMIT (R155). -/
def execCommit (a : AgentRef) (p : Packet) (s : State) : Answer :=
  .next (s.fromOwner a p fun s => s.accept (.agent a) p fun s =>
    s.takeCommit a (BitVec.ofNat 32 (bitsAt p.hdr.addr.toNat 0 32)) (BitVec.ofNat 32 (leAt p.payload 0 4)))

/-! ## Staging (R48, R153, R158, R160) -/

/-- A staging slot. -/
def State.staged (s : State) (a : AgentRef) (slot : Nat) : Staged := (s.agent a).staged.getD slot {}

/-- Bit `slot` of JX_GAMBIT_STAGED (R71). -/
def State.setValid (s : State) (a : AgentRef) (slot : Nat) (b : Bool) : State :=
  let w := s.jx a JX_GAMBIT_STAGED
  let m : Word64 := BitVec.ofNat 64 (2 ^ slot)
  s.setJx a JX_GAMBIT_STAGED (if b then w ||| m else w &&& ~~~m)

/-- Replaces a staging slot. -/
def State.setStaged (s : State) (a : AgentRef) (slot : Nat) (x : Staged) : State :=
  (s.updAgent a fun g => { g with staged := g.staged.set slot x }).setValid a slot x.valid

/-- Fields of a section header (R158). -/
def sectionGambit (m : Memory) : BitVec 24 := BitVec.ofNat 24 (leNat (m.readBytes 4 4))
def sectionBase (m : Memory) : BitVec 32 := BitVec.ofNat 32 (leNat (m.readBytes 8 4))
def sectionBytes (m : Memory) : Nat := leNat (m.readBytes 12 4)
def sectionCrc (m : Memory) : Nat := leNat (m.readBytes 28 4)

/-- How far the writes that arrived cover a slot without a gap from a byte on (R48). -/
def coveredTo (l : List (Nat × Nat)) : Nat → Nat → Nat
  | 0, r => r
  | k + 1, r =>
    match l.find? fun x => decide (x.1 ≤ r ∧ r < x.1 + x.2) with
    | some x => coveredTo l k (x.1 + x.2)
    | none => r

/-- The whole section has arrived and its CRC-32C matches, the field taken as zero (R48, R158). -/
def sectionOk (m : Memory) (arrived : List (Nat × Nat)) (limit : Nat) : Bool :=
  let n := sectionBytes m
  decide (32 ≤ n ∧ n ≤ limit ∧ n ≤ coveredTo arrived arrived.length 0) && crc32c (m.readBytes 0 28 ++ zeros 4 ++ m.readBytes 32 (n - 32)) == sectionCrc m

/-- Operation and slot of a STAGE message (R153). -/
def stageOp (h : Header) : Nat := bitsAt h.aux.toNat 22 2
def stageSlot (h : Header) : Nat := bitsAt h.aux.toNat 16 6

/-- The effect of a STAGE write (R48, R160): refused into a valid slot or beyond the slot; the write at offset 0 tags. The
slot becomes valid once the whole section has arrived and its CRC matches. -/
def State.takeStage (s : State) (a : AgentRef) (h : Header) (payload : List Byte) : State × Option Nat :=
  let slot := stageSlot h
  let off := bitsAt h.addr.toNat 0 18
  let x := s.staged a slot
  if x.valid ∨ slotBytes a.variant < off + payload.length ∨ stageOp h = 3 then (s, some 0x09)
  else
    let m := x.bytes.writeBytes off payload
    let tag := if off = 0 then some (sectionGambit m) else x.tag
    let arrived := x.arrived ++ [(off, payload.length)]
    let ok := tag.isSome && sectionOk m arrived (slotBytes a.variant)
    (s.setStaged a slot { tag := tag, valid := ok, base := if ok then sectionBase m else x.base, bytes := m, arrived := arrived }, none)

/-- STAGE_WRITE (R48, R58, R472). -/
def execStageWrite (a : AgentRef) (p : Packet) (s : State) : Answer :=
  .next (s.fromOwner a p fun s => s.accept (.agent a) p fun s => s.takeStage a p.hdr p.payload)

/-- STAGE_INVALIDATE (R160): clears tag and valid bit. -/
def execStageInvalidate (a : AgentRef) (p : Packet) (s : State) : Answer :=
  .next (s.fromOwner a p fun s => s.accept (.agent a) p fun s => (s.setStaged a (stageSlot p.hdr) {}, none))

/-- STAGE_REBASE (R153): a new base version on the masked slots that are tagged. -/
def execStageRebase (a : AgentRef) (p : Packet) (s : State) : Answer :=
  let mask := leAt p.payload 0 8
  let v : BitVec 32 := BitVec.ofNat 32 (bitsAt p.hdr.addr.toNat 0 32)
  .next (s.fromOwner a p fun s => s.accept (.agent a) p fun s =>
    (s.forEach ((List.range 64).filter fun i => bitsAt mask i 1 == 1) fun s i =>
      let x := s.staged a i
      if x.tag.isSome then s.setStaged a i { x with base := v } else s, none))

/-- STAGED_SLOT_ECC_ERROR (R160): the valid bit clears, the tag stays, and what had arrived is lost. -/
def execStagedSlotEccError (a : AgentRef) (slot : BitVec 6) (s : State) : Answer :=
  let x := s.staged a slot.toNat
  .next (s.setStaged a slot.toNat { x with valid := false, bytes := [], arrived := [] })

/-! ## Play (R49, R50, R153, R161, R165, R284) -/

/-- The gambits a PLAY lists, the header entry first: identity and slot (R153). -/
def playList (p : Packet) : List (BitVec 24 × Nat) :=
  let n := leAt p.payload 4 2
  (BitVec.ofNat 24 (bitsAt p.hdr.addr.toNat 33 24), bitsAt p.hdr.aux.toNat 18 6) ::
    (List.range (min n 15)).map fun i => (BitVec.ofNat 24 (leAt p.payload (8 + 8 * i) 4), leAt p.payload (12 + 8 * i) 1 % 64)

/-- PLAY_PENDING and the pending play go, the shadow bank is recopied (R50). -/
def State.cancelPlay (s : State) (a : AgentRef) : State :=
  if (s.agent a).play.isNone then s
  else (s.updAgent a fun g => { g.recopy with play := none }).setJfld a JX_STATUS_PLAY_PENDING 0

/-- A Jexjan-E that accepts a PLAY resets the attempts of its Express packets and of its chunks, and counts none until the
swap (R165, R284). -/
def State.suspendAttempts (s : State) (a : AgentRef) (swap : BitVec 32) : State :=
  match a.variant with
  | .s => s
  | .e => s.updAgent a fun g => { g with
      suspendUntil := some swap, chunkSuspended := true, swapOpenedNs := none
      ops := g.ops.map fun o => { o with chunks := o.chunks.map fun c => { c with resends := 0 } }
      streams := { g.streams with tx := g.streams.tx.mapVals fun _ x => { x with
        outstanding := x.outstanding.map fun t => if t.pkt.hdr.cls == .express then { t with resends := 0 } else t } } }

/-- The effect of an accepted PLAY, and whether the agent is concerned (R161, R50). -/
def State.takePlay (s : State) (a : AgentRef) (p : Packet) : State × Bool :=
  let seq : BitVec 16 := BitVec.ofNat 16 (bitsAt p.hdr.aux.toNat 0 16)
  let swap : BitVec 32 := BitVec.ofNat 32 (bitsAt p.hdr.addr.toNat 1 32)
  let mine := (playList p).filter fun x => (s.staged a x.2).tag == some x.1
  let bad := mine.filter fun x => !(s.staged a x.2).valid || (s.staged a x.2).base != s.version a
  let slot := bitsAt p.hdr.aux.toNat 18 6
  let s := ((s.setJfld a JX_GAMBIT_PLAY_SEQ seq.toNat).setJfld a JX_GAMBIT_SWAP_EPOCH swap.toNat).setJfld a
    JX_GAMBIT_PLAY_SLOT slot
  let s := (s.updAgent a fun g => { g with playSeqSeen := true }).suspendAttempts a swap
  let s := s.cancelPlay a
  if mine.isEmpty then (s, false)
  else if bad.isEmpty then
    let s := s.discardInstall a
    let play : PendingPlay := { seq := seq, swapEpoch := swap, resultVersion := BitVec.ofNat 32 (leAt p.payload 0 4)
                                slots := mine.map (·.2) }
    ((s.updAgent a fun g => { g with play := some play }).setJfld a JX_STATUS_PLAY_PENDING 1, true)
  else (s.forEach bad fun s x => s.raiseAgent a 97 3 (BitVec.ofNat 16 x.2), true)

/-- A gambit the PLAY lists is tagged in the slot it names here: the agent is concerned (R161). -/
def State.playConcerned (s : State) (a : AgentRef) (p : Packet) : Bool :=
  (playList p).any fun x => (s.staged a x.2).tag == some x.1

/-- PLAY (R161, R108): only an agent concerned acknowledges, a copy again; a play sequence not above the last accepted one is ignored with an
event (R50). -/
def execPlay (a : AgentRef) (p : Packet) (s : State) : Answer :=
  .next (s.fromOwner a p fun s =>
    let seq : BitVec 16 := BitVec.ofNat 16 (bitsAt p.hdr.aux.toNat 0 16)
    if p.crcOk = false then s.nakPkt (.agent a) p.hdr 0x01
    else if s.isDup (.agent a) p.hdr then (if s.playConcerned a p then s.again (.agent a) p.hdr else s)
    else if s.orderFull (.agent a) p.hdr then s.nakPkt (.agent a) p.hdr 0x07
    else if (s.agent a).playSeqSeen ∧ !playHigher seq (BitVec.ofNat 16 (s.jfld a JX_GAMBIT_PLAY_SEQ)) then
      s.raiseAgent a 98 1 seq
    else
      let r := s.takePlay a p
      if r.2 then r.1.complete (.agent a) p.hdr else r.1.recordSeq (.agent a) p.hdr)

/-- The patches of a staged section (R158). -/
def Staged.section (x : Staged) : List Byte := x.bytes.readBytes 32 (sectionBytes x.bytes - 32)

/-- Applies staged sections to a copy of the active bank; `none` where a section breaks R154 or the checks (R169). -/
def Agent.applyPlay (g : Agent) (v : Variant) (slots : List Nat) : Option Bank :=
  let r := slots.foldl (fun (b : Option Bank) i => match b with
    | none => none
    | some b =>
      let body := (g.staged.getD i {}).section
      (parsePatches v body.length body).map b.patches) (some g.active)
  match r with
  | none => none
  | some b => if (b.fault v g.geometry.1).isNone then some b else none

/-- PLAY_APPLY_DONE (R49, R50, R169): the sections stand in the shadow bank, on a copy of the active bank; a result that
fails the checks follows the invalid-slot row. -/
def execPlayApplyDone (a : AgentRef) (s : State) : Answer :=
  let g := s.agent a
  match g.play with
  | none => .next s
  | some q =>
    if q.applied then .next s
    else match g.applyPlay a.variant q.slots with
      | some b => .next (s.updAgent a fun g => { g with shadow := b, copying := false, deferred := [], shadowBad := none
                                                        play := some { q with applied := true } })
      | none =>
        .next ((s.cancelPlay a).raiseAgent a 97 3 (BitVec.ofNat 16 (q.slots.headD 0)))

/-! ## The swap at an epoch boundary (R45, R49, R50, R161, R285) -/

/-- Swaps the banks; the new active bank is then copied into the shadow bank. -/
def State.swapBanks (s : State) (a : AgentRef) (version : BitVec 32) : State :=
  let s := s.updAgent a fun g => { (g.finishCopy a.variant) with
    active := (g.finishCopy a.variant).shadow, shadow := (g.finishCopy a.variant).shadow, copying := true
    copyStartNs := s.agentNow a, shadowHolds := none, shadowBad := none, deferred := [], commitAt := none, play := none }
  ((s.setJfld a JX_STATUS_BANK_ACTIVE (1 - s.jfld a JX_STATUS_BANK_ACTIVE)).setJfld a
    JX_STATUS_INSTALL_VERSION version.toNat).setJfld a JX_STATUS_PLAY_PENDING 0

/-- The agent's own boundary into epoch `n`: a pending play that was applied swaps from its epoch on, late with an event
(R50); otherwise a commit that names the epoch swaps. -/
def State.agentSwap (s : State) (a : AgentRef) (n : BitVec 32) : State :=
  let g := s.agent a
  match g.play with
  | some q =>
    if q.applied ∧ !seqLater q.swapEpoch n then
      let s := match g.commitAt with
        | some (v, _) => s.raiseAgent a 34 2 (low16 v)
        | none => s
      let s := s.swapBanks a q.resultVersion
      let s := s.updAgent a fun g => { g with swapOpenedNs := some (s.agentNow a) }
      if n = q.swapEpoch then s else (s.satJfld a JX_GAMBIT_LATE_PLAYS 1).raiseAgent a 96 2 q.seq
    else s
  | none =>
    match g.commitAt with
    | some (v, e) => if seqLater e n then s else s.swapBanks a v
    | none => s

/-- The active slot tables hold an Express entry. -/
def Agent.hasExpress (g : Agent) : Bool := g.active.slots.any fun x => slotKind x.2 == 1 || slotKind x.2 == 2

/-- A port as an epoch ends: whole epochs in a row without a frame of another class than Control (R156). -/
def PortSt.epochEnd (x : PortSt) : PortSt :=
  { x with carried := false, quietEpochs := if x.carried then 0 else min (x.quietEpochs + 1) 2 }

/-- DRAINED as an epoch ends (R44): two whole epochs in a row without traffic and without an Express entry. -/
def State.updateDrained (s : State) (a : AgentRef) : State :=
  let g := s.agent a
  let q := if g.nonControlSeen || g.hasExpress then 0 else if g.wholeEpoch then min (g.quietEpochs + 1) 2 else g.quietEpochs
  let s := s.updAgent a fun g => { g with quietEpochs := q, nonControlSeen := false, wholeEpoch := true
                                          ports := g.ports.mapVals fun _ x => x.epochEnd }
  s.setJfld a JX_STATUS_DRAINED (if q = 2 then 1 else 0)

/-- DRAINED clears when the bank that has just become active holds an Express entry (R44). -/
def State.clearDrained (s : State) (a : AgentRef) : State :=
  if (s.agent a).hasExpress then (s.updAgent a fun g => { g with quietEpochs := 0 }).setJfld a JX_STATUS_DRAINED 0 else s

/-- A larger correction steps time at the boundary, before the swap (R119, R146). -/
def State.stepTime (s : State) (a : AgentRef) : State :=
  match (s.agent a).stepNs with
  | none => s
  | some d =>
    let s := s.updAgent a fun g => { g with stepNs := none, phaseNs := g.phaseNs + d }
    s.raiseAgent a 16 2 (BitVec.ofInt 16 (max (-32767) (min 32767 d)))

/-- The controller's adjustment of an epoch (R139). -/
def State.adjustOf (s : State) (n : BitVec 32) : Int :=
  if BitVec.ofNat 32 (s.fld SCH_EPOCH_NOW_EPOCH_NUM) = n then s.time.epochAdj
  else ((s.time.adjusts.filter fun x => x.1 == n).map (·.2)).sum

/-- Boundaries that lag by adjustments the agent missed are restored at a boundary once a beacon has come, like a phase step
(R119, R146, R469). -/
def State.realignEpochs (s : State) (a : AgentRef) : State :=
  let g := s.agent a
  if g.realign = false then s
  else
    let d := 128 * g.late
    (s.updAgent a fun g => { g with late := 0, realign := false }).raiseAgent a 16 2 (BitVec.ofInt 16 (max (-32767) (min 32767 d)))

/-- Geometry and adjustments the agent has learned take effect at the epoch they name, each once; an adjustment it has not
learned leaves its later boundaries behind (R100, R115, R139, R140, R146). -/
def State.agentGeometry (s : State) (a : AgentRef) (n : BitVec 32) : State :=
  s.updAgent a fun g =>
    let own := ((g.adjusts.filter fun x => x.1 == n).map (·.2)).sum
    let missed := if g.lastBeaconNs.isSome then own - s.adjustOf n else 0
    let g := { g with adjusts := g.adjusts.filter fun x => seqLater x.1 n || x.1 == n
                      epochTick := 0, epochAdj := own, late := g.late + missed }
    match g.pendingGeometry with
    | some (sl, t, e) => if seqLater e n then g else { g with geometry := (sl, t), pendingGeometry := none }
    | none => g

/-- The suspension of Express attempts ends at S, or at the agent's own later swap (R165). -/
def State.endSuspension (s : State) (a : AgentRef) (n : BitVec 32) : State :=
  let g := s.agent a
  match g.suspendUntil with
  | some e => if !seqLater e n && g.play.isNone then s.updAgent a fun g => { g with
      suspendUntil := none, swapOpenedNs := if g.swapOpenedNs.isNone then some (s.agentNow a) else g.swapOpenedNs } else s
  | none => s

/-- Everything an epoch boundary does at one agent but freeing contexts: time step, DRAINED of the epoch that ends, epoch
number, geometry, swap and the end of a suspension. -/
def State.agentBoundary (s : State) (a : AgentRef) : State :=
  let s := ((s.stepTime a).realignEpochs a).updateDrained a
  let n := s.jfld a JX_EPOCH_EPOCH_NUM + 1
  let s := (s.setJfld a JX_EPOCH_EPOCH_NUM n).setJfld a JX_EPOCH_SLOT 0
  let e : BitVec 32 := BitVec.ofNat 32 n
  ((((s.agentGeometry a e).agentSwap a e).clearDrained a).endSuspension a e)

end Sys2Proof.Machine
end

