-- ==== Sys2Proof/Machine/Installs.lean ====
section
/-! DEFINITION. Routes at the controller: installs (R155), drains (R156), gambit records and staging (R157 to R162),
classification and plays (R163 to R167), install sets (R229), compact tables (R25) and slot patches of a schedule (R120,
R121). -/

namespace Sys2Proof.Machine

/-- The source of the RTE block (R359). -/
def srcRTE : Nat := 0x40

/-! ## Patches as bytes (R154) -/

/-- The bytes of a patch, most significant first (R154). -/
def Patch.bytes (p : Patch) : List Byte :=
  beBytes 8 (p.kind * 2 ^ 60 + p.port * 2 ^ 51 + p.start * 2 ^ 32 + p.count * 2 ^ 16)
    ++ (p.entries.flatMap fun e => beBytes (entryBytes p.kind) e)

/-- Divides a patch into patches that fit one message (R229). -/
def Patch.split : Nat → Patch → List Patch
  | 0, p => [p]
  | n + 1, p =>
    let w := entryBytes p.kind
    let m := if w = 0 then p.count else 4088 / w
    if p.count ≤ m then [p]
    else { p with count := m, entries := p.entries.take m } ::
      Patch.split n { p with start := p.start + m, count := p.count - m, entries := p.entries.drop m }

/-- Packs patches into message payloads of at most 4,096 bytes, in order. -/
def packPatches : List Byte → List Patch → List (List Byte)
  | cur, [] => if cur.isEmpty then [] else [cur]
  | cur, p :: t =>
    if cur.length + p.bytes.length ≤ 4096 then packPatches (cur ++ p.bytes) t
    else cur :: packPatches p.bytes t

/-- The INSTALL payloads of one agent's patches. -/
def installPayloads (v : Variant) (l : List Byte) : List (List Byte) :=
  match parsePatches v l.length l with
  | some ps => packPatches [] (ps.flatMap fun p => p.split p.count)
  | none => []

/-- Two patches touch one entry. -/
def Patch.overlaps (p q : Patch) : Bool :=
  let k := fun (x : Patch) => if x.kind = 3 then 2 else x.kind
  k p == k q && p.port == q.port && decide (p.start < q.start + q.count ∧ q.start < p.start + p.count)

/-! ## Agents and table copies -/

/-- The variant of an agent the controller knows. -/
def State.variantOf (s : State) (f : Fid) : Variant := match s.refOf f with | some a => a.variant | none => .s

/-- Fabric IDs of the admitted agents. -/
def State.admittedIds (s : State) : List Fid := (s.dom.known.filter (·.admitted)).map (·.fid)

/-- The controller's copy of an agent's tables (R27). -/
def State.copyOf (s : State) (f : Fid) : Bank := s.rte.copy.getD f.toNat {}

/-- The copies with an install set applied. -/
def State.patched (s : State) (sets : List (Fid × List Byte)) : NMap Bank :=
  sets.foldl (fun m x =>
    match parsePatches (s.variantOf x.1) x.2.length x.2 with
    | some l => m.set x.1.toNat ((m.getD x.1.toNat {}).patches l)
    | none => m) s.rte.copy

/-- The entries of one page of 64 local IDs, without the bytes that are zero (R25). -/
def Bank.page (b : Bank) (p : Nat) : List Nat := (List.range 64).map fun i => (b.routes.getD (64 * p + i) 0).toNat / 2 ^ 192

/-- Bytes of a distinct page: a uniform page or a full one (R25). -/
def pageBytes (p : List Nat) : Nat := if p.all (· == p.headD 0) then 64 else 2560

/-- The distinct pages of these copies; pages without an entry are one uniform page (R25). -/
def routePages (m : NMap Bank) : List (List Nat) :=
  (m.flatMap fun x => List.replicate 64 0 :: ((x.2.routes.map fun e => e.1 / 64).dedup).map x.2.page).dedup

/-- Bytes the route region holds for these copies: a directory for each switch, and every page once (R25). -/
def State.routeRegionBytes (s : State) (m : NMap Bank) : Nat :=
  4096 * (m.filter fun x => s.variantOf (BitVec.ofNat 32 x.1) == .s).length + ((routePages m).map pageBytes).sum

/-- The route region overflows (R24, R25). -/
def State.routeRegionFull (s : State) (m : NMap Bank) : Bool := decide (4294967296 < s.routeRegionBytes m)

/-- Treats an agent as a failed switch or endpoint (R155, R361): no restart of streams waits for it any longer (R471). -/
def State.treatFailed (s : State) (f : Fid) : State :=
  { s with
    rte := { s.rte with failed := if s.rte.failed.contains (f, none) then s.rte.failed else s.rte.failed ++ [(f, none)] }
    dom := { s.dom with
      known := s.dom.known.map fun k => if k.fid = f then { k with admitted := false } else k
      restarts := (s.dom.restarts.filter fun x => x.1 != f).map fun x => (x.1, x.2.1.filter (· != f), x.2.2)
      rejoins := s.dom.rejoins.filter fun x => x.fid != f } }

/-! ## Epochs ahead (R115, R155, R164) -/

/-- The number of the epoch in progress. -/
def State.epochNow (s : State) : Nat := s.fld SCH_EPOCH_NOW_EPOCH_NUM

/-- Nominal length of an epoch in ticks (R115, R139). -/
def State.epochTicks (s : State) : Nat := s.geometry.1 * s.geometry.2

/-- Length of the epoch in progress in ticks, with its adjustment (R139). -/
def State.epochLen (s : State) : Nat := ((s.epochTicks : Int) + s.time.epochAdj).toNat

/-- Length of a later epoch in ticks, by the geometry and the adjustment announced for it (R115, R139, R140). -/
def State.ticksOf (s : State) (e : Nat) : Nat :=
  let n : BitVec 32 := BitVec.ofNat 32 e
  let base := match s.time.pendingGeom with
    | some (sl, t, e0) => if seqLater e0 n then s.epochTicks else sl * t
    | none => s.epochTicks
  let adj := ((s.time.adjusts.filter fun x => x.1 == n).map (·.2)).sum
  ((base : Int) + adj).toNat

/-- The first epoch from `e` on, which begins in `left` ns, that begins at least `ns` from now. -/
def State.epochFrom (s : State) (ns : Nat) : Nat → Nat → Nat → Nat
  | 0, _, e => e
  | n + 1, left, e => if ns ≤ left then e else s.epochFrom ns n (left + s.ticksOf e * 128) (e + 1)

/-- The first epoch that begins at least `ns` from now. -/
def State.epochAfter (s : State) (ns : Nat) : Nat :=
  s.epochFrom ns (ns / 1024 + 1) ((s.epochLen - s.time.epochTick) * 128) (s.epochNow + 1)

/-- Time in ns until an epoch begins. -/
def State.nsUntil (s : State) (e : Nat) : Nat :=
  let l := (List.range (min (e - s.epochNow - 1) 4096)).map fun i => s.ticksOf (s.epochNow + 1 + i) * 128
  (s.epochLen - s.time.epochTick) * 128 + l.sum

/-- Time in ns until an epoch of a 32-bit number begins; 0 where it has begun (R46). -/
def State.nsToEpoch (s : State) (e : BitVec 32) : Nat :=
  let d := (e - BitVec.ofNat 32 s.epochNow).toNat
  if d = 0 ∨ 2 ^ 31 ≤ d then 0 else s.nsUntil (s.epochNow + d)

/-! ## Links and failed elements (R7, R157, R163) -/

/-- The other end of a link. -/
def State.farEnd (s : State) (f : Fid) (p : Nat) : Option (Fid × Nat) := (s.linkFrom f p).map (·.2)

/-- One name for a link: its end with the lower fabric ID and port. -/
def State.linkName (s : State) (f : Fid) (p : Nat) : Fid × Nat :=
  match s.farEnd f p with
  | some (g, q) => if g.toNat < f.toNat ∨ (g = f ∧ q < p) then (g, q) else (f, p)
  | none => (f, p)

/-- The gambits of a job. -/
def State.jobGambits (s : State) (job : Nat) : List Gambit := s.rte.gambits.filter fun g => g.job == job

/-- A gambit is compiled for a failed element (R157). -/
def State.gambitFor (s : State) (g : Gambit) (x : Fid × Option Nat) : Bool :=
  match x.2, g.rec_.faultPort with
  | none, none => g.rec_.faultAgent == x.1
  | some p, some q => s.linkName g.rec_.faultAgent q == s.linkName x.1 p
  | _, _ => false

/-- A failed element lies in a job's footprint: its schedule uses it, or a gambit of the job was compiled for it. -/
def State.inFootprint (s : State) (a : Admitted) (x : Fid × Option Nat) : Bool :=
  (match x.2 with
    | none => scheduleUses a.sched x.1 none
    | some p => scheduleUses a.sched x.1 (some p) ||
        (match s.farEnd x.1 p with | some (g, q) => scheduleUses a.sched g (some q) | none => false))
    || (s.jobGambits a.number).any fun g => s.gambitFor g x

/-- A failed element lies on a tree: a node, or a link between two nodes (R6, R7). -/
def State.onTree (s : State) (t : TreeRec) (x : Fid × Option Nat) : Bool :=
  t.nodes.any fun n => match x.2 with
    | none => n.node == x.1
    | some p => n.children.any fun c => s.linkName n.node c.1 == s.linkName x.1 p

/-- The faults that count for a job and that no play of its gambits has answered yet (R163, R167). -/
def State.openFaults (s : State) (a : Admitted) : List (Fid × Option Nat) :=
  s.rte.failed.filter fun x => s.inFootprint a x && !a.played.contains x

/-- The armed gambit of a job for a fault (R160, R163). -/
def State.armedFor (s : State) (a : Admitted) (x : Fid × Option Nat) : Option Gambit :=
  (s.jobGambits a.number).find? fun g => s.gambitFor g x && g.armed && !g.invalid

/-- A job is served: no fault counts for it, or one for which it has an armed gambit (R163). -/
def State.jobServed (s : State) (a : Admitted) : Bool :=
  match s.openFaults a with
  | [] => true
  | [x] => (s.armedFor a x).isSome
  | _ => false

/-- The lapses of unrecovered faults and of jobs without a gambit end with their conditions (R7). -/
def State.restoreFaults (s : State) : State :=
  let faults := s.lapses.filter fun x => x.1 == 0x000C && !(s.rte.failed.any fun y => y.1.toNat == x.2)
  let jobs := s.lapses.filter fun x => x.1 == 0x0005 && !(s.sch.admitted.any fun a => a.number == x.2 && !s.jobServed a)
  let s := s.forEach faults fun s x => s.restore 0x000C x.2
  s.forEach jobs fun s x => s.restore 0x0005 x.2

/-- A link is up that a failed element names. -/
def State.elementUp (s : State) (x : Fid × Option Nat) : Bool :=
  match x.2 with
  | none => s.admittedIds.contains x.1
      && s.dom.links.any fun l => l.up && (l.aId == x.1 || l.bId == x.1)
  | some p => match s.linkFrom x.1 p with | some (l, _) => l.up | none => false

/-- An install brings recovered elements back into service: those whose agent, or an agent at whose link's end, it patches (R156,
R167). -/
def State.bringBack (s : State) (agents : List Fid) : State :=
  let back := fun (x : Fid × Option Nat) => s.elementUp x && (agents.contains x.1 || match x.2 with
    | some p => (match s.farEnd x.1 p with | some (g, _) => agents.contains g | none => false)
    | none => false)
  ({ s with rte := { s.rte with failed := s.rte.failed.filter fun x => !back x } } : State).restoreFaults

/-! ## Drains (R156) -/

/-- A drain in progress. -/
def State.drainOf (s : State) (d : DrainElem) : Option Drain := s.rte.drains.find? fun x => x.elem == d

/-- Records a drain. -/
def State.setDrain (s : State) (x : Drain) : State :=
  { s with rte := { s.rte with drains := (s.rte.drains.filter fun y => y.elem != x.elem) ++ [x] } }

/-- The ports by which agents reach an element: of its neighbours, or of a link's two ends. -/
def State.portsOn (s : State) (d : DrainElem) : List (Fid × Nat) :=
  match d with
  | .switch f => s.dom.links.filterMap fun l => if l.aId = f then some (l.bId, l.bPort) else if l.bId = f then some (l.aId, l.aPort) else none
  | .link f p => (f, p) :: (s.farEnd f p).toList

/-- A schedule uses an element. -/
def State.usesElem (s : State) (c : Schedule) (d : DrainElem) : Bool :=
  match d with
  | .switch f => scheduleUses c f none
  | .link _ _ => (s.portsOn d).any fun x => scheduleUses c x.1 (some x.2)

/-- The drain install is in force (R156, step 2): replaced schedules go with their gambits, and the wait for quiet begins. -/
def State.drainInForce (s : State) (d : DrainElem) : State :=
  let gone := (s.sch.admitted.filter fun a => s.usesElem a.sched d).map (·.number)
  let s : State := { s with
    sch := { s.sch with admitted := s.sch.admitted.filter fun a => !gone.contains a.number }
    rte := { s.rte with gambits := s.rte.gambits.filter fun g => !gone.contains g.job } }
  let s := s.forEach gone fun s n => (s.restore 0x0001 n).restore 0x0003 n
  (s.showAdmit.restoreFaults).setDrain { elem := d, startNs := some s.now }

/-! ## The end of an install -/

/-- What an install was submitted for learns its end (R185, R187, R206): the status of a tag, or the completion of an ADMIT. -/
def State.finishInstall (s : State) (p : InstallFor) (status : Nat) (result : Word64) : State :=
  match p with
  | .tag e t i =>
    let s := match s.sets.get i with
      | some x => { s with sets := s.sets.set i { x with locked := false } }
      | none => s
    s.completeTag e t status result
  | .drain d => if status = 0 ∨ status = 0xF5 then s.drainInForce d
    else { s with rte := { s.rte with drains := s.rte.drains.filter fun x => x.elem != d } }
  | .admission q id number irq =>
    if s.mirrorBlocks then { s with tri := { s.tri with behind := s.tri.behind ++ [.admission q id number status irq] } }
    else match (s.queue q).cmds.find? fun c => c.cmdId == id && c.opcode == 7 && c.state == .started with
    | some c => if status = 0 ∨ status = 0xF5 then s.completeCmd q c (c.record 0 0 (BitVec.ofNat 64 number))
      else s.completeCmd q c (c.record 5 0)
    | none => s
  | _ => s

/-- An install has no effect any more: pending state cleared. -/
def State.dropInstall (s : State) : State :=
  { s with rte := { s.rte with install := none, shadow := s.rte.copy } }.setFld RTE_INSTALL_VERSION_PENDING 0

/-! ## Submission and commit (R155) -/

/-- The version an install takes: one above the last in force (R155). -/
def State.versionNext (s : State) : BitVec 32 := BitVec.ofNat 32 (s.fld RTE_INSTALL_VERSION_ACTIVE + 1)

/-- Sends the COMMIT for V naming an epoch to every agent of the domain (R153, R155). -/
def State.sendCommit (s : State) (v e : BitVec 32) : State :=
  s.broadcast 0x23 (leBytes 4 e.toNat ++ zeros 4) (some (.commit v)) (v.setWidth 57)

/-- Step 3: every INSTALL is acknowledged, and the COMMIT leaves for the first epoch at least 1 ms later; an admission while a
geometry is pending commits no earlier than that geometry (R146). -/
def State.commitInstall (s : State) (i : InstallSt) : State :=
  let first : BitVec 32 := BitVec.ofNat 32 (s.epochAfter 1000000)
  let e := match i.purpose, s.time.pendingGeom with
    | .admission .., some (_, _, e0) => if seqLater e0 first then e0 else first
    | _, _ => first
  if s.inHold then { s with rte := { s.rte with install := some { i with openMsgs := [] } } }
  else
  let s := s.mirrorOut 1
  let i := { i with committed := true, epoch := e, commitAcks := [], unicast := [], commitNs := s.now }
  ({ s with rte := { s.rte with install := some i } }.setFld RTE_INSTALL_VERSION_PENDING i.version.toNat).sendCommit i.version e

/-- Sends the INSTALL messages of one agent; answers the stream numbers they took. -/
def State.sendInstalls (s : State) (v : BitVec 32) (f : Fid) : List (List Byte) → State × List (Fid × BitVec 32)
  | [] => (s, [])
  | l :: t =>
    let seq := (s.tx .ctl f Config.ownStream).nextSeq
    let s := s.sendHooked f 0x22 l (.install v f) (v.setWidth 57)
    let r := s.sendInstalls v f t
    (r.1, (f, seq) :: r.2)

/-- Sends the INSTALL messages of every agent concerned. -/
def State.sendSets (s : State) (v : BitVec 32) : List (Fid × List Byte) → State × List (Fid × BitVec 32)
  | [] => (s, [])
  | x :: t =>
    let r := s.sendInstalls v x.1 (installPayloads (s.variantOf x.1) x.2)
    let q := r.1.sendSets v t
    (q.1, r.2 ++ q.2)

/-- Agents adopted with tables that no install has written in full yet (R428). -/
def State.adoptedAgents (s : State) : List Fid := (s.dom.known.filter fun k => k.admitted && !k.full).map (·.fid)

/-- What the first install after an adoption writes, that of an ADMIT or of the operator: every table of the adopted agents in full, with
the patches asked for after them (R428). -/
def State.fullSets (s : State) (sets : List (Fid × List Byte)) (p : InstallFor) : List (Fid × List Byte) :=
  match p with
  | .admission .. | .tag .. =>
    let l := s.adoptedAgents
    (l.map fun f => (f, Config.baseTables s.fresh f.toNat ++ (sets.filter fun x => x.1 == f).flatMap (·.2)))
      ++ sets.filter fun x => !l.contains x.1
  | _ => sets

/-- The agents an install reaches hold tables of this controller in full. -/
def State.noteFull (s : State) (sets : List (Fid × List Byte)) : State :=
  if s.adoptedAgents.isEmpty then s
  else
    let l := s.dom.known.map fun k => if sets.any (fun x => x.1 == k.fid) then { k with full := true } else k
    ({ s with dom := { s.dom with known := l } } : State).useFree

/-- Starts an install (R155, R25): a full route region refuses it with 0xF7. -/
def State.startInstall (s : State) (sets : List (Fid × List Byte)) (p : InstallFor) : State :=
  let sets := s.fullSets sets p
  let m := s.patched sets
  if s.routeRegionFull m then s.finishInstall p 0xF7 0
  else
    let v := s.versionNext
    let s := { s.noteFull sets with rte := { s.rte with shadow := m } }
    let r := s.sendSets v sets
    let i : InstallSt := { version := v, sets := sets, openMsgs := r.2, purpose := p }
    if r.2.isEmpty then r.1.commitInstall i else { r.1 with rte := { r.1.rte with install := some i } }

/-- Submits an install: installs run one at a time, and none starts while a play is pending (R155, R313). -/
def State.submitInstall (s : State) (sets : List (Fid × List Byte)) (p : InstallFor) : State :=
  if s.rte.install.isNone ∧ s.rte.play.isNone ∧ s.rte.waiting.isEmpty then s.startInstall sets p
  else { s with rte := { s.rte with waiting := s.rte.waiting ++ [(sets, p)] } }

/-- Starts the next waiting install, when one may start. -/
def State.nextInstall (s : State) : State :=
  if s.rte.install.isNone ∧ s.rte.play.isNone then
    match s.rte.waiting with
    | [] => s
    | w :: t => { s with rte := { s.rte with waiting := t } }.startInstall w.1 w.2
  else s

/-- An INSTALL message is acknowledged; after the last one the COMMIT leaves. -/
def State.installAcked (s : State) (v : BitVec 32) (f : Fid) (seq : BitVec 32) : State :=
  match s.rte.install with
  | some i =>
    if i.version = v ∧ i.committed = false ∧ i.openMsgs.contains (f, seq) then
      let i := { i with openMsgs := i.openMsgs.filter (· != (f, seq)) }
      if i.openMsgs.isEmpty then s.commitInstall i else { s with rte := { s.rte with install := some i } }
    else s
  | none => s

/-- An INSTALL is refused or finds no answer: the operation completes with this status (R106, R472). -/
def State.installFailed (s : State) (v : BitVec 32) (status : Nat) : State :=
  match s.rte.install with
  | some i => if i.version = v then (s.dropInstall.finishInstall i.purpose status 0).nextInstall else s
  | none => s

/-- A COMMIT is acknowledged. -/
def State.commitAcked (s : State) (v : BitVec 32) (f : Fid) : State :=
  match s.rte.install with
  | some i =>
    if i.version = v ∧ !i.commitAcks.contains f then
      { s with rte := { s.rte with install := some { i with commitAcks := f :: i.commitAcks } } }
    else s
  | none => s

/-- An agent that has not acknowledged the COMMIT in time gets it as unicast (R107, R155, step 3; log entry 156). -/
def State.commitUnicast (s : State) (v : BitVec 32) (f : Fid) : State :=
  match s.rte.install with
  | some i =>
    if i.version = v ∧ i.committed ∧ i.commitNs + 100000 ≤ s.now ∧ s.admittedIds.contains f
        ∧ !i.commitAcks.contains f ∧ !i.silent.contains f ∧ !i.unicast.contains f then
      ({ s with rte := { s.rte with install := some { i with unicast := f :: i.unicast } } } : State).sendHooked f 0x23
        (leBytes 4 i.epoch.toNat ++ zeros 4) (.commit v) (v.setWidth 57)
    else s
  | none => s

/-- Silent or refusing agents are left out of a commit: each counts as failed, with a severity 3 event (R155, steps 4 and 5). -/
def State.commitWithout (s : State) (i : InstallSt) (l : List Fid) : State :=
  let s := { s with rte := { s.rte with install := some { i with silent := i.silent ++ l } } }
  s.forEach l fun s f => (s.treatFailed f).raise srcRTE 3

/-- A COMMIT is refused with the NAK of R472 (R155, step 5). -/
def State.commitRefused (s : State) (v : BitVec 32) (f : Fid) : State :=
  match s.rte.install with
  | some i => if i.version = v ∧ !i.silent.contains f then s.commitWithout i [f] else s
  | none => s

/-- Agents that have not acknowledged the COMMIT. -/
def State.commitMissing (s : State) (i : InstallSt) : List Fid :=
  s.admittedIds.filter fun f => !i.commitAcks.contains f && !i.silent.contains f

/-- COMMIT_DEADLINE (R155, step 4): 100 µs before E, with a COMMIT unacknowledged. -/
def execCommitDeadline (s : State) : Answer :=
  match s.rte.install with
  | some i =>
    let miss := s.commitMissing i
    if i.committed = false ∨ miss.isEmpty ∨ 100000 < s.nsToEpoch i.epoch then .next s
    else if i.postponements < 3 then
      let e := i.epoch + 4
      let i := { i with epoch := e, postponements := i.postponements + 1, commitAcks := [], unicast := [], commitNs := s.now }
      .next ({ s with rte := { s.rte with install := some i } }.sendCommit i.version e)
    else .next (s.commitWithout i miss)
  | none => .next s

/-! ## Gambits (R157 to R162) -/

/-- A section as bytes: its header and its patches (R158). -/
def sectionBytesOf (g : GambitSection) (id : BitVec 24) (base : BitVec 32) (v : Variant) : List Byte :=
  let n := match parsePatches v g.patches.length g.patches with | some l => l.length | none => 0
  let l := leBytes 4 g.agent.toNat ++ leBytes 4 id.toNat ++ leBytes 4 base.toNat ++ leBytes 4 (32 + g.patches.length)
    ++ leBytes 2 n ++ zeros 10
  l ++ leBytes 4 (crc32c (l ++ zeros 4 ++ g.patches)) ++ g.patches

/-- Cuts bytes into pieces of 4,096. -/
def cutBytes : Nat → List Byte → List (List Byte)
  | 0, _ => []
  | n + 1, l => if l.isEmpty then [] else l.take 4096 :: cutBytes n (l.drop 4096)

/-- Notes a STAGE piece of a gambit that is on its way (R160). -/
def State.notePiece (s : State) (id : BitVec 24) (f : Fid) (seq : BitVec 32) : State :=
  let l := s.rte.gambits.map fun (g : Gambit) => if g.rec_.gambitId = id then { g with pieces := g.pieces ++ [(f, seq)] } else g
  { s with rte := { s.rte with gambits := l } }

/-- Sends the pieces of a section by STAGE writes (R153, R160). -/
def State.sendStage (s : State) (id : BitVec 24) (f : Fid) (slot : BitVec 6) (off : Nat) : List (List Byte) → State
  | [] => s
  | l :: t =>
    let s := s.notePiece id f (s.tx .ctl f Config.ownStream).nextSeq
    (s.sendHooked f 0x24 l (.stage id f) (BitVec.ofNat 57 off) (BitVec.ofNat 24 (slot.toNat * 2 ^ 16))).sendStage id f slot
      (off + l.length) t

/-- Sends a STAGE invalidate (R153). -/
def State.sendInvalidate (s : State) (f : Fid) (slot : BitVec 6) : State :=
  s.sendHooked f 0x24 [] .other 0 (BitVec.ofNat 24 (2 ^ 22 + slot.toNat * 2 ^ 16))

/-- Sends a STAGE rebase of a mask of slots (R153, R162). -/
def State.sendRebase (s : State) (f : Fid) (mask : Nat) (base : BitVec 32) : State :=
  s.sendHooked f 0x24 (leBytes 8 mask) .other (base.setWidth 57) (BitVec.ofNat 24 (2 * 2 ^ 22))

/-- RTE_GAMBIT.UNARMED, with the lapse of the jobs concerned (R7, R162, R168). -/
def State.showUnarmed (s : State) : State :=
  let bad := s.sch.admitted.filter fun a => (s.jobGambits a.number).any fun g => !g.armed
  let good := s.sch.admitted.filter fun a => !((s.jobGambits a.number).any fun g => !g.armed)
  let s := s.setFld RTE_GAMBIT_UNARMED bad.length
  let s := s.forEach bad fun s a => s.lapse 0x0003 a.number
  (s.forEach good fun s a => s.restore 0x0003 a.number).restoreFaults

/-- Replaces a gambit. -/
def State.setGambit (s : State) (g : Gambit) : State :=
  let l := s.rte.gambits.map fun (x : Gambit) => if x.rec_.gambitId = g.rec_.gambitId then g else x
  { s with rte := { s.rte with gambits := l } }

/-- Stages a gambit: every section to its agent; a slot that may be valid is invalidated first, and sleeping
ports of its slot patches wake (R48, R160, R162, R430). In the hold of R411 and while a play is pending (R169) it waits. -/
def State.stageGambit (s : State) (g : Gambit) (again : Bool) : State :=
  let waits := s.inHold || s.rte.play.isSome
  let s := s.setGambit { g with armed := false, pieces := [], invalid := false, due := waits }
  if waits then s
  else
  let s := s.mirrorOut 2
  s.forEach g.rec_.sections fun s x =>
    let s := match parsePatches (s.variantOf x.agent) x.patches.length x.patches with
      | some l => s.forEach (l.filter fun (p : Patch) => p.kind == 2 || p.kind == 3) fun s (p : Patch) => s.wakeFor x.agent p.port
      | none => s
    let b := sectionBytesOf x g.rec_.gambitId g.base (s.variantOf x.agent)
    let s := if again then s.sendInvalidate x.agent g.rec_.slot else s
    s.sendStage g.rec_.gambitId x.agent g.rec_.slot 0 (cutBytes b.length b)

/-- Stages the gambits whose staging was put off (R169, R411). -/
def State.stageDue (s : State) : State := s.forEach (s.rte.gambits.filter (·.due)) fun s g => s.stageGambit g true

/-- Takes a gambit into store and stages it; a gambit of the same identity is replaced. While a play is pending it waits for the
swap (R169). -/
def State.takeGambit (s : State) (r : GambitRec) (job : Nat) (base : BitVec 32) (tag : Option (Nat × Nat)) : State :=
  if s.rte.play.isSome then
    { s with rte := { s.rte with gambitWait := s.rte.gambitWait ++ [{ rec_ := r, job := job, base := base, tag := tag }] } }
  else
  let g : Gambit := { rec_ := r, job := job, base := base, tag := tag }
  let old := s.rte.gambits.any fun x => x.rec_.gambitId == r.gambitId
  let l := s.rte.gambits.filter fun (x : Gambit) => x.rec_.gambitId != r.gambitId && !(x.invalid && x.job == job)
  let s : State := { s with rte := { s.rte with gambits := l ++ [g] } }
  (s.stageGambit g old).showUnarmed

/-- A STAGE piece is acknowledged; a gambit whose every piece is acknowledged is armed: each of its slots is valid (R48, R160). -/
def State.stageAcked (s : State) (id : BitVec 24) (f : Fid) (seq : BitVec 32) : State :=
  match s.rte.gambits.find? fun g => g.rec_.gambitId == id && g.pieces.contains (f, seq) with
  | none => s
  | some g =>
    let left := g.pieces.filter (· != (f, seq))
    let armed := left.isEmpty && !g.invalid
    let s := s.setGambit { g with pieces := left, armed := armed, tag := if armed then none else g.tag }
    let s := s.showUnarmed
    if armed then s.completeOpt g.tag 0 (BitVec.ofNat 64 g.rec_.sections.length) else s

/-- A status report shows which slots of an agent are valid: an armed gambit whose slot is not is no longer armed, and is staged again
(R60, R71, R160; log entry 157). -/
def State.slotsSeen (s : State) (f : Fid) (valid : Nat) : State :=
  let lost := s.rte.gambits.filter fun g => g.armed && bitsAt valid g.rec_.slot.toNat 1 == 0 && g.rec_.sections.any fun x => x.agent == f
  if lost.isEmpty then s else (s.forEach lost fun s g => s.stageGambit g true).showUnarmed

/-- A STAGE is refused or finds no answer (R472). -/
def State.stageFailed (s : State) (id : BitVec 24) (status : Nat) : State :=
  match s.rte.gambits.find? fun g => g.rec_.gambitId == id with
  | none => s
  | some g => ((s.setGambit { g with tag := none }).showUnarmed).completeOpt g.tag status

/-- Sections of a gambit record in bytes (R157, R158). -/
def recordSections : Nat → List Byte → List GambitSection
  | 0, _ => []
  | n + 1, l =>
    let b := leAt l 12 4
    { agent := BitVec.ofNat 32 (leAt l 0 4), patches := (l.take b).drop 32 } :: recordSections n (l.drop b)

/-- The `n` sections of a record follow R158: identity of the gambit, zeros, CRC, and lengths that fill the record. -/
def sectionsOk (id : Nat) : Nat → List Byte → Bool
  | 0, l => l.isEmpty
  | n + 1, l =>
    let b := leAt l 12 4
    decide (32 ≤ b ∧ b ≤ l.length) && leAt l 4 4 == id && allZero l 18 10
      && crc32c ((l.take 28) ++ zeros 4 ++ ((l.take b).drop 32)) == leAt l 28 4 && sectionsOk id n (l.drop b)

/-- The bytes of a record follow R157 and R158. -/
def recordOk (l : List Byte) : Bool :=
  let n := leAt l 24 4
  decide (64 ≤ n ∧ n ≤ l.length) && crc32c ((l.take 60) ++ zeros 4 ++ ((l.take n).drop 64)) == leAt l 60 4
    && (leAt l 8 1 == 1 || (leAt l 8 1 == 2 && leAt l 10 2 == 0xFFFF)) && decide (leAt l 9 1 < 64) && leAt l 3 1 == 0
    && allZero l 32 28 && sectionsOk (leAt l 0 4) (leAt l 20 4) ((l.take n).drop 64)

/-- A gambit record from its bytes (R157), with its admission number and base version. -/
def recordOf (l : List Byte) : GambitRec × Nat × BitVec 32 :=
  ({ gambitId := BitVec.ofNat 24 (leAt l 0 4), slot := BitVec.ofNat 6 (leAt l 9 1)
     faultAgent := BitVec.ofNat 32 (leAt l 12 4)
     faultPort := if leAt l 8 1 = 2 then none else some (leAt l 10 2)
     sections := recordSections (leAt l 20 4) ((l.take (leAt l 24 4)).drop 64) },
   leAt l 4 4, BitVec.ofNat 32 (leAt l 16 4))

/-- The trees a record's patches replace: old and new head of an entry that held another tree's head (R157, R235, R285; log entry
158). -/
def State.treesOf (s : State) (r : GambitRec) : List (BitVec 24 × BitVec 24) :=
  (r.sections.flatMap fun x => match parsePatches (s.variantOf x.agent) x.patches.length x.patches with
    | some l => (l.filter fun (p : Patch) => p.kind == 6).flatMap fun (p : Patch) =>
        ((List.range p.entries.length).zip p.entries).filterMap fun e =>
          let old := (s.copyOf x.agent).trees.getD (p.start + e.1) 0
          let new : BitVec 128 := BitVec.ofNat 128 e.2
          if treeType old = 1 ∧ treeType new = 1 ∧ headTree old ≠ headTree new then some (headTree old, headTree new) else none
    | none => []).dedup

/-- A record as TSTAGE takes it: with the trees it replaces, as many as its header counts (R157). -/
def State.stagedRecord (s : State) (l : List Byte) : GambitRec :=
  { (recordOf l).1 with treesReplaced := (s.treesOf (recordOf l).1).take (leAt l 28 4) }

/-- Agents at which a section exceeds its staging slot (R158). -/
def State.oversize (s : State) (r : GambitRec) : List Fid :=
  (r.sections.filter fun x => decide (slotBytes (s.variantOf x.agent) < 32 + x.patches.length)).map (·.agent)

/-- Agents at which a gambit meets another one in its slot (R159). -/
def slotClash (r : GambitRec) (others : List GambitRec) : List Fid :=
  (r.sections.map (·.agent)).filter fun f => others.any fun o => o.gambitId != r.gambitId && o.slot == r.slot
    && o.sections.any fun x => x.agent == f

/-- The gambits in store that hold their slots against a new one of a job: all but the job's own invalidated ones (R159, R167). -/
def State.slotHolders (s : State) (job : Nat) : List GambitRec :=
  (s.rte.gambits.filter fun g => !(g.invalid && g.job == job)).map (·.rec_)

/-- Sections fit the staging slots of their agents, and no agent is given two gambits in one slot (R158, R159). -/
def State.sectionsFit (s : State) (r : GambitRec) (job : Nat) : Bool :=
  (s.oversize r).isEmpty && (slotClash r (s.slotHolders job)).isEmpty

/-- The agents a bundle's gambits cannot be staged at: an oversize section, two gambits in one slot (R158, R159). -/
def State.slotItems (s : State) (l : List GambitRec) : List (List Byte) :=
  let held := s.rte.gambits.map (·.rec_)
  ((l.flatMap fun r => s.oversize r ++ slotClash r (l ++ held.filter fun o => !(l.any fun x => x.gambitId == o.gambitId))).dedup).map
    fun f => reportItem 0x00 0xFFFF f 0 0 0 0

/-- Rebases a gambit, or stages it again where its patches overlap the installed sets (R162). -/
def State.rebaseGambit (s : State) (sets : List (Fid × List Byte)) (v : BitVec 32) (g : Gambit) : State :=
  let hit := g.rec_.sections.any fun x => sets.any fun y => y.1 == x.agent &&
    (match parsePatches (s.variantOf x.agent) x.patches.length x.patches, parsePatches (s.variantOf x.agent) y.2.length y.2 with
     | some a, some b => a.any fun p => b.any fun q => p.overlaps q
     | _, _ => false)
  let g := { g with base := v }
  if g.invalid then s.setGambit g
  else if hit then (s.stageGambit g true)
  else s.setGambit g

/-- Every entry of a bank as patches (R154). -/
def Bank.allPatches (b : Bank) : List Patch :=
  (b.routes.map fun x => ⟨1, 0, x.1, 1, [x.2.toNat]⟩) ++ (b.slots.map fun x => ⟨2, x.1 / 4096, x.1 % 4096, 1, [x.2.toNat]⟩)
    ++ (b.bcast.map fun x => ⟨4, 0, x.1, 1, [x.2.toNat]⟩) ++ (b.dmap.map fun x => ⟨5, 0, x.1, 1, [x.2.toNat]⟩)
    ++ (b.trees.map fun x => ⟨6, 0, x.1, 1, [x.2.toNat]⟩) ++ (b.places.map fun x => ⟨7, 0, x.1, 1, [x.2.toNat]⟩)

/-- The tables an agent is brought into service with: the controller's copy, or base tables where it has none. -/
def State.serviceTables (s : State) (f : Fid) : List Byte :=
  let l := (s.copyOf f).allPatches
  if l.isEmpty then Config.baseTables s.fresh f.toNat else l.flatMap Patch.bytes

/-- Sends the rebases of every gambit staged at an agent: one message with a mask of slots (R162). -/
def State.rebaseAgents (s : State) (v : BitVec 32) (agents : List Fid) : State :=
  s.forEach agents fun s f =>
    let mine := s.rte.gambits.filter fun g => !g.invalid && g.base == v && g.rec_.sections.any fun x => x.agent == f
    if mine.isEmpty then s else s.sendRebase f ((mine.map fun g => 2 ^ g.rec_.slot.toNat).dedup.sum) v

/-- Agents that hold a staged section. -/
def State.stagedAgents (s : State) : List Fid := (s.rte.gambits.flatMap fun g => g.rec_.sections.map (·.agent)).dedup

/-- An install comes in force at its epoch (R155, R162): version, copies, gambits, and the end of its operation. -/
def State.installInForce (s : State) (i : InstallSt) : State :=
  let s := { s with rte := { s.rte with install := none, copy := s.rte.shadow } }
  let s := (s.setFld RTE_INSTALL_VERSION_ACTIVE i.version.toNat).setFld RTE_INSTALL_VERSION_PENDING 0
  let s := s.forEach s.rte.gambits fun s g => s.rebaseGambit i.sets i.version g
  let s := (s.rebaseAgents i.version s.stagedAgents).showUnarmed
  let s := s.bringBack ((i.sets.map (·.1)).filter fun f => !i.silent.contains f)
  (s.finishInstall i.purpose (if i.silent.isEmpty then 0 else 0xF5) (BitVec.ofNat 64 i.version.toNat)).nextInstall

/-! ## Plays (R163 to R167) -/

/-- Both ends of a reported link have reported. -/
def State.bothReported (s : State) (r : DownReport) : Bool :=
  match s.farEnd r.agent r.port with
  | some (g, q) => s.rte.reports.any fun x => x.agent == g && x.port == q
  | none => true

/-- Links of an agent that only their far ends reported down. -/
def State.farReports (s : State) (f : Fid) : List DownReport :=
  s.rte.reports.filter fun r => match s.farEnd r.agent r.port with | some (g, _) => g == f | none => false

/-- Agents that a classification finds to be failed switches: two or more of their links reported by the far ends and none
by themselves (R163). -/
def State.failedSwitches (s : State) : List Fid :=
  let cand := (s.rte.reports.filterMap fun r => (s.farEnd r.agent r.port).map (·.1)).dedup
  cand.filter fun f => decide (2 ≤ (s.farReports f).length) && !(s.rte.reports.any fun r => r.agent == f)

/-- The failed elements a classification finds (R163). -/
def State.classified (s : State) : List (Fid × Option Nat) :=
  let sw := s.failedSwitches
  let links := ((s.rte.reports.filter fun r => !(sw.any fun f => (s.farReports f).contains r)).map fun r => s.linkName r.agent r.port).dedup
  (sw.map fun f => (f, none)) ++ links.map fun l => (l.1, some l.2)

/-- Gambits that classification selects, and jobs left without one (R163). -/
def State.selection (s : State) (new : List (Fid × Option Nat)) : List (BitVec 24) × List Nat :=
  let jobs := s.sch.admitted.filter fun a => new.any fun x => s.inFootprint a x
  let pick := fun (a : Admitted) =>
    match s.openFaults a with
    | [x] => (s.armedFor a x).map (·.rec_.gambitId)
    | _ => none
  (jobs.filterMap pick, (jobs.filter fun a => (pick a).isNone).map (·.number))

/-- The PLAY packet's parts: payload, ADDR and AUX (R153). -/
def State.playParts (s : State) (ids : List (BitVec 24)) (result swap : BitVec 32) (seq : BitVec 16) :
    List Byte × BitVec 57 × BitVec 24 :=
  let slot := fun (i : BitVec 24) => match s.rte.gambits.find? fun g => g.rec_.gambitId == i with
    | some g => g.rec_.slot.toNat
    | none => 0
  let hd := ids.headD 0
  let rest := ids.drop 1
  (leBytes 4 result.toNat ++ leBytes 2 rest.length ++ zeros 2
      ++ rest.flatMap (fun i => leBytes 4 i.toNat ++ leBytes 1 (slot i) ++ zeros 3),
    BitVec.ofNat 57 (hd.toNat * 2 ^ 33 + swap.toNat * 2), BitVec.ofNat 24 (slot hd * 2 ^ 18 + seq.toNat))

/-- Agents a play concerns: those with a section of a listed gambit (R161). -/
def State.playAgents (s : State) (ids : List (BitVec 24)) : List Fid :=
  ((s.rte.gambits.filter fun g => ids.contains g.rec_.gambitId).flatMap fun g => g.rec_.sections.map (·.agent)).dedup

/-- Withdraws the install in progress (R169, R197): a TINST tag completes with 0xF1, any other install runs again after the
swap. -/
def State.withdrawInstall (s : State) : State :=
  match s.rte.install with
  | none => s
  | some i =>
    let s := s.dropInstall
    match i.purpose with
    | .tag e t n => s.finishInstall (.tag e t n) 0xF1 0
    | p => { s with rte := { s.rte with waiting := (i.sets, p) :: s.rte.waiting } }

/-- Emits the PLAY that lists these gambits and those of a pending play, at most 16 (R164); `want` is the swap epoch a manual
play asks for, 0 for the earliest (R209). -/
def State.emitPlay (s : State) (new : List (BitVec 24)) (firstNs : Nat) (want : Nat := 0) : State :=
  let s := s.withdrawInstall
  let old := match s.rte.play with | some p => p.gambits | none => []
  let ids := ((old ++ new).dedup).take 16
  let swap : BitVec 32 := BitVec.ofNat 32 (max (s.epochAfter 300000 + 1) want)
  let swap := match s.rte.play with | some p => if seqLater swap p.swapEpoch then swap else p.swapEpoch | none => swap
  let seq := s.rte.playSeq + 1
  let result := s.versionNext
  let p : CtlPlay := { seq := seq, swapEpoch := swap, result := result, gambits := ids, emittedNs := s.now
                       firstReportNs := match s.rte.play with | some p => p.firstReportNs | none => firstNs }
  let x := s.playParts ids result swap seq
  let s := { s with rte := { s.rte with play := some p, playSeq := seq } }
  let s := (s.satFld RTE_GAMBIT_PLAYS 1).setFld RTE_GAMBIT_LAST_GAMBIT (ids.getLastD 0).toNat
  (s.mirrorOut 9).broadcast 0x25 x.1 (some (.play seq)) x.2.1 x.2.2

/-- Closes the classification (R163, R166): failed elements, jobs without a gambit, selected gambits, the PLAY. -/
def State.closeClassification (s : State) : State :=
  match s.rte.classNs with
  | none => s
  | some first =>
    let new := s.classified
    let s := { s with rte := { s.rte with classNs := none, reports := []
                                          failed := s.rte.failed ++ new.filter fun x => !s.rte.failed.contains x } }
    let s := s.forEach new fun s x =>
      if (s.sch.admitted.any fun a => s.inFootprint a x) || s.grp.trees.any fun t => s.onTree t x then s.lapse 0x000C x.1.toNat else s
    let r := s.selection new
    let s := s.forEach r.2 fun s j =>
      ((s.raise srcRTE 3 (BitVec.ofNat 16 j)).satFld RTE_FAILOVER_NO_GAMBIT 1).lapse 0x0005 j
    if r.1.isEmpty then s
    else if s.fld RTE_FAILOVER_AUTO_PLAY = 1 then s.emitPlay r.1 first
    else { s with rte := { s.rte with selected := s.rte.selected ++ r.1, selectedNs := some (s.rte.selectedNs.getD first) } }

/-- CLASSIFICATION_CLOSE (R163): 20 µs after the first report. -/
def execClassificationClose (s : State) : Answer :=
  match s.rte.classNs with
  | some first => if s.now < first + 20000 then .next s else .next s.closeClassification
  | none => .next s

/-- A link-down report reaches the failover decision (R163, R169): the classification closes once both ends of every reported
link have reported; a late report of a switch already classified is recorded at severity 1. -/
def State.reportDown (s : State) (f : Fid) (port : Nat) : State :=
  let links := s.dom.links.map fun (l : Link) =>
    if (l.aId == f && l.aPort == port) || (l.bId == f && l.bPort == port) then { l with up := false } else l
  let s : State := { s with dom := { s.dom with links := links } }
  if s.rte.failed.contains (f, none) then s.raise srcRTE 1
  else if s.rte.failed.contains ((s.linkName f port).1, some (s.linkName f port).2) then s
  else
    let r : DownReport := { agent := f, port := port, atNs := s.now }
    let known := s.rte.reports.any fun x => x.agent == f && x.port == port
    let reports := if known then s.rte.reports else s.rte.reports ++ [r]
    let s : State := { s with rte := { s.rte with reports := reports, classNs := some (s.rte.classNs.getD s.now) } }
    if s.rte.reports.all fun x => s.bothReported x then s.closeClassification else s

/-- A PLAY is acknowledged by an agent concerned (R161, R164). -/
def State.playAcked (s : State) (seq : BitVec 16) (f : Fid) : State :=
  match s.rte.play with
  | some p => if p.seq = seq ∧ !p.acks.contains f then
      { s with rte := { s.rte with play := some { p with acks := f :: p.acks } } } else s
  | none => s

/-- PLAY_RESEND_TIMER (R164): the PLAY as unicast to each agent concerned that has not acknowledged it, twice. -/
def execPlayResendTimer (s : State) : Answer :=
  match s.rte.play with
  | some p =>
    if 2 ≤ p.resends ∨ s.now < p.emittedNs + 100000 * (p.resends + 1) then .next s
    else
      let x := s.playParts p.gambits p.result p.swapEpoch p.seq
      let miss := (s.playAgents p.gambits).filter fun f => !p.acks.contains f
      let s := { s with rte := { s.rte with play := some { p with resends := p.resends + 1 } } }
      .next (s.forEach miss fun s f => s.sendHooked f 0x25 x.1 (.play p.seq) x.2.1 x.2.2)
  | none => .next s

/-- Applies a gambit's sections to the controller's copies. -/
def State.applyGambit (s : State) (g : Gambit) : State :=
  { s with rte := { s.rte with copy := s.patched (g.rec_.sections.map fun x => (x.agent, x.patches)) } }

/-- Switch hops from an agent to a destination on the FIXED hops of the controller's copies. -/
def State.walkHops (s : State) (dest : Fid) : Nat → Fid → Nat → Nat
  | 0, _, k => k
  | n + 1, f, k =>
    let e := (s.copyOf f).routes.getD dest.localId 0
    match s.farEnd f (hopPort (hopWord e (routeFixed e))) with
    | some (g, _) => if g = dest then k else s.walkHops dest n g (k + 1)
    | none => k

/-- A nested route that a gambit lengthened beyond its budget makes its schedule unfit (R465, "When limits meet"). -/
def State.recheckNested (s : State) (a : Admitted) : State :=
  match a.sched.nestedBudget with
  | none => s
  | some b =>
    let own := fun (f : Flow) => f.path.filter fun x => x.1.domain == s.fid.domain
    let hops := fun (f : Flow) => match own f with
      | x :: _ =>
        let local_ := if f.dest.domain = s.fid.domain then f.dest
          else match (own f).getLast? with
            | some y => ((s.farEnd y.1 y.2).map (·.1)).getD f.dest
            | none => f.dest
        f.path.length - (own f).length + s.walkHops local_ 63 x.1 0
      | [] => f.path.length - 1
    let bad := a.sched.flows.filter fun f => decide (b < 600 + 180 * hops f)
    if a.unfit ∨ bad.isEmpty then s
    else s.markUnfit a (bad.flatMap fun f => flowItem 0x09 f f.src 0xFFFF f.headSlot f.headSlot)

/-- A gambit that waited for the swap is taken; one of a job whose gambit swapped no longer matches the tables in force, and its tag
completes as withdrawn (R167, R169; log entry 159). -/
def State.takeWaiting (s : State) (jobs : List Nat) (agents : List Fid) (v : BitVec 32) (w : GambitWait) : State :=
  if jobs.contains w.job then s.completeOpt w.tag 0xF1
  else s.takeGambit w.rec_ w.job (if w.rec_.sections.any fun x => agents.contains x.agent then v else w.base) w.tag

/-- The swap of a play at its epoch (R161, R162, R164, R167): result version, interruption, the job's other gambits invalidated,
the others rebased at the agents concerned, or staged again where their patches overlap. -/
def State.playSwapped (s : State) (p : CtlPlay) : State :=
  let played := s.rte.gambits.filter fun g => p.gambits.contains g.rec_.gambitId
  let jobs := (played.map (·.job)).dedup
  let agents := s.playAgents p.gambits
  let sets := played.flatMap fun g => g.rec_.sections.map fun x => (x.agent, x.patches)
  let faults := fun (job : Nat) => s.rte.failed.filter fun x => played.any fun g => g.job == job && s.gambitFor g x
  let adm := s.sch.admitted.map fun (a : Admitted) => if jobs.contains a.number then { a with played := (a.played ++ faults a.number).dedup } else a
  let s : State := { s with sch := { s.sch with admitted := adm } }
  let s := s.forEach played fun s g => s.applyGambit g
  let s := { s with rte := { s.rte with play := none, shadow := s.rte.copy } }
  let s := s.forEach s.sch.admitted fun s a => s.recheckNested a
  let s := (s.setFld RTE_INSTALL_VERSION_ACTIVE p.result.toNat).setFld RTE_FAILOVER_LAST_INTERRUPT_US
    (min ((s.now - p.firstReportNs) / 1000) 65535)
  let gone := s.rte.gambits.filter fun g => jobs.contains g.job
  let s := s.forEach (gone.filter fun g => !p.gambits.contains g.rec_.gambitId) fun s g =>
    s.forEach g.rec_.sections fun s x => s.sendInvalidate x.agent g.rec_.slot
  let l := s.rte.gambits.map fun (g : Gambit) =>
    if jobs.contains g.job then { g with armed := false, invalid := true } else g
  let s : State := { s with rte := { s.rte with gambits := l } }
  let others := s.rte.gambits.filter fun g => !g.invalid && g.rec_.sections.any fun x => agents.contains x.agent
  let s := s.forEach others fun s g => s.rebaseGambit sets p.result g
  let s := s.rebaseAgents p.result agents
  let waiting := s.rte.gambitWait
  let s : State := { s with rte := { s.rte with gambitWait := [] } }
  let s := s.forEach waiting fun s w => s.takeWaiting jobs agents p.result w
  (s.stageDue.showUnarmed).nextInstall

/-! ## AUTO_PLAY and drains (R156, R166, R168) -/

/-- Writes RTE_FAILOVER.AUTO_PLAY (R166, R168, R7). -/
def State.writeAutoPlay (s : State) (v : Nat) : State :=
  let s := s.setFld RTE_FAILOVER_AUTO_PLAY v
  if v = 0 then s.lapse 0x0004 0 else s.restore 0x0004 0

/-- AUTO_PLAY_WRITE (R166, R4): the write of RTE_FAILOVER at a level; NO_GAMBIT bits written as 1 clear. -/
def execAutoPlayWrite (lvl : Level) (v : Word64) (s : State) : Answer :=
  match lvl with
  | .tenant => .next (s.violation lvl)
  | _ =>
    let w := match regDesc RTE_FAILOVER with | some d => writeWord d (s.reg RTE_FAILOVER) v | none => v
    .next ((s.setReg RTE_FAILOVER w).writeAutoPlay (RTE_FAILOVER_AUTO_PLAY.of v))

/-- No route entry of any copy names the element's ports as FIXED, and every hop on them has WEIGHT 0 (R156). -/
def routeAvoids (e : BitVec 512) (port : Option Nat) : Bool :=
  let onIt := fun (p : Nat) => match port with | some q => p == q | none => true
  routeValid e == false ||
    (!onIt (hopPort (hopWord e (routeFixed e))) &&
      (List.range (routeNhops e + 1)).all fun i => !onIt (hopPort (hopWord e i)) || hopWeight (hopWord e i) == 0)

/-- The tables in force avoid an element, and no admitted schedule uses it (R156, steps 1 and 2). -/
def State.drained (s : State) (d : DrainElem) : Bool :=
  ((s.portsOn d).all fun x => (s.copyOf x.1).routes.all fun e => routeAvoids e.2 (some x.2))
    && s.sch.admitted.all fun a => !s.usesElem a.sched d

/-- Two flows are one: source, destination and stream. -/
def sameFlow (x y : Flow) : Bool := x.src == y.src && x.dest == y.dest && x.stream == y.stream

/-- Every flow of a schedule runs in an admitted schedule that avoids the element (R156, step 1). -/
def State.replaced (s : State) (a : Admitted) (d : DrainElem) : Bool :=
  a.sched.flows.all fun f => s.sch.admitted.any fun b => !s.usesElem b.sched d && b.sched.flows.any fun g => sameFlow g f

/-- The request stands: every admitted schedule that uses the element is replaced (R156, step 1). -/
def State.mayDrain (s : State) (d : DrainElem) : Bool :=
  s.sch.admitted.all fun a => !s.usesElem a.sched d || s.replaced a d

/-- A route entry without some ports: FIXED on another hop, WEIGHT 0 on every hop that uses them; an entry that has no other hop is no
longer valid (R147, R156; log entry 160). -/
def avoidEntry (e : BitVec 512) (bad : Nat → Bool) : Nat :=
  let hops := List.range (routeNhops e + 1)
  let onIt := fun (i : Nat) => bad (hopPort (hopWord e i))
  match hops.find? fun i => !onIt i with
  | none => 0
  | some i =>
    let fixed := if onIt (routeFixed e) then i else routeFixed e
    let ctl := ctlWord e - routeFixed e * 2 ^ 53 + fixed * 2 ^ 53
    ctl * 2 ^ 448 + (hops.map fun k =>
      (hopPort (hopWord e k) * 2 ^ 23 + (if onIt k then 0 else hopWeight (hopWord e k) * 2 ^ 15)) * 2 ^ (416 - 32 * k)).sum

/-- The patches of a drain at one agent: its route entries without these ports (R156, step 2). -/
def State.avoidPatches (s : State) (f : Fid) (ports : List Nat) : List Byte :=
  ((s.copyOf f).routes.filter fun e => !(ports.all fun p => routeAvoids e.2 (some p))).flatMap fun e =>
    Patch.bytes ⟨1, 0, e.1, 1, [avoidEntry e.2 ports.contains]⟩

/-- The slot entries of a replaced schedule go (R120, R156). -/
def Admitted.clearPatches (a : Admitted) : List (Fid × List Byte) :=
  a.runs.map fun r => (r.2.1, Patch.bytes ⟨3, r.2.2.1, r.2.2.2.1, r.2.2.2.2 - r.2.2.2.1 + 1, []⟩)

/-- Joins the patches of one agent. -/
def mergeSets (l : List (Fid × List Byte)) : List (Fid × List Byte) :=
  ((l.map (·.1)).dedup).map fun f => (f, (l.filter fun x => x.1 == f).flatMap (·.2))

/-- The drain install of an element (R156, step 2). -/
def State.drainSets (s : State) (d : DrainElem) : List (Fid × List Byte) :=
  let on := s.portsOn d
  let routes := ((on.map (·.1)).dedup).map fun f => (f, s.avoidPatches f ((on.filter fun x => x.1 == f).map (·.2)))
  let slots := (s.sch.admitted.filter fun a => s.usesElem a.sched d).flatMap Admitted.clearPatches
  (mergeSets (routes ++ slots)).filter fun x => !x.2.isEmpty

/-- The drain of an element is asked for (R156, steps 1 and 2): refused, or installed. -/
def State.startDrain (s : State) (d : DrainElem) : State :=
  if s.mayDrain d then
    let sets := s.drainSets d
    if sets.isEmpty then s.drainInForce d else (s.setDrain { elem := d }).submitInstall sets (.drain d)
  else s

/-- The element is quiet: DRAINED of a switch (R44); two whole epochs with Control frames only at both ports of a link (R156). -/
def State.elemQuiet (s : State) (d : DrainElem) : Bool :=
  match d with
  | .switch f => match s.refOf f with | some a => s.jfld a JX_STATUS_DRAINED == 1 | none => false
  | .link _ _ => (s.portsOn d).all fun x => match s.nodeOf x.1 with
      | some n => (s.port n x.2).quietEpochs == 2
      | none => false

/-- DRAIN_QUIET (R156; log entry 160): the drain of an element is asked for where none is in progress; once its install is in force
and the element is quiet, its reset or removal is permitted. -/
def execDrainQuiet (d : DrainElem) (s : State) : Answer :=
  match s.drainOf d with
  | none => .next (s.startDrain d)
  | some x =>
    if x.startNs.isSome ∧ s.drained d ∧ s.elemQuiet d then .next (s.setDrain { x with permitted := true }) else .next s

/-- DRAIN_TIMEOUT (R156, step 4): not quiet within 100 ms; reported at severity 2, and the drain install stays. -/
def execDrainTimeout (d : DrainElem) (s : State) : Answer :=
  match s.drainOf d with
  | none => .next s
  | some x =>
    match x.startNs with
    | none => .next s
    | some t =>
      if x.permitted ∨ x.late ∨ s.now < t + 100000000 then .next s else .next ((s.setDrain { x with late := true }).raise srcRTE 2)

/-! ## Install sets (R229) -/

/-- Records of an install set: fabric ID and patches. -/
def setRecords : Nat → List Byte → List (Fid × List Byte)
  | 0, _ => []
  | n + 1, l =>
    let b := leAt l 4 4
    (BitVec.ofNat 32 (leAt l 0 4), (l.drop 8).take b) :: setRecords n (l.drop (8 + b))

/-- Splits an install set into its agents' patches; `none` where it breaks R154 or R229. -/
def State.parseSet (s : State) (l : List Byte) : Option (List (Fid × List Byte)) :=
  let total := leAt l 4 4
  let rs := setRecords (min (leAt l 0 4) (l.length / 8)) ((l.take total).drop 16)
  if leAt l 0 4 ≤ l.length / 8 ∧ allZero l 8 8 ∧ 16 ≤ total ∧ total ≤ l.length
      ∧ 16 + (rs.map fun x => 8 + x.2.length).sum = total
      ∧ rs.all (fun x => (s.refOf x.1).isSome && (parsePatches (s.variantOf x.1) x.2.length x.2).isSome) then some rs
  else none

/-! ## The slot tables of a schedule (R120, R121) -/

/-- A run's slot entries: the head, then its continuations. -/
def runEntries (len flits inPort : Nat) (src stream tag : Nat) : List Nat :=
  let common := inPort * 2 ^ 40 + src * 2 ^ 24 + stream * 2 ^ 8 + tag
  (2 ^ 62 + (len - 1) * 2 ^ 59 + flits * 2 ^ 49 + common) :: List.replicate (len - 1) (2 * 2 ^ 62 + common)

/-- Input ports along a flow's route: local injection, then the far port of each link. -/
def State.inPorts (s : State) (f : Flow) : List Nat :=
  0x1FF :: f.path.map fun x => match s.farEnd x.1 x.2 with | some (_, q) => q | none => 0

/-- The slot patches of an admitted schedule, by agent. -/
def State.schedulePatches (s : State) (a : Admitted) : List (Fid × List Byte) :=
  a.runs.map fun r =>
    let f := a.sched.flows.getD r.1 { src := 0, dest := 0, stream := 0, flits := 0, headSlot := 0, path := [] }
    let hop := (f.path.zip (s.inPorts f)).find? fun x => x.1.1 == r.2.1 && x.1.2 == r.2.2.1
    let inP := match hop with | some x => x.2 | none => 0
    let n := r.2.2.2.2 - r.2.2.2.1 + 1
    (r.2.1, Patch.bytes ⟨2, r.2.2.1, r.2.2.2.1, n, runEntries n f.flits inP f.src.localId f.stream.toNat (a.number % 256)⟩)

end Sys2Proof.Machine
end

