-- ==== Sys2Proof/Machine/Combine.lean ====
section
/-! DEFINITION. Exact combine (R53, R243, R247 to R252, R265): one rounding per node, in input order. -/

namespace Sys2Proof.Machine

/-! ## Formats (R243, R247) -/

/-- What an encoding of a floating-point format does at its top exponent. -/
inductive FloatTop where
  /-- infinities and NaNs -/
  | ieee
  /-- one NaN code, no infinity (E4M3) -/
  | oneNan
  /-- finite values alone (E2M1) -/
  | finite
deriving DecidableEq, Repr

/-- A floating-point format: exponent bits, mantissa bits, top. -/
structure FloatFmt where
  eb : Nat
  mb : Nat
  top : FloatTop
deriving DecidableEq, Repr

def fp32 : FloatFmt := ⟨8, 23, .ieee⟩
def bf16 : FloatFmt := ⟨8, 7, .ieee⟩
def fp16 : FloatFmt := ⟨5, 10, .ieee⟩
def e4m3 : FloatFmt := ⟨4, 3, .oneNan⟩
def e5m2 : FloatFmt := ⟨5, 2, .ieee⟩
def e2m1 : FloatFmt := ⟨2, 1, .finite⟩

/-- How the elements of an FMT are read (R243). -/
inductive ElemFmt where
  | float (f : FloatFmt)
  | int (bytes : Nat)
deriving DecidableEq, Repr

/-- Element format of an FMT code; of an MX code, that of its elements. -/
def elemFmt (fmt : Nat) : Option ElemFmt :=
  match fmt with
  | 1 => some (.float fp32)
  | 2 => some (.float bf16)
  | 3 => some (.float fp16)
  | 4 => some (.float e4m3)
  | 5 => some (.float e5m2)
  | 6 => some (.int 4)
  | 7 => some (.int 1)
  | 8 => some (.float e4m3)
  | 9 => some (.float e5m2)
  | 10 => some (.float e2m1)
  | 11 => some (.int 1)
  | _ => none

/-- The code is an MX format. -/
def isMx (fmt : Nat) : Bool := decide (8 ≤ fmt ∧ fmt ≤ 11)

/-- Bytes of an element of a format that is not MX (R243). -/
def elemBytes (fmt : Nat) : Nat :=
  match fmt with
  | 1 => 4
  | 2 => 2
  | 3 => 2
  | 6 => 4
  | _ => 1

/-- Bytes of the scale area of a chunk of C bytes (R247). -/
def scaleArea (fmt c : Nat) : Nat := if fmt = 10 then c / 16 else if isMx fmt then c / 32 else 0

/-- Element bytes of one 32-element block (R247). -/
def blockBytes (fmt : Nat) : Nat := if fmt = 10 then 16 else 32

/-- Blocks of a chunk of C bytes (R247). -/
def chunkBlocks (fmt c : Nat) : Nat := if fmt = 10 then 15 * c / 256 else 31 * c / 1024

/-- Elements of a chunk of C bytes (R247). -/
def chunkElems (fmt c : Nat) : Nat := if isMx fmt then 32 * chunkBlocks fmt c else c / elemBytes fmt

/-- COMBINE and FMT form a combination R243 allows at a chunk of KIND 0. -/
def denseAllowed (comb fmt : Nat) : Bool :=
  if comb ≤ 2 then decide (1 ≤ fmt ∧ fmt ≤ 11)
  else if comb = 4 then decide (1 ≤ fmt ∧ fmt ≤ 7)
  else (comb == 3 || comb == 5) && (fmt == 6 || fmt == 7)

/-- COMBINE, FMT and KIND form a combination R243 allows. -/
def chunkAllowed (kind comb fmt : Nat) : Bool :=
  match kind with
  | 0 => denseAllowed comb fmt
  | 1 => comb == 0 && decide (1 ≤ fmt ∧ fmt ≤ 3)
  | 2 => (comb == 0 && fmt == 0) || (decide (comb ≤ 2) && fmt == 1) || (decide (comb ≤ 5) && fmt == 6)
  | _ => false

/-! ## Values -/

/-- An element's value: finite in units of the format's smallest magnitude, with the sign of zero; infinity; NaN. -/
inductive Val where
  | fin (n : Int) (neg : Bool)
  | inf (neg : Bool)
  | nan
deriving DecidableEq, Repr

/-- Reads a floating-point code. -/
def FloatFmt.decode (f : FloatFmt) (x : Nat) : Val :=
  let neg := x / 2 ^ (f.eb + f.mb) % 2 == 1
  let e := x / 2 ^ f.mb % 2 ^ f.eb
  let m := x % 2 ^ f.mb
  let mag : Nat := if e = 0 then m else (2 ^ f.mb + m) * 2 ^ (e - 1)
  let v := Val.fin (if neg then -(mag : Int) else mag) neg
  match f.top with
  | .ieee => if e = 2 ^ f.eb - 1 then (if m = 0 then .inf neg else .nan) else v
  | .oneNan => if e = 2 ^ f.eb - 1 ∧ m = 2 ^ f.mb - 1 then .nan else v
  | .finite => v

/-- `a` ÷ 2^`d`, rounded to nearest, ties to even. -/
def rne (a d : Nat) : Nat :=
  let q := a / 2 ^ d
  let r := a % 2 ^ d
  if 2 ^ d < 2 * r ∨ (2 * r = 2 ^ d ∧ 0 < d ∧ q % 2 = 1) then q + 1 else q

/-- The largest finite code without sign. -/
def FloatFmt.maxCode (f : FloatFmt) : Nat :=
  match f.top with
  | .ieee => (2 ^ f.eb - 1) * 2 ^ f.mb - 1
  | .oneNan => 2 ^ (f.eb + f.mb) - 2
  | .finite => 2 ^ (f.eb + f.mb) - 1

/-- Rounds magnitude `a` ÷ 2^`d` into a code without sign: the code, and whether the format was exceeded (R250, R251).
With `sat`, an excess saturates; otherwise it becomes infinity where the format has one. -/
def FloatFmt.encodeMag (f : FloatFmt) (a d : Nat) (sat : Bool) : Nat × Bool :=
  let sh := max (Nat.log2 a - f.mb) d
  let code := if a = 0 then 0 else (sh - d) * 2 ^ f.mb + rne a sh
  if code ≤ f.maxCode then (code, false)
  else (if f.top == .ieee && !sat then f.maxCode + 1 else f.maxCode, true)

/-- The sign bit of a format. -/
def FloatFmt.signBit (f : FloatFmt) (neg : Bool) : Nat := if neg then 2 ^ (f.eb + f.mb) else 0

/-- The canonical NaN (R250). -/
def FloatFmt.nanCode (f : FloatFmt) : Nat :=
  match f.top with
  | .oneNan => 2 ^ (f.eb + f.mb) - 1
  | _ => (2 ^ f.eb - 1) * 2 ^ f.mb + 2 ^ (f.mb - 1)

/-- FLAGS bits (R246). -/
def flagRange : Nat := 1
def flagNan : Nat := 2

/-- Encodes an exact result (R250): code and FLAGS. -/
def FloatFmt.encode (f : FloatFmt) (v : Val) : Nat × Nat :=
  match v with
  | .nan => (f.nanCode, flagNan)
  | .inf neg => (f.signBit neg + f.maxCode + 1, 0)
  | .fin n neg =>
    let r := f.encodeMag n.natAbs 0 false
    (f.signBit (if n = 0 then neg else decide (n < 0)) + r.1, if r.2 then flagRange else 0)

/-- Exact SUM of values in input order (R249, R250). -/
def valSum (l : List Val) : Val :=
  if l.any (fun v => v == .nan) then .nan
  else
    let pos := l.any fun v => v == .inf false
    let neg := l.any fun v => v == .inf true
    if pos && neg then .nan
    else if pos then .inf false
    else if neg then .inf true
    else
      let n := (l.map fun v => match v with | .fin n _ => n | _ => 0).sum
      .fin n (if n = 0 then l.all fun v => match v with | .fin 0 b => b | _ => false else decide (n < 0))

/-- `a` is below `b`, with −0 below +0 (R250). -/
def valLt (a b : Val) : Bool :=
  match a, b with
  | .inf true, .inf true => false
  | .inf true, _ => true
  | _, .inf true => false
  | .inf false, _ => false
  | _, .inf false => true
  | .fin x p, .fin y q => decide (x < y) || (x == y && p && !q)
  | _, _ => false

/-- MIN or MAX of values (R249, R250). -/
def valPick (isMax : Bool) (l : List Val) : Val :=
  if l.any (fun v => v == .nan) then .nan
  else match l with
    | [] => .fin 0 false
    | v :: t => t.foldl (fun m x => if (if isMax then valLt m x else valLt x m) then x else m) v

/-- The operation of COMBINE 0, 1 or 2. -/
def valOp (comb : Nat) (l : List Val) : Val :=
  if comb = 0 then valSum l else valPick (comb == 2) l

/-! ## One element -/

/-- Reads `bytes` bytes of two's complement. -/
def intOf (bytes x : Nat) : Int := if x < 2 ^ (8 * bytes - 1) then (x : Int) else (x : Int) - 2 ^ (8 * bytes)

/-- Writes two's complement. -/
def ofInt (bytes : Nat) (n : Int) : Nat := (n % 2 ^ (8 * bytes)).toNat

/-- The bitwise operation of COMBINE 3, 4 or 5. -/
def bitOp (comb a b : Nat) : Nat := if comb = 3 then a &&& b else if comb = 4 then a ||| b else a ^^^ b

/-- Folds the bitwise operation over inputs. -/
def bitFold (comb : Nat) : List Nat → Nat
  | [] => 0
  | x :: t => t.foldl (bitOp comb) x

/-- The saturated SUM, MIN or MAX of integers (R250): code and FLAGS. -/
def intCombine (bytes comb : Nat) (l : List Nat) : Nat × Nat :=
  let xs := l.map (intOf bytes)
  let hi : Int := 2 ^ (8 * bytes - 1) - 1
  let lo : Int := -2 ^ (8 * bytes - 1)
  let n : Int := if comb = 0 then xs.sum
    else match xs with
      | [] => 0
      | x :: t => t.foldl (fun m y => if comb = 1 then min m y else max m y) x
  if hi < n then (ofInt bytes hi, flagRange) else if n < lo then (ofInt bytes lo, flagRange) else (ofInt bytes n, 0)

/-- Combines one element position of a format that is not MX (R249, R250): code and FLAGS. -/
def elemCombine (fmt comb : Nat) (l : List Nat) : Nat × Nat :=
  if 3 ≤ comb then (bitFold comb l, 0)
  else match elemFmt fmt with
    | some (.float f) => f.encode (valOp comb (l.map f.decode))
    | some (.int b) => intCombine b comb l
    | none => (0, 0)

/-! ## Chunks -/

/-- Combines the elements of dense inputs, `n` of them, each input as its bytes or `none` where elided (R248, R249). -/
def denseElems (fmt comb : Nat) : Nat → List (List Byte) → List Byte × Nat
  | 0, _ => ([], 0)
  | n + 1, ls =>
    let w := elemBytes fmt
    let r := elemCombine fmt comb (ls.map fun l => leAt l 0 w)
    let t := denseElems fmt comb n (ls.map fun l => l.drop w)
    (leBytes w r.1 ++ t.1, r.2 ||| t.2)

/-! ### MX blocks (R251) -/

/-- The largest exponent of an MX element format (R251). -/
def mxEmax (fmt : Nat) : Int := if fmt = 8 then 8 else if fmt = 9 then 15 else if fmt = 10 then 2 else 0

/-- Fraction bits of the smallest magnitude of an MX element format. -/
def mxFrac (fmt : Nat) : Nat := if fmt = 8 then 9 else if fmt = 9 then 16 else if fmt = 10 then 1 else 6

/-- Value of an MX element in units of 2^−127 times the format's smallest magnitude. -/
def mxVal (fmt scale code : Nat) : Val :=
  match elemFmt fmt with
  | some (.float f) =>
    match f.decode code with
    | .fin n neg => .fin (n * 2 ^ scale) neg
    | v => v
  | some (.int b) => .fin (intOf b code * 2 ^ scale) (decide (intOf b code < 0))
  | none => .fin 0 false

/-- Element codes of a block's bytes: MXFP4 packs two, the lower index in bits 3:0 (R247). -/
def blockCodes (fmt : Nat) (l : List Byte) : List Nat :=
  if fmt = 10 then l.flatMap fun b => [b.toNat % 16, b.toNat / 16] else l.map (·.toNat)

/-- Packs pairs of 4-bit codes. -/
def packNibbles : List Nat → List Byte
  | a :: b :: t => BitVec.ofNat 8 (a % 16 + 16 * (b % 16)) :: packNibbles t
  | [a] => [BitVec.ofNat 8 (a % 16)]
  | [] => []

/-- Block bytes of element codes. -/
def codesBlock (fmt : Nat) (l : List Nat) : List Byte := if fmt = 10 then packNibbles l else l.map (BitVec.ofNat 8)

/-- Encodes one element at a scale (R251): value ÷ 2^(scale − 127), nearest even, saturated. -/
def mxElem (fmt scale : Nat) (n : Int) (neg : Bool) : Nat × Nat :=
  match elemFmt fmt with
  | some (.float f) =>
    let r := f.encodeMag n.natAbs scale true
    (f.signBit (if n = 0 then neg else decide (n < 0)) + r.1, if r.2 then flagRange else 0)
  | some (.int b) =>
    let q := rne n.natAbs scale
    let lim := if n < 0 then 128 else 127
    let q2 := min q lim
    (ofInt b (if n < 0 then -(q2 : Int) else q2), if lim < q then flagRange else 0)
  | none => (0, 0)

/-- Combines one block: inputs as scale and 32 codes; answers scale, codes and FLAGS (R251). The elements of a block with
scale 0xFF are not stated (log entry 22). -/
def mxBlock (fmt comb : Nat) (ins : List (Nat × List Nat)) : Nat × List Nat × Nat :=
  let vals := (List.range 32).map fun i => ins.map fun x => mxVal fmt x.1 (x.2.getD i 0)
  let rs := vals.map (valOp comb)
  let special := ins.any (fun x => x.1 == 255) || rs.any fun v => match v with | .fin _ _ => false | _ => true
  if special then (255, (List.range 32).map fun i => (Config.nanBlockElement i).toNat, flagNan)
  else
    let mags := rs.map fun v => match v with | .fin n _ => n.natAbs | _ => 0
    let amax := mags.foldl max 0
    if amax = 0 then (0, List.replicate 32 0, 0)
    else
      let e : Int := (Nat.log2 amax : Int) - 127 - (mxFrac fmt : Int) - mxEmax fmt
      let ec := max (-127) (min 127 e)
      let scale := (ec + 127).toNat
      let es := rs.map fun v => match v with | .fin n neg => mxElem fmt scale n neg | _ => (0, 0)
      (scale, es.map (·.1), es.foldl (fun f x => f ||| x.2) 0)

/-- Combines MX chunks of C bytes, `n` blocks, from block `b` on: scales, element bytes, FLAGS. -/
def mxBlocks (fmt comb c : Nat) (ls : List (List Byte)) : Nat → Nat → List Byte × List Byte × Nat
  | 0, _ => ([], [], 0)
  | n + 1, b =>
    let w := blockBytes fmt
    let r := mxBlock fmt comb (ls.map fun l => (leAt l b 1, blockCodes fmt (slice l (scaleArea fmt c + w * b) w)))
    let t := mxBlocks fmt comb c ls n (b + 1)
    (BitVec.ofNat 8 r.1 :: t.1, codesBlock fmt r.2.1 ++ t.2.1, r.2.2 ||| t.2.2)

/-- Combines dense inputs of one length `len` in a chunk of C bytes (R248 to R251): bytes and FLAGS. -/
def denseCombine (fmt comb c len : Nat) (ls : List (List Byte)) : List Byte × Nat :=
  if isMx fmt then
    let n := (len - scaleArea fmt c) / blockBytes fmt
    let r := mxBlocks fmt comb c ls n 0
    (r.1 ++ zeros (scaleArea fmt c - n) ++ r.2.1, r.2.2)
  else denseElems fmt comb (len / elemBytes fmt) ls

/-- All bytes are zero. -/
def allZeros (l : List Byte) : Bool := l.all fun b => b == 0

/-- A dense chunk that ELIDE or a node elides (R248): every byte zero; for MX, every element byte zero and no scale
0xFF. -/
def elidable (fmt c : Nat) (l : List Byte) : Bool :=
  if isMx fmt then allZeros (l.drop (scaleArea fmt c)) && (l.take (scaleArea fmt c)).all fun b => b != 0xFF
  else allZeros l

/-! ### Sparse segments (R264, R265) -/

/-- Pairs of a payload: index and value code. -/
def pairsOf (fmt : Nat) : Nat → List Byte → List (Nat × Nat)
  | 0, _ => []
  | n + 1, l => (leAt l 0 4, leAt l 4 (elemBytes fmt)) :: pairsOf fmt n (l.drop 8)

/-- The 8 bytes of a pair. -/
def pairBytes (fmt : Nat) (p : Nat × Nat) : List Byte := leBytes 4 p.1 ++ leBytes (elemBytes fmt) p.2 ++ zeros (4 - elemBytes fmt)

/-- Inserts an index into an ascending list without repeats. -/
def insertIdx (i : Nat) : List Nat → List Nat
  | [] => [i]
  | j :: t => if i < j then i :: j :: t else if i = j then j :: t else j :: insertIdx i t

/-- Merges pairs of all inputs by index (R265): pairs ascending, and FLAGS. -/
def sparseCombine (fmt : Nat) (ins : List (List (Nat × Nat))) : List (Nat × Nat) × Nat :=
  let idx := ins.flatten.foldl (fun l p => insertIdx p.1 l) []
  let r := idx.map fun i => (i, elemCombine fmt 0 (ins.filterMap fun l => (l.find? fun p => p.1 == i).map (·.2)))
  ((r.filter fun x => x.2.1 != 0).map fun x => (x.1, x.2.1), r.foldl (fun f x => f ||| x.2.2) 0)

/-! ### Short chunks (R262) -/

/-- Combines SCALAR values; a BARRIER (FMT 0) counts arrivals only. -/
def shortCombine (fmt comb : Nat) (l : List Nat) : Nat × Nat := if fmt = 0 then (0, 0) else elemCombine fmt comb l

end Sys2Proof.Machine
end

