-- ==== Sys2Proof/Machine/Members.lean ====
section
/-! DEFINITION. Group queues and the members of collective operations (R55, R226, R230 to R233, R241 to R248, R253, R254,
R256 to R259, R264 to R267, R276, R277, R281 to R288). -/

namespace Sys2Proof.Machine

/-! ## Collective packets (R97, R246) -/

/-- Fields of a Collective packet: ADDR and AUX (R97, R246). -/
def pktTree (h : Header) : BitVec 24 := BitVec.ofNat 24 (bitsAt h.addr.toNat 33 24)
def pktIndexField (h : Header) : Nat := bitsAt h.addr.toNat 8 25
def pktGen (h : Header) : BitVec 8 := BitVec.ofNat 8 (bitsAt h.addr.toNat 0 8)
def pktPart (h : Header) : Nat := bitsAt h.aux.toNat 20 4
def pktParts (h : Header) : Nat := bitsAt h.aux.toNat 16 4
def pktCombine (h : Header) : Nat := bitsAt h.aux.toNat 12 4
def pktFmt (h : Header) : Nat := bitsAt h.aux.toNat 8 4
def pktKind (h : Header) : Nat := bitsAt h.aux.toNat 4 4
def pktFlags (h : Header) : Nat := bitsAt h.aux.toNat 0 4
def pktGroup (h : Header) : Nat := h.stream.toNat

/-- The chunk index: 0 for KIND 2, whatever the field holds (R97). -/
def pktIndex (h : Header) : Nat := if pktKind h = 2 then 0 else pktIndexField h

/-- The SCALAR value of a KIND 2 chunk (R246). -/
def pktValue (h : Header) : Nat := pktIndexField h % 2 ^ 24 * 256 + pktPart h * 16 + pktParts h

/-- What a Collective packet says. -/
structure CollFields where
  typ : BitVec 8
  group : Nat
  opSeq : BitVec 32
  partition : BitVec 12
  tree : BitVec 24
  gen : BitVec 8
  index : Nat
  kind : Nat
  combine : Nat := 0
  fmt : Nat := 0
  flags : Nat := 0
  part : Nat := 0
  parts : Nat := 1
  value : Nat := 0
  elided : Bool := false
  resend : Bool := false
  payload : List Byte := []

/-- The packet of these fields (R97, R246). -/
def CollFields.packet (c : CollFields) (src dest : Fid) : Packet :=
  let field := if c.kind = 2 then c.value / 256 else c.index
  let part := if c.kind = 2 then c.value / 16 % 16 else if c.kind = 1 then c.part else 0
  let parts := if c.kind = 2 then c.value % 16 else if c.kind = 1 then c.parts - 1 else 0
  let l := if c.elided then [] else c.payload
  Packet.seal {
    hdr := { dest := dest, src := src, cls := .collective, typ := c.typ, zblk := c.elided, resend := c.resend
             partition := c.partition, length := lenOf l, stream := BitVec.ofNat 16 c.group, seq := c.opSeq
             addr := BitVec.ofNat 57 (c.tree.toNat * 2 ^ 33 + field % 2 ^ 25 * 2 ^ 8 + c.gen.toNat)
             aux := BitVec.ofNat 24 (part % 16 * 2 ^ 20 + parts % 16 * 2 ^ 16 + c.combine * 2 ^ 12 + c.fmt * 2 ^ 8 + c.kind * 2 ^ 4 + c.flags) }
    payload := l }

/-- A node sends a Collective packet over a port; one to the node itself is delivered (R255, "Sending to input 0"). The
controller's leave through the gates. -/
def State.sendColl (s : State) (n : Node) (port : Nat) (dest : Fid) (c : CollFields) : State :=
  let p := c.packet (s.nodeFid n) dest
  if dest = s.nodeFid n then s.emit (.delivered n port p)
  else if n = .ctl ∧ s.gatesOpen = false then s
  else (s.emit (.packet n p)).portSend n port p

/-! ## Reports of an agent (R61, R473) -/

/-- Sends a report that is acknowledged, or keeps it while orphaned (R61, R473). -/
def State.sendReport (s : State) (a : AgentRef) (typ : BitVec 8) (payload : List Byte) (form : Nat := 0) : State :=
  if s.mayReport a then s.sendMgmt (.agent a) (s.owner a) typ payload (BitVec.ofNat 24 form)
  else
    let p : Packet := { hdr := { ownHdr (s.owner a) typ payload with aux := BitVec.ofNat 24 form }, payload := payload }
    s.updAgent a fun g => { g with reports := g.reports ++ [p] }

/-! ## Descriptors (R241 to R244) -/

/-- Fields of a 64-byte descriptor (R241). -/
def dColl (d : List Byte) : Nat := leAt d 0 1
def dCombine (d : List Byte) : Nat := leAt d 1 1 % 16
def dFmt (d : List Byte) : Nat := leAt d 2 1 % 16
def dSignal (d : List Byte) : Bool := leAt d 3 1 % 2 == 1
def dElide (d : List Byte) : Bool := leAt d 3 1 / 2 % 2 == 1
def dId (d : List Byte) : List Byte := slice d 4 4
def dSrc (d : List Byte) : Nat := leAt d 8 8
def dDst (d : List Byte) : Nat := leAt d 16 8
def dCount (d : List Byte) : Nat := leAt d 24 8
def dSignalAddr (d : List Byte) : Nat := leAt d 32 8
def dOpSeq (d : List Byte) : BitVec 32 := BitVec.ofNat 32 (leAt d 40 4)
def dRoot (d : List Byte) : Nat := leAt d 44 2
def dChunkLog2 (d : List Byte) : Nat := leAt d 46 1
def dSegLog2 (d : List Byte) : Nat := leAt d 47 1
def dValue (d : List Byte) : Nat := leAt d 48 4

/-- Bytes of a chunk. -/
def dChunk (d : List Byte) : Nat := 2 ^ dChunkLog2 d

/-- KIND of the operation's chunks (R246, R262, R264). -/
def dKind (d : List Byte) : Nat := if dColl d = 6 ∨ dColl d = 7 then 2 else if dColl d = 8 then 1 else 0

/-- Elements of the whole vector that chunks cut (R242). -/
def dTotal (d : List Byte) (m : Nat) : Nat := if dColl d = 4 ∨ dColl d = 5 then m * dCount d else dCount d

/-- Chunks of the operation (R247, R262, R264). -/
def dChunks (d : List Byte) (m : Nat) : Nat :=
  match dKind d with
  | 2 => 1
  | 1 => (dCount d + 2 ^ dSegLog2 d - 1) / 2 ^ dSegLog2 d
  | _ => let e := chunkElems (dFmt d) (dChunk d); (dTotal d m + e - 1) / e

/-- Bytes of a partial chunk of `n` elements (R247). -/
def partBytes (fmt c n : Nat) : Nat :=
  if isMx fmt then (if n = 0 then 0 else scaleArea fmt c + n / 32 * blockBytes fmt) else n * elemBytes fmt

/-- Bytes that `n` elements take in memory; an MX vector stands there as chunks one after another (log entry 28). -/
def memBytes (fmt c n : Nat) : Nat :=
  if isMx fmt then n / chunkElems fmt c * c + partBytes fmt c (n % chunkElems fmt c) else n * elemBytes fmt

/-- Bytes at SRC_ADDR a member reads (R242). -/
def dSrcBytes (d : List Byte) (g : GroupQueue) : Nat :=
  match dColl d with
  | 3 => if g.rank = dRoot d then memBytes (dFmt d) (dChunk d) (dCount d) else 0
  | 5 => memBytes (dFmt d) (dChunk d) (g.members * dCount d)
  | 6 => 0
  | 7 => 0
  | 8 => 8 * dValue d
  | _ => memBytes (dFmt d) (dChunk d) (dCount d)

/-- Bytes at DST_ADDR a member writes (R242). -/
def dDstBytes (d : List Byte) (g : GroupQueue) : Nat :=
  match dColl d with
  | 2 => if g.rank = dRoot d then memBytes (dFmt d) (dChunk d) (dCount d) else 0
  | 4 => memBytes (dFmt d) (dChunk d) (g.members * dCount d)
  | 6 => 0
  | 7 => if dDst d = 0 then 0 else 4
  | 8 => dCount d * elemBytes (dFmt d)
  | _ => memBytes (dFmt d) (dChunk d) (dCount d)

/-- A range lies inside one window of the partition; an empty range always does (R95). -/
def Agent.inWindow (g : Agent) (partition : BitVec 12) (base len : Nat) : Bool :=
  len == 0 || g.windows.any fun w => w.partition == partition && decide (w.base ≤ base ∧ base + len ≤ w.base + w.length)

/-- A descriptor keeps R241: codes defined, unused fields zero (log entry 29 for what counts as unused). -/
def dFieldsOk (d : List Byte) (g : GroupQueue) : Bool :=
  let c := dColl d
  let data := decide (1 ≤ c ∧ c ≤ 5)
  decide (1 ≤ c ∧ c ≤ 8) && decide (leAt d 1 1 < 16) && decide (leAt d 2 1 < 16) && decide (leAt d 3 1 < 4) && allZero d 52 12
    && (dSignal d || dSignalAddr d == 0)
    && (data || !dElide d)
    && (dRoot d == 0 || ((c == 2 || c == 3) && decide (dRoot d < g.members)))
    && (if c = 8 then decide (8 ≤ dSegLog2 d ∧ dSegLog2 d ≤ 12 ∧ dSegLog2 d ≤ dChunkLog2 d + 1) else dSegLog2 d == 0)
    && (if c = 6 ∨ c = 7 then dChunkLog2 d == 0 && dSrc d == 0 && dCount d == 0
        else decide (10 ≤ dChunkLog2 d ∧ dChunkLog2 d ≤ g.chunkLog2))
    && (c != 6 || dDst d == 0) && (c == 7 || c == 8 || dValue d == 0)
    && (c == 6 || decide (1 ≤ dFmt d ∧ dFmt d ≤ 11)) && decide (dCombine d ≤ 5)

/-- COLL, COMBINE and FMT form an allowed combination (R242, R243). -/
def dCombinationOk (d : List Byte) : Bool :=
  match dColl d with
  | 3 => dCombine d == 4 && !isMx (dFmt d)
  | 4 => dCombine d == 4 && !isMx (dFmt d)
  | 6 => dCombine d == 0 && dFmt d == 0
  | 7 => chunkAllowed 2 (dCombine d) (dFmt d) && dFmt d != 0
  | 8 => chunkAllowed 1 (dCombine d) (dFmt d)
  | _ => denseAllowed (dCombine d) (dFmt d) && (dCombine d != 4 || dFmt d == 6 || dFmt d == 7)

/-- The DETAIL of a refusal of a descriptor, if any (R244, R259). -/
def descRefusal (x : Agent) (g : GroupQueue) (d : List Byte) : Option Nat :=
  if dFieldsOk d g = false then some 1
  else if dCombinationOk d = false then some 2
  else if dOpSeq d ≠ g.nextOpSeq then some 3
  else if x.inWindow g.partition (dSrc d) (dSrcBytes d g) = false ∨ x.inWindow g.partition (dDst d) (dDstBytes d g) = false
      ∨ (dSignal d ∧ x.inWindow g.partition (dSignalAddr d) (8 * dChunks d g.members) = false) then some 4
  else if 2 ^ 25 < dChunks d g.members ∨ (isMx (dFmt d) ∧ dCount d % 32 ≠ 0) then some 5
  else none

/-- The OP_SEQ after one, skipping 0 (R244). -/
def nextOp (o : BitVec 32) : BitVec 32 := if o + 1 = 0 then 1 else o + 1

/-! ## Group queues -/

/-- A group queue. -/
def State.gq (s : State) (a : AgentRef) (q : Nat) : Option GroupQueue := (s.agent a).gqs.get q

/-- Replaces a group queue. -/
def State.setGq (s : State) (a : AgentRef) (q : Nat) (g : GroupQueue) : State :=
  s.updAgent a fun x => { x with gqs := x.gqs.set q g }

/-- The compute side takes commands: out of reset and rejoined (R42). -/
def State.computeUp (s : State) (a : AgentRef) : Bool :=
  a.variant == .e && s.jfld a JX_STATUS_COMPUTE_IN_RESET == 0 && s.jfld a JX_STATUS_REJOINED == 1

/-- Operations of a queue, oldest first. -/
def Agent.opsOf (x : Agent) (q : Nat) : List MemberOp := x.ops.filter fun o => o.queue == q

/-- Replaces an operation. -/
def State.setOp (s : State) (a : AgentRef) (o : MemberOp) : State :=
  s.updAgent a fun x => { x with ops := updateFirst (fun y => y.queue == o.queue && y.opSeq == o.opSeq) (fun _ => o) x.ops }

/-- Removes an operation. -/
def State.dropOp (s : State) (a : AgentRef) (o : MemberOp) : State :=
  s.updAgent a fun x => { x with ops := removeFirst (fun y => y.queue == o.queue && y.opSeq == o.opSeq) x.ops }

/-- Operation of a group at a member. -/
def Agent.findOp (x : Agent) (group : Nat) (op : BitVec 32) : Option MemberOp :=
  x.ops.find? fun o => o.group == group && o.opSeq == op

/-! ## Completion records (R258, R226, R215) -/

/-- A completion record without its PHASE bit (R258). -/
def completionBytes (d : List Byte) (status detail : Nat) (o : Option MemberOp) (g : GroupQueue) : List Byte :=
  let ring := match o with | some o => o.ring | none => false
  let gen := match o with | some o => o.generation.toNat | none => 0
  let tree := match o with | some o => (if o.ring ∨ o.tree = 0 then g.treeId else o.tree) | none => g.treeId
  let first := match o with | some o => (if o.firstTree = 0 then tree else o.firstTree) | none => tree
  let scal := match o with | some o => (if dColl d = 7 then o.scalar.toNat else min o.elidedResults 0xFFFFFFFF) | none => 0
  let par := match o with | some o => (match o.parentTree with | some t => 2 ^ 31 + t.toNat | none => 0) | none => 0
  let flags := match o with | some o => o.flags.toNat % 4 | none => 0
  dId d ++ leBytes 1 status ++ leBytes 1 detail ++ leBytes 1 (bit ring) ++ leBytes 1 gen ++ leBytes 4 tree.toNat
    ++ leBytes 4 (dOpSeq d).toNat ++ leBytes 4 scal ++ leBytes 4 par ++ leBytes 1 flags ++ leBytes 3 first.toNat ++ zeros 3

/-- A GLAUNCH of an operation has its tag outstanding. -/
def State.launchTagged (s : State) (group : Nat) (op : BitVec 32) : Bool :=
  s.engines.any fun e => e.2.tags.any fun t => t.2.ready.isNone && t.2.kind == .collective group op

/-- The copies of an operation's records go. -/
def State.dropLaunchCopies (s : State) (group : Nat) (op : BitVec 32) : State :=
  { s with grp := { s.grp with copies := s.grp.copies.filter fun c => !(c.group == group && c.opSeq == op) } }

/-- The controller takes the copy of a member's record (R245): the spec gives it no packet, and it comes at once (log entry 165). -/
def State.takeCopy (s : State) (a : AgentRef) (group : Nat) (op : BitVec 32) (bytes : List Byte) : State :=
  if s.launchTagged group op then
    { s with grp := { s.grp with copies :=
      s.grp.copies ++ [{ group := group, opSeq := op, member := s.nodeFid (.agent a), bytes := bytes }] } }
  else s

/-- Writes a completion record into the queue's completion ring, which starts behind the descriptor ring (R226, R232); that of a
GLAUNCH goes to the controller too (R245). -/
def State.groupComplete (s : State) (a : AgentRef) (q : Nat) (d : List Byte) (status detail : Nat) (o : Option MemberOp)
    (copy : Bool) : State :=
  match s.gq a q with
  | none => s
  | some g =>
    let phase := if g.completions / 2 ^ g.ringLog2 % 2 = 0 then 0x80 else 0
    let rec_ := completionBytes d status detail o g ++ leBytes 1 phase
    let s := s.updAgent a fun x => { x with
      mem := x.mem.writeBytes (g.ringBase + 64 * 2 ^ g.ringLog2 + 32 * g.cqTail) rec_ }
    let s := (s.setGq a q { g with cqTail := (g.cqTail + 1) % 2 ^ g.ringLog2, completions := g.completions + 1 }).emit
      (.groupCompletion a q rec_)
    if copy then s.takeCopy a g.group (dOpSeq d) rec_ else s

/-! ## Sending and receiving chunks at a member -/

/-- Where a member's chunks go: own node when LOCAL, else the parent (R235, R237). -/
def State.memberUp (s : State) (a : AgentRef) (tree : BitVec 24) : Option (Nat × Fid) :=
  match (s.agent a).active.head tree with
  | some (_, h) => if headRole h = 2 then some (headParentPort h, headParent h) else some (0, s.nodeFid (.agent a))
  | none => none

/-- Sends a member's Collective packet on its tree; without a head it cannot leave. -/
def State.memberSend (s : State) (a : AgentRef) (c : CollFields) : State :=
  match s.memberUp a c.tree with
  | some (port, dest) => s.sendColl (.agent a) port dest c
  | none => s

/-- The fields common to an operation's packets. -/
def MemberOp.fields (o : MemberOp) (g : GroupQueue) (typ : BitVec 8) (index : Nat) : CollFields :=
  { typ := typ, group := o.group, opSeq := o.opSeq, partition := g.partition, tree := o.tree, gen := o.generation
    index := index, kind := dKind o.desc, combine := dCombine o.desc, fmt := dFmt o.desc }

/-- A member's bytes of a dense chunk (R242, R247); `none` where it contributes nothing to it. -/
def denseSource (mem : Memory) (d : List Byte) (g : GroupQueue) (c : Nat) : Option (List Byte) :=
  let fmt := dFmt d
  let e := chunkElems fmt (dChunk d)
  let lo := c * e
  let hi := min (dTotal d g.members) (lo + e)
  let w := elemBytes fmt
  if dColl d = 4 then
    let own := g.rank * dCount d
    let a := max lo own
    let b := min hi (own + dCount d)
    if b ≤ a then none
    else some (zeros ((a - lo) * w) ++ mem.readBytes (dSrc d + (a - own) * w) ((b - a) * w) ++ zeros ((hi - b) * w))
  else if dColl d = 3 ∧ g.rank ≠ dRoot d then none
  else if isMx fmt then some (mem.readBytes (dSrc d + c * dChunk d) (partBytes fmt (dChunk d) (hi - lo)))
  else some (mem.readBytes (dSrc d + lo * w) ((hi - lo) * w))

/-- Length of a dense chunk (R247). -/
def chunkLen (d : List Byte) (m c : Nat) : Nat :=
  let e := chunkElems (dFmt d) (dChunk d)
  partBytes (dFmt d) (dChunk d) (min (dTotal d m) (c * e + e) - c * e)

/-- Cuts a list into parts of `n`, at least one part. -/
def cutParts {α : Type} (n : Nat) : Nat → List α → List (List α)
  | 0, l => [l]
  | k + 1, l => if l.length ≤ n then [l] else l.take n :: cutParts n k (l.drop n)

/-- The parts of one SPARSE segment as payloads (R264). -/
def segmentParts (mem : Memory) (d : List Byte) (seg : Nat) : List (List Byte) :=
  let ps := (pairsOf (dFmt d) (dValue d) (mem.readBytes (dSrc d) (8 * dValue d))).filter fun p => p.1 / 2 ^ dSegLog2 d == seg
  (cutParts (dChunk d / 8) 15 ps).map fun l => l.flatMap (pairBytes (dFmt d))

/-- The pairs of a SPARSE source ascend strictly and lie below COUNT (R264). -/
def sparseSourceOk (mem : Memory) (d : List Byte) : Bool :=
  let ps := (pairsOf (dFmt d) (dValue d) (mem.readBytes (dSrc d) (8 * dValue d))).map (·.1)
  decide (ps.Pairwise (· < ·)) && ps.all fun i => decide (i < dCount d)

/-- Sends the CHUNKs of one chunk index (R246, R248, R253, R264). -/
def State.sendMemberChunk (s : State) (a : AgentRef) (g : GroupQueue) (o : MemberOp) (c : Nat) (resend : Bool) : State :=
  let f := { o.fields g 0x10 c with resend := resend }
  let mem := (s.agent a).mem
  match dKind o.desc with
  | 2 => s.memberSend a { f with value := if dColl o.desc = 7 then dValue o.desc else 0 }
  | 1 =>
    let ps := segmentParts mem o.desc c
    s.forEach ((List.range ps.length).zip ps) fun s x =>
      s.memberSend a { f with part := x.1, parts := ps.length, payload := x.2, elided := x.2.isEmpty }
  | _ =>
    match denseSource mem o.desc g c with
    | none => s.memberSend a { f with elided := true }
    | some l => s.memberSend a { f with payload := l, elided := dElide o.desc && elidable (dFmt o.desc) (dChunk o.desc) l }

/-- Ends an operation at a member: the record is written and the operation goes. -/
def State.endOp (s : State) (a : AgentRef) (o : MemberOp) (status detail : Nat) (record : Bool := true) : State :=
  let s := if record then s.groupComplete a o.queue o.desc status detail (some o) o.copy else s
  s.dropOp a o

/-- The index an abort of a member carries (R267). -/
def MemberOp.abortIndex (o : MemberOp) : Nat := if dKind o.desc = 2 then 0 else o.total - 1

/-- A member raises an abort (R267): the KIND 3 chunk goes up, and the member completes at once with its reason. An
operation whose go notice has not come ends with STATUS 0x04 (R290). On the ring nothing goes up (log entry 30). -/
def State.memberAbort (s : State) (a : AgentRef) (o : MemberOp) (reason : Nat) (record : Bool := true) : State :=
  if o.started then
    let s := match s.gq a o.queue with
      | some g => if o.ring then s
        else s.memberSend a { o.fields g 0x10 o.abortIndex with kind := 3, combine := 0, fmt := 0, flags := reason }
      | none => s
    s.endOp a o 2 reason record
  else s.endOp a o 4 reason record

/-! ### The endpoint ring (R282, log entry 31) -/

/-- The block of a chunk on the ring: chunk c belongs to block c modulo M. -/
def ringBlock (m c : Nat) : Nat := c % m

/-- A member's own payload of a chunk on the ring: bytes, or the SCALAR value. -/
def State.ringOwn (s : State) (a : AgentRef) (g : GroupQueue) (o : MemberOp) (c : Nat) : List Byte × BitVec 32 :=
  if dKind o.desc = 2 then ([], BitVec.ofNat 32 (if dColl o.desc = 7 then dValue o.desc else 0))
  else
    let n := chunkLen o.desc g.members c
    (match denseSource (s.agent a).mem o.desc g c with
     | some l => l
     | none => zeros n, 0)

/-- Sends a ring chunk to the next member: tree identity 0 and generation 0. -/
def State.ringSend (s : State) (a : AgentRef) (g : GroupQueue) (o : MemberOp) (x : MemberChunk) (resend : Bool) : State :=
  let f := o.fields g 0x10 x.index
  let el := dKind o.desc = 0 && elidable (dFmt o.desc) (dChunk o.desc) x.data
  let c : CollFields := { f with tree := 0, gen := 0, resend := resend, payload := x.data, elided := el, value := x.value.toNat }
  let p := c.packet (s.nodeFid (.agent a)) g.ringNext
  (s.emit (.packet (.agent a) p)).portSend (.agent a) (s.originPort (.agent a) p.hdr) p

/-! ### Sending within the windows (R244, R253) -/

/-- Chunks of a queue that were sent and have no result, or no root acknowledgement. -/
def Agent.openChunks (x : Agent) (q : Nat) (noResult : Bool) : Nat :=
  ((x.opsOf q).map fun o => o.chunks.countP fun c => !c.released && (!noResult || !c.hasResult)).sum

/-- The chunk indexes a member sends first: all on a tree, those of its own block on the ring. -/
def MemberOp.toSend (o : MemberOp) (g : GroupQueue) : Nat :=
  if o.ring then (o.total + g.members - 1 - g.rank) / g.members else o.total

/-- Chunks an operation has sent of its own. -/
def MemberOp.ownSent (o : MemberOp) (g : GroupQueue) : Nat :=
  if o.ring then o.chunks.countP fun c => ringBlock g.members c.index == g.rank && !c.ringFinal else o.chunks.length

/-- The first operation of a queue with chunks to send, when it has started (R244). -/
def Agent.nextToSend (x : Agent) (q : Nat) (g : GroupQueue) : Option MemberOp :=
  match (x.opsOf q).find? fun o => decide (o.ownSent g < o.toSend g) with
  | some o => if o.started then some o else none
  | none => none

/-- Sends one more chunk of a queue where the windows allow. -/
def State.sendOne (s : State) (a : AgentRef) (q : Nat) : State :=
  match s.gq a q with
  | none => s
  | some g =>
    let x := s.agent a
    match x.nextToSend q g with
    | none => s
    | some o =>
      if g.window ≤ x.openChunks q true ∨ 2 * g.window ≤ x.openChunks q false then s
      else
        let k := o.ownSent g
        let c := if o.ring then g.rank + k * g.members else k
        let o := if o.firstTree = 0 then { o with firstTree := if o.ring then g.treeId else o.tree } else o
        if o.ring then
          let own := s.ringOwn a g o c
          let m : MemberChunk := { index := c, sent := true, emittedNs := s.agentNow a, data := own.1, value := own.2 }
          (s.setOp a { o with chunks := o.chunks ++ [m] }).ringSend a g o m false
        else if dKind o.desc = 1 ∧ k = 0 ∧ sparseSourceOk x.mem o.desc = false then s.memberAbort a o 5
        else
          let m : MemberChunk := { index := c, sent := true, emittedNs := s.agentNow a }
          (s.setOp a { o with chunks := o.chunks ++ [m] }).sendMemberChunk a g o c false

/-- Sends while the windows allow, at most `n` chunks. -/
def State.sendMany (s : State) (a : AgentRef) (q : Nat) : Nat → State
  | 0 => s
  | n + 1 => (s.sendOne a q).sendMany a q n

/-! ### Taking descriptors (R226, R233, R244, R274, R277) -/

/-- Completion records free: the ring's records but one, less those unread and those of descriptors taken (R201, R226,
log entry 32). -/
def GroupQueue.freeRecords (g : GroupQueue) (open_ : Nat) : Nat :=
  2 ^ g.ringLog2 - 1 - (g.cqTail + 2 ^ g.ringLog2 - g.cqHead) % 2 ^ g.ringLog2 - open_

/-- Takes one descriptor: from the ring, or as GLAUNCH sends it, whose record is copied (R244, R245). -/
def State.takeDesc (s : State) (a : AgentRef) (q : Nat) (d : List Byte) (copy : Bool) : State :=
  match s.gq a q with
  | none => s
  | some g =>
    match descRefusal (s.agent a) g d with
    | some r => s.groupComplete a q d 1 r none copy
    | none =>
      if g.library ∧ g.reserved = false then s.groupComplete a q d 3 0 none copy
      else
        let held := g.reserved && (g.library || (!g.idle && !g.reservedRing))
        let o : MemberOp := { queue := q, group := g.group, desc := d, opSeq := dOpSeq d, started := held
                              ring := held && g.reservedRing, tree := g.curTree, generation := if held then g.curGen else 0
                              total := dChunks d g.members, parentTree := if held then g.curParent else none, copy := copy }
        let o := if o.ring then { o with tree := 0, generation := 0 } else o
        let s := (s.setGq a q { g with nextOpSeq := nextOp (dOpSeq d), lastLaunchNs := s.agentNow a }).updAgent a fun x => { x with ops := x.ops ++ [o] }
        if held then s else s.sendReport a 0x2C (Config.launchNoticePayload g.group (dOpSeq d))

/-- The ring holds a descriptor that may be taken: there is one, and a completion record is free (R201, R226). -/
def State.ringWaits (s : State) (a : AgentRef) (q : Nat) : Bool :=
  match s.gq a q with
  | none => false
  | some g => g.head != g.tail && decide (0 < g.freeRecords ((s.agent a).opsOf q).length)

/-- Takes up to so many descriptors of a ring while there are any and completion records are free. -/
def State.takeRing (s : State) (a : AgentRef) (q : Nat) : Nat → State
  | 0 => s
  | n + 1 =>
    match s.gq a q with
    | none => s
    | some g =>
      if s.ringWaits a q = false then s
      else
        let d := (s.agent a).mem.readBytes (g.ringBase + 64 * g.head) 64
        ((s.setGq a q { g with head := (g.head + 1) % 2 ^ g.ringLog2 }).takeDesc a q d false).takeRing a q n

/-- An operation that is complete: every chunk released (R256); on the ring, every chunk finished and passed on. -/
def MemberOp.complete (o : MemberOp) : Bool :=
  o.started && o.chunks.all (fun c => c.released)
    && (if o.ring then decide (o.ringDone.length = o.total) else decide (o.chunks.length = o.total))

/-- Writes the completions of a queue's complete operations and reports the member idle (R256, R277). -/
def State.finishOps (s : State) (a : AgentRef) (q : Nat) : State :=
  let s := s.forEach (((s.agent a).opsOf q).filter (·.complete)) fun s o => s.endOp a o 0 0
  match s.gq a q with
  | none => s
  | some g =>
    if ((s.agent a).opsOf q).isEmpty ∧ g.idle = false ∧ g.library = false then
      (s.setGq a q { g with idle := true, reserved := false }).sendReport a 0x36
        (leBytes 2 g.group ++ zeros 2 ++ leBytes 4 ((g.nextOpSeq - 1).toNat) ++ leBytes 8 (s.agentNow a)) 3
    else s

/-- Sends chunks and completes on a queue. -/
def State.workQueue (s : State) (a : AgentRef) (q : Nat) : State :=
  match s.gq a q with
  | none => s
  | some g => (s.sendMany a q (2 * g.window)).finishOps a q

/-- The queue whose turn comes: in rotation from the one served last, queue 0 first in a turn (R201, R226). -/
def State.turnQueue (s : State) (a : AgentRef) : Option Nat :=
  match (List.range 64).find? fun q => decide ((s.agent a).gqTurn < q) && s.ringWaits a q with
  | some q => some q
  | none => (List.range 64).find? fun q => s.ringWaits a q

/-- Turns of the agent's group queues, at most 8 descriptors each, while any waits (R201, R226). -/
def State.takeTurns (s : State) (a : AgentRef) : Nat → State
  | 0 => s
  | n + 1 =>
    match s.turnQueue a with
    | none => s
    | some q => (((s.updAgent a fun x => { x with gqTurn := q }).takeRing a q 8).workQueue a q).takeTurns a n

/-- Takes descriptors in turns, sends chunks and completes on a queue. -/
def State.runQueue (s : State) (a : AgentRef) (q : Nat) : State :=
  (s.takeTurns a ((s.agent a).gqs.map fun g => 2 ^ g.2.ringLog2).sum).workQueue a q

/-- GQ_DOORBELL (R55, R226, R200, R42, R429): `part` is the partition of the requester. -/
def execGqDoorbell (a : AgentRef) (q : Nat) (part : BitVec 12) (tail : BitVec 32) (s : State) : Answer :=
  match s.gq a q with
  | none => .next (s.agentViolation a (if part = 0 then .operator else .tenant))
  | some g =>
    if part ≠ g.partition then .next (s.agentViolation a (if part = 0 then .operator else .tenant))
    else if s.computeUp a = false then .next s
    else
      let s := s.updAgent a fun x => { x with lowPower := if x.lowPower = 1 then 0 else x.lowPower }
      if 2 ^ g.ringLog2 ≤ tail.toNat then
        .next (s.setGq a q { g with doorbellBad := min (g.doorbellBad + 1) 255 })
      else .next ((s.setGq a q { g with tail := tail.toNat }).runQueue a q)

/-- GQ_CQ_HEAD_DOORBELL (R226, R200): the consumer frees completion records. -/
def execGqCqHeadDoorbell (a : AgentRef) (q : Nat) (v : BitVec 32) (s : State) : Answer :=
  match s.gq a q with
  | none => .next s
  | some g =>
    if s.computeUp a = false then .next s
    else if 2 ^ g.ringLog2 ≤ v.toNat then .next (s.setGq a q { g with doorbellBad := min (g.doorbellBad + 1) 255 })
    else .next ((s.setGq a q { g with cqHead := v.toNat }).runQueue a q)

/-- LAUNCH (R245): the descriptor counts as posted to the group's queue; the packet is acknowledged (R98). -/
def execLaunch (a : AgentRef) (group : Nat) (p : Packet) (s : State) : Answer :=
  if s.computeUp a = false then .next (s.nakPkt (.agent a) p.hdr 0x02)
  else .next (s.accept (.agent a) p fun s =>
    match (s.agent a).gqs.find? fun x => x.2.group == group with
    | some (q, _) => ((s.takeDesc a q (slice p.payload 0 64) true).runQueue a q, none)
    | none => (s, none))

/-! ### Results and acknowledgements at a member (R254, R256, R287) -/

/-- Writes dense result bytes of a chunk into DST (R242, R254). -/
def writeDense (mem : Memory) (d : List Byte) (g : GroupQueue) (c : Nat) (l : List Byte) : Memory :=
  let fmt := dFmt d
  let e := chunkElems fmt (dChunk d)
  let w := elemBytes fmt
  let lo := c * e
  let hi := min (dTotal d g.members) (lo + e)
  match dColl d with
  | 2 => if g.rank = dRoot d then mem.writeBytes (if isMx fmt then dDst d + c * dChunk d else dDst d + lo * w) l else mem
  | 5 =>
    let own := g.rank * dCount d
    if isMx fmt then
      (List.range ((hi - lo) / 32)).foldl (fun m b =>
        let el := lo + 32 * b
        if own ≤ el ∧ el < own + dCount d then
          let j := (el - own) / 32
          let per := e / 32
          let base := dDst d + j / per * dChunk d
          let m := m.writeBytes (base + j % per) (slice l b 1)
          m.writeBytes (base + scaleArea fmt (dChunk d) + blockBytes fmt * (j % per))
            (slice l (scaleArea fmt (dChunk d) + blockBytes fmt * b) (blockBytes fmt))
        else m) mem
    else
      let a := max lo own
      let b := min hi (own + dCount d)
      if b ≤ a then mem else mem.writeBytes (dDst d + (a - own) * w) (slice l ((a - lo) * w) ((b - a) * w))
  | _ => mem.writeBytes (if isMx fmt then dDst d + c * dChunk d else dDst d + lo * w) l

/-- Writes one SPARSE segment in full (R266). -/
def writeSegment (mem : Memory) (d : List Byte) (seg : Nat) (ps : List (Nat × Nat)) : Memory :=
  let w := elemBytes (dFmt d)
  let lo := seg * 2 ^ dSegLog2 d
  let hi := min (dCount d) (lo + 2 ^ dSegLog2 d)
  let m := mem.zero (dDst d + lo * w) ((hi - lo) * w)
  ps.foldl (fun m p => if lo ≤ p.1 ∧ p.1 < hi then m.writeBytes (dDst d + p.1 * w) (leBytes w p.2) else m) m

/-- Writes the signal word of a chunk (R254): on the ring the group's tree identity with generation 0 (R282). -/
def State.signalWord (s : State) (a : AgentRef) (g : GroupQueue) (o : MemberOp) (c : Nat) : State :=
  if dSignal o.desc then
    let tree := if o.ring then g.treeId else o.tree
    let gen := if o.ring then 0 else o.generation.toNat
    let w := leBytes 8 (o.opSeq.toNat * 2 ^ 32 + tree.toNat * 2 ^ 8 + gen)
    s.updAgent a fun x => { x with mem := x.mem.writeBytes (dSignalAddr o.desc + 8 * c) w }
  else s

/-- Changes a chunk of an operation. -/
def MemberOp.updChunk (o : MemberOp) (c : Nat) (f : MemberChunk → MemberChunk) : MemberOp :=
  { o with chunks := updateFirst (fun x => x.index == c && !x.released) f o.chunks }

/-- A whole result of a chunk at a member: data, signal word, member acknowledgement (R254). -/
def State.memberTake (s : State) (a : AgentRef) (g : GroupQueue) (o : MemberOp) (c : Nat) (mem : Memory) (elided : Bool)
    (flags : Nat) (scalar : Option Nat) : State :=
  let s := s.updAgent a fun x => { x with mem := mem }
  let s := s.signalWord a g o c
  let o := { o.updChunk c (fun x => { x with hasResult := true, parts := [], emittedNs := s.agentNow a }) with
    flags := o.flags ||| BitVec.ofNat 4 flags
    elidedResults := o.elidedResults + bit elided
    scalar := match scalar with | some v => BitVec.ofNat 32 v | none => o.scalar }
  (s.setOp a o).memberSend a { o.fields g 0x12 c with combine := 0, fmt := 0, kind := dKind o.desc }

/-- The discard of a chunk for its generation (R287, R469). -/
def State.genDiscard (s : State) (a : AgentRef) (got want : BitVec 8) : State :=
  s.raiseAgent a 70 0 (BitVec.ofNat 16 (want.toNat * 256 + got.toNat))

/-- The queue and operation a Collective packet names at a member. -/
def State.memberOpOf (s : State) (a : AgentRef) (h : Header) : Option (GroupQueue × MemberOp) :=
  match (s.agent a).findOp (pktGroup h) h.seq with
  | some o => match s.gq a o.queue with
    | some g => some (g, o)
    | none => none
  | none => none

/-- A result reaches a member (R254, R265, R287). -/
def State.memberResult (s : State) (a : AgentRef) (p : Packet) : State :=
  let h := p.hdr
  match s.memberOpOf a h with
  | none => s
  | some (g, o) =>
    if o.ring ∨ o.started = false then s
    else if pktGen h ≠ o.generation then s.genDiscard a (pktGen h) o.generation
    else
      let c := pktIndex h
      match o.chunks.find? fun x => x.index == c with
      | none => s
      | some x =>
        if x.hasResult ∨ x.released then s
        else
          let mem := (s.agent a).mem
          let d := o.desc
          match dKind d with
          | 2 =>
            let v := pktValue h
            let mem := if dColl d = 7 ∧ dDst d ≠ 0 then mem.writeBytes (dDst d) (leBytes 4 v) else mem
            s.memberTake a g o c mem false (pktFlags h) (if dColl d = 7 then some v else none)
          | 1 =>
            let got := if x.parts.any (fun y => y.1 == pktPart h) then x.parts else x.parts ++ [(pktPart h, p.payload)]
            if got.length < pktParts h + 1 then
              s.setOp a { o.updChunk c (fun x => { x with parts := got }) with flags := o.flags ||| BitVec.ofNat 4 (pktFlags h) }
            else
              let ps := got.flatMap fun y => pairsOf (dFmt d) (y.2.length / 8) y.2
              s.memberTake a g o c (writeSegment mem d c ps) (ps.isEmpty) (pktFlags h) none
          | _ =>
            let l := if h.zblk then zeros (chunkLen d g.members c) else p.payload
            s.memberTake a g o c (writeDense mem d g c l) h.zblk (pktFlags h) none

/-- A root acknowledgement reaches a member (R256, R267, R287). -/
def State.memberRootAck (s : State) (a : AgentRef) (h : Header) : State :=
  match s.memberOpOf a h with
  | none => s
  | some (_, o) =>
    if o.ring ∨ o.started = false then s
    else if pktGen h ≠ o.generation then s.genDiscard a (pktGen h) o.generation
    else if pktKind h = 3 then (s.endOp a o 2 (pktFlags h)).runQueue a o.queue
    else
      match o.chunks.find? fun x => x.index == pktIndex h with
      | none => s
      | some x =>
        if x.released then s
        else
          let s := match s.gq a o.queue with
            | some g => s.setGq a o.queue { g with lastReleaseNs := s.agentNow a }
            | none => s
          (s.setOp a (o.updChunk (pktIndex h) fun x => { x with released := true })).runQueue a o.queue

/-! ### Ring chunks at a member (R282) -/

/-- Combines the incoming partial with the member's own input, rounding once (R282, R249). -/
def ringCombine (d : List Byte) (c : Nat) (inc own : List Byte × BitVec 32) : (List Byte × BitVec 32) × Nat :=
  if dKind d = 2 then
    let r := shortCombine (dFmt d) (dCombine d) [inc.2.toNat, own.2.toNat]
    (([], BitVec.ofNat 32 r.1), r.2)
  else
    let r := denseCombine (dFmt d) (dCombine d) (dChunk d) c [inc.1, own.1]
    ((r.1, 0), r.2)

/-- A block's chunk is finished at this member: data, signal word, SCALAR. -/
def State.ringFinish (s : State) (a : AgentRef) (g : GroupQueue) (o : MemberOp) (c : Nat) (x : List Byte × BitVec 32) : State :=
  let d := o.desc
  let m0 := (s.agent a).mem
  let m1 := if dKind d = 2 then (if dColl d = 7 ∧ dDst d ≠ 0 then m0.writeBytes (dDst d) (leBytes 4 x.2.toNat) else m0)
    else writeDense m0 d g c x.1
  let s := s.updAgent a fun y => { y with mem := m1 }
  let s := s.signalWord a g o c
  s.setOp a { o with ringDone := o.ringDone ++ [c], scalar := (if dColl d = 7 then x.2 else o.scalar),
                     elidedResults := o.elidedResults + bit (dKind d == 0 && elidable (dFmt d) (dChunk d) x.1) }

/-- Sends a chunk on around the ring. -/
def State.ringPass (s : State) (a : AgentRef) (g : GroupQueue) (o : MemberOp) (c : Nat) (final : Bool)
    (x : List Byte × BitVec 32) : State :=
  let m : MemberChunk := { index := c, sent := true, emittedNs := s.agentNow a, ringFinal := final, data := x.1, value := x.2 }
  (s.setOp a { o with chunks := o.chunks ++ [m] }).ringSend a g o m false

/-- The operation as it now stands at the member. -/
def State.reop (s : State) (a : AgentRef) (o : MemberOp) : MemberOp := ((s.agent a).findOp o.group o.opSeq).getD o

/-- A ring chunk reaches a member: the first of an index is the partial, the second the finished block; a resent copy with
the bytes of the recorded partial is a duplicate (log entry 31). -/
def State.ringChunk (s : State) (a : AgentRef) (p : Packet) : State :=
  let h := p.hdr
  match s.memberOpOf a h with
  | none => s
  | some (g, o) =>
    if o.ring = false ∨ o.started = false then s
    else
      let c := pktIndex h
      let m := g.members
      let j := ringBlock m c
      let inc : List Byte × BitVec 32 :=
        (if dKind o.desc = 2 then [] else if h.zblk then zeros (chunkLen o.desc m c) else p.payload, BitVec.ofNat 32 (pktValue h))
      let ack : CollFields := { o.fields g 0x12 c with tree := 0, gen := 0, combine := 0, fmt := 0, value := 0 }
      let k := ack.packet (s.nodeFid (.agent a)) h.src
      let s := (s.emit (.packet (.agent a) k)).portSend (.agent a) (s.originPort (.agent a) k.hdr) k
      if o.ringDone.contains c ∨ o.total ≤ c then s
      else match o.ringIn.get c with
        | none =>
          if g.rank = j then
            let s := s.ringFinish a g o c inc
            let o := s.reop a o
            let s := if g.rank = (j + m - 2) % m then s else s.ringPass a g o c true inc
            s.runQueue a o.queue
          else
            let r := ringCombine o.desc (chunkLen o.desc m c) inc (s.ringOwn a g o c)
            let o := { o with ringIn := o.ringIn.set c inc, flags := o.flags ||| BitVec.ofNat 4 (r.2 ||| pktFlags h) }
            let s := s.setOp a o
            let s := if g.rank = (j + m - 1) % m then
                let s := s.ringFinish a g o c r.1
                s.ringPass a g (s.reop a o) c true r.1
              else
                let s := if dKind o.desc = 2 then s else s.updAgent a fun y => { y with mem := writeDense y.mem o.desc g c r.1.1 }
                s.ringPass a g o c false r.1
            s.runQueue a o.queue
        | some old =>
          if h.resend ∧ old = inc then s
          else
            let s := s.ringFinish a g o c inc
            let o := s.reop a o
            let s := if g.rank = (j + m - 2) % m then s else s.ringPass a g o c true inc
            s.runQueue a o.queue

/-- An acknowledgement of a ring chunk: the oldest unacknowledged one of its index is released. -/
def State.ringAck (s : State) (a : AgentRef) (h : Header) : State :=
  match s.memberOpOf a h with
  | none => s
  | some (_, o) =>
    if o.ring then (s.setOp a (o.updChunk (pktIndex h) fun x => { x with released := true })).runQueue a o.queue else s

/-! ### Timers (R257, R284) -/

/-- Chunk attempts count: no play suspends them (R284). -/
def Agent.chunkCounts (x : Agent) : Bool := !x.chunkSuspended

/-- CHUNK_TIMEOUT (R257, R284): a resend, or at the fourth expiry the event on source 196 and an abort with reason 0x04. -/
def execChunkTimeout (a : AgentRef) (group : Nat) (opSeq : BitVec 32) (index : Nat) (s : State) : Answer :=
  match (s.agent a).findOp group opSeq with
  | none => .next s
  | some o =>
    match s.gq a o.queue, o.chunks.find? fun x => x.index == index && !x.released with
    | some g, some x =>
      let counts := (s.agent a).chunkCounts
      if s.agentNow a < x.emittedNs + g.timeoutUs * 1000 then .next s
      else if counts ∧ 3 ≤ x.resends then
        .next (((s.raiseAgent a 196 2).memberAbort a o 4).runQueue a o.queue)
      else
        let o1 := o.updChunk index fun x => { x with resends := if counts then x.resends + 1 else x.resends, emittedNs := s.agentNow a }
        let s := s.setOp a o1
        if o.ring then .next (s.ringSend a g o x true)
        else if x.hasResult then .next (s.memberSend a { o.fields g 0x12 index with combine := 0, fmt := 0, resend := true })
        else .next (s.sendMemberChunk a g o index true)
    | _, _ => .next s

/-- ATTEMPT_RESUME_TIMER (R284): 5 ms after the swap epoch opened, chunk attempts count again. -/
def execAttemptResumeTimer (a : AgentRef) (s : State) : Answer :=
  match (s.agent a).swapOpenedNs with
  | none => .next s
  | some t =>
    if s.agentNow a < t + 5000000 then .next s
    else .next (s.updAgent a fun x => { x with chunkSuspended := false, swapOpenedNs := none })

/-! ### Go notices (R276, R286, R290, R292) -/

/-- An operation moves to a new tree and generation: every chunk not released is sent again (R286). -/
def State.reissueOp (s : State) (a : AgentRef) (g : GroupQueue) (o : MemberOp) (tree : BitVec 24) (gen : BitVec 8) : State :=
  let o := { o with tree := tree, generation := gen, chunks := o.chunks.map fun c =>
    if c.released then c else { c with hasResult := false, resends := 0, parts := [], emittedNs := s.agentNow a } }
  let s := s.setOp a o
  s.forEach (o.chunks.filter fun c => !c.released) fun s c => s.sendMemberChunk a g o c.index false

/-- What a go notice does at a member (R276, R281, R286, R290). -/
def State.takeGo (s : State) (a : AgentRef) (q : Nat) (g : GroupQueue) (n : GoNotice) : State :=
  match n.withdrawn with
  | some r =>
    if n.library then
      let s := s.setGq a q { g with reserved := false, reservedRing := false }
      if r = 3 then s.forEach ((s.agent a).opsOf q) fun s o => s.endOp a o 3 0 else s
    else match (s.agent a).findOp n.group n.opSeq with
      | some o => (s.memberAbort a o r).runQueue a q
      | none => s
  | none =>
    let g := { g with reserved := true, reservedRing := n.ring, idle := false, curTree := if n.ring then g.curTree else n.tree
                      curGen := if n.ring then g.curGen else n.generation, curParent := n.parentTree }
    let s := (s.setGq a q g).updAgent a fun x => { x with ops := x.ops.map fun o =>
      if o.queue = q ∧ n.parentTree.isSome then { o with parentTree := n.parentTree } else o }
    if n.reissue then
      let s := s.updAgent a fun x => { x with chunkSuspended := false, swapOpenedNs := none }
      let l := ((s.agent a).opsOf q).filter fun o => o.started && !o.ring && !seqLater n.opSeq o.opSeq
      (s.forEach l fun s o => s.reissueOp a g o n.tree n.generation).runQueue a q
    else if n.library then s
    else match (s.agent a).findOp n.group n.opSeq with
      | some o =>
        if o.started then s
        else (s.setOp a { o with started := true, ring := n.ring, tree := if n.ring then 0 else n.tree
                                 generation := if n.ring then 0 else n.generation, parentTree := n.parentTree }).runQueue a q
      | none => s.runQueue a q

/-- GO (R276, R286): a go notice or a reissue notice of the controller reaches a member, which acknowledges it (R98). -/
def execGo (a : AgentRef) (p : Packet) (g : GoNotice) (s : State) : Answer :=
  .next (s.fromOwner a p fun s => s.accept (.agent a) p fun s =>
    match (s.agent a).gqs.find? fun x => x.2.group == g.group with
    | none => (s, none)
    | some (q, gq) => (s.takeGo a q gq g, none))

end Sys2Proof.Machine
end

