-- ==== Sys2Proof/Machine/Trees.lean ====
section
/-! DEFINITION. Nodes of trees: contexts, sets of chunks and their combine (R51, R52, R235 to R240, R255, R260, R261, R265,
R267, R270, R287, R462, R463). -/

namespace Sys2Proof.Machine

/-! ## Contexts at a node -/

/-- Contexts of a node. -/
def State.ctxs (s : State) : Node → List Ctx
  | .ctl => s.grp.rootCtxs
  | .agent a => (s.agent a).ctxs

/-- Replaces the contexts of a node. -/
def State.setCtxs (s : State) (n : Node) (l : List Ctx) : State :=
  match n with
  | .ctl => { s with grp := { s.grp with rootCtxs := l } }
  | .agent a => s.updAgent a fun g => { g with ctxs := l }

/-- The context of a tree and a group at a node. -/
def State.ctx (s : State) (n : Node) (tree : BitVec 24) (group : Nat) : Option Ctx :=
  (s.ctxs n).find? fun c => c.treeId == tree && c.group == group

/-- Replaces a context. -/
def State.setCtx (s : State) (n : Node) (c : Ctx) : State :=
  s.setCtxs n (updateFirst (fun d => d.treeId == c.treeId && d.group == c.group) (fun _ => c) (s.ctxs n))

/-- The head and child entries of a tree at a node (R235, R239). -/
def State.nodeHead (s : State) (n : Node) (tree : BitVec 24) : Option (BitVec 128 × List (BitVec 128)) :=
  match n with
  | .ctl => (s.grp.rootHeads.find? fun x => x.1 == tree).map fun x => (x.2.1, x.2.2)
  | .agent a =>
    let b := (s.agent a).active
    match b.head tree with
    | some (i, h) => if headRole h = 2 then none else some (h, b.childrenOf i h)
    | none => none

/-- Number of inputs of a node (R237). -/
def inputsOf (h : BitVec 128) : Nat := headChildren h + bit (headLocal h)

/-- CHILD_ID names the sender, or is the gateway ID its foreign domain maps to (R240). -/
def State.childIs (s : State) (n : Node) (child src : Fid) : Bool :=
  child == src ||
    match n with
    | .agent a => src.domain != (s.nodeFid n).domain && child.domain == (s.nodeFid n).domain
        && s.routeLocal a src == some child.localId
    | .ctl => false

/-- The input a sender is (R237): the own endpoint is input 0 where LOCAL is 1. -/
def State.inputOf (s : State) (n : Node) (h : BitVec 128) (kids : List (BitVec 128)) (src : Fid) : Option Nat :=
  if headLocal h ∧ src = s.nodeFid n then some 0
  else (kids.findIdx? fun k => s.childIs n (childId k) src).map (· + bit (headLocal h))

/-- The group at the controller whose root sends upward as a gateway member (R240). -/
def State.uplinkOf (s : State) (group : Nat) : Option Group :=
  s.grp.groups.find? fun g => g.rec_.groupId == group && g.rec_.uplinkGroup != 0

/-- The node is a root: ROLE root, and no uplink (R239, R240). -/
def State.isRoot (s : State) (n : Node) (h : BitVec 128) (group : Nat) : Bool :=
  match n with
  | .ctl => (s.uplinkOf group).isNone
  | .agent _ => headRole h == 1

/-! ## What a chunk is at a node (R255) -/

/-- A chunk of the context with a record. -/
def Ctx.find (c : Ctx) (op : BitVec 32) (i : Nat) : Option ChunkSet := c.sets.find? fun x => x.opSeq == op && x.index == i

/-- Replaces or adds a chunk. -/
def Ctx.put (c : Ctx) (x : ChunkSet) : Ctx :=
  if c.sets.any fun y => y.opSeq == x.opSeq && y.index == x.index then
    { c with sets := updateFirst (fun y => y.opSeq == x.opSeq && y.index == x.index) (fun _ => x) c.sets }
  else { c with sets := c.sets ++ [x] }

/-- The reason an operation was released by an abort with. -/
def Ctx.abortOf (c : Ctx) (op : BitVec 32) : Option Nat := (c.abortedOps.find? fun x => x.1 == op).map (·.2.1)

/-- The chunk was released by its root acknowledgement and its record has gone. -/
def Ctx.below (c : Ctx) (op : BitVec 32) (i : Nat) : Bool := seqLater c.lowOp op || (op == c.lowOp && decide (i < c.lowIndex))

/-- The lowest chunk of an operation that counts for the window: the first not known as released (log entry 33). -/
def Ctx.floor (c : Ctx) (op : BitVec 32) : Nat :=
  if op = c.lowOp then c.lowIndex
  else ((List.range (c.sets.length + 1)).find? fun k => match c.find op k with
    | some x => x.phase != .released
    | none => true).getD 0

/-- A chunk not seen yet lies within 2 × WINDOW above the lowest unreleased one (R255). -/
def Ctx.inRange (c : Ctx) (op : BitVec 32) (i : Nat) : Bool := decide (i < c.floor op + 2 * c.window)

/-- Moves the lowest unreleased chunk over released ones of its operation. -/
def Ctx.advance : Nat → Ctx → Ctx
  | 0, c => c
  | n + 1, c =>
    match c.find c.lowOp c.lowIndex with
    | some x =>
      if x.phase = .released then
        Ctx.advance n { c with lowIndex := c.lowIndex + 1
                               sets := removeFirst (fun y => y.opSeq == c.lowOp && y.index == c.lowIndex) c.sets }
      else c
    | none =>
      let later := c.sets.filter fun x => seqLater x.opSeq c.lowOp
      if c.sets.any (fun x => x.opSeq == c.lowOp && x.phase != .released) ∨ (later.filter fun x => x.phase == .released).length < 2 * c.window then c
      else match later with
        | [] => c
        | x :: t =>
          let low := t.foldl (fun m y => if seqLater m y.opSeq then y.opSeq else m) x.opSeq
          Ctx.advance n { c with lowOp := low, lowIndex := 0, sets := later }

/-- A chunk is released by its root acknowledgement. -/
def Ctx.release (c : Ctx) (x : ChunkSet) : Ctx :=
  let c := c.put { x with phase := .released, inputs := [], outBytes := [], acks := [], resParts := [] }
  let ab := (c.abortedOps.map fun y => (y.1, y.2.1, if seqLater x.opSeq y.1 then y.2.2 + 1 else y.2.2)).filter fun y =>
    decide (y.2.2 < 2 * c.window)
  Ctx.advance (c.sets.length + 1) { c with abortedOps := ab }

/-- An operation is released by an abort. -/
def Ctx.abort (c : Ctx) (op : BitVec 32) (reason : Nat) : Ctx :=
  let c := { c with sets := c.sets.filter (fun x => x.opSeq != op), abortedOps := c.abortedOps ++ [(op, reason, 0)], state := 2 }
  if c.lowOp = op then { c with lowOp := nextOp op, lowIndex := 0 } else c

/-! ## Combine of a set (R248 to R251, R265) -/

/-- Contributions of one input, ordered by part. -/
def ChunkSet.ofInput (x : ChunkSet) (i : Nat) : List Contribution := x.inputs.filter fun c => c.input == i

/-- An input has sent all it has for this set (R255, R265). -/
def ChunkSet.inputDone (x : ChunkSet) (i : Nat) : Bool :=
  match x.ofInput i with
  | [] => false
  | c :: t => decide (c.parts ≤ t.length + 1)

/-- Every input has arrived. -/
def ChunkSet.whole (x : ChunkSet) (n : Nat) : Bool := (List.range n).all x.inputDone

/-- The result of a whole set: elision, bytes, value, FLAGS. -/
def ChunkSet.combineAll (x : ChunkSet) (n : Nat) : Bool × List Byte × Nat × Nat :=
  let c := x.size
  let ins := (List.range n).map x.ofInput
  let fl := x.inputs.foldl (fun f y => f ||| y.flags.toNat % 4) 0
  match x.kind with
  | 2 =>
    let r := shortCombine x.fmt x.combine (ins.map fun l => match l with | y :: _ => y.value.toNat | [] => 0)
    (false, [], r.1, fl ||| r.2)
  | 1 =>
    let r := sparseCombine x.fmt (ins.map fun l => l.flatMap fun y => pairsOf x.fmt (y.payload.length / 8) y.payload)
    (r.1.isEmpty, r.1.flatMap (pairBytes x.fmt), 0, fl ||| r.2)
  | _ =>
    let len := (x.inputs.map fun y => y.payload.length).foldl max 0
    if x.inputs.all (fun y => y.elided) then (true, [], 0, fl)
    else
      let r := denseCombine x.fmt x.combine c len (ins.map fun l => match l with
        | y :: _ => if y.elided then zeros len else y.payload
        | [] => zeros len)
      (elidable x.fmt c r.1, r.1, 0, fl ||| r.2)

/-- Packet fields of a chunk of a context. -/
def Ctx.fields (c : Ctx) (x : ChunkSet) (typ : BitVec 8) : CollFields :=
  { typ := typ, group := c.group, opSeq := x.opSeq, partition := c.partition, tree := c.treeId, gen := c.generation
    index := x.index, kind := x.kind, combine := x.combine, fmt := x.fmt, flags := x.outFlags.toNat
    value := x.outValue.toNat, elided := x.outElided, payload := x.outBytes }

/-- The packets a partial or result takes: one, or the parts of a SPARSE segment (R265). -/
def Ctx.outParts (c : Ctx) (x : ChunkSet) (typ : BitVec 8) (resend : Bool) : List CollFields :=
  let f := { c.fields x typ with resend := resend }
  if x.kind = 1 then
    let ps := cutParts (x.size / 8 * 8) 15 x.outBytes
    ((List.range ps.length).zip ps).map fun y => { f with part := y.1, parts := ps.length, payload := y.2, elided := y.2.isEmpty }
  else [f]

/-! ## Sending from a node (R255) -/

/-- Sends to input `i`: a child over its port, or the own endpoint (R254). -/
def State.sendInput (s : State) (n : Node) (h : BitVec 128) (kids : List (BitVec 128)) (i : Nat) (f : CollFields) : State :=
  if headLocal h ∧ i = 0 then
    match n with
    | .agent a =>
      let p := f.packet (s.nodeFid n) (s.nodeFid n)
      if f.typ = 0x11 then s.memberResult a p else s.memberRootAck a p.hdr
    | .ctl => s
  else match kids[i - bit (headLocal h)]? with
    | some k => s.sendColl n (childPort k) (childId k) f
    | none => s

/-- Sends to every input, in input order. -/
def State.sendInputs (s : State) (n : Node) (h : BitVec 128) (kids : List (BitVec 128)) (f : CollFields) : State :=
  s.forEach (List.range (inputsOf h)) fun s i => s.sendInput n h kids i f

/-- Sends upward: to the parent, or from a controller root with an uplink to the parent domain's node once it is bound
(R235, R240). -/
def State.sendUp (s : State) (n : Node) (h : BitVec 128) (f : CollFields) : State :=
  match n with
  | .agent _ => s.sendColl n (headParentPort h) (headParent h) f
  | .ctl =>
    match s.uplinkOf f.group with
    | some g => match g.uplink with
      | some u =>
        s.sendColl .ctl (s.originPort .ctl (ownHdr u.parent 0x10 [])) u.parent
          { f with tree := u.tree, group := g.rec_.uplinkGroup, partition := u.partition, gen := u.generation }
      | none => s
    | none => s

/-- Sends a held result to every input (R255). -/
def State.sendResult (s : State) (n : Node) (h : BitVec 128) (kids : List (BitVec 128)) (c : Ctx) (x : ChunkSet) : State :=
  s.forEach (c.outParts x 0x11 false) fun s f => s.sendInputs n h kids f

/-- A root acknowledgement of a chunk. -/
def Ctx.ackFields (c : Ctx) (op : BitVec 32) (i kind : Nat) (reason : Nat := 0) : CollFields :=
  { typ := 0x12, group := c.group, opSeq := op, partition := c.partition, tree := c.treeId, gen := c.generation
    index := i, kind := kind, flags := reason }

/-! ## Aborts at a node (R267) -/

/-- A root acts on an abort: KIND 3 acknowledgements to every input, the state released, the abort counted. -/
def State.rootAbort (s : State) (n : Node) (h : BitVec 128) (kids : List (BitVec 128)) (c : Ctx) (op : BitVec 32)
    (index reason : Nat) : State :=
  let s := s.setCtx n (c.abort op reason)
  let s := match n with
    | .agent a => s.raiseAgent a 71 1 (BitVec.ofNat 16 reason)
    | .ctl => let t := s.satFld GRP_ABORTS_ABORTS 1; if reason = 4 then t.satFld GRP_ABORTS_EXHAUSTED 1 else t
  s.sendInputs n h kids (c.ackFields op index 3 reason)

/-- Every chunk from 0 to an index has been released. -/
def Ctx.releasedTo (c : Ctx) (op : BitVec 32) (i : Nat) : Bool :=
  c.below op i || (List.range (i + 1)).all fun k => c.below op k ||
    match c.find op k with
    | some x => x.phase == .released
    | none => false

/-- An abort at a node: forwarded by an interior node, whose context is then aborting (R260), acted on by the root unless all is released (R267). -/
def State.nodeAbort (s : State) (n : Node) (h : BitVec 128) (kids : List (BitVec 128)) (c : Ctx) (op : BitVec 32)
    (index reason : Nat) : State :=
  if s.isRoot n h c.group then
    if c.releasedTo op index ∨ (c.abortOf op).isSome then s else s.rootAbort n h kids c op index reason
  else (s.setCtx n { c with state := 3 }).sendUp n h { (c.ackFields op index 3 reason) with typ := 0x10 }

/-- A node finds a fault in a set: the event on source 68, at the controller on the GRP source, and an abort (R267). -/
def State.nodeFault (s : State) (n : Node) (h : BitVec 128) (kids : List (BitVec 128)) (c : Ctx) (op : BitVec 32)
    (index reason : Nat) : State :=
  let s := match n with
    | .agent a => s.raiseAgent a 68 2 (BitVec.ofNat 16 reason)
    | .ctl => s.raise 0x0048 2 (BitVec.ofNat 16 reason)
  s.nodeAbort n h kids c op index reason

/-! ## Chunk pacing (R462) -/

/-- Charges the account of a node for a payload of KIND 0 or 1: 3 × LENGTH. -/
def State.charge (s : State) (n : Node) (h : Header) : State :=
  match n with
  | .agent a => if pktKind h ≤ 1 then s.updAgent a fun g => { g with account := g.account - 3 * (h.length.toNat : Int) } else s
  | .ctl => s

/-- Gives back Collective data credit a port withheld, once the account is not negative (R463). -/
def State.releaseWithheld (s : State) (n : Node) : State :=
  if s.pacing n then s
  else s.forEach ((s.nodePorts n).filter fun x => decide (0 < x.2.withheld)) fun s x =>
    let y := s.port n x.1
    (s.setPort n x.1 { y with freed := { y.freed with collData := y.freed.collData + y.withheld }, withheld := 0 }).returnCredit n x.1

/-! ## CHUNK (R255) -/

/-- A chunk or acknowledgement is discarded with the event of R255 (R469). -/
def State.collDiscard (s : State) (n : Node) (tree : BitVec 24) : State :=
  match n with
  | .agent a => s.raiseAgent a 69 1 (tree.setWidth 16)
  | .ctl => s.raise 0x0048 1 (tree.setWidth 16)

/-- A generation discard at a node (R287). -/
def State.nodeGenDiscard (s : State) (n : Node) (got want : BitVec 8) : State :=
  match n with
  | .agent a => s.genDiscard a got want
  | .ctl => s.raise 0x0048 0 (BitVec.ofNat 16 (want.toNat * 256 + got.toNat))

/-- The contribution a CHUNK carries. -/
def contribution (p : Packet) (i : Nat) : Contribution :=
  { input := i, elided := p.hdr.zblk, payload := p.payload, part := if pktKind p.hdr = 1 then pktPart p.hdr else 0
    parts := if pktKind p.hdr = 1 then pktParts p.hdr + 1 else 1
    value := BitVec.ofNat 32 (pktValue p.hdr), flags := BitVec.ofNat 4 (pktFlags p.hdr) }

/-- A set has become whole: the partial goes up, or the root holds and sends the result (R255). At the controller a whole set stays
open while no root image triple serves (R239; log entry 164). -/
def State.closeSet (s : State) (n : Node) (h : BitVec 128) (kids : List (BitVec 128)) (c : Ctx) (x : ChunkSet) : State :=
  if n = .ctl ∧ s.rootImageUp = false then s
  else
  let r := x.combineAll (inputsOf h)
  let x := { x with outElided := r.1, outBytes := if r.1 then [] else r.2.1, outValue := BitVec.ofNat 32 r.2.2.1
                    outFlags := BitVec.ofNat 4 r.2.2.2 }
  if s.isRoot n h c.group then
    (s.setCtx n (c.put { x with phase := .result, inputs := [] })).sendResult n h kids c x
  else
    let s := s.setCtx n (c.put { x with phase := .partialSent, inputs := [], lastResendNs := s.nodeNow n })
    s.forEach (c.outParts x 0x10 false) fun s f => s.sendUp n h f

/-- Stores a contribution in a set, and closes the set when it is whole. -/
def State.storeChunk (s : State) (n : Node) (h : BitVec 128) (kids : List (BitVec 128)) (c : Ctx) (x : ChunkSet) (k : Contribution) :
    State :=
  let x := { x with inputs := x.inputs ++ [k] }
  let c := { c.put x with state := 2 }
  if x.whole (inputsOf h) then (s.setCtx n c).closeSet n h kids c x else s.setCtx n c

/-- Bytes of a chunk of an operation: what its descriptor says at a member, which no packet carries (R247); the context's where no
member has it (log entry 34). -/
def State.opChunk (s : State) (c : Ctx) (op : BitVec 32) : Nat :=
  match s.agents.findSome? fun x => x.2.findOp c.group op with
  | some o => dChunk o.desc
  | none => 2 ^ c.chunkLog2

/-- A CHUNK of a known context, input and generation (R255, R267). -/
def State.nodeChunk (s : State) (n : Node) (h : BitVec 128) (kids : List (BitVec 128)) (c : Ctx) (i : Nat) (p : Packet) : State :=
  let op := p.hdr.seq
  let ix := pktIndex p.hdr
  let k := contribution p i
  if pktKind p.hdr = 3 then
    match c.abortOf op with
    | some r => s.sendInput n h kids i (c.ackFields op ix 3 r)
    | none => s.nodeAbort n h kids c op (pktIndexField p.hdr) (pktFlags p.hdr)
  else match c.abortOf op with
  | some r => s.sendInput n h kids i (c.ackFields op ix 3 r)
  | none =>
    match c.find op ix with
    | some x =>
      match x.phase with
      | .released => s.sendInput n h kids i (c.ackFields op ix x.kind)
      | .open_ =>
        if (x.ofInput i).any fun y => y.part == k.part then
          if x.whole (inputsOf h) then s.closeSet n h kids c x else s
        else if x.combine ≠ pktCombine p.hdr ∨ x.fmt ≠ pktFmt p.hdr ∨ x.kind ≠ pktKind p.hdr
            ∨ (x.kind = 0 ∧ !k.elided ∧ x.inputs.any fun y => !y.elided && y.payload.length != k.payload.length) then
          s.nodeFault n h kids c op ix 1
        else s.storeChunk n h kids c x k
      | .partialSent =>
        if p.hdr.resend ∧ x.lastResendNs + 20000 ≤ s.nodeNow n then
          let s := s.setCtx n (c.put { x with lastResendNs := s.nodeNow n })
          s.forEach (c.outParts x 0x10 true) fun s f => s.sendUp n h f
        else s
      | _ =>
        if p.hdr.resend then s.forEach (c.outParts x 0x11 false) fun s f => s.sendInput n h kids i f else s
    | none =>
      if c.below op ix then s.sendInput n h kids i (c.ackFields op ix (pktKind p.hdr))
      else if c.inRange op ix = false then s.collDiscard n c.treeId
      else if chunkAllowed (pktKind p.hdr) (pktCombine p.hdr) (pktFmt p.hdr) = false then s.nodeFault n h kids c op ix 7
      else
        s.storeChunk n h kids c { opSeq := op, index := ix, kind := pktKind p.hdr, combine := pktCombine p.hdr, fmt := pktFmt p.hdr
                                  size := s.opChunk c op } k

/-- A Collective packet with a bad CRC is discarded without a NAK (R84, R104, R105). -/
def State.collCrc (s : State) (n : Node) (p : Packet) (body : State → State) : State :=
  if p.crcOk then body s else s.discard n 0 0x0108

/-- CHUNK (R255, R237, R282, R287, R462): tree identity 0 is a ring chunk of the endpoint. -/
def execChunk (n : Node) (p : Packet) (s : State) : Answer :=
  .next (s.collCrc n p fun s =>
    if pktTree p.hdr = 0 then
      match n with
      | .agent a => if s.computeUp a then s.ringChunk a p else s
      | .ctl => s.collDiscard n 0
    else
      let s := s.charge n p.hdr
      match s.ctx n (pktTree p.hdr) (pktGroup p.hdr), s.nodeHead n (pktTree p.hdr) with
      | some c, some (h, kids) =>
        if p.hdr.partition ≠ c.partition then s.collDiscard n (pktTree p.hdr)
        else if pktGen p.hdr ≠ c.generation then s.nodeGenDiscard n (pktGen p.hdr) c.generation
        else match s.inputOf n h kids p.hdr.src with
          | some i => s.nodeChunk n h kids c i p
          | none => s.collDiscard n (pktTree p.hdr)
      | _, _ => s.collDiscard n (pktTree p.hdr))

/-! ## CHUNK_RESULT (R255) -/

/-- A result of the parent at an interior node, or of the parent domain at a controller root with an uplink: held, and sent
to every input. -/
def State.nodeResult (s : State) (n : Node) (h : BitVec 128) (kids : List (BitVec 128)) (c : Ctx) (p : Packet) : State :=
  match c.find p.hdr.seq (pktIndex p.hdr) with
  | some x =>
    if x.phase = .partialSent then
      let part := if x.kind = 1 then pktPart p.hdr else 0
      let want := if x.kind = 1 then pktParts p.hdr + 1 else 1
      let got := if x.resParts.any (fun y => y.1 == part) then x.resParts else x.resParts ++ [(part, p.payload)]
      let fl := x.outFlags ||| BitVec.ofNat 4 (pktFlags p.hdr % 4)
      if got.length < want then s.setCtx n (c.put { x with resParts := got, outFlags := fl })
      else
        let all := (List.range want).flatMap fun k => match got.find? fun y => y.1 == k with | some y => y.2 | none => []
        let x := { x with phase := .result, resParts := [], outElided := p.hdr.zblk && all.isEmpty, outBytes := all
                          outValue := BitVec.ofNat 32 (pktValue p.hdr), outFlags := fl, acks := [] }
        (s.setCtx n (c.put x)).sendResult n h kids c x
    else s
  | none => s

/-- The uplink of a group is the one a packet from the parent domain comes over. -/
def Group.uplinkIs (g : Group) (h : Header) : Bool :=
  g.rec_.uplinkGroup == pktGroup h && g.rec_.uplinkGroup != 0 &&
    match g.uplink with
    | some u => u.tree == pktTree h && u.partition == h.partition
    | none => false

/-- The generation of the parent's packets is that of what goes up (log entry 37). -/
def State.hearUplink (s : State) (h : Header) : State :=
  let hear := fun (g : Group) => if (g.uplinkIs h) then { g with uplink := g.uplink.map fun u => { u with generation := pktGen h } } else g
  { s with grp := { s.grp with groups := s.grp.groups.map hear } }

/-- The own context and head a packet from the parent domain belongs to (R240). -/
def State.uplinkCtx (s : State) (h : Header) : Option (Ctx × BitVec 128 × List (BitVec 128)) :=
  match s.grp.groups.find? fun g => g.uplinkIs h with
  | some g =>
    match s.ctx .ctl g.tree g.rec_.groupId, s.nodeHead .ctl g.tree with
    | some c, some (hd, kids) => some (c, hd, kids)
    | _, _ => none
  | none => none

/-- CHUNK_RESULT (R254, R255, R287): at an interior node from its parent, at a member from its parent. -/
def execChunkResult (n : Node) (p : Packet) (s : State) : Answer :=
  .next (s.collCrc n p fun s =>
    match n with
    | .ctl => match s.uplinkCtx p.hdr with
      | some (c, h, kids) => (s.hearUplink p.hdr).nodeResult .ctl h kids c p
      | none => s.collDiscard n (pktTree p.hdr)
    | .agent a =>
      match s.ctx n (pktTree p.hdr) (pktGroup p.hdr), s.nodeHead n (pktTree p.hdr) with
      | some c, some (h, kids) =>
        let s := s.charge n p.hdr
        if p.hdr.partition ≠ c.partition then s.collDiscard n (pktTree p.hdr)
        else if pktGen p.hdr ≠ c.generation then s.nodeGenDiscard n (pktGen p.hdr) c.generation
        else s.nodeResult n h kids c p
      | none, none => if s.computeUp a then s.memberResult a p else s
      | _, _ => s.collDiscard n (pktTree p.hdr))

/-! ## CHUNK_ACK (R255) -/

/-- An acknowledgement of the parent at a node: sent to every input, the chunk or the operation released (R255, R267). -/
def State.nodeParentAck (s : State) (n : Node) (h : BitVec 128) (kids : List (BitVec 128)) (c : Ctx) (p : Packet) : State :=
  let op := p.hdr.seq
  let ix := pktIndex p.hdr
  if pktKind p.hdr = 3 then
    if (c.abortOf op).isSome then s
    else
      let f := c.ackFields op (pktIndexField p.hdr) 3 (pktFlags p.hdr)
      (s.setCtx n (c.abort op (pktFlags p.hdr))).sendInputs n h kids f
  else match c.find op ix with
    | some x =>
      if x.phase = .result ∨ x.phase = .acked then
        (s.setCtx n (c.release x)).sendInputs n h kids (c.ackFields op ix x.kind)
      else s
    | none => s

/-- A member acknowledgement of input `i` at a node (R255). -/
def State.nodeChildAck (s : State) (n : Node) (h : BitVec 128) (kids : List (BitVec 128)) (c : Ctx) (i : Nat) (p : Packet) : State :=
  let op := p.hdr.seq
  let ix := pktIndex p.hdr
  match c.abortOf op with
  | some r => s.sendInput n h kids i (c.ackFields op ix 3 r)
  | none =>
    match c.find op ix with
    | some x =>
      match x.phase with
      | .released => s.sendInput n h kids i (c.ackFields op ix x.kind)
      | .result =>
        let x := { x with acks := if x.acks.contains i then x.acks else x.acks ++ [i] }
        if x.acks.length < inputsOf h then s.setCtx n (c.put x)
        else if s.isRoot n h c.group then
          (s.setCtx n (c.release x)).sendInputs n h kids (c.ackFields op ix x.kind)
        else (s.setCtx n (c.put { x with phase := .acked, lastResendNs := s.nodeNow n })).sendUp n h (c.ackFields op ix x.kind)
      | .acked =>
        if p.hdr.resend ∧ x.lastResendNs + 20000 ≤ s.nodeNow n then
          (s.setCtx n (c.put { x with lastResendNs := s.nodeNow n })).sendUp n h { c.ackFields op ix x.kind with resend := true }
        else s
      | _ => s.collDiscard n c.treeId
    | none => if c.below op ix then s.sendInput n h kids i (c.ackFields op ix (pktKind p.hdr)) else s.collDiscard n c.treeId

/-- CHUNK_ACK (R255, R256, R267, R282, R287): from an input or from the parent at a node, from the parent at a member. -/
def execChunkAck (n : Node) (p : Packet) (s : State) : Answer :=
  .next (s.collCrc n p fun s =>
    if pktTree p.hdr = 0 then
      match n with
      | .agent a => if s.computeUp a then s.ringAck a p.hdr else s
      | .ctl => s.collDiscard n 0
    else match s.ctx n (pktTree p.hdr) (pktGroup p.hdr), s.nodeHead n (pktTree p.hdr) with
      | some c, some (h, kids) =>
        if p.hdr.partition ≠ c.partition then s.collDiscard n (pktTree p.hdr)
        else if pktGen p.hdr ≠ c.generation then s.nodeGenDiscard n (pktGen p.hdr) c.generation
        else match s.inputOf n h kids p.hdr.src with
          | some i => s.nodeChildAck n h kids c i p
          | none =>
            if p.hdr.src = headParent h ∧ s.isRoot n h c.group = false then s.nodeParentAck n h kids c p
            else s.collDiscard n (pktTree p.hdr)
      | none, none =>
        match n with
        | .agent a => if s.computeUp a then s.memberRootAck a p.hdr else s
        | .ctl => match s.uplinkCtx p.hdr with
          | some (c, h, kids) => (s.hearUplink p.hdr).nodeParentAck .ctl h kids c p
          | none => s.collDiscard n (pktTree p.hdr)
      | _, _ => s.collDiscard n (pktTree p.hdr))

/-! ## RESERVE (R51, R52, R260, R261, R270) -/

/-- Blocks a context needs (R261). -/
def ctxBlocks (inputs window chunkLog2 : Nat) : Nat := ((inputs + 3) * window * 2 ^ chunkLog2 + 65535) / 65536

/-- A context from its 32-byte descriptor (R260). -/
def ctxOf (d : List Byte) : Ctx :=
  { treeId := BitVec.ofNat 24 (leAt d 0 3), generation := BitVec.ofNat 8 (leAt d 3 1), group := leAt d 4 2
    partition := BitVec.ofNat 12 (leAt d 6 2), inputs := leAt d 8 1 + 1, chunkLog2 := leAt d 9 1, window := leAt d 10 2
    blockBase := leAt d 12 2, blockCount := leAt d 14 2, state := 1, lowOp := BitVec.ofNat 32 (leAt d 16 4)
    lowIndex := leAt d 20 4 }

/-- The descriptor of a context (R260). -/
def ctxBytes (c : Ctx) : List Byte :=
  leBytes 3 c.treeId.toNat ++ leBytes 1 c.generation.toNat ++ leBytes 2 c.group ++ leBytes 2 c.partition.toNat
    ++ leBytes 1 (c.inputs - 1) ++ leBytes 1 c.chunkLog2 ++ leBytes 2 c.window ++ leBytes 2 c.blockBase ++ leBytes 2 c.blockCount
    ++ leBytes 4 c.lowOp.toNat ++ leBytes 4 c.lowIndex ++ leBytes 1 c.state ++ zeros 7

/-- A free order of a context (R270). -/
def freeBytes (tree : BitVec 24) (group : Nat) (partition : BitVec 12) : List Byte :=
  leBytes 4 tree.toNat ++ leBytes 2 group ++ leBytes 2 partition.toNat ++ zeros 24

/-- JX_RCTX and JX_RMEM after contexts change (R72). -/
def State.showCtx (s : State) (a : AgentRef) : State :=
  let l := (s.agent a).ctxs
  (s.setJfld a JX_RCTX_CTX_FREE (ctxTotal a.variant - l.length)).setJfld a JX_RMEM_BLOCKS_FREE
    (blocksTotal a.variant - (l.map (·.blockCount)).sum)

/-- Frees contexts that satisfy a test (R52). -/
def State.freeCtxs (s : State) (a : AgentRef) (p : Ctx → Bool) : State :=
  (s.updAgent a fun g => { g with ctxs := g.ctxs.filter fun c => !p c }).showCtx a

/-- RESERVE_WRITE (R270, R51, R261): writes a context, both its context and its blocks or neither. -/
def execReserveWrite (a : AgentRef) (p : Packet) (s : State) : Answer :=
  .next (s.fromOwner a p fun s => s.accept (.agent a) p fun s =>
    let c := ctxOf p.payload
    let used := ((s.agent a).ctxs.map (·.blockCount)).sum
    let need := max 1 (ctxBlocks c.inputs c.window c.chunkLog2)
    if (s.ctx (.agent a) c.treeId c.group).isSome ∨ c.blockCount < need ∨ ctxTotal a.variant ≤ (s.agent a).ctxs.length
        ∨ blocksTotal a.variant < used + c.blockCount then
      (s.satJfld a JX_RCTX_RESERVE_FAILS 1, some 0x09)
    else ((s.updAgent a fun g => { g with ctxs := g.ctxs ++ [c] }).showCtx a, none))

/-- RESERVE_FREE (R270): frees the context of a TREE_ID and GROUP_ID; one that names no context is refused. -/
def execReserveFree (a : AgentRef) (p : Packet) (s : State) : Answer :=
  .next (s.fromOwner a p fun s => s.accept (.agent a) p fun s =>
    let c := ctxOf p.payload
    if (s.ctx (.agent a) c.treeId c.group).isSome then
      (s.freeCtxs a fun x => x.treeId == c.treeId && x.group == c.group, none)
    else (s, some 0x09))

end Sys2Proof.Machine
end

