-- ==== Sys2Proof/Machine/Agents.lean ====
section
/-! DEFINITION. The agent core: resets and rejoin (R39 to R44, R69), owner, claims, beacons and orphan state (R58 to R61,
R100, R101, R117 to R119), events out (R65), JX registers (R67 to R74, R99, R364, R365), discovery (R78, R422) and E states
(R429). -/

namespace Sys2Proof.Machine

/-! ## Compute reset (R40, R42) -/

/-- Streams an agent uses for itself, in the link domain: 0xFF00 and above (R93, R471). -/
def ownStreamKey (k : Nat) : Bool := decide (0xFF00 ≤ k % 65536)

/-- Keeps the agent's own unacknowledged packets, discards those of the accelerator and held completions (R112). -/
def Streams.computeReset (x : Streams) : Streams :=
  { tx := x.tx.mapVals fun k t => if ownStreamKey k then t else { t with outstanding := [] }
    rx := x.rx.mapVals fun _ r => { r with held := [] } }

/-- A compute reset begins (R40): the event, the aborts with reason 0x02, key slots, group queues, status. -/
def State.beginComputeReset (s : State) (a : AgentRef) : State :=
  if s.jfld a JX_STATUS_COMPUTE_IN_RESET = 1 then s
  else
    let s := s.raiseAgent a 192 2 0x0002
    let f := s.nodeFid (.agent a)
    let s : State := { s with dom := { s.dom with rejoins := s.dom.rejoins.filter fun x => x.fid != f
                                                  rejoinOut := s.dom.rejoinOut.filter (· != f) } }
    let shadow : Shadow := { kind := 66, origin := s.nodeFid (.agent a), openNs := s.now + 1 }
    let s : State := { s with col := { s.col with shadows := s.col.shadows ++ [shadow] } }
    let s := s.forEach ((s.agent a).ops.filter fun o => o.started && !o.complete) fun s o => s.memberAbort a o 2 false
    let s := s.updAgent a fun g => { g with
      ops := [], gqs := [], keySlots := [], rxRing := none, windows := [], lowPower := 0, deepDeferred := false
      chunkSuspended := false, streams := g.streams.computeReset }
    (s.setJfld a JX_STATUS_COMPUTE_IN_RESET 1).setJfld a JX_STATUS_REJOINED 0

/-- The compute domain leaves reset (R42, step 1): COMPUTE_IN_RESET clears and the compute-ready event is sent. -/
def State.endComputeReset (s : State) (a : AgentRef) : State :=
  if s.jfld a JX_STATUS_COMPUTE_IN_RESET = 0 then s
  else
    let origin := s.nodeFid (.agent a)
    let l := s.col.shadows.map fun x => if x.kind = 66 ∧ x.origin = origin ∧ x.closeNs.isNone then { x with closeNs := some (s.now + 20000) } else x
    let s : State := { s with col := { s.col with shadows := l } }
    (s.setJfld a JX_STATUS_COMPUTE_IN_RESET 0).raiseAgent a 192 0 0x0001

/-- CRST_ASSERT (R40); a Jexjan-S has no compute domain (R39). -/
def execCrstAssert (a : AgentRef) (s : State) : Answer :=
  match a.variant with
  | .s => .next s
  | .e => .next ((s.updAgent a fun g => { g with crstN := false }).beginComputeReset a)

/-- CRST_DEASSERT (R42). -/
def execCrstDeassert (a : AgentRef) (s : State) : Answer :=
  match a.variant with
  | .s => .next s
  | .e => .next ((s.updAgent a fun g => { g with crstN := true }).endComputeReset a)

/-- COMPUTE_RESET_END (R40): a requested reset ends, unless JX_CRST_N is asserted. -/
def execComputeResetEnd (a : AgentRef) (s : State) : Answer :=
  if (s.agent a).crstN then .next (s.endComputeReset a) else .next s

/-! ## Link-domain reset (R39, R43, R434, R471) -/

/-- The agent after a link-domain reset: tables, staging, contexts, dispatch, events, samples, streams, ports and JX
registers start again; the accelerator's memory, its pins and the compute domain's reset stay. -/
def Agent.linkReset (g : Agent) : Agent :=
  { crstN := g.crstN, lrstN := g.lrstN, mem := g.mem, memBytes := g.memBytes, partition := g.partition, lowPower := g.lowPower
    powerW := g.powerW, scrub := g.scrub
    ports := g.ports.map fun x => (x.1, { state := 1, planned := x.2.planned, farPort := x.2.farPort, trainNs := x.2.trainNs }) }

/-- Performs a link-domain reset; its shadow opens at the agent and at the collector (R66, R374). -/
def State.linkDomainReset (s : State) (a : AgentRef) : State :=
  let inReset := s.jfld a JX_STATUS_COMPUTE_IN_RESET
  let origin := s.nodeFid (.agent a)
  let s := s.updAgent a fun g => { g.linkReset with ports := g.linkReset.ports.mapVals fun _ x => { x with trainNs := s.now } }
  let s := s.updAgent a fun g => { g with ownShadow := some (s.agentNow a, 2 ^ 63) }
  let s := s.setJfld a JX_STATUS_COMPUTE_IN_RESET inReset
  { s with col := { s.col with shadows := s.col.shadows ++ [{ kind := 65, origin := origin, openNs := s.now }] } }

/-- A link-domain reset is complete: its shadows close 20 µs later (R375). -/
def State.linkResetDone (s : State) (a : AgentRef) (origin : Fid) : State :=
  let s := s.updAgent a fun g => { g with ownShadow := g.ownShadow.map fun x => (x.1, s.agentNow a + 20000) }
  let l := s.col.shadows.map fun x => if x.kind = 65 ∧ x.origin = origin ∧ x.closeNs.isNone then { x with closeNs := some (s.now + 20000) } else x
  { s with col := { s.col with shadows := l } }

/-- LRST_ASSERT (R43): cannot be refused. -/
def execLrstAssert (a : AgentRef) (s : State) : Answer :=
  .next ((s.updAgent a fun g => { g with lrstN := false }).linkDomainReset a)

/-- LRST_DEASSERT: the link domain leaves reset and waits for discovery (R43, R426). -/
def execLrstDeassert (a : AgentRef) (s : State) : Answer :=
  let origin := (s.dom.known.find? fun k => k.ref == a).map (·.fid)
  .next ((s.updAgent a fun g => { g with lrstN := true }).linkResetDone a (origin.getD noFid))

/-! ## JX registers (R67 to R74, R99, R364, R365) -/

/-- The value a JX register reads as: HELD_EVENTS counts the buffer while orphaned (R73). -/
def State.jxRead (s : State) (a : AgentRef) (off : Nat) : Word64 :=
  if off = JX_HB then JX_HB_HELD_EVENTS.put (s.jx a off) (if s.orphan a then (s.agent a).held.length else 0)
  else s.jx a off

/-- The offset holds a JX register (R67). -/
def jxExists (off : Nat) : Bool :=
  (findDesc jxTable off).isSome || (decide (0x1000 ≤ off ∧ off < 0x1800) && off % 8 == 0)

/-- JX registers the operator may write (R67). -/
def jxWritable (off : Nat) : Bool :=
  off == JX_CTRL || off == JX_SAMPLE || off == JX_HB || off == JX_EVDROP || off == JX_VIOL
    || (decide (0x1000 ≤ off ∧ off < 0x1800) && off % 8 == 0)

/-- What a write does to a source register (R11, R361, R364): the new word, and whether it is counted under R4. SEVERITY
above 4 is ignored; a source of default 3 or 4 takes no SEVERITY below 3 and no MASK. -/
def srcWrite (dflt : Nat) (old v : Word64) : Word64 × Bool :=
  let f := FLT_SRCn_SEVERITY
  let sev := f.of v
  let bad := decide (3 ≤ dflt ∧ sev < 3)
  let w := writeWord descFLT_SRCn old v
  let w := if 4 < sev ∨ bad then f.put w (f.of old) else w
  let w := if 3 ≤ dflt then FLT_SRCn_MASK.put w (FLT_SRCn_MASK.of old) else w
  (w, bad)

/-- A forced event on an agent source (R365): current SEVERITY, detail 0xFFFF, FORCED, no capture. -/
def State.forceAgent (s : State) (a : AgentRef) (src : Nat) : State :=
  let ev : Event := { origin := s.nodeFid (.agent a), source := src, severity := s.jfld a (FLT_SRCn_SEVERITY.at (jxSrc src))
                      detail := 0xFFFF, forced := true, timeNs := s.agentNow a, shadow := s.inOwnShadow a, agentOrigin := true }
  let masked := s.jfld a (FLT_SRCn_MASK.at (jxSrc src))
  let s := s.countAgentSource a src 0xFFFF none
  if masked = 1 then s
  else if 3 ≤ ev.severity then (s.bufferEvent a ev).sendUrgent a else s.bufferEvent a ev

/-- Writes JX_FLT_SRCn (R364, R365). -/
def State.writeJxSrc (s : State) (a : AgentRef) (src : Nat) (v : Word64) : State :=
  let r := srcWrite (jxDefaultSev a.variant a.num src) (s.jx a (jxSrc src)) v
  let s := s.setJx a (jxSrc src) r.1
  let s := if r.2 then s.agentViolation a .operator else s
  if FLT_SRCn_FORCE.of v = 1 then s.forceAgent a src else s

/-- A JX_SAMPLE shift as written (R56). -/
def shiftOf (n : Nat) : Nat := if n = 0 then 0 else if n < 4 then 4 else min n 20

/-- Writes JX_SAMPLE (R56). -/
def State.writeSample (s : State) (a : AgentRef) (v : Word64) : State :=
  [JX_SAMPLE_SHIFT_EXPRESS, JX_SAMPLE_SHIFT_COLLECTIVE, JX_SAMPLE_SHIFT_BULK, JX_SAMPLE_SHIFT_CONTROL].foldl
    (fun s f => s.setJfld a f (shiftOf (f.of v))) s

/-- Writes JX_HB (R73): a value outside its range is ignored. -/
def State.writeHb (s : State) (a : AgentRef) (v : Word64) : State :=
  let p := JX_HB_STATUS_PERIOD_MS.of v
  let o := JX_HB_ORPHAN_MS.of v
  let s := if 10 ≤ p ∧ p ≤ 250 then s.setJfld a JX_HB_STATUS_PERIOD_MS p else s
  if 2 ≤ o ∧ o ≤ 50 then s.setJfld a JX_HB_ORPHAN_MS o else s

/-- JX_CTRL.COMPUTE_RESET: a Jexjan-S ignores it (R69). -/
def State.askComputeReset (s : State) (a : AgentRef) : State :=
  match a.variant with
  | .s => s
  | .e => s.beginComputeReset a

/-- JX_CTRL.REJOIN_DONE: ignored on a Jexjan-S and while COMPUTE_IN_RESET is 1 (R69, R42). -/
def State.takeRejoinDone (s : State) (a : AgentRef) : State :=
  if a.variant = .e ∧ s.jfld a JX_STATUS_COMPUTE_IN_RESET = 0 then s.setJfld a JX_STATUS_REJOINED 1 else s

/-- JX_CTRL.LINK_RESET (R43): performed with DRAINED at 1, else the event on source 3; answers whether it was refused. -/
def State.askLinkReset (s : State) (a : AgentRef) : State × Bool :=
  if s.jfld a JX_STATUS_DRAINED = 1 then
    let origin := s.nodeFid (.agent a)
    (((s.linkDomainReset a).linkResetDone a origin), false)
  else (s.raiseAgent a 3 2 0x0001, true)

/-- Writes JX_CTRL (R69): the state, and whether the write is refused (R99). DESIGN CHOICE (log entry 150): bits written
together act in the order REJOIN_DONE, COMPUTE_RESET, LINK_RESET. -/
def State.writeCtrl (s : State) (a : AgentRef) (v : Word64) : State × Bool :=
  let s := if JX_CTRL_REJOIN_DONE.of v = 1 then s.takeRejoinDone a else s
  let s := if JX_CTRL_COMPUTE_RESET.of v = 1 then s.askComputeReset a else s
  if JX_CTRL_LINK_RESET.of v = 1 then s.askLinkReset a else (s, false)

/-- Writes a JX register at operator level: the state, and whether the write is refused (R67, R99). -/
def State.jxWrite (s : State) (a : AgentRef) (off : Nat) (v : Word64) : State × Bool :=
  if jxWritable off = false then (s.agentViolation a .operator, true)
  else if off = JX_CTRL then s.writeCtrl a v
  else if off = JX_SAMPLE then (s.writeSample a v, false)
  else if off = JX_HB then (s.writeHb a v, false)
  else if 0x1000 ≤ off then (s.writeJxSrc a ((off - 0x1000) / 8) v, false)
  else match findDesc jxTable off with
    | some d => (s.setJx a off (writeWord d (s.jx a off) v), false)
    | none => (s, true)

/-- Sends a REG_RESP (R99): it copies STREAM and SEQ of its request. -/
def State.regRespond (s : State) (a : AgentRef) (h : Header) (value : Word64) (status : Nat) : State :=
  let l := leBytes 8 value.toNat ++ leBytes 1 status ++ zeros 7
  s.originate (.agent a) (Packet.seal
    { hdr := { dest := h.src, src := s.nodeFid (.agent a), cls := .control, typ := 0x31, length := 16, stream := h.stream
               seq := h.seq, partition := h.partition }, payload := l })

/-- Register offset of a REG_READ or REG_WRITE (R99). -/
def regOffset (h : Header) : Nat := bitsAt h.addr.toNat 0 16

/-- Remembers a REG_WRITE that was refused, so that a copy gets the same answer (R99). -/
def State.noteRefused (s : State) (a : AgentRef) (h : Header) (refused : Bool) : State :=
  if refused then
    let x := s.rx (.agent a) h.src h.stream
    s.setRx (.agent a) h.src h.stream { x with refused := (h.seq :: x.refused).take 1024 }
  else s

/-- A REG_WRITE reaches an agent (R58, R61, R99): `write` is its effect and says whether it is refused. A copy is answered
again without writing again. -/
def State.regWriteReq (s : State) (a : AgentRef) (p : Packet) (write : State → State × Bool) : State :=
  if p.crcOk = false then s.nakPkt (.agent a) p.hdr 0x01
  else if s.ownerSent a p.hdr = false then (s.raiseAgent a 8 2 (p.hdr.src.setWidth 16)).regRespond a p.hdr 0 0xF2
  else if s.orphan a then s
  else if s.isDup (.agent a) p.hdr then
    s.regRespond a p.hdr (s.jxRead a (regOffset p.hdr)) (if (s.rx (.agent a) p.hdr.src p.hdr.stream).refused.contains p.hdr.seq then 0xF2 else 0)
  else
    let r := write s
    let s := (r.1.recordSeq (.agent a) p.hdr).noteRefused a p.hdr r.2
    s.regRespond a p.hdr (s.jxRead a (regOffset p.hdr)) (if r.2 then 0xF2 else 0)

/-- REG_WRITE (R99). -/
def execRegWrite (a : AgentRef) (p : Packet) (s : State) : Answer :=
  .next (s.regWriteReq a p fun s => s.jxWrite a (regOffset p.hdr) (BitVec.ofNat 64 (leAt p.payload 0 8)))

/-- REG_READ (R99, R67, R4): a tenant-level read of another register than JX_ID and JX_EPOCH returns zero and counts. -/
def execRegRead (a : AgentRef) (p : Packet) (lvl : Level) (s : State) : Answer :=
  let off := regOffset p.hdr
  let open_ := off == JX_ID || off == JX_EPOCH
  if p.crcOk = false then .next (s.nakPkt (.agent a) p.hdr 0x01)
  else if s.ownerSent a p.hdr = false then .next ((s.raiseAgent a 8 2 (p.hdr.src.setWidth 16)).regRespond a p.hdr 0 0xF2)
  else if s.orphan a then .next s
  else
    let s := s.recordSeq (.agent a) p.hdr
    if jxExists off = false then .next (s.regRespond a p.hdr 0 0xF2)
    else if lvl = .tenant ∧ open_ = false then .next ((s.agentViolation a .tenant).regRespond a p.hdr 0 0)
    else .next (s.regRespond a p.hdr (s.jxRead a off) 0)

/-- COMPUTE_RESET (R40, R69): a write of JX_CTRL.COMPUTE_RESET. -/
def execComputeReset (a : AgentRef) (p : Packet) (s : State) : Answer :=
  .next (s.regWriteReq a p fun s => (s.askComputeReset a, false))

/-- REJOIN_DONE (R69, R42). -/
def execRejoinDone (a : AgentRef) (p : Packet) (s : State) : Answer :=
  .next (s.regWriteReq a p fun s => (s.takeRejoinDone a, false))

/-- LINK_RESET (R43, R69). -/
def execLinkReset (a : AgentRef) (p : Packet) (s : State) : Answer :=
  .next (s.regWriteReq a p fun s => s.askLinkReset a)

/-- JX_FLT_FORCE (R365): a write of FORCE in JX_FLT_SRCn. -/
def execJxFltForce (a : AgentRef) (p : Packet) (s : State) : Answer :=
  .next (s.regWriteReq a p fun s =>
    if 0x1000 ≤ regOffset p.hdr ∧ jxExists (regOffset p.hdr) then (s.forceAgent a ((regOffset p.hdr - 0x1000) / 8), false)
    else (s, true))

/-- LOCAL_PATH_WRITE (R67): ignored and counted in JX_VIOL.OPERATOR. -/
def execLocalPathWrite (a : AgentRef) (offset : Nat) (v : Word64) (s : State) : Answer :=
  let _ := (offset, v)
  .next (s.agentViolation a .operator)

/-! ## Events out (R65, R102) -/

/-- The events of severity 0 to 2 that fill one packet of 8 records, oldest first. -/
def packEvents : Nat → List Event → List Event
  | _, [] => []
  | n, e :: t =>
    if 3 ≤ e.severity then packEvents n t
    else if e.slots ≤ n then e :: packEvents (n - e.slots) t
    else []

/-- EVENTS_SEND_TIMER (R65): at most one packet per 8 µs for severity 0 to 2. -/
def execEventsSendTimer (a : AgentRef) (s : State) : Answer :=
  let l := packEvents 8 (s.agent a).buffer
  if s.mayReport a ∧ !l.isEmpty then .next (s.sendEvents a l) else .next s

/-! ## Status report (R60, R102) -/

/-- The status report, form 0. -/
def State.statusBytes (s : State) (a : AgentRef) : List Byte :=
  ([JX_STATUS, JX_EPOCH, JX_GAMBIT, JX_GAMBIT_STAGED, JX_RCTX, JX_RMEM, JX_HB].flatMap fun r => leBytes 8 (s.jxRead a r).toNat)
    ++ leBytes 8 (s.agentNow a)

/-- Sends a status report and restarts its period; none while orphaned (R60, R61). -/
def State.sendStatus (s : State) (a : AgentRef) : State :=
  if s.mayReport a then
    (s.updAgent a fun g => { g with statusNs := s.agentNow a }).sendMgmt (.agent a) (s.owner a) 0x36 (s.statusBytes a) 0 false
  else s

/-- STATUS_REPORT_TIMER (R60). -/
def execStatusReportTimer (a : AgentRef) (s : State) : Answer := .next (s.sendStatus a)

/-- SAMPLE_FLUSH_TIMER (R57): 1 ms after the first record. -/
def execSampleFlushTimer (a : AgentRef) (s : State) : Answer := .next (s.flushSamples a)

/-! ## Owner and orphan state (R58 to R61, R473) -/

/-- Sends the reports held or kept, after an accepted beacon (R473): held ones as new packets, kept ones again. -/
def State.sendKept (s : State) (a : AgentRef) : State :=
  let l := (s.agent a).reports
  let s := s.updAgent a fun g => { g with reports := [] }
  let s := s.forEach l fun s p => s.sendMgmt (.agent a) (s.owner a) p.hdr.typ p.payload p.hdr.aux
  let x := s.tx (.agent a) (s.owner a) Config.ownStream
  let parked := x.outstanding.filter (·.parked)
  let s := s.setTx (.agent a) (s.owner a) Config.ownStream
    { x with outstanding := x.outstanding.map fun t => if t.parked then { t with parked := false, resends := 0, emittedNs := s.agentNow a } else t }
  s.forEach parked fun s t => s.originate (.agent a) (Packet.seal { t.pkt with hdr := { t.pkt.hdr with resend := true } })

/-- The orphan state ends (R61): held events leave oldest first, and a status report at once. -/
def State.unorphan (s : State) (a : AgentRef) : State :=
  if s.orphan a then
    let s := s.setJfld a JX_STATUS_ORPHAN 0
    let s := s.sendUrgent a
    let l := packEvents 8 (s.agent a).buffer
    let s := if s.mayReport a ∧ !l.isEmpty then s.sendEvents a l else s
    s.sendStatus a
  else s

/-- JX_HB.BEACON_MISS (R73). -/
def State.showMissed (s : State) (a : AgentRef) : State := s.setJfld a JX_HB_BEACON_MISS (min 255 (s.agent a).missedBeacons)

/-- Beacon periods of 1 ms that have passed since the last beacon (R60, R73). -/
def State.countMissed (s : State) (a : AgentRef) : State :=
  match (s.agent a).lastBeaconNs with
  | some t => (s.updAgent a fun g => { g with missedBeacons := (s.agentNow a - t - 1) / 1000000 }).showMissed a
  | none => s

/-- ORPHAN_TIMEOUT (R61): no beacon for ORPHAN_MS. -/
def execOrphanTimeout (a : AgentRef) (s : State) : Answer :=
  if s.agentNow a < (s.agent a).lastBeaconNs.getD 0 + s.jfld a JX_HB_ORPHAN_MS * 1000000 then .next s
  else .next (((s.setJfld a JX_STATUS_ORPHAN 1).updAgent a fun g => { g with missedBeacons := max g.missedBeacons (s.jfld a JX_HB_ORPHAN_MS) }).showMissed a)

/-- HOLDOVER_EXCEEDED (R118, R7): the event on source 16, and the lapse of the figure. -/
def execHoldoverExceeded (a : AgentRef) (s : State) : Answer :=
  if (s.agent a).holdoverRaised ∨ s.agentNow a < (s.agent a).lastBeaconNs.getD 0 + 100000000 then .next s
  else
    let s := (s.updAgent a fun g => { g with holdoverRaised := true }).raiseAgent a 16 2 0x0000
    .next (s.lapse 0x000A (s.nodeFid (.agent a)).toNat)

/-! ### Streams that start again (R471) -/

/-- Events sent on a stream that starts again go back to the buffer, and reports are kept (R102, R473). -/
def State.recallReports (s : State) (a : AgentRef) (far : Fid) : State :=
  let out := (s.tx (.agent a) far Config.ownStream).outstanding
  let reps := (out.map (·.pkt)).filter fun p => p.hdr.typ == 0x36 || p.hdr.typ == 0x2C || p.hdr.typ == 0x27
  s.updAgent a fun g => { g with
    reports := g.reports ++ reps
    buffer := if out.any (fun t => t.pkt.hdr.typ == 0x34) then (g.eventsSent.flatMap (·.2)) ++ g.buffer else g.buffer
    eventsSent := if out.any (fun t => t.pkt.hdr.typ == 0x34) then [] else g.eventsSent }

/-- The dispatch records of a source go with the streams they belong to (R305, R471). -/
def DispatchSt.forget (x : DispatchSt) (far : Fid) : DispatchSt :=
  { x with pending := x.pending.filter (·.src != far), parts := x.parts.filter (·.src != far), done := x.done.filter fun d => d.1 != far }

/-- The sequence state of streams toward and from a far end starts again (R471): retained copies are discarded with an
error. -/
def State.restartStreams (s : State) (a : AgentRef) (far : Fid) : State :=
  let s := s.recallReports a far
  let x := (s.agent a).streams
  let lost := (x.tx.filter fun k => k.1 / 65536 == far.toNat).flatMap fun k => k.2.outstanding.map (·.pkt.hdr)
  let s := s.setStreams (.agent a) { tx := x.tx.keep (fun k _ => k / 65536 != far.toNat), rx := x.rx.keep (fun k _ => k / 65536 != far.toNat) }
  let s := s.updAgent a fun g => { g with disp := g.disp.forget far }
  s.forEach (lost.filter fun h => h.stream != Config.ownStream) fun s h => s.emit (.packetDone (.agent a) h.dest h.stream h.seq 0xF0)

/-- STREAMS_RESET (R471): acknowledged by every agent that receives it. -/
def execStreamsReset (a : AgentRef) (p : Packet) (s : State) : Answer :=
  .next (s.fromOwner a p fun s => s.accept (.agent a) p fun s =>
    (s.restartStreams a (BitVec.ofNat 32 (leAt p.payload 0 4)), none))

/-! ### Claims (R59, R101) -/

/-- Fields of a claim (R101). -/
def claimId (p : Packet) : Fid := BitVec.ofNat 32 (leAt p.payload 0 4)
def claimGen (p : Packet) : Nat := leAt p.payload 4 4
def claimTarget (p : Packet) : Fid := BitVec.ofNat 32 (leAt p.payload 8 4)
def claimAssign (p : Packet) : Fid := BitVec.ofNat 32 (leAt p.payload 12 4)
def claimAnchor (p : Packet) : BitVec 384 := BitVec.ofNat 384 (beAt p.payload 32 48)

/-- The chain, anchor and signature checks of a claim (R101). -/
def State.claimGenuine (s : State) (a : AgentRef) (p : Packet) (chainOk sigOk : Bool) : Bool :=
  chainOk && sigOk && match (s.agent a).anchor with
    | some d => d == claimAnchor p
    | none => true

/-- An accepted claim (R59, R61, R101, R471). -/
def State.acceptClaim (s : State) (a : AgentRef) (p : Packet) (deviceMatch higher : Bool) : State :=
  let s := s.updAgent a fun g => { g with anchor := some (g.anchor.getD (claimAnchor p)) }
  let s := if deviceMatch ∧ claimAssign p ≠ noFid then s.setJfld a JX_ID_FABRIC_ID (claimAssign p).toNat else s
  let s := (s.setJfld a JX_OWNER_GENERATION (claimGen p)).setJfld a JX_OWNER_OWNER_ID (claimId p).toNat
  let dom := (s.nodeFid (.agent a)).domain
  let s := if higher then
      (s.restartStreams a (BitVec.ofNat 32 (dom * 65536 + 0xA000))).restartStreams a (BitVec.ofNat 32 (dom * 65536 + 0xA001))
    else s
  ((s.complete (.agent a) p.hdr).unorphan a).sendUrgent a

/-- CLAIM (R59, R101, R338): a refused claim is not acknowledged, and a port without an RT0 link key takes none. -/
def execClaim (a : AgentRef) (port : Nat) (p : Packet) (chainOk sigOk deviceMatch : Bool) (s : State) : Answer :=
  let target := claimTarget p
  if (s.port (.agent a) port).key < 2 then .next s
  else if p.crcOk = false then .next (s.nakPkt (.agent a) p.hdr 0x01)
  else if target ≠ noFid ∧ target ≠ s.nodeFid (.agent a) then .next s
  else if s.claimGenuine a p chainOk sigOk = false then .next s
  else
    let cur := s.jfld a JX_OWNER_GENERATION
    let gen := claimGen p
    if cur < gen then .next (s.acceptClaim a p deviceMatch true)
    else if gen < cur then .next (s.raiseAgent a 9 2 ((claimId p).setWidth 16))
    else if claimId p = s.owner a then
      .next (if s.isDup (.agent a) p.hdr then s.again (.agent a) p.hdr else s.acceptClaim a p deviceMatch false)
    else .next (s.raiseAgent a 9 3 ((claimId p).setWidth 16))

/-! ### Beacons (R60, R100, R117, R119) -/

/-- Fields of a beacon (R100). -/
def beaconTime (p : Packet) : Nat := leAt p.payload 0 8
def beaconCorr (p : Packet) : Nat := leAt p.payload 8 8
def beaconEpoch (p : Packet) : Nat := leAt p.payload 16 6
def beaconSlot (p : Packet) : Nat := leAt p.payload 22 2
def beaconGen (p : Packet) : Nat := leAt p.payload 24 4
def beaconSeqOf (p : Packet) : BitVec 32 := BitVec.ofNat 32 (leAt p.payload 28 4)
def beaconGeom (p : Packet) (off : Nat) : Nat × Nat := (bitsAt (leAt p.payload off 4) 0 13, bitsAt (leAt p.payload off 4) 16 1 + 1)
def beaconPending (p : Packet) : Option (Nat × Nat × BitVec 32) :=
  if bitsAt (leAt p.payload 36 4) 31 1 = 1 then some ((beaconGeom p 36).1, (beaconGeom p 36).2, BitVec.ofNat 32 (leAt p.payload 40 4)) else none

/-- A 16-bit two's complement number. -/
def int16 (n : Nat) : Int := if n < 2 ^ 15 then (n : Int) else (n : Int) - 2 ^ 16

/-- The steering adjustments a beacon repeats. -/
def beaconAdjusts (p : Packet) : List (BitVec 32 × Int) :=
  ((List.range 4).filter fun i => leAt p.payload (48 + 8 * i + 6) 1 % 2 == 1).map fun i =>
    (BitVec.ofNat 32 (leAt p.payload (48 + 8 * i) 4), int16 (leAt p.payload (52 + 8 * i) 2))

/-- Adds what is not known yet. -/
def addNew (l new : List (BitVec 32 × Int)) : List (BitVec 32 × Int) :=
  new.foldl (fun l x => if l.any (fun y => y.1 == x.1) then l else l ++ [x]) l

/-- The phase correction of a beacon (R100, R119): up to 40 ns slewed, a larger one stepped at the next boundary. -/
def State.correctPhase (s : State) (a : AgentRef) (port : Nat) (p : Packet) : State :=
  let t := (beaconTime p * 1000 + beaconCorr p + (s.port (.agent a) port).delayPs) / 1000
  let d : Int := (t : Int) - (s.agentNow a : Int)
  s.updAgent a fun g => if d.natAbs ≤ 40 then { g with slewNs := d, stepNs := none } else { g with stepNs := some d, slewNs := 0 }

/-- What an accepted beacon sets (R61, R100): epoch and geometry from the first beacon after a reset, adjustments, pending
geometry, sequence. -/
def State.takeBeacon (s : State) (a : AgentRef) (p : Packet) : State :=
  let first := (s.agent a).lastBeaconNs.isNone
  let s := if first then
      ((s.setJfld a JX_EPOCH_EPOCH_NUM (beaconEpoch p)).setJfld a JX_EPOCH_SLOT (beaconSlot p)).updAgent a fun g =>
        { g with geometry := beaconGeom p 32 }
    else s
  let now := BitVec.ofNat 32 (s.jfld a JX_EPOCH_EPOCH_NUM)
  let later := fun (e : BitVec 32) => seqLater e now
  let adj := (beaconAdjusts p).filter fun x => later x.1
  let pend := match beaconPending p with | some x => if later x.2.2 then some x else none | none => none
  let s := s.updAgent a fun g => { g with
    lastBeaconNs := some (s.agentNow a), lastBeaconSeq := some (beaconSeqOf p), missedBeacons := 0, holdoverRaised := false
    realign := g.realign || g.late != 0, epochTick := if first then beaconSlot p * (beaconGeom p 32).2 else g.epochTick
    adjusts := addNew g.adjusts adj, pendingGeometry := (match pend with | some x => some x | none => g.pendingGeometry) }
  s.setJfld a JX_HB_BEACON_MISS 0

/-- BEACON (R60, R61, R100, R117, R119, R152): replicated with its correction; one of another generation or not above the
last sequence is ignored. -/
def execBeacon (a : AgentRef) (port : Nat) (p : Packet) (s : State) : Answer :=
  if p.crcOk = false then .next (s.nakPkt (.agent a) p.hdr 0x01)
  else
    let corr := beaconCorr p + (s.port (.agent a) port).delayPs + Config.residencePs (agentKey a) (beaconSeqOf p)
    let s := s.replicate a port p (p.payload.take 8 ++ leBytes 8 corr ++ p.payload.drop 16)
    let stale : Bool := match (s.agent a).lastBeaconSeq with | some q => !seqLater (beaconSeqOf p) q | none => false
    if beaconGen p ≠ s.jfld a JX_OWNER_GENERATION ∨ p.hdr.src ≠ s.owner a ∨ stale then .next s
    else
      let s := ((s.correctPhase a port p).takeBeacon a p).unorphan a
      .next ((s.sendKept a).restore 0x000A (s.nodeFid (.agent a)).toNat)

/-! ## Discovery and tests (R78, R422) -/

/-- DISCOVER_REQ (R78, R422): the answer leaves through the port on which the request arrived. -/
def execDiscoverReq (a : AgentRef) (port : Nat) (p : Packet) (s : State) : Answer :=
  let l := Config.discoverPayload (agentKey a)
  .next (s.consume (.agent a) p fun s => s.portSend (.agent a) port (Packet.seal
    { hdr := { ownHdr p.hdr.src 0x28 l with src := s.nodeFid (.agent a), stream := p.hdr.stream, seq := p.hdr.seq }, payload := l }))

/-- Tests of a known-answer run (R422), as mask bits: table banks, combine unit, cipher, and the group-queue path of a
Jexjan-E (log entry 35). -/
def katMask : Variant → Nat
  | .s => 0x7
  | .e => 0xF

/-- KAT_ORDER (R422, R102): acknowledged, and the result returns in STATUS form 2. `failed` is what the run found. -/
def execKatOrder (a : AgentRef) (p : Packet) (failed : BitVec 32) (s : State) : Answer :=
  .next (s.fromOwner a p fun s => s.accept (.agent a) p fun s =>
    (s.sendReport a 0x36 (leBytes 4 (katMask a.variant) ++ leBytes 4 failed.toNat ++ zeros 8) 2, none))

/-! ## E-IDLE and E-DEEP (R429, R437) -/

/-- Every group queue is empty and no packet is unacknowledged. -/
def Agent.quiet (g : Agent) : Bool :=
  g.ops.isEmpty && g.gqs.all (fun x => x.2.head == x.2.tail)
    && g.streams.tx.all fun x => ownStreamKey x.1 || x.2.outstanding.isEmpty

/-- E_IDLE_REQUEST (R429). -/
def execEIdleRequest (a : AgentRef) (s : State) : Answer :=
  if s.computeUp a then .next (s.updAgent a fun g => { g with lowPower := if g.lowPower = 0 then 1 else g.lowPower }) else .next s

/-- E_DEEP_REQUEST (R429, R437): deferred while a PLAY is pending. -/
def execEDeepRequest (a : AgentRef) (s : State) : Answer :=
  if s.computeUp a ∧ (s.agent a).quiet then
    if s.jfld a JX_STATUS_PLAY_PENDING = 1 then .next (s.updAgent a fun g => { g with deepDeferred := true })
    else .next (s.updAgent a fun g => { g with lowPower := 2 })
  else .next s

/-- E_WAKE (R429). -/
def execEWake (a : AgentRef) (s : State) : Answer :=
  .next (s.updAgent a fun g => { g with lowPower := 0, deepDeferred := false })

/-- A deferred E-DEEP request takes effect after the swap (R437). -/
def State.deferredDeep (s : State) (a : AgentRef) : State :=
  if (s.agent a).deepDeferred ∧ s.jfld a JX_STATUS_PLAY_PENDING = 0 then
    s.updAgent a fun g => { g with deepDeferred := false, lowPower := if g.quiet then 2 else g.lowPower }
  else s

/-- SCRUB_ZERO_DONE (R346): the memory has been written with zeros, and the read-back begins. -/
def execScrubZeroDone (a : AgentRef) (s : State) : Answer :=
  match (s.agent a).scrub with
  | none => .next s
  | some x => .next (s.updAgent a fun g => { g with mem := [], scrub := some { x with phase := 3, done := 0 } })

/-- SCRUB_STATUS_TIMER (R347): a scrub-status packet on each port. -/
def execScrubStatusTimer (a : AgentRef) (s : State) : Answer :=
  match (s.agent a).scrub with
  | none => .next s
  | some x =>
    let me := s.nodeFid (.agent a)
    let l := leBytes 4 me.toNat ++ leBytes 2 x.former.toNat ++ leBytes 1 x.phase ++ zeros 1 ++ leBytes 8 x.done
      ++ leBytes 8 (s.agent a).memBytes ++ leBytes 4 x.seqNo ++ leBytes 8 (s.agentNow a) ++ zeros 28
    let dest : Fid := BitVec.ofNat 32 (me.domain * 65536 + 0xA000)
    .next (s.forEach (s.agent a).ports fun s y =>
      if s.portUp (.agent a) y.1 ∧ me ≠ noFid then
        let n := s.number (.agent a) { hdr := ownHdr dest 0x2F l, payload := l }
        let t := s.tx (.agent a) dest Config.ownStream
        ((s.setTx (.agent a) dest Config.ownStream { t with nextSeq := t.nextSeq + 1 }).emit (.packet (.agent a) n)).portSend (.agent a) y.1 n
      else s)

end Sys2Proof.Machine
end

