-- ==== Sys2Proof/Machine/Records.lean ====
section
/-! DEFINITION. Ledger records as bytes (R384) and the security records of RT0 (R390). -/

namespace Sys2Proof.Machine

/-- Operating milliseconds (R384). -/
def State.operMs (s : State) : Nat := s.fld LED_TIME_OPER_MS

/-- The tick within the operating millisecond (R384). -/
def State.operTick (s : State) : Nat := s.time.operNs % 1000000 / 128

/-- The 64 bytes of a record (R384); VALID is the last byte. -/
def LedgerRec.bytes (r : LedgerRec) : List Byte :=
  let flags := r.severity + bit r.shadow * 8 + bit r.escalated * 16 + bit r.forced * 32 + bit r.capture.isSome * 64
  let cap := r.capture.getD {}
  let body := leBytes 8 r.seq ++ leBytes 6 r.firstMs ++ leBytes 2 r.firstTick ++ leBytes 6 r.lastMs ++ zeros 2
    ++ leBytes 4 r.pcycle ++ leBytes 4 r.origin.toNat ++ leBytes 2 r.source ++ [BitVec.ofNat 8 flags, BitVec.ofNat 8 r.typ]
    ++ leBytes 4 r.tally ++ leBytes 2 r.detail.toNat ++ leBytes 2 r.port
    ++ leBytes 8 (if r.capture.isSome then cap.addr.toNat else r.addr.toNat) ++ leBytes 4 cap.initiator.toNat ++ [cap.access]
    ++ [BitVec.ofNat 8 r.pips, 0]
  body ++ leBytes 4 (crc32c body) ++ [BitVec.ofNat 8 (128 + r.seq / 2 ^ 20 % 128)]

/-- Appends to a ring that keeps the newest `n` entries. -/
def ringPush {α : Type} (n : Nat) (l : List α) (x : α) : List α := (l ++ [x]).drop (l.length + 1 - n)

/-- RT0 writes a security record on one of its sources, and a copy goes to the collector (R390, R367). -/
def State.securityRecord (s : State) (src : Nat) (detail : BitVec 16) : State :=
  if s.rt0Out then s else
  let sev := defaultSev src
  let r : LedgerRec := { seq := s.led.securitySeq, firstMs := s.operMs, firstTick := s.operTick, lastMs := s.operMs
                         pcycle := s.fld LED_PCYCLE_COUNT, origin := s.fid, source := src, severity := sev, shadow := false
                         escalated := false, forced := false, typ := 3, tally := 1, detail := detail, port := 0xFFFF
                         capture := none, addr := s.reg TIM_CAL, pips := 0 }
  let s : State := { s with led := { s.led with
    security := ringPush 16384 s.led.security r.bytes, securitySeq := s.led.securitySeq + 1 } }
  let masked := s.fld (FLT_SRCn_MASK.at (fltSrc src))
  let ev : Event := { origin := s.fid, source := src, severity := raisedSev sev (s.fld (FLT_SRCn_SEVERITY.at (fltSrc src))) sev
                      detail := detail, timeNs := s.now, security := true, object := s.reg TIM_CAL }
  let s := s.countSource src 1 detail none
  if masked = 1 then s else s.present ev

end Sys2Proof.Machine
end

