-- ==== Sys2Proof/Machine/Security.lean ====
section
/-! DEFINITION. RT0, devices and attestation: keys (R331 to R339), device actions and scrub (R329, R345 to R348), life cycle
(R349), SPDM (R350 to R356), rekeys (R337). -/

namespace Sys2Proof.Machine

/-- The source of the SEC block (R359). -/
def srcSEC : Nat := 0x20

/-! ## SEC registers (R357) -/

/-- A partition's state beside its keys and devices. -/
def State.part (s : State) (p : Nat) : PartSt := s.sec.parts.getD p {}

/-- Replaces a partition. -/
def State.setPart (s : State) (p : Nat) (x : PartSt) : State := { s with sec := { s.sec with parts := s.sec.parts.set p x } }

/-- A device by its endpoint's local ID. -/
def State.dev (s : State) (e : Nat) : DevSt := s.sec.devs.getD e {}

/-- Replaces a device. -/
def State.setDev (s : State) (e : Nat) (x : DevSt) : State := { s with sec := { s.sec with devs := s.sec.devs.set e x } }

/-- The fabric ID of an endpoint of this domain. -/
def State.fidOf (s : State) (e : Nat) : Fid := BitVec.ofNat 32 (s.dom.domain * 65536 + e)

/-- The agent of an endpoint. -/
def State.devAgent (s : State) (e : Nat) : Option AgentRef := s.refOf (s.fidOf e)

/-- Keys of a partition. -/
def State.keysOf (s : State) (p : Nat) : Nat := s.sec.keys.countIf fun _ k => k.partition.toNat == p

/-- SEC_STATUS.KEYS_USED (R357). -/
def State.showKeys (s : State) : State := s.setFld SEC_STATUS_KEYS_USED s.sec.keys.length

/-- Scrubs running (R345). -/
def State.scrubsActive (s : State) : Nat := s.engines.countIf fun _ x => x.scrubDev.isSome

/-- SEC_STATUS.SCRUBS_ACTIVE (R357). -/
def State.showScrubs (s : State) : State := s.setFld SEC_STATUS_SCRUBS_ACTIVE s.scrubsActive

/-- An action that is not accepted (R329). -/
def State.refuseAction (s : State) : State := (s.satFld SEC_STATUS_REFUSED 1).raise srcSEC 1

/-- Extends a measurement register (R352). -/
def State.extendMeas (s : State) (i : Nat) (d : BitVec 384) : State :=
  { s with sec := { s.sec with meas := listSet s.sec.meas i (extendDigest (s.sec.meas.getD i 0) d) } }

/-! ## Keys (R331 to R335, R339) -/

/-- KGEN's effect: a new key, or none when the store or the partition is full (R331). A link key carries a link salt, a free value
(R334, R336; log entry 151). -/
def State.makeKey (s : State) (typ : Nat) (part : BitVec 12) (l : Level) : State × Option Nat :=
  if 8192 ≤ s.sec.keys.length ∨ 256 ≤ s.keysOf part.toNat then (s, none)
  else
    let n := s.sec.nextKey
    let k : Key := { typ := typ, partition := part, level := l, salt := if typ = 1 then s.free.setWidth 32 else 0 }
    let s : State := { s with sec := { s.sec with keys := s.sec.keys.set n k, nextKey := n + 1 } }
    ((if typ = 1 then s.useFree else s).showKeys, some n)

/-- Takes a key away from one target (R192, R332): a port is left without a key, a slot empty. -/
def State.clearTarget (s : State) (t : Nat × Nat × Nat) : State :=
  match t with
  | (0, p, _) => s.setPort .ctl p { s.port .ctl p with key := 0, txAct := none, rxAct := none }
  | (1, f, p) =>
    (match s.refOf (BitVec.ofNat 32 f) with
     | some a => s.setPort (.agent a) p { s.port (.agent a) p with key := 0, txAct := none, rxAct := none }
     | none => s)
  | (_, f, slot) =>
    match s.refOf (BitVec.ofNat 32 f) with
    | some a => s.updAgent a fun g => { g with keySlots := g.keySlots.erase slot }
    | none => s

/-- Zeroises a key in RT0 and at every target (R192, KZERO). -/
def State.zeroKey (s : State) (n : Nat) : State :=
  match s.sec.keys.get n with
  | none => s
  | some k =>
    let s := s.forEach k.targets fun s t => s.clearTarget t
    ({ s with sec := { s.sec with keys := s.sec.keys.erase n } }.showKeys)

/-- Zeroises every key of a partition. -/
def State.zeroPartition (s : State) (p : Nat) : State :=
  s.forEach ((s.sec.keys.filter fun k => k.2.partition.toNat == p).map (·.1)) fun s n => s.zeroKey n

/-- The wrapped blob of a key (R334), with the wrapping key's counter raised. -/
def State.wrapKey (s : State) (n w : Nat) : State × List Byte :=
  let k := s.sec.keys.getD n { typ := 0, partition := 0, level := .tenant }
  let x := s.sec.keys.getD w { typ := 0, partition := 0, level := .tenant }
  let kind := match k.targets with | t :: _ => t.1 | [] => 0
  let aad := leBytes 4 w ++ leBytes 1 k.typ ++ leBytes 1 kind ++ zeros 2 ++ leBytes 4 k.salt.toNat ++ zeros 4
    ++ leBytes 8 x.nonceCtr ++ zeros 8
  let nonce : BitVec 96 := BitVec.ofNat 96 (w * 2 ^ 64 + x.nonceCtr)
  let blob := aad ++ slice (Config.gcmWrap (Config.keyMaterial w) nonce aad (Config.keyMaterial n)) 0 48
  ({ s with sec := { s.sec with keys := s.sec.keys.set w { x with nonceCtr := x.nonceCtr + 1 } } }, blob)

/-- Installs a link key with its salt at one direction of a port with its activation counter (R83, R337); a sending end whose
counter has reached ACT refuses. -/
def State.keyPort (s : State) (n : Node) (port : Nat) (receive : Bool) (act : Nat) (k : LinkKey) : State × Bool :=
  let x := s.port n port
  if receive then (s.setPort n port { x with rxAct := some act, rxNext := k, key := 3 }, true)
  else if act ≤ x.txCtr then (s, false)
  else (s.setPort n port { x with txAct := some act, txNext := k, key := 3 }, true)

/-- An endpoint lies in a binding set that a partition has admitted (R311, R339). -/
def State.bindingAdmitted (s : State) (p : BitVec 12) (b e : Nat) : Bool :=
  s.plc.feet.any fun f => f.partition == p && f.foot.bindingSet == b && f.foot.devices.any fun d => d.endpoint == e

/-- The port on which discovery reached an agent. -/
def State.reachedAt (s : State) (a : AgentRef) (port : Nat) : Bool :=
  s.dom.known.any fun k => k.ref == a && k.agentPort == port

/-- Records an install target of a key. -/
def State.addTarget (s : State) (n : Nat) (k : Key) (t : Nat × Nat × Nat) : State :=
  { s with sec := { s.sec with keys := s.sec.keys.set n { k with targets := (k.targets.filter (· != t)) ++ [t] } } }

/-- KINST's effect: the state, and whether RT0 installed (R335). -/
def State.installKey (s : State) (n : Nat) (target ra rb rb1 : Nat) : State × Bool :=
  match s.sec.keys.get n with
  | none => (s, false)
  | some k =>
    let recv := bitsAt rb 16 1 == 1
    match target with
    | 0 =>
      if k.typ = 1 ∧ ra < 72 ∧ rb / 2 ^ 17 = 0 ∧ rb % 2 ^ 16 = 0 then
        let r := s.keyPort .ctl ra recv rb1 { key := n, salt := k.salt }
        if r.2 then (r.1.addTarget n k (0, ra, 0), true) else (s, false)
      else (s, false)
    | 1 =>
      match s.refOf (BitVec.ofNat 32 ra) with
      | none => (s, false)
      | some a =>
        let port := rb % 2 ^ 16
        let mine := s.owner a == s.fid || (s.inDiscovery a && (s.agent a).transportKey && s.reachedAt a port)
        if k.typ = 1 ∧ mine ∧ rb / 2 ^ 17 = 0 ∧ port < s.jfld a JX_ID_PORTS then
          let r := s.keyPort (.agent a) port recv rb1 { key := n, salt := k.salt }
          if r.2 then (r.1.addTarget n k (1, ra, port), true) else (s, false)
        else (s, false)
    | _ =>
      match s.refOf (BitVec.ofNat 32 ra) with
      | none => (s, false)
      | some a =>
        let slot := rb % 16
        let b := bitsAt rb 16 16
        let clean := rb / 2 ^ 32 == 0 && bitsAt rb 4 12 == 0 && (decide (slot < 8) || b == 0)
        let bound := decide (8 ≤ slot) || ((match k.binding with | some c => c == b | none => true) && s.bindingAdmitted k.partition b (s.nodeFid (.agent a)).localId)
        if k.typ = 0 ∧ a.variant = .e ∧ (s.agent a).partition = k.partition ∧ k.partition ≠ 0
            ∧ s.jfld a JX_STATUS_COMPUTE_IN_RESET = 0 ∧ clean ∧ bound then
          let s := s.updAgent a fun g => { g with keySlots := g.keySlots.set slot n }
          (s.addTarget n { k with binding := if slot < 8 then some b else k.binding } (2, ra, slot), true)
        else (s, false)

/-- The same, with the security record of a refusal (R335). -/
def State.kinst (s : State) (n target ra rb rb1 : Nat) : State × Bool :=
  if s.rt0Out then (s, false) else
  let r := s.installKey n target ra rb rb1
  if r.2 then r else (s.securityRecord 0x1A01 0, false)

/-! ## Rekeys (R337) -/

/-- A link key that RT0 draws for one direction of a link: its number and its salt, a free value (R83, R336, R337; log entry
151). -/
def State.drawLinkKey (s : State) : State × LinkKey :=
  let n := s.sec.nextKey
  (({ s with sec := { s.sec with nextKey := n + 1 } } : State).useFree, { key := n, salt := s.free.setWidth 32 })

/-- New link keys from one end to the other: the receiving end first, then the sending end; one that has reached ACT makes
LRE1 repeat with its counter plus 2^32. -/
def State.rekeyOneWay (s : State) (from_ : Node) (fp : Nat) (dst : Node) (tp : Nat) (act : Nat) : State :=
  if s.rt0Out then s else
  let x := s.port from_ fp
  let act := if act ≤ x.txCtr then x.txCtr + 2 ^ 32 else act
  let r := s.drawLinkKey
  ((r.1.keyPort dst tp true act r.2).1.keyPort from_ fp false act r.2).1

/-- The far end of a node's port as a node and a port. -/
def State.farNode (s : State) (n : Node) (p : Nat) : Option (Node × Nat) :=
  let x := s.port n p
  (s.nodeOf x.farId).map fun m => (m, x.farPort)

/-- A device that is scrubbed or quarantined keeps its facing port in scrub mode: the controller sets it again where the facing
switch's link-domain reset lost it, before the link carries anything but Control (R358). -/
def State.scrubAgain (s : State) (device facing : Node) (p : Nat) : State :=
  match device with
  | .ctl => s
  | .agent a =>
    let f := s.nodeFid device
    let y := s.port facing p
    if ((s.agent a).scrub.isSome ∨ (s.dev f.localId).state = 3) ∧ y.scrub.contains f = false then
      s.setPort facing p { y with scrub := y.scrub ++ [f] }
    else s

/-- Both directions of a port's link get new keys with ACT `ahead` frames ahead (R337, R346). -/
def State.rekeyLink (s : State) (n : Node) (p ahead : Nat) : State :=
  match s.farNode n p with
  | none => s
  | some (m, q) =>
    let s := (s.scrubAgain n m q).scrubAgain m n p
    (s.rekeyOneWay n p m q ((s.port n p).txCtr + ahead)).rekeyOneWay m q n p ((s.port m q).txCtr + ahead)

/-- REKEY_THRESHOLD (R86, R337): 2^39 frames under the current key: an agent asks its owner with its counter C, held while it
is orphaned (R61, R473); a port die signals RT0, and LRE1 rekeys the direction the port sends. -/
def execRekeyThreshold (n : Node) (port : Nat) (s : State) : Answer :=
  let x := s.port n port
  if x.rekeyAsked then .next s
  else
    let s := s.setPort n port { x with rekeyAsked := true }
    match n with
    | .agent a => .next (s.sendReport a 0x27 (leBytes 2 port ++ zeros 6 ++ leBytes 8 x.txCtr))
    | .ctl => match s.farNode .ctl port with
      | some (m, q) => .next (s.rekeyOneWay .ctl port m q (x.txCtr + 2 ^ 32))
      | none => .next s

/-- REKEY_REQ (R337): an agent asks for new keys of the direction it sends, with its counter C; acknowledged (R473). -/
def execRekeyReq (p : Packet) (s : State) : Answer :=
  .next (s.accept .ctl p fun s =>
    match s.refOf p.hdr.src with
    | none => (s, none)
    | some a =>
      let port := leAt p.payload 0 2
      let c := leAt p.payload 8 8
      match s.farNode (.agent a) port with
      | some (m, q) => (s.rekeyOneWay (.agent a) port m q (c + 2 ^ 32), none)
      | none => (s, none))

/-- REKEY (R91, R337): the operator orders a rekey of both directions of the selected port. -/
def execRekey (lvl : Level) (v : Word64) (s : State) : Answer :=
  match lvl with
  | .tenant => .next (s.violation lvl)
  | _ =>
    if LNK_CTRL_REKEY.of v = 1 then .next (s.rekeyLink .ctl (s.fld LNK_SEL_PORT) (2 ^ 32)) else .next s

/-! ## Partitions and devices (R328, R329) -/

/-- Opens the selected partition (R329, R349). -/
def State.openPart (s : State) (p : Nat) : State :=
  if p ≠ 0 ∧ (s.part p).state = 0 ∧ s.sec.lifeCycle = 1 then
    let n := s.sec.nextKey
    ({ s with sec := { s.sec with nextKey := n + 1 } }.setPart p { state := 1, spillKey := some n }).mirrorOut 7
  else s.refuseAction

/-- PART_OPEN (R329): SEC_PART.ACTION = 1 for the partition of SEC_PART_SEL. -/
def execPartOpen (lvl : Level) (v : Word64) (s : State) : Answer :=
  match lvl with
  | .tenant => .next (s.violation lvl)
  | _ => if SEC_PART_ACTION.of v = 1 then .next (s.openPart (s.fld SEC_PART_SEL_PARTITION)) else .next s

/-- Registers windows and the receive ring of an endpoint for its partition (R95, R227, R42; log entry 23). -/
def State.registerEndpoint (s : State) (a : AgentRef) (p : BitVec 12) (e : Nat) : State :=
  let ws := (Config.windows p.toNat e).map fun w => ({ partition := p, base := w.1, length := w.2 } : Window)
  let r := (Config.rxRing p.toNat e).map fun x => ({ partition := p, base := x.1, log2 := x.2 } : RxRing)
  s.updAgent a fun g => { g with windows := ws, rxRing := r }

/-- Sets the partition of a device's agent (R329). -/
def State.setPartition (s : State) (e : Nat) (p : BitVec 12) : State :=
  match s.devAgent e with
  | none => s
  | some a =>
    let s := s.updAgent a fun g => { g with partition := p }
    if p = 0 then s.updAgent a fun g => { g with windows := [], rxRing := none } else s.registerEndpoint a p e

/-- Assigns a device (R329). -/
def State.assignDev (s : State) (e p : Nat) : State :=
  let d := s.dev e
  if d.state = 0 ∧ (s.part p).state = 1 then
    ((s.setDev e { d with state := 1, partition := BitVec.ofNat 12 p }).setPartition e (BitVec.ofNat 12 p)).mirrorOut 7
  else s.refuseAction

/-- DEV_ASSIGN (R329): SEC_DEV.ACTION = 1 with PARTITION. -/
def execDevAssign (lvl : Level) (v : Word64) (s : State) : Answer :=
  match lvl with
  | .tenant => .next (s.violation lvl)
  | _ => if SEC_DEV_ACTION.of v = 1 then .next (s.assignDev (s.fld SEC_DEV_SEL_ENDPOINT) (SEC_DEV_PARTITION.of v)) else .next s

/-- A device is to be scrubbed: it becomes SCRUBBING, its agent's partition 0, and the scrub waits for an engine (R345,
R346). -/
def State.orderScrub (s : State) (e : Nat) : State :=
  let d := s.dev e
  let former := if d.state = 3 then d.former else d.partition
  (s.setDev e { d with state := 2, former := former, partition := 0, scrubWaiting := true, scrubStartMs := s.operMs }).setPartition e 0

/-- The device is in an admitted group or an admitted binding set (R329). -/
def State.devInUse (s : State) (e : Nat) : Bool :=
  (s.grp.groups.any fun g => g.rec_.members.any fun m => m.fid == s.fidOf e)
    || s.plc.feet.any fun f => f.foot.devices.any fun d => d.endpoint == e

/-- Releases a device (R329). -/
def State.releaseDev (s : State) (e : Nat) : State :=
  if (s.dev e).state = 1 ∧ s.devInUse e = false then s.orderScrub e else s.refuseAction

/-- DEV_RELEASE (R329): SEC_DEV.ACTION = 2. -/
def execDevRelease (lvl : Level) (v : Word64) (s : State) : Answer :=
  match lvl with
  | .tenant => .next (s.violation lvl)
  | _ => if SEC_DEV_ACTION.of v = 2 then .next (s.releaseDev (s.fld SEC_DEV_SEL_ENDPOINT)) else .next s

/-- Scrubs a quarantined device again (R329, R345). -/
def State.rescrubDev (s : State) (e : Nat) : State :=
  if (s.dev e).state = 3 then s.orderScrub e else s.refuseAction

/-- DEV_RESCRUB (R329): SEC_DEV.ACTION = 3. -/
def execDevRescrub (lvl : Level) (v : Word64) (s : State) : Answer :=
  match lvl with
  | .tenant => .next (s.violation lvl)
  | _ => if SEC_DEV_ACTION.of v = 3 then .next (s.rescrubDev (s.fld SEC_DEV_SEL_ENDPOINT)) else .next s

/-! ## Scrub (R345 to R348) -/

/-- The facing ports of an agent's links: node and port. -/
def State.facingPorts (s : State) (a : AgentRef) : List (Node × Nat) :=
  (s.agent a).ports.filterMap fun x => s.farNode (.agent a) x.1

/-- Sets or clears scrub mode for a device on its facing ports (R346). -/
def State.scrubMode (s : State) (a : AgentRef) (f : Fid) (on : Bool) : State :=
  s.forEach (s.facingPorts a) fun s x =>
    let y := s.port x.1 x.2
    s.setPort x.1 x.2 { y with scrub := if on then (y.scrub.filter (· != f)) ++ [f] else y.scrub.filter (· != f) }

/-- The digest of the scrub program in slot 4 (R209, R348). -/
def State.scrubDigest (s : State) : BitVec 384 :=
  match s.programs.get 4 with
  | some p => sha384 (p.code.flatMap fun w => leBytes 8 w.toNat)
  | none => sha384 []

/-- A scrub record of 256 bytes, signed (R348). -/
def State.scrubRecord (s : State) (kind result : Nat) (f : Fid) (former seqNo startMs zeroed verified dropped mem : Nat) :
    List Byte :=
  let l := leBytes 2 1 ++ leBytes 1 kind ++ leBytes 1 result ++ leBytes 4 f.toNat ++ leBytes 2 former ++ zeros 2
    ++ leBytes 4 seqNo ++ leBytes 6 startMs ++ zeros 2 ++ leBytes 6 s.operMs ++ zeros 2 ++ leBytes 4 (s.fld LED_PCYCLE_COUNT)
    ++ zeros 4 ++ leBytes 8 (s.reg TIM_CAL).toNat ++ leBytes 8 zeroed ++ leBytes 8 verified ++ digestBytes s.scrubDigest
    ++ leBytes 8 dropped ++ leBytes 8 mem ++ zeros 32
  l ++ slice (Config.aliasSign l) 0 96

/-- Keeps a scrub record, with the security record of its digest (R348). -/
def State.keepRecord (s : State) (l : List Byte) : State :=
  { s with sec := { s.sec with scrubRecords := ringPush 16384 s.sec.scrubRecords l } }.securityRecord 0x1A04
    ((sha384 l).setWidth 16)

/-- A scrub ends with its record (R346, R348): FREE when clean, QUARANTINED with an event otherwise. -/
def State.endScrub (s : State) (e : Nat) (result zeroed verified mem : Nat) : State :=
  let d := s.dev e
  let clean := result == 0
  let s := s.keepRecord (s.scrubRecord 0 result (s.fidOf e) d.former.toNat d.seqNo d.scrubStartMs zeroed verified
    d.dropped mem)
  let s := match d.engine with | some g => s.setEngine g {} | none => s
  let s := (s.setDev e { d with state := if clean then 0 else 3, engine := none, scrubWaiting := false
                                former := if clean then 0 else d.former }).showScrubs
  let s := if clean then s.satFld SEC_SCRUB_DONE 1 else (s.satFld SEC_SCRUB_FAILED 1).raise srcSEC 2
  match s.devAgent e with
  | none => s
  | some a =>
    let s := if clean then s.scrubMode a (s.fidOf e) false else s
    let s := s.updAgent a fun g => { g with scrub := none }
    if (s.agent a).crstN then s.endComputeReset a else s

/-- The engine a scrub starts on, when fewer than 8 run (R345). -/
def State.scrubEngine (s : State) : Option Nat := if s.scrubsActive < 8 then s.freeEngine 0xFF else none

/-- Steps 2 to 5 of an endpoint scrub (R346). -/
def State.beginScrub (s : State) (e g : Nat) : State :=
  let seqNo := s.sec.scrubSeq + 1
  let d := s.dev e
  let s : State := { s with sec := { s.sec with scrubSeq := seqNo } }
  let s := (s.setDev e { d with scrubWaiting := false, seqNo := seqNo, engine := some g, lastStatusNs := s.now
                                statusRaised := false, scrubStartMs := s.operMs, dropped := 0 })
  let s := (s.setEngine g { running := true, level := .vendor, scrubDev := some e }).showScrubs
  match s.devAgent e with
  | none => s.endScrub e 2 0 0 0
  | some a =>
    let keys := s.sec.keys.mapVals fun _ k => { k with targets := k.targets.filter fun t => !(t.1 == 2 && t.2.1 == (s.fidOf e).toNat) }
    let s : State := { s with sec := { s.sec with keys := keys } }
    let s := s.updAgent a fun x => { x with keySlots := [] }
    let s := s.forEach ((s.agent a).ports.map (·.1)) fun s p => s.rekeyLink (.agent a) p 1
    let s := (s.scrubMode a (s.fidOf e) true).beginComputeReset a
    if (s.agent a).memBytes = 0 then s.endScrub e 2 0 0 0
    else s.updAgent a fun x => { x with scrub := some { phase := 2, former := d.former, seqNo := seqNo } }

/-- SCRUB_START (R345): a waiting scrub starts on a free engine, at most 8 at once. -/
def execScrubStart (dev : Nat) (s : State) : Answer :=
  if (s.dev dev).state = 2 ∧ (s.dev dev).scrubWaiting then
    match s.scrubEngine with
    | some g => .next (s.beginScrub dev g)
    | none => .next s
  else .next s

/-- SCRUB_VERIFY_DONE (R346, R347): the read-back is complete; the last status packet carries phase 4 or 5. -/
def execScrubVerifyDone (a : AgentRef) (zeroed verified : Nat) (s : State) : Answer :=
  match (s.agent a).scrub with
  | none => .next s
  | some x =>
    let mem := (s.agent a).memBytes
    let ok := zeroed == mem && verified == mem
    let s := s.updAgent a fun g => { g with scrub := some { x with phase := if ok then 4 else 5, done := verified } }
    match execScrubStatusTimer a s with
    | .next s =>
      let e := (s.nodeFid (.agent a)).localId
      if (s.dev e).state = 2 then .next (s.endScrub e (if ok then 0 else 1) zeroed verified mem)
      else .next (s.updAgent a fun g => { g with scrub := none })
    | r => r

/-- SCRUB_STATUS (R347); a bad CRC is NAKed (R84, R104). -/
def execScrubStatus (p : Packet) (s : State) : Answer :=
  .next (s.consume .ctl p fun s =>
    let e := Fid.localId (BitVec.ofNat 32 (leAt p.payload 0 4))
    let d := s.dev e
    if d.state = 2 then s.setDev e { d with lastStatusNs := s.now, statusRaised := false } else s)

/-- SCRUB_STATUS_MISSING (R347): no status for 5 ms; the scrub is not stopped. -/
def execScrubStatusMissing (dev : Nat) (s : State) : Answer :=
  let d := s.dev dev
  if d.state = 2 ∧ d.scrubWaiting = false ∧ d.statusRaised = false ∧ d.lastStatusNs + 5000000 ≤ s.now then
    .next ((s.setDev dev { d with statusRaised := true }).raise srcSEC 2)
  else .next s

/-! ## Life cycle (R349) -/

/-- What RT0 wipes on entry to a life-cycle state (R349): the key store, HBM with what stands in it, the table store and the squares. -/
def State.wipe (s : State) (st : Nat) : State :=
  let s := s.forEach (s.sec.keys.map (·.1)) fun s n => s.zeroKey n
  let s : State := { s with store := [], hbm := [], spill := [], sets := [] }
  let led := if st = 2 then s.led else { s.led with ring := [], closed := [], mergedNs := [] }
  { s with led := led, programs := [], sq := { s.sq with images := [], tiles := [], reloads := [] }
           sec := { s.sec with scrubRecords := [] }
           plc := { s.plc with pages := [], seqs := [], moves := [], grace := [] }
           rte := { s.rte with gambits := [], copy := [], shadow := [] } }

/-- LCADV: forward only, and not while a partition is ACTIVE or ENDING (R349); while VPP_FUSE is out of range nothing changes and
a security record of the fuses is written (R449). Answers whether the state advanced. -/
def State.advance (s : State) (st : Nat) : State × Bool :=
  if s.pwr.railsOut.contains 0x1A53 then (s.securityRecord 0x1A03 0, false)
  else if s.sec.lifeCycle < st ∧ st ≤ 3 ∧ s.sec.parts.all (fun p => p.2.state == 0) then
    let s : State := { s with sec := { s.sec with lifeCycle := st, wipePending := true } }
    let s := (s.wipe st).setFld SEC_STATUS_LC_STATE st
    (({ s with sec := { s.sec with wipePending := false } }).extendMeas 4 (sha384 [BitVec.ofNat 8 st]), true)
  else (s, false)

/-! ## Attestation (R350 to R356) -/

/-- Flags of the quote (R353, R355). -/
def State.quoteFlags (s : State) : Nat :=
  bit s.sec.updatePending.isSome + bit (!s.pwr.resets.isEmpty) * 2 + bit (decide (s.voters < 3)) * 4
    + bit (decide (s.sec.lifeCycle ≠ 1)) * 256

/-- SEC_STATUS.QUOTE_FLAGS (R357). -/
def State.showQuote (s : State) : State := s.setFld SEC_STATUS_QUOTE_FLAGS (s.quoteFlags % 8)

/-- Kind and index of a block in reset, as the quote names it (R353, R360). -/
def quoteBlock (b : Nat) : Nat × Nat :=
  if 3 ≤ b ∧ b < 15 then (1, b - 3) else if 15 ≤ b ∧ b < 39 then (2, b - 15) else if 39 ≤ b ∧ b < 51 then (3, b - 39)
  else if 59 ≤ b ∧ b < 63 then (4, b - 59) else if 51 ≤ b ∧ b < 59 then (5, b - 51) else (0, 0)

/-- Block 0xF0 (R353). -/
def State.quoteStatus (s : State) : List Byte :=
  let b := match s.pwr.resets with | x :: _ => quoteBlock x.1 | [] => (0, 0)
  leBytes 4 1 ++ leBytes 4 s.quoteFlags ++ leBytes 1 b.1 ++ leBytes 1 b.2 ++ zeros 2 ++ leBytes 4 (s.fld LED_PCYCLE_COUNT)
    ++ leBytes 6 s.operMs ++ zeros 2 ++ leBytes 8 (s.reg TIM_CAL).toNat ++ leBytes 1 (s.fld TRI_STATUS_VOTING)
    ++ leBytes 1 s.sec.lifeCycle ++ zeros 30

/-- A measurement block: index, length and bytes (log entry 36). -/
def measBlock (i : Nat) (l : List Byte) : List Byte := leBytes 1 i ++ leBytes 2 l.length ++ l

/-- The blocks a MEASUREMENTS response may carry (R353). -/
def State.measBlocks (s : State) : List (Nat × List Byte) :=
  ((List.range 8).map fun i => (i + 1, digestBytes (s.sec.meas.getD i 0))) ++ [(0xF0, s.quoteStatus)]
    ++ (match s.sec.updatePending with | some d => [(0xF1, digestBytes d)] | none => [])

/-- An SMBus block write that the target takes: its own address, a right PEC over address and bytes, and MCTP alone: command code 0x0F,
the byte count, SPDM as message type (R456; log entry 166). -/
def smbusTakes (addr : Nat) (l : List Byte) (pec : Byte) : Bool :=
  addr == 0x60 + Config.smbAddr.toNat && pec.toNat == crc8 (BitVec.ofNat 8 (2 * addr) :: l)
    && leAt l 0 1 == 0x0F && decide (l.length = leAt l 1 1 + 2 ∧ 8 ≤ l.length) && leAt l 7 1 == 5

/-- The hub a path comes over. -/
def spdmHub : SpdmPath → Nat
  | .pcie hub => hub
  | .smbus _ _ _ => 3

/-- An SPDM request reaches RT0 over a path (R350, R456). -/
def State.spdmHears (s : State) (via : SpdmPath) : Bool :=
  s.pwr.pwrgd && !s.rt0Out && !s.hubDown (spdmHub via) &&
    match via with
    | .pcie hub => decide (hub < 2)
    | .smbus addr l pec => smbusTakes addr l pec

/-- The SPDM request in hand is done with: over which path the next one comes is free, as no row names it (log entry 166). -/
def State.spdmNext (s : State) : State :=
  ({ s with sec := { s.sec with spdmVia := Config.spdmPath s.fresh } } : State).useFree

/-- Answers SPDM over the path of the request when RT0 runs, before the controller is ready what `early` allows (R420); in DECOMMISSIONED
only what R349 leaves (log entry 36). -/
def State.spdmAnswer (s : State) (always : Bool) (l : List Byte) (early : Bool := false) : State :=
  let via := s.sec.spdmVia
  let t := if s.spdmHears via = false ∨ (s.ready = false ∧ early = false) then s
    else if s.sec.lifeCycle = 3 ∧ always = false then s.emit (.spdm (spdmHub via) [0x12, 0x7F, 0x07, 0x00])
    else s.emit (.spdm (spdmHub via) l)
  t.spdmNext

/-- GET_VERSION (R350). -/
def execGetVersion (s : State) : Answer := .next (s.spdmAnswer true [0x10, 0x04, 0, 0, 0, 2, 0x00, 0x12, 0x00, 0x13] true)

/-- GET_CAPABILITIES (R350): certificates, challenge and signed measurements; nothing else. -/
def execGetCapabilities (s : State) : Answer :=
  .next (s.spdmAnswer false ([0x12, 0x61, 0, 0, 0, 0, 0, 0] ++ leBytes 4 0x16) true)

/-- NEGOTIATE_ALGORITHMS (R350): ECDSA P-384 with SHA-384. -/
def execNegotiateAlgorithms (s : State) : Answer :=
  .next (s.spdmAnswer false ([0x12, 0x63, 0, 0] ++ leBytes 4 0x80 ++ leBytes 4 0x2))

/-- GET_DIGESTS (R350, R351): the digest of the chain in slot 0. -/
def execGetDigests (s : State) : Answer :=
  .next (s.spdmAnswer false ([0x12, 0x01, 0, 1] ++ digestBytes (sha384 Config.certificateChain)))

/-- GET_CERTIFICATE (R350, R351): a portion of the chain and what remains. -/
def execGetCertificate (offset length : Nat) (s : State) : Answer :=
  let l := (Config.certificateChain.drop offset).take length
  .next (s.spdmAnswer false ([0x12, 0x02, 0, 0] ++ leBytes 2 l.length
    ++ leBytes 2 (Config.certificateChain.length - offset - l.length) ++ l))

/-- CHALLENGE (R350, R351, R354): signed with the alias key; never blocked. -/
def execChallenge (nonce : BitVec 256) (s : State) : Answer :=
  let body := [0x12, 0x03, 0, 1] ++ digestBytes (sha384 Config.certificateChain) ++ leBytes 32 nonce.toNat
    ++ digestBytes (sha384 (s.measBlocks.flatMap fun b => measBlock b.1 b.2))
  .next (s.spdmAnswer false (body ++ slice (Config.aliasSign body) 0 96))

/-- GET_MEASUREMENTS (R350, R353, R354): all blocks for index 0xFF, their number for 0, else one; signed. -/
def execGetMeasurements (nonce : BitVec 256) (index : Nat) (s : State) : Answer :=
  let bs := s.measBlocks
  let sel := if index = 0xFF then bs else bs.filter fun b => b.1 == index
  let blocks := sel.flatMap fun b => measBlock b.1 b.2
  let body := [0x12, 0x60, BitVec.ofNat 8 (if index = 0 then bs.length else 0), 0] ++ leBytes 1 sel.length
    ++ leBytes 3 blocks.length ++ blocks ++ leBytes 32 nonce.toNat
  .next (s.spdmAnswer (index == 0xF0) (body ++ slice (Config.aliasSign body) 0 96))

/-- SPDM_UNSUPPORTED (R350): ERROR UnsupportedRequest. -/
def execSpdmUnsupported (code : BitVec 8) (s : State) : Answer :=
  .next (s.spdmAnswer true [0x12, 0x7F, 0x07, code])

/-- BOOT_IMAGE_VERIFIED (R355): the candidate's measurement is held until the reset that brings it into force. -/
def execBootImageVerified (image : Nat) (digest : BitVec 384) (s : State) : Answer :=
  let _ := image
  .next ({ s with sec := { s.sec with updatePending := some digest } }.showQuote)

end Sys2Proof.Machine
end

