-- ==== Sys2Proof/Machine/Groups.lean ====
section
/-! DEFINITION. Groups at the controller: records and trees (R230 to R240), barrier bounds (R263), the reservation map
(R271), tickets (R274, R275, R278 to R281), idleness (R277), gambit tickets (R285, R286) and cancellation (R290, R292). -/

namespace Sys2Proof.Machine

/-- The first GRP source (R359). -/
def srcGRP : Nat := 0x48

/-! ## Trees (R234 to R239) -/

/-- Inputs of a node (R237). -/
def nodeInputs (x : TreeNode) : Nat := x.children.length + bit x.localInput

/-- The node holds contexts: its role is interior or root (R237, R260). -/
def isTreeNode (x : TreeNode) : Bool := x.isRoot || decide (0 < x.children.length)

/-- Parent of a node: the parent, its port, and the input number there (R235, R237). -/
def parentIn (t : TreeRec) (f : Fid) : Option (TreeNode × Nat × Nat) :=
  t.nodes.findSome? fun x => (x.children.findIdx? fun c => c.2 == f).map fun i =>
    (x, (x.children.getD i (0, f)).1, i + bit x.localInput)

/-- A tree by its identity. -/
def State.tree (s : State) (t : BitVec 24) : Option TreeRec := s.grp.trees.find? fun x => x.treeId == t

/-- A head entry (R235). -/
def State.headWord (s : State) (t : TreeRec) (x : TreeNode) : Nat :=
  let role := if x.isRoot then 1 else if x.children.isEmpty then 2 else 0
  let up := parentIn t x.node
  let port := match up with
    | some (p, q, _) => (match s.farEnd p.node q with | some (_, r) => r | none => 0)
    | none => 0x1FF
  let parent := match up with | some (p, _, _) => p.node.toNat | none => 0
  let ix := match up with | some (_, _, i) => i | none => 0
  2 ^ 126 + role * 2 ^ 124 + bit x.localInput * 2 ^ 123 + x.children.length * 2 ^ 112 + ix * 2 ^ 104 + port * 2 ^ 95
    + t.treeId.toNat * 2 ^ 60 + t.partition.toNat * 2 ^ 48 + parent * 2 ^ 16

/-- A child entry (R236). -/
def childWord (c : Nat × Fid) : Nat := 2 ^ 127 + c.1 * 2 ^ 96 + c.2.toNat * 2 ^ 64

/-- The KIND 6 patches that install a tree at its agents (R235). -/
def State.treePatches (s : State) (t : TreeRec) : List (Fid × List Byte) :=
  (t.nodes.filter fun x => x.node != s.fid).map fun x =>
    (x.node, Patch.bytes ⟨6, 0, x.index, x.children.length + 1, s.headWord t x :: x.children.map childWord⟩)

/-- The controller's own tree table takes the head of a tree it roots (R239). -/
def State.addRootHead (s : State) (t : TreeRec) : State :=
  match t.nodes.find? fun x => x.node == s.fid with
  | some x =>
    let e := (t.treeId, BitVec.ofNat 128 (s.headWord t x), x.children.map fun c => BitVec.ofNat 128 (childWord c))
    { s with grp := { s.grp with rootHeads := (s.grp.rootHeads.filter fun h => h.1 != t.treeId) ++ [e] } }
  | none => s

/-- The tree stands at its nodes: the controller's copies hold its heads (R27, R235). -/
def State.treeInstalled (s : State) (t : TreeRec) : Bool :=
  t.nodes.all fun x => if x.node = s.fid then s.grp.rootHeads.any fun h => h.1 == t.treeId
    else ((s.copyOf x.node).head t.treeId).isSome

/-! ## The barrier bound (R263), in ps -/

/-- Length of the longest Express run on a port. -/
def State.longestRun (s : State) (f : Fid) (port : Nat) : Nat :=
  (s.sch.admitted.flatMap fun a =>
    (a.runs.filter fun r => r.2.1 == f && r.2.2.1 == port).map fun r => (r.2.2.2.2 - r.2.2.2.1 + 1) * slotNsOf a.sched.slotTicks)
    |>.foldl max 0

/-- What a frame needs to leave a port and cross its link. -/
def State.hopPs (s : State) (f : Fid) (port : Nat) : Nat :=
  54400 + s.longestRun f port * 1000 + (match s.linkFrom f port with | some (l, _, _) => l.delayPs | none => 0)

/-- From a member up to the root, and down again: the nodes on the way, the ports and the links. -/
def State.upDown (s : State) (t : TreeRec) : Nat → Fid → Nat × Nat
  | 0, _ => (0, 0)
  | n + 1, f =>
    let own := match t.nodes.find? fun x => x.node == f with
      | some x => if isTreeNode x then (190000, if x.isRoot then 0 else 130000) else (0, 0)
      | none => (0, 0)
    match parentIn t f with
    | none => own
    | some (p, q, _) =>
      let r := s.upDown t n p.node
      let up := match s.farEnd p.node q with | some (_, far) => s.hopPs f far | none => 54400
      (own.1 + up + r.1, own.2 + s.hopPs p.node q + r.2)

/-- The members' ends of a tree: leaves, local inputs, and children without an entry of their own (gateways, R240). -/
def treeEnds (t : TreeRec) : List Fid :=
  ((t.nodes.filter fun x => x.localInput).map (·.node) ++ ((t.nodes.flatMap fun x => x.children.map (·.2)).filter fun f =>
    !(t.nodes.any fun x => x.node == f))).dedup

/-- The nodes on the way from a member up to the root. -/
def upNodes (t : TreeRec) : Nat → Fid → Nat
  | 0, _ => 0
  | n + 1, f =>
    bit ((t.nodes.find? fun x => x.node == f).any isTreeNode) + match parentIn t f with
      | none => 0
      | some (p, _, _) => upNodes t n p.node

/-- The bound B of a tree over every pair of members; SCALAR takes 30 ns more at each node on the way up. -/
def State.treeBound (s : State) (t : TreeRec) (scalar : Bool) : Nat :=
  let l := (treeEnds t).map fun f => (f, s.upDown t (t.nodes.length + 1) f, upNodes t (t.nodes.length + 1) f)
  (l.flatMap fun a => (l.filter fun b => b.1 != a.1).map fun b =>
    700000 + a.2.1.1 + b.2.1.2 + (if scalar then 30000 * a.2.2 else 0)).foldl max 0

/-- The tree is bounded: B keeps the limit of BARRIER, and with SCALAR's nodes the limit 100 ns higher (log entry 168). -/
def State.isBounded (s : State) (t : TreeRec) : Bool :=
  let m := if (treeEnds t).length ≤ 4096 then 2000000 else 3000000
  decide (s.treeBound t false ≤ m) && decide (s.treeBound t true ≤ m + 100000)

/-- GRP_STATUS and GRP_ROOT (R269). -/
def State.showGroups (s : State) : State :=
  let m := s.grp.map.getD s.fid.toNat ⟨4096, 32768, []⟩
  let s := s.setFld GRP_STATUS_GROUPS_QUEUE (s.grp.groups.filter fun g => !g.rec_.library).length
  let s := s.setFld GRP_STATUS_GROUPS_LIBRARY (s.grp.groups.filter fun g => g.rec_.library).length
  let s := s.setFld GRP_STATUS_TREES (s.grp.trees.filter fun t => s.treeInstalled t).length
  let s := s.setFld GRP_STATUS_UNBOUNDED s.grp.unbounded.length
  (s.setFld GRP_ROOT_ROOT_CTX_FREE m.ctxFree).setFld GRP_ROOT_ROOT_BLOCKS_FREE m.blkFree

/-- Checks the bound of every installed tree, at install, Express admission and change of link width (R263, R7). -/
def State.checkBounds (s : State) : State :=
  let bad := (s.grp.trees.filter fun t => s.treeInstalled t && !s.isBounded t).map (·.treeId)
  let s := s.forEach (s.grp.unbounded.filter fun t => !bad.contains t) fun s t => s.restore 6 t.toNat
  let s := s.forEach bad fun s t => s.lapse 6 t.toNat
  ({ s with grp := { s.grp with unbounded := bad } } : State).showGroups

/-! ## Groups -/

/-- A group by its number. -/
def State.group (s : State) (n : Nat) : Option Group := s.grp.groups.find? fun g => g.rec_.groupId == n

/-- Replaces a group. -/
def State.setGroup (s : State) (g : Group) : State :=
  { s with grp := { s.grp with groups := updateFirst (fun x => x.rec_.groupId == g.rec_.groupId) (fun _ => g) s.grp.groups } }

/-- Members that are agents of the domain (R230, R240). -/
def agentMembers (g : GroupRec) : List Member := g.members.filter fun m => !m.gateway

/-- The member of a rank. -/
def rankFid (g : GroupRec) (r : Nat) : Fid := match g.members.find? fun m => m.rank == r with | some m => m.fid | none => noFid

/-- Binds the group queue of a member (R55, R226, R232, R282). -/
def State.bindMember (s : State) (g : Group) (m : Member) : State :=
  match s.refOf m.fid with
  | none => s
  | some a =>
    let n := g.rec_.members.length
    let q : GroupQueue :=
      { group := g.rec_.groupId, partition := g.rec_.partition, library := g.rec_.library, policyRing := g.rec_.policyRing
        treeId := g.tree, rank := m.rank, members := n, chunkLog2 := g.rec_.chunkLog2, window := g.rec_.window
        timeoutUs := g.rec_.timeoutUs, ringBase := m.ringBase, ringLog2 := m.ringLog2, curTree := g.tree
        ringPrev := rankFid g.rec_ ((m.rank + n - 1) % n), ringNext := rankFid g.rec_ ((m.rank + 1) % n)
        nextOpSeq := nextOp g.lastOp }
    s.setGq a m.queue q

/-- Binds every queue of an agent again, after it rejoined (R42). -/
def State.bindAgent (s : State) (f : Fid) : State :=
  s.forEach s.grp.groups fun s g =>
    s.forEach ((agentMembers g.rec_).filter fun m => m.fid == f) fun s m => s.bindMember g m

/-- A fabric ID is a gateway ID of the domain: a switch's route entry says so (R147). -/
def State.isGateway (s : State) (f : Fid) : Bool :=
  f.domain == s.fid.domain && s.rte.copy.any fun x => routeGateway (x.2.routes.getD f.localId 0)

/-! ### Group records (R231, R232) -/

/-- A record keeps the layout: its length, zero fields and CRC-32C. -/
def groupRecOk (l : List Byte) : Bool :=
  let n := leAt l 12 4
  decide (l.length = 64 + 16 * n) && leAt l 56 4 == l.length && decide (leAt l 2 1 < 4) && leAt l 7 1 == 0 && allZero l 18 38
    && leAt l 60 4 == crc32c (l.take 60 ++ zeros 4 ++ l.drop 64)

/-- The member entries of a record. -/
def State.recordMembers (s : State) : Nat → List Byte → List Member
  | 0, _ => []
  | n + 1, l =>
    let f : Fid := BitVec.ofNat 32 (leAt l 0 4)
    { fid := f, rank := leAt l 4 2, queue := leAt l 6 1, ringLog2 := leAt l 7 1, ringBase := leAt l 8 8, gateway := s.isGateway f }
      :: s.recordMembers n (l.drop 16)

/-- What a record of a partition's bundle says. -/
def State.groupOf (s : State) (p : BitVec 12) (l : List Byte) : GroupRec :=
  { groupId := leAt l 0 2, library := leAt l 2 1 % 2 == 1, policyRing := leAt l 2 1 / 2 % 2 == 1, chunkLog2 := leAt l 3 1
    treeId := BitVec.ofNat 24 (leAt l 4 3), window := leAt l 8 2, timeoutUs := leAt l 10 2, uplinkGroup := leAt l 16 2
    partition := p, members := s.recordMembers (leAt l 12 4) (l.drop 64) }

/-- The groups of a bundle. -/
def State.bundleGroups (s : State) (b : Bundle) : List GroupRec := b.groups.map (s.groupOf b.partition)

/-- A message of the parent controller to a child controller (R240): GROUP_ID, TREE_ID, parent node and input number,
4 bytes each, to engine 1, with the group's partition in its header (log entry 37). -/
def uplinkBytes (group : Nat) (tree : BitVec 24) (parent : Fid) (input : Nat) : List Byte :=
  leBytes 4 group ++ leBytes 4 tree.toNat ++ leBytes 4 parent.toNat ++ leBytes 4 input

/-- Sends the four items of R240 for the gateway members of a group. -/
def State.sendUplinks (s : State) (g : GroupRec) : State :=
  match s.tree g.treeId with
  | none => s
  | some t => s.forEach (g.members.filter (·.gateway)) fun s m =>
    match parentIn t m.fid with
    | some (p, _, i) =>
      let l := uplinkBytes g.groupId g.treeId p.node i
      s.sendPkt .ctl { hdr := { ownHdr m.fid 0x02 l with aux := 1, partition := g.partition }, payload := l }
    | none => s

/-! ## The reservation map (R271) -/

/-- Contexts and blocks of a node in all (R24, R54, R239). -/
def State.mapFull (s : State) (f : Fid) : NodeMap :=
  if f = s.fid then ⟨4096, 32768, []⟩ else ⟨ctxTotal (s.variantOf f), blocksTotal (s.variantOf f), []⟩

/-- What the map holds of a node. -/
def State.nodeMap (s : State) (f : Fid) : NodeMap := s.grp.map.getD f.toNat (s.mapFull f)

/-- Replaces what the map holds of a node. -/
def State.setNodeMap (s : State) (f : Fid) (m : NodeMap) : State :=
  ({ s with grp := { s.grp with map := s.grp.map.set f.toNat m } } : State)

/-- Nodes of a group's tree with the blocks its context needs there (R261, R270). -/
def State.needs (s : State) (g : Group) : List (TreeNode × Nat) :=
  match s.tree g.tree with
  | none => []
  | some t => (t.nodes.filter isTreeNode).map fun x => (x, max 1 (ctxBlocks (nodeInputs x) g.rec_.window g.rec_.chunkLog2))

/-- The whole reservation fits the map. -/
def State.fits (s : State) (g : Group) : Bool :=
  (s.needs g).all fun x => decide (1 ≤ (s.nodeMap x.1.node).ctxFree ∧ x.2 ≤ (s.nodeMap x.1.node).blkFree)

/-- The lowest block from which on `n` blocks are free (log entry 38). -/
def firstFit (held : List (BitVec 24 × Nat × Nat × Nat)) (n total : Nat) : Nat :=
  let ends := 0 :: held.map fun h => h.2.2.1 + h.2.2.2
  let ok := ends.filter fun b => decide (b + n ≤ total) && held.all fun h => decide (b + n ≤ h.2.2.1 ∨ h.2.2.1 + h.2.2.2 ≤ b)
  ok.foldl min (ok.headD 0)

/-- Takes a context and its blocks at a node; answers the first block. -/
def State.mapTake (s : State) (f : Fid) (tree : BitVec 24) (group n : Nat) : State × Nat :=
  let m := s.nodeMap f
  let b := firstFit m.held n (s.mapFull f).blkFree
  (s.setNodeMap f ⟨m.ctxFree - 1, m.blkFree - n, m.held ++ [(tree, group, b, n)]⟩, b)

/-- Gives the context of a tree and a group back to the map. -/
def State.mapFree (s : State) (f : Fid) (tree : BitVec 24) (group : Nat) : State :=
  let m := s.nodeMap f
  match m.held.find? fun h => h.1 == tree && h.2.1 == group with
  | some h => s.setNodeMap f
      ⟨m.ctxFree + 1, m.blkFree + h.2.2.2, removeFirst (fun x => x.1 == tree && x.2.1 == group) m.held⟩
  | none => s

/-! ## Go notices (R276, R281, R286, R290) -/

/-- A go notice to every member; one of a group with an uplink names the parent domain's tree (R240; log entry 37). -/
def State.sendGo (s : State) (g : Group) (op : BitVec 32) (ring reissue : Bool) : State :=
  let l := Config.goPayload g.rec_.groupId op (bit ring) (if ring then 0 else g.tree) (if ring then 0 else g.generation) reissue
    (g.uplink.map (·.tree))
  s.forEach (agentMembers g.rec_) fun s m => s.sendMgmt .ctl m.fid 0x2D l

/-- A notice that ends an operation before or without its go notice (R290, R292); the reason stands in ALGO's place. -/
def State.sendWithdrawn (s : State) (g : Group) (op : BitVec 32) (reason : Nat) : State :=
  let l := Config.goPayload g.rec_.groupId op (0x80 + reason) g.tree g.generation false none
  s.forEach (agentMembers g.rec_) fun s m => s.sendMgmt .ctl m.fid 0x2D l

/-- Operations of a group a member has started and not released in whole: the controller's knowledge of R286 is taken from
the members (log entry 39). -/
def State.unreleasedOps (s : State) (g : Group) : List (BitVec 32) :=
  ((agentMembers g.rec_).flatMap fun m => match s.refOf m.fid with
    | some a => ((s.agent a).ops.filter fun o => o.group == g.rec_.groupId && o.started && !o.ring && !o.complete).map (·.opSeq)
    | none => []).dedup

/-- The oldest operation of a list. -/
def oldestOp (l : List (BitVec 32)) (d : BitVec 32) : BitVec 32 :=
  match l with
  | [] => d
  | x :: t => t.foldl (fun m y => if seqLater m y then y else m) x

/-- A chunk has been released at a member: it says so, or the whole operation has ended there. -/
def State.chunkReleased (s : State) (g : Group) (op : BitVec 32) (i : Nat) : Bool :=
  (agentMembers g.rec_).any fun m => match s.refOf m.fid with
    | none => false
    | some a => match (s.agent a).findOp g.rec_.groupId op with
      | some o => o.chunks.any fun c => c.index == i && c.released
      | none => match s.gq a m.queue with
        | some q => seqLater q.nextOpSeq op
        | none => false

/-- Chunks of an operation, by what its members say. -/
def State.opTotal (s : State) (g : Group) (op : BitVec 32) : Nat :=
  ((agentMembers g.rec_).map fun m => match s.refOf m.fid with
    | some a => match (s.agent a).findOp g.rec_.groupId op with | some o => o.total | none => 0
    | none => 0).foldl max 0

/-- The OP_SEQ a group's next operation will have: after the last launch of queue mode, at its members in library mode. -/
def State.comingOp (s : State) (g : Group) : BitVec 32 :=
  if g.rec_.library then
    oldestOp ((agentMembers g.rec_).filterMap fun m => match s.refOf m.fid with
      | some a => (s.gq a m.queue).map (·.nextOpSeq)
      | none => none) (nextOp g.lastOp)
  else nextOp g.lastOp

/-- The oldest operation of a group with unreleased chunks and the lowest chunk of it that no member has released: what a reservation
writes into bytes 16 to 23 of a context (R260; log entry 39). -/
def State.lowChunk (s : State) (g : Group) : BitVec 32 × Nat :=
  let op := oldestOp (s.unreleasedOps g ++ g.waiting) (s.comingOp g)
  let n := s.opTotal g op
  (op, ((List.range n).find? fun i => !s.chunkReleased g op i).getD (if s.chunkReleased g op 0 then n else 0))

/-- A SEND of a parent controller binds the uplink of a child group; members of a group with its reservation learn the parent domain's
tree (R240; log entry 37). -/
def State.bindUplink (s : State) (h : Header) (payload : List Byte) : State :=
  s.forEach (s.grp.groups.filter fun g => g.rec_.uplinkGroup != 0 && g.rec_.uplinkGroup == leAt payload 0 4) fun s g =>
    let g := { g with uplink := some { tree := BitVec.ofNat 24 (leAt payload 4 4), parent := BitVec.ofNat 32 (leAt payload 8 4)
                                       input := leAt payload 12 4, partition := h.partition } }
    let s := s.setGroup g
    if g.rec_.library ∧ g.resv = 2 then s.sendGo g 0 false false else s

/-! ## Tickets (R274, R275) -/

/-- GRP_TICKET (R293). -/
def State.showTickets (s : State) : State :=
  (s.setFld GRP_TICKET_WAITING s.grp.tickets.length).setFld GRP_TICKET_GAMBIT_WAITING
    (s.grp.tickets.filter fun t => t.goal == .gambit).length

/-- Replaces the waiting tickets. -/
def State.setTickets (s : State) (l : List Ticket) : State := ({ s with grp := { s.grp with tickets := l } } : State).showTickets

/-- Draws the next ticket, one above the last (R274). -/
def State.drawTicket (s : State) (group : Nat) (goal : ResvFor) : State :=
  let t : Ticket := { number := s.fld GRP_TICKET_NEXT, group := group, goal := goal, sinceNs := s.now }
  (s.setFld GRP_TICKET_NEXT (t.number + 1)).setTickets (s.grp.tickets ++ [t])

/-- A ticket comes before another: gambit tickets by group, then the others by number (R275, R285). -/
def ticketBefore (a b : Ticket) : Bool :=
  if a.goal = .gambit then b.goal != .gambit || decide (a.group < b.group)
  else b.goal != .gambit && decide (a.number < b.number)

/-- Nodes a group's reservation takes. -/
def State.groupNodes (s : State) (g : Group) : List Fid := (s.needs g).map fun x => x.1.node

/-- Two groups overlap: their trees share a node, or they share a member (R272). -/
def State.overlapping (s : State) (g h : Group) : Bool :=
  g.rec_.groupId != h.rec_.groupId &&
    ((match s.tree g.tree, s.tree h.tree with
      | some a, some b => a.nodes.any fun x => b.nodes.any fun y => x.node == y.node
      | _, _ => false) || g.rec_.members.any fun m => h.rec_.members.any fun k => m.fid == k.fid)

/-- A group is active: it holds a reservation or has a ticket waiting (R272). -/
def State.groupActive (s : State) (g : Group) : Bool :=
  g.resv != 0 || g.ring || s.grp.tickets.any fun t => t.group == g.rec_.groupId

/-! ## Reserving and freeing (R270, R271) -/

/-- Frees a context by a free order; the controller's own at once. -/
def State.freeAt (s : State) (g : Group) (f : Fid) : State :=
  if f = s.fid then
    let s := s.setCtxs .ctl (s.grp.rootCtxs.filter fun c => !(c.treeId == g.tree && c.group == g.rec_.groupId))
    (s.mapFree f g.tree g.rec_.groupId).showGroups
  else s.sendHooked f 0x2B (freeBytes g.tree g.rec_.groupId g.rec_.partition) (.freeOrder g.rec_.groupId f)

/-- Frees a group's reservation by free orders (R270, R277). -/
def State.freeReservation (s : State) (g : Group) : State :=
  let s := s.forEach g.written fun s f => s.freeAt g f
  s.setGroup { g with resv := 0, ring := false, written := [], asked := [], idle := [], idleSinceNs := none, serving := none }

/-- A blocked GRESV goes on with a status (R184, R278). -/
def State.endGresv (s : State) (e group status : Nat) : State :=
  let x := s.engine e
  match x.blocked with
  | .gresv g rd sp =>
    if g = group then
      let y := (x.setG rd (BitVec.ofNat 64 status)).setP sp (status == 0)
      s.setEngine e { y with blocked := .no, pc := x.pc + 1 }
    else s
  | _ => s

/-- A reservation is granted: every context of it is written (R276, R278, R286). -/
def State.granted (s : State) (g : Group) (goal : ResvFor) : State :=
  let g := { g with heldNs := s.now }
  match goal with
  | .launch =>
    let g1 := { g with resv := 2, serving := none, waiting := [], idle := [], idleSinceNs := none }
    s.forEach g.waiting (fun s op => s.sendGo g op false false) |>.setGroup g1
  | .library e =>
    ((s.setGroup { g with resv := 2, serving := none }).sendGo g 0 false false).endGresv e g.rec_.groupId 0
  | .gambit =>
    let l := s.unreleasedOps g
    let s := s.satFld GRP_RESV_CFG_REISSUES l.length
    let s := s.setGroup { g with resv := 2, serving := none, waiting := [] }
    let s := s.sendGo g (oldestOp l (s.comingOp g)) false true
    s.forEach g.waiting fun s op => s.sendGo g op false false

/-- Writes every context of a reservation (R270, R271). -/
def State.startReservation (s : State) (g : Group) (t : Ticket) : State :=
  let gid := g.rec_.groupId
  let s := s.mirrorOut 5
  let low := s.lowChunk g
  let s := s.forEach (s.needs g) fun s x =>
    let r := s.mapTake x.1.node g.tree gid x.2
    let c : Ctx := { treeId := g.tree, generation := g.generation, group := gid, partition := g.rec_.partition
                     inputs := nodeInputs x.1, chunkLog2 := g.rec_.chunkLog2, window := g.rec_.window, blockBase := r.2
                     blockCount := x.2, lowOp := low.1, lowIndex := low.2 }
    if x.1.node = s.fid then (r.1.setCtxs .ctl (r.1.grp.rootCtxs ++ [c])).showGroups
    else r.1.sendHooked x.1.node 0x2B (ctxBytes c) (.reserve gid x.1.node)
  let all := s.groupNodes g
  let g := { g with resv := 1, serving := some t, written := all.filter fun f => f == s.fid
                    asked := all.filter fun f => f != s.fid }
  let s := s.setGroup g
  if g.asked.isEmpty then s.granted g t.goal else s

/-- Frees reservations that are idle and of which a waiting ticket needs a node (R277). -/
def State.freeIdle (s : State) : State :=
  let wanted := s.grp.tickets.flatMap fun t => match s.group t.group with | some g => s.groupNodes g | none => []
  s.forEach (s.grp.groups.filter fun g => !g.rec_.library && g.resv == 2 && g.idleSinceNs.isSome
    && (s.groupNodes g).any fun f => wanted.contains f) fun s g => s.freeReservation g

/-- The ticket that may be granted next: it fits, no earlier waiting ticket needs any of its nodes, and no rollback is in
progress (R271, R275). -/
def State.nextTicket (s : State) : Option Ticket :=
  if s.grp.groups.any fun g => g.resv == 3 then none
  else
    let ok := s.grp.tickets.filter fun t => match s.group t.group with
      | some g => g.resv == 0 && s.fits g && !(s.grp.tickets.any fun u => ticketBefore u t && (match s.group u.group with
          | some h => (s.groupNodes h).any fun f => (s.groupNodes g).contains f
          | none => false))
      | none => false
    ok.foldl (fun m t => match m with
      | none => some t
      | some u => if ticketBefore t u then some t else some u) none

/-- TICKET_GRANT (R275). -/
def execTicketGrant (s : State) : Answer :=
  let s := s.freeIdle
  match s.nextTicket with
  | none => .next s
  | some t =>
    match s.group t.group with
    | none => .next s
    | some g => .next ((s.setTickets (removeFirst (· == t) s.grp.tickets)).startReservation g t)

/-! ## Launches (R274, R277, R280, R281) -/

/-- Decides a launch, the first notice for its OP_SEQ. -/
def State.decideLaunch (s : State) (g : Group) (op : BitVec 32) (sparse : Bool) : State :=
  let g := { g with decided := (op :: g.decided).take 1024, lastOp := if seqLater g.lastOp op then g.lastOp else op }
  let gid := g.rec_.groupId
  if g.resv = 2 then (s.setGroup g).sendGo g op false false
  else if g.resv = 0 ∧ g.rec_.policyRing ∧ sparse = false ∧ s.fits g = false then
    ((s.setGroup g).satFld GRP_FALLBACK_RING 1).sendGo g op true false
  else
    let g := { g with waiting := g.waiting ++ [op] }
    let s := s.setGroup g
    if g.resv ≠ 0 then s
    else if s.grp.tickets.any (fun t => t.group == gid) then if s.fits g then s else s.satFld GRP_FALLBACK_WAITED 1
    else
      let busy := s.grp.groups.any fun h => s.groupActive h && s.overlapping g h
      if busy = false ∧ s.fits g ∧ !(s.grp.groups.any fun h => h.resv == 3) then
        s.startReservation g { number := 0, group := gid, goal := .launch, sinceNs := s.now }
      else
        let s := if s.fits g then s else s.satFld GRP_FALLBACK_WAITED 1
        (s.drawTicket gid .launch).freeIdle

/-- A launch notice, or a GLAUNCH, of a queue-mode group (R274, R277). -/
def State.launchNotice (s : State) (group : Nat) (op : BitVec 32) (sparse : Bool) : State :=
  match s.group group with
  | none => s
  | some g =>
    if g.rec_.library then s
    else
      let g := { g with idle := [], idleSinceNs := none }
      if g.decided.contains op then s.setGroup g else s.decideLaunch g op sparse

/-- LAUNCH_NOTICE (R274): acknowledged (R473); one whose source is no member of the group counts for nothing. -/
def execLaunchNotice (p : Packet) (group : Nat) (opSeq : BitVec 32) (sparse : Bool) (s : State) : Answer :=
  .next (s.accept .ctl p fun s =>
    match s.group group with
    | some g => if g.rec_.members.any (fun m => m.fid == p.hdr.src) then (s.launchNotice group opSeq sparse, none) else (s, none)
    | none => (s, none))

/-- IDLE_REPORT (R277, R102): the group is idle once every member has reported after the last launch notice; its
reservation goes at once when a waiting ticket needs a node of it. -/
def execIdleReport (p : Packet) (s : State) : Answer :=
  .next (s.accept .ctl p fun s =>
    match s.group (leAt p.payload 0 2) with
    | none => (s, none)
    | some g =>
      if g.rec_.library ∨ !(g.rec_.members.any fun m => m.fid == p.hdr.src) ∨ g.idle.contains p.hdr.src then (s, none)
      else
        let g := { g with idle := g.idle ++ [p.hdr.src] }
        let all := g.resv == 2 && (agentMembers g.rec_).all fun m => g.idle.contains m.fid
        ((s.setGroup { g with idleSinceNs := if all then some s.now else none }).freeIdle, none))

/-- RESERVATION_RELEASE_TIMER (R277): frees a reservation idle for RELEASE_US. -/
def execReservationReleaseTimer (group : Nat) (s : State) : Answer :=
  match s.group group with
  | none => .next s
  | some g =>
    match g.idleSinceNs with
    | some t =>
      if g.rec_.library = false ∧ g.resv = 2 ∧ t + s.fld GRP_RESV_CFG_RELEASE_US * 1000 ≤ s.now then .next (s.freeReservation g)
      else .next s
    | none => .next s

/-! ## Cross-order waits (R279) -/

/-- The holder stands still: no chunk released, or no operation launched, in the last 10 ms. -/
def State.holderStalled (s : State) (h : Group) : Bool :=
  let l := (agentMembers h.rec_).flatMap fun m => match s.refOf m.fid with
    | some a => match s.gq a m.queue with
      | some q => [(q.lastReleaseNs, q.lastLaunchNs)]
      | none => []
    | none => []
  (l.all fun x => decide (x.1 + 10000000 ≤ s.now)) || (l.all fun x => decide (x.2 + 10000000 ≤ s.now))

/-- CROSS_ORDER_TIMER (R279): reported once for each pair and wait; nothing is cancelled. -/
def execCrossOrderTimer (ticket : Nat) (s : State) : Answer :=
  match s.grp.tickets.find? fun t => t.number == ticket with
  | none => .next s
  | some t =>
    match t.goal, s.group t.group with
    | .library _, some g =>
      if s.now < t.sinceNs + 10000000 then .next s
      else
        let hs := s.grp.groups.filter fun h => h.resv == 2 && decide (h.heldNs + 10000000 ≤ s.now) && s.overlapping g h && s.holderStalled h
          && !t.reported.contains h.rec_.groupId
        let s := s.forEach hs fun s h =>
          let s := s.satFld GRP_XORDER_REPORTS 1
          let s := (s.setFld GRP_XORDER_WAITING_GROUP t.group).setFld GRP_XORDER_HOLDING_GROUP h.rec_.groupId
          s.raise srcGRP 2 (BitVec.ofNat 16 t.group)
        .next (s.setTickets (s.grp.tickets.map fun u => if u.number = ticket then
          { u with reported := u.reported ++ hs.map fun h => h.rec_.groupId } else u))
    | _, _ => .next s

/-! ## Acknowledgements of context writes and free orders (R270, R271) -/

/-- A rollback that has freed everything is over. -/
def State.endRollback (s : State) (g : Group) : State :=
  if g.resv = 3 ∧ g.asked.isEmpty ∧ g.written.isEmpty then s.setGroup { g with resv := 0 } else s.setGroup g

/-- A context write was acknowledged. -/
def State.reserveAcked (s : State) (group : Nat) (f : Fid) : State :=
  match s.group group with
  | none => s
  | some g =>
    if g.asked.contains f = false then s
    else
      let g := { g with asked := g.asked.filter fun x => x != f, written := g.written ++ [f] }
      if g.resv = 3 then (s.setGroup g).freeAt g f
      else if g.asked.isEmpty then
        match g.serving with
        | some t => (s.setGroup g).granted g t.goal
        | none => s.setGroup { g with resv := 2 }
      else s.setGroup g

/-- A context write was refused: everything written is freed, the map is corrected by rereading JX_RCTX and JX_RMEM, and
the reservation waits for its ticket (R271, R292). -/
def State.reserveRefused (s : State) (group : Nat) (f : Fid) : State :=
  match s.group group with
  | none => s
  | some g =>
    if g.asked.contains f = false then s
    else
      let s := s.mapFree f g.tree group
      let first := g.resv == 1
      let t := g.serving
      let l := g.written
      let g := { g with resv := 3, asked := g.asked.filter fun x => x != f, serving := none
                        written := g.written.filter fun x => x != s.fid }
      let s := s.setGroup g
      let s := if first then s.forEach l fun s x => s.freeAt g x else s
      let s := s.forEach [JX_RCTX, JX_RMEM] fun s off =>
        s.sendPkt .ctl { hdr := { ownHdr f 0x29 [] with addr := BitVec.ofNat 57 off } }
      let s := match first, t with
        | true, some t => if t.number = 0 then s.drawTicket group t.goal else s.setTickets (s.grp.tickets ++ [t])
        | _, _ => s
      s.endRollback g

/-- A free order was answered: the map gets the context back. -/
def State.freeAnswered (s : State) (group : Nat) (f : Fid) : State :=
  let s := match (s.nodeMap f).held.find? fun h => h.2.1 == group with
    | some h => s.mapFree f h.1 group
    | none => s
  match s.group group with
  | none => s
  | some g => if g.resv = 3 then s.endRollback { g with written := g.written.filter fun x => x != f } else s

/-- JX_RCTX or JX_RMEM read back after a refusal corrects the map (R271). -/
def State.correctMap (s : State) (f : Fid) (off : Nat) (v : Word64) : State :=
  let m := s.nodeMap f
  if off = JX_RCTX then s.setNodeMap f { m with ctxFree := JX_RCTX_CTX_FREE.of v }
  else if off = JX_RMEM then s.setNodeMap f { m with blkFree := JX_RMEM_BLOCKS_FREE.of v }
  else s

/-! ## Programs: GRESV, GREL, GCANCEL, GLAUNCH (R190, R278, R281, R292) -/

/-- GRESV of an engine: answers a status at once, or none when the engine waits. -/
def State.gresv (s : State) (e group : Nat) : State × Option Nat :=
  match s.group group with
  | none => (s, some 0xF2)
  | some g =>
    if g.rec_.library = false ∨ s.groupActive g then (s, some 0xF2)
    else if g.rec_.policyRing ∧ s.fits g = false then
      let s := (s.satFld GRP_FALLBACK_RING 1).setGroup { g with ring := true }
      (s.sendGo g 0 true false, some 0)
    else
      let s := if s.fits g then s else s.satFld GRP_FALLBACK_WAITED 1
      ((s.drawTicket group (.library e)).freeIdle, none)

/-- GREL: releases a reservation; a gambit ticket that waits is withdrawn and unreleased operations end with STATUS 0x03. -/
def State.grel (s : State) (group : Nat) : State :=
  match s.group group with
  | none => s
  | some g =>
    if g.rec_.library = false then s
    else
      let gambit := s.grp.tickets.any fun t => t.group == group && t.goal == .gambit
      let s := s.setTickets (s.grp.tickets.filter fun t => t.group != group || t.goal != .gambit)
      let s := s.sendWithdrawn g 0 (if gambit then 3 else 0)
      s.freeReservation g

/-- GCANCEL of an operation: withdrawn while its ticket waits, aborted by its members otherwise (R267, R292). -/
def State.gcancel (s : State) (group : Nat) (op : BitVec 32) : State :=
  match s.group group with
  | none => s
  | some g =>
    let w := g.waiting.filter fun x => x != op
    let s := s.setGroup { g with waiting := w }
    let s := if g.waiting.contains op ∧ w.isEmpty then
      s.setTickets (s.grp.tickets.filter fun t => t.group != group || t.goal != .launch) else s
    s.sendWithdrawn g op 3

/-- GLAUNCH: the descriptor goes to every member; in queue mode it counts as a launch notice (R245, R274). -/
def State.glaunch (s : State) (group : Nat) (d : List Byte) : State :=
  match s.group group with
  | none => s
  | some g =>
    let s := s.forEach (agentMembers g.rec_) fun s m => s.sendMgmt .ctl m.fid 0x2A d
    s.launchNotice group (dOpSeq d) (dColl d == 8)

/-! ## A tree replaced (R285, R286, R292) -/

/-- The new tree of a group after a play. -/
def newTree (l : List (BitVec 24 × BitVec 24)) (t : BitVec 24) : Option (BitVec 24) := (l.find? fun x => x.1 == t).map (·.2)

/-- After a swap replaced trees: contexts of the old trees are free, and every group that held a reservation on one, or
waits for one by a gambit ticket, draws a gambit ticket at the next generation; a reservation not yet granted waits by its ticket
again. -/
def State.treesReplaced (s : State) (l : List (BitVec 24 × BitVec 24)) : State :=
  let s := s.forEach s.grp.trees fun s t => if l.any fun x => x.2 == t.treeId then s.addRootHead t else s
  let s := { s with grp := { s.grp with rootHeads := s.grp.rootHeads.filter fun h => !(l.any fun x => x.1 == h.1)
                                        rootCtxs := s.grp.rootCtxs.filter fun c => !(l.any fun x => x.1 == c.treeId) } }
  let s := s.forEach s.grp.groups fun s g =>
    match newTree l g.tree with
    | none => s
    | some t =>
      let gid := g.rec_.groupId
      let had := g.resv == 2 || g.serving.any (·.goal == .gambit) || s.grp.tickets.any fun u => u.group == gid && u.goal == .gambit
      let s := s.forEach (g.written ++ g.asked) fun s f => s.mapFree f g.tree gid
      let s := s.setTickets (s.grp.tickets.filter fun u => u.group != gid || u.goal != .gambit)
      let old := g.serving
      let s := s.setGroup { g with tree := t, generation := if had then g.generation + 1 else g.generation, resv := 0
                                   written := [], asked := [], serving := none }
      let s := match old with
        | some u => if u.goal = .gambit then s else if u.number = 0 then s.drawTicket gid u.goal else s.setTickets (s.grp.tickets ++ [u])
        | none => s
      if had then s.drawTicket gid .gambit else s
  s.checkBounds

/-! ## A partition ends (R292, R357) -/

/-- Tickets of a partition's groups are withdrawn, their contexts freed, their operations end with reason 0x06. -/
def State.endGroups (s : State) (part : Nat) : State :=
  s.forEach (s.grp.groups.filter fun g => g.rec_.partition.toNat == part) fun s g =>
    let s := s.setTickets (s.grp.tickets.filter fun t => t.group != g.rec_.groupId)
    let s := s.forEach ((s.unreleasedOps g ++ g.waiting).dedup) fun s op => s.sendWithdrawn g op 6
    let s := s.forEach g.asked fun s f => s.freeAt g f
    (s.setGroup { g with waiting := [] }).freeReservation { g with waiting := [] }

/-- Removes the groups and trees of a partition and unbinds their queues (R357). -/
def State.dropGroups (s : State) (part : Nat) : State :=
  let s := s.forEach (s.grp.groups.filter fun g => g.rec_.partition.toNat == part) fun s g =>
    s.forEach (agentMembers g.rec_) fun s m => match s.refOf m.fid with
      | some a => s.updAgent a fun x => { x with gqs := x.gqs.erase m.queue }
      | none => s
  ({ s with grp := { s.grp with
    groups := s.grp.groups.filter fun g => g.rec_.partition.toNat != part
    trees := s.grp.trees.filter fun t => t.partition.toNat != part } } : State).checkBounds

/-! ## Admission of groups and trees (R230 to R237, R273) -/

/-- A node that a group's context can never fit (R273): fabric ID and blocks short. -/
def State.nodeShort (s : State) (g : GroupRec) (t : TreeRec) : Option (Fid × Nat) :=
  (t.nodes.filter isTreeNode).findSome? fun x =>
    let n := max 1 (ctxBlocks (nodeInputs x) g.window g.chunkLog2)
    let m := s.mapFull x.node
    if m.blkFree < n ∨ m.ctxFree = 0 then some (x.node, n - m.blkFree) else none

/-- A tree breaks R234 to R238 or is already known. -/
def State.treeBad (s : State) (t : TreeRec) : Bool :=
  t.treeId == 0 || (s.tree t.treeId).isSome
    || (t.nodes.filter fun x => x.isRoot).length != 1
    || t.nodes.any fun x => decide (256 < nodeInputs x ∨ 255 < x.children.length) || (x.isRoot != (parentIn t x.node).isNone)
        || (x.node != s.fid && (s.refOf x.node).isNone) || (x.node == s.fid && (!x.isRoot || x.localInput))
        || (x.node != s.fid && s.variantOf x.node == .s && (x.localInput || x.children.isEmpty))
        || (x.children.isEmpty && !x.localInput)

/-- The records of a bundle break R230 or R232 together: one GROUP_ID twice, more than 4,096 groups in queue mode, or one group queue of
an endpoint in two entries. -/
def State.groupsBad (s : State) (l : List GroupRec) : Bool :=
  !decide ((l.map (·.groupId)).Nodup)
    || decide (4096 < (s.grp.groups.countP fun h => !h.rec_.library) + l.countP fun g => !g.library)
    || !decide ((l.flatMap fun g => (agentMembers g).map fun m => (m.fid, m.queue)).Nodup)

/-- A group record breaks R230 to R232 (the tree among the bundle's or the installed ones). -/
def State.groupBad (s : State) (g : GroupRec) (trees : List TreeRec) : Bool :=
  let n := g.members.length
  !decide (1 ≤ g.groupId ∧ g.groupId ≤ 16383 ∧ 10 ≤ g.chunkLog2 ∧ g.chunkLog2 ≤ 12 ∧ 1 ≤ g.window ∧ g.window ≤ 256
    ∧ 20 ≤ g.timeoutUs ∧ g.timeoutUs ≤ 1000 ∧ 2 ≤ n ∧ n ≤ (if g.library then 32768 else 4096))
    || (s.group g.groupId).isSome
    || !(trees ++ s.grp.trees).any (fun t => t.treeId == g.treeId && t.partition == g.partition)
    || g.members.any (fun m => decide (n ≤ m.rank)) || !decide ((g.members.map (·.rank)).Nodup)
    || g.members.any fun m =>
        if m.gateway then !g.library || m.queue != 0 || m.ringLog2 != 0 || m.ringBase != 0
        else match s.refOf m.fid with
          | none => true
          | some a => a.variant != .e || decide (64 ≤ m.queue) || !decide (4 ≤ m.ringLog2 ∧ m.ringLog2 ≤ 12)
              || (s.gq a m.queue).isSome || (s.agent a).partition != g.partition

/-- Takes an admitted bundle's trees and groups: heads of controller roots, queues bound, uplinks sent (R55, R239, R240). -/
def State.takeGroups (s : State) (number : Nat) (trees : List TreeRec) (groups : List GroupRec) : State :=
  let s := { s with grp := { s.grp with trees := s.grp.trees ++ trees } }
  let s := s.forEach trees fun s t => s.addRootHead t
  let s := s.forEach groups fun s r =>
    let g : Group := { rec_ := r, admission := number, tree := r.treeId }
    let s : State := { s with grp := { s.grp with groups := s.grp.groups ++ [g] } }
    let s := s.forEach (agentMembers r) fun s m => s.bindMember g m
    s.sendUplinks r
  s.showGroups

end Sys2Proof.Machine
end

