-- ==== Sys2Proof/Machine/Kv.lean ====
section
/-! DEFINITION. The KV directory (R314 to R321, R326): sequence requests, placement of pages, moves, lost pages, spill-pool
reads. -/

namespace Sys2Proof.Machine

/-- The source of the PLC block (R359). -/
def srcPLC : Nat := 0x50

/-! ## Registers (R327) -/

/-- Directory extents in use, those of closing sequences included. -/
def State.extentsUsed (s : State) : Nat := (s.plc.seqs.map fun q => q.extents.length).sum

/-- Extents a partition holds. -/
def State.partExtents (s : State) (p : Nat) : Nat :=
  ((s.plc.seqs.filter fun q => q.partition.toNat == p).map fun q => q.extents.length).sum

/-- PLC_STATUS and PLC_KV_STATUS (R327). -/
def State.showPlc (s : State) : State :=
  let st := fun (n : Nat) => s.plc.pages.countIf fun _ p => p.state == n
  let s := ((s.setFld PLC_STATUS_SEQUENCES (s.plc.seqs.countP fun q => q.closedNs.isNone)).setFld PLC_STATUS_EXTENTS_USED
    s.extentsUsed).setFld PLC_STATUS_MOVES_PENDING s.plc.moves.length
  (s.setFld PLC_KV_STATUS_PAGES_SPILLED (st 3)).setFld PLC_KV_STATUS_PAGES_RESIDENT (st 1)

/-! ## Room (R318, R322) -/

/-- The admitted footprints of a partition. -/
def State.feetOf (s : State) (p : Nat) : List AdmittedFoot := s.plc.feet.filter fun f => f.partition.toNat == p

/-- PAGE_BYTES of a partition (R315): of its first footprint that gives one. -/
def State.pageBytes (s : State) (p : Nat) : Nat :=
  match (s.feetOf p).find? fun f => decide (0 < f.foot.pageBytes) with | some f => f.foot.pageBytes | none => 0

/-- Registered capacity of an endpoint in bytes (R322). -/
def State.capBytes (s : State) (e : Nat) : Nat := s.plc.devCap.getD e 0 * 1048576

/-- Slots of an endpoint's KV pool that a partition may use: the backed ones (R322). -/
def State.backedSlots (s : State) (p e : Nat) : Nat :=
  ((s.feetOf p).map fun f => ((f.foot.devices.filter fun d => d.endpoint == e).map fun d =>
    if f.foot.pageBytes = 0 then 0 else min d.kvPool (s.capBytes e - d.weights - d.activations) / f.foot.pageBytes).sum).sum

/-- Slots of the own-device reserve on an endpoint, after its own pool (R322). -/
def State.reserveSlots (s : State) (p e : Nat) : Nat :=
  ((s.feetOf p).map fun f => ((f.ownBy.filter fun x => x.1 == e).map fun x =>
    if f.foot.pageBytes = 0 then 0 else x.2 / f.foot.pageBytes).sum).sum

/-- Slots in use at an endpoint by a partition: pages, moves on their way and old copies in grace. -/
def State.slotsInUse (s : State) (p e : Nat) : List Nat :=
  (s.plc.pages.filterMap fun x => if x.2.endpoint == e && x.2.partition.toNat == p && (x.2.state == 1 || x.2.state == 2)
      then some x.2.slot else none)
    ++ (s.plc.moves.filterMap fun m => if m.endpoint == e && (match s.plc.pages.get m.entry with
        | some x => x.partition.toNat == p | none => false) then some m.slot else none)
    ++ s.plc.grace.filterMap fun g => if g.endpoint == e && g.partition.toNat == p && g.seq.isNone then some g.slot else none

/-- The lowest free slot from `lo` on, below `hi`. -/
def lowestFree (used : List Nat) (lo hi : Nat) : Option Nat :=
  ((List.range (min (hi - lo) (used.length + 1))).map (lo + ·)).find? fun i => !used.contains i

/-- Free backed slots of an endpoint. -/
def State.freeSlots (s : State) (p e : Nat) : Nat :=
  s.backedSlots p e - ((s.slotsInUse p e).filter fun i => decide (i < s.backedSlots p e)).length

/-- The home endpoint with the most free slots, the lowest local ID on a tie (R318, step 1). -/
def State.bestHome (s : State) (p : Nat) (home : List Nat) : Option Nat :=
  home.foldl (fun m e => if s.freeSlots p e = 0 then m else match m with
    | none => some e
    | some x => if s.freeSlots p x < s.freeSlots p e ∨ (s.freeSlots p x = s.freeSlots p e ∧ e < x) then some e else some x) none

/-- Endpoints of a partition with an own-device reserve, ascending. -/
def State.reserveDevs (s : State) (p : Nat) : List Nat := (((s.feetOf p).flatMap fun f => f.ownBy.map (·.1)).dedup).mergeSort (· ≤ ·)

/-- Spill pages a partition's admitted reserve allows. -/
def State.spillLimit (s : State) (p : Nat) : Nat :=
  ((s.feetOf p).map fun f => if f.foot.pageBytes = 0 then 0 else f.spill / f.foot.pageBytes).sum

/-- A spill page index on the next memory stack in turn, whole (R318, step 3). -/
def State.freeSpill (s : State) (p : Nat) : Option Nat :=
  let used := s.slotsInUse p 0xFFFF ++ s.plc.pages.filterMap fun x =>
    if x.2.endpoint == 0xFFFF && x.2.partition.toNat == p && x.2.state == 3 then some x.2.slot else none
  if s.spillLimit p ≤ used.length then none
  else
    let turn := (List.range 8).map fun k => (s.plc.spillNext.getD p 0 + k) % 8
    (turn.find? fun k => !s.pwr.deadBlocks.contains (51 + k)).bind fun k =>
      ((List.range (used.length + 1)).map fun i => 8 * i + k).find? fun i => !used.contains i

/-- Where a new page goes: state, endpoint and slot (R318). -/
def State.placePage (s : State) (p : Nat) (home : List Nat) : Option (Nat × Nat × Nat) :=
  match s.bestHome p home with
  | some e => (lowestFree (s.slotsInUse p e) 0 (s.backedSlots p e)).map fun i => (1, e, i)
  | none =>
    let away := (s.reserveDevs p).filterMap fun e =>
      (lowestFree (s.slotsInUse p e) (s.backedSlots p e) (s.backedSlots p e + s.reserveSlots p e)).map fun i => (1, e, i)
    match away with
    | x :: _ => some x
    | [] => (s.freeSpill p).map fun i => (3, 0xFFFF, i)

/-- A page is entered under a directory entry. -/
def State.setPage (s : State) (i : Nat) (x : Page) : State := { s with plc := { s.plc with pages := s.plc.pages.set i x } }

/-- Places one page; a spilled one turns to the next stack. -/
def State.addPage (s : State) (i : Nat) (x : Page) (at_ : Nat × Nat × Nat) : State :=
  let s := s.setPage i { x with state := at_.1, endpoint := at_.2.1, slot := at_.2.2 }
  if at_.1 = 3 then
    let p := x.partition.toNat
    { s with plc := { s.plc with spillNext := s.plc.spillNext.set p ((at_.2.2 + 1) % 8) } }
  else s

/-- The directory entry of page `p` of a sequence (R314). -/
def seqEntry (q : Seq) (p : Nat) : Option Nat := (q.extents[p / 256]?).map fun x => 256 * x + p % 256

/-- An entry as its eight words (R315). -/
def Page.words (x : Page) : List Nat :=
  [2 ^ 63 + x.state * 2 ^ 60 + x.partition.toNat * 2 ^ 44 + x.page, x.seqId.toNat * 2 ^ 32 + x.fill,
   x.endpoint * 2 ^ 48 + x.slot, x.version.toNat * 2 ^ 32 + x.moves * 2 ^ 16, x.movedMs, 0, 0, 0]

/-- An entry from its eight words; `none` when not VALID (R315). -/
def Page.ofWords (w : List Nat) : Option Page :=
  let a := w.getD 0 0
  let b := w.getD 1 0
  let c := w.getD 2 0
  let d := w.getD 3 0
  if bitsAt a 63 1 = 0 then none
  else some { state := bitsAt a 60 3, partition := BitVec.ofNat 12 (bitsAt a 44 12), page := bitsAt a 0 13
              seqId := BitVec.ofNat 32 (bitsAt b 32 32), fill := bitsAt b 0 9, endpoint := bitsAt c 48 16
              slot := bitsAt c 0 32, version := BitVec.ofNat 32 (bitsAt d 32 32), moves := bitsAt d 16 16
              movedMs := bitsAt (w.getD 4 0) 0 48 }

/-! ## Replies (R317, R324) -/

/-- A shortfall report of some items: code, unit, fabric ID, needed, available (R324). -/
def shortReport (partition overcommit allow : Nat) (items : List (Nat × Nat × Nat × Nat × Nat)) : List Byte :=
  leBytes 4 items.length ++ leBytes 2 partition ++ leBytes 1 overcommit ++ zeros 1 ++ leBytes 8 allow
    ++ items.flatMap fun i => leBytes 1 i.1 ++ leBytes 1 i.2.1 ++ zeros 2 ++ leBytes 4 i.2.2.1 ++ leBytes 8 i.2.2.2.1
        ++ leBytes 8 i.2.2.2.2 ++ leBytes 8 (i.2.2.2.1 - i.2.2.2.2)

/-- The overcommit allowance of a partition's devices (R322). -/
def State.allowance (s : State) (p : Nat) : Nat :=
  (((s.feetOf p).flatMap fun f => f.foot.devices.map fun d => s.capBytes d.endpoint).sum) * s.fld PLC_ADMIT_CFG_OVERCOMMIT_PCT / 100

/-- What a request answers: status, sequence, first new page, new pages, spilled pages, items of a shortfall. -/
structure KvReply where
  status : Nat := 0
  seqId : BitVec 32 := 0
  first : Nat := 0
  count : Nat := 0
  spilled : Nat := 0
  items : List (Nat × Nat × Nat × Nat × Nat) := []
deriving DecidableEq, Repr

/-- Sends a reply by SEND on stream 0xFF02 (R317); a longer report keeps its first 125 items. -/
def State.kvAnswer (s : State) (h : Header) (op tag : Nat) (r : KvReply) : State :=
  let l := leBytes 1 op ++ leBytes 1 r.status ++ zeros 2 ++ leBytes 4 tag ++ leBytes 4 r.seqId.toNat ++ leBytes 4 r.first
    ++ leBytes 4 r.count ++ leBytes 4 r.spilled ++ zeros 40
  let rep := if r.status = 3 then shortReport h.partition.toNat (s.fld PLC_ADMIT_CFG_OVERCOMMIT_PCT) (s.allowance h.partition.toNat)
    (r.items.take 125) else []
  let s := if r.status = 3 then s.satFld PLC_ADMIT_CFG_REFUSED 1 else s
  s.sendPkt .ctl { hdr := { dest := h.src, src := 0, cls := .bulk, typ := 0x02, partition := h.partition, stream := 0xFF02
                            length := lenOf (l ++ rep) }, payload := l ++ rep }

/-! ## Requests (R316 to R321) -/

/-- An open sequence of a partition. -/
def State.seqOf (s : State) (id : BitVec 32) (part : BitVec 12) : Option Seq :=
  s.plc.seqs.find? fun q => q.seqId == id && q.partition == part && q.closedNs.isNone

/-- Replaces a sequence. -/
def State.setSeq (s : State) (q : Seq) : State :=
  { s with plc := { s.plc with seqs := updateFirst (fun x => x.seqId == q.seqId) (fun _ => q) s.plc.seqs } }

/-- The lowest-numbered free extents, `n` of them (R314). -/
def State.takeExtents (s : State) : Nat → List Nat → List Nat
  | 0, _ => []
  | n + 1, used =>
    match lowestFree used 0 262144 with
    | some i => i :: s.takeExtents n (i :: used)
    | none => []

/-- All extents in use. -/
def State.allExtents (s : State) : List Nat := s.plc.seqs.flatMap (·.extents)

/-- More extents fit the quota of a partition and the directory: a status when not. -/
def State.extentRefusal (s : State) (p n : Nat) : Option KvReply :=
  if s.plc.extentQuota.getD p 0 < s.partExtents p + n then some { status := 5 }
  else if 262144 < s.extentsUsed + n then
    some { status := 3, items := [(0x04, 1, 0xFFFFFFFF, n, 262144 - s.extentsUsed)] }
  else none

/-- OPEN (R314, R316). -/
def State.kvOpen (s : State) (p : Packet) : State × KvReply :=
  let want := leAt p.payload 12 4
  let n := leAt p.payload 16 1
  let part := p.hdr.partition.toNat
  if p.payload.length ≠ 64 ∨ leAt p.payload 8 4 ≠ 0 ∨ want = 0 ∨ n = 0 ∨ 16 < n ∨ !allZero p.payload 1 3
      ∨ !allZero p.payload 17 15 ∨ !allZero p.payload (32 + 2 * n) (32 - 2 * n) then (s, { status := 1 })
  else if 2097152 < want then (s, { status := 4 })
  else
    let need := (want + 65535) / 65536
    match s.extentRefusal part need with
    | some r => (s, r)
    | none =>
      if 1048576 ≤ s.plc.seqs.countP (fun q => q.closedNs.isNone) then (s, { status := 3, items := [(0x0A, 2, 0xFFFFFFFF, 1, 0)] })
      else
        let home := (List.range n).map fun i => leAt p.payload (32 + 2 * i) 2
        let id : BitVec 32 := BitVec.ofNat 32 s.plc.nextSeqId
        let q : Seq := { seqId := id, partition := p.hdr.partition, opener := p.hdr.src, home := home
                         extents := s.takeExtents need s.allExtents }
        ({ s with plc := { s.plc with seqs := s.plc.seqs ++ [q], nextSeqId := s.plc.nextSeqId + 1 } }.showPlc, { seqId := id })

/-- Places pages one after another; `none` when one finds no room. Answers the spilled ones too. -/
def State.growPages (s : State) (q : Seq) : List Nat → Option (State × Nat)
  | [] => some (s, 0)
  | i :: t =>
    match s.placePage q.partition.toNat q.home, seqEntry q i with
    | some at_, some e =>
      let x : Page := { state := 1, partition := q.partition, page := i, seqId := q.seqId, fill := 0, endpoint := 0, slot := 0 }
      match (s.addPage e x at_).growPages q t with
      | some r => some (r.1, r.2 + (if at_.1 = 3 then 1 else 0))
      | none => none
    | _, _ => none

/-- The shortfall of a page without room (R325). -/
def State.pageShort (s : State) (p : Nat) : KvReply :=
  { status := 3, items := [(if (s.feetOf p).any fun f => decide (0 < f.spill) then 0x03 else 0x0B, 0, 0xFFFFFFFF, s.pageBytes p, 0)] }

/-- Sets FILL on the pages a token count covers (R316). -/
def State.setFills (s : State) (q : Seq) (tokens : Nat) : State :=
  s.forEach (List.range ((tokens + 255) / 256)) fun s i =>
    match seqEntry q i with
    | some e => match s.plc.pages.get e with
      | some x => s.setPage e { x with fill := min 256 (tokens - 256 * i) }
      | none => s
    | none => s

/-- GROW (R316, R318). -/
def State.kvGrow (s : State) (p : Packet) : State × KvReply :=
  let id : BitVec 32 := BitVec.ofNat 32 (leAt p.payload 8 4)
  let tokens := leAt p.payload 12 4
  let part := p.hdr.partition.toNat
  if p.payload.length ≠ 64 ∨ !allZero p.payload 1 3 ∨ !allZero p.payload 16 48 then (s, { status := 1, seqId := id })
  else match s.seqOf id p.hdr.partition with
    | none => (s, { status := 2, seqId := id })
    | some q =>
      let pages := (tokens + 255) / 256
      let more := (pages + 255) / 256 - q.extents.length
      if 2097152 < tokens ∨ 32 < q.extents.length + more then (s, { status := 4, seqId := id })
      else match (if more = 0 then none else s.extentRefusal part more) with
        | some r => (s, { r with seqId := id })
        | none =>
          let q' := { q with extents := q.extents ++ s.takeExtents more s.allExtents }
          let new := (List.range (pages - q.pages)).map (q.pages + ·)
          match (s.setSeq q').growPages q' new with
          | none => (s, { s.pageShort part with seqId := id })
          | some r =>
            let q' := { q' with pages := max q.pages pages, tokens := tokens }
            (((r.1.setSeq q').setFills q' tokens).showPlc,
              { seqId := id, first := q.pages, count := new.length, spilled := r.2 })

/-- Cancels the moves of a sequence: entries name their place before the move again (R326). -/
def State.cancelMoves (s : State) (f : Page → Bool) : State :=
  let hit := fun (m : Move) => match s.plc.pages.get m.entry with | some x => f x | none => true
  let back := s.plc.pages.mapVals fun i x =>
    if s.plc.moves.any (fun m => m.entry == i && hit m) then { x with state := if x.endpoint = 0xFFFF then 3 else 1 } else x
  { s with plc := { s.plc with pages := back, moves := s.plc.moves.filter fun m => !hit m } }

/-- The time GRACE_US from now. -/
def State.graceNs (s : State) : Nat := s.now + s.fld PLC_KV_CFG_GRACE_US * 1000

/-- CLOSE (R314, R326): pages go GRACE_US later, and extents GRACE_US after that. -/
def State.kvClose (s : State) (p : Packet) : State × KvReply :=
  let id : BitVec 32 := BitVec.ofNat 32 (leAt p.payload 8 4)
  if p.payload.length ≠ 64 ∨ !allZero p.payload 1 3 ∨ !allZero p.payload 12 52 then (s, { status := 1, seqId := id })
  else match s.seqOf id p.hdr.partition with
    | none => (s, { status := 2, seqId := id })
    | some q =>
      let s := s.cancelMoves fun x => x.seqId == id
      let g : Grace := { atNs := s.graceNs, endpoint := 0, slot := 0, partition := q.partition, seq := some id }
      let s : State := { s with plc := { s.plc with grace := s.plc.grace ++ [g] } }
      ((s.setSeq { q with closedNs := some s.now }).showPlc, { seqId := id })

/-- The directory entries of a range of pages of a sequence. -/
def seqRange (q : Seq) (first count : Nat) : List Nat := ((List.range count).map (first + ·)).filterMap fun i => seqEntry q i

/-- PREFETCH (R319). -/
def State.kvPrefetch (s : State) (p : Packet) : State × KvReply :=
  let id : BitVec 32 := BitVec.ofNat 32 (leAt p.payload 8 4)
  let first := leAt p.payload 12 4
  let count := leAt p.payload 16 4
  if p.payload.length ≠ 64 ∨ !allZero p.payload 1 3 ∨ !allZero p.payload 20 44 then (s, { status := 1, seqId := id })
  else match s.seqOf id p.hdr.partition with
    | none => (s, { status := 2, seqId := id })
    | some q =>
      if q.pages < first + count then (s, { status := 1, seqId := id })
      else
        let new := (seqRange q first count).filter fun e => !s.plc.prefetch.contains e
        ({ s with plc := { s.plc with prefetch := s.plc.prefetch ++ new } }, { seqId := id, first := first })

/-- Places lost pages again, empty (R321). -/
def State.renewPages (s : State) (q : Seq) : List Nat → Option (State × Nat)
  | [] => some (s, 0)
  | e :: t =>
    match s.plc.pages.get e, s.placePage q.partition.toNat q.home with
    | some x, some at_ =>
      match (s.addPage e { x with fill := 0 } at_).renewPages q t with
      | some r => some (r.1, r.2 + (if at_.1 = 3 then 1 else 0))
      | none => none
    | _, _ => none

/-- RENEW (R321): lost pages only. -/
def State.kvRenew (s : State) (p : Packet) : State × KvReply :=
  let id : BitVec 32 := BitVec.ofNat 32 (leAt p.payload 8 4)
  let first := leAt p.payload 12 4
  let count := leAt p.payload 16 4
  if p.payload.length ≠ 64 ∨ !allZero p.payload 1 3 ∨ !allZero p.payload 20 44 then (s, { status := 1, seqId := id })
  else match s.seqOf id p.hdr.partition with
    | none => (s, { status := 2, seqId := id })
    | some q =>
      let es := seqRange q first count
      if q.pages < first + count ∨ !(es.all fun e => match s.plc.pages.get e with | some x => x.state == 4 | none => false) then
        (s, { status := 1, seqId := id })
      else match s.renewPages q es with
        | none => (s, { s.pageShort p.hdr.partition.toNat with seqId := id })
        | some r => (r.1.showPlc, { seqId := id, first := first, count := count, spilled := r.2 })

/-- The broker takes a request (R228, R316, R317): accepted like a SEND to LRE2, served and answered. -/
def State.kvTake (s : State) (p : Packet) (f : State → Packet → State × KvReply) : State :=
  s.accept .ctl p fun s =>
    if (s.engine 2).running = false then (s, some 0x05)
    else
      let r := f s p
      (r.1.kvAnswer p.hdr (leAt p.payload 0 1) (leAt p.payload 4 4) r.2, none)

/-- Any request, by its OP; an unknown one is malformed (R316, R317). -/
def State.kvAny (s : State) (p : Packet) : State × KvReply :=
  match leAt p.payload 0 1 with
  | 1 => s.kvOpen p
  | 2 => s.kvGrow p
  | 3 => s.kvClose p
  | 4 => s.kvPrefetch p
  | 5 => s.kvRenew p
  | _ => (s, { status := 1 })

/-- The request is of this OP. -/
def kvOp (p : Packet) (n : Nat) : Bool := leAt p.payload 0 1 == n

/-- KV_OPEN (R316). -/
def execKvOpen (p : Packet) (s : State) : Answer :=
  .next (if kvOp p 1 then s.kvTake p State.kvOpen else s)

/-- KV_GROW (R316, R318). -/
def execKvGrow (p : Packet) (s : State) : Answer :=
  .next (if kvOp p 2 then s.kvTake p State.kvGrow else s)

/-- KV_CLOSE (R314, R316, R326). -/
def execKvClose (p : Packet) (s : State) : Answer :=
  .next (if kvOp p 3 then s.kvTake p State.kvClose else s)

/-- KV_PREFETCH (R316, R319). -/
def execKvPrefetch (p : Packet) (s : State) : Answer :=
  .next (if kvOp p 4 then s.kvTake p State.kvPrefetch else s)

/-- KV_RENEW (R316, R321). -/
def execKvRenew (p : Packet) (s : State) : Answer :=
  .next (if kvOp p 5 then s.kvTake p State.kvRenew else s)

/-! ## Moves (R319) -/

/-- A page lies away from home: spilled, or on an endpoint outside its sequence's home set. -/
def State.awayPage (s : State) (x : Page) : Bool :=
  x.fill == 256 && (x.state == 3 || (x.state == 1 &&
    (match s.plc.seqs.find? fun q => q.seqId == x.seqId with | some q => !q.home.contains x.endpoint | none => false)))

/-- Candidates for a move home: prefetched pages first, then oldest MOVED_MS (R319). -/
def State.moveOrder (s : State) : List Nat :=
  let away := s.plc.pages.filter fun x => s.awayPage x.2
  (s.plc.prefetch.filter fun e => away.any fun x => x.1 == e)
    ++ ((away.mergeSort fun a b => a.2.movedMs ≤ b.2.movedMs).map (·.1)).filter fun e => !s.plc.prefetch.contains e

/-- The home slot a page may move to. -/
def State.homeSlot (s : State) (e : Nat) : Option (Nat × Nat) :=
  match s.plc.pages.get e with
  | none => none
  | some x =>
    match s.plc.seqs.find? fun q => q.seqId == x.seqId && q.closedNs.isNone with
    | none => none
    | some q =>
      match s.bestHome q.partition.toNat q.home with
      | none => none
      | some d => (lowestFree (s.slotsInUse q.partition.toNat d) 0 (s.backedSlots q.partition.toNat d)).map fun i => (d, i)

/-- Starts a move: STATE 2, a tag of an engine for the copy (R319, KVMOVE). -/
def State.startMove (s : State) (entry endpoint slot : Nat) (tag : Option (Nat × Nat)) : State :=
  match s.plc.pages.get entry with
  | none => s
  | some x =>
    let s := s.setPage entry { x with state := 2 }
    let m : Move := { entry := entry, endpoint := endpoint, slot := slot, tag := tag }
    { s with plc := { s.plc with moves := s.plc.moves ++ [m], prefetch := s.plc.prefetch.filter (· != entry) } }.showPlc

/-- KV_MOVE_START (R319): the broker on LRE2 starts the next move, within MAX_MOVES of the window. -/
def execKvMoveStart (s : State) : Answer :=
  if (s.engine 2).running = false ∨ s.fld PLC_KV_CFG_MAX_MOVES ≤ s.plc.movedInWindow then .next s
  else match s.moveOrder.find? fun e => (s.homeSlot e).isSome with
    | none => .next s
    | some e =>
      match s.homeSlot e with
      | none => .next s
      | some (d, i) =>
        let x := s.engine 2
        let s := s.setEngine 2 { x with tags := x.tags.set x.nextTag { kind := .kvmove e }, nextTag := x.nextTag + 1 }
        let s := s.startMove e d i (some (2, x.nextTag))
        .next { s with plc := { s.plc with movedInWindow := s.plc.movedInWindow + 1 } }

/-- Copies `n` bytes of a memory to another place. -/
def Memory.copyRange (dst src : Memory) (a n b : Nat) : Memory :=
  ((src.filter fun c => decide (a ≤ c.1 ∧ c.1 < a + n)).foldl (fun m c => m.write (c.1 - a + b) c.2) (dst.zero b n))

/-- The memory a page's copy lies in, and its offset: an accelerator's KV pool, or the partition's spill pool (R315). -/
def State.pageMem (s : State) (p : BitVec 12) (e slot : Nat) : Memory × Nat :=
  let n := s.pageBytes p.toNat
  if e = 0xFFFF then (s.spill.getD p.toNat [], slot * n)
  else
    let base := ((s.feetOf p.toNat).flatMap fun f => f.foot.devices.filter fun d => d.endpoint == e).head?.map (·.kvBase)
    match s.refOf (BitVec.ofNat 32 (s.dom.domain * 65536 + e)) with
    | some a => ((s.agent a).mem, base.getD 0 + slot * n)
    | none => ([], base.getD 0 + slot * n)

/-- Replaces the memory a page's copy lies in. -/
def State.setPageMem (s : State) (p : BitVec 12) (e : Nat) (m : Memory) : State :=
  if e = 0xFFFF then { s with spill := s.spill.set p.toNat m }
  else match s.refOf (BitVec.ofNat 32 (s.dom.domain * 65536 + e)) with
    | some a => s.updAgent a fun g => { g with mem := m }
    | none => s

/-- A page is lost (R321). -/
def State.losePage (s : State) (entry : Nat) : State :=
  match s.plc.pages.get entry with
  | some x => (s.setPage entry { x with state := 4 }).satFld PLC_KV_STATUS_PAGES_LOST 1
  | none => s

/-- Runs of consecutive page numbers: first and count. -/
def pageRuns : List Nat → List (Nat × Nat)
  | [] => []
  | i :: t => match pageRuns t with
    | (j, n) :: r => if j = i + 1 then (i, n + 1) :: r else (i, 1) :: (j, n) :: r
    | [] => [(i, 1)]

/-- Pages become lost: notices to the openers, one per run, and an event (R321). -/
def State.losePages (s : State) (es : List Nat) : State :=
  if es.isEmpty then s
  else
    let lost := es.filterMap fun e => s.plc.pages.get e
    let s := s.forEach es fun s e => s.losePage e
    let s := { s with plc := { s.plc with moves := s.plc.moves.filter fun m => !es.contains m.entry } }
    let s := s.forEach (s.plc.seqs.filter fun q => lost.any fun x => x.seqId == q.seqId) fun s q =>
      let mine := ((lost.filter fun x => x.seqId == q.seqId).map (·.page)).mergeSort (· ≤ ·)
      s.forEach (pageRuns mine) fun s r =>
        let l := leBytes 1 0x10 ++ zeros 7 ++ leBytes 4 q.seqId.toNat ++ leBytes 4 r.1 ++ leBytes 4 r.2 ++ zeros 44
        s.sendPkt .ctl { hdr := { dest := q.opener, src := 0, cls := .bulk, typ := 0x02, partition := q.partition
                                  stream := 0xFF02, length := 64 }, payload := l }
    (s.raise srcPLC 2).showPlc

/-- The end of a move: the copy is complete and the entry rewritten, or a read failed and the page is lost (R319, R321). -/
def State.endMove (s : State) (m : Move) (ok : Bool) : State :=
  let s : State := { s with plc := { s.plc with moves := s.plc.moves.filter fun x => x.entry != m.entry } }
  match s.plc.pages.get m.entry with
  | none => s
  | some x =>
    if ok = false then s.losePages [m.entry]
    else
      let src := s.pageMem x.partition x.endpoint x.slot
      let dst := s.pageMem x.partition m.endpoint m.slot
      let s := s.setPageMem x.partition m.endpoint (Memory.copyRange dst.1 src.1 src.2 (s.pageBytes x.partition.toNat) dst.2)
      let y := { x with state := if m.endpoint = 0xFFFF then 3 else 1, endpoint := m.endpoint, slot := m.slot
                        version := x.version + 1, moves := min (x.moves + 1) 65535, movedMs := s.fld LED_TIME_OPER_MS }
      let g : Grace := { atNs := s.graceNs, endpoint := x.endpoint, slot := x.slot, partition := x.partition }
      let s := s.mirrorOut 6
      let s := { s.setPage m.entry y with plc := { (s.setPage m.entry y).plc with grace := s.plc.grace ++ [g] } }
      (s.satFld PLC_BROKER_STAT_PAGES_MOVED 1).showPlc

/-- KV_GRACE_TIMER (R319, R314, R326): what has waited GRACE_US goes: old slots, pages of a closed sequence, then its
extents; the standby holds the rewritten entries by then (R405). -/
def execKvGraceTimer (s : State) : Answer :=
  match s.plc.grace with
  | [] => .next s
  | g :: t =>
    if s.now < g.atNs ∨ s.mirrorBlocks (some 6) then .next s
    else
    let s : State := { s with plc := { s.plc with grace := t } }
    match g.seq with
    | none => .next s.showPlc
    | some id =>
      if g.slot = 0 then
        let n : Grace := { g with atNs := s.graceNs, slot := 1 }
        .next { s with plc := { s.plc with pages := s.plc.pages.keep (fun _ x => x.seqId != id), grace := t ++ [n] } }.showPlc
      else .next { s with plc := { s.plc with seqs := s.plc.seqs.filter fun q => q.seqId != id } }.showPlc

/-! ## The spill pool (R320) -/

/-- Every byte of a range lies in an allocated spill page of the partition (R320). -/
def State.spillRange (s : State) (p a n : Nat) : Bool :=
  let w := s.pageBytes p
  decide (0 < w ∧ 0 < n) && ((List.range ((a + n - 1) / w - a / w + 1)).map (a / w + ·)).all fun i =>
    (s.plc.pages.any fun x => x.2.endpoint == 0xFFFF && x.2.slot == i && x.2.partition.toNat == p && (x.2.state == 3 || x.2.state == 2))
      || s.plc.grace.any fun g => g.seq.isNone && g.endpoint == 0xFFFF && g.slot == i && g.partition.toNat == p

end Sys2Proof.Machine
end

