-- ==== Sys2Proof/Machine/Package.lean ====
section
/-! DEFINITION. Commands of the in-package network, the supplies, the sensors and the squares' power (R13 to R37, R429,
R448, R460). -/

namespace Sys2Proof.Machine

/-! ## The in-package network (R14, R15) -/

/-- The routers a die attaches to, first attachment first, by die number (R14, R360). A memory stack sits behind its
table-store die (R13). -/
def dieRouters (d : Nat) : List Nat :=
  if d = 0 then [0, 1, 4, 5] else if d = 1 then [2, 3, 6, 7] else if d = 2 then [8, 9, 10, 11]
  else if d < 15 then [d - 3]
  else if d < 39 then [(d - 15) % 12, (d - 15 + 6) % 12]
  else if d < 51 then [d - 39, (d - 39 + 1) % 12]
  else if d < 59 then [d - 51, (d - 51 + 1) % 12]
  else if d = 59 then [0, 6] else if d = 60 then [5, 11] else if d = 61 then [3, 9] else if d = 62 then [2, 8]
  else [1, 10]

/-- Numbers from `a` to `b`, either way. -/
def between (a b : Nat) : List Nat :=
  if a ≤ b then (List.range (b - a + 1)).map (a + ·) else (List.range (a - b + 1)).map (a - ·)

/-- The routers of a path between two routers of the 4 × 3 mesh: column first, then row (R15). -/
def meshPath (a b : Nat) : List Nat :=
  (between (a % 4) (b % 4)).map (fun c => 4 * (a / 4) + c) ++ ((between (a / 4) (b / 4)).drop 1).map fun r => 4 * r + b % 4

/-- The path of a pair of dies over the destination's first or second attachment. -/
def diePath (src dst : Nat) (second : Bool) : List Nat :=
  let d := dieRouters dst
  meshPath ((dieRouters src).headD 0) (if second then d.getD 1 (d.headD 0) else d.headD 0)

/-- A new pair of dies: over the second attachment where a router of the first path has failed (R15). -/
def newPair (down : List Nat) (src dst : Nat) : NocPair :=
  { src := src, dst := dst, second := (diePath src dst false).any down.contains }

/-- The pair of dies (R15). -/
def State.nocPair (s : State) (src dst : Nat) : NocPair :=
  (s.noc.pairs.find? fun p => p.src == src && p.dst == dst).getD (newPair s.noc.routersDown src dst)

/-- Replaces a pair. -/
def State.setNocPair (s : State) (p : NocPair) : State :=
  let rest := s.noc.pairs.filter fun q => !(q.src == p.src && q.dst == p.dst)
  { s with noc := { s.noc with pairs := rest ++ [p] } }

/-- Delivers what is in sequence from the held items (R15). -/
def NocPair.drain : Nat → NocPair → NocPair
  | 0, p => p
  | n + 1, p =>
    match p.held.find? fun x => x.1 == p.delivered.length with
    | some x => NocPair.drain n { p with held := p.held.filter (fun y => y.1 != x.1), delivered := p.delivered ++ [x.2] }
    | none => p

/-- The source keeps every item it has sent (R15): the one that arrives, and those before it that are still on their way or lost
in transit. -/
def NocPair.keep (p : NocPair) (seq : Nat) (data : Word64) : NocPair :=
  let sent : List (Nat × Option Word64) := (List.range (seq + 1 - p.nextSeq)).map fun i => (p.nextSeq + i, none)
  { p with nextSeq := max p.nextSeq (seq + 1)
           kept := (p.kept ++ sent).map fun x => if x.1 = seq then (seq, some data) else x }

/-- An item arrives: a duplicate is dropped, the next in sequence is delivered with what it releases, one ahead is held. -/
def NocPair.arrive (p : NocPair) (seq : Nat) (data : Word64) : NocPair :=
  let p := p.keep seq data
  if seq < p.delivered.length then p
  else if p.held.any (fun x => x.1 == seq) then p
  else NocPair.drain (p.held.length + 1) { p with held := p.held ++ [(seq, data)] }

/-- NOC_ITEM_ARRIVE (R15). That an item was sent shows when it or a later one of its pair arrives (log entry 19). -/
def execNocItemArrive (src dst seq : Nat) (data : Word64) (s : State) : Answer :=
  .next (s.setNocPair ((s.nocPair src dst).arrive seq data))

/-- NOC_ITEM_ACK (R15): the source releases the kept item. -/
def execNocItemAck (src dst seq : Nat) (s : State) : Answer :=
  let p := s.nocPair src dst
  .next (s.setNocPair { p with kept := p.kept.filter fun x => x.1 != seq })

/-- The pair after a router failed: over the second attachment, every unacknowledged item reissued, oldest first. -/
def NocPair.reroute (p : NocPair) (cf : Nat) : NocPair :=
  if (diePath p.src p.dst p.second).contains cf then { p with second := true, reissued := p.reissued ++ p.kept } else p

/-- NOC_ROUTER_FAIL (R15). -/
def execNocRouterFail (cf : Nat) (s : State) : Answer :=
  let down := if s.noc.routersDown.contains cf then s.noc.routersDown else s.noc.routersDown ++ [cf]
  .next { s with noc := { pairs := s.noc.pairs.map fun p => p.reroute cf, routersDown := down } }

/-! ## Supplies (R31, R448) -/

/-- Rails outside the guaranteed-minimum conditions, as PWR_STATUS shows them (R435). -/
def State.showRails (s : State) : State := s.setFld PWR_STATUS_RAILS_OUT (min s.pwr.railsOut.length 255)

/-- SUPPLY_OUT_OF_RANGE (R448, R31, R7): an event with detail 0x0001 and the lapse of the figures concerned. -/
def execSupplyOutOfRange (source : Nat) (s : State) : Answer :=
  let s := { s with pwr := { s.pwr with railsOut := if s.pwr.railsOut.contains source then s.pwr.railsOut
    else s.pwr.railsOut ++ [source] } }
  .next ((s.showRails.raise source 2 0x0001).lapse 0x0009 source)

/-- A standby is paired (R404). -/
def State.hasStandby (s : State) : Bool := s.tri.paired

/-- BROWN_OUT (R448): gates hold, FAULT_N asserts, a severity 4 event with detail 0x0002 is raised; with a standby the
gates request takeover. After a thermal trip the trip governs (R460). -/
def execBrownOut (rail : Nat) (s : State) : Answer :=
  let s := s.raise (0x1A40 + rail) 4 0x0002
  let s := { s with
    pwr := { s.pwr with held := true, faultN := false, brownBackNs := none
                        brownRails := if s.pwr.brownRails.contains rail then s.pwr.brownRails else s.pwr.brownRails ++ [rail] }
    col := { s.col with takeoverReq := s.col.takeoverReq || s.hasStandby } }
  .next (s.setFld FLT_STATUS_FAULTN 1)

/-! ## Temperature (R31, R460) -/

/-- PWR_STATUS.TJ_MAX_C shows the hottest reading (R435, R450). -/
def State.setTemp (s : State) (source celsius : Nat) : State :=
  let s := { s with pwr := { s.pwr with temps := s.pwr.temps.set source celsius } }
  s.setFld PWR_STATUS_TJ_MAX_C (min 255 (s.pwr.temps.foldl (fun m x => max m x.2) 0))

/-- TEMP_HIGH (R460): above 105 °C, a severity 2 event with detail 0x0001; the device continues under R31. -/
def execTempHigh (source celsius : Nat) (s : State) : Answer :=
  let s := s.setTemp source celsius
  if celsius ≤ 105 then .next s
  else
    let s := { s with pwr := { s.pwr with sensorsOut := if s.pwr.sensorsOut.contains source then s.pwr.sensorsOut
      else s.pwr.sensorsOut ++ [source] } }
    .next ((s.raise source 2 0x0001).lapse 0x0009 source)

/-- THERMAL_TRIP (R460): THERMTRIP_N asserts, every gate closes, the clockless dies stop, a severity 4 event with detail
0x0003 is raised. -/
def execThermalTrip (source celsius : Nat) (s : State) : Answer :=
  let s := s.setTemp source celsius
  if celsius < 115 then .next s
  else
    let s := s.raise source 4 0x0003
    .next { s with pwr := { s.pwr with tripped := true, thermtripN := false } }

/-- SUPPLY_BACK_IN_RANGE (R7): the restoration is recorded; a browned-out rail's 10 ms begin (R448). -/
def execSupplyBackInRange (source : Nat) (s : State) : Answer :=
  let brown := s.pwr.brownRails.filter (fun r => r + 0x1A40 != source)
  let s := { s with pwr := { s.pwr with
    railsOut := s.pwr.railsOut.filter (· != source), sensorsOut := s.pwr.sensorsOut.filter (· != source)
    brownRails := brown
    brownBackNs := if s.pwr.held && brown.isEmpty then some s.now else s.pwr.brownBackNs } }
  .next (s.showRails.restore 0x0009 source)

/-! ## Quarters of the configurable fabric (R21, R35, R429) -/

/-- The state of a quarter; a quarter nothing was done with is gated. -/
def State.quarter (s : State) (q : Nat) : QuarterState := s.sq.quarters.getD q .gated

/-- CFB_STATUS.QUARTERS_GATED (R225). -/
def State.showGated (s : State) : State :=
  s.setFld CFB_STATUS_QUARTERS_GATED ((List.range 48).countP fun q => s.quarter q == .gated)

/-- Sets the state of a quarter. -/
def State.setQuarter (s : State) (q : Nat) (x : QuarterState) : State :=
  { s with sq := { s.sq with quarters := s.sq.quarters.set q x } }.showGated

/-- The next quarter to ramp: highest class, then first in (R35). -/
def nextUngate (l : List (Nat × Nat)) : Option (Nat × Nat) :=
  l.foldl (fun m x => match m with
    | none => some x
    | some y => if x.1 < y.1 then some x else some y) none

/-- Starts the next ramp, unless a quarter ramps already (R35). -/
def State.startRamp (s : State) : State :=
  if (List.range 48).any fun q => s.quarter q == .ramping then s
  else match nextUngate s.sq.ungate with
    | none => s
    | some x => { s with sq := { s.sq with ungate := s.sq.ungate.filter fun y => y.2 != x.2 } }.setQuarter x.2 .ramping

/-- Requests the ungating of a quarter with a class; a quarter that waits already may be asked for by a higher class (R35). -/
def State.ungateReq (s : State) (cls q : Nat) : State :=
  let put := fun (s : State) => ({ s with sq := { s.sq with ungate := s.sq.ungate ++ [(cls, q)] } } : State)
  match s.quarter q with
  | .gated => ((put s).setQuarter q .waiting).startRamp
  | .waiting => if s.sq.ungate.any fun x => x.2 == q && decide (x.1 ≤ cls) then s else (put s).startRamp
  | _ => s

/-- QUARTER_IDLE_TIMEOUT (R429): a quarter without a context in use for GATE_MS is gated; its SRAM and its test are lost (R434). -/
def execQuarterIdleTimeout (quarter : Nat) (s : State) : Answer :=
  if s.quarter quarter = .on ∧ s.sq.tiles.all (fun t => t.quarter != quarter)
      ∧ s.sq.lastUse.getD quarter 0 + s.fld PWR_WAKE_CFG_GATE_MS * 1000000 ≤ s.now then
    .next ({ s with sq := { s.sq with tested := s.sq.tested.filter (· != quarter) } }.setQuarter quarter .gated)
  else .next s

end Sys2Proof.Machine
end

