-- ==== Sys2Proof/Machine/Squares.lean ====
section
/-! DEFINITION. Fabric images in squares: headers (R220), placement (R17, R21, R221, R222), freeing (R224) and the CFB
registers (R225). -/

namespace Sys2Proof.Machine

/-! ## Image headers (R220) -/

/-- A fabric image's header is well formed and its length is the image's. -/
def imageHeaderOk (l : List Byte) : Bool :=
  let b := leAt l 2 1
  let n := leAt l 12 4
  leAt l 0 2 == 1 && decide (b < 16) && b % 4 != 3 && decide (1 ≤ leAt l 3 1 ∧ leAt l 3 1 ≤ 16)
    && decide (1 ≤ leAt l 4 1 ∧ leAt l 4 1 ≤ 24 ∧ 1 ≤ leAt l 5 1 ∧ leAt l 5 1 ≤ 24)
    && decide (1 ≤ leAt l 6 2 ∧ leAt l 6 2 ≤ 9216 ∧ 1 ≤ leAt l 8 1 ∧ leAt l 8 1 ≤ 16) && allZero l 9 3
    && decide (64 ≤ n ∧ l.length = n + (if b / 4 % 2 = 1 then 96 else 0))

/-- The digest over the body agrees (R220). -/
def imageDigestOk (l : List Byte) : Bool := beAt l 16 48 == (sha384 ((l.take (leAt l 12 4)).drop 64)).toNat

/-! ## Placement (R21, R221, R222) -/

/-- What an image asks of each tile: width, height, SRAM units, EXCLUSIVE, and who owns it (a partition, 0 for operator and
vendor). -/
structure TileReq where
  w : Nat
  h : Nat
  sram : Nat
  exclusive : Bool
  owner : Nat
deriving DecidableEq, Repr

/-- A tile covers a square of its quarter. -/
def Tile.covers (t : Tile) (row col : Nat) : Bool :=
  decide (t.row ≤ row ∧ row < t.row + t.h ∧ t.col ≤ col ∧ col < t.col + t.w)

/-- The squares of a rectangle. -/
def rectSquares (row col h w : Nat) : List (Nat × Nat) :=
  (List.range h).flatMap fun i => (List.range w).map fun j => (row + i, col + j)

/-- A square takes a context of an image: unoccupied, or occupied in a way R222 allows. -/
def squareFree (tiles : List Tile) (r : TileReq) (shared : Bool) (row col : Nat) : Bool :=
  let on := tiles.filter fun t => t.covers row col
  if shared then
    decide (on.length < 4) && decide ((on.map (·.sramUnits)).sum + r.sram ≤ 16) && (on.isEmpty || !r.exclusive)
      && on.all fun t => !t.exclusive && t.owner == r.owner
  else on.isEmpty

/-- A rectangle of a quarter takes a tile. -/
def rectFree (tiles : List Tile) (excluded : List Nat) (q : Nat) (r : TileReq) (shared : Bool) (row col : Nat) : Bool :=
  let here := tiles.filter fun t => t.quarter == q
  (rectSquares row col r.h r.w).all fun s =>
    !excluded.contains (q * 576 + s.1 * 24 + s.2) && squareFree here r shared s.1 s.2

/-- Places of a quarter, rows before columns (R221). -/
def quarterPlaces (r : TileReq) : List (Nat × Nat) :=
  (List.range (25 - r.h)).flatMap fun row => (List.range (25 - r.w)).map fun col => (row, col)

/-- The first place among quarters. -/
def firstPlace (tiles : List Tile) (excluded : List Nat) (r : TileReq) (shared : Bool) (qs : List Nat) : Option (Nat × Nat × Nat) :=
  qs.findSome? fun q => ((quarterPlaces r).find? fun x => rectFree tiles excluded q r shared x.1 x.2).map fun x => (q, x.1, x.2)

/-- Quarters of the dies an instance may use: those of its own dies, and others while it spans fewer than four (R221). -/
def instanceQuarters (dies own others : List Nat) : List Nat :=
  (dies.filter fun d => !others.contains d && (own.contains d || decide (own.length < 4))).flatMap fun d =>
    (List.range 4).map (4 * d + ·)

/-- Places `n` tiles of one instance, first fit: unoccupied squares first (R221). -/
def placeTiles (excluded dies others : List Nat) (image inst : Nat) (r : TileReq) : Nat → List Nat → List Tile → Option (List Nat × List Tile)
  | 0, own, tiles => some (own, tiles)
  | n + 1, own, tiles =>
    let qs := instanceQuarters dies own others
    let place := match firstPlace tiles excluded r false qs with
      | some x => some x
      | none => firstPlace tiles excluded r true qs
    match place with
    | none => none
    | some (q, row, col) =>
      let t : Tile := { image := image, inst := inst, quarter := q, row := row, col := col, h := r.h, w := r.w
                        sramUnits := r.sram, exclusive := r.exclusive, owner := r.owner }
      placeTiles excluded dies others image inst r n (if own.contains (q / 4) then own else own ++ [q / 4]) (tiles ++ [t])

/-- Places the three instances on disjoint dies (R17, R221). -/
def placeTriple (excluded dies : List Nat) (image count : Nat) (r : TileReq) (tiles : List Tile) : Option (List Tile) :=
  match placeTiles excluded dies [] image 0 r count [] tiles with
  | none => none
  | some (a, t1) =>
    match placeTiles excluded dies a image 1 r count [] t1 with
    | none => none
    | some (b, t2) => (placeTiles excluded dies (a ++ b) image 2 r count [] t2).map (·.2)

/-- CF dies that work (R36): die k is block 3 + k. -/
def State.cfDies (s : State) : List Nat := (List.range 12).filter fun d => !s.pwr.deadBlocks.contains (3 + d)

/-- Squares a partition's images take, three instances included (R225). -/
def State.squaresUsed (s : State) (p : Nat) : Nat :=
  (s.sq.images.map fun x => if x.2.tenant ∧ x.2.partition.toNat = p then x.2.squares else 0).sum

/-- CFB_STATUS (R225). -/
def State.showCfb (s : State) : State :=
  let used := (s.sq.tiles.flatMap fun t => (rectSquares t.row t.col t.h t.w).map fun x => t.quarter * 576 + x.1 * 24 + x.2).dedup
  let all := 2304 * s.cfDies.length
  let out := (s.sq.excluded.filter fun x => s.cfDies.contains (x / 2304)).length
  ((s.setFld CFB_STATUS_SQUARES_FREE (all - out - used.length)).setFld CFB_STATUS_SQUARES_EXCLUDED s.sq.excluded.length).setFld
    CFB_STATUS_IMAGES s.sq.images.length

/-- Squares on which nothing is placed: failed ones, and an odd instance's until their quarter is tested again (R21, R396). -/
def State.unusable (s : State) : List Nat := s.sq.excluded ++ s.sq.suspect

/-- The instance of an image that has squares on a CF die. -/
def State.instanceOn (s : State) (image cf : Nat) : Option Nat :=
  (s.sq.tiles.find? fun t => t.image == image && t.quarter / 4 == cf).map (·.inst)

/-! ## Instances loaded again (R36, R396) -/

/-- A tile belongs to the instance of a reload. -/
def Reload.has (r : Reload) (t : Tile) : Bool := t.image == r.tile.image && t.inst == r.tile.inst

/-- Dies of an instance of an image. -/
def State.instDies (s : State) (image inst : Nat) : List Nat :=
  ((s.sq.tiles.filter fun t => t.image == image && t.inst == inst).map fun t => t.quarter / 4).dedup

/-- The tiles with a lost instance placed whole, on dies that hold none of the triple's others; none where no dies have room. -/
def State.reloadTiles (s : State) (r : Reload) : Option (List Tile) :=
  let t := r.tile
  let q : TileReq := { w := t.w, h := t.h, sram := t.sramUnits, exclusive := t.exclusive, owner := t.owner }
  let others := ((List.range 3).filter (· != t.inst)).flatMap (s.instDies t.image)
  (placeTiles s.unusable s.cfDies others t.image t.inst q r.count [] s.sq.tiles).map (·.2)

/-- Loads an instance again: at once on ungated quarters, which have passed their known-answer run (R21), otherwise once the
quarters it needs have ramped, in class 0 (R35). Without room an event names the image (R36). -/
def State.tryReload (s : State) (r : Reload) : State :=
  let rest := s.sq.reloads.filter fun x => !x.has r.tile
  let keep := fun (stuck : Bool) => ({ s with sq := { s.sq with reloads := rest ++ [{ r with stuck := stuck }] } } : State)
  match s.reloadTiles r with
  | none => (keep true).raise (0x0400 + 0x100 * r.die + 5) 2 (BitVec.ofNat 16 r.tile.image)
  | some tiles =>
    let off := (((tiles.filter r.has).map (·.quarter)).dedup).filter fun q => s.quarter q != .on
    if off.isEmpty then ({ s with sq := { s.sq with reloads := rest, tiles := tiles } } : State).showCfb
    else (keep false).forEach off fun s q => s.ungateReq 0 q

/-- An instance leaves its squares and is loaded again; the squares of an odd one are not used before their next known-answer
run (R396). `die` is the CF die the event of a failure names. -/
def State.unloadInstance (s : State) (image inst die : Nat) (odd : Bool) : State :=
  let mine := s.sq.tiles.filter fun t => t.image == image && t.inst == inst
  match mine with
  | [] => s
  | t :: _ =>
    let squares := mine.flatMap fun t => (rectSquares t.row t.col t.h t.w).map fun x => t.quarter * 576 + x.1 * 24 + x.2
    let s : State := { s with sq := { s.sq with
      tiles := s.sq.tiles.filter fun t => !(t.image == image && t.inst == inst)
      suspect := if odd then (s.sq.suspect ++ squares).dedup else s.sq.suspect } }
    s.showCfb.tryReload { tile := t, count := mine.length, die := die }

/-- Every instance that waits for a quarter is tried again. -/
def State.serveReloads (s : State) : State := s.forEach (s.sq.reloads.filter fun r => !r.stuck) State.tryReload

/-- QUARTER_RAMP_DONE (R35, R21): the ramping quarter is on and tested, squares that failed are excluded, and the next queued
quarter starts its ramp; in phase 5 of bring-up it is gated again (R417). Which squares fail the next run is free (log entry 174). -/
def execQuarterRampDone (s : State) : Answer :=
  match (List.range 48).find? fun q => s.quarter q == .ramping with
  | none => .next s
  | some q =>
    let bringup := s.fld PWR_STATUS_PHASE == 5
    let bad := (s.sq.failing.filter (· < 576)).map (q * 576 + ·)
    let s := { s with sq := { s.sq with tested := if s.sq.tested.contains q || bringup then s.sq.tested else s.sq.tested ++ [q]
                                        excluded := (s.sq.excluded ++ bad).dedup
                                        suspect := s.sq.suspect.filter fun x => x / 576 != q
                                        failing := Config.failingSquares s.fresh
                                        lastUse := s.sq.lastUse.set q s.now } }
    .next ((s.useFree.setQuarter q (if bringup then .gated else .on)).startRamp.showCfb).serveReloads

/-- The lowest free image number (R223). -/
def State.freeImage (s : State) : Option Nat := (List.range 1024).find? fun i => (s.sq.images.get i).isNone

/-- What an IMGLOAD that passed its checks comes to. -/
inductive ImageLoad where
  | refused (reason : Nat)
  /-- quarters that must be ungated first (R221) -/
  | waits (quarters : List Nat)
  | loaded (number : Nat) (tiles : List Tile)
deriving DecidableEq, Repr

/-- Places an image for a queue of a level and partition (R221 to R225): an image signed by the vendor shares squares as one at
vendor level, and counts against the partition whose queue loads it. -/
def State.placeImage (s : State) (l : List Byte) (lvl queue : Level) (part : Nat) : ImageLoad :=
  let r : TileReq := { w := leAt l 4 1, h := leAt l 5 1, sram := leAt l 8 1, exclusive := leAt l 2 1 / 8 % 2 == 1
                       owner := if lvl = .tenant then part else 0 }
  let n := leAt l 6 2
  if queue = .tenant ∧ s.sq.quota.getD part 0 < s.squaresUsed part + 3 * n * r.w * r.h then .refused 6
  else match s.freeImage with
    | none => .refused 6
    | some k =>
      match placeTriple s.unusable s.cfDies k n r s.sq.tiles with
      | none => .refused 6
      | some tiles =>
        let qs := ((tiles.filter fun t => t.image == k).map (·.quarter)).dedup
        let off := qs.filter fun q => s.quarter q != .on
        if off.isEmpty then .loaded k tiles else .waits off

/-- Takes a placed image into the squares. -/
def State.addImage (s : State) (k : Nat) (tiles : List Tile) (l : List Byte) (lvl queue : Level) (part : Nat) : State :=
  let i : Image := { level := lvl, tenant := queue == .tenant, partition := BitVec.ofNat 12 part, entries := leAt l 3 1
                     squares := 3 * leAt l 6 2 * leAt l 4 1 * leAt l 5 1, digest := BitVec.ofNat 384 (beAt l 16 48) }
  ({ s with sq := { s.sq with tiles := tiles, images := s.sq.images.set k i } } : State).showCfb

/-- Releases an image's squares. -/
def State.dropImage (s : State) (k : Nat) : State :=
  let qs := (s.sq.tiles.filter fun t => t.image == k).map (·.quarter)
  let use := qs.foldl (fun m q => m.set q s.now) s.sq.lastUse
  ({ s with sq := { s.sq with tiles := s.sq.tiles.filter fun t => t.image != k, images := s.sq.images.erase k
                              reloads := s.sq.reloads.filter fun r => r.tile.image != k, lastUse := use } } : State).showCfb

/-- A handle is open on an image. -/
def State.imageOpen (s : State) (k : Nat) : Bool :=
  s.engines.any fun e => e.2.running && e.2.h.any fun h => h.2.kind == 7 && h.2.obj == k

/-- IMGFREE_COMPLETE (R224): the last handle is closed and the last run has ended: the squares go and IMGFREE completes. -/
def execImgfreeComplete (image : Nat) (s : State) : Answer :=
  match s.sq.images.get image with
  | none => .next s
  | some i =>
    if i.freeing = false ∨ s.imageOpen image ∨ i.runs ≠ [] then .next s
    else
      let s := s.dropImage image
      match i.freeCmd with
      | none => .next s
      | some (q, id) =>
        match (s.queue q).cmds.find? fun c => c.cmdId == id && c.opcode == 6 && c.state == .started with
        | some c => .next (s.completeCmd q c (c.record 0 0))
        | none => .next s

end Sys2Proof.Machine
end

