-- ==== Sys2Proof/Machine/Admission.lean ====
section
/-! DEFINITION. Admission of bundles (R133, R206, R273, R322 to R325) and the admission registers. -/

namespace Sys2Proof.Machine

/-! ## Footprints (R322) -/

/-- D_d of an endpoint. -/
def devTotal (d : DevFootprint) : Nat := d.weights + d.kvPool + d.activations

/-- X_d: what does not fit the endpoint. -/
def State.devOver (s : State) (d : DevFootprint) : Nat := devTotal d - s.capBytes d.endpoint

/-- H_d: what the endpoint has left. -/
def State.devHead (s : State) (d : DevFootprint) : Nat := s.capBytes d.endpoint - devTotal d

/-- The overcommit allowance of a footprint. -/
def State.footAllow (s : State) (f : Footprint) : Nat :=
  (f.devices.map fun d => s.capBytes d.endpoint).sum * s.fld PLC_ADMIT_CFG_OVERCOMMIT_PCT / 100

/-- Own-device and spill reserve of a footprint. -/
def State.footSplit (s : State) (f : Footprint) : Nat × Nat :=
  let x := (f.devices.map s.devOver).sum
  let own := min x (f.devices.map s.devHead).sum
  (own, x - own)

/-- Spill bytes a partition's admitted footprints reserve. -/
def State.spillReserved (s : State) (p : Nat) : Nat := ((s.feetOf p).map (·.spill)).sum

/-- Items of a shortfall sort by code, then by fabric ID (R324). -/
def sortItems (l : List (Nat × Nat × Nat × Nat × Nat)) : List (Nat × Nat × Nat × Nat × Nat) :=
  l.mergeSort fun a b => decide (a.1 < b.1 ∨ (a.1 = b.1 ∧ a.2.2.1 ≤ b.2.2.1))

/-- An endpoint answers discovery and is admitted: only there is work placed (R2). -/
def State.answers (s : State) (e : Nat) : Bool := s.admittedIds.contains (s.fidOf e)

/-- Shortfalls at endpoints that are not admitted: nothing is available there for devices and replicas (R2; log entry 163). -/
def State.absentItems (s : State) (f : Footprint) : List (Nat × Nat × Nat × Nat × Nat) :=
  let devs := (f.devices.filter fun d => !s.answers d.endpoint).map fun d => (d.endpoint, d.weights + d.activations)
  let reps := (f.replicas.filter fun r => !s.answers r.endpoint && !(f.devices.any fun d => d.endpoint == r.endpoint)).map
    fun r => (r.endpoint, r.weightBytes)
  (devs ++ reps).map fun x => (1, 0, (s.fidOf x.1).toNat, x.2, 0)

/-- Every shortfall of a footprint: code, unit, fabric ID, needed, available (R322 to R325). -/
def State.footItems (s : State) (p : Nat) (f : Footprint) : List (Nat × Nat × Nat × Nat × Nat) :=
  let x := (f.devices.map s.devOver).sum
  let allow := s.footAllow f
  let spill := (s.footSplit f).2
  let room := s.plc.spillQuota.getD p 0 * 1073741824 - s.spillReserved p
  let extents := s.plc.extentQuota.getD p 0 - ((s.feetOf p).map fun g => g.foot.extents).sum
  let squares := s.sq.quota.getD p 0 - s.squaresUsed p
  let all := 0xFFFFFFFF
  sortItems (s.absentItems f ++ (f.devices.filterMap fun d => if s.answers d.endpoint ∧ s.capBytes d.endpoint < d.weights + d.activations then
      some (1, 0, (s.fidOf d.endpoint).toNat, d.weights + d.activations, s.capBytes d.endpoint) else none)
    ++ (if allow < x then (0x0B, 0, all, x, allow) :: f.devices.filterMap fun d => if 0 < s.devOver d then
        some (2, 0, (s.fidOf d.endpoint).toNat, devTotal d, s.capBytes d.endpoint) else none else [])
    ++ (if room < spill then [(3, 0, all, spill, room)] else [])
    ++ (if extents < f.extents then [(4, 1, all, f.extents, extents)] else [])
    ++ ((s.dom.known.filter fun k => k.ref.variant == .s && k.admitted).filterMap fun k =>
        let used := ((s.copyOf k.fid).places.filter fun e => decide (1024 ≤ e.1)).length
        if 0 < f.placementEntries ∧ 64512 < used + f.placementEntries then
          some (5, 2, k.fid.toNat, f.placementEntries, 64512 - used) else none)
    ++ (if squares < f.squares then [(8, 5, s.fid.toNat, f.squares, squares)] else [])
    ++ f.devices.filterMap fun d => if 0 < d.outsideBinding then
        some (9, 0, (s.fidOf d.endpoint).toNat, d.outsideBinding, 0) else none)

/-- The own-device reserve on headroom devices, ascending (R322). -/
def State.ownReserve (s : State) : List DevFootprint → Nat → List (Nat × Nat)
  | [], _ => []
  | d :: t, own =>
    let n := min own (s.devHead d)
    if n = 0 then s.ownReserve t own else (d.endpoint, n) :: s.ownReserve t (own - n)

/-- A shortfall report of a footprint (R324). -/
def State.footReport (s : State) (p : Nat) (f : Footprint) (items : List (Nat × Nat × Nat × Nat × Nat)) : List Byte :=
  shortReport p (s.fld PLC_ADMIT_CFG_OVERCOMMIT_PCT) (s.footAllow f) items

/-- The master table takes the replicas a bundle declares (R296, R311). -/
def addReplica (p : BitVec 12) (l : List Expert) (d : ReplicaDecl) : List Expert :=
  let r : Replica := { endpoint := d.endpoint, tier := d.tier, cap := d.cap, slot := d.slot, declared := true
                       weightBytes := d.weightBytes }
  if l.any fun x => x.partition == p && x.layer == d.layer && x.expert == d.expert then
    l.map fun (x : Expert) => if x.partition == p && x.layer == d.layer && x.expert == d.expert then
      { x with replicas := x.replicas ++ [r] } else x
  else l ++ [{ partition := p, layer := d.layer, expert := d.expert, replicas := [r] }]

/-- Takes an admitted footprint: reserves and declared replicas. -/
def State.takeFoot (s : State) (number : Nat) (p : BitVec 12) (f : Footprint) : State :=
  let sp := s.footSplit f
  let devs := f.devices.mergeSort fun a b => decide (a.endpoint ≤ b.endpoint)
  let a : AdmittedFoot := { number := number, partition := p, foot := f, own := sp.1, spill := sp.2
                            ownBy := s.ownReserve devs sp.1 }
  { s with plc := { s.plc with feet := s.plc.feet ++ [a], experts := f.replicas.foldl (addReplica p) s.plc.experts } }

/-! ## Bundles (R206) -/

/-- The R137 items of a bundle's schedules, each against the others and those admitted. -/
def State.bundleItems (s : State) : List Schedule → Nat → List (List Byte)
  | [], _ => []
  | c :: t, n =>
    let a : Admitted := { number := n, sched := c, runs := s.scheduleRuns c }
    s.scheduleItems c n ++ ({ s with sch := { s.sch with admitted := s.sch.admitted ++ [a] } } : State).bundleItems t (n + 1)

/-- Node shortfalls of a bundle's groups (R273). -/
def State.groupItems (s : State) (b : Bundle) : List (Nat × Nat × Nat × Nat × Nat) :=
  sortItems ((s.bundleGroups b).flatMap fun g => match (b.trees ++ s.grp.trees).find? fun t => t.treeId == g.treeId with
    | none => []
    | some t => (t.nodes.filter isTreeNode).filterMap fun x =>
      let n := max 1 (ctxBlocks (nodeInputs x) g.window g.chunkLog2)
      let m := s.mapFull x.node
      if m.ctxFree = 0 then some (6, 3, x.node.toNat, 1, 0)
      else if m.blkFree < n then some (7, 4, x.node.toNat, n, m.blkFree) else none)

/-- A record of the bundle breaks its own rules (R157, R230 to R238): no report item names it. -/
def State.bundleBad (s : State) (b : Bundle) : Bool :=
  (b.trees.any fun t => s.treeBad t || t.partition != b.partition) || !decide ((b.trees.map (·.treeId)).Nodup)
    || (b.groups.any fun l => !groupRecOk l) || ((s.bundleGroups b).any fun g => s.groupBad g b.trees)
    || s.groupsBad (s.bundleGroups b)

/-- What an ADMIT comes to: a report, or the state with the bundle taken and the patches to install. -/
inductive Admission where
  | refused (report : List Byte)
  | taken (number : Nat) (sets : List (Fid × List Byte))
deriving DecidableEq, Repr

/-- The checks of an admission and what it installs. DESIGN CHOICE (log entry 161): gambits that cannot be staged at an agent (R159) give
a report item with code 0 that names it. -/
def State.checkBundle (s : State) (b : Bundle) : Admission :=
  let items := s.bundleItems b.schedules s.sch.nextNumber ++ s.slotItems b.gambits
  let p := b.partition.toNat
  let foot := match b.footprint with | some f => s.footItems p f | none => []
  let short := sortItems (foot ++ s.groupItems b)
  if items ≠ [] then .refused items.flatten
  else if short ≠ [] then .refused (s.footReport p (b.footprint.getD { devices := [] }) short)
  else if s.bundleBad b then .refused []
  else
    let adm := (b.schedules.zip (List.range b.schedules.length)).map fun x =>
      ({ number := s.sch.nextNumber + x.2, sched := x.1, runs := s.scheduleRuns x.1 } : Admitted)
    let old := b.trees.filter fun t => !(b.gambits.any fun g => g.treesReplaced.any fun r => r.2 == t.treeId)
    .taken s.sch.nextNumber (mergeSets (adm.flatMap s.schedulePatches ++ old.flatMap s.treePatches))

/-- Takes an admitted bundle: schedules, whose sleeping ports wake, trees and groups, footprint,
gambits (R133, R160, R206, R322, R430). -/
def State.takeBundle (s : State) (b : Bundle) (number : Nat) : State :=
  let adm := (b.schedules.zip (List.range b.schedules.length)).map fun x =>
    ({ number := number + x.2, sched := x.1, runs := s.scheduleRuns x.1, unfit := false } : Admitted)
  let adm := adm.map fun (a : Admitted) => { a with sched := { a.sched with partition := b.partition } }
  let s : State := { s with sch := { s.sch with admitted := s.sch.admitted ++ adm, nextNumber := number + max 1 adm.length } }
  let s := s.forEach (adm.flatMap (·.runs)) fun s r => s.wakeFor r.2.1 r.2.2.1
  let again := s.sch.admitted.filter fun (a : Admitted) => a.unfit && a.sched.flows.any fun f => adm.any fun (n : Admitted) =>
    n.sched.flows.any fun g => g.src == f.src && g.dest == f.dest && g.stream == f.stream
  let s := s.forEach again fun s a => s.restore 0x0001 a.number
  let s := s.forEach adm fun s a => s.planWidths a.sched
  let s := (s.showAdmit).takeGroups number b.trees (s.bundleGroups b)
  let s := match b.footprint with | some f => s.takeFoot number b.partition f | none => s
  let s := s.forEach b.gambits fun s g => s.takeGambit g number (s.versionNext) none
  s.checkBounds.mirrorOut 3

/-- Counts a refused admission (R144, R327). -/
def State.countRefused (s : State) (b : Bundle) : State :=
  let s := if b.schedules.isEmpty then s else s.satFld SCH_ADMIT_REFUSED 1
  if b.footprint.isSome then s.satFld PLC_ADMIT_CFG_REFUSED 1 else s

end Sys2Proof.Machine
end

