-- ==== Sys2Proof/Machine/Tokens.lean ====
section
/-! DEFINITION. Tokens at a Jexjan-S: the dispatch flit (R298, R299), steps (R300), placement (R301), copies and receipts
(R302 to R304), records (R305, R306) and window reports (R308). -/

namespace Sys2Proof.Machine

/-! ## The dispatch flit (R299) -/

def flitLayer (l : List Byte) : Nat := leAt l 0 2
def flitStep (l : List Byte) : Nat := leAt l 2 2
def flitK (l : List Byte) : Nat := leAt l 4 1
def flitPart (l : List Byte) : Nat := leAt l 5 1 % 16
def flitParts (l : List Byte) : Nat := leAt l 5 1 / 16 + 1
def flitReceipt (l : List Byte) : Bool := leAt l 6 1 % 2 == 1
def flitTag (l : List Byte) : Word64 := BitVec.ofNat 64 (leAt l 8 8)
def flitExpert (l : List Byte) (c : Nat) : Nat := leAt l (16 + 2 * c) 2 % 4096
def flitGate (l : List Byte) (c : Nat) : Nat := leAt l (32 + 2 * c) 2

/-- The flit is malformed for its layer entry. -/
def flitBad (l : List Byte) (h : Header) (e : BitVec 512) : Bool :=
  let k := flitK l
  k == 0 || decide (layerKmax e < k) || (List.range k).any (fun c => decide (layerExperts e ≤ flitExpert l c))
    || decide (flitParts l ≤ flitPart l) || (flitReceipt l && (flitPart l != 0 || h.addr == 0))
    || decide (1 < leAt l 6 1) || leAt l 7 1 != 0 || !allZero l 48 16
    || (List.range 8).any fun c => decide (4096 ≤ leAt l (16 + 2 * c) 2)
        || (decide (k ≤ c) && (leAt l (16 + 2 * c) 2 != 0 || flitGate l c != 0))

/-- The layer entry of a token: valid, of its partition and layer (R298). -/
def Bank.layerOf (b : Bank) (part : BitVec 12) (layer : Nat) : Option (Nat × BitVec 512) :=
  b.places.find? fun x => decide (x.1 < 1024) && layerValid x.2 && layerPartition x.2 == part.toNat && layerNumber x.2 == layer

/-! ## Steps (R300) -/

/-- A step is later than another, modulo 2^16. -/
def stepLater (a b : Nat) : Bool := let d := (a + 65536 - b) % 65536; decide (0 < d ∧ d ≤ 32767)

/-- Opens the step of a token; answers the layer's steps and the counters it uses: 0 CUR, 1 PREV, none when retired. -/
def LayerSteps.enter (x : LayerSteps) (s : Nat) : LayerSteps × Option Nat :=
  let seen := if x.stepsSeen.contains s then x.stepsSeen else x.stepsSeen ++ [s]
  if x.cur = some s then ({ x with stepsSeen := seen }, some 0)
  else if x.prev = some s then ({ x with stepsSeen := seen }, some 1)
  else match x.cur with
    | none => ({ x with cur := some s, curCnt := [], stepsSeen := seen }, some 0)
    | some c =>
      if stepLater s c then
        ({ x with prev := some c, prevCnt := x.curCnt, cur := some s, curCnt := [], stepsSeen := seen }, some 0)
      else (x, none)

/-- The counters of a step. -/
def LayerSteps.cnt (x : LayerSteps) (which : Nat) : NMap Nat := if which = 0 then x.curCnt else x.prevCnt

/-- Replaces the counters of a step. -/
def LayerSteps.setCnt (x : LayerSteps) (which : Nat) (m : NMap Nat) : LayerSteps :=
  if which = 0 then { x with curCnt := m } else { x with prevCnt := m }

/-- A swap keeps the counters of unchanged replica words and zeroes the others; an entry that becomes another layer's starts anew. -/
def DispatchSt.swap (d : DispatchSt) (old new : Bank) : DispatchSt :=
  let same := fun (k : Nat) => replicaWord (old.places.getD (k / 16) 0) (k % 16) == replicaWord (new.places.getD (k / 16) 0) (k % 16)
  let keep := fun (m : NMap Nat) => m.keep fun k _ => same k
  let l := d.layers.keep fun i _ =>
    let a := old.places.getD i 0
    let b := new.places.getD i 0
    layerValid b && layerPartition a == layerPartition b && layerNumber a == layerNumber b
  { d with layers := l.mapVals fun _ x => { x with curCnt := keep x.curCnt, prevCnt := keep x.prevCnt } }

/-! ## Placement (R301) -/

/-- Copies to an endpoint that await acknowledgement. -/
def DispatchSt.unacked (d : DispatchSt) (e : Nat) : Nat :=
  ((d.pending.flatMap (·.copies)).filter fun c => c.endpoint == e && !c.acked && !c.failed).length

/-- The order in which the replicas of an entry are tried: the hashed primary on, then the secondaries. -/
def replicaOrder (e : BitVec 512) (src : Fid) (tag : Word64) : List Nat :=
  let valid := (List.range 16).filter fun i => replicaValid (replicaWord e i)
  let p := valid.filter fun i => replicaTier (replicaWord e i) == 0
  let q := valid.filter fun i => replicaTier (replicaWord e i) == 1
  let t := if p.isEmpty then 0 else crc32c (beBytes 4 src.toNat ++ leBytes 8 tag.toNat) % p.length
  p.drop t ++ p.take t ++ q

/-- The first replica of an order with room: below SHARE and with fewer than 1,024 copies unacknowledged; `extra` are copies
of the same token. -/
def firstRoom (d : DispatchSt) (e : BitVec 512) (entry : Nat) (cnt : NMap Nat) (extra : List DispCopy) (order : List Nat) : Option Nat :=
  order.find? fun r =>
    let w := replicaWord e r
    decide (cnt.getD (entry * 16 + r) 0 < replicaShare w)
      && decide (d.unacked (replicaEndpoint w) + (extra.filter fun c => c.endpoint == replicaEndpoint w).length < 1024)

/-- What placing the choices of a token has come to: counters, window counts, outcomes, copies. -/
structure Placing where
  cnt : NMap Nat
  counts : NMap ExpertCount
  outcomes : List Nat := []
  copies : List DispCopy := []
deriving DecidableEq, Repr

/-- Places one choice. -/
def placeChoice (d : DispatchSt) (b : Bank) (base : Nat) (l : List Byte) (src : Fid) (retired : Bool) (x : Placing) (c : Nat) : Placing :=
  let ex := flitExpert l c
  let out := fun (o : Nat) => { x with outcomes := x.outcomes ++ [o] }
  if (List.range c).any fun j => flitExpert l j == ex then out 0xB
  else if retired then out 0xA
  else
    let k := base + ex
    let e := b.places.getD k 0
    let n := x.counts.getD k {}
    let order := replicaOrder e src (flitTag l)
    if order.isEmpty then { out 0x9 with counts := x.counts.set k { n with looked := n.looked + 1 } }
    else match firstRoom d e k x.cnt x.copies order with
      | some r =>
        let w := replicaWord e r
        let slot := x.cnt.getD (k * 16 + r) 0
        let o := if order.head? = some r ∧ replicaTier w = 0 then 1 else 2
        let n1 : ExpertCount := { n with looked := n.looked + 1, placed := n.placed + (if o = 1 then 1 else 0)
                                         overflow := n.overflow + (if o = 2 then 1 else 0) }
        { out o with
          cnt := x.cnt.set (k * 16 + r) (slot + 1), counts := x.counts.set k n1
          copies := x.copies ++ [{ choice := c, endpoint := replicaEndpoint w, replica := r, seq := 0, slot := slot, outcome := o }] }
      | none => { out 0x8 with counts := x.counts.set k { n with looked := n.looked + 1, full := n.full + 1 } }

/-- The event of an outcome (R301). -/
def State.outcomeEvent (s : State) (a : AgentRef) (o : Nat) : State :=
  if o = 8 then s.raiseAgent a 192 0 else if o = 9 ∨ o = 0xA ∨ o = 0xB then s.raiseAgent a 193 0 else s

/-! ## Copies and receipts (R302, R304) -/

/-- The copy header (R302). -/
def copyHeader (me src : Fid) (l : List Byte) (part parts : Nat) (c : DispCopy) : List Byte :=
  leBytes 2 (flitLayer l) ++ leBytes 2 (flitStep l) ++ leBytes 1 c.choice ++ leBytes 1 c.outcome
    ++ leBytes 1 (part + 16 * (parts - 1)) ++ zeros 1 ++ leBytes 8 (flitTag l).toNat ++ leBytes 4 src.toNat
    ++ leBytes 2 (flitExpert l c.choice) ++ leBytes 2 (flitGate l c.choice) ++ leBytes 2 c.slot ++ zeros 2
    ++ leBytes 4 me.toNat ++ zeros 32

/-- The packet of a copy, with the SEQ it carries. -/
def State.copyPacket (s : State) (a : AgentRef) (h : Header) (payload : List Byte) (c : DispCopy) : Packet :=
  let me := s.nodeFid (.agent a)
  let l := slice payload 0 64
  let body := copyHeader me h.src l (flitPart l) (flitParts l) c ++ payload.drop 64
  Packet.seal { hdr := { dest := BitVec.ofNat 32 (me.domain * 65536 + c.endpoint), src := me, cls := .bulk, typ := 0x18
                         partition := h.partition, length := h.length, stream := 0xFFFE, seq := c.seq }
                payload := body }

/-- Takes the next SEQ of the switch's sequence toward an endpoint. -/
def State.copySeq (s : State) (a : AgentRef) (endpoint : Nat) : State × BitVec 32 :=
  let d : Fid := BitVec.ofNat 32 ((s.nodeFid (.agent a)).domain * 65536 + endpoint)
  let x := s.tx (.agent a) d 0xFFFE
  (s.setTx (.agent a) d 0xFFFE { x with nextSeq := x.nextSeq + 1 }, x.nextSeq)

/-- Numbers the copies of a token. -/
def State.numberCopies (s : State) (a : AgentRef) : List DispCopy → State × List DispCopy
  | [] => (s, [])
  | c :: t =>
    let r := s.copySeq a c.endpoint
    let q := r.1.numberCopies a t
    (q.1, { c with seq := r.2 } :: q.2)

/-- Sends the copies of a token that are neither acknowledged nor failed, in choice order. -/
def State.sendCopies (s : State) (a : AgentRef) (h : Header) (payload : List Byte) (l : List DispCopy) : State :=
  s.forEach (l.filter fun c => !c.acked && !c.failed) fun s c => s.originate (.agent a) (s.copyPacket a h payload c)

/-- The receipt's 64 bytes (R304). -/
def receiptBytes (me : Fid) (l : List Byte) (outcomes : List Nat) (copies : List DispCopy) : List Byte :=
  let word := fun (c : Nat) =>
    let o := outcomes.getD c 0
    let ep := match copies.find? fun x => x.choice == c && !x.failed with | some x => x.endpoint | none => 0
    o * 2 ^ 28 + (if c < flitK l then flitExpert l c else 0) * 2 ^ 16 + (if o = 1 ∨ o = 2 then ep else 0)
  leBytes 8 (flitTag l).toNat ++ leBytes 2 (flitLayer l) ++ leBytes 2 (flitStep l) ++ leBytes 1 (flitK l)
    ++ leBytes 1 (outcomes.countP fun o => o == 1 || o == 2) ++ zeros 2
    ++ ((List.range 8).flatMap fun c => leBytes 4 (word c)) ++ leBytes 4 me.toNat ++ zeros 12

/-- The outcomes of a record as they stand: a choice with a copy has that copy's outcome, FAILED when it failed (R303). -/
def DispRecord.finalOutcomes (r : DispRecord) : List Nat :=
  (r.outcomes.zip (List.range r.outcomes.length)).map fun x =>
    match r.copies.find? fun c => c.choice == x.2 with
    | some c => if c.failed then 0xC else c.outcome
    | none => x.1

/-- The token asks for a receipt: RECEIPT on part 0, with an address to write it to (R299, R304; log entry 169). -/
def DispRecord.wantsReceipt (r : DispRecord) : Bool := flitReceipt r.flit && flitPart r.flit == 0 && r.hdr.addr != 0

/-- Sends a receipt; answers its SEQ. -/
def State.sendReceipt (s : State) (a : AgentRef) (h : Header) (l : List Byte) (outcomes : List Nat) (copies : List DispCopy) :
    State × BitVec 32 :=
  let me := s.nodeFid (.agent a)
  let b := receiptBytes me l outcomes copies
  let seq := (s.tx (.agent a) h.src Config.ownStream).nextSeq
  let p : Packet := { hdr := { dest := h.src, src := me, cls := .bulk, typ := 0x01, partition := h.partition, length := 64
                               addr := h.addr, stream := Config.ownStream }, payload := b }
  (s.sendPkt (.agent a) p false, seq)

/-! ## Records (R303, R305, R306) -/

/-- The key of a pending record. -/
def DispRecord.hasKey (r : DispRecord) (src : Fid) (stream : BitVec 16) (seq : BitVec 32) : Bool :=
  r.src == src && r.stream == stream && r.seq == seq

/-- Changes the dispatch state of an agent. -/
def State.updDisp (s : State) (a : AgentRef) (f : DispatchSt → DispatchSt) : State :=
  s.updAgent a fun g => { g with disp := f g.disp }

/-- Replaces a pending record. -/
def State.setRecord (s : State) (a : AgentRef) (r : DispRecord) : State :=
  s.updDisp a fun d => { d with pending := updateFirst (fun x => x.hasKey r.src r.stream r.seq) (fun _ => r) d.pending }

/-- Keeps the newest 1,024 acknowledged originals of a stream (R305). -/
def keepDone (l : List (Fid × BitVec 16 × BitVec 32)) (k : Fid × BitVec 16 × BitVec 32) : List (Fid × BitVec 16 × BitVec 32) :=
  let mine := (k :: l.filter fun x => x.1 == k.1 && x.2.1 == k.2.1).take 1024
  mine ++ l.filter fun x => !(x.1 == k.1 && x.2.1 == k.2.1)

/-- A part was acknowledged: the record of part 0 goes once every part is (R306). -/
def partDone (l : List PartRecord) (r : DispRecord) : List PartRecord :=
  let f := flitPart r.flit
  let l := l.map fun (p : PartRecord) => if p.src == r.src && p.stream == r.stream && p.tag == flitTag r.flit then
    { p with partsAcked := if p.partsAcked.contains f then p.partsAcked else p.partsAcked ++ [f] } else p
  l.filter fun p => decide (p.partsAcked.length < p.parts)

/-- The original is acknowledged and its record goes (R303, R305). -/
def State.ackToken (s : State) (a : AgentRef) (r : DispRecord) : State :=
  let s := s.updDisp a fun d => { d with
    pending := d.pending.filter fun x => !x.hasKey r.src r.stream r.seq
    done := keepDone d.done (r.src, r.stream, r.seq), parts := partDone d.parts r }
  s.ackPkt (.agent a) r.hdr

/-- Once every copy is acknowledged or failed: the receipt, then the acknowledgement (R303). -/
def State.finishToken (s : State) (a : AgentRef) (r : DispRecord) : State :=
  if r.copies.any fun c => !c.acked && !c.failed then s.setRecord a r
  else if r.wantsReceipt = false ∨ r.receiptAcked then s.ackToken a r
  else if r.receiptSent then s.setRecord a r
  else
    let x := s.sendReceipt a r.hdr r.flit r.finalOutcomes r.copies
    let r1 := { r with receiptSent := true, receiptSeq := x.2 }
    if r.copies.isEmpty then x.1.ackToken a r1 else x.1.setRecord a r1

/-- A resent original whose key is pending: the open copies and the receipt go again (R305). -/
def State.resendToken (s : State) (a : AgentRef) (r : DispRecord) (p : Packet) : State :=
  let s := s.sendCopies a p.hdr p.payload r.copies
  if r.receiptSent ∧ !r.receiptAcked then
    let q : Packet := Packet.seal { hdr := { dest := r.src, src := s.nodeFid (.agent a), cls := .bulk, typ := 0x01
                                             partition := r.hdr.partition, length := 64, addr := r.hdr.addr, resend := true
                                             stream := Config.ownStream, seq := r.receiptSeq }
                                    payload := receiptBytes (s.nodeFid (.agent a)) r.flit r.finalOutcomes r.copies }
    s.originate (.agent a) q
  else s

/-- A new record with its copies numbered and sent. -/
def State.openToken (s : State) (a : AgentRef) (p : Packet) (outcomes : List Nat) (copies : List DispCopy) : State :=
  let h := p.hdr
  let l := slice p.payload 0 64
  let x := s.numberCopies a copies
  let r : DispRecord := { src := h.src, stream := h.stream, seq := h.seq, createdNs := s.agentNow a, hdr := h
                          flit := l, outcomes := outcomes, copies := x.2 }
  let s := x.1.updDisp a fun d => { d with pending := d.pending ++ [r] }
  let s := if flitPart l = 0 ∧ 1 < flitParts l then
      s.updDisp a fun d => { d with parts := d.parts ++ [{ src := h.src, stream := h.stream, tag := flitTag l
                                                           createdNs := s.agentNow a, outcomes := outcomes, copies := x.2
                                                           parts := flitParts l }] } else s
  (s.sendCopies a h p.payload x.2).finishToken a r

/-- Places a token that is new: a part other than 0 follows the record of part 0 (R306). -/
def State.placeToken (s : State) (a : AgentRef) (p : Packet) (i : Nat) (e : BitVec 512) : State :=
  let h := p.hdr
  let l := slice p.payload 0 64
  let d := (s.agent a).disp
  if 65536 ≤ d.pending.length then s.nakPkt (.agent a) h 0x05
  else if flitBad l h e then
    (s.raiseAgent a 194 1).openToken a p (List.replicate (min 8 (flitK l)) 0xD) []
  else if flitPart l ≠ 0 then
    match d.parts.find? fun x => x.src == h.src && x.stream == h.stream && x.tag == flitTag l with
    | none => s.nakPkt (.agent a) h 0x05
    | some x => s.openToken a p x.outcomes ((x.copies.filter fun c => !c.failed).map fun c => { c with acked := false })
  else
    let en := (d.layers.getD i {}).enter (flitStep l)
    let which := en.2.getD 0
    let pl0 : Placing := { cnt := en.1.cnt which, counts := d.counts }
    let pl := (List.range (flitK l)).foldl (placeChoice d (s.agent a).active (layerBase e) l h.src en.2.isNone) pl0
    let steps := if en.2.isNone then en.1 else en.1.setCnt which pl.cnt
    let s := s.updDisp a fun d => { d with layers := d.layers.set i steps, counts := pl.counts }
    let s := s.forEach pl.outcomes fun s o => s.outcomeEvent a o
    s.openToken a p pl.outcomes pl.copies

/-- DISPATCH at a Jexjan-S (R298 to R306). -/
def execDispatch (a : AgentRef) (port : Nat) (p : Packet) (s : State) : Answer :=
  let h := p.hdr
  if p.crcOk = false then .next (s.nakPkt (.agent a) h 0x01)
  else
    let d := (s.agent a).disp
    match d.pending.find? fun r => r.hasKey h.src h.stream h.seq with
    | some r => .next (s.resendToken a r p)
    | none =>
      if d.done.contains (h.src, h.stream, h.seq) then .next (s.ackPkt (.agent a) h)
      else
        let child := (s.agent a).active.children.any fun c => c.1 == port && c.2 == h.src
        match (s.agent a).active.layerOf h.partition (flitLayer p.payload) with
        | some (i, e) => if child ∧ a.variant = .s then .next (s.placeToken a p i e) else .next (s.nakPkt (.agent a) h 0x06)
        | none => .next (s.nakPkt (.agent a) h 0x06)

/-- A copy is acknowledged by its endpoint, or a receipt by its source (R303). -/
def State.dispatchAcked (s : State) (a : AgentRef) (src : Fid) (stream : BitVec 16) (seq : BitVec 32) : State :=
  let me := s.nodeFid (.agent a)
  if stream = 0xFFFE then
    match (s.agent a).disp.pending.find? fun r => r.copies.any fun c =>
        c.seq == seq && c.endpoint == src.localId && src.domain == me.domain && !c.acked with
    | some r =>
      let copies := updateFirst (fun c => c.seq == seq && c.endpoint == src.localId && !c.acked)
        (fun c => { c with acked := true }) r.copies
      s.finishToken a { r with copies := copies }
    | none => s
  else match (s.agent a).disp.pending.find? fun r => r.receiptSent && !r.receiptAcked && r.receiptSeq == seq && r.src == src with
    | some r => s.finishToken a { r with receiptAcked := true }
    | none => s

/-- The record of a token's parts follows what became of part 0's copies (R306). -/
def DispatchSt.syncParts (d : DispatchSt) (r : DispRecord) : DispatchSt :=
  let mine := fun (p : PartRecord) => p.src == r.src && p.stream == r.stream && p.tag == flitTag r.flit
  if flitPart r.flit = 0 then { d with parts := updateFirst mine (fun p => { p with copies := r.copies }) d.parts } else d

/-- A copy is refused with reason 0x02, 0x03 or 0x05: its choice is placed once more, after the refusing replica; the new
copy leaves when the source resends, since the switch keeps no payload (R303, log entry 41). -/
def State.copyRefused (s : State) (a : AgentRef) (src : Fid) (seq : BitVec 32) (reason : Nat) : State :=
  if reason ≠ 2 ∧ reason ≠ 3 ∧ reason ≠ 5 then s
  else
    let d := (s.agent a).disp
    match d.pending.find? fun r => r.copies.any fun c => c.seq == seq && c.endpoint == src.localId && !c.acked && !c.failed with
    | none => s
    | some r =>
      match r.copies.find? fun c => c.seq == seq && c.endpoint == src.localId && !c.acked && !c.failed with
      | none => s
      | some c =>
        let put := fun (n : DispCopy) => { r with copies := updateFirst (· == c) (fun _ => n) r.copies }
        let bad := put { c with failed := true }
        let fail := ((s.raiseAgent a 195 1).updDisp a fun d => d.syncParts bad).finishToken a bad
        match (s.agent a).active.layerOf r.hdr.partition (flitLayer r.flit) with
        | none => fail
        | some (i, e) =>
          let k := layerBase e + flitExpert r.flit c.choice
          let en := (s.agent a).active.places.getD k 0
          let order := replicaOrder en r.src (flitTag r.flit)
          let rest := (order.dropWhile (· != c.replica)).drop 1
          let st := (d.layers.getD i {}).enter (flitStep r.flit)
          match st.2 with
          | none => fail
          | some w =>
            if c.again ∨ flitPart r.flit ≠ 0 then fail
            else match firstRoom d en k (st.1.cnt w) [] rest with
              | none => fail
              | some rep =>
                let slot := (st.1.cnt w).getD (k * 16 + rep) 0
                let s := s.updDisp a fun d => { d with layers := d.layers.set i (st.1.setCnt w ((st.1.cnt w).set (k * 16 + rep) (slot + 1))) }
                let ep := replicaEndpoint (replicaWord en rep)
                let x := s.copySeq a ep
                let r := put { c with endpoint := ep, replica := rep, seq := x.2, slot := slot, outcome := 2, again := true }
                (x.1.updDisp a fun d => d.syncParts r).setRecord a r

/-- PENDING_RECORD_TIMEOUT (R305): after 1 ms the record goes without an acknowledgement. -/
def execPendingRecordTimeout (a : AgentRef) (src : Fid) (stream : BitVec 16) (seq : BitVec 32) (s : State) : Answer :=
  match (s.agent a).disp.pending.find? fun r => r.hasKey src stream seq with
  | some r =>
    if r.createdNs + 1000000 ≤ s.agentNow a then
      .next ((s.updDisp a fun d => { d with pending := d.pending.filter fun x => !x.hasKey src stream seq }).raiseAgent a 195 1)
    else .next s
  | none => .next s

/-- PART_RECORD_TIMEOUT (R306): after 1 ms the outcomes of part 0 go. -/
def execPartRecordTimeout (a : AgentRef) (src : Fid) (tag : Word64) (s : State) : Answer :=
  .next (s.updDisp a fun d => { d with parts := d.parts.filter fun x =>
    !(x.src == src && x.tag == tag && decide (x.createdNs + 1000000 ≤ s.agentNow a)) })

/-! ## Window reports (R308, R102) -/

/-- Blocks of one layer entry: 16 bytes of header and 16 per expert, at most 254 experts in a block (log entry 42). -/
def layerBlocks (i : Nat) (e : BitVec 512) (x : LayerSteps) (counts : NMap ExpertCount) : List (List Byte) :=
  let n := layerExperts e
  (List.range ((n + 253) / 254)).map fun b =>
    let cnt := min 254 (n - 254 * b)
    leBytes 2 i ++ leBytes 2 (layerPartition e) ++ leBytes 2 (layerNumber e) ++ leBytes 2 x.stepsSeen.length ++ leBytes 2 cnt
      ++ zeros 6 ++ (List.range cnt).flatMap fun j =>
        let c := counts.getD (layerBase e + 254 * b + j) {}
        leBytes 4 c.looked ++ leBytes 4 c.placed ++ leBytes 4 c.overflow ++ leBytes 4 c.full

/-- Packs blocks into parts of at most 4,080 bytes. -/
def packBlocks : List Byte → List (List Byte) → List (List Byte)
  | cur, [] => if cur.isEmpty then [] else [cur]
  | cur, b :: t => if cur.length + b.length ≤ 4080 ∨ cur.isEmpty then packBlocks (cur ++ b) t else cur :: packBlocks b t

/-- SWITCH_WINDOW_END (R308): every layer entry with nonzero counts is reported, and the counts start again. -/
def execSwitchWindowEnd (a : AgentRef) (s : State) : Answer :=
  if a.variant = .e then .next s
  else
    let g := s.agent a
    let ls := (g.active.places.filter fun x => decide (x.1 < 1024) && layerValid x.2).filter fun x =>
      (List.range (layerExperts x.2)).any fun j => (g.disp.counts.get (layerBase x.2 + j)).isSome
    let parts := packBlocks [] (ls.flatMap fun x => layerBlocks x.1 x.2 (g.disp.layers.getD x.1 {}) g.disp.counts)
    let s := s.forEach ((List.range parts.length).zip parts) fun s x =>
      s.sendReport a 0x36 (leBytes 4 s.plc.window ++ leBytes 2 x.1 ++ leBytes 2 parts.length ++ zeros 8 ++ x.2) 1
    .next (s.updDisp a fun d => { d with counts := [], layers := d.layers.mapVals fun _ y => { y with stepsSeen := [] } })

end Sys2Proof.Machine
end

