-- ==== Sys2Proof/Machine/Broker.lean ====
section
/-! DEFINITION. The broker's windows: counts (R308), removal, additions and shares (R309 to R313). -/

namespace Sys2Proof.Machine

/-! ## Window reports at the controller (R308) -/

/-- One expert of a report: tokens looked up and choices PLACED, OVERFLOW and FULL. -/
def Expert.report (x : Expert) (f : Fid) (looked full steps : Nat) : Expert :=
  let old := ((x.bySwitch.find? fun y => y.1 == f).map (·.2)).getD 0
  { x with window := x.window + looked, full := x.full + full, steps := max x.steps steps
           bySwitch := (x.bySwitch.filter fun y => y.1 != f) ++ [(f, old + looked)] }

/-- The experts of one block, from expert `first` on (R102). -/
def State.takeExperts (s : State) (f : Fid) (part : BitVec 12) (layer steps : Nat) : Nat → Nat → List Byte → State
  | 0, _, _ => s
  | n + 1, first, l =>
    let full := leAt l 12 4
    let hit := fun (x : Expert) => x.partition == part && x.layer == layer && x.expert == first
    let s : State := { s with plc := { s.plc with
      experts := s.plc.experts.map fun x => if hit x then x.report f (leAt l 0 4) full steps else x } }
    let s := (s.satFld PLC_DISPATCH_FULL full).satFld PLC_DISPATCH_OVERFLOW (leAt l 8 4)
    s.takeExperts f part layer steps n (first + 1) (l.drop 16)

/-- The blocks of a report part (R102). Several blocks of one layer entry continue each other (log entry 42). -/
def State.takeBlocks (s : State) (f : Fid) : Nat → List Byte → State
  | 0, _ => s
  | n + 1, l =>
    if l.length < 16 then s
    else
      let i := leAt l 0 2
      let cnt := leAt l 8 2
      let first := ((s.plc.reported.find? fun x => x.1 == f && x.2.1 == i).map (·.2.2)).getD 0
      let s := s.takeExperts f (BitVec.ofNat 12 (leAt l 2 2)) (leAt l 4 2) (leAt l 6 2) cnt first (l.drop 16)
      let rest := s.plc.reported.filter fun x => !(x.1 == f && x.2.1 == i)
      let s : State := { s with plc := { s.plc with reported := rest ++ [(f, i, first + cnt)] } }
      s.takeBlocks f n (l.drop (16 + 16 * cnt))

/-- WINDOW_REPORT (R308, R473): the counts of an open window are summed; a report of a closed window is discarded. -/
def execWindowReport (p : Packet) (s : State) : Answer :=
  .next (s.accept .ctl p fun s =>
    if leAt p.payload 0 4 ≠ s.plc.window then (s, none)
    else (s.takeBlocks p.hdr.src p.payload.length (p.payload.drop 16), none))

/-! ## Utilisation (R308) -/

/-- CAP_e: the sum of the replicas' CAP. -/
def Expert.cap (x : Expert) : Nat := (x.replicas.map (·.cap)).sum

/-- N × CAP_e: the tokens the replicas could have taken. -/
def Expert.room (x : Expert) : Nat := x.steps * x.cap

/-- The largest step count any switch reported for a layer is the layer's N. -/
def levelSteps (l : List Expert) : List Expert :=
  l.map fun x => { x with steps := ((l.filter fun y => y.partition == x.partition && y.layer == x.layer).map (·.steps)).foldl max 0 }

/-- u_e is at least `pct` percent, or a choice was FULL (R309). -/
def Expert.hot (x : Expert) (pct : Nat) : Bool := (decide (0 < x.room) && decide (pct * x.room ≤ 100 * x.window)) || decide (0 < x.full)

/-- u_e is below `pct` percent; with N × CAP_e of 0 there is no utilisation. -/
def Expert.isCold (x : Expert) (pct : Nat) : Bool := decide (0 < x.room) && decide (100 * x.window < pct * x.room)

/-- `x` comes before `y` in descending u_e. -/
def Expert.hotter (x y : Expert) : Bool := decide (y.window * x.room ≤ x.window * y.room)

/-- The same expert. -/
def Expert.sameAs (x y : Expert) : Bool := x.partition == y.partition && x.layer == y.layer && x.expert == y.expert

/-- Replaces an expert of the master table. -/
def State.setExpert (s : State) (x : Expert) : State :=
  { s with plc := { s.plc with experts := s.plc.experts.map fun y => if y.sameAs x then x else y } }

/-! ## Placement entries at the switches (R295, R296, R310) -/

/-- The switches with a layer entry of an expert's layer, and the index of its expert entry (from the tables in force). -/
def State.hosts (s : State) (x : Expert) : List (Fid × Nat) :=
  (s.dom.known.filter fun k => k.admitted && k.ref.variant == .s).filterMap fun k =>
    ((s.copyOf k.fid).layerOf x.partition x.layer).bind fun e =>
      if x.expert < layerExperts e.2 then some (k.fid, layerBase e.2 + x.expert) else none

/-- The share of a replica of capacity `cap` at a switch (R310): the floor, and the remainder at the switch with the most
tokens, the lowest fabric ID on a tie. -/
def Expert.share (x : Expert) (cap : Nat) (hosts : List Fid) (f : Fid) : Nat :=
  let t := fun (g : Fid) => ((x.bySwitch.find? fun y => y.1 == g).map (·.2)).getD 0
  let base := fun (g : Fid) => cap * t g / x.window
  let top := hosts.foldl (fun m g => match m with
    | none => some g
    | some b => if t b < t g ∨ (t b = t g ∧ g.toNat < b.toNat) then some g else some b) none
  base f + if top = some f then cap - (hosts.map base).sum else 0

/-- A replica word: VALID, TIER, ENDPOINT and SHARE (R296). -/
def mkReplica (tier endpoint share : Nat) : Nat := 2 ^ 31 + tier * 2 ^ 30 + endpoint * 2 ^ 15 + min share 4095 * 8

/-- The words of an expert entry for a switch: words of removed replicas cleared, shares of the others set anew where the
expert had tokens, a new replica in the first free word. -/
def Expert.wordsAt (x : Expert) (old : BitVec 512) (hosts : List Fid) (f : Fid) : List Nat :=
  let ws := (List.range 16).map fun i =>
    let w := replicaWord old i
    if replicaValid w = false then 0
    else match x.replicas.find? fun r => r.endpoint == replicaEndpoint w with
      | none => 0
      | some r => if x.window = 0 then w else mkReplica r.tier r.endpoint (x.share r.cap hosts f)
  let news := x.replicas.filter fun r => !r.declared && !(ws.any fun w => replicaValid w && replicaEndpoint w == r.endpoint)
  news.foldl (fun ws r => match ws.findIdx? (· == 0) with
    | some i => listSet ws i (mkReplica r.tier r.endpoint (if x.window = 0 then 0 else x.share r.cap hosts f))
    | none => ws) ws

/-- The patches that bring an expert's entries at every switch to the master table, where they differ. -/
def State.expertPatches (s : State) (x : Expert) : List (Fid × List Byte) :=
  let hs := s.hosts x
  hs.filterMap fun h =>
    let old := (s.copyOf h.1).places.getD h.2 0
    let new := (x.wordsAt old (hs.map (·.1)) h.1).foldl (fun n w => n * 2 ^ 32 + w) 0
    if new = old.toNat then none else some (h.1, Patch.bytes ⟨7, 0, h.2, 1, [new]⟩)

/-- One install of every changed entry (R309, step 4). -/
def State.brokerInstall (s : State) (xs : List Expert) : State :=
  let sets := mergeSets (xs.flatMap s.expertPatches)
  if sets.isEmpty then s else s.submitInstall sets .broker

/-! ## Expert pools (R311, R312) -/

/-- The pool of an endpoint in a partition's footprints. -/
def State.poolOf (s : State) (p : Nat) (e : Nat) : Option DevFootprint :=
  ((s.feetOf p).flatMap fun f => f.foot.devices).find? fun d => d.endpoint == e && decide (0 < d.poolSlots)

/-- Address of a slot's descriptor and of its data. -/
def descAt (d : DevFootprint) (slot : Nat) : Nat := d.poolBase + 64 * slot
def slotAt (d : DevFootprint) (slot : Nat) : Nat := d.poolBase + 16384 + slot * d.slotBytes

/-- Slots of a pool that hold a replica or wait for their descriptor to be cleared. -/
def State.poolUsed (s : State) (p e : Nat) : List Nat :=
  ((s.plc.experts.filter fun x => x.partition.toNat == p).flatMap fun x => (x.replicas.filter fun r => r.endpoint == e).map (·.slot))
    ++ (s.plc.clearing.filter fun c => c.1 == e).map (·.2.1)

/-- Tokens of the experts an endpoint hosts. -/
def State.hostedTokens (s : State) (e : Nat) : Nat :=
  ((s.plc.experts.filter fun x => x.replicas.any fun r => r.endpoint == e).map (·.window)).sum

/-- Where a replica of an expert may go: a free slot of an endpoint of the binding set that hosts none of it, the endpoint
with the lowest hosted tokens first and then the lowest local ID (R312). -/
def State.eligible (s : State) (x : Expert) (weight : Nat) : Option (DevFootprint × Nat) :=
  let p := x.partition.toNat
  let ds := ((s.feetOf p).flatMap fun f => f.foot.devices).filter fun d =>
    decide (0 < d.poolSlots ∧ weight ≤ d.slotBytes) && s.answers d.endpoint && !(x.replicas.any fun r => r.endpoint == d.endpoint)
  let c := ds.filterMap fun d => (lowestFree (s.poolUsed p d.endpoint) 0 d.poolSlots).map fun i => (d, i)
  c.foldl (fun (m : Option (DevFootprint × Nat)) y => match m with
    | none => some y
    | some b =>
      let tb := s.hostedTokens b.1.endpoint
      let ty := s.hostedTokens y.1.endpoint
      if ty < tb ∨ (ty = tb ∧ y.1.endpoint < b.1.endpoint) then some y else some b) none

/-- Writes bytes into an endpoint's memory. -/
def State.writeEndpoint (s : State) (e a : Nat) (l : List Byte) : State :=
  match s.devAgent e with
  | some r => s.updAgent r fun g => { g with mem := g.mem.writeBytes a l }
  | none => s

/-- Copies the weights from the lowest-index valid replica's slot and writes the slot's descriptor; the descriptor's
version is a free value (R311, R312). -/
def State.copyWeights (s : State) (x : Expert) (src : Replica) (d : DevFootprint) (slot : Nat) : State :=
  let s := match s.poolOf x.partition.toNat src.endpoint, s.devAgent src.endpoint, s.devAgent d.endpoint with
    | some sd, some sa, some da =>
      let from_ := (s.agent sa).mem
      s.updAgent da fun g => { g with mem := Memory.copyRange g.mem from_ (slotAt sd src.slot) src.weightBytes (slotAt d slot) }
    | _, _, _ => s
  let desc := leBytes 2 x.layer ++ leBytes 2 x.expert ++ leBytes 4 (s.free.toNat) ++ zeros 55 ++ [1]
  s.useFree.writeEndpoint d.endpoint (descAt d slot) desc

/-- One replica for a hot expert, or NO_SLOT (R309, R312); answers whether one was added. -/
def State.addTo (s : State) (x : Expert) : State × Bool :=
  match x.replicas with
  | [] => (s.satFld PLC_BROKER_STAT_NO_SLOT 1, false)
  | src :: _ =>
    match s.eligible x src.weightBytes with
    | none => (s.satFld PLC_BROKER_STAT_NO_SLOT 1, false)
    | some (d, slot) =>
      if 16 ≤ x.replicas.length then (s.satFld PLC_BROKER_STAT_NO_SLOT 1, false)
      else
        let s := s.copyWeights x src d slot
        let r : Replica := { endpoint := d.endpoint, tier := 0, cap := d.poolCap, slot := slot, declared := false
                             weightBytes := src.weightBytes }
        ((s.setExpert { x with replicas := x.replicas ++ [r] }).satFld PLC_BROKER_STAT_ADDED 1, true)

/-- Hot experts in their order, until MAX_ADDS replicas are added. -/
def State.addAll (s : State) : List Expert → Nat → State
  | [], _ => s
  | _, 0 => s
  | x :: t, n + 1 =>
    let r := s.addTo x
    r.1.addAll t (if r.2 then n else n + 1)

/-- The replica a cold expert loses: the last added one the bundle did not declare; never its last one. -/
def Expert.lose (x : Expert) : Option Replica :=
  if x.replicas.length < 2 then none else (x.replicas.filter fun r => !r.declared).getLast?

/-- A replica leaves the master table; its slot waits for its descriptor (R312). -/
def State.removeReplica (s : State) (x : Expert) (r : Replica) : State :=
  let addr := match s.poolOf x.partition.toNat r.endpoint with
    | some d => descAt d r.slot
    | none => 0
  let s := s.setExpert { x with replicas := x.replicas.filter (· != r) }
  let s : State := { s with plc := { s.plc with clearing := s.plc.clearing ++ [(r.endpoint, r.slot, addr, 2)] } }
  s.satFld PLC_BROKER_STAT_REMOVED 1

/-- Step 1: cold experts lose a replica. -/
def State.removeCold (s : State) (x : Expert) : State :=
  let pct := s.fld PLC_BROKER_CFG_COLD_PCT
  let cold := if x.isCold pct then x.cold + 1 else if x.room = 0 then x.cold else 0
  let y := { x with cold := cold }
  match (if 3 ≤ cold then y.lose else none) with
  | some r => s.removeReplica y r
  | none => s.setExpert y

/-- A broker install is on its way. -/
def State.brokerPending (s : State) : Bool :=
  (match s.rte.install with | some i => i.purpose == .broker | none => false) || s.rte.waiting.any fun w => w.2 == .broker

/-- Descriptors of removed replicas: VALID goes to 0 one window after the install that removed them is in force (R312). -/
def State.clearSlots (s : State) : State :=
  if s.brokerPending then s
  else
    let due := s.plc.clearing.filter fun c => decide (c.2.2.2 ≤ 1)
    let s := s.forEach due fun s c => s.writeEndpoint c.1 (c.2.2.1 + 63) [0]
    let l := (s.plc.clearing.filter fun c => decide (1 < c.2.2.2)).map fun c => (c.1, c.2.1, c.2.2.1, c.2.2.2 - 1)
    { s with plc := { s.plc with clearing := l } }

/-- The window closes: T_e of the last window is what PLOAD returns, and counts start again. -/
def State.closeWindow (s : State) : State :=
  let ex := s.plc.experts.map fun x => { x with lastWindow := x.window, window := 0, full := 0, steps := 0, bySwitch := [] }
  ({ s with plc := { s.plc with experts := ex, reported := [], window := s.plc.window + 1, windowNs := s.now
                                movedInWindow := 0 } } : State).mirrorOut 9

/-- BROKER_WINDOW_END (R309 to R313): removals, additions, shares and one install. While a PLAY is pending the broker waits
(R313, R326). -/
def execBrokerWindowEnd (s : State) : Answer :=
  if s.now < s.plc.windowNs + s.fld PLC_BROKER_CFG_WINDOW_MS * 1000000 then .next s
  else
  let s0 : State := { s with plc := { s.plc with experts := levelSteps s.plc.experts } }
  if s.fld PLC_BROKER_CFG_ENABLE = 0 then .next s0.closeWindow
  else if s.rte.play.isSome then .next s
  else
    let s := s0.clearSlots
    let s := s.forEach s.plc.experts State.removeCold
    let hot := (s.plc.experts.filter fun x => x.hot (s.fld PLC_BROKER_CFG_HOT_PCT)).mergeSort Expert.hotter
    let s := s.addAll hot (s.fld PLC_BROKER_CFG_MAX_ADDS)
    .next (s.brokerInstall s.plc.experts).closeWindow

/-- An endpoint's compute domain resets: its replicas go at once, in one install outside the window cycle (R313). -/
def State.dropReplicas (s : State) (e : Nat) : State :=
  let xs := s.plc.experts.filter fun x => x.replicas.any fun r => r.endpoint == e
  if xs.isEmpty then s
  else
    let ys := xs.map fun x => { x with replicas := x.replicas.filter fun r => r.endpoint != e }
    let s := s.forEach ys State.setExpert
    let s := s.satFld PLC_BROKER_STAT_REMOVED ((xs.map fun x => (x.replicas.filter fun r => r.endpoint == e).length).sum)
    s.brokerInstall (ys.map fun x => { x with window := 0 })

end Sys2Proof.Machine
end

