-- ==== Sys2Proof/Machine/Queues.lean ====
section
/-! DEFINITION. Command queues: doorbells and fetch (R199 to R201), the order of commands (R202, R203), the commands of R205,
programs (R207 to R212) and their ends (R216, R217). -/

namespace Sys2Proof.Machine

/-! ## Doorbells and fetch (R199 to R201) -/

/-- STALLED: fetching is held because no completion record is free (R199, R201). -/
def State.showStalled (s : State) (q : Nat) : State :=
  let waiting := decide ((s.queue q).tail ≠ s.cq q CTL_CQn_STATUS_SQ_HEAD)
  s.setCq q CTL_CQn_STATUS_STALLED (bit (waiting && s.cq q CTL_CQn_CFG_ENABLE == 1 && s.freeRecords q == 0))

/-- A doorbell value is taken: the queue is enabled and the value names a ring index (R200). -/
def State.doorbellOk (s : State) (q : Nat) (v : BitVec 32) : Bool :=
  s.cq q CTL_CQn_CFG_ENABLE == 1 && decide (v.toNat < s.ringSize q)

/-- A doorbell write that is ignored and counted. -/
def State.doorbellBad (s : State) (q : Nat) : State :=
  s.setCq q CTL_CQn_STATUS_DOORBELL_BAD (min (s.cq q CTL_CQn_STATUS_DOORBELL_BAD + 1) 255)

/-- SQ_DOORBELL (R200, R201); ignored until the controller is ready (R420). -/
def execSqDoorbell (q : Nat) (v : BitVec 32) (s : State) : Answer :=
  if s.ready = false then .next s
  else if s.doorbellOk q v then .next ((s.setQueue q { s.queue q with tail := v.toNat }).showStalled q) else .next (s.doorbellBad q)

/-- CQ_HEAD_DOORBELL (R200); ignored until the controller is ready (R420). -/
def execCqHeadDoorbell (q : Nat) (v : BitVec 32) (s : State) : Answer :=
  if s.ready = false then .next s
  else if s.doorbellOk q v then .next ((s.setCq q CTL_CQn_STATUS_CQ_HEAD v.toNat).showStalled q) else .next (s.doorbellBad q)

/-- Entries a queue's turn fetches: up to 8, never beyond the free completion records nor the end of the ring (R201); none while it is
off, disabling, or its hub's PCIe link is gone (R453). -/
def State.fetchable (s : State) (q : Nat) : Nat :=
  let x := s.queue q
  if s.cq q CTL_CQn_CFG_ENABLE = 0 ∨ x.disabling ∨ s.gatesOpen = false ∨ s.hubDown (s.cq q CTL_CQn_CFG_HUB) then 0
  else
    let size := s.ringSize q
    let head := s.cq q CTL_CQn_STATUS_SQ_HEAD
    min 8 (min ((x.tail + size - head) % size) (min (s.freeRecords q) (size - head)))

/-- Queues the round in progress has still to serve, ascending, so CQ0 first; a new round begins when none is left (R201). -/
def State.fetchRound (s : State) : List Nat :=
  let can := (List.range 64).filter fun q => decide (0 < s.fetchable q)
  let rest := can.filter fun q => !s.turn.served.contains q
  if rest.isEmpty then can else rest

/-- The queue's turn to fetch has come. -/
def State.fetchTurn (s : State) (q : Nat) : Bool := s.fetchRound.head? == some q

/-- The round after a queue was served. -/
def State.fetchServed (s : State) (q : Nat) : State :=
  let new := (s.fetchRound.any fun k => s.turn.served.contains k)
  { s with turn := { s.turn with served := if new then [q] else s.turn.served ++ [q] } }

/-- QUEUE_FETCH (R201, R453): the queue's turn, once it has come. -/
def execQueueFetch (q : Nat) (s : State) : Answer :=
  let n := s.fetchable q
  if n = 0 then .next (s.showStalled q)
  else if s.fetchTurn q = false then .next s
  else
      let x := s.queue q
      let size := s.ringSize q
      let head := s.cq q CTL_CQn_STATUS_SQ_HEAD
      let s := s.fetchServed q
      let s := s.act (.hostFetch (s.cq q CTL_CQn_CFG_HUB) (s.cq q CTL_CQn_SQ_BASE_ADDR * 64 + 64 * head) (64 * n))
      let s := s.setCq q CTL_CQn_STATUS_SQ_HEAD ((head + n) % size)
      .next ((s.setQueue q { x with inFlight := x.inFlight + n }).showStalled q)

/-! ## Entries (R204, R205) -/

/-- Bytes of an opcode that may be nonzero: ranges of offset and length (R205). -/
def usedFields (op : Nat) : List (Nat × Nat) :=
  match op with
  | 1 => [(8, 1), (12, 12)]
  | 2 => [(8, 1)]
  | 3 => [(8, 3), (12, 6), (20, 32)]
  | 4 => [(8, 4)]
  | 5 => [(8, 12)]
  | 6 => [(8, 4)]
  | 7 => [(8, 12), (40, 12)]
  | _ => []

/-- A defined opcode and zero in every unused field. -/
def Cmd.wellFormed (c : Cmd) : Bool :=
  decide (c.opcode ≤ 7) && decide (leAt c.bytes 1 1 < 4) && allZero c.bytes 2 2
    && ((List.range 56).all fun i =>
      (usedFields c.opcode).any (fun f => decide (f.1 ≤ i + 8 ∧ i + 8 < f.1 + f.2)) || c.bytes.getD (i + 8) 0 == 0)
    && (c.opcode != 3 || ((c.runEngine == 0xFF || decide (4 ≤ c.runEngine ∧ c.runEngine ≤ 31)) && decide (c.runReportH ≤ 15)
      && decide (1 ≤ c.runBudget) && decide (c.runArgLen ≤ 65536) && decide (c.runBinds ≤ 64)))

/-- The host memory a command reads: address and bytes (R205, R210). -/
def Cmd.hostRange (c : Cmd) : Nat × Nat :=
  match c.opcode with
  | 1 => (leAt c.bytes 16 8, leAt c.bytes 12 4)
  | 3 => (c.runArgAddr, c.runArgLen)
  | 5 => (leAt c.bytes 8 8, leAt c.bytes 16 4)
  | 7 => (leAt c.bytes 8 8, leAt c.bytes 16 4)
  | _ => (0, 0)

/-- The kind of read a command waits for. -/
def Cmd.reads (c : Cmd) (w : HostRead) : Bool :=
  match w with
  | .ring => false
  | .image => c.opcode == 1 || c.opcode == 5
  | .args => c.opcode == 3
  | .bundle => c.opcode == 7

/-- Cuts ring bytes into entries. -/
def cutEntries : Nat → List Byte → List Cmd
  | 0, _ => []
  | n + 1, l => { bytes := slice l 0 64 } :: cutEntries n (l.drop 64)

/-- Takes an entry: what it needs of host memory is read at once; an empty read brings no bytes. -/
def State.takeEntry (s : State) (q : Nat) (c : Cmd) : State :=
  let x := s.queue q
  let r := c.hostRange
  let c := if r.2 = 0 then { c with data := some [] } else c
  let s := (s.setQueue q { x with cmds := x.cmds ++ [c] }).mirrorOut 4
  if r.2 = 0 ∨ c.wellFormed = false then s else s.hubAct (s.cq q CTL_CQn_CFG_HUB) (.hostFetch (s.cq q CTL_CQn_CFG_HUB) r.1 r.2)

/-- Ring bytes arrive. A read that failed leaves an entry of zeros that is refused with reason 0x04 (R214); while the queue
is disabled an entry is cancelled (R216). -/
def State.takeRingBytes (s : State) (q : Nat) (ok : Bool) (data : List Byte) : State :=
  let x := s.queue q
  let n := if ok then min x.inFlight (data.length / 64) else min x.inFlight 1
  let s := s.setQueue q { x with inFlight := x.inFlight - n }
  let l : List Cmd := if ok then cutEntries n data else List.replicate n { bytes := zeros 64, readFailed := true }
  (s.forEach l fun s c =>
    if x.disabling then s.writeRecord q (c.record 3 3) c.irq
    else if c.readFailed then s.writeRecord q (c.record 2 4) false
    else s.takeEntry q c).endDisable q

/-- HOST_READ_COMPLETION (R201, R205, R210): ring entries, or what the oldest entry that waits for such a read needs. -/
def execHostReadCompletion (q : Nat) (what : HostRead) (ok : Bool) (data : List Byte) (s : State) : Answer :=
  match what with
  | .ring => .next (s.takeRingBytes q ok data)
  | w =>
    let x := s.queue q
    .next (s.setQueue q { x with cmds := updateFirst (fun c => c.reads w && c.data.isNone) (fun c =>
      { c with data := some (if ok then data.take c.hostRange.2 else []), readFailed := !ok }) x.cmds })

/-! ## The order of commands (R202) -/

/-- The next command that may start: the first not started, unless SERIAL holds it or an earlier SERIAL command runs. -/
def nextStart : List Cmd → Option Cmd
  | [] => none
  | c :: t =>
    match c.state with
    | .fetched => some c
    | _ => if c.serial then none else match nextStart t with
      | some d => if d.serial then none else some d
      | none => none

/-- A command completes with a status. -/
def State.endCmd (s : State) (q : Nat) (c : Cmd) (status detail : Nat) (result : Word64 := 0) : State :=
  (s.completeCmd q c (c.record status detail result)).showStalled q

/-- Marks a command as started. -/
def State.markStarted (s : State) (q : Nat) (c : Cmd) : State :=
  (s.mirrorOut 4).setQueue q { s.queue q with cmds := updateFirst (· == c) (fun d => { d with state := .started }) (s.queue q).cmds }

/-- The checks every command meets at its start: form (R205), level (R205, R4), partition (R217), host read (R214). It starts once the
standby holds the command journal (R219, R405). -/
def State.startCmd (s : State) (q : Nat) (op : Nat → Bool) (lvl : Cmd → Level) (body : State → Cmd → State) : State :=
  match nextStart (s.queue q).cmds with
  | none => s
  | some c =>
    if op c.opcode = false ∨ s.mirrorBlocks (some 4) then s
    else if c.wellFormed = false then s.endCmd q c 2 1
    else if levelRank (s.queueLevel q) < levelRank (lvl c) then (s.endCmd q c 0 0).countViolation (s.queueLevel q)
    else if s.queueLevel q = .tenant ∧ s.partActive (s.queuePartition q) = false then s.endCmd q c 2 9
    else if c.readFailed then s.endCmd q c 2 4
    else if c.hostRange.2 ≠ 0 ∧ c.data.isNone then s
    else body s c

/-- CMD_NOP (R205); undefined opcodes are refused with reason 0x01. -/
def execCmdNop (q : Nat) (s : State) : Answer :=
  .next (s.startCmd q (fun o => o == 0 || decide (7 < o)) (fun _ => .tenant) fun s c => s.endCmd q c 0 0)

/-! ## Programs (R207 to R212) -/

/-- Code words of an image, least significant byte first (R207). -/
def codeWords : Nat → List Byte → List Word64
  | 0, _ => []
  | n + 1, l => BitVec.ofNat 64 (leAt l 0 8) :: codeWords n (l.drop 8)

/-- A program image's header is well formed (R207). -/
def programOk (l : List Byte) : Bool :=
  let b := leAt l 2 1
  let n := leAt l 4 4
  leAt l 0 2 == 1 && decide (b < 8) && b % 4 != 3 && (b / 4 == 1 || leAt l 3 1 == 0)
    && (b / 4 == 0 || leAt l 3 1 == 0 || leAt l 3 1 == 1 || leAt l 3 1 == 0xFF)
    && decide (1 ≤ n ∧ n ≤ 65536 ∧ l.length = 64 + 8 * n + (if b / 4 = 1 then 96 else 0)) && allZero l 8 8

/-- The digest of the code agrees (R207). -/
def programDigestOk (l : List Byte) : Bool := beAt l 16 48 == (sha384 (slice l 64 (8 * leAt l 4 4))).toNat

/-- The program of an image. -/
def programOf (l : List Byte) (lvl : Level) (part : Nat) : Program :=
  { code := codeWords (leAt l 4 4) (l.drop 64), level := levelOf (leAt l 2 1 % 4), signed := leAt l 2 1 / 4 == 1
    minInvoke := leAt l 3 1, queueLevel := lvl, partition := BitVec.ofNat 12 part }

/-- The queue may see a program slot (R208). -/
def State.seesSlot (s : State) (q slot : Nat) : Option Program :=
  match s.programs.get slot with
  | none => none
  | some p =>
    if slot < 32 then (if p.minInvoke ≤ levelRank (s.queueLevel q) then some p else none)
    else if p.queueLevel = s.queueLevel q ∧ p.partition.toNat = s.queuePartition q then some p else none

/-- LOAD (R207, R208, R209, R352): slots 8 to 31 take signed vendor images, slots 32 and up unsigned ones of the queue's
level; in duplex no slot below 32 (R400). -/
def execLoad (q : Nat) (sigOk : Bool) (s : State) : Answer :=
  .next (s.startCmd q (· == 1) (fun c => if leAt c.bytes 8 1 < 32 then .operator else .tenant) fun s c =>
    let slot := leAt c.bytes 8 1
    let l := c.data.getD []
    if slot < 8 ∨ (s.programs.get slot).isSome ∨ (slot < 32 ∧ s.voters < 3) then s.endCmd q c 2 7
    else if programOk l = false then s.endCmd q c 2 1
    else
      let p := programOf l (s.queueLevel q) (s.queuePartition q)
      if programDigestOk l = false then s.endCmd q c 2 5
      else if slot < 32 then
        if p.signed = false ∨ p.level ≠ .vendor ∨ sigOk = false then s.endCmd q c 2 5
        else
          let s := { s with programs := s.programs.set slot p }
          (s.extendMeas 2 (BitVec.ofNat 384 (beAt l 16 48))).endCmd q c 0 0 (BitVec.ofNat 64 slot)
      else if p.signed ∨ p.level ≠ s.queueLevel q then s.endCmd q c 2 5
      else ({ s with programs := s.programs.set slot p } : State).endCmd q c 0 0 (BitVec.ofNat 64 slot))

/-- UNLOAD (R205, R208, R214). -/
def execUnload (q : Nat) (s : State) : Answer :=
  .next (s.startCmd q (· == 2) (fun _ => .tenant) fun s c =>
    let slot := leAt c.bytes 8 1
    if slot < 32 then s.endCmd q c 2 7
    else if (s.seesSlot q slot).isNone then s.endCmd q c 2 2
    else ({ s with programs := s.programs.erase slot } : State).endCmd q c 0 0)

/-- The value an argument block binds to a register; the last binding counts (R211). -/
def boundReg (l : List Byte) (n idx : Nat) : Nat :=
  (List.range n).foldl (fun v i => if leAt l (16 * i) 1 = 1 ∧ leAt l (16 * i + 1) 1 = idx then leAt l (16 * i + 8) 8 else v) 0

/-- PWR_PART of a partition (R435, R436): interval in bits 63:32, power in bits 31:0. -/
def State.partPowerWord (s : State) (p : Nat) : Word64 :=
  let x := s.pwr.partPower.getD p (0, 0)
  BitVec.ofNat 64 (x.1 * 2 ^ 32 + x.2)

/-- The vendor programs of slots 4 to 7 (R209): a scrub ordered again (R345), a manual play (R166), a known-answer run (R422,
its result is not given: log entry 40), the power of the queue's partition (R436). -/
def State.runVendor (s : State) (q : Nat) (c : Cmd) (e slot : Nat) : State :=
  let l := c.data.getD []
  let g1 := boundReg l c.runBinds 1
  let g2 := boundReg l c.runBinds 2
  let done := fun (s : State) (r : Word64) =>
    (s.completeCmd q c { c.record 0 0 r with engine := e }).showStalled q
  match slot with
  | 4 => done (s.rescrubDev g1) 0
  | 5 =>
    let id : BitVec 24 := BitVec.ofNat 24 g1
    let ok := s.rte.gambits.any fun g => g.rec_.gambitId == id && g.armed
    let left := s.rte.selected.filter (· != id)
    let first := s.rte.selectedNs.getD s.now
    let s := { s with rte := { s.rte with selected := left, selectedNs := if left.isEmpty then none else s.rte.selectedNs } }
    done (if ok then s.emitPlay [id] first g2 else s) 0
  | 6 => let r := s.free; done ((s.useFree).sendMgmt .ctl (BitVec.ofNat 32 g1) 0x21 []) r
  | _ => done s (s.partPowerWord (s.queuePartition q))

/-- The queue's next command is a RUN that only waits for its grant (R203). -/
def State.runWaits (s : State) (q : Nat) : Bool :=
  match nextStart (s.queue q).cmds with
  | none => false
  | some c => c.opcode == 3 && c.wellFormed && !c.readFailed && (c.hostRange.2 == 0 || c.data.isSome)
      && (s.queueLevel q != .tenant || s.partActive (s.queuePartition q)) && (s.seesSlot q c.runSlot).isSome
      && bindingsOk (c.data.getD []) c.runBinds && decide ((s.queue q).running < s.cq q CTL_CQn_CFG_MAX_ENGINES)
      && (s.freeEngine c.runEngine).isSome

/-- The queue whose RUN comes next: the first that waits behind the one granted last (R203). -/
def State.grantNext (s : State) : Option Nat :=
  ((List.range 64).find? fun k => s.runWaits ((s.turn.granted + 1 + k) % 64)).map fun k => (s.turn.granted + 1 + k) % 64

/-- Starts the RUN of a queue where an engine is free, the queue has fewer than MAX_ENGINES programs and its turn of the rotation has
come (R203, R210, R211). -/
def State.startRun (s : State) (q : Nat) : State :=
  s.startCmd q (· == 3) (fun _ => .tenant) fun s c =>
    match s.seesSlot q c.runSlot with
    | none => s.endCmd q c 2 2
    | some p =>
      if bindingsOk (c.data.getD []) c.runBinds = false then s.endCmd q c 2 3
      else if s.cq q CTL_CQn_CFG_MAX_ENGINES ≤ (s.queue q).running then s
      else match s.freeEngine c.runEngine with
        | none => s
        | some e =>
          if s.grantNext ≠ some q then s
          else
            let s : State := { s with turn := { s.turn with granted := q } }
            if c.runSlot < 8 then s.runVendor q c e c.runSlot else s.startProgram q c p e

/-- RUN (R210). -/
def execRun (q : Nat) (s : State) : Answer := .next (s.startRun q)

/-- ENGINE_GRANT (R203): a turn of the rotation: one start for the queue. -/
def execEngineGrant (q : Nat) (s : State) : Answer := .next (s.startRun q)

/-- WALL_TIME_LIMIT (R212): the program stops as cancelled, DETAIL 0x02. -/
def execWallTimeLimit (e : Nat) (s : State) : Answer :=
  match (s.engine e).run with
  | some r => if (s.engine e).running ∧ r.deadlineNs ≤ s.now then .next (s.endProgram e 3 2 0 0) else .next s
  | none => .next s

/-! ## CANCEL and disabling (R216) -/

/-- Cancels a command of a queue: not started, or a running program. -/
def State.cancelCmd (s : State) (q : Nat) (t : Cmd) (detail : Nat) : State :=
  match t.state with
  | .fetched => s.endCmd q t 3 detail
  | _ =>
    if t.opcode = 3 then
      match s.engines.find? fun x => x.2.running && (match x.2.run with
          | some r => r.queue == q && r.cmdId == t.cmdId && r.order == t.order
          | none => false) with
      | some x => s.endProgram x.1 3 detail 0 0
      | none => s
    else s

/-- CANCEL (R216, R214): RESULT tells whether the target was found. -/
def execCancel (q : Nat) (s : State) : Answer :=
  .next (s.startCmd q (· == 4) (fun _ => .tenant) fun s c =>
    let s := s.markStarted q c
    let c := { c with state := CmdState.started }
    match (s.queue q).cmds.find? fun t => t != c && t.cmdId == leAt c.bytes 8 4 with
    | some t => (s.cancelCmd q t 1).endCmd q c 0 0 1
    | none => s.endCmd q c 0 0 0)

/-- The fields of CFG that a write may change while the queue is off; SIZE_LOG2 and MAX_TIME_MS keep their ranges, CQ0 its
level (R199). -/
def State.writeCfg (s : State) (q : Nat) (v : Word64) : State :=
  let f := fun (x : Field) => x.of v
  let s := if q = 0 then s else s.setCq q CTL_CQn_CFG_LEVEL (f CTL_CQn_CFG_LEVEL)
  let s := s.setCq q CTL_CQn_CFG_HUB (f CTL_CQn_CFG_HUB)
  let n := f CTL_CQn_CFG_SIZE_LOG2
  let s := if 4 ≤ n ∧ n ≤ 15 then s.setCq q CTL_CQn_CFG_SIZE_LOG2 n else s
  let s := if f CTL_CQn_CFG_MAX_ENGINES ≤ 28 then s.setCq q CTL_CQn_CFG_MAX_ENGINES (f CTL_CQn_CFG_MAX_ENGINES) else s
  let s := s.setCq q CTL_CQn_CFG_MSIX_VECTOR (f CTL_CQn_CFG_MSIX_VECTOR)
  let s := s.setCq q CTL_CQn_CFG_PARTITION (f CTL_CQn_CFG_PARTITION)
  let t := f CTL_CQn_CFG_MAX_TIME_MS
  if 1 ≤ t ∧ t ≤ 1000000 then s.setCq q CTL_CQn_CFG_MAX_TIME_MS t else s

/-- Records of commands that a handover interrupted go ahead of any other (R219). -/
def State.writeJournal (s : State) (q : Nat) : State :=
  let l := (s.queue q).journal
  let s := s.setQueue q { s.queue q with journal := [] }
  s.forEach l fun s j => s.writeRecord q { cmdId := j.1, opcode := j.2, status := 4 } false

/-- Enables a queue with both heads at 0 (R199). -/
def State.enableQueue (s : State) (q : Nat) (v : Word64) : State :=
  if s.cq q CTL_CQn_CFG_ENABLE = 1 then s
  else
    let s := s.writeCfg q v
    let s := s.setQueue q { s.queue q with tail := 0, cmds := [], inFlight := 0, written := 0, disabling := false }
    let s := ((s.setCq q CTL_CQn_STATUS_SQ_HEAD 0).setCq q CTL_CQn_STATUS_CQ_TAIL 0).setCq q CTL_CQn_STATUS_CQ_HEAD 0
    ((s.setCq q CTL_CQn_CFG_ENABLE 1).writeJournal q).showStalled q

/-- QUEUE_ENABLE (R199): a write of CTL_CQn_CFG with ENABLE 1; refused to tenants (R4). -/
def execQueueEnable (lvl : Level) (q : Nat) (v : Word64) (s : State) : Answer :=
  if lvl = .tenant then .next (s.countViolation lvl)
  else if CTL_CQn_CFG_ENABLE.of v = 0 then .next s
  else .next (s.enableQueue q v)

/-- Disables a queue (R199, R216): unstarted commands and running programs are cancelled with DETAIL 0x03; a queue that is
off takes the other fields. -/
def State.disableQueue (s : State) (q : Nat) (v : Word64) : State :=
  if s.cq q CTL_CQn_CFG_ENABLE = 0 then s.writeCfg q v
  else
    let s := s.setQueue q { s.queue q with disabling := true }
    let s := s.forEach (s.queue q).cmds fun s c => s.cancelCmd q c 3
    (s.endDisable q).showStalled q

/-- QUEUE_DISABLE (R216): a write of CTL_CQn_CFG with ENABLE 0. -/
def execQueueDisable (lvl : Level) (q : Nat) (v : Word64) (s : State) : Answer :=
  if lvl = .tenant then .next (s.countViolation lvl)
  else if CTL_CQn_CFG_ENABLE.of v = 1 then .next s
  else .next (s.disableQueue q v)

/-! ## Fabric images (R220 to R224) -/

/-- IMGLOAD (R220 to R223, R225): level, digest or signature, squares, self-check. Quarters that are gated are ungated
first, and the command waits for them. -/
def execImgload (q : Nat) (sigOk selfCheckOk : Bool) (s : State) : Answer :=
  .next (s.startCmd q (· == 5) (fun _ => .tenant) fun s c =>
    let l := c.data.getD []
    let signed := leAt l 2 1 / 4 % 2 == 1
    let lvl := if signed then Level.vendor else levelOf (leAt l 2 1 % 4)
    if imageHeaderOk l = false then s.endCmd q c 2 1
    else if imageDigestOk l = false ∨ (signed ∧ sigOk = false) ∨ (signed = false ∧ lvl ≠ s.queueLevel q) then s.endCmd q c 2 5
    else match s.placeImage l lvl (s.queueLevel q) (s.queuePartition q) with
      | .refused r => s.endCmd q c 2 r
      | .waits qs => s.forEach qs fun s k => s.ungateReq (if s.queueLevel q = .tenant then 3 else 2) k
      | .loaded k tiles =>
        if selfCheckOk = false then s.endCmd q c 2 8
        else
          let s := s.addImage k tiles l lvl (s.queueLevel q) (s.queuePartition q)
          let s := if signed then s.extendMeas 3 (BitVec.ofNat 384 (beAt l 16 48)) else s
          s.endCmd q c 0 0 (BitVec.ofNat 64 k))

/-- IMGFREE (R224): the image is marked freeing; the command completes by IMGFREE_COMPLETE. One that the queue cannot open
counts and changes nothing (R205, R4). -/
def execImgfree (q : Nat) (s : State) : Answer :=
  .next (s.startCmd q (· == 6) (fun _ => .tenant) fun s c =>
    let k := leAt c.bytes 8 4
    match s.sq.images.get k with
    | none => s.endCmd q c 2 1
    | some i =>
      if s.queueLevel q = .tenant ∧ (i.level ≠ .tenant ∨ i.partition.toNat ≠ s.queuePartition q) then
        (s.endCmd q c 0 0).countViolation .tenant
      else if i.freeing then s.endCmd q c 0 0
      else
        let i := { i with freeing := true, freeCmd := some (q, c.cmdId) }
        ({ s with sq := { s.sq with images := s.sq.images.set k i } } : State).markStarted q c)

/-! ## ADMIT (R206) -/

/-- Writes a report and completes with STATUS 0x05 (R206, R215). -/
def State.refuseAdmit (s : State) (q : Nat) (c : Cmd) (report : List Byte) : State :=
  let len := leAt c.bytes 48 4
  let s := if report = [] ∨ len = 0 then s
    else s.hubAct (s.cq q CTL_CQn_CFG_HUB) (.hostWrite (s.cq q CTL_CQn_CFG_HUB) (leAt c.bytes 40 8) (report.take len))
  (s.completeCmd q c { c.record 5 0 with reportBytes := report.length, trunc := decide (len < report.length) }).showStalled q

/-- ADMIT (R206): a bundle of the queue's own partition is checked, taken and installed; the command completes when the
install is in force, at once where nothing is installed. -/
def execAdmit (q : Nat) (b : Bundle) (s : State) : Answer :=
  .next (s.startCmd q (· == 7) (fun _ => .tenant) fun s c =>
    if s.queueLevel q = .tenant ∧ b.partition.toNat ≠ s.queuePartition q then (s.endCmd q c 0 0).countViolation .tenant
    else match s.checkBundle b with
      | .refused r => (s.countRefused b).refuseAdmit q c r
      | .taken n sets =>
        let s := s.takeBundle b n
        if sets.isEmpty then ((s.markStarted q c).finishInstall (.admission q c.cmdId n c.irq) 0 0).showStalled q
        else (s.markStarted q c).submitInstall sets (.admission q c.cmdId n c.irq))

end Sys2Proof.Machine
end

