-- ==== Sys2Proof/Machine/Partitions.lean ====
section
/-! DEFINITION. The end of a partition (R330, R292, R326, R346). -/

namespace Sys2Proof.Machine

/-- Running programs of a partition fault with 0x09 (R217, R330). -/
def State.faultPartition (s : State) (p : Nat) : State :=
  s.forEach ((s.engines.filter fun e => e.2.running && e.2.run.isSome && e.2.partition.toNat == p).map (·.1))
    fun s e => s.faultProgram e 9

/-- Sequences close, expert slots and reserves are released, moves end (R326). -/
def State.releasePlacement (s : State) (p : Nat) : State :=
  let mine := fun (q : BitVec 12) => q.toNat == p
  ({ s with plc := { s.plc with
      experts := s.plc.experts.filter fun x => !mine x.partition
      feet := s.plc.feet.filter fun x => !mine x.partition
      seqs := s.plc.seqs.filter fun x => !mine x.partition
      pages := s.plc.pages.keep fun _ x => !mine x.partition
      moves := s.plc.moves.filter fun m => match s.plc.pages.get m.entry with | some x => !mine x.partition | none => true
      grace := s.plc.grace.filter fun g => !mine g.partition
      spillNext := s.plc.spillNext.erase p } } : State).showPlc

/-- Bytes of spill pages a partition holds. -/
def State.spillBytes (s : State) (p : Nat) : Nat :=
  s.plc.pages.countIf (fun _ x => x.partition.toNat == p && x.endpoint == 0xFFFF) * s.pageBytes p

/-- The spill key goes, the spill pages are scrubbed, and the record of kind 1 is written (R330, R347, R348). -/
def State.scrubSpill (s : State) (p bytes : Nat) : State :=
  let seqNo := s.sec.scrubSeq + 1
  let s : State := { s with sec := { s.sec with scrubSeq := seqNo }, spill := s.spill.erase p }
  let s := s.setPart p { (s.part p) with spillKey := none, spillScrub := false, spillRecord := true }
  let s := s.keepRecord (s.scrubRecord 1 0 noFid p seqNo s.operMs bytes bytes 0 0)
  s.satFld SEC_SCRUB_DONE 1

/-- The devices of a partition. -/
def State.partDevs (s : State) (p : Nat) : List Nat :=
  (s.sec.devs.filter fun d => d.2.state == 1 && d.2.partition.toNat == p).map (·.1)

/-- Steps 1 to 5 of the end of a partition (R330). -/
def State.endPartition (s : State) (p : Nat) : State :=
  let bytes := s.spillBytes p
  let s := (s.setPart p { (s.part p) with state := 2, spillScrub := true, spillRecord := false }).faultPartition p
  let s := ((s.endGroups p).releasePlacement p).zeroPartition p
  let s := s.scrubSpill p bytes
  s.forEach (s.partDevs p) State.orderScrub

/-- PART_END (R330): SEC_PART.ACTION = 2 for the partition of SEC_PART_SEL. -/
def execPartEnd (lvl : Level) (v : Word64) (s : State) : Answer :=
  match lvl with
  | .tenant => .next (s.violation lvl)
  | _ =>
    if SEC_PART_ACTION.of v ≠ 2 then .next s
    else
      let p := s.fld SEC_PART_SEL_PARTITION
      if (s.part p).state = 1 then .next (s.endPartition p) else .next s.refuseAction

/-- PART_FREE (R330): an ending partition goes once no device of it scrubs and its spill record is written. -/
def execPartFree (part : Nat) (s : State) : Answer :=
  let x := s.part part
  let busy := s.sec.devs.any fun d => d.2.state == 2 && d.2.former.toNat == part
  if x.state = 2 ∧ x.spillRecord ∧ busy = false then .next ((s.setPart part {}).dropGroups part) else .next s

end Sys2Proof.Machine
end

