-- ==== Sys2Proof/Machine/Faults.lean ====
section
/-! DEFINITION. Blocks of the controller (R360): what the loss of each brings (R36, R37), reaction shadows (R374, R375),
partial resets (R377 to R381, R427) and fences (R397). -/

namespace Sys2Proof.Machine

/-! ## Blocks and sources (R359, R360) -/

/-- The block of a controller source; none for the functional blocks, engines, rails and operator-posted sources. -/
def blockOf (n : Nat) : Option Nat :=
  if 0x0200 ≤ n ∧ n < 0x02C0 then some ((n - 0x0200) / 0x40)
  else if 0x0400 ≤ n ∧ n < 0x1000 then some (3 + (n - 0x0400) / 0x100)
  else if 0x1000 ≤ n ∧ n < 0x1600 then some (15 + (n - 0x1000) / 0x40)
  else if 0x1600 ≤ n ∧ n < 0x1780 then some (39 + (n - 0x1600) / 0x20)
  else if 0x1800 ≤ n ∧ n < 0x1900 then some (51 + (n - 0x1800) / 0x20)
  else if 0x1900 ≤ n ∧ n < 0x1A00 then some (59 + (n - 0x1900) / 0x40)
  else if 0x1A00 ≤ n ∧ n < 0x1A40 then some 63
  else none

/-- A block's own source: the first of its range. -/
def blockSource (b : Nat) : Nat :=
  if b < 3 then 0x0200 + 0x40 * b
  else if b < 15 then 0x0400 + 0x100 * (b - 3)
  else if b < 39 then 0x1000 + 0x40 * (b - 15)
  else if b < 51 then 0x1600 + 0x20 * (b - 39)
  else if b < 59 then 0x1800 + 0x20 * (b - 51)
  else if b < 63 then 0x1900 + 0x40 * (b - 59)
  else 0x1A00

/-- The bridge source of a block, where its range has one: bridges of arbiters, CF, port and table-store dies, and the stack
link of a memory stack (R359). -/
def bridgeSource (b : Nat) : Option Nat :=
  if b < 3 then some (blockSource b + 3)
  else if b < 15 then some (blockSource b + 8)
  else if b < 39 then some (blockSource b + 23)
  else if b < 51 then some (blockSource b + 3)
  else if b < 59 then some (blockSource b + 4)
  else none

/-- Mesh neighbours of a router (R14). -/
def meshNext (a b : Nat) : Bool :=
  (a / 4 == b / 4 && (a % 4 + 1 == b % 4 || b % 4 + 1 == a % 4)) || (a % 4 == b % 4 && (a / 4 + 1 == b / 4 || b / 4 + 1 == a / 4))

/-- Two blocks are attached to each other (R13, R14). -/
def attached (a b : Nat) : Bool :=
  let isCf := fun (x : Nat) => decide (3 ≤ x ∧ x < 15)
  let isStack := fun (x : Nat) => decide (51 ≤ x ∧ x < 59)
  let hub := fun (x : Nat) => decide (x < 3 ∨ x = 63)
  (isCf a && isCf b && meshNext (a - 3) (b - 3))
    || (isCf a && !isCf b && !isStack b && (dieRouters b).contains (a - 3))
    || (isCf b && !isCf a && !isStack a && (dieRouters a).contains (b - 3))
    || (isStack a && b + 12 == a) || (isStack b && a + 12 == b)
    || (hub a && hub b && a != b)

/-! ## FLT_BLKn (R379, R391) -/

/-- The register of a block. -/
def State.blk (s : State) (f : Field) (b : Nat) : Nat := s.fld (f.at (fltBlk b))

/-- Sets a field of a block's register. -/
def State.setBlk (s : State) (f : Field) (b v : Nat) : State := s.setFld (f.at (fltBlk b)) v

/-- FLT_STATUS.BLOCKS_OPEN and WORST_OPEN (R391). -/
def State.showBlocks (s : State) : State :=
  let out := (List.range 64).filter fun b => s.blk FLT_BLKn_STATE b != 0
  (s.setFld FLT_STATUS_BLOCKS_OPEN out.length).setFld FLT_STATUS_WORST_OPEN ((out.map (s.blk FLT_BLKn_WORST)).foldl max 0)

/-- Restarts a block's quiet period (R380). -/
def State.restartQuiet (s : State) (b : Nat) : State :=
  { s with col := { s.col with quietUntil := s.col.quietUntil.set b (s.now + s.blk FLT_BLKn_QUIET_MS b * 1000000) } }

/-- A block enters a state; out of service it counts as dead. -/
def State.setBlockState (s : State) (b st : Nat) : State :=
  let dead := s.pwr.deadBlocks.filter (· != b)
  let s : State := { s with pwr := { s.pwr with deadBlocks := if 2 ≤ st then dead ++ [b] else dead
                                                pipsCleared := s.pwr.pipsCleared.filter (· != b) } }
  (s.setBlk FLT_BLKn_STATE b st).showBlocks

/-! ## Shadows (R374, R375) -/

/-- An event is of the sources of a port of a node: an agent's source for the port, or the three of a controller port. -/
def State.evAtPort (s : State) (ev : Event) (f : Fid) (p : Nat) : Bool :=
  ev.origin == f &&
    if f = s.fid then !ev.agentOrigin && [12, 15, 18].any fun o => ev.source == portSource o p
    else ev.port == p && ev.source == 128 + p / 8

/-- The far end of a port: the controller's view of the link, or what the controller's own port has learned (R91). -/
def State.portFar (s : State) (f : Fid) (p : Nat) : Option (Fid × Nat) :=
  match s.farEnd f p with
  | some x => some x
  | none => if f = s.fid then (let x := s.port .ctl p; if x.farId = noFid then none else some (x.farId, x.farPort)) else none

/-- An event lies in the scope of a shadow (R374). -/
def State.inScope (s : State) (x : Shadow) (ev : Event) : Bool :=
  if x.kind < 64 then
    !ev.agentOrigin && ev.origin == s.fid &&
      (blockOf ev.source == some x.kind || (List.range 64).any fun b => attached x.kind b && bridgeSource b == some ev.source)
  else if x.kind = 64 then
    s.evAtPort ev x.origin x.port || (match s.portFar x.origin x.port with | some (f, p) => s.evAtPort ev f p | none => false)
  else if x.kind = 65 then
    ev.origin == x.origin || s.dom.links.any fun l =>
      (l.aId == x.origin && s.evAtPort ev l.bId l.bPort) || (l.bId == x.origin && s.evAtPort ev l.aId l.aPort)
  else ev.origin == x.origin && decide (192 ≤ ev.source ∧ ev.source ≤ 223)

/-- A time lies in a shadow, both ends included (R375, R393). -/
def Shadow.at (x : Shadow) (t : Nat) : Bool :=
  decide (x.openNs ≤ t) && (match x.closeNs with | some c => decide (t ≤ c) | none => true)

/-- An event is shadowed. -/
def State.shadowed (s : State) (ev : Event) : Bool := s.col.shadows.any fun x => x.at ev.timeNs && s.inScope x ev

/-- A block's own shadow is open. -/
def State.ownShadowOpen (s : State) (b : Nat) : Bool := s.col.shadows.any fun x => x.kind == b && x.at s.now

/-- Opens a block's shadow from a time on. -/
def State.openShadow (s : State) (b t : Nat) : State :=
  ({ s with col := { s.col with shadows := s.col.shadows ++ [{ kind := b, origin := s.fid, openNs := t }] } } : State).setBlk
    FLT_BLKn_SHADOW b 1

/-- The open shadows of a kind and place close at a time. -/
def State.closeShadows (s : State) (f : Shadow → Bool) (t : Nat) : State :=
  let l := s.col.shadows.map fun x => if f x && x.closeNs.isNone then { x with closeNs := some t } else x
  { s with col := { s.col with shadows := l } }

/-! ## Takeover and FAULT_N (R361, R382) -/

/-- Asserts FAULT_N. -/
def State.assertFaultN (s : State) : State :=
  ({ s with pwr := { s.pwr with faultN := false } } : State).setFld FLT_STATUS_FAULTN 1

/-- The controller requests takeover; without a standby a controller reset is due (R361, R426). -/
def State.requestTakeover (s : State) : State :=
  { s with col := { s.col with takeoverReq := true, resetDue := s.col.resetDue || !s.hasStandby } }

/-! ## What the loss of a die brings (R36) -/

/-- A CF die is out: its router is lost, its quarters are dark, and instances with squares on it are reloaded. -/
def State.cfOut (s : State) (cf : Nat) : State :=
  let down := if s.noc.routersDown.contains cf then s.noc.routersDown else s.noc.routersDown ++ [cf]
  let s : State := { s with noc := { pairs := s.noc.pairs.map fun p => p.reroute cf, routersDown := down } }
  let keys := ((s.sq.tiles.filter fun t => t.quarter / 4 == cf).map fun t => (t.image, t.inst)).dedup
  let s : State := { s with sq := { s.sq with
    tested := s.sq.tested.filter fun q => q / 4 != cf, suspect := s.sq.suspect.filter fun x => x / 2304 != cf
    ungate := s.sq.ungate.filter fun x => x.2 / 4 != cf } }
  let s := (s.forEach ((List.range 4).map (4 * cf + ·)) fun s q => s.setQuarter q .gated).startRamp
  (s.forEach keys fun s k => s.unloadInstance k.1 k.2 cf false).showCfb

/-- A port die is out: its three ports are down and their keys zeroised (R36, R434). -/
def State.pdOut (s : State) (pd : Nat) : State :=
  (s.forEach ((List.range 3).map (3 * pd + ·)) fun s p =>
    let s := s.resetPort .ctl p
    s.setPort .ctl p { s.port .ctl p with state := 0, key := 0, txCtr := 0, txFrames := 0, rxFrames := 0, lastRx := none, txAct := none
                                          rxAct := none, txKey := {}, rxKey := {}, txNext := {}, rxNext := {} }).showPorts

/-- Regions of the table store on a die (R24): route tables 0, slot tables 1, gambits 2 and 3, root buffers 4, work 5. -/
def regionOf (ts : Nat) : Nat := if ts < 4 then 0 else if ts = 4 then 1 else if ts < 7 then 2 else if ts < 9 then 3 else if ts < 11 then 4 else 5

/-- The first die of a region. -/
def regionFirst (r : Nat) : Nat := [0, 4, 5, 7, 9].getD r 11

/-- The content of a region on a die of the table store (R24). -/
def State.dieCells (s : State) (ts : Nat) : Memory :=
  (s.store.getD (regionOf ts) []).filter fun c => c.1 / 1073741824 == ts - regionFirst (regionOf ts)

/-- Bytes the table-compiler work region holds: install sets and rebuilt content. -/
def State.workBytes (s : State) : Nat :=
  (s.sets.map fun x => x.2.size).sum + (s.store.getD 5 []).length + (s.pwr.rebuilt.map fun t => (s.dieCells t).length).sum

/-- A table-store die is out (R36): what was on it is rebuilt into TS11 when it fits 1 GiB there. A single-copy region that does
not fit makes the controller request takeover, a gambit copy is served from the other. DESIGN CHOICE (log entry 152): the loss
of TS11 has no row in R36; its install sets and what was rebuilt there are gone. -/
def State.tsOut (s : State) (ts : Nat) : State :=
  let r := regionOf ts
  if r = 5 then { s with sets := [], pwr := { s.pwr with rebuilt := [] } }
  else if (s.dieCells ts).length + s.workBytes ≤ 1073741824 ∧ s.pwr.deadBlocks.contains 50 = false then
    { s with pwr := { s.pwr with rebuilt := s.pwr.rebuilt ++ [ts] } }
  else if r = 2 ∨ r = 3 then s
  else s.requestTakeover

/-- Cuts spill reserves in descending admission number until they fit (R326); each cut is an event. -/
def State.cutSpill (s : State) : List AdmittedFoot → Nat → State
  | [], _ => s
  | f :: t, excess =>
    if excess = 0 then s
    else
      let cut := min f.spill excess
      let s : State := { s with plc := { s.plc with
        feet := s.plc.feet.map fun x => if x.number == f.number then { x with spill := x.spill - cut } else x } }
      (if cut = 0 then s else s.raise srcPLC 2 (BitVec.ofNat 16 f.number)).cutSpill t (excess - cut)

/-- A memory stack is out: a quarter of one system-area copy and its spill pages are gone (R36, R321, R326). -/
def State.stackOut (s : State) (m : Nat) : State :=
  let s := s.setFld (if m < 4 then LED_STATUS_COPY_A_OK else LED_STATUS_COPY_B_OK) 0
  let onIt := fun (e slot : Nat) => e == 0xFFFF && slot % 8 == m
  let pages := (s.plc.pages.filter fun x => onIt x.2.endpoint x.2.slot && x.2.state != 4).map (·.1)
  let s : State := { s with plc := { s.plc with moves := s.plc.moves.filter fun v => !onIt v.endpoint v.slot } }
  let s := s.losePages pages
  let live := 8 - ((List.range 8).filter fun k => s.pwr.deadBlocks.contains (51 + k)).length
  let total := (s.plc.feet.map (·.spill)).sum
  (s.cutSpill (s.plc.feet.mergeSort fun a b => decide (b.number ≤ a.number)) (total - live * 34359738368)).showPlc

/-- Sync is lost: cause and event; nested schedules become unfit (R142, R466). -/
def State.loseSync (s : State) (cause : Nat) : State :=
  let s := ((s.setFld SCH_SYNC_STATUS_STATE 3).setFld SCH_SYNC_STATUS_CAUSE cause).raise 0x60 2 (BitVec.ofNat 16 cause)
  let s : State := { s with time := { s.time with lostNs := some s.now, edge := none } }
  if s.sch.admitted.any fun a => a.sched.nestedBudget.isSome then s.unfitNested.lapse 0x000B 0 else s

/-- H3 drives the time bridge (R30). -/
def State.switchTime (s : State) : State :=
  if s.fld TIM_TICK_SOURCE = 1 then s
  else
    let s := (s.setFld TIM_TICK_SOURCE 1).satFld TIM_STATUS_SWITCHOVERS 1
    let s := if s.fld TIM_STATUS_PPS = 1 then s.setFld TIM_STATUS_PPS 2 else s
    (if s.fld TIM_STATUS_PTP = 0 then s else s.setFld TIM_STATUS_PTP 4).loseSync 4

/-- The sync slew accumulator on H2 returns to its default (R433, R434). -/
def State.clearAccum (s : State) : State :=
  ({ s with time := { s.time with announced := [] } } : State).setFld SCH_SYNC_STATUS_ACCUM 0

/-- A hub is out (R36, R434). -/
def State.hubOut (s : State) (h : Nat) : State :=
  if h = 2 then s.switchTime.clearAccum else if h = 3 then s.setFld LED_FLASH_FLASH_OK 0 else s

/-- The response to a block that is out (R36). -/
def State.blockOut (s : State) (b : Nat) : State :=
  if b < 3 then s
  else if b < 15 then s.cfOut (b - 3)
  else if b < 39 then s.pdOut (b - 15)
  else if b < 51 then s.tsOut (b - 39)
  else if b < 59 then s.stackOut (b - 51)
  else if b < 63 then s.hubOut (b - 59)
  else s.requestTakeover

/-- The severity of a block's loss (R36). -/
def lossSeverity (b : Nat) : Nat :=
  if 44 ≤ b ∧ b ≤ 47 then 2 else if 59 ≤ b ∧ b ≤ 62 then 2 else if b = 63 then 4 else 3

/-- The loss of `b` beside the dead ones removes the last copy of some state (R27, R37); `rebuilt` names the table-store dies
whose content stands in TS11, block 50. TSn is block 39 + n. -/
def lastCopy (dead rebuilt : List Nat) (b : Nat) : Bool :=
  let has := fun (x : Nat) => dead.contains x
  let other := fun (ts : Nat) => if 5 ≤ ts ∧ ts ≤ 6 then has (41 + ts) else if 7 ≤ ts ∧ ts ≤ 8 then has (37 + ts) else true
  (decide (44 ≤ b ∧ b ≤ 45) && has (b + 2) && !rebuilt.contains (b - 37))
    || (decide (46 ≤ b ∧ b ≤ 47) && has (b - 2) && !rebuilt.contains (b - 41)) || (b == 50 && rebuilt.any other)
    || (decide (51 ≤ b ∧ b ≤ 54) && [55, 56, 57, 58].any has) || (decide (55 ≤ b ∧ b ≤ 58) && [51, 52, 53, 54].any has)
    || (b == 61 && has 62) || (b == 62 && has 61)

/-! ## Fences (R397, R398) -/

/-- An arbiter is in the vote. -/
def State.votes (s : State) (die : Nat) : Bool := s.fld TRI_STATUS_VOTING / 2 ^ die % 2 == 1

/-- The event of a gate that fences a die, and the fence itself at the next tick. -/
def State.orderFence (s : State) (die gate : Nat) : State :=
  if s.votes die = false ∨ s.tri.fencing.any (fun x => x.1 == die) then s
  else { s with tri := { s.tri with fencing := s.tri.fencing ++ [(die, gate)] } }

/-- A gate fences a die under R395: severity 3 on its divergence source with the gate's index, DIVERGENCES counts. -/
def State.gateFence (s : State) (die gate : Nat) : State :=
  let s := (s.raise (0x0200 + 0x40 * die + 4) 3 (BitVec.ofNat 16 gate)).satFld TRI_STATUS_DIVERGENCES 1
  ({ s with tri := { s.tri with divergences := s.tri.divergences + 1 } } : State).orderFence die gate

/-! ## Partial resets (R377, R381, R426) -/

/-- A block that leaves service with the last copy of some state: the collector raises severity 4 on its own source, with the block
as detail, and the controller requests takeover (R37, R393; log entry 176). -/
def State.noteLastCopy (s : State) (b : Nat) : State :=
  if s.pwr.deadBlocks.contains b = false ∧ lastCopy s.pwr.deadBlocks s.pwr.rebuilt b then
    (s.raise 0x0010 4 (BitVec.ofNat 16 b)).requestTakeover
  else s

/-- A block's reset begins: RESET, its shadow, its response (R36, R374, R379). -/
def State.startReset (s : State) (b : Nat) : State :=
  let out := s.pwr.deadBlocks.contains b
  let s := ((s.noteLastCopy b).setBlockState b 2).openShadow b s.now
  let resets := (s.pwr.resets.filter fun x => x.1 != b) ++ [(b, s.now)]
  let s : State := { s with pwr := { s.pwr with resets := resets }, col := { s.col with
    resetStart := s.col.resetStart.set b s.now, quietUntil := s.col.quietUntil.erase b } }
  let s := s.showQuote
  if out then s else s.blockOut b

/-- A block is retired (R378, R379, R381). -/
def State.retire (s : State) (b : Nat) : State :=
  let out := s.pwr.deadBlocks.contains b
  let s := s.noteLastCopy b
  let s : State := { s with pwr := { s.pwr with resets := s.pwr.resets.filter fun x => x.1 != b }
                            col := { s.col with quietUntil := s.col.quietUntil.erase b } }
  let s := (s.setBlockState b 3).showQuote
  let s : State := { s with sq := { s.sq with reloads := s.sq.reloads.filter fun r => !(r.stuck && r.die + 3 == b) } }
  if out then s else s.blockOut b

/-- Counts the severity into WORST (R391). -/
def State.worst (s : State) (b sev : Nat) : State :=
  s.setBlk FLT_BLKn_WORST b (if s.blk FLT_BLKn_STATE b = 0 then sev else max sev (s.blk FLT_BLKn_WORST b))

/-- What an unshadowed controller event does beside its record (R361, R379 to R382); answers the event as recorded, raised
one severity where its reset is not performed (R377). -/
def State.respond (s : State) (ev : Event) : State × Event :=
  let fatal := fun (s : State) (ev : Event) => if ev.severity = 4 then s.requestTakeover else s
  let note := fun (s : State) (ev : Event) => if s.fld FLT_CFG_FAULTN_SEV ≤ ev.severity ∨ ev.severity = 4 then s.assertFaultN else s
  match blockOf ev.source with
  | none => (fatal (note s ev) ev, ev)
  | some b =>
    let st := s.blk FLT_BLKn_STATE b
    let repeats := ev.severity == 3 && decide (st ≤ 1) && s.ownShadowOpen b
    let ev := if repeats then { ev with severity := 4, escalated := true, shadow := false } else ev
    let s := note s ev
    let s := if 1 ≤ ev.severity ∧ st = 1 then s.restartQuiet b else s
    let s := if 2 ≤ ev.severity ∨ st ≠ 0 then (s.worst b ev.severity).showBlocks else s
    let limit := s.blk FLT_BLKn_PIP_LIMIT b
    let s :=
      if ev.severity = 4 then (let s := if st = 3 then s else s.retire b; if b < 3 then s.orderFence b 0 else s)
      else if ev.severity = 3 ∧ st ≤ 1 then
        if limit ≠ 0 ∧ limit ≤ s.blk FLT_BLKn_PIPS b then s.retire b
        else if b < 3 then s.orderFence b 0
        else if b = 63 then (s.setBlockState b 1).restartQuiet b
        else s.startReset b
      else if ev.severity = 2 ∧ st = 0 then (s.setBlockState b 1).restartQuiet b
      else s
    (fatal s ev, ev)

/-! ## Commands -/

/-- DIE_LOST (R36, R37): the event at the die's severity and its response; the loss of the last copy of some state is
severity 4. -/
def execDieLost (block : Nat) (s : State) : Answer :=
  if 64 ≤ block ∨ s.pwr.deadBlocks.contains block then .next s
  else if block < 3 then
    .next ((s.raise (blockSource block) 3).orderFence block 0)
  else
    let last := lastCopy s.pwr.deadBlocks s.pwr.rebuilt block
    let s := s.raise (blockSource block) (if last then 4 else lossSeverity block)
    let s : State := { s with pwr := { s.pwr with deadBlocks := s.pwr.deadBlocks ++ [block] } }
    let s := s.blockOut block
    .next (if last then s.requestTakeover else s)

/-- PWR_CTRL.BLOCK_RESET for the block a write names (R427, R377, R381). -/
def State.orderBlockReset (s : State) (lvl : Level) (v : Word64) : State :=
  let b := PWR_CTRL_BLOCK.of v
  let s := s.setFld PWR_CTRL_BLOCK b
  if PWR_CTRL_BLOCK_RESET.of v = 0 then s
  else if b < 3 ∨ b = 63 then s.violation lvl
  else if s.blk FLT_BLKn_STATE b = 3 ∧ !s.pwr.pipsCleared.contains b then s
  else if s.ownShadowOpen b ∨ s.blk FLT_BLKn_STATE b = 2 then
    s.present { origin := s.fid, source := blockSource b, severity := 4, timeNs := s.now, escalated := true }
  else s.startReset b

/-- BLOCK_RESET (R427, R4). -/
def execBlockReset (lvl : Level) (v : Word64) (s : State) : Answer :=
  match lvl with
  | .tenant => .next (s.violation lvl)
  | _ => .next (s.orderBlockReset lvl v)

/-- A table-store die is back (R24, R36, R434): what was rebuilt into TS11, or stands in the other gambit copy, is written back;
the rest of its content is lost. -/
def State.tsBack (s : State) (ts : Nat) : State :=
  let r := regionOf ts
  let twin := if r = 2 then ts + 2 else ts - 2
  let kept := s.pwr.rebuilt.contains ts || ((r == 2 || r == 3) && (!s.pwr.deadBlocks.contains (39 + twin) || s.pwr.rebuilt.contains twin))
  let s : State := { s with pwr := { s.pwr with rebuilt := s.pwr.rebuilt.filter (· != ts) } }
  if kept then s
  else { s with store := s.store.set r ((s.store.getD r []).filter fun c => c.1 / 1073741824 != ts - regionFirst r) }

/-- A block is back in service (R36): routers and ports come back, instances that found no room are loaded again (R35), a copy is
rewritten, what waited for a hub goes. -/
def State.blockBack (s : State) (b : Nat) : State :=
  if 3 ≤ b ∧ b < 15 then
    let s := ({ s with noc := { s.noc with routersDown := s.noc.routersDown.filter (· != b - 3) } } : State).showCfb
    s.forEach (s.sq.reloads.filter fun r => r.stuck && r.die == b - 3) State.tryReload
  else if 15 ≤ b ∧ b < 39 then
    (s.forEach ((List.range 3).map (3 * (b - 15) + ·)) fun s p => (s.setPort .ctl p { s.port .ctl p with state := 1, trainNs := s.now }).queueWake p 0).showPorts
  else if 39 ≤ b ∧ b < 51 then s.tsBack (b - 39)
  else if 59 ≤ b ∧ b ≤ 60 then s.releaseHub (b - 59)
  else if 51 ≤ b ∧ b < 55 then if [51, 52, 53, 54].any s.pwr.deadBlocks.contains then s else s.setFld LED_STATUS_COPY_A_OK 1
  else if 55 ≤ b ∧ b < 59 then if [55, 56, 57, 58].any s.pwr.deadBlocks.contains then s else s.setFld LED_STATUS_COPY_B_OK 1
  else if b = 62 then s.setFld LED_FLASH_FLASH_OK 1
  else s

/-- BLOCK_RESET_DONE (R375, R379, R398): the known-answer run of a reset has its result; an arbiter that passes goes on to
its resync. A reset the controller did not order carries its start. -/
def execBlockResetDone (block : Nat) (katPass : Bool) (startNs : Nat) (s : State) : Answer :=
  if 64 ≤ block then .next s
  else
    let ordered := s.pwr.resets.any fun x => x.1 == block
    let s := if ordered then s else s.openShadow block startNs
    let s : State := { s with pwr := { s.pwr with resets := s.pwr.resets.filter fun x => x.1 != block } }
    if block < 3 then
      if katPass = false then .next (((s.closeShadows (fun x => x.kind == block) (s.now + 20000)).retire block).setFld TRI_STATUS_PHASE 0)
      else if s.fld TRI_CFG_AUTO_RESYNC = 1 then
        .next (((s.setFld TRI_STATUS_PHASE 3).setFld TRI_STATUS_RESYNC_DIE block).showQuote)
      else .next ((s.setFld TRI_STATUS_PHASE 0).showQuote)
    else
      let s := s.closeShadows (fun x => x.kind == block) (s.now + 20000)
      if s.blk FLT_BLKn_STATE block = 3 then .next s.showQuote
      else if katPass then .next (((s.setBlockState block 1).restartQuiet block).blockBack block).showQuote
      else .next (s.retire block)

/-- RESET_TIMEOUT (R378): a reset not complete 100 ms after its start retires its block. -/
def execResetTimeout (block : Nat) (s : State) : Answer :=
  match s.pwr.resets.find? fun x => x.1 == block with
  | none => .next s
  | some x =>
    if s.now < x.2 + 100000000 then .next s
    else
      let s := (s.closeShadows (fun y => y.kind == block) (s.now - 1)).retire block
      .next (s.present { origin := s.fid, source := blockSource block, severity := 3, timeNs := s.now, escalated := true })

/-- SHADOW_CLOSE (R375): a block's shadow closes 20 µs after its reset completed. -/
def execShadowClose (block : Nat) (s : State) : Answer :=
  let l := s.col.shadows.filter fun x => !(x.kind == block && (match x.closeNs with | some c => decide (c < s.now) | none => false))
  let s : State := { s with col := { s.col with shadows := l } }
  .next (if block < 64 ∧ !(l.any fun x => x.kind == block) then s.setBlk FLT_BLKn_SHADOW block 0 else s)

/-- QUIET_EXPIRE (R379, R380): a quiet period passes: back to SERVICE, PIPS increases by 1. -/
def execQuietExpire (block : Nat) (s : State) : Answer :=
  match s.col.quietUntil.get block with
  | some t =>
    if t ≤ s.now ∧ s.blk FLT_BLKn_STATE block = 1 then
      let s : State := { s with col := { s.col with quietUntil := s.col.quietUntil.erase block } }
      .next ((s.satFld (FLT_BLKn_PIPS.at (fltBlk block)) 1).setBlockState block 0)
    else .next s
  | none => .next s

end Sys2Proof.Machine
end

