-- ==== Sys2Proof/Machine/Collector.lean ====
section
/-! DEFINITION. The fault collector (R364 to R373, R382) and the ledger (R383 to R389). -/

namespace Sys2Proof.Machine

/-! ## The ingress queue (R369 to R372) -/

/-- Entries of the reserved and the general part in use. -/
def reservedUsed (l : List QEntry) : Nat := (l.filter (·.reserved)).length
def generalUsed (l : List QEntry) : Nat := (l.filter fun e => !e.reserved).length

/-- FLT_STATUS.QUEUE_USED and QUEUE_PEAK (R391). -/
def State.showQueue (s : State) : State :=
  let n := s.col.queue.length
  let s := s.setFld FLT_STATUS_QUEUE_USED n
  s.setFld FLT_STATUS_QUEUE_PEAK (max n (s.fld FLT_STATUS_QUEUE_PEAK))

/-- Two events agree in the sense of R370. -/
def identicalEvents (a b : Event) : Bool := a.origin == b.origin && a.same b

/-- The field of FLT_DROP of a severity. -/
def dropField : Nat → Field
  | 0 => FLT_DROP_SEV0
  | 1 => FLT_DROP_SEV1
  | _ => FLT_DROP_SEV2

/-- Drops of a severity are counted, also for the millisecond's summary (R371, R388). -/
def State.noteDropped (s : State) (sev n : Nat) : State :=
  let s := s.satFld (dropField sev) n
  { s with led := { s.led with drops := listSet s.led.drops sev (s.led.drops.getD sev 0 + n) } }

/-- The lowest severity below `sev` among queued entries. -/
def lowestBelow (l : List QEntry) (sev : Nat) : Option Nat := (List.range (min sev 3)).find? fun v => l.any fun e => e.ev.severity == v

/-- Replaces the queue. -/
def State.setIngress (s : State) (l : List QEntry) : State := ({ s with col := { s.col with queue := l } } : State).showQueue

/-- Merges into the newest queued entry of the event's origin and source, where identical (R370). -/
def mergeQueued (l : List QEntry) (ev : Event) : Option (List QEntry) :=
  match l.reverse.find? fun e => e.ev.origin == ev.origin && e.ev.source == ev.source with
  | none => none
  | some e =>
    if identicalEvents e.ev ev then
      let y := { e with ev := { e.ev with count := e.ev.count + ev.count, capture := e.ev.capture <|> ev.capture }
                        lastNs := max e.lastNs ev.timeNs }
      some (updateFirst (· == y) (fun _ => y) ((updateFirst (· == e) (fun _ => y) l.reverse).reverse))
    else none

/-- An event arrives (R370, R371); none when it has to be held at its ingress die. -/
def State.ingest (s : State) (ev : Event) : Option State :=
  let l := s.col.queue
  match mergeQueued l ev with
  | some m => some (s.setIngress m)
  | none =>
    let put := fun (s : State) (l : List QEntry) (r : Bool) => s.setIngress (l ++ [{ ev := ev, reserved := r }])
    if 3 ≤ ev.severity ∧ reservedUsed l < 256 then some (put s l true)
    else if generalUsed l < 3840 then some (put s l false)
    else match lowestBelow l ev.severity with
      | some v =>
        let gone := (l.reverse.find? fun e => e.ev.severity == v).map (·.ev.count)
        some (put (s.noteDropped v (gone.getD 1)) (removeLast (fun e => e.ev.severity == v) l) false)
      | none => if 3 ≤ ev.severity then none else some (s.noteDropped ev.severity ev.count)

/-- The oldest event on its way to the collector arrives, unless it is held. -/
def State.ingestNext (s : State) : State :=
  match s.col.raised with
  | [] => s
  | ev :: t => match ({ s with col := { s.col with raised := t } } : State).ingest ev with
    | some x => x
    | none => s

/-- EVENT_INGRESS (R369 to R371): the next event in the merge order arrives; a further event joins that order first. -/
def execEventIngress (ev : Option Event) (s : State) : Answer :=
  match ev with
  | some e => .next (s.present e).ingestNext
  | none => .next s.ingestNext

/-! ## Service (R373) -/

/-- Deliveries to LRE0 that found no room go as soon as there is room (R373), after the pause of a resync (R402). -/
def State.flushLre0 (s : State) : State :=
  match s.col.lre0Wait with
  | [] => s
  | ev :: t =>
    if s.pausing = false && (s.engine 0).inboxRoom 0 ev.severity then
      ({ s with col := { s.col with lre0Wait := t } } : State).inboxPut 0 ev.severity
        (Config.inboxMessage 2 ev.source ev.severity ev.detail)
    else s

/-- Delivery of a served event: subscribers, LRE0, and the link, port, switch or endpoint an agent event concerns
(R361, R373, R376). -/
def State.deliver (s : State) (ev : Event) (live : Bool) : State :=
  let m := Config.inboxMessage 2 ev.source ev.severity ev.detail
  let hit := s.col.subs.filter fun x => decide (x.2.1 ≤ ev.source ∧ ev.source ≤ x.2.2.1 ∧ x.2.2.2 ≤ ev.severity)
  let es := ((hit.map (·.1)).dedup).filter fun e => !(e == 0 && live && decide (3 ≤ ev.severity))
  let s := s.forEach es fun s e => s.inboxPut e ev.severity m
  if live = false ∨ ev.severity < 3 then s
  else
    let s := ({ s with col := { s.col with lre0Wait := s.col.lre0Wait ++ [ev] } } : State).flushLre0
    let s := if ev.port ≠ 0xFFFF ∧ (ev.agentOrigin ∨ portSource 12 ev.port = ev.source) then s.reportDown ev.origin ev.port else s
    if ev.agentOrigin ∧ ev.severity = 4 then s.treatFailed ev.origin else s

/-- The record an event becomes (R384), with the time of its latest occurrence. -/
def State.recordOf (s : State) (ev : Event) (lastNs : Nat) : LedgerRec :=
  let t := s.time.operNs - (s.now - ev.timeNs)
  let u := s.time.operNs - (s.now - max ev.timeNs lastNs)
  { firstMs := t / 1000000, firstTick := t % 1000000 / 128, lastMs := u / 1000000, pcycle := s.fld LED_PCYCLE_COUNT
    origin := ev.origin, source := ev.source, severity := ev.severity, shadow := ev.shadow, escalated := ev.escalated
    forced := ev.forced, typ := if ev.security then 3 else 0, tally := ev.count, detail := ev.detail, port := ev.port
    capture := ev.capture, addr := ev.object, pips := 0 }

/-- LED_STATUS.BACKLOG (R392). -/
def State.showBacklog (s : State) : State := s.setFld LED_STATUS_BACKLOG (min s.led.buffer.length 65536)

/-- A record goes to the writer (R373, R387). -/
def State.toWriter (s : State) (r : LedgerRec) : State :=
  ({ s with led := { s.led with buffer := s.led.buffer ++ [r] } } : State).showBacklog

/-- Serves one event (R373, R376, R365). -/
def State.serve (s : State) (ev : Event) (lastNs : Nat) : State :=
  let ev := if s.shadowed ev ∧ ev.escalated = false then { ev with shadow := true } else ev
  let live := !(ev.forced && s.fld FLT_CFG_FORCE_SAFE == 1)
  let x := if live && !ev.agentOrigin && !ev.shadow then s.respond ev else (s, ev)
  let s := x.1.deliver x.2 live
  s.toWriter (s.recordOf x.2 lastNs)

/-- The entry served next: severity 3 and 4 first, each kind in merge order. -/
def nextServed (l : List QEntry) : Option QEntry :=
  match l.find? fun e => decide (3 ≤ e.ev.severity) with
  | some e => some e
  | none => l.head?

/-- EVENT_SERVE (R372, R373, R387): 250 ns of account time serve one entry, while the writer's buffer has room. In the pause of a
resync the collector stands at an entry boundary (R401). -/
def execEventServe (s : State) : Answer :=
  let s := s.flushLre0
  match nextServed s.col.queue with
  | none => .next s
  | some e =>
    if s.col.accountNs < 250 ∨ 65536 ≤ s.led.buffer.length ∨ s.pausing then .next s
    else
      let l := removeFirst (· == e) s.col.queue
      let s : State := { s with col := { s.col with accountNs := if l.isEmpty then 0 else s.col.accountNs - 250 } }
      .next ((s.setIngress l).serve e.ev e.lastNs)

/-! ## The ledger writer (R385 to R387) -/

/-- The newest record of an origin and source in the ring. -/
def State.newestRec (s : State) (origin : Fid) (source : Nat) : Option LedgerRec :=
  s.led.ring.foldl (fun m x =>
    if x.2.origin = origin ∧ x.2.source = source then
      match m with
      | none => some x.2
      | some (r : LedgerRec) => if r.seq < x.2.seq then some x.2 else some r
    else m) none

/-- Identical in the sense of R370, and of one type. -/
def LedgerRec.same (a b : LedgerRec) : Bool :=
  a.port == b.port && a.severity == b.severity && a.detail == b.detail && a.shadow == b.shadow && a.forced == b.forced
    && a.typ == b.typ

/-- PIPS of the record's block (R384). -/
def State.pipsOf (s : State) (r : LedgerRec) : Nat :=
  if r.origin ≠ s.fid then 0
  else match blockOf r.source with
    | some b => s.blk FLT_BLKn_PIPS b
    | none => 0

/-- LED_FLASH.LAG (R392). -/
def State.showLag (s : State) : State := s.setFld LED_FLASH_LAG (min s.led.flashQ.length 0xFFFFFF)

/-- A record of severity 2 or more is to be copied (R389). -/
def State.queueFlash (s : State) (r : LedgerRec) : State :=
  if r.severity < 2 ∨ s.led.flashQ.contains r.seq then s
  else ({ s with led := { s.led with flashQ := s.led.flashQ ++ [r.seq] } } : State).showLag

/-- A record closes: copied once more when its tally outgrew the copy (R389). -/
def State.closeRecord (s : State) (r : LedgerRec) : State :=
  let s : State := { s with led := { s.led with mergedNs := s.led.mergedNs.erase r.seq } }
  if s.led.flashTally.getD r.seq 0 < r.tally then s.queueFlash r else s

/-- A record that a new one overwrites: uncopied, it counts as missed (R389). -/
def State.overwrite (s : State) (i : Nat) : State :=
  match s.led.ring.get i with
  | none => s
  | some r =>
    let s : State := { s with led := { s.led with mergedNs := s.led.mergedNs.erase r.seq, flashTally := s.led.flashTally.erase r.seq } }
    if s.led.flashQ.contains r.seq then
      (({ s with led := { s.led with flashQ := s.led.flashQ.filter (· != r.seq) } } : State).satFld LED_FLASH_MISSED 1).showLag
    else s

/-- Writes a new record (R384, R385, R387). -/
def State.writeNew (s : State) (r : LedgerRec) : State :=
  let seq := s.fld LED_SEQ_NEXT_SEQ
  let r := { r with seq := seq, pips := s.pipsOf r }
  let s := match s.newestRec r.origin r.source with
    | some o => if (s.led.mergedNs.get o.seq).isSome then s.closeRecord o else s
    | none => s
  let s := s.overwrite (seq % 1048576)
  let s : State := { s with led := { s.led with ring := s.led.ring.set (seq % 1048576) r, mergedNs := s.led.mergedNs.set seq s.now } }
  ((s.setFld LED_SEQ_NEXT_SEQ (seq + 1)).satFld LED_COUNT_RECORDS 1).queueFlash r

/-- Merges into the newest record (R386). -/
def State.writeMerge (s : State) (o r : LedgerRec) : State :=
  let n := { o with tally := o.tally + r.tally, lastMs := r.lastMs, pips := s.pipsOf o, capture := o.capture <|> r.capture }
  let s : State := { s with led := { s.led with ring := s.led.ring.set (o.seq % 1048576) n, mergedNs := s.led.mergedNs.set o.seq s.now } }
  s.satFld LED_COUNT_MERGED r.tally

/-- The record a new one merges into. -/
def State.mergeTarget (s : State) (r : LedgerRec) : Option LedgerRec :=
  match s.newestRec r.origin r.source with
  | some o => if o.same r ∧ r.typ ≠ 1 ∧ r.typ ≠ 2 ∧ o.tally + r.tally ≤ 4294967295 then some o else none
  | none => none

/-- Both HBM copies of the ring are lost (R393). -/
def State.ringLost (s : State) : Bool := s.fld LED_STATUS_COPY_A_OK == 0 && s.fld LED_STATUS_COPY_B_OK == 0

/-- A record joins the ledger region of the flash: 917,504 records, erased 64 KiB at a time, oldest first (R455). -/
def flashPush (l : List (List Byte)) (r : List Byte) : List (List Byte) := (if l.length < 917504 then l else l.drop 1024) ++ [r]

/-- A record while both HBM copies are lost: severity 2 and more straight to flash, others missed (R393). -/
def State.writeFlash (s : State) (r : LedgerRec) : State :=
  let seq := s.fld LED_SEQ_NEXT_SEQ
  let r := { r with seq := seq, pips := s.pipsOf r }
  let s := s.setFld LED_SEQ_NEXT_SEQ (seq + 1)
  if 2 ≤ r.severity ∧ s.fld LED_FLASH_FLASH_OK = 1 then
    ({ s with led := { s.led with flash := flashPush s.led.flash r.bytes } } : State).act (.flashRecord r.bytes)
  else s.satFld LED_FLASH_MISSED 1

/-- LEDGER_WRITE (R385 to R387): the oldest waiting record is written, new in 500 ns or merged in 250 ns of account time, once
the gates pass the write (R16). -/
def execLedgerWrite (s : State) : Answer :=
  match s.led.buffer with
  | [] => .next s
  | r :: t =>
    let cost := if (s.mergeTarget r).isSome then 250 else 500
    if s.led.writerNs < cost ∨ s.gatesOpen = false then .next s
    else
      let s := ({ s with led := { s.led with buffer := t, writerNs := if t.isEmpty then 0 else s.led.writerNs - cost } } : State).showBacklog
      if s.ringLost then .next (s.writeFlash r)
      else match s.mergeTarget r with
        | some o => .next (s.writeMerge o r)
        | none => .next (s.writeNew r)

/-- A record the collector writes of itself (R388). -/
def State.ownRecord (s : State) (source typ tally : Nat) (detail : BitVec 16) (ms tick : Nat) : LedgerRec :=
  { firstMs := ms, firstTick := tick, lastMs := ms, pcycle := s.fld LED_PCYCLE_COUNT, origin := s.fid, source := source
    severity := 0, shadow := false, escalated := false, forced := false, typ := typ, tally := tally, detail := detail
    port := 0xFFFF, capture := none, addr := 0, pips := 0 }

/-- MS_BOUNDARY (R388): a drop summary for each severity that had drops in the millisecond just ended. -/
def execMsBoundary (s : State) : Answer :=
  if s.operMs ≤ s.led.summedMs then .next s else
  let ms := s.operMs - 1
  let s := s.forEach ((List.range 3).filter fun v => decide (0 < s.led.drops.getD v 0)) fun s v =>
    s.toWriter (s.ownRecord 0x0010 1 (s.led.drops.getD v 0) (BitVec.ofNat 16 v) ms 0)
  .next { s with led := { s.led with drops := [0, 0, 0], summedMs := ms + 1 } }

/-- The record of the ring with a SEQ. -/
def State.recWith (s : State) (seq : Nat) : Option LedgerRec :=
  match s.led.ring.get (seq % 1048576) with
  | some r => if r.seq = seq then some r else none
  | none => none

/-- FLASH_COPY (R389): the next copy to the flash region, severity 3 and 4 first. -/
def execFlashCopy (s : State) : Answer :=
  let urgent := fun (q : Nat) => match s.recWith q with | some r => decide (3 ≤ r.severity) | none => false
  let next := match s.led.flashQ.find? urgent with | some q => some q | none => s.led.flashQ.head?
  match next with
  | none => .next s
  | some q =>
    if s.fld LED_FLASH_FLASH_OK = 0 ∨ s.gatesOpen = false then .next s
    else
      let s := ({ s with led := { s.led with flashQ := s.led.flashQ.filter (· != q) } } : State).showLag
      match s.recWith q with
      | none => .next s
      | some r =>
        .next (({ s with led := { s.led with flash := flashPush s.led.flash r.bytes, flashTally := s.led.flashTally.set q r.tally } } : State).act
          (.flashRecord r.bytes))

/-- RECORD_CLOSE_TIMER (R389): 1 s after its last merge a record closes. -/
def execRecordCloseTimer (origin : Fid) (source : Nat) (s : State) : Answer :=
  match s.newestRec origin source with
  | none => .next s
  | some r => match s.led.mergedNs.get r.seq with
    | none => .next s
    | some t => if t + 1000000000 ≤ s.now then .next (s.closeRecord r) else .next s

/-! ## FLT writes (R364, R365, R382) -/

/-- A forced event on a controller source (R365). -/
def State.forceSource (s : State) (n : Nat) : State :=
  let sev := s.fld (FLT_SRCn_SEVERITY.at (fltSrc n))
  let masked := s.fld (FLT_SRCn_MASK.at (fltSrc n))
  let s := s.countSource n 1 0xFFFF none
  if masked = 1 then s
  else s.present { origin := s.fid, source := n, severity := sev, detail := 0xFFFF, timeNs := s.now, forced := true }

/-- A write of FLT_SRCn (R11, R361, R364, R365); clearing CAPTURED rearms the capture (R366). -/
def State.writeSource (s : State) (lvl : Level) (n : Nat) (v : Word64) : State :=
  let old := s.reg (fltSrc n)
  let w := srcWrite (defaultSev n) old v
  let s := s.setReg (fltSrc n) w.1
  let s := if w.2 then s.violation lvl else s
  let s : State := if FLT_SRCn_CAPTURED.of w.1 = 0 then { s with col := { s.col with captures := s.col.captures.erase n } } else s
  if FLT_SRCn_FORCE.of v = 1 then s.forceSource n else s

/-- FLT_FORCE (R365): a write of 1 to FORCE of a source. -/
def execFltForce (lvl : Level) (n : Nat) (v : Word64) (s : State) : Answer :=
  match lvl with
  | .tenant => .next (s.violation lvl)
  | _ => if n < 8192 ∧ FLT_SRCn_FORCE.of v = 1 then .next (s.writeSource lvl n v) else .next s

/-- SEVERITY_WRITE (R364): a write of SEVERITY and MASK of a source. -/
def execSeverityWrite (lvl : Level) (n : Nat) (v : Word64) (s : State) : Answer :=
  match lvl with
  | .tenant => .next (s.violation lvl)
  | _ => if n < 8192 then .next (s.writeSource lvl n v) else .next s

/-- A write of FLT_CFG (R382, R391): FORCE_SAFE, FAULTN_SEV within 1 to 4, and FAULTN_CLR unless a block with WORST of at
least FAULTN_SEV is outside SERVICE. -/
def State.writeFltCfg (s : State) (v : Word64) : State :=
  let s := s.setFld FLT_CFG_FORCE_SAFE (FLT_CFG_FORCE_SAFE.of v)
  let sev := FLT_CFG_FAULTN_SEV.of v
  let s := if 1 ≤ sev ∧ sev ≤ 4 then s.setFld FLT_CFG_FAULTN_SEV sev else s
  let bad := (List.range 64).any fun b => s.blk FLT_BLKn_STATE b != 0 && decide (s.fld FLT_CFG_FAULTN_SEV ≤ s.blk FLT_BLKn_WORST b)
  if FLT_CFG_FAULTN_CLR.of v = 1 ∧ bad = false then
    ({ s with pwr := { s.pwr with faultN := true } } : State).setFld FLT_STATUS_FAULTN 0
  else s

/-- FAULTN_CLR (R382). -/
def execFaultnClr (lvl : Level) (v : Word64) (s : State) : Answer :=
  match lvl with
  | .tenant => .next (s.violation lvl)
  | _ => .next (s.writeFltCfg v)

end Sys2Proof.Machine
end

