-- ==== Sys2Proof/Machine/Triad.lean ====
section
/-! DEFINITION. The triad and the scales (R394 to R403), pairing, mirror, heartbeats and takeover (R404 to R414). -/

/-- The state that the applied mirror records spell, in the shape of a controller's own, none where they spell none: the spec lays out no
item (R405; log entry 9). -/
opaque Sys2Proof.Config.mirroredState : Sys2Proof.Machine.NMap (Nat × List Sys2Proof.Byte) → Option Sys2Proof.Machine.State

namespace Sys2Proof.Machine

/-! ## Acts at the gates (R394, R395) -/

/-- Index of the gate of H3 and of RT0 (R397). -/
def gateH3 : Nat := 27
def gateRT0 : Nat := 28

/-- The act of a unit with a number at a gate. -/
def State.gateAct (s : State) (gate unit seq : Nat) : Option GateAct :=
  s.tri.acts.find? fun x => x.gate == gate && x.unit == unit && x.seq == seq

/-- Replaces or adds an act. -/
def State.setAct (s : State) (x : GateAct) : State :=
  let rest := s.tri.acts.filter fun y => !(y.gate == x.gate && y.unit == x.unit && y.seq == x.seq)
  { s with tri := { s.tri with acts := rest ++ [x] } }

/-- An act is decided and done with at its gate. -/
def State.endAct (s : State) (x : GateAct) : State :=
  let rest := s.tri.acts.filter fun y => !(y.gate == x.gate && y.unit == x.unit && y.seq == x.seq)
  { s with tri := { s.tri with acts := rest, passedActs := s.tri.passedActs ++ [(x.gate, x.unit, x.seq)] } }

/-- Nothing passes: severity 4 on source 0x0008, and the scales pass no further act (R395, R408). -/
def State.refuseAct (s : State) (x : GateAct) : State :=
  let rest := s.tri.acts.filter fun y => !(y.gate == x.gate && y.unit == x.unit && y.seq == x.seq)
  ({ s with tri := { s.tri with acts := rest, refused := true } } : State).raise 0x0008 4

/-- The content at least two copies agree on. -/
def GateAct.majority (x : GateAct) : Option (List Byte) :=
  (x.copies.find? fun c => decide (2 ≤ (x.copies.filter fun d => d.2 == c.2).length)).map (·.2)

/-- The act a gate serves next of those that are decided: LRE0 to LRE3 first, then the others in rotation from the unit served
last, one act each (R195). -/
def nextAct (turn : Nat) (l : List GateAct) : Option GateAct :=
  match l.find? fun x => decide (x.unit < 4) with
  | some x => some x
  | none => l.foldl (fun m x => match m with
    | none => some x
    | some y => if (x.unit + 65535 - turn) % 65536 < (y.unit + 65535 - turn) % 65536 then some x else some y) none

/-- Acts of one gate in the order in which it serves them. -/
def serveOrder : Nat → Nat → List GateAct → List GateAct
  | 0, _, _ => []
  | n + 1, turn, l =>
    match nextAct turn l with
    | none => []
    | some x => x :: serveOrder n (if x.unit < 4 then turn else x.unit) (removeFirst (· == x) l)

/-- Acts in the order in which their gates serve them, gate by gate. -/
def gateOrder (turn : Nat) (l : List GateAct) : List GateAct :=
  ((l.map (·.gate)).dedup).flatMap fun g =>
    let m := l.filter fun x => x.gate == g
    serveOrder m.length turn m

/-- Decides an act that has not passed, from the copies it has (R395). -/
def State.judge (s : State) (x : GateAct) : State :=
  let n := s.voters
  if n < 2 then s.setAct x
  else match x.majority with
    | some c =>
      let y := { x with passed := true, passedNs := s.now, value := c }
      let odd := x.copies.filter fun d => d.2 != c
      let s := s.forEach odd fun s d => s.gateFence d.1 x.gate
      if n ≤ x.copies.length then s.endAct y else s.setAct y
    | none =>
      if n ≤ x.copies.length ∧ 2 ≤ x.copies.length then s.refuseAct x else s.setAct x

/-- Acts at a gate that have come from one die only. -/
def State.aloneAt (s : State) (gate die : Nat) : Nat :=
  (s.tri.acts.filter fun x => x.gate == gate && x.copies.length == 1 && (x.copies.any fun c => c.1 == die)).length

/-! ### Fabric-image triples (R17, R396) -/

/-- The image whose output an act is: units 0x1000 and up stand for images 0 to 1,023 (log entry 15). -/
def imageUnit (unit : Nat) : Option Nat := if 0x1000 ≤ unit ∧ unit < 0x1400 then some (unit - 0x1000) else none

/-- Nothing passes: the instances of a triple disagree with no majority, and a CF die's image self-check source raises severity 3
(R396). -/
def State.refuseOutput (s : State) (x : GateAct) (image : Nat) : State :=
  let rest := s.tri.acts.filter fun y => !(y.gate == x.gate && y.unit == x.unit && y.seq == x.seq)
  let cf := ((s.sq.tiles.find? fun t => t.image == image).map fun t => t.quarter / 4).getD 0
  ({ s with tri := { s.tri with acts := rest } } : State).raise (0x0400 + 0x100 * cf + 5) 3 (BitVec.ofNat 16 image)

/-- Decides an output from the instances it has come from, by the table of R395 with instances in place of dies (R396). -/
def State.settleOutput (s : State) (x : GateAct) (image : Nat) : State :=
  let n := (s.instances image).length
  if n < 2 then s.setAct x
  else if x.passed then (if n ≤ x.copies.length then s.endAct x else s.setAct x)
  else match x.majority with
    | some c =>
      let y := { x with passed := true, passedNs := s.now, value := c }
      if n ≤ x.copies.length then s.endAct y else s.setAct y
    | none => if n ≤ x.copies.length then s.refuseOutput x image else s.setAct x

/-- Instances that differ from the output that passed are unloaded, relocated and tested again; outputs that waited for their copies
are decided on the others (R396, R397). -/
def State.oddInstances (s : State) (image : Nat) (odd : List Nat) : State :=
  if odd.isEmpty then s
  else
    let s := s.forEach odd fun s k => match s.instDies image k with
      | [] => s
      | cf :: _ => s.unloadInstance image k cf true
    let mine := s.tri.acts.filter fun x => imageUnit x.unit == some image
    s.forEach mine fun s x => s.settleOutput { x with copies := x.copies.filter fun c => !odd.contains c.1 } image

/-- An output with a new copy: decided, and an instance that differs from what passed goes. -/
def State.judgeOutput (s : State) (x : GateAct) (image : Nat) : State :=
  let odd := match x.majority with
    | some c => if 2 ≤ (s.instances image).length then (x.copies.filter fun d => d.2 != c).map (·.1) else []
    | none => []
  (s.settleOutput x image).oddInstances image odd

/-- An instance's copy of an output arrives at a gate. -/
def State.takeOutput (s : State) (gate unit seq image inst : Nat) (content : List Byte) : State :=
  match s.gateAct gate unit seq with
  | none => s.judgeOutput { gate := gate, unit := unit, seq := seq, copies := [(inst, content)], firstNs := s.now } image
  | some x =>
    if x.copies.any fun c => c.1 == inst then s
    else
      let y := { x with copies := x.copies ++ [(inst, content)] }
      if x.passed then (s.endAct y).oddInstances image (if content = x.value then [] else [inst])
      else s.judgeOutput y image

/-- An instance's copy is still absent after 200 µs (R395, R396). -/
def State.outputTimeout (s : State) (x : GateAct) (image : Nat) : State :=
  let live := s.instances image
  let absent := live.filter fun k => !(x.copies.any fun c => c.1 == k)
  if x.passed then if s.now < x.passedNs + 200000 then s else (s.endAct x).oddInstances image absent
  else if s.now < x.firstNs + 200000 then s
  else if live.length = 2 ∨ (live.length = 3 ∧ x.copies.length = 2) then s.refuseOutput x image
  else s

/-- ACT_COPY_ARRIVE (R394 to R397): a copy reaches a gate, from arbiter 0 to 2 or from the CF die of block 3 to 14, whose copies are
those of an image instance. A die outside the vote is not heard, closed gates hold, and a die with 1,024 acts alone at the gate
waits. -/
def execActCopyArrive (gate die unit seq : Nat) (content : List Byte) (s : State) : Answer :=
  if s.pwr.held ∨ s.pwr.tripped ∨ s.tri.passedActs.contains (gate, unit, seq) then .next s
  else if 3 ≤ die then
    match imageUnit unit with
    | none => .next s
    | some image => match s.instanceOn image (die - 3) with
      | none => .next s
      | some k => .next (s.takeOutput gate unit seq image k content)
  else if s.votes die = false then .next s
  else match s.gateAct gate unit seq with
    | none =>
      if 1024 ≤ s.aloneAt gate die then .next s
      else .next (s.judge { gate := gate, unit := unit, seq := seq, copies := [(die, content)], firstNs := s.now })
    | some x =>
      if x.copies.any fun c => c.1 == die then .next s
      else
        let y := { x with copies := x.copies ++ [(die, content)] }
        if x.passed then
          let s := if content = x.value then s else s.gateFence die gate
          .next (s.endAct y)
        else .next (s.judge y)

/-- VOTE_TIMEOUT (R395, R396): a copy is still absent after 200 µs. -/
def execVoteTimeout (gate unit seq : Nat) (s : State) : Answer :=
  match s.gateAct gate unit seq with
  | none => .next s
  | some x =>
    let absent := (List.range 3).filter fun k => s.votes k && !(x.copies.any fun c => c.1 == k)
    match imageUnit unit with
    | some image => .next (s.outputTimeout x image)
    | none =>
      if x.passed then
        if s.now < x.passedNs + 200000 then .next s
        else .next ((s.forEach absent fun s k => s.gateFence k gate).endAct x)
      else if s.now < x.firstNs + 200000 then .next s
      else if s.voters = 2 ∨ (s.voters = 3 ∧ x.copies.length = 2) then .next (s.refuseAct x)
      else .next s

/-! ## The fence tick (R397, R398) -/

/-- Copies of a fenced die are discarded, and the acts that waited for it are decided on the others, in the order in which their
gates serve them (R195, R397). -/
def State.dropCopies (s : State) (die : Nat) : State :=
  let acts := s.tri.acts
  let s : State := { s with tri := { s.tri with acts := [] } }
  s.forEach (gateOrder s.tri.gateTurn acts) fun s x =>
    let y := { x with copies := x.copies.filter fun c => c.1 != die }
    if (imageUnit x.unit).isSome then s.setAct x
    else if y.passed then (if s.voters ≤ y.copies.length then s.endAct y else s.setAct y)
    else if y.copies.isEmpty then s
    else s.judge y

/-- A die leaves the vote (R397, R398, R37, R400, R377, R381). -/
def State.fence (s : State) (die gate : Nat) : State :=
  if s.votes die = false then s
  else
    let busy := s.fld TRI_STATUS_PHASE != 0
    let s := s.setFld TRI_STATUS_VOTING (s.fld TRI_STATUS_VOTING - 2 ^ die)
    let s := (s.lapse 0x0008 die).showQuote
    let limit := s.blk FLT_BLKn_PIP_LIMIT die
    let s :=
      if s.blk FLT_BLKn_STATE die = 3 then s
      else if s.ownShadowOpen die then
        (s.retire die).present { origin := s.fid, source := 0x0200 + 0x40 * die + 4, severity := 4, timeNs := s.now
                                 detail := BitVec.ofNat 16 gate, escalated := true }
      else if limit ≠ 0 ∧ limit ≤ s.blk FLT_BLKn_PIPS die then s.retire die
      else
        let s := ((s.startReset die).setFld TRI_STATUS_PHASE 1).setFld TRI_STATUS_RESYNC_DIE die
        { s with tri := { s.tri with resyncStartNs := s.now, passes := 0, marked := 0 } }
    let s := s.dropCopies die
    if s.voters < 2 then
      let s := if busy then s.setFld TRI_STATUS_PHASE 0 else s
      (s.raise (blockSource die) 4).requestTakeover
    else s

/-- FENCE_EFFECT (R397): the fences ordered take effect at the next slot tick. -/
def execFenceEffect (s : State) : Answer :=
  let l := s.tri.fencing
  let s : State := { s with tri := { s.tri with fencing := [] } }
  .next (s.forEach l fun s x => s.fence x.1 x.2)

/-- An arbiter that is out of the vote, reset and tested, and held there (R398). -/
def State.heldDie (s : State) : Option Nat :=
  if s.fld TRI_STATUS_PHASE ≠ 0 then none
  else (List.range 3).find? fun k => !s.votes k && s.blk FLT_BLKn_STATE k == 2 && !(s.pwr.resets.any fun x => x.1 == k)

/-- A write of TRI_CFG (R398, R399, R416). -/
def State.writeTriCfg (s : State) (lvl : Level) (v : Word64) : State :=
  let s := (s.setFld TRI_CFG_FENCE_DIE (TRI_CFG_FENCE_DIE.of v)).setFld TRI_CFG_AUTO_RESYNC (TRI_CFG_AUTO_RESYNC.of v)
  let die := TRI_CFG_FENCE_DIE.of v
  let s :=
    if TRI_CFG_FENCE_REQ.of v = 0 then s
    else if s.voters < 3 then s.violation lvl
    else if die < 3 then s.orderFence die 0
    else s
  if TRI_CFG_RESYNC_REQ.of v = 0 then s
  else match s.heldDie with
    | some k => (s.setFld TRI_STATUS_PHASE 3).setFld TRI_STATUS_RESYNC_DIE k
    | none => s

/-- FENCE_REQ (R399). -/
def execFenceReq (lvl : Level) (v : Word64) (s : State) : Answer :=
  match lvl with
  | .tenant => .next (s.violation lvl)
  | _ => .next (s.writeTriCfg lvl v)

/-- RESYNC_REQ (R398). -/
def execResyncReq (lvl : Level) (v : Word64) (s : State) : Answer :=
  match lvl with
  | .tenant => .next (s.violation lvl)
  | _ => .next (s.writeTriCfg lvl v)

/-! ## Resync (R401) -/

/-- RESYNC_PASS_DONE (R401): a pass that leaves at most 8 MiB marked begins the pause, unless a classification is open or a
PLAY pends. -/
def execResyncPassDone (markedBytes : Nat) (s : State) : Answer :=
  if s.fld TRI_STATUS_PHASE ≠ 3 then .next s
  else
    let s : State := { s with tri := { s.tri with passes := s.tri.passes + 1, marked := markedBytes } }
    if markedBytes ≤ 8388608 ∧ s.rte.classNs.isNone ∧ s.rte.play.isNone then .next (s.setFld TRI_STATUS_PHASE 4) else .next s

/-- Both heartbeat paths are down (R409). -/
def State.bothLost (s : State) : Bool := s.fld TRI_STANDBY_STATUS_PATH_PAIR == 0 && s.fld TRI_STANDBY_STATUS_PATH_INBAND == 0

/-- Acts that waited for the standby go, in order, once nothing they follow from is unacknowledged (R405, R411). -/
def State.releaseBehind (s : State) : State :=
  if s.mirrorBlocks then s
  else
    let l := s.tri.behind
    ({ s with tri := { s.tri with behind := [] } } : State).forEach l fun s b => match b with
      | .packet port p => s.originateOn .ctl port p
      | .admission q id n status irq => s.finishInstall (.admission q id n irq) status 0

/-- A primary that lost both paths holds (R411), after a resync pause (R415). -/
def State.beginHold (s : State) : State :=
  if s.tri.paired ∧ s.fld TRI_STATUS_ROLE = 0 ∧ s.bothLost ∧ s.inHold = false ∧ s.fld TRI_STATUS_PHASE ≠ 4 then
    let t := s.now + s.fld TRI_STANDBY_CFG_HOLD_MS * 1000000
    (({ s with tri := { s.tri with holdEndNs := some t } } : State).setFld TRI_STANDBY_STATUS_HOLD 1).releaseBehind
  else s

/-- RESYNC_PAUSE_DONE (R401, R398): with equal digests the die rejoins the vote; a mismatch fences it again, which its own
open shadow makes a severity 4 event (R377). -/
def execResyncPauseDone (digestsEqual : Bool) (s : State) : Answer :=
  if s.fld TRI_STATUS_PHASE ≠ 4 then .next s
  else
    let die := s.fld TRI_STATUS_RESYNC_DIE
    let s := s.setFld TRI_STATUS_PHASE 0
    if digestsEqual then
      let s := s.setFld TRI_STATUS_VOTING (s.fld TRI_STATUS_VOTING + (if s.votes die then 0 else 2 ^ die))
      let s := s.setFld TRI_STATUS_LAST_RESYNC_US (min 65535 ((s.now - s.tri.resyncStartNs) / 1000))
      let s := ((s.setBlockState die 1).restartQuiet die).closeShadows (fun x => x.kind == die) (s.now + 20000)
      .next ((s.restore 0x0008 die).showQuote).beginHold.flushLre0
    else
      .next (((s.retire die).present { origin := s.fid, source := 0x0200 + 0x40 * die + 4, severity := 4, timeNs := s.now
                                       escalated := true }).beginHold.flushLre0)

/-! ## Self-test (R403) -/

/-- GATE_PROBE_TIMER (R403): each arbiter sends every gate a probe, which never leaves the gate. -/
def execGateProbeTimer (s : State) : Answer := .next { s with tri := { s.tri with probes := s.tri.probes + 1 } }

/-- The source of a gate (R359): voter gates of port and table-store dies, the first source of a hub and of RT0. -/
def gateSource (g : Nat) : Nat :=
  if g < 24 then 0x1000 + 0x40 * g + 21
  else if g < 28 then 0x1900 + 0x40 * (g - 24)
  else if g = 28 then 0x1A00
  else 0x1600 + 0x20 * (g - 29) + 2

/-- COMPARATOR_SELFTEST (R403): a gate that misses its forced mismatch. -/
def execComparatorSelftest (gate : Nat) (detected : Bool) (s : State) : Answer :=
  if detected ∨ 41 ≤ gate then .next s
  else .next (({ s with tri := { s.tri with selfTestFails := s.tri.selfTestFails + 1 } } : State).raise (gateSource gate) 3)

/-- DIGEST_PROBE_TIMER (R403, R395): digests of the arbiters at the H3 gate. -/
def execDigestProbeTimer (digests : List (BitVec 384)) (s : State) : Answer :=
  let copies := ((List.range 3).filter s.votes).map fun k => (k, digestBytes (digests.getD k 0))
  let x : GateAct := { gate := gateH3, unit := 0xFFFF, seq := s.tri.probes, copies := copies, firstNs := s.now }
  if s.voters < 2 then .next s
  else match x.majority with
    | some c => .next (s.forEach (copies.filter fun d => d.2 != c) fun s d => s.gateFence d.1 gateH3)
    | none => .next (s.refuseAct x)

/-- PATROL_READ (R403): a parity error in an arbiter's local SRAM fences that die. -/
def execPatrolRead (parityErrors : List Nat) (s : State) : Answer :=
  .next (s.forEach (parityErrors.filter fun k => decide (k < 3) && s.votes k) fun s k =>
    (({ s with tri := { s.tri with selfTestFails := s.tri.selfTestFails + 1 } } : State).raise (0x0200 + 0x40 * k + 1) 1).orderFence k 0)

/-! ## Pairing and mirror (R404 to R406) -/

/-- The partner's fabric ID. -/
def State.partner (s : State) : Fid := BitVec.ofNat 32 (s.fld TRI_STANDBY_CFG_PARTNER_ID)

/-- A write of TRI_STANDBY_CFG (R404, R416): HB_MISS and HOLD_MS below 5 are ignored; pairing extends MEAS6 and the primary
sends its full copy, whose acknowledgement makes the pair (log entry 43). -/
def State.writeStandbyCfg (s : State) (v : Word64) : State :=
  let on := s.fld TRI_STANDBY_CFG_PAIR_EN
  let s := (s.setFld TRI_STANDBY_CFG_PARTNER_ID (TRI_STANDBY_CFG_PARTNER_ID.of v)).setFld TRI_STANDBY_CFG_PAIR_EN
    (TRI_STANDBY_CFG_PAIR_EN.of v)
  let s := if 5 ≤ TRI_STANDBY_CFG_HB_MISS.of v then s.setFld TRI_STANDBY_CFG_HB_MISS (TRI_STANDBY_CFG_HB_MISS.of v) else s
  let s := if 5 ≤ TRI_STANDBY_CFG_HOLD_MS.of v then s.setFld TRI_STANDBY_CFG_HOLD_MS (TRI_STANDBY_CFG_HOLD_MS.of v) else s
  if on = 0 ∧ TRI_STANDBY_CFG_PAIR_EN.of v = 1 then
    let s := s.extendMeas 6 (sha384 (leBytes 4 s.partner.toNat))
    if s.fld TRI_STATUS_ROLE = 1 ∨ s.partner = noFid then s
    else
      let seq := s.tri.mirrorSeq + 1
      let s : State := { s with tri := { s.tri with mirrorSeq := seq, mirrorOpen := s.tri.mirrorOpen ++ [(seq, s.now, 0)] } }
      s.sendMgmt .ctl s.partner 0x2E (mirrorPayload seq 0)
  else if on = 1 ∧ TRI_STANDBY_CFG_PAIR_EN.of v = 0 then
    (({ s with tri := { s.tri with paired := false, fullCopy := false } } : State).lapse 0x0007 noFid.toNat).releaseBehind
  else s

/-- PAIR_ENABLE (R404). -/
def execPairEnable (lvl : Level) (v : Word64) (s : State) : Answer :=
  match lvl with
  | .tenant => .next (s.violation lvl)
  | _ => .next (s.writeStandbyCfg v)

/-- The standby acknowledged a mirror record; the first acknowledgement completes the pair (R404, R406). -/
def State.mirrorAcked (s : State) (seq : Nat) : State :=
  let s : State := { s with tri := { s.tri with mirrorOpen := s.tri.mirrorOpen.filter fun x => x.1 != seq } }
  let s := s.setFld TRI_STANDBY_STATUS_MIRROR_LAG (min s.tri.mirrorOpen.length 65535)
  let late := s.tri.mirrorOpen.any fun x => decide (x.2.1 + 10000000 ≤ s.now)
  let s : State := if late then s else { s with tri := { s.tri with lagRaised := false } }
  if s.tri.paired then (if late then s else s.restore 0x0007 s.partner.toNat).releaseBehind
  else
    let s : State := { s with tri := { s.tri with paired := true } }
    let s := if s.fld TRI_STATUS_ROLE = 3 then s.setFld TRI_STATUS_ROLE 0 else s
    (s.setFld TRI_STANDBY_STATUS_PARTNER_ROLE 1).restore 0x0007 noFid.toNat

/-- Applies held mirror records in sequence order (R405). -/
def TriadSt.drain : Nat → TriadSt → TriadSt
  | 0, t => t
  | n + 1, t =>
    match t.mirrorHeld.find? fun x => x.1 == t.mirrorApplied + 1 with
    | none => t
    | some x => TriadSt.drain n { t with mirrorHeld := t.mirrorHeld.filter (fun y => y.1 != x.1), mirrorApplied := x.1
                                         mirrorItems := t.mirrorItems.set x.2.1 (x.1, x.2.2), fullCopy := true }

/-- MIRROR (R405): the standby takes a mirror record and applies records in sequence order. The first one it takes is the
full copy. -/
def execMirror (p : Packet) (s : State) : Answer :=
  .next (s.accept .ctl p fun s =>
    if p.hdr.src ≠ s.partner ∨ s.fld TRI_STANDBY_CFG_PAIR_EN = 0 then (s, some 3)
    else
      let seq := leAt p.payload 0 8
      let t := if s.tri.fullCopy then s.tri else { s.tri with mirrorApplied := seq - 1, mirrorHeld := [] }
      if seq ≤ t.mirrorApplied then (s, none)
      else
        let t := TriadSt.drain (t.mirrorHeld.length + 1) { t with mirrorHeld := t.mirrorHeld ++ [(seq, leAt p.payload 8 2, slice p.payload 16 (leAt p.payload 12 4))] }
        let s : State := { s with tri := { t with paired := true } }
        ((s.setFld TRI_STATUS_ROLE 1).setFld TRI_STANDBY_STATUS_PARTNER_ROLE 0, none))

/-- MIRROR_LAG_TIMEOUT (R406): the oldest unacknowledged mirror record is 10 ms old. -/
def execMirrorLagTimeout (s : State) : Answer :=
  match s.tri.mirrorOpen with
  | [] => .next s
  | x :: _ =>
    if s.now < x.2.1 + 10000000 ∨ s.tri.lagRaised ∨ s.inHold then .next s
    else
      let s : State := { s with tri := { s.tri with lagRaised := true } }
      .next ((s.raise 0x000B 2).lapse 0x0007 s.partner.toNat)

/-! ## Heartbeats (R407 to R410) -/

/-- TAKEOVER_REQ as the gates set it (R408). -/
def State.takeoverBit (s : State) : Bool :=
  decide (s.voters < 2) || s.col.takeoverReq || s.tri.refused || s.pwr.held

/-- The 32 bytes of a heartbeat (R407). -/
def State.heartbeatBytes (s : State) : List Byte :=
  let seq := if s.fld TRI_STATUS_ROLE = 1 then s.tri.mirrorApplied else s.tri.mirrorSeq
  let l := leBytes 4 s.fid.toNat ++ leBytes 4 (s.fld TRI_STANDBY_STATUS_GENERATION) ++ leBytes 1 (s.fld TRI_STATUS_ROLE)
    ++ leBytes 1 (s.fld TRI_STATUS_VOTING) ++ leBytes 1 (bit s.takeoverBit) ++ zeros 1 ++ leBytes 4 s.tri.hbSeq.toNat
    ++ leBytes 4 seq ++ leBytes 6 s.operMs ++ zeros 2
  l ++ leBytes 4 (crc32c l)

/-- HEARTBEAT_TIMER (R407, R408): a heartbeat on each path; they are no acts, and stop only without power or at a thermal
trip. -/
def execHeartbeatTimer (s : State) : Answer :=
  if s.fld TRI_STANDBY_CFG_PAIR_EN = 0 ∨ s.pwr.pwrgd = false ∨ s.pwr.tripped then .next s
  else
    let l := s.heartbeatBytes
    let s : State := { s with tri := { s.tri with hbSeq := s.tri.hbSeq + 1 } }
    let s := if s.pwr.deadBlocks.contains 62 then s else s.emit (.heartbeat .pair l)
    let k := s.number .ctl { hdr := ownHdr s.partner 0x37 l, payload := l }
    let t := s.tx .ctl s.partner Config.ownStream
    let s := (s.setTx .ctl s.partner Config.ownStream { t with nextSeq := t.nextSeq + 1 }).emit (.heartbeat .inband l)
    .next (s.portSend .ctl (s.originPort .ctl k.hdr) k)

/-- The fields of a path (R409, R416). -/
def pathField : HbPath → Field
  | .pair => TRI_STANDBY_STATUS_PATH_PAIR
  | .inband => TRI_STANDBY_STATUS_PATH_INBAND

/-- A hold ends with a path returned, or as an unpaired primary: what it kept waiting goes on (R411). -/
def State.endHold (s : State) : State :=
  let s := ({ s with tri := { s.tri with holdEndNs := none } } : State).setFld TRI_STANDBY_STATUS_HOLD 0
  let s := match s.rte.install with
    | some i => if i.committed = false ∧ i.openMsgs.isEmpty then s.commitInstall i else s
    | none => s
  if s.rte.play.isSome then s else s.stageDue

/-- A primary meets an active partner of a higher claim generation and steps down (R413). -/
def State.stepDown (s : State) : State :=
  let s := (s.setFld TRI_STATUS_ROLE 1).satFld TRI_EVENTS_STEPDOWNS 1
  let s : State := { s with tri := { s.tri with paired := false, fullCopy := false, holdEndNs := none, behind := [] } }
  let s := s.setFld TRI_STANDBY_STATUS_HOLD 0
  s.forEach (s.queues.map (·.1)) fun s q => if s.cq q CTL_CQn_CFG_ENABLE = 1 then s.disableQueue q 0 else s

/-- A heartbeat is valid: length, CRC and sender. -/
def State.heartbeatOk (s : State) (l : List Byte) : Bool :=
  l.length == 32 && leAt l 28 4 == crc32c (l.take 28) && leAt l 0 4 == s.fld TRI_STANDBY_CFG_PARTNER_ID
    && s.fld TRI_STANDBY_CFG_PAIR_EN == 1

/-- A claim's payload (R59, R101): target, fabric ID to assign, first bytes of the target's DeviceID digest. -/
def State.claimBytes (s : State) (target assign : Fid) (digest : Nat) : List Byte :=
  let l := leBytes 4 s.fid.toNat ++ leBytes 4 (s.fld TRI_STANDBY_STATUS_GENERATION) ++ leBytes 4 target.toNat
    ++ leBytes 4 assign.toNat ++ leBytes 8 s.now ++ beBytes 8 digest ++ digestBytes s.sec.anchor
  l ++ slice (Config.aliasSign l) 0 96 ++ leBytes 2 Config.certificateChain.length ++ zeros 14 ++ Config.certificateChain

/-- The version an agent reports is that of the mirrored install sets, of a play, or of a stored gambit it swapped to; any other makes the
standby install its mirrored tables there (R412, R155). -/
def State.deriveVersion (s : State) (f : Fid) (v : BitVec 32) : State :=
  let held := v.toNat == s.fld RTE_INSTALL_VERSION_ACTIVE
    || (match s.rte.play with | some p => p.result == v | none => false)
    || (match s.rte.install with | some i => i.committed && i.version == v | none => false)
  if held then s
  else match s.rte.gambits.find? fun g => !g.invalid && g.base + 1 == v && g.rec_.sections.any fun x => x.agent == f with
    | some g => (s.applyGambit g).setFld RTE_INSTALL_VERSION_ACTIVE (max v.toNat (s.fld RTE_INSTALL_VERSION_ACTIVE))
    | none => (s.submitInstall [(f, s.serviceTables f)] .nobody).useFree

/-- A reservation that the old primary was writing or rolling back is freed at its nodes, and its ticket waits again in its order (R271,
R292). -/
def State.resumeReservation (s : State) (g : Group) : State :=
  if g.resv ≠ 1 ∧ g.resv ≠ 3 then s
  else
    let l := (g.written ++ g.asked).filter (· != s.fid)
    let h := { g with resv := 3, asked := [], written := l, serving := none }
    let s := s.setGroup h
    let s := match g.serving with
      | some t => if t.number = 0 then s.drawTicket g.rec_.groupId t.goal else s.setTickets (s.grp.tickets ++ [t])
      | none => s
    (s.forEach l fun s f => s.freeAt h f).endRollback h

/-- Step 4 of a takeover, once every read is answered: gambits are rebased or staged again (R162), ROLE 0, automatic play, and the
standby's own link keys on its ports (R358, R412). -/
def State.takeoverEnd (s : State) : State :=
  if s.tri.takeoverReads ≠ some [] then s
  else
    let v : BitVec 32 := BitVec.ofNat 32 (s.fld RTE_INSTALL_VERSION_ACTIVE)
    let s : State := { s with tri := { s.tri with takeoverNs := none, takeoverReads := none } }
    let s := s.forEach (s.rte.gambits.filter fun g => !g.invalid && g.base != v) fun s g => s.stageGambit { g with base := v } true
    let s := s.rebaseAgents v s.stagedAgents
    let s := s.forEach s.grp.groups State.resumeReservation
    let s := s.forEach (s.facing.map (·.1)) fun s p => s.rekeyLink .ctl p (2 ^ 32)
    let s := (s.setFld TRI_STATUS_ROLE 0).setFld RTE_FAILOVER_AUTO_PLAY 1
    (s.raise 0x000C 2).restore 0x0004 0

/-- Steps 3 and 4 of a takeover, once every agent has acknowledged its claim (R412). -/
def State.takeoverDone (s : State) : State :=
  if s.fld TRI_STATUS_ROLE = 2 ∧ s.tri.takeoverReads = none ∧ s.dom.known.all (fun k => !k.admitted || k.claimAcked) then
    let l := (s.dom.known.filter (·.admitted)).map (·.fid)
    let reads := l.flatMap fun f => [(f, JX_STATUS), (f, JX_GAMBIT)]
    let s : State := { s with tri := { s.tri with takeoverReads := some reads } }
    (s.forEach reads fun s x => s.sendHooked x.1 0x29 [] (.takeoverRead x.2) (BitVec.ofNat 57 x.2)).takeoverEnd
  else s

/-- A read of step 3 is answered, with its value, or fails (R412): the version, or the last play sequence the agent accepted. -/
def State.takeoverRead (s : State) (f : Fid) (reg : Nat) (v : Option Word64) : State :=
  match s.tri.takeoverReads with
  | none => s
  | some l =>
    let s : State := { s with tri := { s.tri with takeoverReads := some (l.filter (· != (f, reg))) } }
    let s := match v with
      | none => s
      | some w =>
        if reg = JX_STATUS then s.deriveVersion f (BitVec.ofNat 32 (w.toNat / 2 ^ 32))
        else
          let seq : BitVec 16 := BitVec.ofNat 16 (w.toNat / 2 ^ 48)
          { s with rte := { s.rte with playSeq := if s.rte.playSeq.toNat < seq.toNat then seq else s.rte.playSeq } }
    s.takeoverEnd

/-- An agent that answers no claim counts as failed in a takeover, which goes on without it (log entry 162). -/
def State.claimFailed (s : State) (f : Fid) : State :=
  if s.fld TRI_STATUS_ROLE = 2 then (s.treatFailed f).takeoverDone else s

/-- Operations rooted in the controller end with STATUS 0x05 at their members: the root context is lost at a handover (R9, R290, R292;
log entry 162). -/
def State.endRooted (s : State) : State :=
  let roots := s.grp.rootHeads.map (·.1)
  let s : State := { s with grp := { s.grp with rootCtxs := [], rootBusy := false } }
  s.forEach (s.dom.known.map (·.ref)) fun s a =>
    let l := (s.agent a).ops.filter fun o => o.started && !o.ring && roots.contains o.tree
    s.forEach l fun s o => (s.endOp a o 5 0).runQueue a o.queue

/-- The standby holds the queue configuration of the old primary with ENABLE at 0, and its command journal (R219). -/
def State.adoptQueues (s : State) : State :=
  match s.tri.mirrorItems.get 4 with
  | none => s
  | some (_, l) =>
    let s := s.forEach (Config.mirrorQueues l) fun s x => (s.writeCfg x.1 x.2).setCq x.1 CTL_CQn_CFG_ENABLE 0
    s.forEach (Config.mirrorJournal l) fun s j => s.setQueue j.1 { s.queue j.1 with journal := (s.queue j.1).journal ++ [j.2] }

/-- The bits of a register that software writes are those of the mirrored state, the others stay. -/
def State.adoptReg (s m : State) (d : RegDesc) : State :=
  let rw : Word64 := BitVec.ofNat 64 d.rw
  s.setReg d.off ((s.reg d.off &&& ~~~rw) ||| (m.reg d.off &&& rw))

/-- A mirrored partition gets a spill key of the standby's own RT0, since keys are never mirrored (R340, R405). -/
def State.adoptPart (s : State) (x : Nat × PartSt) : State :=
  let n := s.sec.nextKey
  ({ s with sec := { s.sec with nextKey := n + 1 } } : State).setPart x.1 { x.2 with spillKey := if x.2.spillKey.isSome then some n else none }

/-- The standby works on the mirrored state (R405, R412): tables, gambits, schedules, groups, placement, partitions, devices, quotas and
configuration. What is never mirrored is lost: installs not committed, moves, root contexts, scrubs in progress, and the pages that
stood in the old package's spill pool (R292, R321, R326, R358). -/
def State.adoptMirror (s : State) : State :=
  match Config.mirroredState s.tri.mirrorItems with
  | none => s
  | some m =>
    let s := (regsSCH ++ regsRTE ++ regsGRP ++ regsPLC ++ regsCFB).foldl (fun (s : State) d => s.adoptReg m d) s
    let inst := match m.rte.install with
      | some i => if i.committed then some { i with purpose := InstallFor.nobody, openMsgs := [] } else none
      | none => none
    let devs := m.sec.devs.mapVals fun _ (d : DevSt) => { d with engine := none, scrubWaiting := d.state == 2 }
    let s : State := { s with
      rte := { s.rte with install := inst, waiting := [], copy := m.rte.copy, shadow := m.rte.shadow, gambits := m.rte.gambits
                          gambitWait := [], play := m.rte.play, playSeq := m.rte.playSeq }
      sch := m.sch
      grp := { m.grp with rootCtxs := [], rootBusy := false, copies := [] }
      plc := { m.plc with moves := [], prefetch := [] }
      sq := { s.sq with quota := m.sq.quota }
      sec := { s.sec with devs := devs } }
    let s := s.forEach m.sec.parts State.adoptPart
    let s := (s.setFld RTE_INSTALL_VERSION_ACTIVE (m.fld RTE_INSTALL_VERSION_ACTIVE)).setFld RTE_INSTALL_VERSION_PENDING
      (match inst with | some i => i.version.toNat | none => 0)
    s.losePages ((s.plc.pages.filter fun x => x.2.endpoint == 0xFFFF && x.2.state != 4).map (·.1))

/-- The standby takes over (R410, R412): ROLE 2, the next claim generation, claims by BCAST; what was on its way at the old
primary is gone, and no standby is paired (R7). -/
def State.takeOver (s : State) : State :=
  let gen := max (s.fld TRI_STANDBY_STATUS_GENERATION) s.tri.partnerGeneration.toNat + 1
  let s := ((s.setFld TRI_STATUS_ROLE 2).setFld TRI_STANDBY_STATUS_GENERATION gen).satFld TRI_EVENTS_TAKEOVERS 1
  let s := (s.adoptMirror.endRooted.adoptQueues).lapse 0x0007 noFid.toNat
  let s : State := { s with tri := { s.tri with takeoverNs := some s.now, takeoverReads := none, paired := false }
                            dom := { s.dom with known := s.dom.known.map fun k => { k with claimAcked := false, claimSentNs := s.now } }
                            plc := { s.plc with moves := [] } }
  (s.broadcast 0x33 (s.claimBytes noFid noFid 0) (some .claim)).takeoverDone

/-- The standby may take over: it stands by, is paired and holds a full copy. -/
def State.mayTakeOver (s : State) : Bool := s.fld TRI_STATUS_ROLE == 1 && s.tri.paired && s.tri.fullCopy

/-- TAKEOVER_START (R410): both paths are lost, or a heartbeat asked for it. -/
def execTakeoverStart (s : State) : Answer :=
  if s.mayTakeOver ∧ (s.bothLost ∨ s.tri.partnerReq) then .next s.takeOver else .next s

/-- HEARTBEAT (R409, R410, R413, R415): a heartbeat arrives on a path. -/
def execHeartbeat (path : HbPath) (bytes : List Byte) (s : State) : Answer :=
  if s.heartbeatOk bytes = false then .next s
  else
    let role := leAt bytes 8 1
    let gen := leAt bytes 4 4
    let req := leAt bytes 10 1 % 2 == 1
    let t := s.tri
    let t := match path with | .pair => { t with lastPairNs := s.now } | .inband => { t with lastInbandNs := s.now }
    let t := { t with partnerVoting := leAt bytes 9 1, partnerGeneration := BitVec.ofNat 32 gen, partnerReq := req }
    let s := (({ s with tri := t } : State).setFld (pathField path) 1).setFld TRI_STANDBY_STATUS_PARTNER_ROLE role
    let s := if s.inHold then s.endHold else s
    let mine := s.fld TRI_STATUS_ROLE
    if (mine = 0 ∨ mine = 3) ∧ role ≠ 1 ∧ s.fld TRI_STANDBY_STATUS_GENERATION < gen then .next s.stepDown
    else if req ∧ mine = 1 then
      if s.mayTakeOver then .next s.takeOver else .next (s.raise 0x000C 3)
    else .next s

/-- HB_PATH_LOST (R409): no valid heartbeat for HB_MISS periods of 100 µs. -/
def execHbPathLost (path : HbPath) (s : State) : Answer :=
  let last := match path with | .pair => s.tri.lastPairNs | .inband => s.tri.lastInbandNs
  if s.fld (pathField path) = 0 ∨ s.now < last + s.fld TRI_STANDBY_CFG_HB_MISS * 100000 then .next s
  else
    let s := s.setFld (pathField path) 0
    let s := match path with
      | .pair => (s.satFld TRI_EVENTS_PAIR_LOSSES 1).raise 0x0009 2
      | .inband => (s.satFld TRI_EVENTS_INBAND_LOSSES 1).raise 0x000A 2
    .next s.beginHold

/-- HOLD_EXPIRE (R411): the hold ends without a path: unpaired primary. -/
def execHoldExpire (s : State) : Answer :=
  match s.tri.holdEndNs with
  | none => .next s
  | some t =>
    if s.now < t ∨ s.bothLost = false then .next s
    else
      let s : State := { s with tri := { s.tri with paired := false, mirrorOpen := [] } }
      let s := ((s.setFld TRI_STATUS_ROLE 3).raise 0x000C 2).lapse 0x0007 noFid.toNat
      .next (s.setFld TRI_STANDBY_STATUS_MIRROR_LAG 0).endHold

/-! ## The health report (R414) -/

/-- The 64 bytes of a health report. -/
def State.healthBytes (s : State) : List Byte :=
  let pips := (List.range 3).flatMap fun k => leBytes 1 (s.blk FLT_BLKn_PIPS k)
  let age := match s.tri.mirrorOpen with | x :: _ => (s.now - x.2.1) / 1000 | [] => 0
  let l := leBytes 6 s.operMs ++ zeros 2 ++ leBytes 1 (s.fld TRI_STATUS_VOTING) ++ leBytes 1 (s.fld TRI_STATUS_ROLE)
    ++ leBytes 1 (s.fld TRI_STANDBY_STATUS_PATH_PAIR + 2 * s.fld TRI_STANDBY_STATUS_PATH_INBAND)
    ++ leBytes 1 (s.fld TRI_STANDBY_STATUS_PARTNER_ROLE) ++ leBytes 4 (s.fld TRI_STANDBY_STATUS_GENERATION) ++ pips
    ++ leBytes 1 s.tri.partnerVoting ++ leBytes 4 s.tri.divergences ++ leBytes 4 s.tri.selfTestFails
    ++ leBytes 4 (s.fld TRI_STATUS_LAST_RESYNC_US) ++ leBytes 4 s.tri.mirrorOpen.length ++ leBytes 4 age ++ zeros 20
  l ++ leBytes 4 (crc32c l)

/-- HEALTH_REPORT_TIMER (R414): every second, into a 256-record ring. -/
def execHealthReportTimer (s : State) : Answer :=
  .next { s with tri := { s.tri with health := ringPush 256 s.tri.health s.healthBytes } }

end Sys2Proof.Machine
end

