-- ==== Sys2Proof/Machine/Bringup.lean ====
section
/-! DEFINITION. Resets and retention (R426, R434, R447, R448, R453, R457), bring-up (R417 to R420) and the domain's training,
discovery and adoption (R421 to R424, R428, R471), the rejoin of an endpoint (R42). -/

namespace Sys2Proof.Machine

/-! ## What a reset keeps (R434) -/

/-- Registers a reset keeps: the power-cycle count, and without a loss of power the operating milliseconds. -/
def State.keptRegs (s : State) (lost : Bool) : NMap Word64 :=
  let m := NMap.set [] LED_PCYCLE (s.reg LED_PCYCLE)
  if lost then m else NMap.set m LED_TIME (s.reg LED_TIME)

/-- The ledger after a reset: flash and MRAM stay, the ring unless power was lost; its open records are closed. -/
def LedgerSt.afterReset (x : LedgerSt) (lost : Bool) : LedgerSt :=
  let ring := if lost then [] else x.ring
  { ring := ring, closed := ring.map (fun r => r.2.seq), flash := x.flash, securitySeq := x.securitySeq, security := x.security }

/-- RT0 after a reset: fuses, life cycle and power-cycle count stay; keys are zeroised, and the scrub records in HBM are gone (R348). -/
def SecSt.afterReset (x : SecSt) : SecSt :=
  { lifeCycle := x.lifeCycle, spdmVia := x.spdmVia, wipePending := x.wipePending, powerCycles := x.powerCycles, nextKey := x.nextKey
    scrubSeq := x.scrubSeq, fusesBlown := x.fusesBlown }

/-- Pins and physical conditions, which no reset changes. -/
def PowerSt.afterReset (x : PowerSt) (kind : Nat) : PowerSt :=
  { pwrgd := x.pwrgd, resetN := x.resetN, thermtripN := x.thermtripN, tripped := x.tripped, brownRails := x.brownRails
    railsOut := x.railsOut, sensorsOut := x.sensorsOut, temps := x.temps, perst := x.perst, resetKind := kind }

/-- The package after a controller reset or a power cycle (R426, R434): every agent keeps its state, and its time stands
against a controller time that starts again. -/
def State.packageReset (s : State) (lost : Bool) (kind : Nat) : State :=
  let shift := (s.now : Int)
  { regs := s.keptRegs lost, time := { operNs := if lost then 0 else s.time.operNs }, pwr := s.pwr.afterReset kind
    led := s.led.afterReset lost, sec := s.sec.afterReset, sq := { failing := s.sq.failing }, ports := s.ports.mapVals fun _ x => { planned := x.planned }
    agents := s.agents.mapVals fun _ g => { g with phaseNs := g.phaseNs + shift }
    out := s.out, fresh := s.fresh, pending := s.pending }

/-- Bring-up begins: phase 1 (R417). -/
def State.startBringup (s : State) : State :=
  if s.pwr.pwrgd ∧ s.pwr.resetN then s.setFld PWR_STATUS_PHASE 1 else s

/-- A controller reset of a kind: 1 RESET_N, 2 CTRL_RESET, 3 severity 4 (R426, R435). After a thermal trip the package waits
for the removal of power (R460). -/
def State.controllerReset (s : State) (kind : Nat) : State :=
  if s.pwr.tripped ∨ s.pwr.pwrgd = false then s
  else ((s.packageReset false kind).setFld PWR_STATUS_LAST_RESET kind).showRails.startBringup

/-- RESET_N_ASSERT (R426, R439): ignored while PWRGD is low. -/
def execResetNAssert (s : State) : Answer :=
  .next (({ s with pwr := { s.pwr with resetN := false } } : State).controllerReset 1)

/-- RESET_N_DEASSERT (R426): bring-up begins. -/
def execResetNDeassert (s : State) : Answer :=
  let was := s.pwr.resetN
  let s : State := { s with pwr := { s.pwr with resetN := true } }
  .next (if was then s else s.startBringup)

/-- CTRL_RESET (R426, R435): PWR_CTRL.CTRL_RESET written as 1. -/
def execCtrlReset (lvl : Level) (v : Word64) (s : State) : Answer :=
  match lvl with
  | .tenant => .next (s.violation lvl)
  | _ => if PWR_CTRL_CTRL_RESET.of v = 1 then .next (s.controllerReset 2) else .next s

/-- BROWN_OUT_RECOVERY (R448, R460): without a standby, the rail back in range for 10 ms. -/
def execBrownOutRecovery (s : State) : Answer :=
  match s.pwr.brownBackNs with
  | none => .next s
  | some t =>
    if s.pwr.held = false ∨ s.hasStandby ∨ s.now < t + 10000000 ∨ s.pwr.brownRails.isEmpty = false then .next s
    else .next (s.controllerReset 3)

/-- POWER_LOSS (R447, R434): PWRGD deasserts; a thermal trip ends with it (R460). -/
def execPowerLoss (s : State) : Answer :=
  let s := s.packageReset true 0
  .next { s with pwr := { s.pwr with pwrgd := false, tripped := false, thermtripN := true } }

/-- POWER_GOOD (R417). -/
def execPowerGood (s : State) : Answer :=
  if s.pwr.pwrgd then .next s
  else .next (({ s with pwr := { s.pwr with pwrgd := true } } : State).showRails.startBringup)

/-- PERST_ASSERT (R453): the hub's PCIe link is in reset. -/
def execPerstAssert (hub : Nat) (s : State) : Answer :=
  .next { s with pwr := { s.pwr with perst := if s.pwr.perst.contains hub then s.pwr.perst else s.pwr.perst ++ [hub] } }

/-- PERST_DEASSERT (R453): the link returns, and what was held goes, in order. -/
def execPerstDeassert (hub : Nat) (s : State) : Answer :=
  .next (({ s with pwr := { s.pwr with perst := s.pwr.perst.filter (· != hub) } } : State).releaseHub hub)

/-- JTAG_INTERNAL_SCAN (R457): in BLANK and RMA_DEBUG an access extends MEAS4; the port offers none in other states. -/
def execJtagInternalScan (digest : BitVec 384) (s : State) : Answer :=
  if s.sec.lifeCycle = 0 ∨ s.sec.lifeCycle = 2 then .next (s.extendMeas 4 digest) else .next s

/-! ## Links (R421, R434, R437) -/

/-- The state a training ends in (R421). -/
def trainState (lanes planned : Nat) : Nat :=
  if lanes = 0 then 5 else if lanes < halfWidth planned then 4 else if lanes < planned then 3 else 2

/-- The port after its training ended (R88, R336, R421): credit for the pools, a bootstrap key where there was none. -/
def PortSt.trained (x : PortSt) (lanes : Nat) : PortSt :=
  let st := trainState lanes x.planned
  let up := st == 2 || st == 3
  { x with state := st, lanes := if up then lanes else 0, credit := if up then poolSizes else {}
           key := if up && x.key == 0 then 1 else x.key, rxBoot := x.rxBoot || (up && x.key == 0) }

/-- The link runs at no lane, below half width, or at some lanes missing. -/
def Link.failed (l : Link) : Bool := !l.up && l.lanes == 0
def Link.excluded (l : Link) : Bool := decide (0 < l.lanes ∧ l.lanes < halfWidth l.planned)
def Link.degraded (l : Link) : Bool := decide (halfWidth l.planned ≤ l.lanes ∧ l.lanes < l.planned)

/-- PWR_DOMAIN (R435). -/
def State.showDomain (s : State) : State :=
  let l := s.dom.links
  (((s.setFld PWR_DOMAIN_AGENTS (min s.admittedIds.length 65535)).setFld PWR_DOMAIN_DEGRADED
    (min (l.countP Link.degraded) 65535)).setFld PWR_DOMAIN_EXCLUDED (min (l.countP Link.excluded) 65535)).setFld
    PWR_DOMAIN_FAILED (min (l.countP Link.failed) 65535)

/-- An end of a link. -/
def Link.hasEnd (l : Link) (f : Fid) (p : Nat) : Bool := (l.aId == f && l.aPort == p) || (l.bId == f && l.bPort == p)

/-- The controller learns the outcome of a link's training from one end. -/
def State.learnLink (s : State) (f : Fid) (p : Nat) (x : PortSt) (lanes : Nat) : State :=
  let l : Link := { aId := f, aPort := p, bId := x.farId, bPort := x.farPort, lanes := lanes, planned := x.planned
                    delayPs := x.delayPs, up := x.state == 2 || x.state == 3 }
  if f = noFid ∨ x.farId = noFid then s
  else
    let links := if s.dom.links.any (fun y => y.hasEnd f p) then s.dom.links.map (fun y => if y.hasEnd f p then
        { y with lanes := lanes, delayPs := x.delayPs, up := l.up } else y)
      else s.dom.links ++ [l]
    ({ s with dom := { s.dom with links := links } } : State).showDomain

/-- The shadow of a port retrain closes 20 µs after the training (R374, R375). -/
def State.closeTrainShadow (s : State) (n : Node) (p : Nat) : State :=
  s.closeShadows (fun x => x.kind == 64 && x.origin == s.nodeFid n && x.port == p) (s.now + 20000)

/-- Shows the ports of a node. -/
def State.showNodePorts (s : State) (n : Node) : State :=
  match n with
  | .ctl => s.showPorts
  | .agent _ => s.showPortsUp n

/-- A discovery request leaves a controller port that is up (R422; log entry 46). -/
def State.askDiscovery (s : State) (p : Nat) : State :=
  if s.gatesOpen ∧ s.portUp .ctl p then
    s.sendPkt .ctl { hdr := ownHdr 0 0x20 [] } true (some p)
  else s

/-- A discovery response stands as the acknowledgement of the request that left over the port (R98, R107). -/
def State.discoveryAnswered (s : State) (p : Nat) : State :=
  let x := s.tx .ctl 0 Config.ownStream
  s.setTx .ctl 0 Config.ownStream { x with outstanding := x.outstanding.filter fun t => t.port != some p }

/-- The link over which an agent answered counts as failed: its certificate chain has failed (R333, R422). -/
def State.failReached (s : State) (a : AgentRef) (p : Nat) : State :=
  match s.farNode (.agent a) p with
  | none => s
  | some (m, q) =>
    let f := s.nodeFid m
    let l := s.dom.links.map fun (y : Link) => if y.hasEnd f q then { y with up := false, lanes := 0 } else y
    ({ s with dom := { s.dom with links := l } } : State).showDomain

/-- The links of an agent that is not admitted count as failed (R422). -/
def State.failLinks (s : State) (f : Fid) : State :=
  let l := s.dom.links.map fun (y : Link) => if y.aId = f ∨ y.bId = f then { y with up := false, lanes := 0 } else y
  ({ s with dom := { s.dom with links := l } } : State).showDomain

/-- A rejoin ends without success: the event of the endpoint with the step, which stays out until a later compute reset (R42, R469). -/
def State.rejoinFailed (s : State) (f : Fid) (step : Nat) : State :=
  let s : State := { s with dom := { s.dom with rejoins := s.dom.rejoins.filter fun x => x.fid != f
                                                rejoinOut := (s.dom.rejoinOut ++ [f]).dedup } }
  s.present { origin := f, source := 192, severity := 2, detail := BitVec.ofNat 16 (0x10 + step), timeNs := s.now, agentOrigin := true }

/-- A known-answer run failed or its order found no answer: the step of a rejoin is tried once more (R42); an agent in discovery is
not admitted (R422). -/
def State.katFailed (s : State) (f : Fid) : State :=
  match s.dom.rejoins.find? fun x => x.fid == f with
  | some r =>
    if r.tries = 0 then
      let l := s.dom.rejoins.map fun (x : Rejoin) => if x.fid = f then { x with tries := 1 } else x
      ({ s with dom := { s.dom with rejoins := l } } : State).sendHooked f 0x21 [] .kat
    else s.rejoinFailed f 2
  | none => if s.dom.known.any fun k => k.fid == f && k.katAsked && !k.admitted then s.failLinks f else s

/-- A packet of the controller ends without success: what waits for its answer learns it (R106, R107). -/
def State.hookFailed (s : State) (k : AckKind) (f : Fid) (status : Nat) (value : Word64) : State :=
  match k with
  | .install v _ => s.installFailed v status
  | .commit v => if status = 0xF2 then s.commitRefused v f else s
  | .stage id _ => s.stageFailed id status
  | .reserve g a => s.reserveRefused g a
  | .freeOrder g a => s.freeAnswered g a
  | .sendTag e t => s.completeTag e t status value
  | .sendBlock e => s.setEngine e ((s.engine e).answered status value)
  | .play _ => s
  | .claim => s.claimFailed f
  | .streamsReset _ => s
  | .kat => s.katFailed f
  | .takeoverRead r => s.takeoverRead f r none
  | .other => s

/-- The controller's own streams toward and from an agent that was reset start again (R471): its records of them go, and its
packets toward the agent end with an error. -/
def State.restartOwn (s : State) (far : Fid) : State :=
  let mine := fun (k : Nat) => k / 65536 == far.toNat
  let lost := s.hooks.filter fun k => k.dest == some far
  let x := s.streams
  let hdrs := (x.tx.filter fun k => mine k.1).flatMap fun k => k.2.outstanding.map (·.pkt.hdr)
  let s : State := { s with hooks := s.hooks.filter fun k => k.dest != some far
                            streams := { tx := x.tx.keep fun k _ => !mine k, rx := x.rx.keep fun k _ => !mine k } }
  let s := s.forEach hdrs fun s h => s.emit (.packetDone .ctl h.dest h.stream h.seq 0xF0)
  s.forEach lost fun s k => s.hookFailed k.kind far 0xF0 0

/-- Links with a bootstrap key at an end (R336). -/
def State.bootLinks (s : State) : List (Node × Nat) :=
  s.dom.links.filterMap fun l => match s.nodeOf l.aId, s.nodeOf l.bId with
    | some n, some m => if l.up && ((s.port n l.aPort).key == 1 || (s.port m l.bPort).key == 1) then some (n, l.aPort) else none
    | _, _ => none

/-- LRE1 gives the links that run on bootstrap keys link keys, once discovery has closed (R336, R337, R358, R424). -/
def State.keyLinks (s : State) : State :=
  if s.dom.closed then s.forEach s.bootLinks fun s x => s.rekeyLink x.1 x.2 (2 ^ 32) else s

/-- LINK_TRAIN_DONE (R22, R117, R421): the outcome of a training, and at a controller port of a ready controller a discovery
request. An outcome that comes after discovery has closed is recorded too (R437), one after 4 s of training is a failure. -/
def execLinkTrainDone (n : Node) (port lanes planned delayPs : Nat) (far : Fid) (farPort : Nat) (s : State) : Answer :=
  let width := match n with | .ctl => 4 | .agent _ => planned
  let lanes := if (s.port n port).state = 1 ∧ (s.port n port).trainNs + 4000000000 < s.now then 0 else lanes
  let x := ({ s.port n port with planned := width, delayPs := delayPs, farId := far, farPort := farPort } : PortSt).trained lanes
  let s := ((s.setPort n port x).showNodePorts n).closeTrainShadow n port
  let s := s.learnLink (s.nodeFid n) port x lanes
  .next (match n with
    | .ctl => if s.ready then s.keyLinks.askDiscovery port else s
    | .agent _ => s.keyLinks)

/-- TRAIN_TIMEOUT (R421): 4 s without an outcome count as a failure. -/
def execTrainTimeout (n : Node) (port : Nat) (s : State) : Answer :=
  let x := s.port n port
  if x.state ≠ 1 ∨ s.now < x.trainNs + 4000000000 then .next s
  else
    let x := x.trained 0
    .next ((((s.setPort n port x).showNodePorts n).closeTrainShadow n port).learnLink (s.nodeFid n) port x 0)

/-- RETRAIN_COMPLETE (R136, R263, R421): a port retrain ends; admission and tree bounds are checked at the new width. A link below half
width is handled as a failed one; one that failed before stays out of service until an install (R167). -/
def execRetrainComplete (n : Node) (port lanes : Nat) (s : State) : Answer :=
  let x := (s.port n port).trained lanes
  let f := s.nodeFid n
  let s := ((s.setPort n port x).showNodePorts n).closeTrainShadow n port
  let s := s.learnLink f port x lanes
  .next ((if x.state = 2 ∨ x.state = 3 then s.keyLinks.recheckLink f port else s.reportDown f port).checkBounds)

/-- A retrain that the operator orders on a controller port (R91, R136, R426, R432): the link is down while it lasts. -/
def State.retrainPort (s : State) (p : Nat) : State :=
  let s := (s.resetPort .ctl p).showPorts
  let links := s.dom.links.map fun (y : Link) => if y.hasEnd s.fid p then { y with up := false } else y
  let s : State := { s with dom := { s.dom with links := links } }
  let shadow : Shadow := { kind := 64, origin := s.fid, port := p, openNs := s.now }
  ({ s with col := { s.col with shadows := s.col.shadows ++ [shadow] } } : State).queueWake p 4

/-- PORT_RETRAIN (R91, R426): LNK_CTRL.RETRAIN written as 1 for the selected port. -/
def execPortRetrain (lvl : Level) (v : Word64) (s : State) : Answer :=
  match lvl with
  | .tenant => .next (s.violation lvl)
  | _ => if LNK_CTRL_RETRAIN.of v = 1 then .next (s.retrainPort (s.fld LNK_SEL_PORT)) else .next s

/-! ## Bring-up (R417 to R420, R423) -/

/-- The failures of a known-answer run (R419); none where the controller does not become ready. -/
def State.bringFailures (s : State) (r : PhaseResult) : Option State :=
  let arbiters := (List.range 3).filter fun b => !s.votes b || r.failedBlocks.contains b
  if 2 ≤ arbiters.length ∨ r.failedBlocks.contains 63 ∨ r.gatesOk = false then none
  else some (s.forEach r.failedBlocks fun s b => if b < 3 then s.fence b 0 else s.retire b)

/-- Bring-up ends here: the controller does not become ready, and FAULT_N is asserted (R418, R419). -/
def State.stopBringup (s : State) : State := ({ s with pwr := { s.pwr with stuck := true } } : State).assertFaultN

/-- Ends a phase: the next one begins. -/
def State.nextPhase (s : State) (n : Nat) : State := s.setFld PWR_STATUS_PHASE n

/-- Phase 1: the power-cycle count rises after a power good, and an unfinished wipe is repeated (R349, R384, R417). -/
def State.phase1 (s : State) : State :=
  let s : State := { s with sec := { s.sec with wipePending := false } }
  let s := if s.pwr.resetKind = 0 then
      ({ s with sec := { s.sec with powerCycles := s.sec.powerCycles + 1 } } : State).satFld LED_PCYCLE_COUNT 1
    else s
  s.nextPhase 2

/-- Phase 2: the boot image is verified and measured (R351, R352, R418); ports train from now on. -/
def State.phase2 (s : State) (r : PhaseResult) : State :=
  if r.bootOk = false then s.stopBringup
  else
    let s := (s.extendMeas 0 Config.romIdentity).extendMeas 1 r.bootDigest
    let s := (s.extendMeas 4 (sha384 [BitVec.ofNat 8 s.sec.lifeCycle])).setFld LED_FLASH_FLASH_OK 1
    let s := s.forEach (List.range 72) fun s p =>
      (s.setPort .ctl p { s.port .ctl p with state := 1, trainNs := s.now }).queueWake p 4
    s.showPorts.nextPhase 3

/-- Phase 4: memory is zero-filled under a new system key, and LED_SEQ goes on above the ring's highest (R384, R417). Then the
quarters ungate in turn for their known-answer runs, in class 4 (R35). -/
def State.phase4 (s : State) : State :=
  let next := s.led.ring.foldl (fun m x => max m (x.2.seq + 1)) 0
  let s : State := { s with hbm := [], spill := [] }
  let s := (s.setFld LED_SEQ_NEXT_SEQ (if s.pwr.resetKind = 0 then 0 else next)).nextPhase 5
  s.forEach (List.range 48) fun s q => s.ungateReq 4 q

/-- Phase 5: squares that failed are excluded, and every quarter is gated again (R21, R417). -/
def State.phase5 (s : State) (r : PhaseResult) : State :=
  let s : State := { s with sq := { s.sq with excluded := (s.sq.excluded ++ r.failedSquares).dedup, quarters := [], tested := [], ungate := [] } }
  (s.showCfb.showGated).nextPhase 6

/-- Loads a program slot from flash (R208, R417): a signed vendor image that RT0 verified, measured into MEAS2. -/
def State.loadSlot (s : State) (slot : Nat) (sigOk : Bool) (l : List Byte) : State :=
  let p := programOf l .operator 0
  if slot < 32 ∧ sigOk ∧ programOk l ∧ programDigestOk l ∧ p.signed ∧ p.level = .vendor then
    ({ s with programs := s.programs.set slot p } : State).extendMeas 2 (BitVec.ofNat 384 (beAt l 16 48))
  else s

/-- Starts a resident program on its engine (R209, R417). -/
def State.startResident (s : State) (e : Nat) : State :=
  match s.programs.get e with
  | some p => s.setEngine e { running := true, level := .vendor, budget := 2 ^ 48 - 1, code := p.code }
  | none => s

/-- A local ID lies in the range of a kind (R76). -/
def idInRange (v : Variant) (i : Nat) : Bool :=
  match v with
  | .e => decide (i < 0x8000)
  | .s => decide (0x8000 ≤ i ∧ i < 0xA000)

/-- An entry assigns an ID of the domain in the range of its kind (R76, R423). -/
def entryInRange (domain : Nat) (x : BitVec 384 × Fid × Variant) : Bool := x.2.1.domain == domain && idInRange x.2.2 x.2.1.localId

/-- Entries of the inventory: of two that name one certificate or one fabric ID the first stands, and one that breaks R76 is
ignored (R423; log entry 21); answers how many were ignored. -/
def cleanInventory (domain : Nat) (l : List (BitVec 384 × Fid × Variant)) : List (BitVec 384 × Fid × Variant) × Nat :=
  l.foldl (fun r x => if entryInRange domain x = false ∨ r.1.any (fun y => y.1 == x.1 || y.2.1 == x.2.1) then (r.1, r.2 + 1)
    else (r.1 ++ [x], r.2)) ([], 0)

/-- The inventory's header stands: its CRC, a domain number of R77 and a controller's local ID of R76 (R423; log entry 21). -/
def inventoryStands (r : PhaseResult) : Bool :=
  r.inventoryOk && decide (1 ≤ r.domainNum.toNat ∧ r.domainNum.toNat ≤ 0xFFFE) && (r.localId == 0xA000 || r.localId == 0xA001)

/-- Takes the domain inventory (R423): MEAS6, header, entries, and an event for every entry that is ignored. -/
def State.takeInventory (s : State) (r : PhaseResult) : State :=
  let s := s.extendMeas 6 r.inventoryDigest
  if inventoryStands r = false then s
  else
    let l := cleanInventory r.domainNum.toNat r.inventory
    let s : State := { s with
      dom := { s.dom with inventory := l.1, domain := r.domainNum.toNat, localId := r.localId.toNat, mac := r.mac, ip := r.ip, gateway := r.gateway
                          partnerId := r.partnerId, ptpDomain := r.ptpDomain, ptpUdp := r.ptpUdp }
      sec := { s.sec with anchor := r.anchorDigest } }
    s.forEach (List.range (r.badEntries + l.2)) fun s _ => s.raise 0x0000 1

/-- Phase 6: program slots, the inventory, the resident programs. -/
def State.phase6 (s : State) (r : PhaseResult) : State :=
  let s := s.forEach r.slotImages fun s x => s.loadSlot x.1 (!r.badSlots.contains x.1) x.2
  ((s.takeInventory r).forEach [0, 1, 2, 3] State.startResident).nextPhase 7

/-- Controller ready (R417, R388, R423): READY, the boot marker, the resident program's writes, and discovery on every port
that is up. R145 gives DOMAIN its value from the inventory; DESIGN CHOICE (log entry 167): TRANSPORT has its from there too. -/
def State.becomeReady (s : State) : State :=
  let s := (s.setFld PWR_STATUS_READY 1).nextPhase 0
  let s := s.toWriter (s.ownRecord 0x0018 2 1 (BitVec.ofNat 16 s.pwr.resetKind) s.operMs s.operTick)
  let s := s.setFld TRI_STANDBY_CFG_PARTNER_ID s.dom.partnerId.toNat
  let s := (s.setFld TIM_PTP_CFG_DOMAIN s.dom.ptpDomain.toNat).setFld TIM_PTP_CFG_TRANSPORT (bit s.dom.ptpUdp)
  s.forEach (List.range 72) State.askDiscovery

/-- BRINGUP_PHASE_DONE (R417 to R419): the phase in progress completes and the next one begins. -/
def execBringupPhaseDone (r : PhaseResult) (s : State) : Answer :=
  if s.pwr.pwrgd = false ∨ s.pwr.tripped ∨ s.pwr.stuck then .next s
  else
    let n := s.fld PWR_STATUS_PHASE
    if n = 0 then .next s
    else if n = 1 then .next s.phase1
    else if n = 2 then .next (s.phase2 r)
    else match s.bringFailures r with
      | none => .next s.stopBringup
      | some s =>
        if n = 3 then .next (s.nextPhase 4)
        else if n = 4 then .next s.phase4
        else if n = 5 then .next (s.phase5 r)
        else if n = 6 then .next (s.phase6 r)
        else .next s.becomeReady

/-! ## Discovery (R422, R428, R333) -/

/-- Local IDs that are taken: known agents and inventory entries of this domain. -/
def State.idTaken (s : State) (i : Nat) : Bool :=
  (s.dom.known.any fun k => k.fid == s.fidOf i) || s.dom.inventory.any fun x => x.2.1 == s.fidOf i

/-- The lowest free local ID of a kind, if one is left (R76, R422). -/
def State.lowestId (s : State) (v : Variant) : Option Nat :=
  match v with
  | .e => (List.range 0x8000).find? fun i => !s.idTaken i
  | .s => ((List.range 0x2000).map (0x8000 + ·)).find? fun i => !s.idTaken i

/-- The fabric ID an agent gets, if one is left, and whether its kind differs from its entry (R422, R423). -/
def State.assignId (s : State) (r : DiscoverInfo) : Option Fid × Bool :=
  match s.dom.known.find? fun k => k.ref == r.agent with
  | some k => (some k.fid, false)
  | none =>
    let lowest := (s.lowestId r.agent.variant).map s.fidOf
    match s.dom.inventory.find? fun x => x.1 == r.certDigest with
    | some x => if x.2.2 = r.agent.variant then (some x.2.1, false) else (lowest, true)
    | none => (lowest, false)

/-- The two ends of the link on which discovery reached an agent know each other. -/
def State.joinEnds (s : State) (a : AgentRef) (f : Fid) (p : Nat) : State :=
  let x := s.port (.agent a) p
  match s.nodeOf x.farId with
  | some n => s.setPort n x.farPort { s.port n x.farPort with farId := f, farPort := p }
  | none => s

/-- The claim generation: above every generation found (R422). -/
def State.raiseGeneration (s : State) (found : Nat) : State :=
  if s.fld TRI_STANDBY_STATUS_GENERATION ≤ found then s.setFld TRI_STANDBY_STATUS_GENERATION (found + 1) else s

/-- Claims an agent, with the fabric ID to assign (R59, R101, R422). -/
def State.claimOne (s : State) (f : Fid) (digest : BitVec 384) : State :=
  (s.mirrorOut 8).sendHooked f 0x33 (s.claimBytes noFid f (digest.toNat / 2 ^ 320)) .claim

/-- Claims the known agents again under a raised generation. -/
def State.reclaim (s : State) : State :=
  s.forEach s.dom.known fun s k => s.sendHooked k.fid 0x33 (s.claimBytes k.fid noFid 0) .claim

/-- The partition of a reporting endpoint is opened again and its device assigned; a scrub in progress starts again (R428). -/
def State.adoptDevice (s : State) (f : Fid) (r : DiscoverInfo) : State :=
  let e := f.localId
  let s := if r.partition = 0 ∨ (s.part r.partition.toNat).state ≠ 0 then s
    else
      let n := s.sec.nextKey
      ({ s with sec := { s.sec with nextKey := n + 1 } } : State).setPart r.partition.toNat { state := 1, spillKey := some n }
  if r.scrubbing then
    let former := match (s.agent r.agent).scrub with | some x => x.former | none => (s.dev e).partition
    (s.setDev e { s.dev e with partition := former }).orderScrub e
  else if (s.dev e).state = 1 then s.setPartition e (s.dev e).partition
  else if r.partition = 0 ∨ (s.dev e).state ≠ 0 then s
  else s.setDev e { s.dev e with state := 1, partition := r.partition }

/-- Epoch number and boundaries from the first agent that answers on the lowest-numbered trained port, corrected by the link's delay
(R428). -/
def State.adoptEpoch (s : State) (port : Nat) (r : DiscoverInfo) : State :=
  if s.dom.adopted ∨ (List.range port).any (fun p => s.portUp .ctl p) then s
  else
    let slot := s.jfld r.agent JX_EPOCH_SLOT
    let delay := (s.port .ctl port).delayPs / 128000
    let s := (s.setFld SCH_EPOCH_NOW_EPOCH_NUM r.epochNum).setFld SCH_EPOCH_NOW_SLOT slot
    { s with dom := { s.dom with adopted := true }, time := { s.time with epochTick := slot * s.geometry.2 + delay } }

/-- Enters an agent among the known ones. -/
def State.enterKnown (s : State) (k : Known) : State :=
  { s with dom := { s.dom with known := (s.dom.known.filter fun x => x.ref != k.ref) ++ [k] } }

/-- Discovery goes on with an agent that has a fabric ID (R422, R428, R333): its transport and link keys, its tables' version, its
epoch and device, and its claim. -/
def State.discover (s : State) (port : Nat) (r : DiscoverInfo) (f : Fid) (other : Bool) : State :=
    let old := s.dom.known.find? fun k => k.ref == r.agent
    let s := if other then s.raise 0x0000 1 else s
    let gen := s.fld TRI_STANDBY_STATUS_GENERATION
    let s := s.raiseGeneration r.ownerGeneration.toNat
    let k : Known := { ref := r.agent, fid := f, ports := r.ports, version := r.installVersion, memBytes := r.memBytes, port := port, agentPort := r.agentPort
                       claimSentNs := s.now, cert := r.certDigest, release := r.release, needsRestart := old.isSome
                       full := r.installVersion == 0 || !(s.copyOf f).allPatches.isEmpty }
    let s := (s.enterKnown k).discoveryAnswered port
    let s := if old.isSome then s.restartOwn f else s
    let s := s.updAgent r.agent fun g => { g with transportKey := true, memBytes := r.memBytes }
    let s := (s.joinEnds r.agent f r.agentPort).rekeyLink (.agent r.agent) r.agentPort (2 ^ 32)
    let s := s.setFld RTE_INSTALL_VERSION_ACTIVE (max (s.fld RTE_INSTALL_VERSION_ACTIVE) r.installVersion.toNat)
    let s := (s.adoptEpoch port r).adoptDevice f r
    let s := s.claimOne f r.certDigest
    if gen ≠ 0 ∧ gen < s.fld TRI_STANDBY_STATUS_GENERATION then s.reclaim else s

/-- DISCOVER_RESP (R422, R423, R428, R333): an agent answers discovery. A failed chain is no admission, with a security
record, and its link counts as failed. DESIGN CHOICE (log entry 21): an agent for whose kind no ID is left is not admitted. -/
def execDiscoverResp (port : Nat) (r : DiscoverInfo) (s : State) : Answer :=
  if s.ready = false then .next s
  else if r.chainOk = false then .next ((s.securityRecord 0x1A05 0).failReached r.agent r.agentPort)
  else match s.assignId r with
    | (some f, other) => .next (s.discover port r f other)
    | (none, _) => .next s

/-- A claim is acknowledged (R412, R422): the known-answer run follows the claim of discovery. -/
def State.claimAcked (s : State) (f : Fid) : State :=
  let ask := s.dom.known.any fun k => k.fid == f && !k.katAsked && !k.admitted
  let s : State := { s with dom := { s.dom with known := s.dom.known.map fun k =>
    if k.fid = f then { k with claimAcked := true, katAsked := true } else k } }
  let s := if ask then s.sendHooked f 0x21 [] .kat else s
  s.takeoverDone

/-- CLAIM_ACK_TIMEOUT (R412): an agent that has not acknowledged a claim within 100 µs gets it as unicast. -/
def execClaimAckTimeout (dest : Fid) (s : State) : Answer :=
  match s.dom.known.find? fun k => k.fid == dest with
  | none => .next s
  | some k =>
    if k.claimAcked ∨ s.now < k.claimSentNs + 100000 then .next s
    else
      let s : State := { s with dom := { s.dom with known := s.dom.known.map fun (y : Known) => if y.fid = dest then { y with claimSentNs := s.now } else y } }
      .next (s.sendHooked dest 0x33 (s.claimBytes dest noFid 0) .claim)

/-! ## Admission of agents (R422, R424, R471) -/

/-- An agent comes into service by an install, once discovery has closed (R424, R437, R471). -/
def State.intoService (s : State) (f : Fid) : State :=
  let s : State := { s with
    rte := { s.rte with failed := if s.dom.closed then s.rte.failed else s.rte.failed.filter (· != (f, none)) }
    dom := { s.dom with known := s.dom.known.map fun k => if k.fid = f then { k with needsRestart := false } else k } }
  if s.dom.closed then (s.keyLinks.submitInstall [(f, s.serviceTables f)] .nobody).useFree else s

/-- STREAMS_RESET for an agent admitted again (R471): to every agent by BCAST. -/
def State.startRestart (s : State) (f : Fid) : State :=
  let others := s.admittedIds.filter (· != f)
  let s := s.broadcast 0x38 (leBytes 4 f.toNat ++ zeros 12) (some (.streamsReset f))
  if others.isEmpty then s.intoService f
  else { s with dom := { s.dom with restarts := (s.dom.restarts.filter fun x => x.1 != f) ++ [(f, others, s.now)] } }

/-- An agent has acknowledged a STREAMS_RESET, or counts as failed; after the last one the reset agent comes into service. -/
def State.restartAcked (s : State) (target f : Fid) : State :=
  match s.dom.restarts.find? fun x => x.1 == target with
  | none => s
  | some x =>
    let left := x.2.1.filter fun y => y != f && s.admittedIds.contains y
    let rest := s.dom.restarts.filter fun y => y.1 != target
    if left.isEmpty then ({ s with dom := { s.dom with restarts := rest } } : State).intoService target
    else { s with dom := { s.dom with restarts := rest ++ [(target, left, x.2.2)] } }

/-- Restarts that wait for nobody any longer, since the last agents were treated as failed, end (R471). -/
def State.settleRestarts (s : State) : State :=
  let done := (s.dom.restarts.filter fun x => x.2.1.isEmpty).map (·.1)
  let s : State := { s with dom := { s.dom with restarts := s.dom.restarts.filter fun x => !x.2.1.isEmpty } }
  s.forEach done State.intoService

/-- STREAMS_RESET_TIMEOUT (R471): unicast to an agent that has not acknowledged within 100 µs. -/
def execStreamsResetTimeout (dest : Fid) (s : State) : Answer :=
  let late := s.dom.restarts.filter fun x => x.2.1.contains dest && decide (x.2.2 + 100000 ≤ s.now)
  .next (s.forEach late fun s x =>
    let l := s.dom.restarts.map fun y => if y.1 = x.1 then (y.1, y.2.1, s.now) else y
    ({ s with dom := { s.dom with restarts := l } } : State).sendHooked dest 0x38 (leBytes 4 x.1.toNat ++ zeros 12) (.streamsReset x.1))

/-- Admits an agent (R352, R422, R471). -/
def State.admitAgent (s : State) (k : Known) : State :=
  let s : State := { s with dom := { s.dom with known := s.dom.known.map fun (y : Known) => if y.fid = k.fid then { y with admitted := true } else y } }
  let s := (s.extendMeas 5 (sha384 (digestBytes k.cert ++ leBytes 2 k.release.toNat))).showDomain
  if k.needsRestart then s.startRestart k.fid else s.intoService k.fid

/-- DISCOVERY_CLOSE (R424, R428): base tables for the widths as trained are installed into every agent without tables, and the
links not keyed yet get link keys. Agents with tables keep them until an ADMIT or the operator's order. -/
def execDiscoveryClose (s : State) : Answer :=
  if s.dom.closed ∨ s.ready = false then .next s
  else
    let s : State := { s with dom := { s.dom with closed := true } }
    let bare := (s.dom.known.filter fun k => k.admitted && k.version == 0).map (·.fid)
    let sets := bare.map fun f => (f, Config.baseTables s.fresh f.toNat)
    let s := s.keyLinks
    .next (if sets.isEmpty then s.setFld PWR_STATUS_DOMAIN_READY 1 else (s.submitInstall sets .nobody).useFree)

/-- DOMAIN_READY once a commit is in force after discovery closed (R424). -/
def State.showDomainReady (s : State) : State := if s.dom.closed then s.setFld PWR_STATUS_DOMAIN_READY 1 else s

/-! ## The rejoin of an endpoint (R42) -/

/-- Step 3: every session key the endpoint's slots held is installed again. -/
def State.rejoinKeys (s : State) (a : AgentRef) (f : Fid) : State :=
  let slots := s.sec.keys.flatMap fun k => (k.2.targets.filter fun t => t.1 == 2 && t.2.1 == f.toNat).map fun t => (t.2.2, k.1)
  s.updAgent a fun g => { g with keySlots := slots.foldl (fun m x => m.set x.1 x.2) g.keySlots }

/-- A slot descriptor in an endpoint's memory reads VALID (R311). -/
def State.slotValid (s : State) (e : Nat) (d : DevFootprint) (slot : Nat) : Bool :=
  match s.devAgent e with
  | some a => leAt ((s.agent a).mem.readBytes (descAt d slot + 63) 1) 0 1 != 0
  | none => false

/-- Step 5: the replicas the bundles declared on the endpoint return where their descriptors still read VALID. -/
def State.rejoinReplicas (s : State) (e : Nat) : State :=
  let decl := s.plc.feet.flatMap fun f => f.foot.replicas.map fun r => (f.partition, r)
  let back := decl.filter fun x => x.2.endpoint == e &&
    (match s.poolOf x.1.toNat e with | some d => s.slotValid e d x.2.slot | none => false)
  let add := fun (x : Expert) =>
    let l := back.filter fun r => r.1 == x.partition && r.2.layer == x.layer && r.2.expert == x.expert
      && !(x.replicas.any fun y => y.endpoint == e)
    { x with replicas := x.replicas ++ l.map fun r => { endpoint := e, tier := r.2.tier, cap := r.2.cap, slot := r.2.slot
                                                        declared := true, weightBytes := r.2.weightBytes } }
  let touched := s.plc.experts.filter fun x => add x != x
  let s : State := { s with plc := { s.plc with experts := s.plc.experts.map add } }
  s.brokerInstall (touched.map add)

/-- One step of a rejoin. -/
def State.rejoinStep (s : State) (a : AgentRef) (f : Fid) (n : Nat) : State :=
  match n with
  | 2 => s.sendHooked f 0x21 [] .kat
  | 3 => s.rejoinKeys a f
  | 4 => (s.registerEndpoint a (s.agent a).partition f.localId).bindAgent f
  | 5 => s.rejoinReplicas f.localId
  | _ => s.sendHooked f 0x30 (leBytes 8 4) .other (BitVec.ofNat 57 JX_CTRL)

/-- The rejoin goes on after its known-answer run: steps 3 to 6, up to one that fails twice. -/
def State.rejoinRest (s : State) (a : AgentRef) (r : Rejoin) : State :=
  let s : State := { s with dom := { s.dom with rejoins := s.dom.rejoins.filter fun x => x.fid != r.fid } }
  match r.failsAt with
  | none => s.forEach [3, 4, 5, 6] fun s n => s.rejoinStep a r.fid n
  | some k => (s.forEach ([3, 4, 5, 6].filter fun n => decide (n < k)) fun s n => s.rejoinStep a r.fid n).rejoinFailed r.fid k

/-- The endpoint may rejoin: out of reset, not rejoined, and no earlier rejoin of this reset failed (R42). -/
def State.mayRejoin (s : State) (a : AgentRef) : Bool :=
  let f := s.nodeFid (.agent a)
  a.variant == .e && f != noFid && s.jfld a JX_STATUS_COMPUTE_IN_RESET == 0 && s.jfld a JX_STATUS_REJOINED == 0
    && !s.dom.rejoinOut.contains f

/-- REJOIN_START (R42): step 2 orders the known-answer run, whose result the others wait for; `failedStep` is a step that fails
twice. -/
def execRejoinStart (a : AgentRef) (failedStep : Option Nat) (s : State) : Answer :=
  let f := s.nodeFid (.agent a)
  if s.mayRejoin a = false then .next s
  else
    let r : Rejoin := { fid := f, failsAt := failedStep }
    let s : State := { s with dom := { s.dom with rejoins := (s.dom.rejoins.filter fun x => x.fid != f) ++ [r] } }
    .next (s.rejoinStep a f 2)

/-! ## Known-answer results (R42, R102, R422, R473) -/

/-- A known-answer run passed: the rejoin goes on (R42), or the agent in discovery is admitted (R422). -/
def State.katPassed (s : State) (f : Fid) : State :=
  match s.dom.rejoins.find? fun x => x.fid == f, s.refOf f with
  | some r, some a => s.rejoinRest a r
  | _, _ => match s.dom.known.find? fun k => k.fid == f && k.katAsked && !k.admitted with
    | some k => s.admitAgent k
    | none => s

/-- KAT_RESULT (R42, R102, R422, R473): STATUS form 2 of an agent in discovery admits or rejects it; that of a rejoining endpoint ends
step 2. -/
def execKatResult (p : Packet) (s : State) : Answer :=
  .next (s.accept .ctl p fun s => (if leAt p.payload 4 4 = 0 then s.katPassed p.hdr.src else s.katFailed p.hdr.src, none))

end Sys2Proof.Machine
end

