-- ==== Sys2Proof/Machine/Reports.lean ====
section
/-! DEFINITION. What agents report (R57, R60, R63, R102, R368, R369), port sleep and the wake budget (R429 to R432, R437), and
power intervals (R344, R435, R436). -/

namespace Sys2Proof.Machine

/-! ## Events (R63, R102, R368) -/

/-- An event from its record and its capture record, with the time converted to controller time (R63, R368, R369). -/
def eventOf (origin : Fid) (phase : Int) (r : List Byte) (cap : Option (List Byte)) : Event :=
  let flags := leAt r 9 1
  let t := ((leAt r 0 8 : Int) - phase).toNat
  let c := cap.map fun l => ({ addr := BitVec.ofNat 64 (leAt l 0 8), initiator := BitVec.ofNat 32 (leAt l 8 4)
                               access := BitVec.ofNat 8 (leAt l 12 1), timeNs := t
                               detail := BitVec.ofNat 16 (leAt r 14 2) } : Capture)
  { origin := origin, source := leAt r 8 1, port := leAt r 12 2, severity := flags / 32, shadow := flags / 16 % 2 == 1
    forced := flags / 4 % 2 == 1, count := leAt r 10 2, detail := BitVec.ofNat 16 (leAt r 14 2), timeNs := t, capture := c
    agentOrigin := true }

/-- The events of a payload: records, each with its capture record where bit 3 of byte 9 is set. -/
def parseEvents (origin : Fid) (phase : Int) : Nat → List Byte → List Event
  | 0, _ => []
  | n + 1, l =>
    if l.length < 16 then []
    else if leAt l 9 1 / 8 % 2 = 1 then
      eventOf origin phase (slice l 0 16) (some (slice l 16 16)) :: parseEvents origin phase n (l.drop 32)
    else eventOf origin phase (slice l 0 16) none :: parseEvents origin phase n (l.drop 16)

/-- Directory entries whose page lies on an endpoint. -/
def State.pagesAt (s : State) (e : Nat) : List Nat :=
  (s.plc.pages.filter fun x => x.2.endpoint == e && x.2.state != 4).map (·.1)

/-- What the controller does at once with an agent's event: aborts at roots are counted (R269), a compute reset takes the
endpoint's replicas and pages (R313, R321). -/
def State.noteEvent (s : State) (ev : Event) : State :=
  let s := if ev.source = 71 ∧ ev.forced = false then
      let s := s.satFld GRP_ABORTS_ABORTS ev.count
      if ev.detail = 4 then s.satFld GRP_ABORTS_EXHAUSTED ev.count else s
    else s
  if ev.source = 192 ∧ ev.detail = 2 ∧ ev.origin.localId < 0x8000 ∧ ev.forced = false then
    (s.dropReplicas ev.origin.localId).losePages (s.pagesAt ev.origin.localId)
  else s

/-- EVENTS (R102, R369): acknowledged, and the records go to the collector. -/
def execEvents (p : Packet) (s : State) : Answer :=
  .next (s.accept .ctl p fun s =>
    let phase := match s.refOf p.hdr.src with | some a => (s.agent a).phaseNs | none => 0
    let l := parseEvents p.hdr.src phase (p.payload.length / 16) p.payload
    (s.forEach l fun s ev => (s.noteEvent ev).present ev, none))

/-- Where an area of the HBM system area lies in the model's map of it: the KV directory 0, the ledger ring 1, telemetry 2,
working state 3 (R26). -/
def hbmBase (area : Nat) : Nat := area * 2 ^ 40

/-- SAMPLES (R57, R26): the records go to the telemetry area, one after another from its start (log entry 47), where the gates
pass the write (R16). -/
def execSamples (p : Packet) (s : State) : Answer :=
  .next (s.consume .ctl p fun s =>
    let at_ := if 8589934592 < s.dom.telemetryAt + p.payload.length then 0 else s.dom.telemetryAt
    if s.gatesOpen = false then s
    else { s with hbm := s.hbm.writeBytes (hbmBase 2 + at_) p.payload, dom := { s.dom with telemetryAt := at_ + p.payload.length } })

/-- STATUS_REPORT (R102, R60): form 0 of a known agent; it is not acknowledged. -/
def execStatusReport (p : Packet) (s : State) : Answer :=
  .next (s.consume .ctl p fun s =>
    let l := s.dom.known.map fun k => if k.fid = p.hdr.src then
      { k with status := p.payload, version := BitVec.ofNat 32 (leAt p.payload 4 4) } else k
    let s : State := { s with dom := { s.dom with known := l } }
    if p.payload.length = 64 then s.slotsSeen p.hdr.src (leAt p.payload 24 8) else s)

/-! ## Port sleep (R429, R430, R437) -/

/-- A port of an agent carries a run of an admitted schedule, or stands in a slot patch of an armed gambit (R430). -/
def State.expressPort (s : State) (f : Fid) (p : Nat) : Bool :=
  (s.sch.admitted.any fun a => a.runs.any fun r => r.2.1 == f && r.2.2.1 == p)
    || s.rte.gambits.any fun g => g.armed && g.rec_.sections.any fun x => x.agent == f &&
      (match parsePatches (s.variantOf f) x.patches.length x.patches with
        | some l => l.any fun (q : Patch) => (q.kind == 2 || q.kind == 3) && q.port == p
        | none => false)

/-- The port may sleep: up, idle for IDLE_US, nothing waiting, no Express run (R429, R430, R435). -/
def State.maySleep (s : State) (n : Node) (p : Nat) : Bool :=
  let x := s.port n p
  let us := s.fld PWR_WAKE_CFG_IDLE_US
  us != 0 && s.portUp n p && x.farId != noFid && x.queue.isEmpty && decide (x.lastFrameNs + us * 1000 ≤ s.nodeNow n) &&
    match n with
    | .ctl => true
    | .agent _ => !s.expressPort (s.nodeFid n) p

/-- A port goes to sleep; keys, counters and training results stay. -/
def State.sleepPort (s : State) (n : Node) (p : Nat) : State :=
  (s.setPort n p { s.port n p with state := 6, sleepAsked := false }).showNodePorts n

/-- PORT_IDLE_TIMEOUT (R429): the sleep handshake starts. -/
def execPortIdleTimeout (n : Node) (port : Nat) (s : State) : Answer :=
  let x := s.port n port
  if s.maySleep n port = false ∨ x.sleepAsked then .next s
  else
    let s := s.sendPkt n { hdr := ownHdr x.farId 0x26 [] } true (some port)
    .next (s.setPort n port { s.port n port with sleepAsked := true })

/-- SLEEP (R429, R437, R98, R105): a port that may sleep too agrees by acknowledging, and sleeps; one that may not refuses with
reason 0x09 (DESIGN CHOICE, log entry 82). -/
def execSleep (n : Node) (port : Nat) (p : Packet) (s : State) : Answer :=
  let answer := fun (s : State) (typ : BitVec 8) (aux : BitVec 24) => s.originateOn n port (answerPkt (s.nodeFid n) p.hdr typ p.hdr.seq aux)
  if p.crcOk = false then .next (answer s 0x09 0x01)
  else if s.maySleep n port then .next ((answer (s.recordSeq n p.hdr) 0x08 0).sleepPort n port)
  else .next (answer (s.recordSeq n p.hdr) 0x09 0x09)

/-- The sleep handshake of a port has ended (R429): acknowledged, it sleeps, unless a frame has come between (R437). -/
def State.sleepAnswered (s : State) (n : Node) (port : Option Nat) (status : Nat) : State :=
  match port with
  | some p =>
    let x := s.port n p
    if status = 0 ∧ x.sleepAsked ∧ x.queue.isEmpty then s.sleepPort n p else s.setPort n p { x with sleepAsked := false }
  | none => s

/-! ## Wakes (R431, R432) -/

/-- Codes of the classes of R432. -/
def wakeCode : WakeClass → Nat
  | .recovery => 0
  | .control => 1
  | .collective => 2
  | .bulk => 3
  | .bringup => 4

/-- WAKE_REQUEST (R431, R432, R437): for a controller port whose lanes are not awake. -/
def execWakeRequest (port : Nat) (cls : WakeClass) (s : State) : Answer :=
  if s.portUp .ctl port then .next s else .next (s.queueWake port (wakeCode cls))

/-- The rail group of a controller port (R22, R34). -/
def railGroup (port : Nat) : Nat := port / 12

/-- The waiting request of a group served next: highest class, then first in. -/
def nextWake (l : List WakeReq) (group : Nat) : Option WakeReq :=
  (l.filter fun w => railGroup w.port == group).foldl (fun m w => match m with
    | none => some w
    | some x => if w.cls < x.cls ∨ (w.cls = x.cls ∧ w.order < x.order) then some w else some x) none

/-- Ticks since power good, for the wake window. -/
def State.tick (s : State) : Nat := s.now / 128

/-- Lanes a group was granted in the last 391 ticks. -/
def State.lanesGranted (s : State) (group : Nat) : Nat :=
  ((s.pwr.grants.filter fun g => g.1 == group && decide (s.tick < g.2.1 + 391)).map fun g => g.2.2).sum

/-- Grants waiting requests of a group until the budget is used up; the one it stops at counts as deferred once. -/
def State.grantWakes (s : State) (group : Nat) : Nat → State
  | 0 => s
  | n + 1 =>
    match nextWake s.pwr.wakeQ group with
    | none => s
    | some w =>
      if s.fld PWR_WAKE_CFG_WAKE_LANES < s.lanesGranted group + w.lanes then
        if w.deferred then s
        else
          let l := s.pwr.wakeQ.map fun (x : WakeReq) => if x.port = w.port then { x with deferred := true } else x
          ({ s with pwr := { s.pwr with wakeQ := l } } : State).satFld PWR_WAKE_STATUS_DEFERRED 1
      else
        let s : State := { s with pwr := { s.pwr with
          wakeQ := s.pwr.wakeQ.filter fun x => x.port != w.port
          grants := (s.pwr.grants.filter fun g => decide (s.tick < g.2.1 + 391)) ++ [(group, s.tick, w.lanes)]
          waking := s.pwr.waking ++ [w.port] } }
        (s.showWakes.satFld PWR_WAKE_STATUS_GRANTED 1).grantWakes group n

/-- WAKE_GRANT (R432): the tick of a rail group. -/
def execWakeGrant (group : Nat) (s : State) : Answer := .next (s.grantWakes group (s.pwr.wakeQ.length + 1))

/-- WAKE_COMPLETE (R429): a granted port is awake, and what waits for it goes. -/
def execWakeComplete (port : Nat) (s : State) : Answer :=
  if s.pwr.waking.contains port = false then .next s
  else
    let s : State := { s with pwr := { s.pwr with waking := s.pwr.waking.filter (· != port) } }
    .next (((s.setPort .ctl port (s.port .ctl port).wake).showPorts).pumpPort .ctl port)

/-! ## Power (R344, R435, R436) -/

/-- POWER_INTERVAL (R344, R435, R436): the 10 ms interval that just ended is latched for the package and every partition. -/
def execPowerInterval (packageW : Nat) (endpoints : List (Nat × Nat)) (s : State) : Answer :=
  let start := s.operMs / 10 * 10 - 10
  let s := s.setFld PWR_STATUS_PKG_POWER_W (min packageW 65535)
  let s := s.forEach endpoints fun s x => match s.devAgent x.1 with
    | some a => s.updAgent a fun g => { g with powerW := x.2 }
    | none => s
  let parts := (s.sec.parts.filter fun p => p.2.state != 0).map (·.1)
  let of := fun (p : Nat) => ((endpoints.filter fun x => (s.dev x.1).state == 1 && (s.dev x.1).partition.toNat == p).map (·.2)).sum
  .next { s with pwr := { s.pwr with partPower := parts.foldl (fun m p => m.set p (start % 2 ^ 32, min (of p) (2 ^ 32 - 1))) s.pwr.partPower } }

end Sys2Proof.Machine
end

