-- ==== Sys2Proof/Machine/Time.lean ====
section
/-! DEFINITION. The time base and its ticks (R28 to R30, R462, R103, R119), geometry (R115, R116), SYNC_IN steering (R139 to R143,
R441), calendar time (R138, R441, R454), beacons (R60, R100) and the epoch boundary (R45, R139, R285). -/

namespace Sys2Proof.Machine

/-! ## The slot tick (R28, R29) -/

/-- Counters of the time base after one tick: ns, tick sequence, the offset H3 measures (a free value, log entry 48), calendar,
operating time (R28, R30, R145, R384). -/
def State.countTick (s : State) : State :=
  let s := s.setReg TIM_NOW (s.reg TIM_NOW + 128)
  let s := s.setFld TIM_TICK_TICK_SEQ (s.fld TIM_TICK_TICK_SEQ + 1)
  let s := s.setFld TIM_STATUS_B_OFFSET_PS (BitVec.ofInt 16 ((Config.standbyOffset s.now % 4001 : Nat) - 2000 : Int)).toNat
  let s := s.setReg TIM_CAL (s.reg TIM_CAL + 128)
  let s : State := { s with time := { s.time with operNs := s.time.operNs + 128 } }
  s.setFld LED_TIME_OPER_MS (s.time.operNs / 1000000)

/-- The slot after so many ticks of an epoch: it stays at the last one in the open time of a lengthened epoch (R114, R139). -/
def currentSlot (tick slots slotTicks : Nat) : Nat := min (tick / max 1 slotTicks) (slots - 1)

/-- Reduction-memory bytes credited at each tick (R462). -/
def accountRate : Variant → Nat
  | .s => 16000 * 128
  | .e => 2000 * 128

/-- One nanosecond of a beacon correction is slewed every 1,024 ns (R119). -/
def Agent.slew (g : Agent) (due : Bool) : Agent :=
  if due = false ∨ g.slewNs = 0 then g
  else if 0 < g.slewNs then { g with slewNs := g.slewNs - 1, phaseNs := g.phaseNs + 1 }
  else { g with slewNs := g.slewNs + 1, phaseNs := g.phaseNs - 1 }

/-- A port after one tick: the Control bucket refills at 5 % of port bandwidth (R103), and the output queue drains (R150). -/
def PortSt.tick (x : PortSt) : PortSt :=
  { x with bucket := min 66560 (x.bucket + 160 * x.lanes), depth := x.depth - 50 * x.lanes }

/-- The agent under a map key. -/
def refOfKey (k : Nat) : AgentRef := { variant := if k % 2 = 0 then .s else .e, num := k / 2 }

/-! ### Boundaries of an agent (R45, R139, R140, R146) -/

/-- Contexts whose tree has no head in the bank that is active now are free, with their sets and results (R285). -/
def State.freeHeadless (s : State) (a : AgentRef) : State :=
  let b := (s.agent a).active
  s.freeCtxs a fun c => (b.head c.treeId).isNone

/-- The boundary at one agent: time step, swap, contexts of replaced trees, dispatch counters, a deferred E-DEEP. -/
def State.boundaryAt (s : State) (a : AgentRef) : State :=
  let old := (s.agent a).active
  let swaps := s.jfld a JX_STATUS_BANK_ACTIVE
  let s := s.agentBoundary a
  let s := if s.jfld a JX_STATUS_BANK_ACTIVE = swaps then s
    else (s.updAgent a fun g => { g with disp := g.disp.swap old g.active }).freeHeadless a
  s.deferredDeep a

/-- Ticks until the controller's epoch in progress closes. -/
def State.ticksLeft (s : State) : Int := (s.epochLen : Int) - s.time.epochTick

/-- The controller's boundary reaches an agent: it crosses it now, unless adjustments that it missed and no beacon has restored yet
place its own boundary later, or placed it earlier (R119, R139, R146). -/
def State.openAtAgent (s : State) (a : AgentRef) : State :=
  let g := s.agent a
  if g.crossed then s.updAgent a fun g => { g with crossed := false }
  else
    let s := if g.boundaryIn.isSome then (s.updAgent a fun g => { g with boundaryIn := none }).boundaryAt a else s
    let g := s.agent a
    if 0 < g.late ∧ g.realign = false then s.updAgent a fun g => { g with boundaryIn := some g.late.toNat }
    else s.boundaryAt a

/-- At a tick, an agent whose boundary comes after or before the controller's crosses it when its time has come (R146). -/
def State.ownBoundary (s : State) (a : AgentRef) : State :=
  let g := s.agent a
  match g.boundaryIn with
  | some n =>
    if n ≤ 1 then (s.updAgent a fun g => { g with boundaryIn := none }).boundaryAt a
    else s.updAgent a fun g => { g with boundaryIn := some (n - 1) }
  | none =>
    if g.late < 0 ∧ g.realign = false ∧ g.crossed = false ∧ s.ticksLeft ≤ -g.late then
      (s.updAgent a fun g => { g with crossed := true }).boundaryAt a
    else s

/-- An agent after one tick of the time base: its slew, its reduction-memory account, its slot, the beacons it misses, its own
boundary, and the Express frames that wait (R28, R73, R103, R119, R128, R139, R462). -/
def State.tickAgent (s : State) (a : AgentRef) (due : Bool) : State :=
  let g := s.agent a
  let t := g.epochTick + 1
  let s := s.setAgent a { (g.slew due) with account := min 2097152 (g.account + accountRate a.variant), epochTick := t
                                            ports := g.ports.mapVals fun _ x => x.tick }
  let s := (s.setJfld a JX_EPOCH_SLOT (currentSlot t g.geometry.1 g.geometry.2)).countMissed a
  ((s.ownBoundary a).serveExpress a).releaseWithheld (.agent a)

/-- What waits on the ports of a node goes as far as it may. -/
def State.pumpAll (s : State) (n : Node) : State :=
  s.forEach ((s.nodePorts n).filter fun x => !x.2.queue.isEmpty) fun s x => s.pumpPort n x.1

/-- The collector's and the writer's accounts of time while something waits (R371, R387). -/
def State.tickCollector (s : State) : State :=
  let c := if s.col.queue.isEmpty && s.col.raised.isEmpty then 0 else s.col.accountNs + 128
  let w := if s.led.buffer.isEmpty then 0 else s.led.writerNs + 128
  { s with col := { s.col with accountNs := c }, led := { s.led with writerNs := w } }

/-- Nominal ticks a matched edge may be off: L1 and L2 (R141). -/
def State.syncL1 (s : State) : Nat := s.epochTicks / 20
def State.syncL2 (s : State) : Nat := s.epochTicks / 5

/-- Steering is under way: acquiring or locked. -/
def State.steering (s : State) : Bool := s.fld SCH_SYNC_STATUS_STATE == 1 || s.fld SCH_SYNC_STATUS_STATE == 2

/-- Four target boundaries in a row went without an edge: known once the fourth one's window has closed (R142). -/
def State.judgeEdges (s : State) : State :=
  if s.steering ∧ 4 ≤ s.time.missing ∧ s.time.epochTick = s.syncL2 + 1 then s.loseSync 3 else s

/-- SLOT_TICK (R28): everything that follows the tick. Nothing ticks without power; a brown-out puts the reset that severity 4 asks for
off until its rail has recovered (R448). -/
def execSlotTick (s : State) : Answer :=
  if s.pwr.pwrgd = false then .next s
  else
    let s := s.countTick
    let s : State := { s with time := { s.time with epochTick := s.time.epochTick + 1 } }
    let s := s.setFld SCH_EPOCH_NOW_SLOT (currentSlot s.time.epochTick s.geometry.1 s.geometry.2)
    let due := s.fld TIM_TICK_TICK_SEQ % 8 == 0
    let s := s.forEach (s.agents.map (·.1)) fun s k => s.tickAgent (refOfKey k) due
    let s : State := { s with ports := s.ports.mapVals fun _ x => x.tick }
    let s := s.forEach (s.agents.map (·.1)) fun s k => s.pumpAll (.agent (refOfKey k))
    let s := (s.pumpAll .ctl).tickCollector.judgeEdges.settleRestarts
    .next (if s.col.resetDue && !s.pwr.held then s.controllerReset 3 else s)

/-- TIME_BASE_SWITCHOVER (R30). -/
def execTimeBaseSwitchover (s : State) : Answer := .next s.switchTime

/-! ## Geometry (R115) -/

/-- The write of a geometry is accepted (R114, R115). -/
def State.geometryOk (s : State) (slots ticks : Nat) : Bool :=
  s.sch.admitted.isEmpty && s.fld SCH_EPOCH_CFG_PENDING == 0 && decide (16 ≤ slots ∧ slots ≤ 4096)
    && decide (2048 ≤ slots * ticks * 128 ∧ slots * ticks * 128 ≤ 1000000)

/-- A write of SCH_EPOCH_CFG (R115). -/
def State.writeEpochCfg (s : State) (v : Word64) : State :=
  let slots := SCH_EPOCH_CFG_SLOTS.of v
  let ticks := SCH_EPOCH_CFG_SLOT_TICKS.of v + 1
  if s.geometryOk slots ticks then
    let e : BitVec 32 := BitVec.ofNat 32 (s.epochAfter 3000000)
    ({ s with time := { s.time with pendingGeom := some (slots, ticks, e) } }.setFld SCH_EPOCH_CFG_PENDING 1).mirrorOut 7
  else s.raise 0x0060 1

/-- EPOCH_CFG_WRITE (R115, R4). -/
def execEpochCfgWrite (lvl : Level) (v : Word64) (s : State) : Answer :=
  match lvl with
  | .tenant => .next (s.violation lvl)
  | _ => .next (s.writeEpochCfg v)

/-! ## SYNC_IN (R139 to R143, R441) -/

/-- Acquisition starts (R142, R143). -/
def State.acquire (s : State) : State :=
  let s : State := { s with time := { s.time with edge := none, lastMatch := none, missing := 0, lostNs := none } }
  s.setFld SCH_SYNC_STATUS_STATE 1

/-- A write of SCH_SYNC_CFG: its fields, and ARM unless SYNC_EN is 0 or T is below 20 ticks (R143, R144). -/
def State.writeSyncCfg (s : State) (v : Word64) : State :=
  let w := match regDesc SCH_SYNC_CFG with | some d => writeWord d (s.reg SCH_SYNC_CFG) v | none => v
  let s := (s.setReg SCH_SYNC_CFG w).mirrorOut 7
  let s := if s.fld SCH_SYNC_CFG_SYNC_EN = 0 then s.setFld SCH_SYNC_STATUS_STATE 0 else s
  if SCH_SYNC_CFG_ARM.of v = 1 ∧ s.fld SCH_SYNC_CFG_SYNC_EN = 1 ∧ 20 ≤ s.epochTicks then s.acquire else s

/-- SYNC_ARM (R143, R4). -/
def execSyncArm (lvl : Level) (v : Word64) (s : State) : Answer :=
  match lvl with
  | .tenant => .next (s.violation lvl)
  | _ => .next (s.writeSyncCfg v)

/-- SYNC_REARM_TIMER (R142): one second after the loss, with AUTO_REARM at 1. -/
def execSyncRearmTimer (s : State) : Answer :=
  match s.time.lostNs with
  | some t =>
    if s.fld SCH_SYNC_CFG_AUTO_REARM = 1 ∧ s.fld SCH_SYNC_CFG_SYNC_EN = 1 ∧ s.fld SCH_SYNC_STATUS_STATE = 3
        ∧ t + 1000000000 ≤ s.now ∧ 20 ≤ s.epochTicks then .next s.acquire
    else .next s
  | none => .next s

/-- The tick at which the epoch in progress opened, and at which the next one opens. -/
def State.openTick (s : State) : Int := (s.tick : Int) - s.time.epochTick
def State.closeTick (s : State) : Int := s.openTick + s.epochLen

/-- Target boundaries are those whose epoch number is a multiple of SYNC_DIV + 1 (R141). -/
def State.isTarget (s : State) (epoch : Nat) : Bool := epoch % (s.fld SCH_SYNC_CFG_SYNC_DIV + 1) == 0

/-- The target boundary an edge at a tick is matched to: the nearest one within L2 ticks (R141). -/
def State.matchEdge (s : State) (tick : Int) : Option Int :=
  let l := (if s.isTarget s.epochNow then [s.openTick] else []) ++ (if s.isTarget (s.epochNow + 1) then [s.closeTick] else [])
  l.foldl (fun m b => if s.syncL2 < (tick - b).natAbs then m else
    match m with
    | none => some b
    | some x => if (tick - b).natAbs < (tick - x).natAbs then some b else m) none

/-- An edge came less than 1 µs after the last one of its input (R441). -/
def tooSoon (last : Option Nat) (ns : Nat) : Bool :=
  match last with
  | some t => decide (ns < t + 1000)
  | none => false

/-- Adjustments announced that are not yet in the place of a target boundary: those of later epochs, and where the boundary opened
the epoch in progress, that epoch's own, which its closing boundary holds already (R139, R141). -/
def State.pendingAdj (s : State) (target : Int) : Int :=
  (s.time.adjusts.map (·.2)).sum + (if target = s.closeTick then 0 else s.time.epochAdj)

/-- SYNC_IN_EDGE (R441, R141): the time stamp, and the match to a target boundary while steering. After a switchover H2's
inputs are gone (R30, R146). -/
def execSyncInEdge (falling : Bool) (ns : Nat) (s : State) : Answer :=
  if s.pwr.pwrgd = false ∨ s.fld TIM_TICK_SOURCE = 1 ∨ bit falling ≠ s.fld SCH_SYNC_CFG_EDGE ∨ tooSoon s.time.lastSyncNs ns then
    .next s
  else
    let s : State := { s with time := { s.time with lastSyncNs := some ns } }
    let s := s.setReg TIM_SYNC_EDGE (BitVec.ofNat 64 ns)
    if s.steering = false then .next s
    else
      let t : Int := (ns / 128 : Nat)
      match s.matchEdge t with
      | none => .next s
      | some b => .next { s with time := { s.time with edge := some (t, b + s.pendingAdj b), lastMatch := some b, missing := 0 } }

/-- A number clamped to ± l. -/
def clampInt (x : Int) (l : Nat) : Int := max (-(l : Int)) (min (l : Int) x)

/-- The first epoch that begins 3 ms or more ahead and has no adjustment (R141): epochs from `e` on. -/
def State.freeEpoch (s : State) : Nat → Nat → Nat
  | 0, e => e
  | n + 1, e => if s.time.adjusts.any fun x => x.1 == BitVec.ofNat 32 e then s.freeEpoch n (e + 1) else e

/-- Records what a beacon announces: one adjustment, or none, and ACCUM over the last 1,024 beacons (R141). -/
def State.announce (s : State) (a : Option (BitVec 32 × Int)) : State :=
  let v := match a with | some x => x.2 | none => 0
  let l := (v :: s.time.announced).take 1024
  let t := match a with
    | some x => { s.time with announced := l, adjusts := s.time.adjusts ++ [x], history := (x :: s.time.history).take 4 }
    | none => { s.time with announced := l }
  ({ s with time := t } : State).setFld SCH_SYNC_STATUS_ACCUM (BitVec.ofInt 16 l.sum).toNat

/-- Steering at a beacon (R141). -/
def State.steer (s : State) : State :=
  match s.time.edge with
  | none => s.announce none
  | some (t, b) =>
    if s.steering = false then s.announce none
    else
      let s : State := { s with time := { s.time with edge := none } }
      let err := t + SCH_SYNC_CFG_PHASE_TICKS.signed (s.reg SCH_SYNC_CFG) - b
      let s := s.setFld SCH_SYNC_STATUS_LAST_ERR (BitVec.ofInt 32 err).toNat
      let acquiring := s.fld SCH_SYNC_STATUS_STATE == 1
      if acquiring ∧ s.syncL2 < err.natAbs then (s.announce none).loseSync 2
      else if acquiring = false ∧ s.syncL1 < err.natAbs then (s.announce none).loseSync 1
      else
        let a := clampInt err s.syncL1
        let accum := s.time.announced.sum
        if s.syncL2 < (accum + a).natAbs then (s.announce none).loseSync 2
        else
          let e := s.freeEpoch (s.time.adjusts.length + 1) (s.epochAfter 3000000)
          let s := s.announce (some (BitVec.ofNat 32 e, a))
          if acquiring ∧ err.natAbs ≤ 1 then (s.setFld SCH_SYNC_STATUS_STATE 2).restore 0x000B 0 else s

/-! ## Calendar time (R138, R441, R454) -/

/-- The nearest whole second in ns. -/
def nearestSecond (ns : Nat) : Nat := (ns + 500000000) / 1000000000 * 1000000000

/-- PPS_IN_EDGE (R441, R138): the time stamp, and the calendar second that begins at it. -/
def execPpsInEdge (ns : Nat) (s : State) : Answer :=
  if s.pwr.pwrgd = false ∨ s.fld TIM_TICK_SOURCE = 1 ∨ tooSoon s.time.lastPpsNs ns then .next s
  else
    let s : State := { s with time := { s.time with lastPpsNs := some ns } }
    let s := (s.setReg TIM_PPS_EDGE (BitVec.ofNat 64 ns)).setFld TIM_STATUS_PPS 1
    let since := s.now - ns
    .next (s.setReg TIM_CAL (BitVec.ofNat 64 (nearestSecond ((s.reg TIM_CAL).toNat - since) + since)))

/-- A frame the management port discards is counted on its H2 source at severity 0 (R454, R359). -/
def State.discardEth (s : State) : State := s.raise 0x1980 0

/-- PTP_FRAME (R454, R441, R145): a slave of the configured domain takes offset, path delay and time of day from its master;
PPS_IN, where it is tracked, keeps the second boundary. -/
def execPtpFrame (f : PtpFrame) (s : State) : Answer :=
  if s.pwr.pwrgd = false ∨ s.fld TIM_TICK_SOURCE = 1 then .next s
  else if s.fld TIM_PTP_CFG_ENABLE = 0 ∨ f.domain.toNat ≠ s.fld TIM_PTP_CFG_DOMAIN ∨ f.fromMaster = false then .next s.discardEth
  else
    let s := s.setFld TIM_STATUS_PTP (if 2 ≤ s.fld TIM_STATUS_PTP then 3 else 2)
    let s := (s.setFld TIM_PTP_OFFSET_NS f.offsetNs.toNat).setFld TIM_PTP_MPD_NS f.meanPathDelayNs.toNat
    let sub := (s.reg TIM_CAL).toNat % 1000000000
    let cal := if s.fld TIM_STATUS_PPS = 1 then nearestSecond (f.timeOfDayNs - sub) + sub else f.timeOfDayNs
    .next (s.setReg TIM_CAL (BitVec.ofNat 64 cal))

/-- ARP_REQUEST (R454): answered for the port's own address; every other frame is discarded and counted. -/
def execArpRequest (isArp : Bool) (ip : BitVec 32) (s : State) : Answer :=
  if s.pwr.pwrgd = false ∨ s.fld TIM_TICK_SOURCE = 1 then .next s
  else if isArp ∧ ip = s.dom.ip then .next (s.emit (.arpReply s.dom.mac s.dom.ip))
  else .next s.discardEth

/-! ## Beacons (R60, R100) -/

/-- A geometry as beacons give it. -/
def geometryWord (slots ticks : Nat) : Nat := slots + (ticks - 1) * 65536

/-- An adjustment as beacons repeat it. -/
def adjustBytes (l : List (BitVec 32 × Int)) (i : Nat) : List Byte :=
  match l[i]? with
  | some x => leBytes 4 x.1.toNat ++ leBytes 2 (BitVec.ofInt 16 x.2).toNat ++ [1, 0]
  | none => zeros 8

/-- The payload of a beacon (R100). -/
def State.beaconBytes (s : State) : List Byte :=
  let g := s.geometry
  let pend := match s.time.pendingGeom with
    | some (a, b, e) => leBytes 4 (geometryWord a b + 2 ^ 31) ++ leBytes 4 e.toNat
    | none => zeros 8
  leBytes 8 s.now ++ zeros 8 ++ leBytes 6 s.epochNow ++ leBytes 2 (s.fld SCH_EPOCH_NOW_SLOT)
    ++ leBytes 4 (s.fld TRI_STANDBY_STATUS_GENERATION) ++ leBytes 4 s.time.beaconSeq.toNat ++ leBytes 4 (geometryWord g.1 g.2)
    ++ pend ++ zeros 4 ++ (List.range 4).flatMap (adjustBytes s.time.history) ++ zeros 16

/-- BEACON_TIMER (R60, R100, R141): the owner steers and broadcasts. A standby owns nothing. -/
def execBeaconTimer (s : State) : Answer :=
  if s.ready = false ∨ s.fld TRI_STATUS_ROLE = 1 then .next s
  else
    let s := s.steer
    let t := { s.time with beaconSeq := s.time.beaconSeq + 1, lastBeaconNs := some s.now }
    let s : State := { s with time := t }
    .next (s.broadcast 0x32 s.beaconBytes none)

/-! ## The epoch boundary (R45, R115, R139, R285) -/

/-- An adjustment that an agent has not learned takes effect: its time lies behind until its next beacon (R146, R7). -/
def State.missedAdjust (s : State) (e : BitVec 32) : State :=
  if s.time.adjusts.any fun x => x.1 == e && x.2 != 0 then
    s.forEach s.dom.known fun s k =>
      let g := s.agent k.ref
      if g.lastBeaconNs.isSome && !(g.adjusts.any fun x => x.1 == e) then s.lapse 0x000A k.fid.toNat else s
  else s

/-- The geometry in force changes, with the lapse of an epoch longer than 250 µs (R115, R116). DESIGN CHOICE (log entry 154): the
lapse is recorded once, not again where another geometry above 250 µs follows. -/
def State.takeGeometry (s : State) (slots ticks : Nat) : State :=
  let len := slots * ticks * 128
  let s := ((s.setFld SCH_EPOCH_CFG_SLOTS slots).setFld SCH_EPOCH_CFG_SLOT_TICKS (ticks - 1)).setFld SCH_EPOCH_CFG_LENGTH_NS len
  let s := s.setFld SCH_EPOCH_CFG_PENDING 0
  let s : State := { s with time := { s.time with pendingGeom := none } }
  let held := s.lapses.filter fun x => x.1 == 2
  if 250000 < len then (if held.isEmpty then s.lapse 0x0002 len else s)
  else s.forEach held fun s x => s.restore 0x0002 x.2

/-- Opens the next epoch at the controller: its number, its adjustment, its geometry, and the target boundary (R139, R142). -/
def State.openEpoch (s : State) : State :=
  let opens := s.closeTick
  let n := (s.epochNow + 1) % 2 ^ 48
  let e : BitVec 32 := BitVec.ofNat 32 n
  let adj := ((s.time.adjusts.filter fun x => x.1 == e).map (·.2)).sum
  let s := (s.setFld SCH_EPOCH_NOW_EPOCH_NUM n).setFld SCH_EPOCH_NOW_SLOT 0
  let miss := if s.steering && s.isTarget n then (if s.time.lastMatch = some opens then 0 else s.time.missing + 1) else s.time.missing
  let t := { s.time with epochTick := 0, epochAdj := adj, adjusts := s.time.adjusts.filter fun x => seqLater x.1 e, missing := miss }
  let s : State := { s with time := t }
  match s.time.pendingGeom with
  | some (a, b, e0) => if seqLater e0 e then s else s.takeGeometry a b
  | none => s

/-- What the controller holds in force from this boundary on: an install, or a play (R155, R164, R285). -/
def State.swapController (s : State) : State :=
  let e : BitVec 32 := BitVec.ofNat 32 s.epochNow
  let s := match s.rte.install with
    | some i => if i.committed ∧ i.epoch = e then ((s.installInForce i).checkBounds).showDomainReady else s
    | none => s
  match s.rte.play with
  | some p =>
    if p.swapEpoch = e then
      let l := (s.rte.gambits.filter fun g => p.gambits.contains g.rec_.gambitId).flatMap fun g => g.rec_.treesReplaced
      ((s.playSwapped p).treesReplaced l).checkBounds
    else s
  | none => s

/-- EPOCH_BOUNDARY (R45, R115, R139, R146, R155, R161, R285): the boundary at every agent and at the controller. -/
def execEpochBoundary (s : State) : Answer :=
  if s.pwr.pwrgd = false then .next s
  else
    let s := s.missedAdjust (BitVec.ofNat 32 (s.epochNow + 1))
    let s : State := { s.openEpoch with ports := s.openEpoch.ports.mapVals fun _ x => x.epochEnd }
    .next (s.forEach (s.agents.map (·.1)) fun s k => s.openAtAgent (refOfKey k)).swapController

end Sys2Proof.Machine
end

