-- ==== Sys2Proof/Machine/Streams.lean ====
section
/-! DEFINITION. Packets of streams at their source (R123, R124) and at their destination (R95, R96, R108 to R113, R227, R228, R302,
R320). -/

namespace Sys2Proof.Machine

/-! ## Posts (R42, R123) -/

/-- A port of the agent holds a head entry of the stream in the active bank (R120, R123). -/
def Agent.hasHead (g : Agent) (srcLocal stream : Nat) : Bool :=
  g.active.slots.any fun x => slotKind x.2 == 1 && slotInPort x.2 == 0x1FF && slotSrc x.2 == srcLocal && slotStream x.2 == stream

/-- PACKET_POST (R42, R123): refused at once with "target in reset" (0x02) or "no schedule" (0xE0); otherwise the packet takes
its place in its stream. -/
def execPacketPost (a : AgentRef) (p : Packet) (s : State) : Answer :=
  let h := p.hdr
  if s.computeUp a = false ∨ (s.agent a).lowPower = 2 then .next (s.emit (.packetDone (.agent a) h.dest h.stream 0 0x02))
  else if h.cls = .express ∧ (s.agent a).hasHead (s.localOf a) h.stream.toNat = false then
    .next (s.emit (.packetDone (.agent a) h.dest h.stream 0 0xE0))
  else .next (s.sendPkt (.agent a) { p with hdr := { h with resend := false, length := lenOf p.payload } })

/-! ## Express at the source (R124) -/

/-- Waiting Express packets of a stream that the fixed hop of their route takes to a port, resends first, then in SEQ order;
a packet queued less than 256 ns ago waits. -/
def State.headQueue (s : State) (a : AgentRef) (port stream : Nat) : List (Fid × TxPkt) :=
  let g := s.agent a
  let now := s.agentNow a
  let l := g.streams.tx.flatMap fun x => (x.2.outstanding.filter fun t =>
    t.waiting && t.pkt.hdr.cls == .express && t.pkt.hdr.stream.toNat == stream && decide (t.queuedNs + 256 ≤ now)
      && (match s.routeLocal a t.pkt.hdr.dest with
        | some loc => (let e := s.route a loc; routeValid e && hopPort (hopWord e (routeFixed e)) == port)
        | none => false)).map fun t => (t.pkt.hdr.dest, t)
  (l.filter fun x => decide (0 < x.2.resends)) ++ l.filter fun x => x.2.resends == 0

/-- One Express packet leaves in its slot. -/
def State.emitExpress (s : State) (a : AgentRef) (port : Nat) (x : Fid × TxPkt) : State :=
  let t := s.tx (.agent a) x.1 x.2.pkt.hdr.stream
  let l := updateFirst (fun u => u == x.2) (fun u => { u with waiting := false, emittedNs := s.agentNow a }) t.outstanding
  ((s.setTx (.agent a) x.1 x.2.pkt.hdr.stream { t with outstanding := l }).emit (.packet (.agent a) x.2.pkt)).portSend
    (.agent a) port x.2.pkt

/-- The packets at the head that fit in so many flits leave one after another; one that its stream may not send yet is passed
over, and the first that does not fit ends the run (R93, R109, R124). Answers the flits that passed too. -/
def State.emitHead (a : AgentRef) (port : Nat) : Nat → List (Fid × TxPkt) → State → State × Nat
  | _, [], s => (s, 0)
  | n, x :: t, s =>
    if (s.tx (.agent a) x.1 x.2.pkt.hdr.stream).mayEmit x.2.pkt = false then State.emitHead a port n t s
    else if x.2.pkt.hdr.units ≤ n then
      let r := State.emitHead a port (n - x.2.pkt.hdr.units) t (s.emitExpress a port x)
      (r.1, r.2 + x.2.pkt.hdr.units)
    else (s, 0)

/-- EXPRESS_HEAD_SLOT (R124): at a head entry of its own the source sends what fits. The flits count as passed in the run
(R127). -/
def execExpressHeadSlot (a : AgentRef) (port slot : Nat) (s : State) : Answer :=
  let w := (s.agent a).active.slots.getD (port * 4096 + slot) 0
  if slotKind w ≠ 1 ∨ slotInPort w ≠ 0x1FF ∨ slotSrc w ≠ s.localOf a then .next s
  else
    let r := State.emitHead a port (slotFlits w) (s.headQueue a port (slotStream w)) s
    let key := r.1.jfld a JX_EPOCH_EPOCH_NUM * 4096 + slot
    .next (r.1.setPort (.agent a) port { r.1.port (.agent a) port with runPassed := some (key, r.2) })

/-! ## Delivery (R41, R42, R95, R429) -/

/-- A packet arrives for an endpoint's compute side (R41, R42, R429): NAKed with reason 0x02 while it is down, an Express one
with an event but in E-DEEP; E-IDLE ends. An agent of no partition refuses every tenant packet (R329). -/
def State.deliverTo (s : State) (a : AgentRef) (p : Packet) (body : State → State × Option Nat) : State :=
  let n := Node.agent a
  let deep := (s.agent a).lowPower == 2
  if a.variant = .e ∧ (s.computeUp a = false ∨ deep) then
    (if p.hdr.cls = .express ∧ deep = false then s.raiseAgent a 200 0 else s).nakPkt n p.hdr 0x02
  else
    (s.updAgent a fun g => { g with lowPower := 0 }).accept n p fun s =>
      if (s.agent a).partition = 0 ∧ p.hdr.partition ≠ 0 then (s, some 0x03) else body s

/-- The same for an access to the endpoint's memory: another partition's is refused (R95, R96, R329). -/
def State.deliverMem (s : State) (a : AgentRef) (p : Packet) (body : State → State × Option Nat) : State :=
  s.deliverTo a p fun s => if p.hdr.partition ≠ (s.agent a).partition then (s, some 0x03) else body s

/-! ## WRITE and READ_REQ (R95, R96, R320) -/

/-- The source of an access to a spill pool belongs to the partition it names (R320, R342). -/
def State.spillAllowed (s : State) (h : Header) : Bool :=
  h.partition != 0 && (let d := s.dev h.src.localId; d.state == 1 && d.partition == h.partition)

/-- WRITE (R95, R320): the whole payload or nothing. -/
def execWrite (n : Node) (p : Packet) (s : State) : Answer :=
  let h := p.hdr
  let len := h.length.toNat
  match n with
  | .agent a => .next (s.deliverMem a p fun s =>
      if (s.agent a).inWindow h.partition h.addr.toNat len = false then (s, some 0x04)
      else (s.updAgent a fun g => { g with mem := g.mem.writeBytes h.addr.toNat (slice p.payload 0 len) }, none))
  | .ctl => .next (s.accept .ctl p fun s =>
      if s.spillAllowed h = false then (s, some 0x03)
      else if s.spillRange h.partition.toNat h.addr.toNat len = false then (s, some 0x04)
      else
        let k := h.partition.toNat
        ({ s with spill := s.spill.set k ((s.spill.getD k []).writeBytes h.addr.toNat (slice p.payload 0 len)) }, none))

/-- The memory stack a byte of a partition's spill pool lies in (R26, log entry 55). -/
def State.spillStack (s : State) (h : Header) : Nat := h.addr.toNat / max 1 (s.pageBytes h.partition.toNat) % 8

/-- READ_REQ (R96, R320): answered with one READ_RESP. DESIGN CHOICE (log entry 144): a byte count of 0 or above 4,096 and a
nonzero AUX[23:13], for which R96 states no answer, are served like any other. Spill data whose integrity tag fails is not emitted, with an event of
its stack (R18, R340). -/
def execReadReq (n : Node) (p : Packet) (tagOk : Bool) (s : State) : Answer :=
  let h := p.hdr
  let len := bitsAt h.aux.toNat 0 13
  match n with
  | .agent a => .next (s.deliverMem a p fun s =>
      if (s.agent a).inWindow h.partition h.addr.toNat len = false then (s, some 0x04) else (s, none))
  | .ctl =>
    if p.crcOk ∧ s.spillAllowed h ∧ s.spillRange h.partition.toNat h.addr.toNat len ∧ tagOk = false then
      .next (s.raise (0x1802 + 0x20 * s.spillStack h) 3)
    else .next (s.accept .ctl p fun s =>
      if s.spillAllowed h = false then (s, some 0x03)
      else if s.spillRange h.partition.toNat h.addr.toNat len = false then (s, some 0x04)
      else (s, none))

/-! ## SEND (R227, R228) and dispatch copies (R302) -/

/-- Slots filled: from the head to the next fill position (R227). -/
def RxRing.filled (r : RxRing) : Nat := (r.fill + 2 ^ r.log2 - r.head) % 2 ^ r.log2

/-- Puts a packet into the receive ring (R227): the reason of a refusal, if any. -/
def State.fillRing (s : State) (a : AgentRef) (p : Packet) : State × Option Nat :=
  match (s.agent a).rxRing with
  | none => (s, some 0x04)
  | some r =>
    if r.partition ≠ p.hdr.partition then (s, some 0x04)
    else if 2 ^ r.log2 - 1 ≤ r.filled then (s, some 0x05)
    else
      let slot := p.hdr.bytes ++ leBytes 8 (s.agentNow a) ++ zeros 24 ++ slice p.payload 0 p.hdr.length.toNat
      let slot := slice slot 0 4160
      (s.updAgent a fun g => { g with mem := g.mem.writeBytes (r.base + 4160 * r.fill) slot
                                      rxRing := some { r with fill := (r.fill + 1) % 2 ^ r.log2 } }, none)

/-- A SEND to an engine of the controller (R228). -/
def State.sendToEngine (s : State) (p : Packet) : State × Option Nat :=
  let e := bitsAt p.hdr.aux.toNat 0 5
  let x := s.engine e
  if x.running = false ∨ x.inboxRoom e 0 = false then (s, some 0x05)
  else if x.level = .tenant ∧ p.hdr.partition ≠ x.partition then (s, some 0x03)
  else (s.setEngine e (x.receive 0 (p.hdr.bytes ++ slice p.payload 0 p.hdr.length.toNat)), none)

/-- A message of a parent controller that binds an uplink (R240, log entry 37). -/
def State.isUplink (s : State) (p : Packet) : Bool :=
  bitsAt p.hdr.aux.toNat 0 5 == 1 && p.hdr.src.localId == 0xA000 && p.hdr.src.domain != s.fid.domain && p.hdr.length == 16

/-- SEND_PACKET (R227, R228, R316): into a receive ring, or an engine's inbox; the broker serves its requests at once. -/
def execSendPacket (n : Node) (p : Packet) (s : State) : Answer :=
  match n with
  | .agent a => .next (s.deliverTo a p fun s => s.fillRing a p)
  | .ctl =>
    if bitsAt p.hdr.aux.toNat 0 5 = 2 then .next (s.kvTake p State.kvAny)
    else .next (s.accept .ctl p fun s => if s.isUplink p then (s.bindUplink p.hdr p.payload, none) else s.sendToEngine p)

/-- DISPATCH_COPY (R302): into the receive ring like a SEND. -/
def execDispatchCopy (a : AgentRef) (p : Packet) (s : State) : Answer := .next (s.deliverTo a p fun s => s.fillRing a p)

/-- RX_RING_HEAD_WRITE (R227): the consumer frees slots. -/
def execRxRingHeadWrite (a : AgentRef) (v : Nat) (s : State) : Answer :=
  .next (s.updAgent a fun g => { g with rxRing := g.rxRing.map fun r => { r with head := v % 2 ^ r.log2 } })

/-! ## PRECEDENT_TIMER (R110) -/

/-- RESEND_REQ packets for missing numbers: the first and a mask of the 24 after it (R105). -/
def resendGroups : Nat → List (BitVec 32) → List (BitVec 32 × BitVec 24)
  | 0, _ => []
  | _ + 1, [] => []
  | k + 1, q :: t =>
    let near := t.filter fun x => decide ((x - q).toNat ≤ 24)
    let mask := (near.map fun x => 2 ^ ((x - q).toNat - 1)).sum
    (q, BitVec.ofNat 24 mask) :: resendGroups k (t.filter fun x => decide (24 < (x - q).toNat))

/-- PRECEDENT_TIMER (R110, R113): three requests for what is missing, then the error, with the event on source 194 or, at the
controller, on offset 18 of the port the source is reached over. -/
def execPrecedentTimer (n : Node) (src : Fid) (stream : BitVec 16) (seq : BitVec 32) (s : State) : Answer :=
  let x := s.rx n src stream
  match x.held.find? fun f => f.seq == seq with
  | none => .next s
  | some f =>
    let miss := x.missing f.seq f.prec
    if miss.isEmpty ∨ s.nodeNow n < f.arrivedNs + 50000 * (f.requests + 1) then .next s
    else if f.requests < 3 then
      let l := x.held.map fun (y : HeldFlag) => if y.seq = seq then { y with requests := y.requests + 1 } else y
      let s := s.setRx n src stream { x with held := l }
      .next (s.forEach (resendGroups miss.length miss) fun s g => s.answer n f.hdr 0x0A g.1 g.2)
    else
      let s := (s.endHeld n f true).raiseAt n 194 18 2 (match n with | .ctl => s.originPort .ctl { f.hdr with dest := src } | .agent _ => 0xFFFF) 0
      .next (State.settle n src stream x.held.length s)

end Sys2Proof.Machine
end

