-- ==== Sys2Proof/Machine/Registers.lean ====
section
/-! DEFINITION. Reads and writes of BAR0 registers (R3, R4, R11, R452): what selected registers show (R91, R225, R327, R357, R391,
R392, R435) and what a write does. -/

namespace Sys2Proof.Machine

/-! ## What a register reads (R452) -/

/-- LNK_PORT, LNK_FEC, LNK_TX_KEY, LNK_TX_CTR and LNK_CREDIT of the selected port (R91). -/
def PortSt.linkWord (x : PortSt) (off : Nat) : Word64 :=
  if off = LNK_PORT then
    BitVec.ofNat 64 (x.state * 2 ^ 61 + x.lanes * 2 ^ 58 + x.key * 2 ^ 50 + bit (!x.scrub.isEmpty) * 2 ^ 49
      + min x.delayPs 65535 * 2 ^ 32 + x.farId.toNat)
  else if off = LNK_FEC then BitVec.ofNat 64 (min x.corrected 0xFFFFFFFF * 2 ^ 32 + min x.uncorrectable 0xFFFFFFFF)
  else if off = LNK_TX_KEY then BitVec.ofNat 64 (x.txFrames * 2 ^ 24 + x.rekeys)
  else if off = LNK_TX_CTR then BitVec.ofNat 64 x.txCtr
  else BitVec.ofNat 64 (x.credit.control * 2 ^ 48 + x.credit.collData * 2 ^ 32 + x.credit.collShort * 2 ^ 16 + x.credit.bulk)

/-- SEC_PART of a partition (R357). -/
def State.partWord (s : State) (p : Nat) : Word64 :=
  let devs := s.sec.devs.countIf fun _ d => (d.state == 1 && d.partition.toNat == p) || (d.state == 2 && d.former.toNat == p)
  let keys := s.sec.keys.countIf fun _ k => k.partition.toNat == p
  BitVec.ofNat 64 ((s.part p).state * 2 ^ 62 + devs * 2 ^ 32 + keys * 2 ^ 23)

/-- SEC_DEV of an endpoint (R357). -/
def State.devWord (s : State) (e : Nat) : Word64 :=
  BitVec.ofNat 64 ((s.dev e).state * 2 ^ 62 + (s.dev e).partition.toNat * 2 ^ 32)

/-- PLC_PART_USE of a partition (R327). -/
def State.useWord (s : State) (p : Nat) : Word64 :=
  let pages := s.plc.pages.countIf fun _ x => x.partition.toNat == p && x.endpoint == 0xFFFF && x.state != 4
  BitVec.ofNat 64 (s.spillReserved p / 1048576 * 2 ^ 45 + pages * s.pageBytes p / 1048576 * 2 ^ 26 + s.partExtents p)

/-- FLT_CAP_ADDR, FLT_CAP_INFO and FLT_CAP_TIME of the selected source (R391). -/
def captureWord (c : Option Capture) (off : Nat) : Word64 :=
  match c with
  | none => regReset off
  | some c =>
    if off = FLT_CAP_ADDR then c.addr
    else if off = FLT_CAP_INFO then BitVec.ofNat 64 (c.initiator.toNat * 2 ^ 32 + c.access.toNat * 2 ^ 24 + c.detail.toNat)
    else BitVec.ofNat 64 c.timeNs

/-- The security record under an index of the MRAM ring (R390, R392). -/
def State.securityAt (s : State) (i : Nat) : List Byte :=
  let n := s.led.security.length
  let first := s.led.securitySeq - n
  let j := (i + 16384 - first % 16384) % 16384
  if j < n then s.led.security.getD j [] else []

/-- What a register reads at operator level; CTL_CQn registers read zero until the controller is ready (R420). -/
def State.readReg (s : State) (off : Nat) : Word64 :=
  if s.ready = false ∧ 0x1000 ≤ off ∧ off < 0x1800 then 0
  else if LNK_PORT ≤ off ∧ off ≤ LNK_CREDIT then (s.port .ctl (s.fld LNK_SEL_PORT)).linkWord off
  else if off = SEC_PART then s.partWord (s.fld SEC_PART_SEL_PARTITION)
  else if off = SEC_DEV then s.devWord (s.fld SEC_DEV_SEL_ENDPOINT)
  else if off = PLC_PART_QUOTA then
    (let p := s.fld PLC_PART_SEL_PARTITION
     BitVec.ofNat 64 (s.plc.spillQuota.getD p 0 * 2 ^ 48 + s.plc.extentQuota.getD p 0))
  else if off = PLC_PART_USE then s.useWord (s.fld PLC_PART_SEL_PARTITION)
  else if off = PLC_DEV_CAP then BitVec.ofNat 64 (s.plc.devCap.getD (s.fld PLC_DEV_SEL_ENDPOINT) 0)
  else if off = CFB_QUOTA then
    (let p := s.fld CFB_QUOTA_SEL_PARTITION
     BitVec.ofNat 64 (s.squaresUsed p * 2 ^ 48 + s.sq.quota.getD p 0))
  else if FLT_CAP_ADDR ≤ off ∧ off ≤ FLT_CAP_TIME then captureWord (s.col.captures.get (s.fld FLT_CAP_SEL_SOURCE)) off
  else if LED_SEC_DATA ≤ off ∧ off < LED_SEC_DATA + 64 then
    BitVec.ofNat 64 (leAt (s.securityAt (s.fld LED_SEC_SEL_INDEX)) (off - LED_SEC_DATA) 8)
  else if off = PWR_PART then s.partPowerWord (s.fld PWR_PART_SEL_PARTITION)
  else s.reg off

/-! ## What a write does -/

/-- A plain write: writable bits are taken and W1C bits cleared (R11). -/
def State.plainWrite (s : State) (off : Nat) (v : Word64) : State :=
  match regDesc off with
  | some d => s.setReg off (writeWord d (s.reg off) v)
  | none => s

/-- Takes a field of a written word when its value lies in a range; other values are ignored. -/
def State.takeRange (s : State) (f : Field) (v : Word64) (lo hi : Nat) : State :=
  if lo ≤ f.of v ∧ f.of v ≤ hi then s.setFld f (f.of v) else s

/-- LNK writes (R91): the selected port's counters, and the orders of LNK_CTRL. -/
def State.writeLnk (s : State) (off : Nat) (v : Word64) : State :=
  let p := s.fld LNK_SEL_PORT
  let x := s.port .ctl p
  if off = LNK_SEL then s.takeRange LNK_SEL_PORT v 0 71
  else if off = LNK_FEC then
    s.setPort .ctl p { x with corrected := (BitVec.ofNat 32 x.corrected &&& ~~~BitVec.ofNat 32 (LNK_FEC_CORRECTED.of v)).toNat
                              uncorrectable := (BitVec.ofNat 32 x.uncorrectable &&& ~~~BitVec.ofNat 32 (LNK_FEC_UNCORRECTABLE.of v)).toNat }
  else if off = LNK_TX_KEY then
    s.setPort .ctl p { x with rekeys := (BitVec.ofNat 8 x.rekeys &&& ~~~BitVec.ofNat 8 (LNK_TX_KEY_REKEYS.of v)).toNat }
  else if off = LNK_CTRL then
    let s := if LNK_CTRL_REKEY.of v = 1 then s.rekeyLink .ctl p (2 ^ 32) else s
    if LNK_CTRL_RETRAIN.of v = 1 then s.retrainPort p else s
  else s

/-- PLC writes (R327): quotas and caps of the selected partition or endpoint, and fields with a range. -/
def State.writePlc (s : State) (lvl : Level) (off : Nat) (v : Word64) : State :=
  if off = PLC_BROKER_CFG then
    let s := ((s.setFld PLC_BROKER_CFG_ENABLE (PLC_BROKER_CFG_ENABLE.of v)).takeRange PLC_BROKER_CFG_MAX_ADDS v 0 64)
    ((s.takeRange PLC_BROKER_CFG_HOT_PCT v 50 100).takeRange PLC_BROKER_CFG_COLD_PCT v 0 49).takeRange PLC_BROKER_CFG_WINDOW_MS v 10 1000
  else if off = PLC_ADMIT_CFG then
    let s := s.setFld PLC_ADMIT_CFG_REFUSED ((s.reg off &&& ~~~v).toNat / 2 ^ 32)
    s.takeRange PLC_ADMIT_CFG_OVERCOMMIT_PCT v 0 8
  else if off = PLC_KV_CFG then
    (s.setFld PLC_KV_CFG_MAX_MOVES (PLC_KV_CFG_MAX_MOVES.of v)).takeRange PLC_KV_CFG_GRACE_US v 100 100000
  else if off = PLC_PART_QUOTA then
    let p := s.fld PLC_PART_SEL_PARTITION
    let g := PLC_PART_QUOTA_SPILL_GIB.of v
    let sp := if g ≤ 256 then s.plc.spillQuota.set p g else s.plc.spillQuota
    { s with plc := { s.plc with spillQuota := sp, extentQuota := s.plc.extentQuota.set p (PLC_PART_QUOTA_EXTENTS.of v) } }
  else if off = PLC_DEV_CAP then
    let e := s.fld PLC_DEV_SEL_ENDPOINT
    let mem := match s.dom.known.find? fun k => k.fid.localId == e with | some k => k.memBytes | none => 0
    let c := PLC_DEV_CAP_CAP_MIB.of v
    if mem < c * 1048576 then s.violation lvl else { s with plc := { s.plc with devCap := s.plc.devCap.set e c } }
  else s.plainWrite off v

/-- SEC writes (R329, R330, R357): the actions on the selected partition or endpoint. -/
def State.writeSec (s : State) (off : Nat) (v : Word64) : State :=
  if off = SEC_PART then
    let p := s.fld SEC_PART_SEL_PARTITION
    let a := SEC_PART_ACTION.of v
    if a = 0 then s else if a = 1 then s.openPart p
    else if a = 2 ∧ (s.part p).state = 1 then s.endPartition p else s.refuseAction
  else if off = SEC_DEV then
    let e := s.fld SEC_DEV_SEL_ENDPOINT
    let a := SEC_DEV_ACTION.of v
    if a = 0 then s else if a = 1 then s.assignDev e (SEC_DEV_PARTITION.of v) else if a = 2 then s.releaseDev e else s.rescrubDev e
  else s.plainWrite off v

/-- A write of FLT_BLKn (R391): QUIET_MS within its range, PIPS W1C; an operator clears the PIPS of a retired block (R381). -/
def State.writeBlk (s : State) (n : Nat) (v : Word64) : State :=
  let at_ := fun (f : Field) => f.at (fltBlk n)
  let pips := (BitVec.ofNat 8 (s.blk FLT_BLKn_PIPS n) &&& ~~~BitVec.ofNat 8 ((at_ FLT_BLKn_PIPS).of v)).toNat
  let had := s.blk FLT_BLKn_PIPS n
  let s := (s.setBlk FLT_BLKn_PIPS n pips).setBlk FLT_BLKn_PIP_LIMIT n ((at_ FLT_BLKn_PIP_LIMIT).of v)
  let s := s.takeRange (at_ FLT_BLKn_QUIET_MS) v 1 60000
  if s.blk FLT_BLKn_STATE n = 3 ∧ 0 < had ∧ pips = 0 ∧ s.pwr.pipsCleared.contains n = false then
    { s with pwr := { s.pwr with pipsCleared := s.pwr.pipsCleared ++ [n] } }
  else s

/-- Orders of PWR_CTRL (R426, R427, R435). -/
def State.writePwrCtrl (s : State) (lvl : Level) (v : Word64) : State :=
  let s := s.orderBlockReset lvl v
  if PWR_CTRL_CTRL_RESET.of v = 1 then s.controllerReset 2 else s

/-- A write of CTL_CQn_CFG, SQ_BASE or CQ_BASE (R199): the bases and other fields are fixed while ENABLE is 1. -/
def State.writeCq (s : State) (off : Nat) (v : Word64) : State :=
  let q := (off - 0x1000) / 0x20
  if off % 0x20 = 0 then (if CTL_CQn_CFG_ENABLE.of v = 1 then s.enableQueue q v else s.disableQueue q v)
  else if off % 0x20 = 0x18 then s.plainWrite off v
  else if s.cq q CTL_CQn_CFG_ENABLE = 1 then s else s.plainWrite off v

/-- A write of a BAR0 register at operator level. -/
def State.writeReg (s : State) (lvl : Level) (off : Nat) (v : Word64) : State :=
  if (regDesc off).isNone then s
  else if LNK_SEL ≤ off ∧ off ≤ LNK_CTRL then s.writeLnk off v
  else if off = SCH_EPOCH_CFG then s.writeEpochCfg v
  else if off = SCH_SYNC_CFG then s.writeSyncCfg v
  else if off = RTE_FAILOVER then (s.plainWrite off v).writeAutoPlay (RTE_FAILOVER_AUTO_PLAY.of v)
  else if off = CFB_QUOTA then
    ({ s with sq := { s.sq with quota := s.sq.quota.set (s.fld CFB_QUOTA_SEL_PARTITION) (CFB_QUOTA_LIMIT.of v) } } : State).mirrorOut 7
  else if off = TIM_PTP_CFG then
    let s := s.plainWrite off v
    if s.fld TIM_PTP_CFG_ENABLE = 0 then s.setFld TIM_STATUS_PTP 0
    else if s.fld TIM_STATUS_PTP = 0 then s.setFld TIM_STATUS_PTP (if s.fld TIM_TICK_SOURCE = 1 then 4 else 1) else s
  else if off = GRP_RESV_CFG then (s.plainWrite off v).mirrorOut 7
  else if PLC_STATUS ≤ off ∧ off ≤ PLC_BROKER_STAT then (s.writePlc lvl off v).mirrorOut 7
  else if SEC_STATUS ≤ off ∧ off ≤ SEC_SCRUB then s.writeSec off v
  else if off = FLT_CFG then s.writeFltCfg v
  else if FLT_BLKn ≤ off ∧ off < FLT_BLKn + 0x200 then s.writeBlk ((off - FLT_BLKn) / 8) v
  else if FLT_SRCn ≤ off ∧ off < FLT_SRCn + 0x10000 then s.writeSource lvl ((off - FLT_SRCn) / 8) v
  else if off = TRI_CFG then s.writeTriCfg lvl v
  else if off = TRI_STANDBY_CFG then s.writeStandbyCfg v
  else if off = PWR_CTRL then s.writePwrCtrl lvl v
  else if off = PWR_WAKE_CFG then
    let s := s.takeRange PWR_WAKE_CFG_GATE_MS v 1 255
    if PWR_WAKE_CFG_IDLE_US.of v = 0 then s.setFld PWR_WAKE_CFG_IDLE_US 0 else s.takeRange PWR_WAKE_CFG_IDLE_US v 10 1000000
  else if 0x1000 ≤ off ∧ off < 0x1800 then s.writeCq off v
  else s.plainWrite off v

/-- REGISTER_WRITE (R452, R4): an access of another size or alignment, or of an address that holds no register, is ignored; a
tenant's is counted. -/
def execRegisterWrite (lvl : Level) (size addr : Nat) (v : Word64) (s : State) : Answer :=
  if size ≠ 8 ∨ addr % 8 ≠ 0 ∨ (regDesc addr).isNone then .next s
  else match lvl with
    | .tenant => .next (s.violation lvl)
    | _ => .next (s.writeReg lvl addr v)

end Sys2Proof.Machine
end

