-- ==== Sys2Proof/Machine/Spaces.lean ====
section
/-! DEFINITION. The memory spaces handles name (R20, R24 to R26, R176): reads, writes and zero fills of a range of bytes,
with the faults of R183. -/

namespace Sys2Proof.Machine

/-! ## Pieces of the HBM system area (R26) -/

/-- Replaces the bytes of `l` from `off` on by `d`. -/
def splice (l : List Byte) (off : Nat) (d : List Byte) : List Byte := l.take off ++ d ++ l.drop (off + d.length)

/-- The line of KV directory entry `i` (R315). -/
def State.dirLine (s : State) (i : Nat) : List Byte :=
  match s.plc.pages.get i with
  | some x => x.words.flatMap (leBytes 8)
  | none => zeros 64

/-- Directory lines from entry `i` on. -/
def State.dirLines (s : State) (i n : Nat) : List Byte := (List.range n).flatMap fun k => s.dirLine (i + k)

/-- Replaces a directory line; an entry that is not VALID is absent (R315). -/
def State.setDirLine (s : State) (i : Nat) (l : List Byte) : State :=
  let pages := match Page.ofWords ((List.range 8).map fun k => leAt l (8 * k) 8) with
    | some x => s.plc.pages.set i x
    | none => s.plc.pages.erase i
  { s with plc := { s.plc with pages := pages } }

/-- Lines that a range of bytes touches. -/
def lineSpan (a n : Nat) : Nat := (a % 64 + n + 63) / 64

/-- Bytes of a ring of equal records. -/
def recordBytes (at_ : Nat → List Byte) (size a n : Nat) : List Byte :=
  slice ((List.range ((a % size + n + size - 1) / size)).flatMap fun k => slice (at_ (a / size + k)) 0 size) (a % size) n

/-- Where the health ring lies in the working state: behind the 4 MiB ring of scrub records (R348, R414, log entry 49). -/
def healthBase : Nat := 4194304

/-- Bytes of the working state: the ring of scrub records, the ring of health reports, and plain memory behind them. -/
def State.workByte (s : State) (i : Nat) : Byte :=
  if i < healthBase then (s.sec.scrubRecords.getD (i / 256) []).getD (i % 256) 0
  else if i < healthBase + 16384 then (s.tri.health.getD ((i - healthBase) / 64) []).getD (i % 64) 0
  else s.hbm.read (hbmBase 3 + i)

/-- Bytes of a part of the system area. -/
def State.hbmBytes (s : State) (area a n : Nat) : List Byte :=
  match area with
  | 0 => slice (s.dirLines (a / 64) (lineSpan a n)) (a % 64) n
  | 1 => recordBytes (fun i => match s.led.ring.get i with | some r => r.bytes | none => zeros 64) 64 a n
  | 2 => s.hbm.readBytes (hbmBase 2 + a) n
  | _ => (List.range n).map fun k => s.workByte (a + k)

/-- Writes a part of the system area; the ledger ring is read-only (R176). -/
def State.writeHbm (s : State) (area a : Nat) (l : List Byte) : State :=
  match area with
  | 0 =>
    let n := lineSpan a l.length
    let new := splice (s.dirLines (a / 64) n) (a % 64) l
    s.forEach (List.range n) fun s k => s.setDirLine (a / 64 + k) (slice new (64 * k) 64)
  | 1 => s
  | i => { s with hbm := s.hbm.writeBytes (hbmBase i + a) l }

/-! ## Errors of a shared space (R183, R24, R26, R36) -/

/-- Die `i` of a run of dies is out. -/
def State.dieOut (s : State) (i : Nat) : Bool := s.pwr.deadBlocks.contains i

/-- A table-store region has lost its data at an address: its die is out and the region was not rebuilt into TS11, or both
gambit copies are out (R24, R36). TSn is block 39 + n. -/
def State.regionLost (s : State) (i a : Nat) : Bool :=
  let gone := fun (ts : Nat) => s.dieOut (39 + ts) && !s.pwr.rebuilt.contains ts
  let k := a / 1073741824
  if i = 2 ∨ i = 3 then gone (5 + k) && gone (7 + k) else gone (regionFirst i + k)

/-- Offset of a part in the 16 GiB system area (R26). -/
def areaOffset (area : Nat) : Nat :=
  if area = 0 then 0 else if area = 1 then 4294967296 else if area = 2 then 4362076160 else 12952010752

/-- Both stacks that hold an address of the system area are out (R26). Mn is block 51 + n. -/
def State.hbmLost (s : State) (area a : Nat) : Bool :=
  let k := (areaOffset area + a) / 4294967296
  s.dieOut (51 + k) && s.dieOut (55 + k)

/-- A range of the spill pool touches a page on a stack that is out (R26, R321). -/
def State.spillLost (s : State) (p a n : Nat) : Bool :=
  let w := s.pageBytes p
  decide (0 < w) && (List.range ((a % w + n + w - 1) / w)).any fun i => s.dieOut (51 + (a / w + i) % 8)

/-! ## Spaces (R176, R177) -/

/-- Kinds that loads, stores, copies and seals take (R176). -/
def memKinds : List Nat := [1, 2, 3, 4, 5, 9]

/-- A read fails with fault 0x08 (R183). -/
def State.readLost (s : State) (h : Handle) (a n : Nat) : Bool :=
  match h.kind with
  | 3 => decide (h.obj < 6) && s.regionLost h.obj a
  | 4 => s.hbmLost h.obj a
  | 5 => s.spillLost h.obj a n
  | 9 => s.dieOut 50
  | _ => false

/-- The bytes of a range of a space, unchecked. -/
def State.spaceBytes (s : State) (e : Nat) (h : Handle) (a n : Nat) : List Byte :=
  match h.kind with
  | 1 => (s.engine e).localMem.readBytes a n
  | 2 => ((s.engine e).bufs.getD h.obj []).readBytes a n
  | 3 => if h.obj < 6 then (s.store.getD h.obj []).readBytes a n
    else recordBytes (fun i => beBytes 64 ((s.copyOf (BitVec.ofNat 32 h.obj)).routes.getD i 0).toNat) 64 a n
  | 4 => s.hbmBytes h.obj a n
  | 5 => (s.spill.getD h.obj []).readBytes a n
  | 9 => ((s.sets.getD h.obj { size := 0 }).bytes).readBytes a n
  | _ => leBytes 8 (s.readReg (0x20000 * h.obj + a)).toNat

/-- Reads a range of a space: its bytes, or the fault (R177, R183). -/
def State.readSpace (s : State) (e : Nat) (h : Handle) (a n : Nat) : Except Nat (List Byte) :=
  if h.size < a + n then .error 0x02
  else if s.readLost h a n then .error 0x08
  else .ok (s.spaceBytes e h a n)

/-- Replaces an engine's memory behind a handle of kind 0x1 or 0x2. -/
def State.writeOwn (s : State) (e : Nat) (h : Handle) (a : Nat) (l : List Byte) : State :=
  let x := s.engine e
  if h.kind = 1 then s.setEngine e { x with localMem := x.localMem.writeBytes a l }
  else s.setEngine e { x with bufs := x.bufs.set h.obj ((x.bufs.getD h.obj []).writeBytes a l) }

/-- The state after a write of a range of a space, unchecked. Both gambit copies are written by one voted act (R24). -/
def State.putSpace (s : State) (e : Nat) (h : Handle) (a : Nat) (l : List Byte) : State :=
  match h.kind with
  | 1 => s.writeOwn e h a l
  | 2 => s.writeOwn e h a l
  | 3 =>
    let put := fun (m : NMap Memory) (i : Nat) => m.set i ((m.getD i []).writeBytes a l)
    { s with store := if h.obj = 2 ∨ h.obj = 3 then put (put s.store 2) 3 else put s.store h.obj }
  | 4 => s.writeHbm h.obj a l
  | 5 => { s with spill := s.spill.set h.obj ((s.spill.getD h.obj []).writeBytes a l) }
  | 9 =>
    (match s.sets.get h.obj with
     | some x => { s with sets := s.sets.set h.obj { x with bytes := x.bytes.writeBytes a l } }
     | none => s)
  | _ => s.writeReg (s.engine e).level (0x20000 * h.obj + a) (BitVec.ofNat 64 (leNat l))

/-- An install set whose TINST tag is outstanding (R187, R197). -/
def State.setLocked (s : State) (h : Handle) : Bool :=
  h.kind == 9 && (match s.sets.get h.obj with | some x => x.locked | none => true)

/-- Spaces that take no write: an agent's route table, the ledger ring (R176). -/
def Handle.readOnly (h : Handle) : Bool := (h.kind == 3 && decide (6 ≤ h.obj)) || (h.kind == 4 && h.obj == 1)

/-- Writes a range of a space: the state, or the fault (R177, R183). -/
def State.writeSpace (s : State) (e : Nat) (h : Handle) (a : Nat) (l : List Byte) : Except Nat State :=
  if s.setLocked h ∨ h.readOnly then .error 0x04
  else if h.size < a + l.length then .error 0x02
  else .ok (s.putSpace e h a l)

/-- Fills a whole space with zeros: what ZFILL leaves (R192). -/
def State.zeroSpace (s : State) (e : Nat) (h : Handle) : State :=
  let x := s.engine e
  match h.kind with
  | 1 => s.setEngine e { x with localMem := [] }
  | 2 => s.setEngine e { x with bufs := x.bufs.set h.obj [] }
  | 3 => { s with store := if h.obj = 2 ∨ h.obj = 3 then (s.store.set 2 []).set 3 [] else s.store.set h.obj [] }
  | 4 => if h.obj = 0 then { s with plc := { s.plc with pages := [] } }
    else { s with hbm := s.hbm.zero (hbmBase h.obj) h.size }
  | 5 => { s with spill := s.spill.set h.obj [] }
  | 9 =>
    (match s.sets.get h.obj with
     | some y => { s with sets := s.sets.set h.obj { y with bytes := [] } }
     | none => s)
  | _ => s

end Sys2Proof.Machine
end

