-- ==== Sys2Proof/Machine/Issue.lean ====
section
/-! DEFINITION. How a route engine executes an instruction (R182, R183, R185): fetch, legality, budget, guard, level, effect;
tags; handle checks. -/

namespace Sys2Proof.Machine

/-- What an instruction comes to. -/
inductive Effect where
  /-- executed: PC + 1 -/
  | done (s : State)
  /-- executed: the next PC -/
  | goto (s : State) (pc : Nat)
  /-- a fault of R183 with the RESULT of its record -/
  | fault (code : Nat) (result : Word64)
  /-- a check of level or partition fails (R182) -/
  | suppress
  /-- issue waits and nothing has changed (R185, R192) -/
  | stay
  /-- the instruction blocks (R182) -/
  | block (s : State) (b : Blocked)
  /-- the program has ended -/
  | ended (s : State)

/-- Zero into registers. -/
def Engine.zeroRegs (x : Engine) (l : List Nat) : Engine := l.foldl (fun x r => x.setG r 0) x

/-- What suppression leaves in the engine (R182): zero in every destination, the handle closed, PC + 1. -/
def Engine.suppressed (x : Engine) (w : Word64) : Engine :=
  let y := (x.zeroRegs (destRegs w)).setP (destPred w) false
  { y with h := if destHandle w = 0 then y.h else y.h.erase (destHandle w), pc := y.pc + 1 }

/-- Suppression (R182): destinations zero, and the violation counter of the program's level rises (R4). -/
def State.suppress (s : State) (e : Nat) (w : Word64) : State :=
  (s.setEngine e ((s.engine e).suppressed w)).countViolation (s.engine e).level

/-- Sets the program counter of a program that has not ended. -/
def State.setPc (s : State) (e pc : Nat) : State :=
  if (s.engine e).running then s.setEngine e { s.engine e with pc := pc } else s

/-- Blocks an engine. -/
def State.setBlocked (s : State) (e : Nat) (b : Blocked) : State := s.setEngine e { s.engine e with blocked := b }

/-- Carries out the effect of the instruction at `pc`; `s0` is the state before issue (R182, R183). -/
def State.settleEffect (s0 s : State) (e : Nat) (w : Word64) : Effect → State
  | .done t => t.setPc e ((s.engine e).pc + 1)
  | .goto t pc => t.setPc e pc
  | .fault code r => s.faultProgram e code r
  | .suppress => s.suppress e w
  | .stay => s0
  | .block t b => t.setBlocked e b
  | .ended t => t

/-- The engine runs a program and is not blocked. -/
def Engine.issues (x : Engine) : Bool := x.running && x.blocked == .no && x.scrubDev.isNone

/-! ## The gates (R16, R170, R173, R195) -/

/-- A handle of an engine names a space that is no part of the engine. -/
def Engine.shared (x : Engine) (i : Nat) : Bool :=
  match x.handle i with
  | some h => h.kind != 1 && h.kind != 2
  | none => false

/-- An instruction reads or writes a shared space, emits, or commands RT0: it passes a voter gate. -/
def Engine.gated (x : Engine) (w : Word64) : Bool :=
  let op := wOp w
  if 0x20 ≤ op ∧ op ≤ 0x26 then x.shared (wHs w)
  else if op = 0x27 then x.shared (wHa w) || x.shared (wHd w)
  else if op = 0x29 then x.shared (wHa w)
  else [0x28, 0x2A, 0x2B, 0x30, 0x33, 0x34, 0x40, 0x41, 0x42, 0x43, 0x44, 0x53, 0x54, 0x60, 0x61, 0x62, 0x63, 0x64, 0x65, 0x74,
    0x75, 0x76, 0x77, 0x78, 0x79, 0x7A].contains op

/-- An instruction commands RT0 (R192). -/
def toRt0 (w : Word64) : Bool := [0x74, 0x75, 0x76, 0x77, 0x78, 0x7A].contains (wOp w)

/-- The engine served next of those that wait: LRE0 to LRE3 first, then the others in rotation from the one served last (R195). -/
def nextAtGate (wait : List Nat) (turn : Nat) : Option Nat :=
  match wait.find? (· < 4) with
  | some e => some e
  | none => match (List.range 32).find? fun k => wait.contains ((turn + 1 + k) % 32) with
    | some k => some ((turn + 1 + k) % 32)
    | none => none

/-- The gates serve an engine's act now: they are open, and no other engine comes first. -/
def State.gateServes (s : State) (e : Nat) (w : Word64) : Bool :=
  s.gatesOpen && !(toRt0 w && s.rt0Out) &&
    match nextAtGate s.tri.gateWait s.tri.gateTurn with
    | none => true
    | some n => n == e

/-- An engine waits at the gates with its instruction not issued. -/
def State.waitAtGate (s : State) (e : Nat) : State :=
  if s.tri.gateWait.contains e then s else { s with tri := { s.tri with gateWait := s.tri.gateWait ++ [e] } }

/-- An engine that waited is served. -/
def State.leaveGate (s : State) (e : Nat) : State :=
  if s.tri.gateWait.contains e then
    { s with tri := { s.tri with gateWait := s.tri.gateWait.filter (· != e), gateTurn := if e < 4 then s.tri.gateTurn else e } }
  else s

/-- Issue of an instruction of opcode `op` on an engine whose next instruction it is (R182). An illegal word faults under
the opcode it names, an undefined one under INV (R180). An act or a shared access waits until the gates serve it, and in the pause
of a resync every engine stands at an instruction boundary (R173, R195, R401; log entry 137). -/
def State.issue (s : State) (e op : Nat) (lvl : Level) (body : State → Word64 → Effect) : State :=
  let x := s.engine e
  if x.issues = false ∨ s.pausing then s
  else match x.code[x.pc]? with
    | none => s.faultProgram e 0x06
    | some w =>
      if wOp w ≠ op ∧ (op ≠ 0 ∨ (usedMask (wOp w)).isSome) then s
      else if legal w = false then s.faultProgram e 0x01
      else if x.budget = 0 then s.faultProgram e 0x05
      else
        let t := (s.setEngine e { x with budget := x.budget - 1 }).leaveGate e
        if x.pred (wPidx w) = wNeg w then t.setPc e (x.pc + 1)
        else if levelRank x.level < levelRank lvl then t.suppress e w
        else if x.gated w && !s.gateServes e w then s.waitAtGate e
        else s.settleEffect t e w (body t w)

/-! ## Writing results -/

/-- Writes one register of an engine. -/
def State.putG (s : State) (e r : Nat) (v : Word64) : State := s.setEngine e ((s.engine e).setG r v)

/-- Writes one predicate of an engine. -/
def State.putP (s : State) (e i : Nat) (b : Bool) : State := s.setEngine e ((s.engine e).setP i b)

/-- Writes consecutive registers of an engine. -/
def State.putGs (s : State) (e r : Nat) : List Word64 → State
  | [] => s
  | v :: t => (s.putG e r v).putGs e (r + 1) t

/-- Opens or closes a handle of an engine. -/
def State.putH (s : State) (e i : Nat) (h : Option Handle) : State :=
  let x := s.engine e
  s.setEngine e { x with h := match h with | some h => x.h.set i h | none => x.h.erase i }

/-- A register of an engine. -/
def State.g (s : State) (e r : Nat) : Word64 := (s.engine e).reg r

/-! ## Handles (R177, R183) -/

/-- A handle of one of these kinds with these rights, or fault 0x04. -/
def State.withHandle (s : State) (e i : Nat) (kinds : List Nat) (need : Nat) (k : Handle → Effect) : Effect :=
  match (s.engine e).handle i with
  | none => .fault 0x04 0
  | some h => if kinds.contains h.kind && h.rights &&& need == need then k h else .fault 0x04 0

/-- Reads a range behind a handle, or faults. -/
def State.withBytes (s : State) (e : Nat) (h : Handle) (a n : Nat) (k : List Byte → Effect) : Effect :=
  match s.readSpace e h a n with
  | .ok l => k l
  | .error c => .fault c 0

/-- Writes a range behind a handle, or faults. -/
def State.withStore (s : State) (e : Nat) (h : Handle) (a : Nat) (l : List Byte) (k : State → Effect) : Effect :=
  match s.writeSpace e h a l with
  | .ok t => k t
  | .error c => .fault c 0

/-- Rights (R177). -/
def rRead : Nat := 1
def rWrite : Nat := 2
def rEmit : Nat := 4
def rInstall : Nat := 8

/-! ## Tags (R185) -/

/-- Outstanding tags of a program. -/
def Engine.outstanding (x : Engine) : Nat := x.tags.countIf fun _ t => t.ready.isNone

/-- The next tag of an engine. -/
def State.nextTag (s : State) (e : Nat) : Nat := (s.engine e).nextTag

/-- Issues a tag: its number goes to g[rd] (R185). -/
def State.openTag (s : State) (e rd : Nat) (t : Tag) : State :=
  let x := s.engine e
  s.setEngine e ({ x with tags := x.tags.set x.nextTag t, nextTag := x.nextTag + 1 }.setG rd (BitVec.ofNat 64 x.nextTag))

/-- An asynchronous instruction: it waits while 256 tags are outstanding; otherwise `k` gets the state with the tag issued, and
the tag (R185). -/
def State.async (s : State) (e rd : Nat) (t : Tag) (k : State → Nat → State) : Effect :=
  if 256 ≤ (s.engine e).outstanding then .stay else .done (k (s.openTag e rd t) (s.nextTag e))

/-- An outstanding tag uses a handle (R192, R197). -/
def Engine.handleBusy (x : Engine) (i : Nat) : Bool := x.tags.any fun t => t.2.ready.isNone && t.2.handles.contains i

end Sys2Proof.Machine
end

