-- ==== Sys2Proof/Machine/Fabric.lean ====
section
/-! DEFINITION. The fabric and event classes of Alanik, 0x30 to 0x34 and 0x50 to 0x54 (R188, R189), tag completions (R185) and
EVWAIT deadlines (R174). -/

namespace Sys2Proof.Machine

/-! ## SEND (R188) -/

/-- Types that nothing acknowledges (R94, R98, R102). -/
def unanswered (h : Header) : Bool :=
  h.cls == .collective || [0x00, 0x08, 0x09, 0x0A, 0x28, 0x2F, 0x31, 0x32, 0x35, 0x37].contains h.typ.toNat
    || (h.typ == 0x36 && h.aux.toNat % 256 == 0)

/-- The stream of an engine's packets (R188). -/
def engineStream (e : Nat) : BitVec 16 := BitVec.ofNat 16 (0xFF00 + e)

/-- The packet in a message buffer: its header with the fields the controller sets, and its payload (R188). -/
def State.bufferPacket (s : State) (e obj : Nat) : Packet :=
  let m := (s.engine e).bufs.getD obj []
  let h := Header.parse (m.readBytes 0 32)
  { hdr := { h with src := s.fid, partition := (s.engine e).partition, hops := 63, stream := engineStream e }
    payload := m.readBytes 32 h.length.toNat }

/-- What a tenant program may send: TYPE 0x01 to 0x04 in Bulk to an endpoint of its own partition (R188). -/
def State.tenantSend (s : State) (e : Nat) (h : Header) : Bool :=
  h.cls == .bulk && decide (1 ≤ h.typ.toNat ∧ h.typ.toNat ≤ 4) && !h.bcast &&
    (match s.refOf h.dest with
     | some a => a.variant == .e && (s.agent a).partition == (s.engine e).partition
     | none => false)

/-- Sends a packet of a program on its stream, one copy for each facing agent where it is BCAST; `kind` is what its answer
completes (R188, R152). -/
def State.sendProgram (s : State) (p : Packet) (kind : AckKind) : State :=
  let kept := !unanswered p.hdr
  let one := fun (s : State) (p : Packet) (dest : Option Fid) =>
    let k : AckHook := { dest := dest, stream := p.hdr.stream, seq := (s.tx .ctl p.hdr.dest p.hdr.stream).nextSeq, kind := kind }
    let s : State := if kept then { s with hooks := s.hooks ++ [k] } else s
    s.sendPkt .ctl p (kept && !p.hdr.bcast)
  if p.hdr.bcast then s.forEach s.facing fun s x => one s { p with hdr := { p.hdr with dest := x.2 } } none
  else one s p (some p.hdr.dest)

/-- SEND (R188): a malformed header gives 0xF6 and nothing leaves; with MOD[3] the engine blocks until the packet is answered. -/
def execSend (e : Nat) (s : State) : Answer := .next (s.issue e 0x30 .tenant fun s w =>
  s.withHandle e (wHa w) [2] (rRead + rEmit) fun h =>
    let p := s.bufferPacket e h.obj
    let bad := (headerFault p.hdr).isSome
    if (s.engine e).level = .tenant ∧ s.tenantSend e p.hdr = false then .suppress
    else if wMod3 w then
      if bad then .done ((s.putG e (wRd w) 0xF6).putP e (wSp w) false)
      else if unanswered p.hdr then .done (((s.sendProgram p .other).putG e (wRd w) 0).putP e (wSp w) true)
      else .block (s.sendProgram p (.sendBlock e)) (.answer (wRd w) (wSp w) false)
    else s.async e (wRd w) { kind := .send, handles := [wHa w] } fun t n =>
      if bad then t.completeTag e n 0xF6 0
      else if unanswered p.hdr then (t.sendProgram p .other).completeTag e n 0 0
      else t.sendProgram p (.sendTag e n))

/-! ## WAIT, TAG_COMPLETE (R185) -/

/-- WAIT: the status and result of a tag once; 0xF4 for a tag that is unknown or was waited for. -/
def execWait (e : Nat) (s : State) : Answer := .next (s.issue e 0x31 .tenant fun s w =>
  let t := (s.g e (wRa w)).toNat
  let out := fun (s : State) (st : Nat) (r : Word64) =>
    Effect.done ((s.putGs e (wRd w) [BitVec.ofNat 64 st, r]).putP e (wSp w) (st == 0))
  match (s.engine e).tags.get t with
  | none => out s 0xF4 0
  | some x => match x.ready with
    | some r =>
      let y := s.engine e
      out (s.setEngine e { y with tags := y.tags.erase t }) r.1 r.2
    | none => .block s (.wait t (wRd w) (wSp w)))

/-- The run of a fabric image that its tag stands for ends: the output is written, and the result is the bytes written; the image
goes to its next run (R190, R224). -/
def State.endRun (s : State) (e tag image entry : Nat) (src : Handle) (addr len : Nat) (dst : Handle) : State :=
  let s : State := match s.sq.images.get image with
    | some i => { s with sq := { s.sq with images := s.sq.images.set image { i with runs := i.runs.filter (· != (e, tag)) } } }
    | none => s
  let out := (Config.imageOutput image entry (s.spaceBytes e src addr len)).take dst.size
  match s.writeSpace e dst 0 out with
  | .ok t => t.completeTag e tag 0 (BitVec.ofNat 64 out.length)
  | .error _ => s.completeTag e tag 0 0

/-- The run of a tag is the one its image executes (R224), and two instances of the image give its output at an open gate (R16,
R17, R396). -/
def State.runsNow (s : State) (e tag image : Nat) : Bool :=
  match s.sq.images.get image with
  | some i => i.runs.head? == some (e, tag) && s.tripleServes image
  | none => true

/-- The run of an ended program that an image executes comes to its end, and its output is discarded (R183, R224). -/
def State.endForgotten (s : State) (image : Nat) : State :=
  match s.sq.images.get image with
  | some i =>
    if i.runs.head? = some (0xFF, 0) ∧ s.tripleServes image then
      { s with sq := { s.sq with images := s.sq.images.set image { i with runs := i.runs.drop 1 } } }
    else s
  | none => s

/-- Status and result word of a GLAUNCH from the copies of its members' records (R190, R245); none while one is missing. Where records
differ, the result is that of the first member (log entry 165). -/
def State.launchResult (s : State) (group : Nat) (op : BitVec 32) : Option (Nat × Word64) :=
  match s.group group with
  | none => none
  | some g =>
    let got := (agentMembers g.rec_).map fun m => s.grp.copies.find? fun c => c.group == group && c.opSeq == op && c.member == m.fid
    if got.any (·.isNone) then none
    else
      let l := (got.filterMap id).map (·.bytes)
      let r := l.headD []
      some (if l.all fun b => leAt b 4 1 == 0 then 0 else 0xF2,
        BitVec.ofNat 64 (leAt r 6 1 * 2 ^ 52 + leAt r 7 1 * 2 ^ 32 + leAt r 8 3))

/-- TAG_COMPLETE (R185): an operation of a program completes. A KV move and an image run have their effect as they end, a GLAUNCH ends
by the copies of its members' records (R245); engine 0xFF names a move of a program that has ended by its directory entry, 0xFE a run
of one by its image (R183, log entry 51). -/
def execTagComplete (e tag status : Nat) (result : Word64) (s : State) : Answer :=
  if e = 0xFF then
    match s.plc.moves.find? fun m => m.tag == some (0xFF, tag) with
    | some m => .next (s.endMove m (status == 0))
    | none => .next s
  else if e = 0xFE then .next (s.endForgotten tag)
  else match (s.engine e).tags.get tag with
    | none => .next s
    | some t =>
      if t.ready.isSome then .next s
      else match t.kind with
        | .kvmove entry =>
          (match s.plc.moves.find? fun m => m.entry == entry && m.tag == some (e, tag) with
           | some m => .next ((s.endMove m (status == 0)).completeTag e tag status result)
           | none => .next (s.completeTag e tag status result))
        | .imgrun image entry src addr len dst =>
          if s.runsNow e tag image = false then .next s
          else .next (s.endRun e tag image entry src addr len dst)
        | .collective group op =>
          (match s.launchResult group op with
           | some r => .next ((s.dropLaunchCopies group op).completeTag e tag r.1 r.2)
           | none => .next s)
        | _ => .next (s.completeTag e tag status result)

/-! ## RECV, RREAD, RWRITE -/

/-- RECV: the oldest message into a buffer, whose bytes behind it stay (log entry 52). -/
def execRecv (e : Nat) (s : State) : Answer := .next (s.issue e 0x32 .tenant fun s w =>
  s.withHandle e (wHd w) [2] rWrite fun h =>
    let x := s.engine e
    match x.inbox with
    | [] => .done ((s.putG e (wRd w) 0).putP e (wSp w) false)
    | m :: t =>
      let l := m.2.take 4128
      let y := { x with inbox := t, bufs := x.bufs.set h.obj ((x.bufs.getD h.obj []).writeBytes 0 l) }
      let s := ((s.setEngine e y).putG e (wRd w) (BitVec.ofNat 64 l.length)).putP e (wSp w) true
      .done (if e = 0 then s.flushLre0 else s))

/-- The register request of RREAD and RWRITE (R99, R188). -/
def State.regRequest (s : State) (e : Nat) (dest : Fid) (typ : BitVec 8) (off : Nat) (payload : List Byte) : State :=
  s.sendProgram { hdr := { dest := dest, src := s.fid, cls := .control, typ := typ, length := lenOf payload
                           partition := (s.engine e).partition, addr := BitVec.ofNat 57 off, stream := engineStream e }
                  payload := payload } (.sendBlock e)

/-- RREAD. -/
def execRread (e : Nat) (s : State) : Answer := .next (s.issue e 0x33 .operator fun s w =>
  .block (s.regRequest e ((s.g e (wRa w)).setWidth 32) 0x29 (wImmH w) []) (.answer (wRd w) (wSp w) true))

/-- RWRITE. -/
def execRwrite (e : Nat) (s : State) : Answer := .next (s.issue e 0x34 .operator fun s w =>
  .block (s.regRequest e ((s.g e (wRa w)).setWidth 32) 0x30 (wImmH w) (leBytes 8 (s.g e (wRb w)).toNat))
    (.answer (wRd w) (wSp w) false))

/-! ## Events (R189) -/

/-- EVWAIT: 1 for a message, 0 for the deadline; a message comes first (R197). -/
def execEvwait (e : Nat) (s : State) : Answer := .next (s.issue e 0x50 .tenant fun s w =>
  let dl := (s.g e (wRb w)).toNat
  if (s.engine e).inbox ≠ [] then .done (s.putG e (wRd w) 1)
  else if dl ≤ s.now then .done (s.putG e (wRd w) 0)
  else .block s (.evwait (wRd w) 0 dl))

/-- EVWAIT_DEADLINE (R29, R174): an engine that still waits at its deadline goes on with 0. -/
def execEvwaitDeadline (e : Nat) (s : State) : Answer :=
  match (s.engine e).blocked with
  | .evwait rd _ dl =>
    if s.now < dl then .next s
    else .next ((((s.putG e rd 0).setBlocked e .no)).setPc e ((s.engine e).pc + 1))
  | _ => .next s

/-- EVSUB. -/
def execEvsub (e : Nat) (s : State) : Answer := .next (s.issue e 0x51 .operator fun s w =>
  .done { s with col := { s.col with subs :=
    s.col.subs ++ [(e, (s.g e (wRa w)).toNat, (s.g e (wRb w)).toNat, wModHi w)] } })

/-- EVPOST: an operator program reports a source, a severity and a detail; a tenant's is recorded at severity 0 on the engine's
source. Severities above 4 do not exist (R361), and none is posted. -/
def execEvpost (e : Nat) (s : State) : Answer := .next (s.issue e 0x52 .tenant fun s w =>
  let d : BitVec 16 := (s.g e (wRb w)).setWidth 16
  if (s.engine e).level = .tenant then .done (s.raise (engineSource e) 0 d)
  else if 4 < wModHi w then .done s
  else .done (s.raise ((s.g e (wRa w)).toNat % 8192) (wModHi w) d))

/-- TIME: the controller time in ns. -/
def execTime (e : Nat) (s : State) : Answer := .next (s.issue e 0x53 .tenant fun s w => .done (s.putG e (wRd w) (s.reg TIM_NOW)))

/-- EPOCH: epoch number and slot, as SCH_EPOCH_NOW. -/
def execEpoch (e : Nat) (s : State) : Answer := .next (s.issue e 0x54 .tenant fun s w =>
  .done (s.putG e (wRd w) (s.readReg SCH_EPOCH_NOW)))

end Sys2Proof.Machine
end

