-- ==== Sys2Proof/Machine/Acks.lean ====
section
/-! DEFINITION. Answers to packets a node sent: ACK, NAK, RESEND_REQ, READ_RESP, REG_RESP and the retry timer (R96, R99, R105 to
R107, R112, R165, R472, R473), and what they complete. -/

namespace Sys2Proof.Machine

/-! ## What an answer completes -/

/-- What waits for the answer to a packet of the controller learns it: the answering agent, the packet's number, the status
(0 done, a NAK reason, 0xF2 for reason 0x09, 0xF0 for none), and the value of a register response. -/
def State.hookDone (s : State) (k : AckKind) (f : Fid) (seq : BitVec 32) (status : Nat) (value : Word64) : State :=
  if status ≠ 0 then s.hookFailed k f status value
  else match k with
  | .install v g => s.installAcked v g seq
  | .commit v => s.commitAcked v f
  | .stage id g => s.stageAcked id g seq
  | .play n => s.playAcked n f
  | .claim => s.claimAcked f
  | .streamsReset t => s.restartAcked t f
  | .reserve g a => s.reserveAcked g a
  | .freeOrder g a => s.freeAnswered g a
  | .sendTag e t => s.completeTag e t status value
  | .sendBlock e => s.setEngine e ((s.engine e).answered status value)
  | .kat => s
  | .takeoverRead r => s.takeoverRead f r (some value)
  | .other => s

/-- The hooks of one packet of the controller. -/
def AckHook.names (k : AckHook) (dest : Fid) (stream : BitVec 16) (seq : BitVec 32) : Bool :=
  k.dest == some dest && k.stream == stream && k.seq == seq

/-- The end of a controller packet: its hooks learn it and go; a mirror record is acknowledged (R404). -/
def State.ctlDone (s : State) (t : TxPkt) (status : Nat) (value : Word64) : State :=
  let h := t.pkt.hdr
  let ks := s.hooks.filter fun k => k.names h.dest h.stream h.seq
  let s : State := { s with hooks := s.hooks.filter fun k => !k.names h.dest h.stream h.seq }
  let s := s.forEach ks fun s k => s.hookDone k.kind h.dest h.seq status value
  let s := if h.typ = 0x26 then s.sleepAnswered .ctl t.port status else s
  if h.typ = 0x2E ∧ status = 0 then s.mirrorAcked (leAt t.pkt.payload 0 8) else s

/-- Acknowledged events leave the buffer, and latched detectors present again (R65, R102). -/
def State.releaseEvents (s : State) (a : AgentRef) (seq : BitVec 32) : State :=
  let s := s.updAgent a fun g => { g with eventsSent := g.eventsSent.filter fun x => x.1 != seq }
  State.presentLatched a (s.agent a).latched.length s

/-- The end of an agent's packet: events leave the buffer, a sleep handshake ends, and the source learns the status (R102, R429). -/
def State.agentDone (s : State) (a : AgentRef) (t : TxPkt) (status : Nat) : State :=
  let h := t.pkt.hdr
  let s := if h.typ = 0x34 then s.releaseEvents a h.seq else s
  let s := if h.typ = 0x26 then s.sleepAnswered (.agent a) t.port status else s
  s.emit (.packetDone (.agent a) h.dest h.stream h.seq status)

/-- A packet of a node has come to its end: it is released, and what waited on its stream leaves (R93, R107, R109). -/
def State.packetEnd (s : State) (n : Node) (t : TxPkt) (status : Nat) (value : Word64 := 0) : State :=
  let h := t.pkt.hdr
  let x := s.tx n h.dest h.stream
  let l := x.outstanding.filter fun u => u.pkt.hdr.seq != h.seq
  let s := s.setTx n h.dest h.stream { x with outstanding := l }
  let s := match n with
    | .ctl => s.ctlDone t status value
    | .agent a => s.agentDone a t status
  s.forEach (l.filter (·.waiting)) fun s _ => s.releaseWaiting n h.dest h.stream

/-- A packet that has not left yet; a resend that waits for its head entry has. -/
def TxPkt.unsent (t : TxPkt) : Bool := t.waiting && !t.pkt.hdr.resend

/-- The outstanding packet of a stream with a number. -/
def State.sent (s : State) (n : Node) (dest : Fid) (stream : BitVec 16) (seq : BitVec 32) : Option TxPkt :=
  (s.tx n dest stream).outstanding.find? fun t => t.pkt.hdr.seq == seq

/-! ## Resends (R107, R165) -/

/-- Resends of the packet count no attempt: an Express packet of an agent between a PLAY and its swap (R165). -/
def State.noCount (s : State) (n : Node) (t : TxPkt) : Bool :=
  match n with
  | .ctl => false
  | .agent a => t.pkt.hdr.cls == .express && (s.agent a).suspendUntil.isSome

/-- Emits a packet again with RESEND set; an Express one takes the next head entry of its stream. -/
def State.resendPkt (s : State) (n : Node) (t : TxPkt) : State :=
  let h := t.pkt.hdr
  let p := Packet.seal { t.pkt with hdr := { h with resend := true } }
  let wait := h.cls == .express
  let u : TxPkt := { t with pkt := p, resends := if s.noCount n t then t.resends else t.resends + 1
                            emittedNs := s.nodeNow n, waiting := wait, refused := false }
  let x := s.tx n h.dest h.stream
  let s := s.setTx n h.dest h.stream { x with outstanding := updateFirst (· == t) (fun _ => u) x.outstanding }
  if wait then s else s.emitTx n u

/-- Reports of an agent that are kept after their attempts (R473). -/
def keptReport (h : Header) : Bool :=
  h.typ == 0x34 || h.typ == 0x2C || h.typ == 0x27 || (h.typ == 0x36 && h.aux.toNat % 256 != 0)

/-- A report waits for the next beacon (R473). -/
def State.park (s : State) (n : Node) (t : TxPkt) : State :=
  let h := t.pkt.hdr
  let x := s.tx n h.dest h.stream
  s.setTx n h.dest h.stream { x with outstanding := updateFirst (· == t) (fun u => { u with parked := true }) x.outstanding }

/-- A packet ends without success (R106, R473): a report of an agent is kept, any other packet is released with the status. -/
def State.failPkt (s : State) (n : Node) (t : TxPkt) (status : Nat) : State :=
  if n ≠ .ctl ∧ keptReport t.pkt.hdr then s.park n t else s.packetEnd n t status

/-- The attempts have run out (R107, R473): a report is kept, any other packet ends with an error and an event on source 193, or on
the port's end-to-end source of the controller (R359). -/
def State.giveUp (s : State) (n : Node) (t : TxPkt) (status : Nat) : State :=
  if n ≠ .ctl ∧ keptReport t.pkt.hdr then s.park n t
  else
    let s := match n with
      | .agent a => s.raiseAgent a 193 2
      | .ctl => s.raiseAt .ctl 193 18 2 (s.originPort .ctl t.pkt.hdr) 0
    s.packetEnd n t status

/-- The first answer to a packet decides (R112): after a NAK that leads to a resend, answers wait for that resend. -/
def State.refuseTx (s : State) (n : Node) (t : TxPkt) : State :=
  let h := t.pkt.hdr
  let x := s.tx n h.dest h.stream
  s.setTx n h.dest h.stream { x with outstanding := updateFirst (· == t) (fun u => { u with refused := true }) x.outstanding }

/-- RETRY_TIMEOUT (R107): a resend, or the end after three. A COMMIT that went by BCAST goes as unicast to an agent that has not
acknowledged it (R155, step 3). -/
def execRetryTimeout (n : Node) (dest : Fid) (stream : BitVec 16) (seq : BitVec 32) (s : State) : Answer :=
  match s.sent n dest stream seq with
  | none => match n, s.hooks.find? fun k => k.dest.isNone && k.stream == stream && k.seq == seq with
    | .ctl, some { kind := .commit v, .. } => .next (s.commitUnicast v dest)
    | _, _ => .next s
  | some t =>
    if t.waiting ∨ t.parked ∨ s.nodeNow n < t.emittedNs + retryNs t.pkt.hdr.cls then .next s
    else if s.noCount n t ∨ t.resends < 3 then .next (s.resendPkt n t)
    else .next (s.giveUp n t 0xF0)

/-! ## ACK, NAK, RESEND_REQ (R105, R106, R112) -/

/-- The numbers an ACK or a RESEND_REQ names: SEQ, and SEQ + 1 + i for each bit i of AUX. -/
def namedSeqs (h : Header) : List (BitVec 32) :=
  h.seq :: ((List.range 24).filter fun i => h.aux.getLsbD i).map fun i => h.seq + 1 + BitVec.ofNat 32 i

/-- The DEST of the original packet, in ADDR[31:0]. -/
def originalDest (h : Header) : Fid := h.addr.setWidth 32

/-- Hooks of the controller's BCAST packets that an answer names; each agent answers its own replica. -/
def State.bcastAnswered (s : State) (h : Header) (seq : BitVec 32) (status : Nat) : State :=
  s.forEach (s.hooks.filter fun k => k.dest.isNone && k.stream == h.stream && k.seq == seq) fun s k =>
    s.hookDone k.kind h.src seq status 0

/-- One packet is acknowledged. -/
def State.ackOne (s : State) (n : Node) (h : Header) (seq : BitVec 32) : State :=
  match s.sent n (originalDest h) h.stream seq with
  | some t => if t.unsent ∨ t.refused then s else s.packetEnd n t 0
  | none => match n with
    | .ctl => s.bcastAnswered h seq 0
    | .agent a => s.dispatchAcked a h.src h.stream seq

/-- ACK (R105). -/
def execAck (n : Node) (p : Packet) (s : State) : Answer :=
  if p.crcOk = false then .next s else .next (s.forEach (namedSeqs p.hdr) fun s q => s.ackOne n p.hdr q)

/-- The status a NAK reason completes with (R184). -/
def nakStatus (r : Nat) : Nat := if r = 9 then 0xF2 else r

/-- Reasons after which nothing is resent (R106). -/
def finalNak (r : Nat) : Bool := r == 2 || r == 3 || r == 4 || r == 9 || r == 10

/-- NAK (R106): no resend for a final reason; a CRC mismatch is resent at once; the others resend at their timer; one that arrives
after the third resend ends the packet. -/
def execNak (n : Node) (p : Packet) (s : State) : Answer :=
  let h := p.hdr
  let r := h.aux.toNat % 256
  if p.crcOk = false then .next s
  else match s.sent n (originalDest h) h.stream h.seq with
    | some t =>
      if t.unsent ∨ t.parked ∨ t.refused then .next s
      else if finalNak r then .next (s.failPkt n t (nakStatus r))
      else if r = 0 ∨ 10 < r then .next s
      else if s.noCount n t = false ∧ 3 ≤ t.resends then .next (s.giveUp n t r)
      else if r = 1 then .next (if t.waiting then s else s.resendPkt n t)
      else .next (s.refuseTx n t)
    | none => match n with
      | .ctl => .next (s.bcastAnswered h h.seq (nakStatus r))
      | .agent a => .next (if h.stream = 0xFFFE then s.copyRefused a h.src h.seq r else s)

/-- One packet is asked for again: at most three resends; one that is no longer held is an event at its source (R107, R112). -/
def State.resendOne (s : State) (n : Node) (h : Header) (seq : BitVec 32) : State :=
  match s.sent n (originalDest h) h.stream seq with
  | some t => if t.waiting ∨ t.parked then s else if s.noCount n t ∨ t.resends < 3 then s.resendPkt n t else s
  | none => match n with
    | .agent a => s.raiseAgent a 193 1
    | .ctl => s.raiseAt .ctl 193 18 1 (s.originPort .ctl { h with dest := h.src }) 0

/-- RESEND_REQ (R107, R110). -/
def execResendReq (n : Node) (p : Packet) (s : State) : Answer :=
  if p.crcOk = false then .next s else .next (s.forEach (namedSeqs p.hdr) fun s q => s.resendOne n p.hdr q)

/-! ## READ_RESP and REG_RESP (R96, R99) -/

/-- A READ_RESP that matches an outstanding request completes it (R96). -/
def State.takeReadResp (s : State) (n : Node) (p : Packet) : State × Option Nat :=
  let a := p.hdr.addr.toNat
  match s.sent n p.hdr.src (BitVec.ofNat 16 (bitsAt a 32 16)) (BitVec.ofNat 32 (bitsAt a 0 32)) with
  | some t => if t.pkt.hdr.typ = 0x03 then ((s.emit (.delivered n 0x1FF p)).packetEnd n t 0, none) else (s, none)
  | none => (s, none)

/-- READ_RESP (R96): acknowledged; the first that matches an outstanding request completes it. An endpoint in reset takes none
(R41). -/
def execReadResp (n : Node) (p : Packet) (s : State) : Answer :=
  match n with
  | .ctl => .next (s.accept .ctl p fun s => s.takeReadResp .ctl p)
  | .agent a => .next (s.deliverTo a p fun s => s.takeReadResp (.agent a) p)

/-- REG_RESP (R99): the answer to the controller's REG_READ or REG_WRITE; it is not acknowledged. -/
def execRegResp (p : Packet) (s : State) : Answer :=
  if p.crcOk = false then .next s
  else match s.sent .ctl p.hdr.src p.hdr.stream p.hdr.seq with
    | none => .next s
    | some t =>
      if t.pkt.hdr.typ ≠ 0x29 ∧ t.pkt.hdr.typ ≠ 0x30 then .next s
      else
        let v : Word64 := BitVec.ofNat 64 (leAt p.payload 0 8)
        let st := leAt p.payload 8 1
        let s := if t.pkt.hdr.typ = 0x29 ∧ st = 0 then s.correctMap p.hdr.src (t.pkt.hdr.addr.toNat % 65536) v else s
        .next (s.packetEnd .ctl t st v)

end Sys2Proof.Machine
end

