-- ==== Sys2Proof/Machine/Arith.lean ====
section
/-! DEFINITION. The arithmetic class of Alanik, 0x00 to 0x1F (R186), each instruction over the issue of R182. -/

namespace Sys2Proof.Machine

/-! ## Shared forms -/

/-- g[RD] = f(g[RA], g[RB]). -/
def alu (e : Nat) (f : Word64 → Word64 → Word64) (s : State) (w : Word64) : Effect :=
  .done (s.putG e (wRd w) (f (s.g e (wRa w)) (s.g e (wRb w))))

/-- g[RD] = f(g[RA], sext(IMM)). -/
def aluI (e : Nat) (f : Word64 → Word64 → Word64) (s : State) (w : Word64) : Effect :=
  .done (s.putG e (wRd w) (f (s.g e (wRa w)) (wImm w)))

/-- High half of the unsigned product. -/
def mulHigh (a b : Word64) : Word64 := BitVec.ofNat 64 (a.toNat * b.toNat / 2 ^ 64)

/-- Unsigned quotient; all ones for a divisor of zero. -/
def divU (a b : Word64) : Word64 := if b = 0 then BitVec.allOnes 64 else a / b

/-- Unsigned remainder; the dividend for a divisor of zero. -/
def remU (a b : Word64) : Word64 := if b = 0 then a else a % b

/-- Shift amounts take six bits. -/
def shAmt (b : Word64) : Nat := b.toNat % 64

/-- Bits hi:lo of a register (BFX). -/
def bitRange (a : Word64) (hi lo : Nat) : Word64 := BitVec.ofNat 64 (bitsAt a.toNat lo (hi + 1 - lo))

/-- `a` with bits hi:lo replaced by the low bits of `b` (BFI). -/
def insertRange (a b : Word64) (hi lo : Nat) : Word64 :=
  let m : Word64 := BitVec.ofNat 64 (fm lo (hi + 1 - lo))
  (a &&& ~~~m) ||| ((b <<< lo) &&& m)

/-- Number of ones. -/
def popCount (a : Word64) : Word64 := BitVec.ofNat 64 ((List.range 64).countP fun i => a.getLsbD i)

/-- Leading zeros; 64 of zero. -/
def leadZeros (a : Word64) : Word64 := BitVec.ofNat 64 (((List.range 64).find? fun i => a.getLsbD (63 - i)).getD 64)

/-- CRC-32C over the `n` low bytes of `b`, lowest first, from `a`[31:0]; no initial or final XOR. -/
def crcStep (a b : Word64) (n : Nat) : Word64 := BitVec.ofNat 64 (crcRun (a.toNat % 2 ^ 32) (leBytes n b.toNat))

/-- p[PD] = COND(a, b) under COMB (R181). -/
def compareInto (e : Nat) (s : State) (w : Word64) (cond comb : Nat) (b : Word64) : Effect :=
  .done (s.putP e (wPd w) (combine comb (condHolds cond (s.g e (wRa w)) b) ((s.engine e).pred (wPc w))))

/-! ## Instructions -/

/-- INV: fault 0x01; it also stands for a word of an undefined opcode (R180). -/
def execInv (e : Nat) (s : State) : Answer := .next (s.issue e 0x00 .tenant (fun _ _ => .fault 0x01 0))

/-- NOP. -/
def execNop (e : Nat) (s : State) : Answer := .next (s.issue e 0x01 .tenant (fun s _ => .done s))

/-- ADD, modulo 2^64. -/
def execAdd (e : Nat) (s : State) : Answer := .next (s.issue e 0x02 .tenant (alu e (fun a b => a + b)))

/-- SUB, modulo 2^64. -/
def execSub (e : Nat) (s : State) : Answer := .next (s.issue e 0x03 .tenant (alu e (fun a b => a - b)))

/-- MUL: the low half. -/
def execMul (e : Nat) (s : State) : Answer := .next (s.issue e 0x04 .tenant (alu e (fun a b => a * b)))

/-- MULHU. -/
def execMulhu (e : Nat) (s : State) : Answer := .next (s.issue e 0x05 .tenant (alu e mulHigh))

/-- DIVU. -/
def execDivu (e : Nat) (s : State) : Answer := .next (s.issue e 0x06 .tenant (alu e divU))

/-- REMU. -/
def execRemu (e : Nat) (s : State) : Answer := .next (s.issue e 0x07 .tenant (alu e remU))

/-- AND. -/
def execAnd (e : Nat) (s : State) : Answer := .next (s.issue e 0x08 .tenant (alu e (fun a b => a &&& b)))

/-- OR. -/
def execOr (e : Nat) (s : State) : Answer := .next (s.issue e 0x09 .tenant (alu e (fun a b => a ||| b)))

/-- XOR. -/
def execXor (e : Nat) (s : State) : Answer := .next (s.issue e 0x0A .tenant (alu e (fun a b => a ^^^ b)))

/-- SHL by g[RB][5:0]. -/
def execShl (e : Nat) (s : State) : Answer := .next (s.issue e 0x0B .tenant (alu e (fun a b => a <<< shAmt b)))

/-- SHR: logical right shift. -/
def execShr (e : Nat) (s : State) : Answer := .next (s.issue e 0x0C .tenant (alu e (fun a b => a >>> shAmt b)))

/-- SAR: arithmetic right shift. -/
def execSar (e : Nat) (s : State) : Answer := .next (s.issue e 0x0D .tenant (alu e (fun a b => a.sshiftRight (shAmt b))))

/-- MINU. -/
def execMinu (e : Nat) (s : State) : Answer := .next (s.issue e 0x0E .tenant (alu e (fun a b => if a.ult b then a else b)))

/-- MAXU. -/
def execMaxu (e : Nat) (s : State) : Answer := .next (s.issue e 0x0F .tenant (alu e (fun a b => if a.ult b then b else a)))

/-- ADDI. -/
def execAddi (e : Nat) (s : State) : Answer := .next (s.issue e 0x10 .tenant (aluI e (fun a b => a + b)))

/-- ANDI. -/
def execAndi (e : Nat) (s : State) : Answer := .next (s.issue e 0x11 .tenant (aluI e (fun a b => a &&& b)))

/-- ORI. -/
def execOri (e : Nat) (s : State) : Answer := .next (s.issue e 0x12 .tenant (aluI e (fun a b => a ||| b)))

/-- XORI. -/
def execXori (e : Nat) (s : State) : Answer := .next (s.issue e 0x13 .tenant (aluI e (fun a b => a ^^^ b)))

/-- SHLI by IMM[5:0]. -/
def execShli (e : Nat) (s : State) : Answer := .next (s.issue e 0x14 .tenant (aluI e (fun a b => a <<< shAmt b)))

/-- SHRI by IMM[5:0]. -/
def execShri (e : Nat) (s : State) : Answer := .next (s.issue e 0x15 .tenant (aluI e (fun a b => a >>> shAmt b)))

/-- LI: g[RD] = sext(IMM). -/
def execLi (e : Nat) (s : State) : Answer := .next (s.issue e 0x16 .tenant (aluI e (fun _ b => b)))

/-- LIH: IMM[23:0] over g[RA][39:0]. -/
def execLih (e : Nat) (s : State) : Answer := .next (s.issue e 0x17 .tenant (aluI e (fun a b => (b <<< 40) ||| (a &&& 0xFFFFFFFFFF))))

/-- SEL: g[RD] = p[RC] ? g[RA] : g[RB]. -/
def execSel (e : Nat) (s : State) : Answer := .next (s.issue e 0x18 .tenant (fun s w => .done (s.putG e (wRd w) (if (s.engine e).pred (wRc w) then s.g e (wRa w) else s.g e (wRb w)))))

/-- BFX. -/
def execBfx (e : Nat) (s : State) : Answer := .next (s.issue e 0x19 .tenant (fun s w => .done (s.putG e (wRd w) (bitRange (s.g e (wRa w)) (wHi w) (wLo w)))))

/-- BFI. -/
def execBfi (e : Nat) (s : State) : Answer := .next (s.issue e 0x1A .tenant (fun s w => .done (s.putG e (wRd w) (insertRange (s.g e (wRa w)) (s.g e (wRb w)) (wHi w) (wLo w)))))

/-- POPC. -/
def execPopc (e : Nat) (s : State) : Answer := .next (s.issue e 0x1B .tenant (alu e (fun a _ => popCount a)))

/-- CLZ. -/
def execClz (e : Nat) (s : State) : Answer := .next (s.issue e 0x1C .tenant (alu e (fun a _ => leadZeros a)))

/-- CRC. -/
def execCrc (e : Nat) (s : State) : Answer := .next (s.issue e 0x1D .tenant (fun s w => .done (s.putG e (wRd w) (crcStep (s.g e (wRa w)) (s.g e (wRb w)) (wf w 16 4)))))

/-- CMP. -/
def execCmp (e : Nat) (s : State) : Answer := .next (s.issue e 0x1E .tenant (fun s w => compareInto e s w (wCond w) (wComb w) (s.g e (wRb w))))

/-- CMPI. -/
def execCmpi (e : Nat) (s : State) : Answer := .next (s.issue e 0x1F .tenant (fun s w => compareInto e s w (wCondI w) (wCombI w) (wImmC w)))

end Sys2Proof.Machine
end

