-- ==== Sys2Proof/Machine/Memclass.lean ====
section
/-! DEFINITION. The table and memory class of Alanik, 0x20 to 0x2B (R187). -/

namespace Sys2Proof.Machine

/-! ## Loads, stores and atomics -/

/-- A = g[RA] + sext(OFF); a handle's base is 0. -/
def memAddr (s : State) (e : Nat) (w : Word64) : Nat := (s.g e (wRa w) + wOff w).toNat

/-- The handle of an access: kind, rights and size, then natural alignment (R176, R183). A register block takes 8-byte loads and
stores alone. -/
def withMem (s : State) (e : Nat) (w : Word64) (need : Nat) (regs : Bool) (k : Handle → Nat → Effect) : Effect :=
  s.withHandle e (wHs w) (if regs && szBytes (wSz w) == 8 then 10 :: memKinds else memKinds) need fun h =>
    if memAddr s e w % szBytes (wSz w) ≠ 0 then .fault 0x03 0 else k h (memAddr s e w)

/-- A load: the value goes through `f` into g[RT]. -/
def load (e : Nat) (f : Nat → Nat → Word64) (s : State) (w : Word64) : Effect :=
  withMem s e w rRead true fun h a =>
    s.withBytes e h a (szBytes (wSz w)) fun l => .done (s.putG e (wRd w) (f (szBytes (wSz w)) (szValue (wSz w) l)))

/-- Zero-extension of an `n`-byte value. -/
def zextBytes (_ v : Nat) : Word64 := BitVec.ofNat 64 v

/-- Sign-extension of an `n`-byte value. -/
def sextBytes (n v : Nat) : Word64 := (BitVec.ofNat (8 * n) v).signExtend 64

/-- An atomic: reads the old value, writes what `f` gives, if anything, and leaves the old value in g[RT]. -/
def atomic (e : Nat) (f : State → Word64 → Nat → Option Nat) (s : State) (w : Word64) : Effect :=
  withMem s e w (rRead + rWrite) false fun h a =>
    if s.setLocked h ∨ h.readOnly then .fault 0x04 0
    else s.withBytes e h a (szBytes (wSz w)) fun l =>
      let old := szValue (wSz w) l
      match f s w old with
      | none => .done (s.putG e (wRd w) (BitVec.ofNat 64 old))
      | some v => s.withStore e h a (szStore (wSz w) v) fun t => .done (t.putG e (wRd w) (BitVec.ofNat 64 old))

/-- The registers of a line, little-endian (R187). -/
def lineRegs (l : List Byte) : List Word64 := (List.range 8).map fun i => BitVec.ofNat 64 (leAt l (8 * i) 8)

/-- The bytes of eight registers from `r` on. -/
def State.regLine (s : State) (e r : Nat) : List Byte := (List.range 8).flatMap fun i => leBytes 8 (s.g e (r + i)).toNat

/-- The same where the registers go beyond g63: a free value for each that does not exist. -/
def State.freeLine (s : State) (e r : Nat) : List Byte :=
  (List.range 8).flatMap fun i => if r + i < 64 then leBytes 8 (s.g e (r + i)).toNat else leBytes 8 (Config.free (s.fresh + i)).toNat

/-- LD. -/
def execLd (e : Nat) (s : State) : Answer := .next (s.issue e 0x20 .tenant (load e zextBytes))

/-- LDS. -/
def execLds (e : Nat) (s : State) : Answer := .next (s.issue e 0x21 .tenant (load e sextBytes))

/-- ST. -/
def execSt (e : Nat) (s : State) : Answer := .next (s.issue e 0x22 .tenant fun s w =>
  withMem s e w rWrite true fun h a => s.withStore e h a (szStore (wSz w) (s.g e (wRd w)).toNat) .done)

/-- LDL. -/
def execLdl (e : Nat) (s : State) : Answer := .next (s.issue e 0x23 .tenant fun s w =>
  withMem s e w rRead false fun h a => s.withBytes e h a 64 fun l => .done (s.putGs e (wRd w) (lineRegs l)))

/-- STL: one atomic line (R20). Registers beyond g63, which RT above 56 would name, are free values (log entry 111). -/
def execStl (e : Nat) (s : State) : Answer := .next (s.issue e 0x24 .tenant fun s w =>
  withMem s e w rWrite false fun h a =>
    if 56 < wRd w then s.withStore e h a (s.freeLine e (wRd w)) fun t => .done { t with fresh := t.fresh + 8 }
    else s.withStore e h a (s.regLine e (wRd w)) .done)

/-- CAS: the old value is compared with the low bytes of g[RT], of the access's size. -/
def execCas (e : Nat) (s : State) : Answer := .next (s.issue e 0x25 .tenant (atomic e fun s w old =>
  if old = (s.g e (wRd w)).toNat % 2 ^ (8 * szBytes (wSz w)) then some (s.g e (wRd w + 1)).toNat else none))

/-- FADD. -/
def execFadd (e : Nat) (s : State) : Answer := .next (s.issue e 0x26 .tenant (atomic e fun s w old =>
  some (old + (s.g e (wRd w)).toNat)))

/-! ## Copies and seals -/

/-- MCOPY: offsets and length multiples of 64, at most 1 MiB. -/
def execMcopy (e : Nat) (s : State) : Answer := .next (s.issue e 0x27 .tenant fun s w =>
  let a := (s.g e (wRa w)).toNat
  let d := (s.g e (wRd w)).toNat
  let n := (s.g e (wRb w)).toNat
  s.withHandle e (wHa w) memKinds rRead fun hs => s.withHandle e (wHd w) memKinds rWrite fun hd =>
    if a % 64 ≠ 0 ∨ d % 64 ≠ 0 ∨ n % 64 ≠ 0 then .fault 0x03 0
    else if 1048576 < n then .fault 0x02 0
    else s.withBytes e hs a n fun l => s.withStore e hd d l .done)

/-- SEAL: CRC-32C over the range, where it holds the 4 bytes at IMM with them taken as zero; stored there and in g[RD] (R104). -/
def execSeal (e : Nat) (s : State) : Answer := .next (s.issue e 0x29 .tenant fun s w =>
  let a := (s.g e (wRa w)).toNat
  let n := (s.g e (wRb w)).toNat
  let f := wImmH w
  s.withHandle e (wHa w) memKinds (rRead + rWrite) fun h =>
    s.withBytes e h a n fun l =>
      let c := crc32c ((splice l f (zeros 4)).take n)
      s.withStore e h (a + f) (leBytes 4 c) fun t => .done (t.putG e (wRd w) (BitVec.ofNat 64 c)))

/-! ## Routes, installs and gambits -/

/-- The words TLOOK leaves of a route entry: the control word, then the hops in pairs (R147). -/
def routeRegs (r : BitVec 512) : List Word64 := (List.range 5).map fun k => BitVec.ofNat 64 (r.toNat / 2 ^ (448 - 64 * k))

/-- TLOOK: a route entry of the table a handle names, of the active or the shadow bank (R147, R187). -/
def execTlook (e : Nat) (s : State) : Answer := .next (s.issue e 0x28 .operator fun s w =>
  s.withHandle e (wHa w) [3] rRead fun h =>
    if h.obj < 6 then .fault 0x04 0
    else
      let bank := if wMod3 w then s.rte.shadow.getD h.obj {} else s.rte.copy.getD h.obj {}
      .done (s.putGs e (wRd w) (routeRegs (bank.routes.getD ((s.g e (wRa w)).toNat % 65536) 0))))

/-- TINST: the install set is locked until its tag completes (R155, R187); one that breaks R154 completes with 0xF6 (R229). -/
def execTinst (e : Nat) (s : State) : Answer := .next (s.issue e 0x2A .operator fun s w =>
  s.withHandle e (wHa w) [9] rInstall fun h =>
    if s.setLocked h then .fault 0x04 0
    else s.async e (wRd w) { kind := .install, handles := [wHa w] } fun t n =>
      match t.parseSet (t.spaceBytes e h 0 h.size) with
      | none => t.completeTag e n 0xF6 0
      | some sets =>
        let t : State := match t.sets.get h.obj with
          | some x => { t with sets := t.sets.set h.obj { x with locked := true } }
          | none => t
        t.submitInstall sets (.tag e n h.obj))

/-- The gambit record TSTAGE names: its bytes, or a fault. Its length stands in bytes 24 to 27 (R157). -/
def withRecord (s : State) (e : Nat) (h : Handle) (a : Nat) (k : List Byte → Effect) : Effect :=
  s.withBytes e h a 64 fun l => s.withBytes e h a (max 64 (leAt l 24 4)) k

/-- TSTAGE: stages a gambit record; one that breaks R157 or R158 completes with 0xF6, one whose sections do not fit their slots
likewise (R157 to R160). -/
def execTstage (e : Nat) (s : State) : Answer := .next (s.issue e 0x2B .operator fun s w =>
  s.withHandle e (wHa w) memKinds (rRead + rInstall) fun h => withRecord s e h (s.g e (wRa w)).toNat fun l =>
    s.async e (wRd w) { kind := .stage, handles := [wHa w] } fun t n =>
      let r := recordOf l
      if recordOk l ∧ t.sectionsFit r.1 r.2.1 then t.takeGambit (t.stagedRecord l) r.2.1 r.2.2 (some (e, n))
      else t.completeTag e n 0xF6 0)

end Sys2Proof.Machine
end

