-- ==== Sys2Proof/Machine/Classes.lean ====
section
/-! DEFINITION. The collective, placement, crypto-handle and control classes of Alanik (R190 to R193). -/

namespace Sys2Proof.Machine

/-! ## Collective class, 0x40 to 0x44 (R190) -/

/-- GLAUNCH: the operation whose descriptor lies in a space, on a group. -/
def execGlaunch (e : Nat) (s : State) : Answer := .next (s.issue e 0x40 .tenant fun s w =>
  s.withHandle e (wHa w) memKinds rRead fun ha => s.withHandle e (wHb w) [8] rEmit fun hb =>
    s.withBytes e ha (s.g e (wRa w)).toNat 64 fun d =>
      s.async e (wRd w) { kind := .collective hb.obj (dOpSeq d), handles := [wHa w, wHb w] } fun t n =>
        if (t.group hb.obj).isSome then t.glaunch hb.obj d else t.completeTag e n 0xF2 0)

/-- GRESV: blocks until the reservation of a library group is granted (R278, R281). -/
def execGresv (e : Nat) (s : State) : Answer := .next (s.issue e 0x41 .tenant fun s w =>
  s.withHandle e (wHb w) [8] rEmit fun h =>
    match s.gresv e h.obj with
    | (t, some st) => .done ((t.putG e (wRd w) (BitVec.ofNat 64 st)).putP e (wSp w) (st == 0))
    | (t, none) => .block t (.gresv h.obj (wRd w) (wSp w)))

/-- GREL. -/
def execGrel (e : Nat) (s : State) : Answer := .next (s.issue e 0x42 .tenant fun s w =>
  s.withHandle e (wHb w) [8] rEmit fun h => .done (s.grel h.obj))

/-- GCANCEL: the tag completes 0xF3; 0xF4 when it is no outstanding collective tag. -/
def execGcancel (e : Nat) (s : State) : Answer := .next (s.issue e 0x43 .tenant fun s w =>
  let t := (s.g e (wRa w)).toNat
  match (s.engine e).tags.get t with
  | some { kind := .collective group op, ready := none, .. } =>
    .done ((((s.gcancel group op).dropLaunchCopies group op).completeTag e t 0xF3 0).putG e (wRd w) 0)
  | _ => .done (s.putG e (wRd w) 0xF4))

/-- IMGRUN: queued behind earlier runs of the image (R224). -/
def execImgrun (e : Nat) (s : State) : Answer := .next (s.issue e 0x44 .tenant fun s w =>
  let a := (s.g e (wRa w)).toNat
  let n := (s.g e (wRb w)).toNat
  s.withHandle e (wHa w) [7] 0 fun hi => s.withHandle e (wHb w) memKinds rRead fun hb =>
    s.withHandle e (wHd w) memKinds rWrite fun hd => s.withBytes e hb a n fun _ =>
      s.async e (wRd w) { kind := .imgrun hi.obj (wImmH w) hb a n hd, handles := [wHa w, wHb w, wHd w] } fun t k =>
        match t.sq.images.get hi.obj with
        | some i =>
          if i.entries ≤ wImmH w then t.completeTag e k 0xF2 0
          else { t with sq := { t.sq with images := t.sq.images.set hi.obj { i with runs := i.runs ++ [(e, k)] } } }
        | none => t.completeTag e k 0xF2 0)

/-! ## Placement class, 0x60 to 0x65 (R191) -/

/-- The expert of a table. -/
def State.expertOf (s : State) (part layer expert : Nat) : Option Expert :=
  s.plc.experts.find? fun x => x.partition.toNat == part && x.layer == layer && x.expert == expert

/-- The master entry of an expert as eight words: replica words in pairs, with the whole capacity as SHARE (R296). -/
def expertRegs (x : Option Expert) : List Word64 :=
  let words := match x with
    | some x => x.replicas.map fun (r : Replica) => mkReplica r.tier r.endpoint r.cap
    | none => []
  (List.range 8).map fun k => BitVec.ofNat 64 (words.getD (2 * k) 0 * 2 ^ 32 + words.getD (2 * k + 1) 0)

/-- PLOOK. -/
def execPlook (e : Nat) (s : State) : Answer := .next (s.issue e 0x60 .tenant fun s w =>
  s.withHandle e (wHa w) [11] rRead fun h =>
    .done (s.putGs e (wRd w) (expertRegs (s.expertOf h.obj ((s.g e (wRa w)).toNat % 65536) ((s.g e (wRb w)).toNat % 4096)))))

/-- PLOAD: tokens of the last window; at tenant level rounded down to a multiple of 4,096 (R343). -/
def execPload (e : Nat) (s : State) : Answer := .next (s.issue e 0x61 .tenant fun s w =>
  s.withHandle e (wHa w) [11] rRead fun h =>
    let x := s.expertOf h.obj ((s.g e (wRa w)).toNat % 65536) ((s.g e (wRb w)).toNat % 4096)
    let n := (x.map (·.lastWindow)).getD 0
    .done (s.putG e (wRd w) (BitVec.ofNat 64 (if (s.engine e).level = .tenant then n / 4096 * 4096 else n))))

/-- The directory entry of a sequence's page: its number and its contents. -/
def State.findPage (s : State) (seqId page : Nat) : Option (Nat × Page) :=
  s.plc.pages.find? fun x => x.2.seqId.toNat == seqId && x.2.page == page

/-- KVLOOK: an absent entry, and at tenant level one of another partition, reads as zero with status 0 (R191, log entry 53). -/
def execKvlook (e : Nat) (s : State) : Answer := .next (s.issue e 0x62 .tenant fun s w =>
  let x := s.engine e
  let seen : Option Page := match s.findPage (s.g e (wRa w)).toNat (s.g e (wRb w)).toNat with
    | some (_, p) => if x.level = .tenant ∧ p.partition ≠ x.partition then none else some p
    | none => none
  match seen with
  | some p => .done ((s.putGs e (wRd w) (p.words.map (BitVec.ofNat 64))).putP e (wSp w) true)
  | none => .done ((s.putGs e (wRd w) (List.replicate 8 0)).putP e (wSp w) false))

/-- The directory line of a sequence's page: the entry that holds it, or its place in the sequence's extents (R314). -/
def State.pageLine (s : State) (seqId page : Nat) : Option Nat :=
  match s.findPage seqId page with
  | some (i, _) => some i
  | none => (s.plc.seqs.find? fun q => q.seqId.toNat == seqId).bind fun q => seqEntry q page

/-- KVPUT: eight registers as that entry, one atomic line; a page outside every sequence has no line, and nothing is written. -/
def execKvput (e : Nat) (s : State) : Answer := .next (s.issue e 0x63 .operator fun s w =>
  match s.pageLine (s.g e (wRa w)).toNat (s.g e (wRb w)).toNat with
  | some i => .done (s.setDirLine i (s.regLine e (wRd w)))
  | none => .done s)

/-- KVMOVE: to the ENDPOINT and SLOT in the layout of word 2 of a directory entry at offset 0 of h[HA] (R191, R315, log entry 54);
only a resident or spilled page moves. -/
def execKvmove (e : Nat) (s : State) : Answer := .next (s.issue e 0x64 .operator fun s w =>
  s.withHandle e (wHa w) memKinds rRead fun h => s.withBytes e h 0 8 fun l =>
    match s.findPage (s.g e (wRa w)).toNat (s.g e (wRb w)).toNat with
    | none => s.async e (wRd w) { kind := .kvmove 0, handles := [wHa w] } fun t n => t.completeTag e n 0xF2 0
    | some (i, p) => s.async e (wRd w) { kind := .kvmove i, handles := [wHa w] } fun t n =>
      if p.state = 1 ∨ p.state = 3 then t.startMove i (leAt l 6 2) (leAt l 0 4) (some (e, n)) else t.completeTag e n 0xF2 0)

/-- FOOT: the shortfall report of the descriptor in h[HA], as `fp` decodes it (log entry 8), into h[HD]. -/
def execFoot (e : Nat) (fp : Footprint) (s : State) : Answer := .next (s.issue e 0x65 .tenant fun s w =>
  s.withHandle e (wHa w) memKinds rRead fun _ => s.withHandle e (wHd w) memKinds rWrite fun hd =>
    let p := (s.engine e).partition.toNat
    let items := s.footItems p fp
    s.withStore e hd 0 (s.footReport p fp items) fun t => .done (t.putP e (wSp w) items.isEmpty))

/-! ## Crypto-handle class, 0x70 to 0x7A (R192) -/

/-- HOPEN (R176, R177, R192). -/
def execHopen (e : Nat) (s : State) : Answer := .next (s.issue e 0x70 .tenant fun s w =>
  let x := s.engine e
  match s.openHandle x.level x.partition.toNat (wImmH w % 16) (s.g e (wRa w)).toNat (wImmH w / 16) with
  | .handle h => .done ((s.putH e (wHd w) (some h)).putP e (wSp w) true)
  | .denied => .suppress
  | .absent => .done ((s.putH e (wHd w) none).putP e (wSp w) false))

/-- HCLOSE: waits while tags that use the handle are outstanding; h0 cannot be closed (R175, R197). -/
def execHclose (e : Nat) (s : State) : Answer := .next (s.issue e 0x71 .tenant fun s w =>
  let x := s.engine e
  if wHa w = 0 ∨ (x.handle (wHa w)).isNone then .fault 0x04 0
  else if x.handleBusy (wHa w) then .stay
  else .done (s.putH e (wHa w) none))

/-- HDUP: rights only narrow (R177); h0 cannot be written. -/
def execHdup (e : Nat) (s : State) : Answer := .next (s.issue e 0x72 .tenant fun s w =>
  match (s.engine e).handle (wHa w) with
  | none => .fault 0x04 0
  | some h =>
    if wHd w = 0 then .fault 0x04 0
    else .done (s.putH e (wHd w) (some { h with rights := h.rights &&& (wImmH w / 16) })))

/-- HINFO. -/
def execHinfo (e : Nat) (s : State) : Answer := .next (s.issue e 0x73 .tenant fun s w =>
  match (s.engine e).handle (wHa w) with
  | none => .fault 0x04 0
  | some h => .done (s.putGs e (wRd w)
      [BitVec.ofNat 64 (h.kind * 2 ^ 60 + h.rights % 16 * 2 ^ 56 + levelRank h.level * 2 ^ 54 + h.partition.toNat * 2 ^ 42),
       BitVec.ofNat 64 h.size]))

/-- KGEN: a full key store or partition leaves h[HD] closed (R331), as does a type that is none of R192's; h0 cannot be
written. -/
def execKgen (e : Nat) (s : State) : Answer := .next (s.issue e 0x74 .tenant fun s w =>
  let x := s.engine e
  if wHd w = 0 then .fault 0x04 0
  else if 2 < wImmH w then .done (s.putH e (wHd w) none)
  else match s.makeKey (wImmH w) x.partition x.level with
    | (t, some k) =>
      let h : Handle := { kind := 6, obj := k, rights := 15, level := x.level, partition := x.partition, size := Config.objectSize 6 k }
      .done (t.putH e (wHd w) (some h))
    | (t, none) => .done (t.putH e (wHd w) none))

/-- A key a handle names still lives. -/
def State.withKey (s : State) (e i : Nat) (k : Handle → Effect) : Effect :=
  s.withHandle e i [6] 0 fun h => if (s.sec.keys.get h.obj).isSome then k h else .fault 0x04 0

/-- KWRAP: the 80-byte blob of R334. -/
def execKwrap (e : Nat) (s : State) : Answer := .next (s.issue e 0x75 .tenant fun s w =>
  s.withKey e (wHa w) fun ha => s.withKey e (wHb w) fun hb => s.withHandle e (wHd w) memKinds rWrite fun hd =>
    let r := s.wrapKey ha.obj hb.obj
    r.1.withStore e hd (s.g e (wRa w)).toNat r.2 fun t => .done (t.putG e (wRd w) 80))

/-- KINST: targets 0 and 1 need operator level, a tenant may install its own partition's keys (R192, R335); the tag completes as
RT0 answers. -/
def execKinst (e : Nat) (s : State) : Answer := .next (s.issue e 0x76 .tenant fun s w =>
  let x := s.engine e
  if x.level = .tenant ∧ wModHi w ≠ 2 then .suppress
  else s.withKey e (wHa w) fun h => s.async e (wRd w) { kind := .kinst, handles := [wHa w] } fun t n =>
    let r := t.kinst h.obj (wModHi w) (x.reg (wRa w)).toNat (x.reg (wRb w)).toNat (x.reg (wRb w + 1)).toNat
    r.1.completeTag e n (if r.2 then 0 else 0xF2) 0)

/-- KZERO: the key goes in RT0 and at every target, and the handle closes; waits as HCLOSE does (R192, R197). -/
def execKzero (e : Nat) (s : State) : Answer := .next (s.issue e 0x77 .tenant fun s w =>
  s.withKey e (wHa w) fun h =>
    if (s.engine e).handleBusy (wHa w) then .stay else .done ((s.zeroKey h.obj).putH e (wHa w) none))

/-- MEXT: extends a measurement register with the digest of a range; there are eight (R352). -/
def execMext (e : Nat) (s : State) : Answer := .next (s.issue e 0x78 .vendor fun s w =>
  s.withHandle e (wHa w) memKinds rRead fun h => s.withBytes e h 0 (s.g e (wRb w)).toNat fun l =>
    let i := (s.g e (wRa w)).toNat
    .done (if i < 8 then s.extendMeas i (sha384 l) else s))

/-- ZFILL: the region is zeroed and read back; the result is the bytes verified zero. -/
def execZfill (e : Nat) (s : State) : Answer := .next (s.issue e 0x79 .vendor fun s w =>
  s.withHandle e (wHa w) memKinds rWrite fun h =>
    if s.setLocked h ∨ h.readOnly then .fault 0x04 0
    else s.async e (wRd w) { kind := .zfill, handles := [wHa w] } fun t n =>
      (t.zeroSpace e h).completeTag e n 0 (BitVec.ofNat 64 h.size))

/-- LCADV: RT0 refuses a state not later than the current one, or while a partition is ACTIVE or ENDING (R192, R349); else it
waits while a scrub runs (R358), and with fewer than three arbiters in the vote it is refused (R400). -/
def execLcadv (e : Nat) (s : State) : Answer := .next (s.issue e 0x7A .vendor fun s w =>
  let st := (s.g e (wRa w)).toNat
  if s.voters < 3 then .done (s.putP e (wSp w) false)
  else if 0 < s.scrubsActive ∧ s.sec.lifeCycle < st ∧ s.sec.parts.all (fun p => p.2.state == 0) then .stay
  else
    let r := s.advance st
    .done (r.1.putP e (wSp w) r.2))

/-! ## Control class, 0x80 to 0x87 (R193) -/

/-- PC + sext(OFF). -/
def State.target (s : State) (e : Nat) (w : Word64) : Nat := (BitVec.ofNat 64 (s.engine e).pc + wImm w).toNat

/-- BR. -/
def execBr (e : Nat) (s : State) : Answer := .next (s.issue e 0x80 .tenant fun s w => .goto s (s.target e w))

/-- CALL. -/
def execCall (e : Nat) (s : State) : Answer := .next (s.issue e 0x81 .tenant fun s w =>
  .goto (s.putG e (wRd w) (BitVec.ofNat 64 ((s.engine e).pc + 1))) (s.target e w))

/-- RET. -/
def execRet (e : Nat) (s : State) : Answer := .next (s.issue e 0x82 .tenant fun s w => .goto s (s.g e (wRa w)).toNat)

/-- LOOP: the count goes down to 0 and no further; taken while it is not 0. -/
def execLoop (e : Nat) (s : State) : Answer := .next (s.issue e 0x83 .tenant fun s w =>
  let v := if s.g e (wRa w) = 0 then 0 else s.g e (wRa w) - 1
  let t := s.putG e (wRa w) v
  if v = 0 then .done t else .goto t (s.target e w))

/-- PLOG: a truth table of two predicates. -/
def execPlog (e : Nat) (s : State) : Answer := .next (s.issue e 0x84 .tenant fun s w =>
  let x := s.engine e
  let c := truthTable (wCond w) (x.pred (wRa w)) (x.pred (wRb w))
  .done (s.putP e (wPd w) (combine (wComb w) c (x.pred (wPc w)))))

/-- HALT: the program ends with status g[RA] (R193, R213). -/
def execHalt (e : Nat) (s : State) : Answer := .next (s.issue e 0x85 .tenant fun s w =>
  .ended (s.endProgram e 0 0 (s.g e (wRa w)) 0))

/-- TRAP: fault 0x07 with g[RA] in the record. -/
def execTrap (e : Nat) (s : State) : Answer := .next (s.issue e 0x86 .tenant fun s w => .fault 0x07 (s.g e (wRa w)))

/-- FENCE: an engine stays at an emission or shared write until its gate has served it (R195), so none is outstanding here. -/
def execFence (e : Nat) (s : State) : Answer := .next (s.issue e 0x87 .tenant fun s _ => .done s)

end Sys2Proof.Machine
end

