-- ==== Sys2Proof/Machine/Dispatch.lean ====
section
/-! DEFINITION. One arm for each command: a direct call of its meaning. -/

namespace Sys2Proof.Machine

def exec (i : Instr) (s : State) : Host.Outcome State Fault Refusal :=
  match i with
  | .registerWrite lvl size addr v => Sys2Proof.Machine.execRegisterWrite lvl size addr v s
  | .nocItemArrive src dst seq data => Sys2Proof.Machine.execNocItemArrive src dst seq data s
  | .nocItemAck src dst seq => Sys2Proof.Machine.execNocItemAck src dst seq s
  | .nocRouterFail cf => Sys2Proof.Machine.execNocRouterFail cf s
  | .slotTick => Sys2Proof.Machine.execSlotTick s
  | .timeBaseSwitchover => Sys2Proof.Machine.execTimeBaseSwitchover s
  | .supplyOutOfRange source => Sys2Proof.Machine.execSupplyOutOfRange source s
  | .brownOut rail => Sys2Proof.Machine.execBrownOut rail s
  | .brownOutRecovery => Sys2Proof.Machine.execBrownOutRecovery s
  | .tempHigh source celsius => Sys2Proof.Machine.execTempHigh source celsius s
  | .thermalTrip source celsius => Sys2Proof.Machine.execThermalTrip source celsius s
  | .quarterRampDone => Sys2Proof.Machine.execQuarterRampDone s
  | .quarterIdleTimeout quarter => Sys2Proof.Machine.execQuarterIdleTimeout quarter s
  | .dieLost block => Sys2Proof.Machine.execDieLost block s
  | .crstAssert a => Sys2Proof.Machine.execCrstAssert a s
  | .computeReset a p => Sys2Proof.Machine.execComputeReset a p s
  | .computeResetEnd a => Sys2Proof.Machine.execComputeResetEnd a s
  | .crstDeassert a => Sys2Proof.Machine.execCrstDeassert a s
  | .rejoinStart a failedStep => Sys2Proof.Machine.execRejoinStart a failedStep s
  | .rejoinDone a p => Sys2Proof.Machine.execRejoinDone a p s
  | .linkReset a p => Sys2Proof.Machine.execLinkReset a p s
  | .lrstAssert a => Sys2Proof.Machine.execLrstAssert a s
  | .jxFltForce a p => Sys2Proof.Machine.execJxFltForce a p s
  | .epochBoundary => Sys2Proof.Machine.execEpochBoundary s
  | .shadowCopyDone a => Sys2Proof.Machine.execShadowCopyDone a s
  | .install a p => Sys2Proof.Machine.execInstall a p s
  | .commit a p => Sys2Proof.Machine.execCommit a p s
  | .stageWrite a p => Sys2Proof.Machine.execStageWrite a p s
  | .stageInvalidate a p => Sys2Proof.Machine.execStageInvalidate a p s
  | .stageRebase a p => Sys2Proof.Machine.execStageRebase a p s
  | .stagedSlotEccError a slot => Sys2Proof.Machine.execStagedSlotEccError a slot s
  | .play a p => Sys2Proof.Machine.execPlay a p s
  | .playApplyDone a => Sys2Proof.Machine.execPlayApplyDone a s
  | .reserveWrite a p => Sys2Proof.Machine.execReserveWrite a p s
  | .reserveFree a p => Sys2Proof.Machine.execReserveFree a p s
  | .gqDoorbell a q part tail => Sys2Proof.Machine.execGqDoorbell a q part tail s
  | .sampleFlushTimer a => Sys2Proof.Machine.execSampleFlushTimer a s
  | .beaconTimer => Sys2Proof.Machine.execBeaconTimer s
  | .beacon a port p => Sys2Proof.Machine.execBeacon a port p s
  | .statusReportTimer a => Sys2Proof.Machine.execStatusReportTimer a s
  | .orphanTimeout a => Sys2Proof.Machine.execOrphanTimeout a s
  | .holdoverExceeded a => Sys2Proof.Machine.execHoldoverExceeded a s
  | .claim a port p chainOk sigOk deviceMatch => Sys2Proof.Machine.execClaim a port p chainOk sigOk deviceMatch s
  | .eventsSendTimer a => Sys2Proof.Machine.execEventsSendTimer a s
  | .linkDown n port cause => Sys2Proof.Machine.execLinkDown n port cause s
  | .frameReceive n port f => Sys2Proof.Machine.execFrameReceive n port f s
  | .creditFrame n port f => Sys2Proof.Machine.execCreditFrame n port f s
  | .creditFrameTimer n port => Sys2Proof.Machine.execCreditFrameTimer n port s
  | .rekeyThreshold n port => Sys2Proof.Machine.execRekeyThreshold n port s
  | .rekeyOverrun n port => Sys2Proof.Machine.execRekeyOverrun n port s
  | .packetPost a p => Sys2Proof.Machine.execPacketPost a p s
  | .expressHeadSlot a port slot => Sys2Proof.Machine.execExpressHeadSlot a port slot s
  | .retryTimeout n dest stream seq => Sys2Proof.Machine.execRetryTimeout n dest stream seq s
  | .ack n p => Sys2Proof.Machine.execAck n p s
  | .nak n p => Sys2Proof.Machine.execNak n p s
  | .resendReq n p => Sys2Proof.Machine.execResendReq n p s
  | .precedentTimer a src stream seq => Sys2Proof.Machine.execPrecedentTimer a src stream seq s
  | .write n p => Sys2Proof.Machine.execWrite n p s
  | .readReq n p tagOk => Sys2Proof.Machine.execReadReq n p tagOk s
  | .readResp n p => Sys2Proof.Machine.execReadResp n p s
  | .sendPacket n p => Sys2Proof.Machine.execSendPacket n p s
  | .rxRingHeadWrite a v => Sys2Proof.Machine.execRxRingHeadWrite a v s
  | .streamsReset a p => Sys2Proof.Machine.execStreamsReset a p s
  | .streamsResetTimeout dest => Sys2Proof.Machine.execStreamsResetTimeout dest s
  | .discoverReq a port p => Sys2Proof.Machine.execDiscoverReq a port p s
  | .discoverResp port r => Sys2Proof.Machine.execDiscoverResp port r s
  | .katOrder a p failed => Sys2Proof.Machine.execKatOrder a p failed s
  | .katResult p => Sys2Proof.Machine.execKatResult p s
  | .statusReport p => Sys2Proof.Machine.execStatusReport p s
  | .windowReport p => Sys2Proof.Machine.execWindowReport p s
  | .idleReport p => Sys2Proof.Machine.execIdleReport p s
  | .regRead a p lvl => Sys2Proof.Machine.execRegRead a p lvl s
  | .regWrite a p => Sys2Proof.Machine.execRegWrite a p s
  | .regResp p => Sys2Proof.Machine.execRegResp p s
  | .events p => Sys2Proof.Machine.execEvents p s
  | .samples p => Sys2Proof.Machine.execSamples p s
  | .rekeyReq p => Sys2Proof.Machine.execRekeyReq p s
  | .sleep n port p => Sys2Proof.Machine.execSleep n port p s
  | .portIdleTimeout n port => Sys2Proof.Machine.execPortIdleTimeout n port s
  | .wakeRequest port cls => Sys2Proof.Machine.execWakeRequest port cls s
  | .wakeGrant group => Sys2Proof.Machine.execWakeGrant group s
  | .wakeComplete port => Sys2Proof.Machine.execWakeComplete port s
  | .eIdleRequest a => Sys2Proof.Machine.execEIdleRequest a s
  | .eDeepRequest a => Sys2Proof.Machine.execEDeepRequest a s
  | .eWake a => Sys2Proof.Machine.execEWake a s
  | .epochCfgWrite lvl v => Sys2Proof.Machine.execEpochCfgWrite lvl v s
  | .syncArm lvl v => Sys2Proof.Machine.execSyncArm lvl v s
  | .syncRearmTimer => Sys2Proof.Machine.execSyncRearmTimer s
  | .syncInEdge falling ns => Sys2Proof.Machine.execSyncInEdge falling ns s
  | .ppsInEdge ns => Sys2Proof.Machine.execPpsInEdge ns s
  | .ptpFrame f => Sys2Proof.Machine.execPtpFrame f s
  | .arpRequest isArp ip => Sys2Proof.Machine.execArpRequest isArp ip s
  | .retrainComplete n port lanes => Sys2Proof.Machine.execRetrainComplete n port lanes s
  | .portRetrain lvl v => Sys2Proof.Machine.execPortRetrain lvl v s
  | .rekey lvl v => Sys2Proof.Machine.execRekey lvl v s
  | .commitDeadline => Sys2Proof.Machine.execCommitDeadline s
  | .drainQuiet d => Sys2Proof.Machine.execDrainQuiet d s
  | .drainTimeout d => Sys2Proof.Machine.execDrainTimeout d s
  | .classificationClose => Sys2Proof.Machine.execClassificationClose s
  | .playResendTimer => Sys2Proof.Machine.execPlayResendTimer s
  | .autoPlayWrite lvl v => Sys2Proof.Machine.execAutoPlayWrite lvl v s
  | .attemptResumeTimer a => Sys2Proof.Machine.execAttemptResumeTimer a s
  | .inv e => Sys2Proof.Machine.execInv e s
  | .nop e => Sys2Proof.Machine.execNop e s
  | .add e => Sys2Proof.Machine.execAdd e s
  | .sub e => Sys2Proof.Machine.execSub e s
  | .mul e => Sys2Proof.Machine.execMul e s
  | .mulhu e => Sys2Proof.Machine.execMulhu e s
  | .divu e => Sys2Proof.Machine.execDivu e s
  | .remu e => Sys2Proof.Machine.execRemu e s
  | .and e => Sys2Proof.Machine.execAnd e s
  | .or e => Sys2Proof.Machine.execOr e s
  | .xor e => Sys2Proof.Machine.execXor e s
  | .shl e => Sys2Proof.Machine.execShl e s
  | .shr e => Sys2Proof.Machine.execShr e s
  | .sar e => Sys2Proof.Machine.execSar e s
  | .minu e => Sys2Proof.Machine.execMinu e s
  | .maxu e => Sys2Proof.Machine.execMaxu e s
  | .addi e => Sys2Proof.Machine.execAddi e s
  | .andi e => Sys2Proof.Machine.execAndi e s
  | .ori e => Sys2Proof.Machine.execOri e s
  | .xori e => Sys2Proof.Machine.execXori e s
  | .shli e => Sys2Proof.Machine.execShli e s
  | .shri e => Sys2Proof.Machine.execShri e s
  | .li e => Sys2Proof.Machine.execLi e s
  | .lih e => Sys2Proof.Machine.execLih e s
  | .sel e => Sys2Proof.Machine.execSel e s
  | .bfx e => Sys2Proof.Machine.execBfx e s
  | .bfi e => Sys2Proof.Machine.execBfi e s
  | .popc e => Sys2Proof.Machine.execPopc e s
  | .clz e => Sys2Proof.Machine.execClz e s
  | .crc e => Sys2Proof.Machine.execCrc e s
  | .cmp e => Sys2Proof.Machine.execCmp e s
  | .cmpi e => Sys2Proof.Machine.execCmpi e s
  | .ld e => Sys2Proof.Machine.execLd e s
  | .lds e => Sys2Proof.Machine.execLds e s
  | .st e => Sys2Proof.Machine.execSt e s
  | .ldl e => Sys2Proof.Machine.execLdl e s
  | .stl e => Sys2Proof.Machine.execStl e s
  | .cas e => Sys2Proof.Machine.execCas e s
  | .fadd e => Sys2Proof.Machine.execFadd e s
  | .mcopy e => Sys2Proof.Machine.execMcopy e s
  | .tlook e => Sys2Proof.Machine.execTlook e s
  | .seal e => Sys2Proof.Machine.execSeal e s
  | .tinst e => Sys2Proof.Machine.execTinst e s
  | .tstage e => Sys2Proof.Machine.execTstage e s
  | .send e => Sys2Proof.Machine.execSend e s
  | .wait e => Sys2Proof.Machine.execWait e s
  | .tagComplete e tag status result => Sys2Proof.Machine.execTagComplete e tag status result s
  | .recv e => Sys2Proof.Machine.execRecv e s
  | .rread e => Sys2Proof.Machine.execRread e s
  | .rwrite e => Sys2Proof.Machine.execRwrite e s
  | .evwait e => Sys2Proof.Machine.execEvwait e s
  | .evwaitDeadline e => Sys2Proof.Machine.execEvwaitDeadline e s
  | .evsub e => Sys2Proof.Machine.execEvsub e s
  | .evpost e => Sys2Proof.Machine.execEvpost e s
  | .time e => Sys2Proof.Machine.execTime e s
  | .epoch e => Sys2Proof.Machine.execEpoch e s
  | .glaunch e => Sys2Proof.Machine.execGlaunch e s
  | .gresv e => Sys2Proof.Machine.execGresv e s
  | .grel e => Sys2Proof.Machine.execGrel e s
  | .gcancel e => Sys2Proof.Machine.execGcancel e s
  | .imgrun e => Sys2Proof.Machine.execImgrun e s
  | .plook e => Sys2Proof.Machine.execPlook e s
  | .pload e => Sys2Proof.Machine.execPload e s
  | .kvlook e => Sys2Proof.Machine.execKvlook e s
  | .kvput e => Sys2Proof.Machine.execKvput e s
  | .kvmove e => Sys2Proof.Machine.execKvmove e s
  | .foot e fp => Sys2Proof.Machine.execFoot e fp s
  | .hopen e => Sys2Proof.Machine.execHopen e s
  | .hclose e => Sys2Proof.Machine.execHclose e s
  | .hdup e => Sys2Proof.Machine.execHdup e s
  | .hinfo e => Sys2Proof.Machine.execHinfo e s
  | .kgen e => Sys2Proof.Machine.execKgen e s
  | .kwrap e => Sys2Proof.Machine.execKwrap e s
  | .kinst e => Sys2Proof.Machine.execKinst e s
  | .kzero e => Sys2Proof.Machine.execKzero e s
  | .mext e => Sys2Proof.Machine.execMext e s
  | .zfill e => Sys2Proof.Machine.execZfill e s
  | .lcadv e => Sys2Proof.Machine.execLcadv e s
  | .br e => Sys2Proof.Machine.execBr e s
  | .call e => Sys2Proof.Machine.execCall e s
  | .ret e => Sys2Proof.Machine.execRet e s
  | .loop e => Sys2Proof.Machine.execLoop e s
  | .plog e => Sys2Proof.Machine.execPlog e s
  | .halt e => Sys2Proof.Machine.execHalt e s
  | .trap e => Sys2Proof.Machine.execTrap e s
  | .fence e => Sys2Proof.Machine.execFence e s
  | .sqDoorbell q v => Sys2Proof.Machine.execSqDoorbell q v s
  | .cqHeadDoorbell q v => Sys2Proof.Machine.execCqHeadDoorbell q v s
  | .queueFetch q => Sys2Proof.Machine.execQueueFetch q s
  | .queueEnable lvl q v => Sys2Proof.Machine.execQueueEnable lvl q v s
  | .queueDisable lvl q v => Sys2Proof.Machine.execQueueDisable lvl q v s
  | .engineGrant q => Sys2Proof.Machine.execEngineGrant q s
  | .cmdNop q => Sys2Proof.Machine.execCmdNop q s
  | .load q sigOk => Sys2Proof.Machine.execLoad q sigOk s
  | .unload q => Sys2Proof.Machine.execUnload q s
  | .run q => Sys2Proof.Machine.execRun q s
  | .cancel q => Sys2Proof.Machine.execCancel q s
  | .imgload q sigOk selfCheckOk => Sys2Proof.Machine.execImgload q sigOk selfCheckOk s
  | .imgfree q => Sys2Proof.Machine.execImgfree q s
  | .imgfreeComplete image => Sys2Proof.Machine.execImgfreeComplete image s
  | .admission q b => Sys2Proof.Machine.execAdmit q b s
  | .wallTimeLimit e => Sys2Proof.Machine.execWallTimeLimit e s
  | .launch a group p => Sys2Proof.Machine.execLaunch a group p s
  | .launchNotice p group opSeq sparse => Sys2Proof.Machine.execLaunchNotice p group opSeq sparse s
  | .ticketGrant => Sys2Proof.Machine.execTicketGrant s
  | .go a p g => Sys2Proof.Machine.execGo a p g s
  | .chunk n p => Sys2Proof.Machine.execChunk n p s
  | .chunkResult n p => Sys2Proof.Machine.execChunkResult n p s
  | .chunkAck n p => Sys2Proof.Machine.execChunkAck n p s
  | .chunkTimeout a group opSeq index => Sys2Proof.Machine.execChunkTimeout a group opSeq index s
  | .reservationReleaseTimer group => Sys2Proof.Machine.execReservationReleaseTimer group s
  | .crossOrderTimer ticket => Sys2Proof.Machine.execCrossOrderTimer ticket s
  | .dispatch a port p => Sys2Proof.Machine.execDispatch a port p s
  | .dispatchCopy a p => Sys2Proof.Machine.execDispatchCopy a p s
  | .pendingRecordTimeout a src stream seq => Sys2Proof.Machine.execPendingRecordTimeout a src stream seq s
  | .brokerWindowEnd => Sys2Proof.Machine.execBrokerWindowEnd s
  | .kvOpen p => Sys2Proof.Machine.execKvOpen p s
  | .kvGrow p => Sys2Proof.Machine.execKvGrow p s
  | .kvClose p => Sys2Proof.Machine.execKvClose p s
  | .kvPrefetch p => Sys2Proof.Machine.execKvPrefetch p s
  | .kvRenew p => Sys2Proof.Machine.execKvRenew p s
  | .kvMoveStart => Sys2Proof.Machine.execKvMoveStart s
  | .kvGraceTimer => Sys2Proof.Machine.execKvGraceTimer s
  | .partOpen lvl v => Sys2Proof.Machine.execPartOpen lvl v s
  | .partEnd lvl v => Sys2Proof.Machine.execPartEnd lvl v s
  | .partFree part => Sys2Proof.Machine.execPartFree part s
  | .devAssign lvl v => Sys2Proof.Machine.execDevAssign lvl v s
  | .devRelease lvl v => Sys2Proof.Machine.execDevRelease lvl v s
  | .devRescrub lvl v => Sys2Proof.Machine.execDevRescrub lvl v s
  | .scrubStart dev => Sys2Proof.Machine.execScrubStart dev s
  | .scrubZeroDone a => Sys2Proof.Machine.execScrubZeroDone a s
  | .scrubVerifyDone a zeroed verified => Sys2Proof.Machine.execScrubVerifyDone a zeroed verified s
  | .scrubStatusTimer a => Sys2Proof.Machine.execScrubStatusTimer a s
  | .scrubStatus p => Sys2Proof.Machine.execScrubStatus p s
  | .scrubStatusMissing dev => Sys2Proof.Machine.execScrubStatusMissing dev s
  | .bootImageVerified image digest => Sys2Proof.Machine.execBootImageVerified image digest s
  | .getVersion => Sys2Proof.Machine.execGetVersion s
  | .getCapabilities => Sys2Proof.Machine.execGetCapabilities s
  | .negotiateAlgorithms => Sys2Proof.Machine.execNegotiateAlgorithms s
  | .getDigests => Sys2Proof.Machine.execGetDigests s
  | .getCertificate offset length => Sys2Proof.Machine.execGetCertificate offset length s
  | .challenge nonce => Sys2Proof.Machine.execChallenge nonce s
  | .getMeasurements nonce index => Sys2Proof.Machine.execGetMeasurements nonce index s
  | .spdmUnsupported code => Sys2Proof.Machine.execSpdmUnsupported code s
  | .eventIngress ev => Sys2Proof.Machine.execEventIngress ev s
  | .eventServe => Sys2Proof.Machine.execEventServe s
  | .ledgerWrite => Sys2Proof.Machine.execLedgerWrite s
  | .msBoundary => Sys2Proof.Machine.execMsBoundary s
  | .flashCopy => Sys2Proof.Machine.execFlashCopy s
  | .recordCloseTimer origin source => Sys2Proof.Machine.execRecordCloseTimer origin source s
  | .shadowClose block => Sys2Proof.Machine.execShadowClose block s
  | .resetTimeout block => Sys2Proof.Machine.execResetTimeout block s
  | .quietExpire block => Sys2Proof.Machine.execQuietExpire block s
  | .fltForce lvl n v => Sys2Proof.Machine.execFltForce lvl n v s
  | .severityWrite lvl n v => Sys2Proof.Machine.execSeverityWrite lvl n v s
  | .faultnClr lvl v => Sys2Proof.Machine.execFaultnClr lvl v s
  | .actCopyArrive gate die unit seq content => Sys2Proof.Machine.execActCopyArrive gate die unit seq content s
  | .voteTimeout gate unit seq => Sys2Proof.Machine.execVoteTimeout gate unit seq s
  | .fenceEffect => Sys2Proof.Machine.execFenceEffect s
  | .fenceReq lvl v => Sys2Proof.Machine.execFenceReq lvl v s
  | .resyncReq lvl v => Sys2Proof.Machine.execResyncReq lvl v s
  | .resyncPassDone markedBytes => Sys2Proof.Machine.execResyncPassDone markedBytes s
  | .resyncPauseDone digestsEqual => Sys2Proof.Machine.execResyncPauseDone digestsEqual s
  | .gateProbeTimer => Sys2Proof.Machine.execGateProbeTimer s
  | .comparatorSelftest gate detected => Sys2Proof.Machine.execComparatorSelftest gate detected s
  | .digestProbeTimer digests => Sys2Proof.Machine.execDigestProbeTimer digests s
  | .patrolRead parityErrors => Sys2Proof.Machine.execPatrolRead parityErrors s
  | .pairEnable lvl v => Sys2Proof.Machine.execPairEnable lvl v s
  | .mirror p => Sys2Proof.Machine.execMirror p s
  | .mirrorLagTimeout => Sys2Proof.Machine.execMirrorLagTimeout s
  | .heartbeatTimer => Sys2Proof.Machine.execHeartbeatTimer s
  | .heartbeat path bytes => Sys2Proof.Machine.execHeartbeat path bytes s
  | .hbPathLost path => Sys2Proof.Machine.execHbPathLost path s
  | .takeoverStart => Sys2Proof.Machine.execTakeoverStart s
  | .holdExpire => Sys2Proof.Machine.execHoldExpire s
  | .healthReportTimer => Sys2Proof.Machine.execHealthReportTimer s
  | .powerGood => Sys2Proof.Machine.execPowerGood s
  | .bringupPhaseDone r => Sys2Proof.Machine.execBringupPhaseDone r s
  | .powerLoss => Sys2Proof.Machine.execPowerLoss s
  | .resetNAssert => Sys2Proof.Machine.execResetNAssert s
  | .ctrlReset lvl v => Sys2Proof.Machine.execCtrlReset lvl v s
  | .blockReset lvl v => Sys2Proof.Machine.execBlockReset lvl v s
  | .perstAssert hub => Sys2Proof.Machine.execPerstAssert hub s
  | .linkTrainDone n port lanes planned delayPs far farPort => Sys2Proof.Machine.execLinkTrainDone n port lanes planned delayPs far farPort s
  | .trainTimeout n port => Sys2Proof.Machine.execTrainTimeout n port s
  | .discoveryClose => Sys2Proof.Machine.execDiscoveryClose s
  | .powerInterval packageW endpoints => Sys2Proof.Machine.execPowerInterval packageW endpoints s
  | .supplyBackInRange source => Sys2Proof.Machine.execSupplyBackInRange source s
  | .blockResetDone block katPass startNs => Sys2Proof.Machine.execBlockResetDone block katPass startNs s
  | .perstDeassert hub => Sys2Proof.Machine.execPerstDeassert hub s
  | .lrstDeassert a => Sys2Proof.Machine.execLrstDeassert a s
  | .resetNDeassert => Sys2Proof.Machine.execResetNDeassert s
  | .jtagInternalScan digest => Sys2Proof.Machine.execJtagInternalScan digest s
  | .localPathWrite a offset v => Sys2Proof.Machine.execLocalPathWrite a offset v s
  | .gqCqHeadDoorbell a q v => Sys2Proof.Machine.execGqCqHeadDoorbell a q v s
  | .partRecordTimeout a src tag => Sys2Proof.Machine.execPartRecordTimeout a src tag s
  | .switchWindowEnd a => Sys2Proof.Machine.execSwitchWindowEnd a s
  | .hostReadCompletion q what ok data => Sys2Proof.Machine.execHostReadCompletion q what ok data s
  | .claimAckTimeout dest => Sys2Proof.Machine.execClaimAckTimeout dest s

end Sys2Proof.Machine
end

