-- ==== Sys2Proof/Safety.lean ====
section
/-! DEFINITION. What counts as a safe run, and the standing facts claims speak of. -/

namespace Sys2Proof.Machine

/-- The state after `n` steps, while each answers a next state. -/
def runSteps : Nat → State → Host.Outcome State Fault Refusal
  | 0, s => .next s
  | n + 1, s =>
    match step s with
    | .next t => runSteps n t
    | r => r

/-- A run of `n` steps is safe: no step faults and none is refused. -/
def SafeRun (n : Nat) (s : State) : Prop := ∃ t, runSteps n s = .next t

/-- Every memory of an engine is in its canonical form. -/
def Engine.memOk (x : Engine) : Bool := x.localMem.wf && x.bufs.all fun b => b.2.wf

/-- Every memory of the block and its agents is in its canonical form. -/
def State.memOk (s : State) : Bool :=
  s.hbm.wf && (s.store.all fun m => m.2.wf) && (s.spill.all fun m => m.2.wf) && (s.sets.all fun x => x.2.bytes.wf)
    && (s.engines.all fun x => x.2.memOk) && s.agents.all fun x => x.2.mem.wf

/-- Engine `e` is about to execute the legal word `w` whose row asks for level `lvl`: a program runs on it and is not blocked,
no resync pauses it, the word stands at its PC, budget is left, the guard holds, the level suffices, and the gates serve an act or a
shared access now (R173, R180, R182, R195, R401). -/
def State.executes (s : State) (e : Nat) (lvl : Level) (w : Word64) : Prop :=
  (s.engine e).issues = true ∧ (s.engine e).code[(s.engine e).pc]? = some w ∧ legal w = true ∧ (s.engine e).budget ≠ 0
    ∧ (s.engine e).pred (wPidx w) ≠ wNeg w ∧ levelRank lvl ≤ levelRank (s.engine e).level ∧ s.pausing = false
    ∧ ((s.engine e).gated w = true → s.gateServes e w = true)

/-- The state after an instruction whose effect on its engine is `x`: one budget unit is used, the PC goes on by one, and the
engine no longer waits at the gates (R182, R195). -/
def State.stepped (s : State) (e : Nat) (x : Engine) : State :=
  (s.setEngine e { x with budget := (s.engine e).budget - 1, pc := (s.engine e).pc + 1 }).leaveGate e

/-- The state as the effect of an instruction finds it: one budget unit is used, and the engine no longer waits at the gates
(R182, R195). -/
def State.charged (s : State) (e : Nat) : State :=
  (s.setEngine e { s.engine e with budget := (s.engine e).budget - 1 }).leaveGate e

/-- The state in which the engine's PC has gone on by one from where it was in `s` (R182). -/
def State.advanced (t s : State) (e : Nat) : State := t.setEngine e { t.engine e with pc := (s.engine e).pc + 1 }

/-- The conditions of CMP and CMPI by their code (R181), over the numbers the registers hold. -/
def condition (c : Nat) (x y : Word64) : Bool :=
  [decide (x = y), decide (x ≠ y), decide (x.toNat < y.toNat), decide (y.toNat ≤ x.toNat), decide (x.toInt < y.toInt),
    decide (y.toInt ≤ x.toInt), decide (x &&& y ≠ 0), decide (x &&& y = 0)].getD c false

/-- A packet reaches a node whole and for the first time, with a completion left for it where it is flagged (R104, R108, R111). -/
def State.freshPacket (s : State) (n : Node) (p : Packet) : Prop :=
  p.crcOk = true ∧ s.isDup n p.hdr = false ∧ s.orderFull n p.hdr = false

/-- A packet of the owner reaches an agent that is not orphaned, whole and for the first time (R58, R61, R104, R108). -/
def State.ownerPacket (s : State) (a : AgentRef) (p : Packet) : Prop :=
  s.orphan a = false ∧ p.hdr.src = s.owner a ∧ s.owner a ≠ noFid ∧ s.freshPacket (.agent a) p

/-- The state after a node has taken a packet: its sequence number is recorded and it completes (R105, R108, R110). -/
def State.acked (s : State) (n : Node) (p : Packet) : State := s.complete n p.hdr

/-- The next command of queue `q` that may start is the entry `c` of opcode `op`: no mirror record of queue state is open, and it is well
formed, of a level and a partition that pass, with what it reads of host memory at hand (R202, R205, R214, R217, R405). -/
def State.starts (s : State) (q : Nat) (c : Cmd) (op : Nat) (lvl : Level) : Prop :=
  nextStart (s.queue q).cmds = some c ∧ c.opcode = op ∧ c.wellFormed = true ∧ levelRank lvl ≤ levelRank (s.queueLevel q)
    ∧ (s.queueLevel q = .tenant → s.partActive (s.queuePartition q) = true) ∧ c.readFailed = false
    ∧ (c.hostRange.2 = 0 ∨ c.data.isSome = true) ∧ s.mirrorBlocks (some 4) = false

/-- The life-cycle state is one of R349. -/
def State.lifeCycleOk (s : State) : Prop := s.sec.lifeCycle ≤ 3

end Sys2Proof.Machine
end

