-- ==== Sys2Proof/WellFormed.lean ====
section
/-! DEFINITION. Well-formed commands: every number an operand names something of the block with lies in the range the spec
gives it. -/

namespace Sys2Proof

/-- A route engine LRE0 to LRE31 (R170). -/
def engineOk (e : Nat) : Bool := decide (e < 32)

/-- A command queue CQ0 to CQ63 (R198, R199). -/
def queueOk (q : Nat) : Bool := decide (q < 64)

/-- A group queue of a Jexjan-E (R38, R55). -/
def groupQueueOk (q : Nat) : Bool := decide (q < 64)

/-- A port of the controller (R22) or of an agent (R38). -/
def nodePortOk : Node → Nat → Bool
  | .ctl, p => decide (p < 72)
  | .agent a, p => match a.variant with | .s => decide (p < 512) | .e => decide (p < 8)

/-- LENGTH agrees with the payload and is at most 4,096 (R92). -/
def packetOk (p : Packet) : Bool := p.hdr.length.toNat == p.payload.length && decide (p.payload.length ≤ 4096)

/-- A block number, which also numbers the 64 dies (R13, R360). -/
def blockOk (b : Nat) : Bool := decide (b < 64)

/-- A fault source of the controller (R359). -/
def sourceOk (n : Nat) : Bool := decide (n < 8192)

/-- The source of a rail (R444). -/
def railSourceOk (n : Nat) : Bool := decide (0x1A40 ≤ n ∧ n ≤ 0x1A53)

/-- The source of a junction sensor (R450). -/
def sensorOk (n : Nat) : Bool := decide (0x1A54 ≤ n ∧ n ≤ 0x1A79)

/-- A router: one on each CF die (R13). -/
def routerOk (n : Nat) : Bool := decide (n < 12)

/-- A rail that has a brown-out level, in the order of its source (R444). -/
def railOk (n : Nat) : Bool := decide (n < 19)

/-- A quarter: four for each of the 12 CF dies (R20, R35). -/
def quarterOk (n : Nat) : Bool := decide (n < 48)

/-- A voter gate: 24 port dies, 12 table-store dies, 4 hubs, RT0 (R16). -/
def gateOk (n : Nat) : Bool := decide (n < 41)

/-- An arbiter die (R13). -/
def arbiterOk (n : Nat) : Bool := decide (n < 3)

/-- A hub with a PCIe function (R451). -/
def hostHubOk (n : Nat) : Bool := decide (n < 2)

/-- A number of lanes of a port (R22). -/
def lanesOk (n : Nat) : Bool := decide (n ≤ 4)

/-- The local ID of an endpoint (R76). -/
def endpointOk (n : Nat) : Bool := decide (n < 0x8000)

/-- A group ID: 16 bits (R246). -/
def groupOk (n : Nat) : Bool := decide (n < 65536)

/-- A rail group (R34). -/
def railGroupOk (n : Nat) : Bool := decide (n < 6)

/-- A tenant partition (R92, R328). -/
def partitionOk (n : Nat) : Bool := decide (1 ≤ n ∧ n ≤ 4095)

/-- An address in BAR0, which is 2 MiB (R451). -/
def bar0Ok (a : Nat) : Bool := decide (a < 0x200000)

/-- A slot of a slot table (R38, R120). -/
def slotOk (n : Nat) : Bool := decide (n < 4096)

/-- The command's numbers lie in the ranges the spec gives them. -/
def wellFormed : Instr → Bool
  | .registerWrite _ _ addr _ => bar0Ok addr
  | .nocItemArrive src dst _ _ => blockOk src && blockOk dst
  | .nocItemAck src dst _ => blockOk src && blockOk dst
  | .nocRouterFail cf => routerOk cf
  | .slotTick => true
  | .timeBaseSwitchover => true
  | .supplyOutOfRange source => railSourceOk source
  | .brownOut rail => railOk rail
  | .brownOutRecovery => true
  | .tempHigh source _ => sensorOk source
  | .thermalTrip source _ => sensorOk source
  | .quarterRampDone => true
  | .quarterIdleTimeout quarter => quarterOk quarter
  | .dieLost block => blockOk block
  | .crstAssert _ => true
  | .computeReset _ p => packetOk p
  | .computeResetEnd _ => true
  | .crstDeassert _ => true
  | .rejoinStart _ _ => true
  | .rejoinDone _ p => packetOk p
  | .linkReset _ p => packetOk p
  | .lrstAssert _ => true
  | .jxFltForce _ p => packetOk p
  | .epochBoundary => true
  | .shadowCopyDone _ => true
  | .install _ p => packetOk p
  | .commit _ p => packetOk p
  | .stageWrite _ p => packetOk p
  | .stageInvalidate _ p => packetOk p
  | .stageRebase _ p => packetOk p
  | .stagedSlotEccError _ _ => true
  | .play _ p => packetOk p
  | .playApplyDone _ => true
  | .reserveWrite _ p => packetOk p
  | .reserveFree _ p => packetOk p
  | .gqDoorbell _ q _ _ => groupQueueOk q
  | .sampleFlushTimer _ => true
  | .beaconTimer => true
  | .beacon a port p => packetOk p && nodePortOk (.agent a) port
  | .statusReportTimer _ => true
  | .orphanTimeout _ => true
  | .holdoverExceeded _ => true
  | .claim a port p _ _ _ => packetOk p && nodePortOk (.agent a) port
  | .eventsSendTimer _ => true
  | .linkDown n port _ => nodePortOk n port
  | .frameReceive n port f => packetOk f.pkt && nodePortOk n port
  | .creditFrame n port f => packetOk f.pkt && nodePortOk n port
  | .creditFrameTimer n port => nodePortOk n port
  | .rekeyThreshold n port => nodePortOk n port
  | .rekeyOverrun n port => nodePortOk n port
  | .packetPost _ p => packetOk p
  | .expressHeadSlot a port slot => nodePortOk (.agent a) port && slotOk slot
  | .retryTimeout _ _ _ _ => true
  | .ack _ p => packetOk p
  | .nak _ p => packetOk p
  | .resendReq _ p => packetOk p
  | .precedentTimer _ _ _ _ => true
  | .write _ p => packetOk p
  | .readReq _ p _ => packetOk p
  | .readResp _ p => packetOk p
  | .sendPacket _ p => packetOk p
  | .rxRingHeadWrite _ _ => true
  | .streamsReset _ p => packetOk p
  | .streamsResetTimeout _ => true
  | .discoverReq a port p => packetOk p && nodePortOk (.agent a) port
  | .discoverResp port _ => nodePortOk .ctl port
  | .katOrder _ p _ => packetOk p
  | .katResult p => packetOk p
  | .statusReport p => packetOk p
  | .windowReport p => packetOk p
  | .idleReport p => packetOk p
  | .regRead _ p _ => packetOk p
  | .regWrite _ p => packetOk p
  | .regResp p => packetOk p
  | .events p => packetOk p
  | .samples p => packetOk p
  | .rekeyReq p => packetOk p
  | .sleep n port p => packetOk p && nodePortOk n port
  | .portIdleTimeout n port => nodePortOk n port
  | .wakeRequest port _ => nodePortOk .ctl port
  | .wakeGrant group => railGroupOk group
  | .wakeComplete port => nodePortOk .ctl port
  | .eIdleRequest _ => true
  | .eDeepRequest _ => true
  | .eWake _ => true
  | .epochCfgWrite _ _ => true
  | .syncArm _ _ => true
  | .syncRearmTimer => true
  | .syncInEdge _ _ => true
  | .ppsInEdge _ => true
  | .ptpFrame _ => true
  | .arpRequest _ _ => true
  | .retrainComplete n port lanes => nodePortOk n port && lanesOk lanes
  | .portRetrain _ _ => true
  | .rekey _ _ => true
  | .commitDeadline => true
  | .drainQuiet _ => true
  | .drainTimeout _ => true
  | .classificationClose => true
  | .playResendTimer => true
  | .autoPlayWrite _ _ => true
  | .attemptResumeTimer _ => true
  | .inv e => engineOk e
  | .nop e => engineOk e
  | .add e => engineOk e
  | .sub e => engineOk e
  | .mul e => engineOk e
  | .mulhu e => engineOk e
  | .divu e => engineOk e
  | .remu e => engineOk e
  | .and e => engineOk e
  | .or e => engineOk e
  | .xor e => engineOk e
  | .shl e => engineOk e
  | .shr e => engineOk e
  | .sar e => engineOk e
  | .minu e => engineOk e
  | .maxu e => engineOk e
  | .addi e => engineOk e
  | .andi e => engineOk e
  | .ori e => engineOk e
  | .xori e => engineOk e
  | .shli e => engineOk e
  | .shri e => engineOk e
  | .li e => engineOk e
  | .lih e => engineOk e
  | .sel e => engineOk e
  | .bfx e => engineOk e
  | .bfi e => engineOk e
  | .popc e => engineOk e
  | .clz e => engineOk e
  | .crc e => engineOk e
  | .cmp e => engineOk e
  | .cmpi e => engineOk e
  | .ld e => engineOk e
  | .lds e => engineOk e
  | .st e => engineOk e
  | .ldl e => engineOk e
  | .stl e => engineOk e
  | .cas e => engineOk e
  | .fadd e => engineOk e
  | .mcopy e => engineOk e
  | .tlook e => engineOk e
  | .seal e => engineOk e
  | .tinst e => engineOk e
  | .tstage e => engineOk e
  | .send e => engineOk e
  | .wait e => engineOk e
  | .tagComplete e _ _ _ => engineOk e || e == 0xFE || e == 0xFF
  | .recv e => engineOk e
  | .rread e => engineOk e
  | .rwrite e => engineOk e
  | .evwait e => engineOk e
  | .evwaitDeadline e => engineOk e
  | .evsub e => engineOk e
  | .evpost e => engineOk e
  | .time e => engineOk e
  | .epoch e => engineOk e
  | .glaunch e => engineOk e
  | .gresv e => engineOk e
  | .grel e => engineOk e
  | .gcancel e => engineOk e
  | .imgrun e => engineOk e
  | .plook e => engineOk e
  | .pload e => engineOk e
  | .kvlook e => engineOk e
  | .kvput e => engineOk e
  | .kvmove e => engineOk e
  | .foot e _ => engineOk e
  | .hopen e => engineOk e
  | .hclose e => engineOk e
  | .hdup e => engineOk e
  | .hinfo e => engineOk e
  | .kgen e => engineOk e
  | .kwrap e => engineOk e
  | .kinst e => engineOk e
  | .kzero e => engineOk e
  | .mext e => engineOk e
  | .zfill e => engineOk e
  | .lcadv e => engineOk e
  | .br e => engineOk e
  | .call e => engineOk e
  | .ret e => engineOk e
  | .loop e => engineOk e
  | .plog e => engineOk e
  | .halt e => engineOk e
  | .trap e => engineOk e
  | .fence e => engineOk e
  | .sqDoorbell q _ => queueOk q
  | .cqHeadDoorbell q _ => queueOk q
  | .queueFetch q => queueOk q
  | .queueEnable _ q _ => queueOk q
  | .queueDisable _ q _ => queueOk q
  | .engineGrant q => queueOk q
  | .cmdNop q => queueOk q
  | .load q _ => queueOk q
  | .unload q => queueOk q
  | .run q => queueOk q
  | .cancel q => queueOk q
  | .imgload q _ _ => queueOk q
  | .imgfree q => queueOk q
  | .imgfreeComplete _ => true
  | .admission q _ => queueOk q
  | .wallTimeLimit e => engineOk e
  | .launch _ group p => packetOk p && groupOk group
  | .launchNotice p group _ _ => packetOk p && groupOk group
  | .ticketGrant => true
  | .go _ p _ => packetOk p
  | .chunk _ p => packetOk p
  | .chunkResult _ p => packetOk p
  | .chunkAck _ p => packetOk p
  | .chunkTimeout _ group _ _ => groupOk group
  | .reservationReleaseTimer group => groupOk group
  | .crossOrderTimer _ => true
  | .dispatch a port p => packetOk p && nodePortOk (.agent a) port
  | .dispatchCopy _ p => packetOk p
  | .pendingRecordTimeout _ _ _ _ => true
  | .brokerWindowEnd => true
  | .kvOpen p => packetOk p
  | .kvGrow p => packetOk p
  | .kvClose p => packetOk p
  | .kvPrefetch p => packetOk p
  | .kvRenew p => packetOk p
  | .kvMoveStart => true
  | .kvGraceTimer => true
  | .partOpen _ _ => true
  | .partEnd _ _ => true
  | .partFree part => partitionOk part
  | .devAssign _ _ => true
  | .devRelease _ _ => true
  | .devRescrub _ _ => true
  | .scrubStart dev => endpointOk dev
  | .scrubZeroDone _ => true
  | .scrubVerifyDone _ _ _ => true
  | .scrubStatusTimer _ => true
  | .scrubStatus p => packetOk p
  | .scrubStatusMissing dev => endpointOk dev
  | .bootImageVerified _ _ => true
  | .getVersion => true
  | .getCapabilities => true
  | .negotiateAlgorithms => true
  | .getDigests => true
  | .getCertificate _ _ => true
  | .challenge _ => true
  | .getMeasurements _ _ => true
  | .spdmUnsupported _ => true
  | .eventIngress _ => true
  | .eventServe => true
  | .ledgerWrite => true
  | .msBoundary => true
  | .flashCopy => true
  | .recordCloseTimer _ source => sourceOk source
  | .shadowClose block => blockOk block
  | .resetTimeout block => blockOk block
  | .quietExpire block => blockOk block
  | .fltForce _ n _ => sourceOk n
  | .severityWrite _ n _ => sourceOk n
  | .faultnClr _ _ => true
  | .actCopyArrive gate die _ _ _ => gateOk gate && arbiterOk die
  | .voteTimeout gate _ _ => gateOk gate
  | .fenceEffect => true
  | .fenceReq _ _ => true
  | .resyncReq _ _ => true
  | .resyncPassDone _ => true
  | .resyncPauseDone _ => true
  | .gateProbeTimer => true
  | .comparatorSelftest gate _ => gateOk gate
  | .digestProbeTimer _ => true
  | .patrolRead _ => true
  | .pairEnable _ _ => true
  | .mirror p => packetOk p
  | .mirrorLagTimeout => true
  | .heartbeatTimer => true
  | .heartbeat _ _ => true
  | .hbPathLost _ => true
  | .takeoverStart => true
  | .holdExpire => true
  | .healthReportTimer => true
  | .powerGood => true
  | .bringupPhaseDone _ => true
  | .powerLoss => true
  | .resetNAssert => true
  | .ctrlReset _ _ => true
  | .blockReset _ _ => true
  | .perstAssert hub => hostHubOk hub
  | .linkTrainDone n port lanes planned _ _ _ => nodePortOk n port && lanesOk lanes && lanesOk planned
  | .trainTimeout n port => nodePortOk n port
  | .discoveryClose => true
  | .powerInterval _ _ => true
  | .supplyBackInRange source => (railSourceOk source || sensorOk source)
  | .blockResetDone block _ _ => blockOk block
  | .perstDeassert hub => hostHubOk hub
  | .lrstDeassert _ => true
  | .resetNDeassert => true
  | .jtagInternalScan _ => true
  | .localPathWrite _ _ _ => true
  | .gqCqHeadDoorbell _ q _ => groupQueueOk q
  | .partRecordTimeout _ _ _ => true
  | .switchWindowEnd _ => true
  | .hostReadCompletion q _ _ _ => queueOk q
  | .claimAckTimeout _ => true

end Sys2Proof
end

