-- ==== Sys2Proof/Certificates/Slice0/Obligations.lean ====
section
/-! DEFINITION. The statements for the provers. -/

open Sys2Proof Sys2Proof.Machine

/-! ## Steps, reset, guards -/

/-- A step takes the command at the front of the queue and runs it on the state with the queue's rest; on an empty queue the block idles
(the model's choice, log entry 1). -/
def Obligations.StepRunsFront : Prop :=
  (∀ (c : Instr) (rest : List Instr) (s : State), step { s with pending := c :: rest } = exec c { s with pending := rest })
    ∧ ∀ s : State, s.pending = [] → step s = .next s

/-- What the spec's rules and tables give at reset: no command waits, no agent has been heard of and every memory is empty; registers of
each block hold the reset value of their table. -/
def Obligations.ResetState : Prop :=
  State.reset.pending = [] ∧ State.reset.memOk = true ∧ State.reset.hbm = [] ∧ (∀ a, State.reset.agent a = {}) ∧ (∀ e, State.reset.engine e = {})
    ∧ (∀ f v, (f, v) ∈ [(SCH_EPOCH_CFG_LENGTH_NS, 249984), (SCH_EPOCH_CFG_SLOTS, 1953), (RTE_FAILOVER_AUTO_PLAY, 1), (CFB_STATUS_QUARTERS_GATED, 48),
        (GRP_ROOT_ROOT_CTX_FREE, 4096), (GRP_ROOT_ROOT_BLOCKS_FREE, 32768), (GRP_TICKET_NEXT, 1), (GRP_TICKET_WAITING, 0), (GRP_FALLBACK_WAITED, 0),
        (GRP_RESV_CFG_RELEASE_US, 100), (PLC_BROKER_CFG_ENABLE, 1), (PLC_BROKER_CFG_MAX_ADDS, 8), (PLC_BROKER_CFG_HOT_PCT, 90),
        (PLC_BROKER_CFG_COLD_PCT, 30), (PLC_BROKER_CFG_WINDOW_MS, 100), (PLC_KV_CFG_GRACE_US, 500), (FLT_CFG_FORCE_SAFE, 1), (FLT_CFG_FAULTN_SEV, 3),
        (FLT_CAP_INFO_INITIATOR, 0xFFFFFFFF), (LED_STATUS_COPY_A_OK, 1), (LED_STATUS_COPY_B_OK, 1), (TRI_STATUS_VOTING, 7), (TRI_CFG_AUTO_RESYNC, 1),
        (TRI_STANDBY_CFG_HB_MISS, 10), (TRI_STANDBY_CFG_HOLD_MS, 20), (PWR_WAKE_CFG_WAKE_LANES, 24), (PWR_WAKE_CFG_GATE_MS, 10)] →
      State.reset.fld f = v)
    ∧ ∀ a f v, (f, v) ∈ [(JX_ID_FABRIC_ID, 0xFFFFFFFF), (JX_OWNER_OWNER_ID, 0xFFFFFFFF), (JX_SAMPLE_SHIFT_EXPRESS, 14), (JX_SAMPLE_SHIFT_BULK, 14),
        (JX_HB_STATUS_PERIOD_MS, 100), (JX_HB_ORPHAN_MS, 5), (JX_RCTX_CTX_FREE, match a.variant with | .s => 1024 | .e => 16),
        (JX_RMEM_BLOCKS_FREE, match a.variant with | .s => 1024 | .e => 128)] → State.reset.jfld a f = v

/-- R178: the opcode is bits 63:56, NEG bit 55, PIDX bits 54:52; an instruction of any opcode executes when p[PIDX] differs from NEG and
otherwise only uses a budget unit and goes on; guard 0 always executes, guard 8 never does. -/
def Obligations.GuardRule : Prop :=
  (∀ w : Word64, wOp w = (w >>> 56).toNat ∧ wNeg w = w.getLsbD 55 ∧ wPidx w = (w >>> 52).toNat % 8)
    ∧ (∀ (x : Engine) (w : Word64), ((w >>> 52).toNat % 16 = 0 → x.pred (wPidx w) ≠ wNeg w) ∧ ((w >>> 52).toNat % 16 = 8 → x.pred (wPidx w) = wNeg w))
    ∧ ∀ (s : State) (e : Nat) (w : Word64), (s.engine e).issues = true → (s.engine e).code[(s.engine e).pc]? = some w → legal w = true →
      (s.engine e).budget ≠ 0 → s.pausing = false →
      ((s.engine e).pred (wPidx w) = wNeg w → ∀ i fp, (wOp w, i) ∈ [
      (0x00, Instr.inv e), (0x01, Instr.nop e), (0x02, Instr.add e), (0x03, Instr.sub e), (0x04, Instr.mul e), (0x05, Instr.mulhu e),
      (0x06, Instr.divu e), (0x07, Instr.remu e), (0x08, Instr.and e), (0x09, Instr.or e), (0x0A, Instr.xor e), (0x0B, Instr.shl e),
      (0x0C, Instr.shr e), (0x0D, Instr.sar e), (0x0E, Instr.minu e), (0x0F, Instr.maxu e), (0x10, Instr.addi e),
      (0x11, Instr.andi e), (0x12, Instr.ori e), (0x13, Instr.xori e), (0x14, Instr.shli e), (0x15, Instr.shri e),
      (0x16, Instr.li e), (0x17, Instr.lih e), (0x18, Instr.sel e), (0x19, Instr.bfx e), (0x1A, Instr.bfi e), (0x1B, Instr.popc e),
      (0x1C, Instr.clz e), (0x1D, Instr.crc e), (0x1E, Instr.cmp e), (0x1F, Instr.cmpi e), (0x20, Instr.ld e), (0x21, Instr.lds e),
      (0x22, Instr.st e), (0x23, Instr.ldl e), (0x24, Instr.stl e), (0x25, Instr.cas e), (0x26, Instr.fadd e), (0x27, Instr.mcopy e),
      (0x28, Instr.tlook e), (0x29, Instr.seal e), (0x2A, Instr.tinst e), (0x2B, Instr.tstage e), (0x30, Instr.send e),
      (0x31, Instr.wait e), (0x32, Instr.recv e), (0x33, Instr.rread e), (0x34, Instr.rwrite e), (0x40, Instr.glaunch e),
      (0x41, Instr.gresv e), (0x42, Instr.grel e), (0x43, Instr.gcancel e), (0x44, Instr.imgrun e), (0x50, Instr.evwait e),
      (0x51, Instr.evsub e), (0x52, Instr.evpost e), (0x53, Instr.time e), (0x54, Instr.epoch e), (0x60, Instr.plook e),
      (0x61, Instr.pload e), (0x62, Instr.kvlook e), (0x63, Instr.kvput e), (0x64, Instr.kvmove e), (0x65, Instr.foot e fp),
      (0x70, Instr.hopen e), (0x71, Instr.hclose e), (0x72, Instr.hdup e), (0x73, Instr.hinfo e), (0x74, Instr.kgen e),
      (0x75, Instr.kwrap e), (0x76, Instr.kinst e), (0x77, Instr.kzero e), (0x78, Instr.mext e), (0x79, Instr.zfill e),
      (0x7A, Instr.lcadv e), (0x80, Instr.br e), (0x81, Instr.call e), (0x82, Instr.ret e), (0x83, Instr.loop e),
      (0x84, Instr.plog e), (0x85, Instr.halt e), (0x86, Instr.trap e), (0x87, Instr.fence e)] →
        exec i s = .next (s.stepped e (s.engine e)))
      ∧ ((s.engine e).pred (wPidx w) ≠ wNeg w → ∀ lvl body, levelRank lvl ≤ levelRank (s.engine e).level →
        ((s.engine e).gated w = true → s.gateServes e w = true) →
        s.issue e (wOp w) lvl body = s.settleEffect (s.charged e) e w (body (s.charged e) w))

/-! ## Instructions of the route engines -/

/-- R173, R180, R182, R183, R195, R401: what keeps an instruction from its effect: the pause of a resync, a PC outside the image, an illegal
word, no budget, a guard that does not hold, a level that does not suffice, gates that serve another act first. R182, R183, R193: HALT,
TRAP and INV end the program: nothing of it stays in the engine, and a fault raises the event of the engine's source. Where it goes
beyond the rules named it rests on the model's choices of log entries 15, 113, 137. -/
def Obligations.IssueAndEndResults : Prop :=
  (∀ (s : State) (e op : Nat) (lvl : Level) (body : State → Word64 → Effect) (x : Engine), x = s.engine e → x.issues = true →
    (s.pausing = true → s.issue e op lvl body = s)
    ∧ (s.pausing = false → (x.code[x.pc]? = none → s.issue e op lvl body = s.faultProgram e 0x06)
    ∧ ∀ w, x.code[x.pc]? = some w → wOp w = op →
      (legal w = false → s.issue e op lvl body = s.faultProgram e 0x01)
      ∧ (legal w = true → x.budget = 0 → s.issue e op lvl body = s.faultProgram e 0x05)
      ∧ (legal w = true → x.budget ≠ 0 → x.pred (wPidx w) = wNeg w → s.issue e op lvl body = s.stepped e x)
      ∧ (legal w = true → x.budget ≠ 0 → x.pred (wPidx w) ≠ wNeg w → levelRank x.level < levelRank lvl →
          s.issue e op lvl body = (s.charged e).suppress e w)
      ∧ (legal w = true → x.budget ≠ 0 → x.pred (wPidx w) ≠ wNeg w → levelRank lvl ≤ levelRank x.level → x.gated w = true →
          s.gateServes e w = false → s.issue e op lvl body = s.waitAtGate e)))
  ∧ (∀ (s : State) (e : Nat) (w : Word64), s.executes e .tenant w →
    (wOp w = 0x85 → ∃ t, exec (.halt e) s = .next t ∧ t.engine e = {} ∧ t = (s.charged e).endProgram e 0 0 (s.g e (wRa w)) 0)
    ∧ (wOp w = 0x86 → ∃ t u, exec (.trap e) s = .next t ∧ t.engine e = {}
        ∧ u = (s.charged e).endProgram e 1 0x07 (s.g e (wRa w)) (s.engine e).pc ∧ t = u.raise (0x0100 + e) 1 0x07)
    ∧ (wOp w = 0x00 → ∃ t u, exec (.inv e) s = .next t ∧ t.engine e = {}
        ∧ u = (s.charged e).endProgram e 1 0x01 0 (s.engine e).pc ∧ t = u.raise (0x0100 + e) 1 0x01))

/-- R186, register forms: the result in g[RD] and nothing else of the state but the budget unit and the PC. R186, immediate forms: the
operand is the sign-extended IMM. Where it goes beyond the rules named it rests on the model's choices of log entry 113. -/
def Obligations.AluResults : Prop :=
  (∀ (s : State) (e : Nat) (w x y : Word64), s.executes e .tenant w → x = s.g e (wRa w) → y = s.g e (wRb w) →
    (wOp w = 0x02 → exec (.add e) s = .next (s.stepped e ((s.engine e).setG (wRd w) (x + y))))
    ∧ (wOp w = 0x03 → exec (.sub e) s = .next (s.stepped e ((s.engine e).setG (wRd w) (x - y))))
    ∧ (wOp w = 0x04 → exec (.mul e) s = .next (s.stepped e ((s.engine e).setG (wRd w) (x * y))))
    ∧ (wOp w = 0x05 → exec (.mulhu e) s = .next (s.stepped e ((s.engine e).setG (wRd w) (BitVec.ofNat 64 (x.toNat * y.toNat / 2 ^ 64)))))
    ∧ (wOp w = 0x06 → exec (.divu e) s = .next (s.stepped e ((s.engine e).setG (wRd w) (if y = 0 then BitVec.allOnes 64 else BitVec.ofNat 64 (x.toNat / y.toNat)))))
    ∧ (wOp w = 0x07 → exec (.remu e) s = .next (s.stepped e ((s.engine e).setG (wRd w) (if y = 0 then x else BitVec.ofNat 64 (x.toNat % y.toNat)))))
    ∧ (wOp w = 0x08 → exec (.and e) s = .next (s.stepped e ((s.engine e).setG (wRd w) (x &&& y))))
    ∧ (wOp w = 0x09 → exec (.or e) s = .next (s.stepped e ((s.engine e).setG (wRd w) (x ||| y))))
    ∧ (wOp w = 0x0A → exec (.xor e) s = .next (s.stepped e ((s.engine e).setG (wRd w) (x ^^^ y))))
    ∧ (wOp w = 0x0B → exec (.shl e) s = .next (s.stepped e ((s.engine e).setG (wRd w) (x <<< (y.toNat % 64)))))
    ∧ (wOp w = 0x0C → exec (.shr e) s = .next (s.stepped e ((s.engine e).setG (wRd w) (x >>> (y.toNat % 64)))))
    ∧ (wOp w = 0x0D → exec (.sar e) s = .next (s.stepped e ((s.engine e).setG (wRd w) (x.sshiftRight (y.toNat % 64)))))
    ∧ (wOp w = 0x0E → exec (.minu e) s = .next (s.stepped e ((s.engine e).setG (wRd w) (if x.toNat < y.toNat then x else y))))
    ∧ (wOp w = 0x0F → exec (.maxu e) s = .next (s.stepped e ((s.engine e).setG (wRd w) (if x.toNat < y.toNat then y else x)))))
  ∧ (∀ (s : State) (e : Nat) (w x m : Word64), s.executes e .tenant w → x = s.g e (wRa w) → m = (BitVec.ofNat 40 w.toNat).signExtend 64 →
    (wOp w = 0x10 → exec (.addi e) s = .next (s.stepped e ((s.engine e).setG (wRd w) (x + m))))
    ∧ (wOp w = 0x11 → exec (.andi e) s = .next (s.stepped e ((s.engine e).setG (wRd w) (x &&& m))))
    ∧ (wOp w = 0x12 → exec (.ori e) s = .next (s.stepped e ((s.engine e).setG (wRd w) (x ||| m))))
    ∧ (wOp w = 0x13 → exec (.xori e) s = .next (s.stepped e ((s.engine e).setG (wRd w) (x ^^^ m))))
    ∧ (wOp w = 0x14 → exec (.shli e) s = .next (s.stepped e ((s.engine e).setG (wRd w) (x <<< (m.toNat % 64)))))
    ∧ (wOp w = 0x15 → exec (.shri e) s = .next (s.stepped e ((s.engine e).setG (wRd w) (x >>> (m.toNat % 64)))))
    ∧ (wOp w = 0x16 → exec (.li e) s = .next (s.stepped e ((s.engine e).setG (wRd w) (m))))
    ∧ (wOp w = 0x17 → exec (.lih e) s = .next (s.stepped e ((s.engine e).setG (wRd w) ((m <<< 40) ||| (x &&& 0xFFFFFFFFFF))))))

/-- R186, SEL, BFX, BFI, POPC, CLZ and CRC. R181, R186, R193: what CMP, CMPI and PLOG leave in p[PD]. Where it goes beyond the rules named
it rests on the model's choices of log entries 111, 113. -/
def Obligations.BitAndPredicateResults : Prop :=
  (∀ (s : State) (e : Nat) (w x y : Word64), s.executes e .tenant w → x = s.g e (wRa w) → y = s.g e (wRb w) →
    (wOp w = 0x18 → exec (.sel e) s = .next (s.stepped e ((s.engine e).setG (wRd w) (if (s.engine e).pred (wRc w) then x else y))))
    ∧ (wOp w = 0x19 → exec (.bfx e) s = .next (s.stepped e ((s.engine e).setG (wRd w) (BitVec.ofNat 64 (x.toNat / 2 ^ wLo w % 2 ^ (wHi w + 1 - wLo w))))))
    ∧ (wOp w = 0x1A → ∃ r : Word64, exec (.bfi e) s = .next (s.stepped e ((s.engine e).setG (wRd w) r))
        ∧ ∀ i < 64, r.getLsbD i = if wLo w ≤ i ∧ i ≤ wHi w then y.getLsbD (i - wLo w) else x.getLsbD i)
    ∧ (wOp w = 0x1B → exec (.popc e) s = .next (s.stepped e ((s.engine e).setG (wRd w) (BitVec.ofNat 64 ((List.range 64).countP fun i => x.getLsbD i)))))
    ∧ (wOp w = 0x1C → ∃ n ≤ 64, exec (.clz e) s = .next (s.stepped e ((s.engine e).setG (wRd w) (BitVec.ofNat 64 n)))
        ∧ (∀ i < n, x.getLsbD (63 - i) = false) ∧ (n < 64 → x.getLsbD (63 - n) = true))
    ∧ (wOp w = 0x1D → exec (.crc e) s = .next (s.stepped e ((s.engine e).setG (wRd w)
        (BitVec.ofNat 64 (crcRun (x.toNat % 2 ^ 32) (leBytes (bitsAt w.toNat 16 4) y.toNat)))))))
  ∧ (∀ (s : State) (e : Nat) (w x y m : Word64) (q : Bool), s.executes e .tenant w → x = s.g e (wRa w) → y = s.g e (wRb w) →
    m = (BitVec.ofNat 34 w.toNat).signExtend 64 → q = (s.engine e).pred (wPc w) →
    (wOp w = 0x1E → exec (.cmp e) s = .next (s.stepped e ((s.engine e).setP (wPd w)
        ([condition (wCond w) x y, condition (wCond w) x y && q, condition (wCond w) x y || q].getD (wComb w) false))))
    ∧ (wOp w = 0x1F → exec (.cmpi e) s = .next (s.stepped e ((s.engine e).setP (wPd w)
        ([condition (wCondI w) x m, condition (wCondI w) x m && q, condition (wCondI w) x m || q].getD (wCombI w) false))))
    ∧ (wOp w = 0x84 → ∃ c, c = (wCond w).testBit (2 * ((s.engine e).pred (wRa w)).toNat + ((s.engine e).pred (wRb w)).toNat)
        ∧ exec (.plog e) s = .next (s.stepped e ((s.engine e).setP (wPd w) ([c, c && q, c || q].getD (wComb w) false)))))

/-- R189, R193: NOP and FENCE go on; TIME and EPOCH read the time base; BR, CALL, RET and LOOP set the PC. R189: EVWAIT takes a message or
the deadline, or waits; EVSUB subscribes; EVPOST reports. Where it goes beyond the rules named it rests on the model's choices of log
entries 112, 113, 117, 137. -/
def Obligations.FlowAndEventResults : Prop :=
  (∀ (s : State) (e : Nat) (w m : Word64) (x : Engine), s.executes e .tenant w → m = (BitVec.ofNat 40 w.toNat).signExtend 64 →
    x = { s.engine e with budget := (s.engine e).budget - 1 } →
    (wOp w = 0x01 → exec (.nop e) s = .next (s.stepped e (s.engine e)))
    ∧ (wOp w = 0x87 → exec (.fence e) s = .next (s.stepped e (s.engine e)))
    ∧ (wOp w = 0x53 → exec (.time e) s = .next (s.stepped e ((s.engine e).setG (wRd w) (s.reg TIM_NOW))))
    ∧ (wOp w = 0x54 → exec (.epoch e) s = .next (s.stepped e ((s.engine e).setG (wRd w) (s.reg SCH_EPOCH_NOW))))
    ∧ (wOp w = 0x80 → exec (.br e) s = .next ((s.charged e).setEngine e { x with pc := (BitVec.ofNat 64 x.pc + m).toNat }))
    ∧ (wOp w = 0x81 → exec (.call e) s = .next ((s.charged e).setEngine e
        { x.setG (wRd w) (BitVec.ofNat 64 (x.pc + 1)) with pc := (BitVec.ofNat 64 x.pc + m).toNat }))
    ∧ (wOp w = 0x82 → exec (.ret e) s = .next ((s.charged e).setEngine e { x with pc := (x.reg (wRa w)).toNat }))
    ∧ (wOp w = 0x83 → ∀ v, v = BitVec.ofNat 64 (((x.reg (wRa w)).toNat) - 1) → exec (.loop e) s = .next ((s.charged e).setEngine e
        { x.setG (wRa w) v with pc := if v = 0 then x.pc + 1 else (BitVec.ofNat 64 x.pc + m).toNat })))
  ∧ (∀ (s : State) (e : Nat) (w x y : Word64), x = s.g e (wRa w) → y = s.g e (wRb w) →
    (s.executes e .tenant w → wOp w = 0x50 →
      ((s.engine e).inbox ≠ [] → exec (.evwait e) s = .next (s.stepped e ((s.engine e).setG (wRd w) 1)))
      ∧ ((s.engine e).inbox = [] → y.toNat ≤ s.now → exec (.evwait e) s = .next (s.stepped e ((s.engine e).setG (wRd w) 0)))
      ∧ ((s.engine e).inbox = [] → s.now < y.toNat → exec (.evwait e) s
          = .next ((s.charged e).setBlocked e (.evwait (wRd w) 0 y.toNat))))
    ∧ (∀ rd sp d, (s.engine e).blocked = .evwait rd sp d → s.now < d → exec (.evwaitDeadline e) s = .next s)
    ∧ (∀ rd sp d, (s.engine e).running = true → (s.engine e).blocked = .evwait rd sp d → d ≤ s.now → exec (.evwaitDeadline e) s
        = .next (s.setEngine e { (s.engine e).setG rd 0 with blocked := .no, pc := (s.engine e).pc + 1 }))
    ∧ (s.executes e .operator w → wOp w = 0x51 → exec (.evsub e) s = .next { s.stepped e (s.engine e) with
        col := { s.col with subs := s.col.subs ++ [(e, x.toNat, y.toNat, bitsAt w.toNat 19 3)] } })
    ∧ (s.executes e .tenant w → wOp w = 0x52 →
      ((s.engine e).level = .tenant → exec (.evpost e) s = .next (((s.charged e).raise (0x0100 + e) 0 (y.setWidth 16)).advanced s e))
      ∧ ((s.engine e).level ≠ .tenant → bitsAt w.toNat 19 3 ≤ 4 → exec (.evpost e) s
          = .next (((s.charged e).raise (x.toNat % 8192) (bitsAt w.toNat 19 3) (y.setWidth 16)).advanced s e))
      ∧ ((s.engine e).level ≠ .tenant → 4 < bitsAt w.toNat 19 3 → exec (.evpost e) s = .next (s.stepped e (s.engine e)))))

/-- R187, LD, LDS and LDL: the bytes of the range behind the handle, zero- or sign-extended, or eight registers of a line. R187, ST and STL:
the low bytes of g[RT], or the eight registers from g[RT] on, lie at A; into the local space no other byte changes. R177, R183: an
access without a handle of the kind and with the rights it needs faults with 0x04, one that is not aligned with 0x03, one beyond the
space with 0x02. Where it goes beyond the rules named it rests on the model's choices of log entries 15, 107, 109, 111, 113. -/
def Obligations.LoadAndStoreResults : Prop :=
  (∀ (s : State) (e : Nat) (w : Word64) (h : Handle) (a n : Nat) (l : List Byte), s.executes e .tenant w →
    (s.engine e).handle (wHs w) = some h → h.kind ∈ [1, 2, 3, 4, 5, 9] ∨ (h.kind = 10 ∧ szBytes (wSz w) = 8 ∧ wOp w ≠ 0x23) →
    h.rights &&& 1 = 1 →
    a = (s.g e (wRa w) + (BitVec.ofNat 33 w.toNat).signExtend 64).toNat → n = szBytes (wSz w) → a % n = 0 → a + n ≤ h.size →
    s.readLost h a n = false → l = s.spaceBytes e h a n →
    (wOp w = 0x20 → exec (.ld e) s = .next (s.stepped e ((s.engine e).setG (wRd w) (BitVec.ofNat 64 (szValue (wSz w) l)))))
    ∧ (wOp w = 0x21 → exec (.lds e) s
        = .next (s.stepped e ((s.engine e).setG (wRd w) ((BitVec.ofNat (8 * n) (szValue (wSz w) l)).signExtend 64))))
    ∧ (wOp w = 0x23 → n = 64 ∧ exec (.ldl e) s = .next (s.stepped e
        ((List.range 8).foldl (fun (x : Engine) i => x.setG (wRd w + i) (BitVec.ofNat 64 (leAt l (8 * i) 8))) (s.engine e)))))
  ∧ (∀ (s : State) (e : Nat) (w : Word64) (h : Handle) (a n : Nat), s.executes e .tenant w →
    (s.engine e).handle (wHs w) = some h → h.kind ∈ [1, 2, 3, 4, 5, 9] ∨ (h.kind = 10 ∧ szBytes (wSz w) = 8 ∧ wOp w = 0x22) →
    h.rights &&& 2 = 2 → s.setLocked h = false →
    h.readOnly = false → a = (s.g e (wRa w) + (BitVec.ofNat 33 w.toNat).signExtend 64).toNat → n = szBytes (wSz w) → a % n = 0 →
    a + n ≤ h.size →
    ∀ l, l = (if wOp w = 0x24 then (List.range 8).flatMap fun i => leBytes 8 (s.g e (wRd w + i)).toNat
      else szStore (wSz w) (s.g e (wRd w)).toNat) →
    l.length = n
    ∧ (wOp w = 0x22 → exec (.st e) s = .next (((s.charged e).putSpace e h a l).setPc e ((s.engine e).pc + 1)))
    ∧ (wOp w = 0x24 → wRd w ≤ 56 → exec (.stl e) s = .next (((s.charged e).putSpace e h a l).setPc e ((s.engine e).pc + 1)))
    ∧ (wOp w = 0x24 → 56 < wRd w → ∃ k : List Byte, k.length = n ∧ (∀ i < 8, wRd w + i < 64 →
          slice k (8 * i) 8 = leBytes 8 (s.g e (wRd w + i)).toNat)
        ∧ exec (.stl e) s = .next (({ (s.charged e).putSpace e h a k with fresh := s.fresh + 8 } : State).setPc e ((s.engine e).pc + 1)))
    ∧ (h.kind = 1 → (s.engine e).localMem.wf = true → ((s.charged e).putSpace e h a l).setPc e ((s.engine e).pc + 1)
          = s.stepped e { s.engine e with localMem := (s.engine e).localMem.writeBytes a l }
        ∧ ((s.engine e).localMem.writeBytes a l).readBytes a n = l
        ∧ ∀ c, c < a ∨ a + n ≤ c → ((s.engine e).localMem.writeBytes a l).read c = (s.engine e).localMem.read c))
  ∧ (∀ (s : State) (e a n need : Nat) (w : Word64) (i : Instr), (wOp w, i) ∈ [(0x20, Instr.ld e), (0x21, .lds e), (0x22, .st e), (0x23, .ldl e),
      (0x24, .stl e), (0x25, .cas e), (0x26, .fadd e)] → s.executes e .tenant w →
    need = (if wOp w ∈ [0x20, 0x21, 0x23] then 1 else if wOp w ∈ [0x22, 0x24] then 2 else 3) →
    a = (s.g e (wRa w) + (BitVec.ofNat 33 w.toNat).signExtend 64).toNat → n = szBytes (wSz w) →
    ((s.engine e).handle (wHs w) = none → exec i s = .next ((s.charged e).faultProgram e 0x04))
    ∧ ∀ h, (s.engine e).handle (wHs w) = some h →
      (h.rights &&& need ≠ need → exec i s = .next ((s.charged e).faultProgram e 0x04))
      ∧ (h.kind ∉ [1, 2, 3, 4, 5, 9, 10] → exec i s = .next ((s.charged e).faultProgram e 0x04))
      ∧ (h.rights &&& need = need → h.kind ∈ [1, 2, 3, 4, 5, 9] →
        (a % n ≠ 0 → exec i s = .next ((s.charged e).faultProgram e 0x03))
        ∧ (a % n = 0 → need ≠ 1 → s.setLocked h = true ∨ h.readOnly = true → exec i s = .next ((s.charged e).faultProgram e 0x04))
        ∧ (a % n = 0 → s.setLocked h = false → h.readOnly = false → h.size < a + n → exec i s = .next ((s.charged e).faultProgram e 0x02))))

/-- R187, CAS and FADD: the old value in g[RT], the new one at A; CAS writes only where the old value is that of g[RT]. R104, R187: MCOPY
copies a range; SEAL stores the CRC-32C of a range at IMM, where it lies in the range as if those bytes were zero, and leaves it in
g[RD]. R147, R187, TLOOK: control word and hops of a route entry, of the active or the shadow bank, in five registers. R155, R185, R187:
TINST and TSTAGE put their tag into g[RD] and hand the install set or the gambit record on; they stay where they are while 256 tags are
outstanding. Where it goes beyond the rules named it rests on the model's choices of log entries 15, 110, 113, 114, 137, 138. -/
def Obligations.TableAndCopyResults : Prop :=
  (∀ (s : State) (e : Nat) (w : Word64) (h : Handle) (a n old : Nat), s.executes e .tenant w →
    (s.engine e).handle (wHs w) = some h → h.kind ∈ [1, 2, 3, 4, 5, 9] → h.rights &&& 3 = 3 → s.setLocked h = false →
    h.readOnly = false → a = (s.g e (wRa w) + (BitVec.ofNat 33 w.toNat).signExtend 64).toNat → n = szBytes (wSz w) → a % n = 0 →
    a + n ≤ h.size → s.readLost h a n = false → old = szValue (wSz w) (s.spaceBytes e h a n) →
    (wOp w = 0x25 → old = (s.g e (wRd w)).toNat % 2 ^ (8 * n) → exec (.cas e) s
        = .next ((((s.charged e).putSpace e h a (szStore (wSz w) (s.g e (wRd w + 1)).toNat)).putG e (wRd w) (BitVec.ofNat 64 old)).setPc e
            ((s.engine e).pc + 1)))
    ∧ (wOp w = 0x25 → old ≠ (s.g e (wRd w)).toNat % 2 ^ (8 * n) → exec (.cas e) s
        = .next (s.stepped e ((s.engine e).setG (wRd w) (BitVec.ofNat 64 old))))
    ∧ (wOp w = 0x26 → exec (.fadd e) s
        = .next ((((s.charged e).putSpace e h a (szStore (wSz w) (old + (s.g e (wRd w)).toNat))).putG e (wRd w) (BitVec.ofNat 64 old)).setPc e
            ((s.engine e).pc + 1))))
  ∧ (∀ (s : State) (e : Nat) (w : Word64) (h d : Handle) (a b n f : Nat), s.executes e .tenant w →
    (s.engine e).handle (wHa w) = some h → h.kind ∈ [1, 2, 3, 4, 5, 9] → a = (s.g e (wRa w)).toNat → n = (s.g e (wRb w)).toNat →
    a + n ≤ h.size → s.readLost h a n = false →
    (wOp w = 0x27 → h.rights &&& 1 = 1 → (s.engine e).handle (wHd w) = some d → d.kind ∈ [1, 2, 3, 4, 5, 9] → d.rights &&& 2 = 2 →
      s.setLocked d = false → d.readOnly = false → b = (s.g e (wRd w)).toNat → a % 64 = 0 → b % 64 = 0 → n % 64 = 0 →
      n ≤ 1048576 → b + (s.spaceBytes e h a n).length ≤ d.size →
      exec (.mcopy e) s = .next (((s.charged e).putSpace e d b (s.spaceBytes e h a n)).setPc e ((s.engine e).pc + 1)))
    ∧ (wOp w = 0x29 → h.rights &&& 3 = 3 → s.setLocked h = false → h.readOnly = false → f = wImmH w → a + f + 4 ≤ h.size →
      ∀ c, c = crc32c ((splice (s.spaceBytes e h a n) f (zeros 4)).take n) →
      exec (.seal e) s = .next ((((s.charged e).putSpace e h (a + f) (leBytes 4 c)).putG e (wRd w) (BitVec.ofNat 64 c)).setPc e
        ((s.engine e).pc + 1))))
  ∧ (∀ (s : State) (e : Nat) (w : Word64) (h : Handle) (r : BitVec 512), s.executes e .operator w → wOp w = 0x28 →
    (s.engine e).handle (wHa w) = some h → h.kind = 3 → h.rights &&& 1 = 1 → 6 ≤ h.obj →
    r = (if (bitsAt w.toNat 19 1) = 1 then s.rte.shadow.getD h.obj {} else s.rte.copy.getD h.obj {}).routes.getD
      ((s.g e (wRa w)).toNat % 65536) 0 →
    exec (.tlook e) s = .next (s.stepped e ((List.range 5).foldl
      (fun (x : Engine) k => x.setG (wRd w + k) (BitVec.ofNat 64 (r.toNat / 2 ^ (448 - 64 * k)))) (s.engine e))))
  ∧ (∀ (s t : State) (e n : Nat) (w : Word64) (h : Handle), s.executes e .operator w → (s.engine e).handle (wHa w) = some h →
    n = (s.engine e).nextTag →
    (wOp w = 0x2A → h.kind = 9 → h.rights &&& 8 = 8 → s.setLocked h = false →
      (256 ≤ (s.engine e).outstanding → exec (.tinst e) s = .next s)
      ∧ ((s.engine e).outstanding < 256 → t = (s.charged e).openTag e (wRd w) { kind := .install, handles := [wHa w] } →
        ∀ x sets, s.sets.get h.obj = some x → t.parseSet (t.spaceBytes e h 0 h.size) = some sets → exec (.tinst e) s
          = .next ((({ t with sets := t.sets.set h.obj { x with locked := true } } : State).submitInstall sets (.tag e n h.obj)).setPc e
              ((s.engine e).pc + 1))))
    ∧ (wOp w = 0x2B → h.kind ∈ [1, 2, 3, 4, 5, 9] → h.rights &&& 9 = 9 → ∀ a l, a = (s.g e (wRa w)).toNat → a + 64 ≤ h.size →
      s.readLost h a 64 = false → s.spaceBytes e h a 64 = l → ∀ m, m = max 64 (leAt l 24 4) → a + m ≤ h.size →
      s.readLost h a m = false → ∀ r, r = recordOf (s.spaceBytes e h a m) → recordOk (s.spaceBytes e h a m) = true →
      (s.engine e).outstanding < 256 → t = (s.charged e).openTag e (wRd w) { kind := .stage, handles := [wHa w] } →
      t.sectionsFit r.1 r.2.1 = true →
      exec (.tstage e) s = .next ((t.takeGambit (t.stagedRecord (s.spaceBytes e h a m)) r.2.1 r.2.2 (some (e, n))).setPc e ((s.engine e).pc + 1))))

/-- R188, SEND: the packet of the message buffer leaves on the engine's stream; with MOD[3] the engine blocks until it is answered, without
it g[RD] holds a tag; a malformed header gives 0xF6 and nothing leaves. R99, R188: RREAD and RWRITE send a REG_READ or a REG_WRITE to
the agent g[RA] names and block until its answer. Where it goes beyond the rules named it rests on the model's choices of log entries
14, 15, 113, 114, 137. -/
def Obligations.SendAndRegisterResults : Prop :=
  (∀ (s : State) (e n : Nat) (w : Word64) (h : Handle) (p : Packet), s.executes e .tenant w → wOp w = 0x30 →
    (s.engine e).handle (wHa w) = some h → h.kind = 2 → h.rights &&& 5 = 5 → p = s.bufferPacket e h.obj →
    ((s.engine e).level ≠ .tenant ∨ s.tenantSend e p.hdr = true) → n = (s.engine e).nextTag →
    p.hdr.src = s.fid ∧ p.hdr.hops = 63 ∧ p.hdr.stream = BitVec.ofNat 16 (0xFF00 + e) ∧ p.hdr.partition = (s.engine e).partition
    ∧ (headerFault p.hdr = none → unanswered p.hdr = false →
      (wMod3 w = true → exec (.send e) s = .next (((s.charged e).sendProgram p (.sendBlock e)).setBlocked e (.answer (wRd w) (wSp w) false)))
      ∧ (wMod3 w = false → (s.engine e).outstanding < 256 → exec (.send e) s = .next
          ((((s.charged e).openTag e (wRd w) { kind := .send, handles := [wHa w] }).sendProgram p (.sendTag e n)).setPc e
            ((s.engine e).pc + 1))))
    ∧ (headerFault p.hdr = none → unanswered p.hdr = true → wMod3 w = true → exec (.send e) s
        = .next (((((s.charged e).sendProgram p .other).putG e (wRd w) 0).putP e (wSp w) true).setPc e ((s.engine e).pc + 1)))
    ∧ ((headerFault p.hdr).isSome = true → wMod3 w = true → exec (.send e) s
        = .next (s.stepped e (((s.engine e).setG (wRd w) 0xF6).setP (wSp w) false))))
  ∧ (∀ (s : State) (e : Nat) (w : Word64) (request : BitVec 8 → List Byte → Packet), s.executes e .operator w →
    request = (fun typ payload => {
      hdr := {
        dest := (s.g e (wRa w)).setWidth 32, src := s.fid, cls := .control, typ := typ, length := lenOf payload
        partition := (s.engine e).partition, addr := BitVec.ofNat 57 (wImmH w), stream := BitVec.ofNat 16 (0xFF00 + e) }
      payload := payload }) →
    (wOp w = 0x33 → exec (.rread e) s = .next (((s.charged e).sendProgram (request 0x29 []) (.sendBlock e)).setBlocked e (.answer (wRd w) (wSp w) true)))
    ∧ (wOp w = 0x34 → exec (.rwrite e) s
        = .next (((s.charged e).sendProgram (request 0x30 (leBytes 8 (s.g e (wRb w)).toNat)) (.sendBlock e)).setBlocked e (.answer (wRd w) (wSp w) false))))

/-- R185, R188: WAIT takes status and result of a tag once, answers 0xF4 for a tag that is none, and blocks while it is outstanding; RECV
moves the oldest message into the buffer, whose bytes behind it stay, or answers 0. R183, R185, R190, R224, R245: the completion of a
tag: a blocked WAIT on it takes status and result and goes on, otherwise it is kept with the tag; an image run ends when its image
executes it and two instances agree, a GLAUNCH by the copies of its members' records. Where it goes beyond the rules named it rests on
the model's choices of log entries 51, 52, 113. -/
def Obligations.TagResults : Prop :=
  (∀ (s : State) (e : Nat) (w : Word64), s.executes e .tenant w →
    (wOp w = 0x31 → ∀ i, i = (s.g e (wRa w)).toNat →
      ((s.engine e).tags.get i = none → exec (.wait e) s = .next (s.stepped e
        (((((s.engine e).setG (wRd w) 0xF4).setG (wRd w + 1) 0)).setP (wSp w) false)))
      ∧ (∀ g st r, (s.engine e).tags.get i = some g → g.ready = some (st, r) → exec (.wait e) s = .next (s.stepped e
        (((({ s.engine e with tags := (s.engine e).tags.erase i } : Engine).setG (wRd w) (BitVec.ofNat 64 st)).setG (wRd w + 1) r).setP
          (wSp w) (st == 0))))
      ∧ (∀ g, (s.engine e).tags.get i = some g → g.ready = none → exec (.wait e) s
        = .next ((s.charged e).setBlocked e (.wait i (wRd w) (wSp w)))))
    ∧ (wOp w = 0x32 → ∀ h, (s.engine e).handle (wHd w) = some h → h.kind = 2 → h.rights &&& 2 = 2 →
      ((s.engine e).inbox = [] → exec (.recv e) s = .next (s.stepped e (((s.engine e).setG (wRd w) 0).setP (wSp w) false)))
      ∧ (∀ v m rest x, (s.engine e).inbox = (v, m) :: rest → x = ((({ s.engine e with
            inbox := rest, bufs := (s.engine e).bufs.set h.obj (((s.engine e).bufs.getD h.obj []).writeBytes 0 (m.take 4128)) } : Engine).setG
          (wRd w) (BitVec.ofNat 64 (m.take 4128).length)).setP (wSp w) true) →
        (e ≠ 0 → exec (.recv e) s = .next (s.stepped e x))
        ∧ (e = 0 → exec (.recv e) s = .next ((((s.charged 0).setEngine 0 { x with budget := (s.engine 0).budget - 1 }).flushLre0).setPc 0
            ((s.engine 0).pc + 1))))))
  ∧ (∀ (s : State) (e tag status : Nat) (result : Word64) (g : Tag), e ≠ 0xFF → e ≠ 0xFE →
    (s.engine e).tags.get tag = some g → g.ready = none →
    (∀ i j h a n d, g.kind = .imgrun i j h a n d →
      (s.runsNow e tag i = false → exec (.tagComplete e tag status result) s = .next s)
      ∧ (s.runsNow e tag i = true → exec (.tagComplete e tag status result) s = .next (s.endRun e tag i j h a n d)))
    ∧ (∀ i op, g.kind = .collective i op →
      (s.launchResult i op = none → exec (.tagComplete e tag status result) s = .next s)
      ∧ ∀ st r, s.launchResult i op = some (st, r) → exec (.tagComplete e tag status result) s
          = .next ((s.dropLaunchCopies i op).completeTag e tag st r))
    ∧ ((∀ i, g.kind ≠ .kvmove i) → (∀ i j h a n d, g.kind ≠ .imgrun i j h a n d) → (∀ i op, g.kind ≠ .collective i op) →
      ((s.engine e).blocked = .no → ∃ t, exec (.tagComplete e tag status result) s = .next t
      ∧ (t.engine e).tags.get tag = some { g with ready := some (status, result) } ∧ (t.engine e).pc = (s.engine e).pc
      ∧ (t.engine e).g = (s.engine e).g)
    ∧ (∀ rd sp, (s.engine e).blocked = .wait tag rd sp → 1 ≤ rd → ∃ t, exec (.tagComplete e tag status result) s = .next t
      ∧ (t.engine e).blocked = .no ∧ (t.engine e).pc = (s.engine e).pc + 1
      ∧ (t.engine e).g = ((((s.engine e).setG rd (BitVec.ofNat 64 status)).setG (rd + 1) result)).g
      ∧ (t.engine e).p = ((s.engine e).setP sp (status == 0)).p)))

/-- R190: GLAUNCH and IMGRUN put a tag into g[RD] and hand the operation to the group or the image; GREL releases; GCANCEL ends the tag with
0xF3; GRESV answers or blocks until the grant. Where it goes beyond the rules named it rests on the model's choices of log entries 15,
96, 113, 114, 116, 119, 137, 165. -/
def Obligations.CollectiveClassResults : Prop :=
  ∀ (s : State) (e n : Nat) (w : Word64) (h : Handle), s.executes e .tenant w → n = (s.engine e).nextTag →
    (s.engine e).handle (wHb w) = some h →
    (wOp w = 0x40 → h.kind = 8 → h.rights &&& 4 = 4 → ∀ m a d, (s.engine e).handle (wHa w) = some m → m.kind ∈ [1, 2, 3, 4, 5, 9] →
      m.rights &&& 1 = 1 → a = (s.g e (wRa w)).toNat → a + 64 ≤ m.size → s.readLost m a 64 = false → d = s.spaceBytes e m a 64 →
      (s.group h.obj).isSome = true → (s.engine e).outstanding < 256 → exec (.glaunch e) s = .next
        ((((s.charged e).openTag e (wRd w) { kind := .collective h.obj (dOpSeq d), handles := [wHa w, wHb w] }).glaunch h.obj d).setPc e
          ((s.engine e).pc + 1)))
    ∧ (wOp w = 0x41 → h.kind = 8 → h.rights &&& 4 = 4 →
      (∀ t, (s.charged e).gresv e h.obj = (t, none) → exec (.gresv e) s = .next (t.setBlocked e (.gresv h.obj (wRd w) (wSp w))))
      ∧ ∀ t st, (s.charged e).gresv e h.obj = (t, some st) → exec (.gresv e) s
          = .next (((t.putG e (wRd w) (BitVec.ofNat 64 st)).putP e (wSp w) (st == 0)).setPc e ((s.engine e).pc + 1)))
    ∧ (wOp w = 0x42 → h.kind = 8 → h.rights &&& 4 = 4 → exec (.grel e) s = .next (((s.charged e).grel h.obj).setPc e ((s.engine e).pc + 1)))
    ∧ (wOp w = 0x43 → ∀ i, i = (s.g e (wRa w)).toNat →
      ((s.engine e).tags.get i = none → exec (.gcancel e) s = .next (s.stepped e ((s.engine e).setG (wRd w) 0xF4)))
      ∧ (∀ g, (s.engine e).tags.get i = some g → g.ready ≠ none ∨ (∀ j op, g.kind ≠ .collective j op) →
          exec (.gcancel e) s = .next (s.stepped e ((s.engine e).setG (wRd w) 0xF4)))
      ∧ ∀ g op l, (s.engine e).tags.get i = some { kind := .collective g op, handles := l, ready := none } → exec (.gcancel e) s
          = .next ((((((s.charged e).gcancel g op).dropLaunchCopies g op).completeTag e i 0xF3 0).putG e (wRd w) 0).setPc e
              ((s.engine e).pc + 1)))
    ∧ (wOp w = 0x44 → ∀ i d a b im, (s.engine e).handle (wHa w) = some i → i.kind = 7 → (s.engine e).handle (wHd w) = some d →
      h.kind ∈ [1, 2, 3, 4, 5, 9] → h.rights &&& 1 = 1 → d.kind ∈ [1, 2, 3, 4, 5, 9] → d.rights &&& 2 = 2 →
      a = (s.g e (wRa w)).toNat → b = (s.g e (wRb w)).toNat → a + b ≤ h.size → s.readLost h a b = false →
      s.sq.images.get i.obj = some im → wImmH w < im.entries → (s.engine e).outstanding < 256 →
      exec (.imgrun e) s = .next ({ s.stepped e (({ s.engine e with tags := (s.engine e).tags.set n { kind := .imgrun i.obj (wImmH w) h a b d, handles := [wHa w, wHb w, wHd w] }, nextTag := n + 1 } : Engine).setG (wRd w) (BitVec.ofNat 64 n)) with
        sq := { s.sq with images := s.sq.images.set i.obj { im with runs := im.runs ++ [(e, n)] } } }))

/-- R191: PLOOK and PLOAD read the master table and the last window's tokens, KVLOOK and KVPUT a directory line, KVMOVE starts a move under
a tag, FOOT writes the shortfall report. Where it goes beyond the rules named it rests on the model's choices of log entries 53, 54,
113, 118. -/
def Obligations.PlacementClassResults : Prop :=
  ∀ (s : State) (e n x y : Nat) (w : Word64) (h : Handle), n = (s.engine e).nextTag → x = (s.g e (wRa w)).toNat → y = (s.g e (wRb w)).toNat →
    (s.executes e .tenant w → wOp w = 0x60 → (s.engine e).handle (wHa w) = some h → h.kind = 11 → h.rights &&& 1 = 1 →
      exec (.plook e) s = .next (s.stepped e ((List.range 8).foldl (fun (g : Engine) k => g.setG (wRd w + k)
        ((expertRegs (s.expertOf h.obj (x % 65536) (y % 4096))).getD k 0)) (s.engine e))))
    ∧ (s.executes e .tenant w → wOp w = 0x61 → (s.engine e).handle (wHa w) = some h → h.kind = 11 → h.rights &&& 1 = 1 →
      ∀ v, v = ((s.expertOf h.obj (x % 65536) (y % 4096)).map (·.lastWindow)).getD 0 → exec (.pload e) s = .next (s.stepped e
        ((s.engine e).setG (wRd w) (BitVec.ofNat 64 (if (s.engine e).level = .tenant then v / 4096 * 4096 else v)))))
    ∧ (s.executes e .tenant w → wOp w = 0x62 →
      (∀ i p, s.findPage x y = some (i, p) → ((s.engine e).level ≠ .tenant ∨ p.partition = (s.engine e).partition) →
        exec (.kvlook e) s = .next (s.stepped e (((List.range p.words.length).foldl
          (fun (g : Engine) k => g.setG (wRd w + k) (BitVec.ofNat 64 (p.words.getD k 0))) (s.engine e)).setP (wSp w) true)))
      ∧ (s.findPage x y = none → exec (.kvlook e) s = .next (s.stepped e (((List.range 8).foldl
          (fun (g : Engine) k => g.setG (wRd w + k) 0) (s.engine e)).setP (wSp w) false))))
    ∧ (s.executes e .operator w → wOp w = 0x63 → ∀ i, s.pageLine x y = some i → exec (.kvput e) s
        = .next ((s.stepped e (s.engine e)).setDirLine i ((List.range 8).flatMap fun k => leBytes 8 (s.g e (wRd w + k)).toNat)))
    ∧ (s.executes e .operator w → wOp w = 0x64 → (s.engine e).handle (wHa w) = some h → h.kind ∈ [1, 2, 3, 4, 5, 9] →
      h.rights &&& 1 = 1 → 8 ≤ h.size → s.readLost h 0 8 = false → ∀ i p l, s.findPage x y = some (i, p) → p.state = 1 ∨ p.state = 3 →
      l = s.spaceBytes e h 0 8 → (s.engine e).outstanding < 256 → exec (.kvmove e) s
        = .next ((((s.charged e).openTag e (wRd w) { kind := .kvmove i, handles := [wHa w] }).startMove i (leAt l 6 2) (leAt l 0 4)
            (some (e, n))).setPc e ((s.engine e).pc + 1)))
    ∧ (s.executes e .tenant w → wOp w = 0x65 → (s.engine e).handle (wHa w) = some h → h.kind ∈ [1, 2, 3, 4, 5, 9] →
      h.rights &&& 1 = 1 → ∀ d fp items r, (s.engine e).handle (wHd w) = some d → d.kind ∈ [1, 2, 3, 4, 5, 9] → d.rights &&& 2 = 2 →
      s.setLocked d = false → d.readOnly = false → items = (s.charged e).footItems (s.engine e).partition.toNat fp →
      r = (s.charged e).footReport (s.engine e).partition.toNat fp items → r.length ≤ d.size →
      exec (.foot e fp) s = .next ((((s.charged e).putSpace e d 0 r).putP e (wSp w) items.isEmpty).setPc e ((s.engine e).pc + 1)))

/-- R177, R192: HOPEN, HCLOSE, HDUP and HINFO. Rights only narrow. Where it goes beyond the rules named it rests on the model's choices of
log entries 24, 108, 113, 114. -/
def Obligations.HandleResults : Prop :=
  ∀ (s : State) (e : Nat) (w : Word64) (x : Engine), s.executes e .tenant w → x = s.engine e →
    (wOp w = 0x70 → ∀ r, r = (s.charged e).openHandle x.level x.partition.toNat (wImmH w % 16) (s.g e (wRa w)).toNat (wImmH w / 16) →
      (∀ h, r = .handle h → exec (.hopen e) s = .next (s.stepped e (({ x with h := x.h.set (wHd w) h } : Engine).setP (wSp w) true)))
      ∧ (r = .absent → exec (.hopen e) s = .next (s.stepped e (({ x with h := x.h.erase (wHd w) } : Engine).setP (wSp w) false)))
      ∧ (r = .denied → exec (.hopen e) s = .next ((s.charged e).suppress e w)))
    ∧ (wOp w = 0x71 → wHa w ≠ 0 → (x.handle (wHa w)).isSome = true →
      (x.handleBusy (wHa w) = true → exec (.hclose e) s = .next s)
      ∧ (x.handleBusy (wHa w) = false → exec (.hclose e) s = .next (s.stepped e { x with h := x.h.erase (wHa w) })))
    ∧ (∀ h, x.handle (wHa w) = some h →
      (wOp w = 0x72 → wHd w ≠ 0 → exec (.hdup e) s
        = .next (s.stepped e { x with h := x.h.set (wHd w) { h with rights := h.rights &&& (wImmH w / 16) } }))
      ∧ (wOp w = 0x73 → exec (.hinfo e) s = .next (s.stepped e ((x.setG (wRd w)
          (BitVec.ofNat 64 (h.kind * 2 ^ 60 + h.rights % 16 * 2 ^ 56 + levelRank h.level * 2 ^ 54 + h.partition.toNat * 2 ^ 42))).setG
          (wRd w + 1) (BitVec.ofNat 64 h.size)))))

/-- R192, R331, R334: KGEN makes a key and a handle to it, KWRAP writes the 80-byte blob, KINST installs under a tag, KZERO destroys the key
and closes the handle. R192, R349, R352: MEXT extends a measurement register with the digest of a range; ZFILL zeroes a space and
completes with the bytes verified; LCADV takes the life cycle forward, never back, and not while VPP_FUSE is out of range (R449) or
fewer than three arbiters vote (R400), with its status predicate, and waits while a scrub runs. Where it goes beyond the rules named it
rests on the model's choices of log entries 73, 113, 114, 115, 120, 142. -/
def Obligations.KeyAndVendorResults : Prop :=
  (∀ (s : State) (e n : Nat) (w : Word64), s.executes e .tenant w → n = (s.engine e).nextTag →
    (wOp w = 0x74 → wHd w ≠ 0 → wImmH w ≤ 2 → s.sec.keys.length < 8192 → s.keysOf (s.engine e).partition.toNat < 256 →
      ∃ t, exec (.kgen e) s = .next t
        ∧ t.sec.keys = s.sec.keys.set s.sec.nextKey {
          typ := wImmH w, partition := (s.engine e).partition, level := (s.engine e).level
          salt := if wImmH w = 1 then s.free.setWidth 32 else 0 }
        ∧ t.sec.nextKey = s.sec.nextKey + 1
        ∧ t.engine e = { s.engine e with
          budget := (s.engine e).budget - 1, pc := (s.engine e).pc + 1
          h := (s.engine e).h.set (wHd w) ⟨6, s.sec.nextKey, 15, (s.engine e).level, (s.engine e).partition, Config.objectSize 6 s.sec.nextKey⟩ })
    ∧ (∀ h k, (s.engine e).handle (wHa w) = some h → h.kind = 6 → s.sec.keys.get h.obj = some k →
      (wOp w = 0x75 → ∀ h2 k2 d a u bl, (s.engine e).handle (wHb w) = some h2 → h2.kind = 6 → s.sec.keys.get h2.obj = some k2 →
        (s.engine e).handle (wHd w) = some d → d.kind ∈ [1, 2, 3, 4, 5, 9] → d.rights &&& 2 = 2 → s.setLocked d = false →
        d.readOnly = false → a = (s.g e (wRa w)).toNat → (s.charged e).wrapKey h.obj h2.obj = (u, bl) → a + bl.length ≤ d.size →
        exec (.kwrap e) s = .next (((u.putSpace e d a bl).putG e (wRd w) 80).setPc e ((s.engine e).pc + 1)))
      ∧ (wOp w = 0x76 → ((s.engine e).level ≠ .tenant ∨ wModHi w = 2) → (s.engine e).outstanding < 256 → ∀ u ok,
        ((s.charged e).openTag e (wRd w) { kind := .kinst, handles := [wHa w] }).kinst h.obj (wModHi w) (s.g e (wRa w)).toNat
          (s.g e (wRb w)).toNat (s.g e (wRb w + 1)).toNat = (u, ok) →
        exec (.kinst e) s = .next ((u.completeTag e n (if ok then 0 else 0xF2) 0).setPc e ((s.engine e).pc + 1)))
      ∧ (wOp w = 0x77 → (s.engine e).handleBusy (wHa w) = false → exec (.kzero e) s
        = .next ((((s.charged e).zeroKey h.obj).putH e (wHa w) none).setPc e ((s.engine e).pc + 1)))))
  ∧ (∀ (s : State) (e n : Nat) (w : Word64) (h : Handle), s.executes e .vendor w → n = (s.engine e).nextTag →
    (wOp w = 0x78 → (s.engine e).handle (wHa w) = some h → h.kind ∈ [1, 2, 3, 4, 5, 9] → h.rights &&& 1 = 1 → ∀ i b l,
      i = (s.g e (wRa w)).toNat → b = (s.g e (wRb w)).toNat → i < 8 → b ≤ h.size → s.readLost h 0 b = false → l = s.spaceBytes e h 0 b →
      exec (.mext e) s = .next { s.stepped e (s.engine e) with
        sec := { s.sec with meas := listSet s.sec.meas i (extendDigest (s.sec.meas.getD i 0) (sha384 l)) } })
    ∧ (wOp w = 0x79 → (s.engine e).handle (wHa w) = some h → h.kind ∈ [1, 2, 3, 4, 5, 9] → h.rights &&& 2 = 2 →
      s.setLocked h = false → h.readOnly = false → (s.engine e).outstanding < 256 → exec (.zfill e) s
        = .next (((((s.charged e).openTag e (wRd w) { kind := .zfill, handles := [wHa w] }).zeroSpace e h).completeTag e n 0
            (BitVec.ofNat 64 h.size)).setPc e ((s.engine e).pc + 1)))
    ∧ (wOp w = 0x7A → ∀ v, v = (s.g e (wRa w)).toNat →
      (0 < s.scrubsActive → 3 ≤ s.voters → s.sec.lifeCycle < v → (∀ p ∈ s.sec.parts, p.2.state = 0) → exec (.lcadv e) s = .next s)
      ∧ (s.scrubsActive = 0 ∨ s.voters < 3 ∨ v ≤ s.sec.lifeCycle ∨ (∃ p ∈ s.sec.parts, p.2.state ≠ 0) →
        ∃ t, exec (.lcadv e) s = .next t ∧ (t.engine e).pc = (s.engine e).pc + 1
        ∧ ∀ ok, (ok = true ↔ 3 ≤ s.voters ∧ 0x1A53 ∉ s.pwr.railsOut ∧ s.sec.lifeCycle < v ∧ v ≤ 3 ∧ ∀ p ∈ s.sec.parts, p.2.state = 0) →
          t.sec.lifeCycle = (if ok then v else s.sec.lifeCycle) ∧ (wSp w ≠ 0 → (t.engine e).pred (wSp w) = ok)
          ∧ (3 ≤ s.voters → 0x1A53 ∈ s.pwr.railsOut → t.led.securitySeq = s.led.securitySeq + 1))))

/-! ## Package, agents, time -/

/-- R15: an item in sequence is delivered once and kept at its source until acknowledged, and so are those before it that are still on their
way; a copy is dropped; one ahead of its turn is held; a failed router moves its pairs to the second attachment and reissues what is
kept, oldest first; a pair first used after that starts on the attachment whose path has no failed router. R31, R448, R460: supplies and
sensors out of range are recorded and lapse the figures; a brown-out and a thermal trip close the gates, and a rail back in range starts
its 10 ms. R21, R35, R417, R429: the ramping quarter is on and tested when its ramp is done, its failing squares are excluded, and at
bring-up it is gated again; a quarter that stands without a context for GATE_MS is gated and loses its test. Where it goes beyond the
rules named it rests on the model's choices of log entries 19, 123, 174. -/
def Obligations.PackageResults : Prop :=
  (∀ (s : State) (src dst seq : Nat) (data : Word64) (p : NocPair), p = s.nocPair src dst → p.src = src → p.dst = dst →
    (p.held = [] → seq = p.delivered.length → p.nextSeq ≤ seq → (∀ x ∈ p.kept, x.1 < p.nextSeq) →
      ∃ t, exec (.nocItemArrive src dst seq data) s = .next t
      ∧ t.nocPair src dst = { p with
          nextSeq := seq + 1, delivered := p.delivered ++ [data]
          kept := p.kept ++ (List.range (seq + 1 - p.nextSeq)).map fun i => (p.nextSeq + i, if p.nextSeq + i = seq then some data else none) }
      ∧ t = { s with noc := t.noc } ∧ t.noc.routersDown = s.noc.routersDown)
    ∧ (seq < p.delivered.length → seq < p.nextSeq → ∃ t, exec (.nocItemArrive src dst seq data) s = .next t
      ∧ (t.nocPair src dst).delivered = p.delivered ∧ (t.nocPair src dst).held = p.held ∧ (t.nocPair src dst).nextSeq = p.nextSeq
      ∧ t = { s with noc := t.noc })
    ∧ (p.delivered.length < seq → p.nextSeq ≤ seq → p.held = [] → ∃ t, exec (.nocItemArrive src dst seq data) s = .next t
      ∧ (t.nocPair src dst).delivered = p.delivered ∧ (t.nocPair src dst).held = [(seq, data)] ∧ (seq, some data) ∈ (t.nocPair src dst).kept
      ∧ (∀ i, p.nextSeq ≤ i → i < seq → (i, none) ∈ (t.nocPair src dst).kept) ∧ t = { s with noc := t.noc })
    ∧ (∃ t, exec (.nocItemAck src dst seq) s = .next t
      ∧ t.nocPair src dst = { p with kept := p.kept.filter fun x => x.1 != seq } ∧ t = { s with noc := t.noc })
    ∧ (∀ cf, ∃ t, exec (.nocRouterFail cf) s = .next t ∧ cf ∈ t.noc.routersDown ∧ t = { s with noc := t.noc }
      ∧ t.noc.pairs = s.noc.pairs.map fun q => if cf ∈ diePath q.src q.dst q.second then
          { q with second := true, reissued := q.reissued ++ q.kept } else q)
    ∧ ((∀ q ∈ s.noc.pairs, q.src ≠ src ∨ q.dst ≠ dst) → (p.second = true ↔ ∃ cf ∈ diePath src dst false, cf ∈ s.noc.routersDown)))
  ∧ (∀ (s : State) (source rail celsius : Nat),
    (∃ t, exec (.supplyOutOfRange source) s = .next t ∧ source ∈ t.pwr.railsOut ∧ (0x0009, source) ∈ t.lapses
      ∧ t.pwr.held = s.pwr.held ∧ t.pwr.pwrgd = s.pwr.pwrgd ∧ t.out = s.out)
    ∧ (∃ t, exec (.supplyBackInRange source) s = .next t ∧ source ∉ t.pwr.railsOut ∧ source ∉ t.pwr.sensorsOut ∧ t.out = s.out
      ∧ (s.pwr.held = true → (∀ r ∈ s.pwr.brownRails, r + 0x1A40 = source) → t.pwr.brownBackNs = some s.now ∧ t.pwr.brownRails = []))
    ∧ (∃ t, exec (.brownOut rail) s = .next t ∧ t.pwr.held = true ∧ t.pwr.faultN = false ∧ rail ∈ t.pwr.brownRails
      ∧ t.gatesOpen = false ∧ t.fld FLT_STATUS_FAULTN = 1 ∧ t.col.takeoverReq = (s.col.takeoverReq || s.tri.paired) ∧ t.out = s.out)
    ∧ (105 < celsius → ∃ t, exec (.tempHigh source celsius) s = .next t ∧ t.pwr.temps.get source = some celsius
      ∧ source ∈ t.pwr.sensorsOut ∧ (0x0009, source) ∈ t.lapses ∧ t.pwr.tripped = s.pwr.tripped)
    ∧ (celsius ≤ 105 → ∃ t, exec (.tempHigh source celsius) s = .next t ∧ t.col = s.col ∧ t.lapses = s.lapses
      ∧ t.pwr = { s.pwr with temps := s.pwr.temps.set source celsius })
    ∧ (115 ≤ celsius → ∃ t, exec (.thermalTrip source celsius) s = .next t ∧ t.pwr.tripped = true ∧ t.pwr.thermtripN = false
      ∧ t.gatesOpen = false ∧ t.out = s.out))
  ∧ (∀ (s : State) (q : Nat),
    ((List.range 48).find? (fun i => s.quarter i == .ramping) = some q → s.sq.ungate = [] → s.sq.reloads = [] →
      ∃ t, exec .quarterRampDone s = .next t ∧ t.quarter q = (if s.fld PWR_STATUS_PHASE = 5 then .gated else .on)
        ∧ (s.fld PWR_STATUS_PHASE ≠ 5 → q ∈ t.sq.tested) ∧ (∀ b ∈ s.sq.failing, b < 576 → q * 576 + b ∈ t.sq.excluded)
        ∧ t.sq.lastUse.get q = some s.now ∧ ∀ i, i ≠ q → t.quarter i = s.quarter i)
    ∧ (s.now < s.sq.lastUse.getD q 0 + s.fld PWR_WAKE_CFG_GATE_MS * 1000000 → exec (.quarterIdleTimeout q) s = .next s)
    ∧ (s.quarter q = .on → (∀ x ∈ s.sq.tiles, x.quarter ≠ q) → s.sq.lastUse.getD q 0 + s.fld PWR_WAKE_CFG_GATE_MS * 1000000 ≤ s.now → ∃ t, exec (.quarterIdleTimeout q) s = .next t
        ∧ t.quarter q = .gated ∧ q ∉ t.sq.tested ∧ t.sq.images = s.sq.images ∧ ∀ i, i ≠ q → t.quarter i = s.quarter i))

/-- R40, R42: a compute reset of a Jexjan-E, by its pin or by the owner, discards operations, group queues and key slots and clears
REJOINED; its end clears COMPUTE_IN_RESET; REJOIN_DONE sets REJOINED only outside a compute reset; a Jexjan-S has no compute domain.
R39, R43: a link-domain reset, by the pin or, with DRAINED at 1, by the owner, clears the tables, staging, contexts and streams of the
agent and keeps the accelerator's memory; with DRAINED at 0 the owner's order is refused with an event. Where it goes beyond the rules
named it rests on the model's choices of log entry 102. -/
def Obligations.AgentResetResults : Prop :=
  (∀ (s : State) (n : Nat) (a : AgentRef) (p : Packet), a = ⟨.e, n⟩ →
    (∀ c, c ∈ [Instr.crstAssert ⟨.s, n⟩, .crstDeassert ⟨.s, n⟩] → exec c s = .next s)
    ∧ (s.jfld a JX_STATUS_COMPUTE_IN_RESET = 0 → ∃ t, exec (.crstAssert a) s = .next t ∧ t.jfld a JX_STATUS_COMPUTE_IN_RESET = 1
      ∧ t.jfld a JX_STATUS_REJOINED = 0 ∧ (t.agent a).ops = [] ∧ (t.agent a).gqs = [] ∧ (t.agent a).keySlots = [])
    ∧ (s.jfld a JX_STATUS_COMPUTE_IN_RESET = 1 → ∃ t, exec (.crstAssert a) s = .next t ∧ t = s.updAgent a fun g => { g with crstN := false })
    ∧ (∃ t, exec (.crstDeassert a) s = .next t ∧ t = (s.updAgent a fun g => { g with crstN := true }).endComputeReset a)
    ∧ ((s.agent a).crstN = true → exec (.computeResetEnd a) s = .next (s.endComputeReset a))
    ∧ ((s.agent a).crstN = false → exec (.computeResetEnd a) s = .next s)
    ∧ (s.jfld a JX_STATUS_COMPUTE_IN_RESET = 0 → s.endComputeReset a = s)
    ∧ (s.ownerPacket a p → ∀ v u, u = (s.beginComputeReset a).recordSeq (.agent a) p.hdr → v = (s.beginComputeReset a).jxRead a (regOffset p.hdr) →
      exec (.computeReset a p) s = .next (u.regRespond a p.hdr v 0))
    ∧ (s.ownerPacket a p → ∀ v u, s.jfld a JX_STATUS_COMPUTE_IN_RESET = 0 → u = s.setJfld a JX_STATUS_REJOINED 1 →
      v = u.jxRead a (regOffset p.hdr) →
      exec (.rejoinDone a p) s = .next ((u.recordSeq (.agent a) p.hdr).regRespond a p.hdr v 0) ∧ u.jfld a JX_STATUS_REJOINED = 1))
  ∧ (∀ (s : State) (a : AgentRef) (p : Packet),
    (∃ t g, exec (.lrstAssert a) s = .next t ∧ g = t.agent a ∧ g.active = {} ∧ g.shadow = {} ∧ g.staged = [] ∧ g.ctxs = [] ∧ g.streams = {}
      ∧ g.buffer = [] ∧ g.mem = (s.agent a).mem ∧ g.lrstN = false ∧ g.partition = (s.agent a).partition
      ∧ t.jfld a JX_STATUS_COMPUTE_IN_RESET = s.jfld a JX_STATUS_COMPUTE_IN_RESET ∧ (∀ b, b ≠ a → t.agent b = s.agent b) ∧ t.out = s.out)
    ∧ (∃ t, exec (.lrstDeassert a) s = .next t ∧ (t.agent a).lrstN = true ∧ (t.agent a).active = (s.agent a).active ∧ t.out = s.out)
    ∧ (s.ownerPacket a p → ∀ u, s.jfld a JX_STATUS_DRAINED = 1 → u = (s.linkDomainReset a).linkResetDone a (s.nodeFid (.agent a)) →
      exec (.linkReset a p) s = .next ((u.recordSeq (.agent a) p.hdr).regRespond a p.hdr (u.jxRead a (regOffset p.hdr)) 0))
    ∧ (s.ownerPacket a p → ∀ u, s.jfld a JX_STATUS_DRAINED ≠ 1 → u = s.raiseAgent a 3 2 0x0001 →
      exec (.linkReset a p) s = .next (((u.recordSeq (.agent a) p.hdr).noteRefused a p.hdr true).regRespond a p.hdr
        (u.jxRead a (regOffset p.hdr)) 0xF2)))

/-- R67, R99, R365: a register request of the owner is performed and answered with the register and status 0; one of another source raises
the event of source 8 and is answered 0xF2; a tenant-level read of another register than JX_ID and JX_EPOCH returns zero and counts; a
write over the local path changes nothing but the count; a forced event carries detail 0xFFFF. Where it goes beyond the rules named it
rests on the model's choices of log entries 69, 127, 150. -/
def Obligations.AgentRegisterResults : Prop :=
  ∀ (s : State) (a : AgentRef) (p : Packet) (off : Nat) (v : Word64), off = regOffset p.hdr →
    (s.ownerPacket a p → jxExists off = true → exec (.regRead a p .operator) s
        = .next ((s.recordSeq (.agent a) p.hdr).regRespond a p.hdr (s.jxRead a off) 0))
    ∧ (s.ownerPacket a p → jxExists off = false → ∀ lvl, exec (.regRead a p lvl) s
        = .next ((s.recordSeq (.agent a) p.hdr).regRespond a p.hdr 0 0xF2))
    ∧ (s.ownerPacket a p → jxExists off = true → off ≠ JX_ID → off ≠ JX_EPOCH →
      exec (.regRead a p .tenant) s = .next (((s.recordSeq (.agent a) p.hdr).satJfld a JX_VIOL_TENANT 1).regRespond a p.hdr 0 0))
    ∧ (s.ownerPacket a p → ∀ u b, s.jxWrite a off (BitVec.ofNat 64 (leAt p.payload 0 8)) = (u, b) →
      exec (.regWrite a p) s = .next (((u.recordSeq (.agent a) p.hdr).noteRefused a p.hdr b).regRespond a p.hdr (u.jxRead a off)
        (if b then 0xF2 else 0)))
    ∧ (p.crcOk = true → s.ownerSent a p.hdr = false → ∀ c, c ∈ [Instr.regWrite a p, .regRead a p .operator] →
      exec c s = .next ((s.raiseAgent a 8 2 (p.hdr.src.setWidth 16)).regRespond a p.hdr 0 0xF2))
    ∧ (p.crcOk = true → s.ownerSent a p.hdr = true → s.orphan a = true → ∀ c, c ∈ [Instr.regWrite a p, .regRead a p .operator, .computeReset a p, .rejoinDone a p, .linkReset a p,
      .jxFltForce a p] → exec c s = .next s)
    ∧ exec (.localPathWrite a off v) s = .next (s.satJfld a JX_VIOL_OPERATOR 1)
    ∧ (s.ownerPacket a p → 0x1000 ≤ off → jxExists off = true → ∀ u, u = s.forceAgent a ((off - 0x1000) / 8) →
      exec (.jxFltForce a p) s = .next ((u.recordSeq (.agent a) p.hdr).regRespond a p.hdr (u.jxRead a off) 0))

/-- R59, R101, R338, R471: a genuine claim of a higher generation makes the claimant the owner, and one of its own generation repeats that;
an equal one of another claimant and a lower one raise the event of source 9; a claim that is not genuine, that names another target, or
that comes over a port without an RT0 key has no effect; the owner's STREAMS_RESET and KAT_ORDER are acknowledged. R60, R61, R84, R100,
R118: a beacon of the owner's generation, newer than the last, ends the orphan state; one of another generation or source is only
replicated; no beacon for ORPHAN_MS orphans the agent; holdover beyond its bound lapses the figure. Where it goes beyond the rules named
it rests on the model's choices of log entries 57, 80. -/
def Obligations.OwnerAndBeaconResults : Prop :=
  (∀ (s : State) (a : AgentRef) (port : Nat) (p : Packet) (cur : Nat), cur = s.jfld a JX_OWNER_GENERATION →
    ((s.port (.agent a) port).key < 2 → ∀ x y z, exec (.claim a port p x y z) s = .next s)
    ∧ (2 ≤ (s.port (.agent a) port).key → p.crcOk = false → ∀ x y z, exec (.claim a port p x y z) s = .next (s.nakPkt (.agent a) p.hdr 0x01))
    ∧ (2 ≤ (s.port (.agent a) port).key → p.crcOk = true → claimTarget p ≠ noFid → claimTarget p ≠ s.nodeFid (.agent a) →
      ∀ x y z, exec (.claim a port p x y z) s = .next s)
    ∧ (2 ≤ (s.port (.agent a) port).key → p.crcOk = true → claimTarget p = noFid ∨ claimTarget p = s.nodeFid (.agent a) →
    (s.claimGenuine a p false true = false ∧ exec (.claim a port p false true true) s = .next s
      ∧ exec (.claim a port p true false true) s = .next s)
    ∧ (s.claimGenuine a p true true = true →
      (cur < claimGen p → ∀ m, exec (.claim a port p true true m) s = .next (s.acceptClaim a p m true))
      ∧ (claimGen p = cur → claimId p = s.owner a → s.isDup (.agent a) p.hdr = false → ∀ m,
          exec (.claim a port p true true m) s = .next (s.acceptClaim a p m false))
      ∧ (claimGen p = cur → claimId p = s.owner a → s.isDup (.agent a) p.hdr = true → ∀ m,
          exec (.claim a port p true true m) s = .next (s.again (.agent a) p.hdr))
      ∧ (claimGen p < cur → exec (.claim a port p true true true) s = .next (s.raiseAgent a 9 2 ((claimId p).setWidth 16)))
      ∧ (claimGen p = cur → claimId p ≠ s.owner a → exec (.claim a port p true true true) s
          = .next (s.raiseAgent a 9 3 ((claimId p).setWidth 16)))))
    ∧ (s.ownerPacket a p → exec (.streamsReset a p) s = .next ((s.restartStreams a (BitVec.ofNat 32 (leAt p.payload 0 4))).acked (.agent a) p))
    ∧ (s.ownerPacket a p → ∀ f : BitVec 32, exec (.katOrder a p f) s
        = .next ((s.sendReport a 0x36 (leBytes 4 (katMask a.variant) ++ leBytes 4 f.toNat ++ zeros 8) 2).acked (.agent a) p)))
  ∧ (∀ (s : State) (a : AgentRef) (port : Nat) (p : Packet),
    (p.crcOk = false → exec (.beacon a port p) s = .next (s.nakPkt (.agent a) p.hdr 0x01))
    ∧ (p.crcOk = true → ∀ corr u, corr = beaconCorr p + (s.port (.agent a) port).delayPs + Config.residencePs (agentKey a) (beaconSeqOf p) →
      u = s.replicate a port p (p.payload.take 8 ++ leBytes 8 corr ++ p.payload.drop 16) →
      (beaconGen p ≠ u.jfld a JX_OWNER_GENERATION ∨ p.hdr.src ≠ u.owner a → exec (.beacon a port p) s = .next u)
      ∧ (beaconGen p = u.jfld a JX_OWNER_GENERATION → p.hdr.src = u.owner a →
          (∀ q, (u.agent a).lastBeaconSeq = some q → seqLater (beaconSeqOf p) q = true) → ∀ v, v = (u.correctPhase a port p).takeBeacon a p →
          exec (.beacon a port p) s = .next (((v.unorphan a).sendKept a).restore 0x000A ((v.unorphan a).nodeFid (.agent a)).toNat)
          ∧ v.jfld a JX_HB_BEACON_MISS = 0 ∧ (v.agent a).lastBeaconSeq = some (beaconSeqOf p)))
    ∧ (s.agentNow a < (s.agent a).lastBeaconNs.getD 0 + s.jfld a JX_HB_ORPHAN_MS * 1000000 → exec (.orphanTimeout a) s = .next s)
    ∧ ((s.agent a).lastBeaconNs.getD 0 + s.jfld a JX_HB_ORPHAN_MS * 1000000 ≤ s.agentNow a → ∃ t, exec (.orphanTimeout a) s = .next t ∧ t.orphan a = true ∧ t.out = s.out ∧ ∀ b, b ≠ a → t.agent b = s.agent b)
    ∧ (s.agentNow a < (s.agent a).lastBeaconNs.getD 0 + 100000000 → exec (.holdoverExceeded a) s = .next s)
    ∧ ((s.agent a).holdoverRaised = false → (s.agent a).lastBeaconNs.getD 0 + 100000000 ≤ s.agentNow a → ∃ t u, exec (.holdoverExceeded a) s = .next t
      ∧ u = (s.updAgent a fun g => { g with holdoverRaised := true }).raiseAgent a 16 2 0x0000
      ∧ t = u.lapse 0x000A (u.nodeFid (.agent a)).toNat)
    ∧ ((s.agent a).holdoverRaised = true → exec (.holdoverExceeded a) s = .next s))

/-- R57, R60, R65, R78, R346: what an agent sends of itself: status report, events, samples, its answer to discovery; the zero phase of a
scrub leaves its memory empty. R429, R437: E-IDLE and E-DEEP of an endpoint whose compute domain is up; E-DEEP waits for a pending play;
a wake ends both. Where it goes beyond the rules named it rests on the model's choices of log entries 9, 135, 146. -/
def Obligations.AgentReportResults : Prop :=
  (∀ (s : State) (a : AgentRef) (port : Nat) (p : Packet),
    (s.mayReport a = true → exec (.statusReportTimer a) s = .next ((s.updAgent a fun g => { g with statusNs := s.agentNow a }).sendMgmt
        (.agent a) (s.owner a) 0x36 (s.statusBytes a) 0 false))
    ∧ (s.orphan a = true → exec (.statusReportTimer a) s = .next s ∧ exec (.eventsSendTimer a) s = .next s)
    ∧ (∀ l, l = packEvents 8 (s.agent a).buffer → l ≠ [] → s.mayReport a = true → exec (.eventsSendTimer a) s = .next (s.sendEvents a l))
    ∧ exec (.sampleFlushTimer a) s = .next (s.flushSamples a)
    ∧ (p.crcOk = false → exec (.discoverReq a port p) s = .next (s.nakPkt (.agent a) p.hdr 0x01))
    ∧ (∀ l, p.crcOk = true → l = Config.discoverPayload (agentKey a) → exec (.discoverReq a port p) s = .next (s.portSend (.agent a) port (Packet.seal
        { hdr := { ownHdr p.hdr.src 0x28 l with src := s.nodeFid (.agent a), stream := p.hdr.stream, seq := p.hdr.seq }, payload := l })))
    ∧ (∀ x, (s.agent a).scrub = some x → exec (.scrubZeroDone a) s
        = .next (s.updAgent a fun g => { g with mem := [], scrub := some { x with phase := 3, done := 0 } }))
    ∧ (∀ x l me dest, (s.agent a).scrub = some x → (s.agent a).ports = [(port, s.port (.agent a) port)] →
        s.portUp (.agent a) port = true → me = s.nodeFid (.agent a) → me ≠ noFid → dest = BitVec.ofNat 32 (me.domain * 65536 + 0xA000) →
        l = leBytes 4 me.toNat ++ leBytes 2 x.former.toNat ++ leBytes 1 x.phase ++ zeros 1 ++ leBytes 8 x.done
          ++ leBytes 8 (s.agent a).memBytes ++ leBytes 4 x.seqNo ++ leBytes 8 (s.agentNow a) ++ zeros 28 →
        ∀ k x1, k = s.number (.agent a) { hdr := ownHdr dest 0x2F l, payload := l } →
          x1 = { s.tx (.agent a) dest Config.ownStream with nextSeq := (s.tx (.agent a) dest Config.ownStream).nextSeq + 1 } →
          exec (.scrubStatusTimer a) s
            = .next (((s.setTx (.agent a) dest Config.ownStream x1).emit (.packet (.agent a) k)).portSend (.agent a) port k)))
  ∧ (∀ (s : State) (a : AgentRef),
    (s.computeUp a = true → exec (.eIdleRequest a) s
        = .next (s.updAgent a fun g => { g with lowPower := if (s.agent a).lowPower = 0 then 1 else (s.agent a).lowPower }))
    ∧ (s.computeUp a = true → (s.agent a).quiet = true → s.jfld a JX_STATUS_PLAY_PENDING = 0 →
        exec (.eDeepRequest a) s = .next (s.updAgent a fun g => { g with lowPower := 2 }))
    ∧ (s.computeUp a = true → (s.agent a).quiet = true → s.jfld a JX_STATUS_PLAY_PENDING = 1 →
        exec (.eDeepRequest a) s = .next (s.updAgent a fun g => { g with deepDeferred := true }))
    ∧ exec (.eWake a) s = .next (s.updAgent a fun g => { g with lowPower := 0, deepDeferred := false })
    ∧ (s.computeUp a = false → exec (.eIdleRequest a) s = .next s ∧ exec (.eDeepRequest a) s = .next s))

/-- R452, R4, R11: an access of another size or alignment, or where no register stands, is ignored; a tenant's is counted; a plain register
takes its writable bits and clears the W1C bits written as 1. Where it goes beyond the rules named it rests on the model's choices of
log entries 61, 69. -/
def Obligations.RegisterWriteResults : Prop :=
  ∀ (s : State) (lvl : Level) (size addr : Nat) (v : Word64) (d : RegDesc),
    (size ≠ 8 ∨ addr % 8 ≠ 0 ∨ regDesc addr = none → exec (.registerWrite lvl size addr v) s = .next s)
    ∧ (addr % 8 = 0 → regDesc addr = some d → exec (.registerWrite .tenant 8 addr v) s = .next (s.satFld FLT_VIOL_TENANT 1)
      ∧ (lvl ≠ .tenant → exec (.registerWrite lvl 8 addr v) s = .next (s.writeReg lvl addr v)))
    ∧ (addr ∈ [FLT_STATUS, FLT_DROP, FLT_VIOL, FLT_CAP_SEL, LED_SEQ, LED_FLASH, LED_COUNT, LED_SEC_SEL, PWR_STATUS, PWR_WAKE_STATUS,
        PWR_PART_SEL, CFB_QUOTA_SEL, SCH_ADMIT, TIM_NOW, TIM_STATUS, GRP_ABORTS, RTE_INSTALL, RTE_GAMBIT] → regDesc addr = some d →
      s.writeReg lvl addr v = s.setReg addr (writeWord d (s.reg addr) v))
    ∧ ∀ (old : Word64) (i : Nat), i < 64 → (writeWord d old v).getLsbD i
        = if d.rw.testBit i then v.getLsbD i else if d.w1c.testBit i && v.getLsbD i then false else old.getLsbD i

/-- R28, R30, R103, R115, R462: a tick counts 128 ns, one tick of the sequence and of the epoch, and credits an agent's memory account;
without power nothing ticks. The switchover of the time base keeps time, loses sync with cause 4 and marks PPS and PTP as lost. R45,
R49, R115, R139, R155: a boundary opens the next epoch at its first slot; an agent's boundary swaps its banks when the epoch of its
commit, or of its applied play, has come, and the new active bank is copied. Where it goes beyond the rules named it rests on the
model's choices of log entries 13, 48, 56, 57, 126, 143, 179. -/
def Obligations.TickAndEpochResults : Prop :=
  (∀ (s : State) (a : AgentRef) (due : Bool),
    (s.pwr.pwrgd = false → exec .slotTick s = .next s ∧ exec .epochBoundary s = .next s)
    ∧ (s.pwr.pwrgd = true → s.col.resetDue = false → (∀ x ∈ s.dom.restarts, x.2.1 ≠ []) → ∃ t, exec .slotTick s = .next t ∧ t.reg TIM_NOW = s.reg TIM_NOW + 128
      ∧ t.fld TIM_TICK_TICK_SEQ = (s.fld TIM_TICK_TICK_SEQ + 1) % 2 ^ 32 ∧ t.reg TIM_CAL = s.reg TIM_CAL + 128
      ∧ t.time.operNs = s.time.operNs + 128 ∧ t.time.epochTick = s.time.epochTick + 1
      ∧ t.engines = s.engines ∧ t.queues = s.queues ∧ t.grp = s.grp ∧ t.sec = s.sec ∧ t.sq = s.sq ∧ t.pwr = s.pwr)
    ∧ ((s.tickAgent a due).agent a).account = min 2097152 ((s.agent a).account + accountRate a.variant)
    ∧ (s.fld TIM_TICK_SOURCE = 1 → exec .timeBaseSwitchover s = .next s)
    ∧ (s.fld TIM_TICK_SOURCE = 0 → ∃ t, exec .timeBaseSwitchover s = .next t ∧ t.fld TIM_TICK_SOURCE = 1 ∧ t.reg TIM_NOW = s.reg TIM_NOW
      ∧ t.fld SCH_SYNC_STATUS_STATE = 3 ∧ t.fld SCH_SYNC_STATUS_CAUSE = 4 ∧ t.time.lostNs = some s.now
      ∧ (s.fld TIM_STATUS_PPS = 1 → t.fld TIM_STATUS_PPS = 2) ∧ (s.fld TIM_STATUS_PTP ≠ 0 → t.fld TIM_STATUS_PTP = 4)
      ∧ t.time.epochTick = s.time.epochTick ∧ t.agents = s.agents ∧ t.engines = s.engines ∧ t.pwr = s.pwr))
  ∧ (∀ (s : State) (a : AgentRef) (n : Nat), n = (s.fld SCH_EPOCH_NOW_EPOCH_NUM + 1) % 2 ^ 48 →
    (s.pwr.pwrgd = true → (∀ i, s.rte.install = some i → i.epoch ≠ BitVec.ofNat 32 n) →
      (∀ p, s.rte.play = some p → p.swapEpoch ≠ BitVec.ofNat 32 n) → s.time.pendingGeom = none → ∃ t, exec .epochBoundary s = .next t
      ∧ t.fld SCH_EPOCH_NOW_EPOCH_NUM = n ∧ t.fld SCH_EPOCH_NOW_SLOT = 0 ∧ t.time.epochTick = 0 ∧ t.reg TIM_NOW = s.reg TIM_NOW
      ∧ t.engines = s.engines ∧ t.queues = s.queues ∧ t.rte = s.rte ∧ t.grp = s.grp)
    ∧ (∀ v e, (s.agent a).play = none → (s.agent a).commitAt = some (v, e) → (s.agent a).copying = false → ∀ m : BitVec 32,
      (seqLater e m = true → s.agentSwap a m = s)
      ∧ (seqLater e m = false → ∃ t, t = s.agentSwap a m ∧ (t.agent a).active = (s.agent a).shadow ∧ (t.agent a).shadow = (s.agent a).shadow
        ∧ (t.agent a).copying = true ∧ (t.agent a).commitAt = none ∧ t.version a = v
        ∧ t.jfld a JX_STATUS_BANK_ACTIVE = (1 - s.jfld a JX_STATUS_BANK_ACTIVE) ∧ t.out = s.out
        ∧ ∀ b, b ≠ a → t.agent b = s.agent b))
    ∧ (∀ q m, (s.agent a).play = some q → q.applied = true → q.swapEpoch = m → (s.agent a).commitAt = none → (s.agent a).copying = false →
      ∃ t, t = s.agentSwap a m ∧ (t.agent a).active = (s.agent a).shadow ∧ (t.agent a).play = none
        ∧ t.version a = q.resultVersion ∧ t.jfld a JX_STATUS_PLAY_PENDING = 0 ∧ t.out = s.out))

/-- R60, R115, R143, R142: the owner's beacon steers, counts and is broadcast; a geometry is taken from an epoch 3 ms ahead where R114
admits it, otherwise an event; SYNC_IN acquires when armed or 1 s after a loss; a tenant's write is counted. R138, R141, R145, R441,
R454: edges of SYNC_IN and PPS_IN are stamped, a SYNC_IN edge in steering is matched to a target boundary; a master's frame of the
configured domain sets offset, delay and time of day; other frames are discarded with an event; ARP answers the port's own address.
Where it goes beyond the rules named it rests on the model's choices of log entries 56, 58, 59, 60, 123. -/
def Obligations.SteeringAndEdgeResults : Prop :=
  (∀ (s : State) (v : Word64) (lvl : Level) (slots ticks : Nat),
    (s.ready = false ∨ s.fld TRI_STATUS_ROLE = 1 → exec .beaconTimer s = .next s)
    ∧ (s.ready = true → s.fld TRI_STATUS_ROLE ≠ 1 → ∀ u, u = { s.steer with time :=
          { s.steer.time with beaconSeq := s.steer.time.beaconSeq + 1, lastBeaconNs := some s.steer.now } } →
        exec .beaconTimer s = .next (u.broadcast 0x32 u.beaconBytes none))
    ∧ exec (.epochCfgWrite .tenant v) s = .next (s.satFld FLT_VIOL_TENANT 1)
    ∧ exec (.syncArm .tenant v) s = .next (s.satFld FLT_VIOL_TENANT 1)
    ∧ (lvl ≠ .tenant → slots = SCH_EPOCH_CFG_SLOTS.of v → ticks = SCH_EPOCH_CFG_SLOT_TICKS.of v + 1 →
      (s.geometryOk slots ticks = false → exec (.epochCfgWrite lvl v) s = .next (s.raise 0x0060 1))
      ∧ (s.geometryOk slots ticks = true → s.tri.paired = false → ∃ t, exec (.epochCfgWrite lvl v) s = .next t
        ∧ t.time.pendingGeom = some (slots, ticks, BitVec.ofNat 32 (s.epochAfter 3000000)) ∧ t.fld SCH_EPOCH_CFG_PENDING = 1
        ∧ t.geometry = s.geometry ∧ t.fld SCH_EPOCH_NOW_EPOCH_NUM = s.fld SCH_EPOCH_NOW_EPOCH_NUM ∧ t.out = s.out))
    ∧ (lvl ≠ .tenant → s.tri.paired = false → SCH_SYNC_CFG_SYNC_EN.of v = 1 → SCH_SYNC_CFG_ARM.of v = 1 → 20 ≤ s.epochTicks →
      ∃ t, exec (.syncArm lvl v) s = .next t ∧ t.fld SCH_SYNC_STATUS_STATE = 1 ∧ t.fld SCH_SYNC_CFG_SYNC_EN = 1 ∧ t.time.edge = none
        ∧ t.time.missing = 0 ∧ t.out = s.out ∧ t.agents = s.agents)
    ∧ (lvl ≠ .tenant → s.tri.paired = false → SCH_SYNC_CFG_SYNC_EN.of v = 0 →
      ∃ t, exec (.syncArm lvl v) s = .next t ∧ t.fld SCH_SYNC_STATUS_STATE = 0 ∧ t.time = s.time ∧ t.out = s.out)
    ∧ (lvl ≠ .tenant → s.tri.paired = false → SCH_SYNC_CFG_SYNC_EN.of v = 1 → SCH_SYNC_CFG_ARM.of v = 0 →
      ∃ t, exec (.syncArm lvl v) s = .next t ∧ t.fld SCH_SYNC_STATUS_STATE = s.fld SCH_SYNC_STATUS_STATE ∧ t.time = s.time ∧ t.out = s.out)
    ∧ (s.time.lostNs = none → exec .syncRearmTimer s = .next s)
    ∧ (∀ x, s.time.lostNs = some x → s.fld SCH_SYNC_CFG_AUTO_REARM = 1 → s.fld SCH_SYNC_CFG_SYNC_EN = 1 → s.fld SCH_SYNC_STATUS_STATE = 3 →
      x + 1000000000 ≤ s.now → 20 ≤ s.epochTicks → exec .syncRearmTimer s = .next s.acquire))
  ∧ (∀ (s : State) (falling isArp : Bool) (ns : Nat) (f : PtpFrame) (ip : BitVec 32),
    (s.pwr.pwrgd = false ∨ s.fld TIM_TICK_SOURCE = 1 → exec (.syncInEdge falling ns) s = .next s ∧ exec (.ppsInEdge ns) s = .next s
      ∧ exec (.ptpFrame f) s = .next s ∧ exec (.arpRequest isArp ip) s = .next s)
    ∧ (s.pwr.pwrgd = true → s.fld TIM_TICK_SOURCE = 0 →
      (tooSoon s.time.lastSyncNs ns = true ∨ bit falling ≠ s.fld SCH_SYNC_CFG_EDGE → exec (.syncInEdge falling ns) s = .next s)
      ∧ (tooSoon s.time.lastSyncNs ns = false → bit falling = s.fld SCH_SYNC_CFG_EDGE → ∀ u,
          u = ({ s with time := { s.time with lastSyncNs := some ns } } : State).setReg TIM_SYNC_EDGE (BitVec.ofNat 64 ns) →
        (u.steering = false ∨ u.matchEdge ((ns / 128 : Nat) : Int) = none → exec (.syncInEdge falling ns) s = .next u)
        ∧ (∀ b, u.steering = true → u.matchEdge ((ns / 128 : Nat) : Int) = some b → exec (.syncInEdge falling ns) s = .next { u with
            time := { u.time with edge := some (((ns / 128 : Nat) : Int), b + u.pendingAdj b), lastMatch := some b, missing := 0 } }))
      ∧ (tooSoon s.time.lastPpsNs ns = true → exec (.ppsInEdge ns) s = .next s)
      ∧ (tooSoon s.time.lastPpsNs ns = false → ∃ t, exec (.ppsInEdge ns) s = .next t ∧ t.fld TIM_STATUS_PPS = 1
          ∧ t.reg TIM_PPS_EDGE = BitVec.ofNat 64 ns ∧ t.time.lastPpsNs = some ns
          ∧ t.reg TIM_CAL = BitVec.ofNat 64 (nearestSecond ((s.reg TIM_CAL).toNat - (s.now - ns)) + (s.now - ns))
          ∧ t.out = s.out ∧ t.now = s.now)
      ∧ (s.fld TIM_PTP_CFG_ENABLE = 0 ∨ f.domain.toNat ≠ s.fld TIM_PTP_CFG_DOMAIN ∨ f.fromMaster = false →
          exec (.ptpFrame f) s = .next (s.raise 0x1980 0))
      ∧ (s.fld TIM_PTP_CFG_ENABLE = 1 → f.domain.toNat = s.fld TIM_PTP_CFG_DOMAIN → f.fromMaster = true → ∃ t,
          exec (.ptpFrame f) s = .next t ∧ 2 ≤ t.fld TIM_STATUS_PTP ∧ t.fld TIM_PTP_OFFSET_NS = f.offsetNs.toNat
          ∧ t.fld TIM_PTP_MPD_NS = f.meanPathDelayNs.toNat ∧ (s.fld TIM_STATUS_PPS ≠ 1 → t.reg TIM_CAL = BitVec.ofNat 64 f.timeOfDayNs)
          ∧ t.now = s.now ∧ t.out = s.out)
      ∧ (isArp = true → ip = s.dom.ip → exec (.arpRequest isArp ip) s = .next (s.emit (.arpReply s.dom.mac s.dom.ip)))
      ∧ (isArp = false ∨ ip ≠ s.dom.ip → exec (.arpRequest isArp ip) s = .next (s.raise 0x1980 0))))

/-! ## Bring-up, links, packets -/

/-- R426, R434, R439, R447, R448: a controller reset clears engines, queues, programs and keys, keeps the ledger, the agents and the pins,
names its kind and starts bring-up; it is ignored without power or after a thermal trip. A power cycle loses the ledger ring beside, not
the flash; the power-cycle count is kept. R453, R457: while PERST is asserted at a hub its reads and writes are held, and they go, in
order, when it is deasserted; an internal scan is measured in the life-cycle states that allow one and does nothing in others. Where it
goes beyond the rules named it rests on the model's choices of log entries 71, 72, 73, 83. -/
def Obligations.ResetAndPowerResults : Prop :=
  (∀ (s : State) (lvl : Level) (v : Word64) (kind : Nat),
    (s.pwr.tripped = false → s.pwr.pwrgd = true → kind < 8 → ∃ t, t = s.controllerReset kind ∧ t.engines = [] ∧ t.queues = []
      ∧ t.programs = [] ∧ t.sec.keys = [] ∧ t.sec.lifeCycle = s.sec.lifeCycle ∧ t.led.ring = s.led.ring ∧ t.led.flash = s.led.flash
      ∧ t.pwr.resetKind = kind ∧ t.fld PWR_STATUS_LAST_RESET = kind ∧ t.fld PWR_STATUS_READY = 0 ∧ t.reg LED_PCYCLE = s.reg LED_PCYCLE
      ∧ t.reg LED_TIME = s.reg LED_TIME ∧ (s.pwr.resetN = true → t.fld PWR_STATUS_PHASE = 1) ∧ t.out = s.out ∧ t.pending = s.pending
      ∧ t.agents = s.agents.mapVals fun _ g => { g with phaseNs := g.phaseNs + (s.now : Int) })
    ∧ (s.pwr.tripped = true ∨ s.pwr.pwrgd = false → s.controllerReset kind = s)
    ∧ (∀ u, u = ({ s with pwr := { s.pwr with resetN := false } } : State) → exec .resetNAssert s = .next (u.controllerReset 1))
    ∧ (s.pwr.resetN = true → exec .resetNDeassert s = .next s)
    ∧ (s.pwr.resetN = false → ∀ u, u = ({ s with pwr := { s.pwr with resetN := true } } : State) →
        exec .resetNDeassert s = .next (if s.pwr.pwrgd = true then u.setFld PWR_STATUS_PHASE 1 else u))
    ∧ exec (.ctrlReset .tenant v) s = .next (s.satFld FLT_VIOL_TENANT 1)
    ∧ (lvl ≠ .tenant → exec (.ctrlReset lvl v) s = .next (if PWR_CTRL_CTRL_RESET.of v = 1 then s.controllerReset 2 else s))
    ∧ (∀ x, s.pwr.brownBackNs = some x → s.pwr.held = true → s.hasStandby = false → x + 10000000 ≤ s.now → s.pwr.brownRails = [] →
        exec .brownOutRecovery s = .next (s.controllerReset 3))
    ∧ (s.pwr.brownBackNs = none ∨ s.pwr.held = false ∨ s.hasStandby = true → exec .brownOutRecovery s = .next s)
    ∧ (∃ t, exec .powerLoss s = .next t ∧ t.pwr.pwrgd = false ∧ t.pwr.tripped = false ∧ t.gatesOpen = false ∧ t.engines = [] ∧ t.queues = []
      ∧ t.hbm = [] ∧ t.led.ring = [] ∧ t.led.flash = s.led.flash ∧ t.led.security = s.led.security ∧ t.sec.keys = []
      ∧ t.reg LED_PCYCLE = s.reg LED_PCYCLE ∧ t.out = s.out)
    ∧ (s.pwr.pwrgd = true → exec .powerGood s = .next s)
    ∧ (s.pwr.pwrgd = false → ∃ t, exec .powerGood s = .next t ∧ t.pwr = { s.pwr with pwrgd := true }
      ∧ t.fld PWR_STATUS_PHASE = (if s.pwr.resetN = true then 1 else s.fld PWR_STATUS_PHASE) ∧ t.led = s.led ∧ t.agents = s.agents ∧ t.out = s.out))
  ∧ (∀ (s : State) (hub : Nat) (d : BitVec 384),
    (∃ t, exec (.perstAssert hub) s = .next t ∧ hub ∈ t.pwr.perst ∧ (∀ h, h ≠ hub → (h ∈ t.pwr.perst ↔ h ∈ s.pwr.perst)) ∧ t.out = s.out
      ∧ t.queues = s.queues)
    ∧ (∀ u, u = ({ s with pwr := { s.pwr with perst := s.pwr.perst.filter (· != hub)
                                              heldIo := s.pwr.heldIo.filter fun x => !s.heldAt hub x } } : State) →
        hub ∉ u.pwr.perst ∧ (59 + hub ∉ s.pwr.deadBlocks →
          exec (.perstDeassert hub) s = .next (u.forEach (s.pwr.heldIo.filter (s.heldAt hub)) fun s x => s.releaseIo x)))
    ∧ (59 + hub ∈ s.pwr.deadBlocks → exec (.perstDeassert hub) s = .next ({ s with pwr := { s.pwr with perst := s.pwr.perst.filter (· != hub) } } : State))
    ∧ (s.sec.lifeCycle = 0 ∨ s.sec.lifeCycle = 2 → exec (.jtagInternalScan d) s = .next (s.extendMeas 4 d))
    ∧ (s.sec.lifeCycle ≠ 0 → s.sec.lifeCycle ≠ 2 → exec (.jtagInternalScan d) s = .next s))

/-- R417 to R419: the phases of bring-up follow one another; without a verified boot image, or where no two arbiters and the gates remain,
bring-up ends: FAULT_N is asserted and the phase stays. Where it goes beyond the rules named it rests on the model's choices of log
entries 77, 130, 167. -/
def Obligations.BringupResults : Prop :=
  ∀ (s : State) (r : PhaseResult),
    (s.pwr.pwrgd = false ∨ s.pwr.tripped = true ∨ s.pwr.stuck = true ∨ s.fld PWR_STATUS_PHASE = 0 → exec (.bringupPhaseDone r) s = .next s)
    ∧ (s.stopBringup.pwr.stuck = true ∧ s.stopBringup.fld PWR_STATUS_PHASE = s.fld PWR_STATUS_PHASE ∧ s.stopBringup.fld PWR_STATUS_READY = s.fld PWR_STATUS_READY)
    ∧ (s.pwr.pwrgd = true → s.pwr.tripped = false → s.pwr.stuck = false →
      (s.fld PWR_STATUS_PHASE = 1 → ∃ t, exec (.bringupPhaseDone r) s = .next t ∧ t.fld PWR_STATUS_PHASE = 2
        ∧ (s.pwr.resetKind = 0 → t.fld LED_PCYCLE_COUNT = min (s.fld LED_PCYCLE_COUNT + 1) (2 ^ 32 - 1)) ∧ t.led = s.led ∧ t.out = s.out)
      ∧ (s.fld PWR_STATUS_PHASE = 2 → r.bootOk = false → exec (.bringupPhaseDone r) s = .next s.stopBringup)
      ∧ (s.fld PWR_STATUS_PHASE = 2 → r.bootOk = true → ∃ t, exec (.bringupPhaseDone r) s = .next t ∧ t.fld PWR_STATUS_PHASE = 3
        ∧ t.fld LED_FLASH_FLASH_OK = 1 ∧ (∀ p < 72, (t.port .ctl p).state = 1) ∧ t.agents = s.agents ∧ t.out = s.out)
      ∧ (3 ≤ s.fld PWR_STATUS_PHASE → r.gatesOk = false ∨ 63 ∈ r.failedBlocks ∨ s.voters < 2 → exec (.bringupPhaseDone r) s = .next s.stopBringup)
      ∧ (s.fld PWR_STATUS_PHASE = 3 → r.failedBlocks = [] → r.gatesOk = true → 2 ≤ s.voters →
          exec (.bringupPhaseDone r) s = .next (s.setFld PWR_STATUS_PHASE 4))
      ∧ (s.fld PWR_STATUS_PHASE = 4 → r.failedBlocks = [] → r.gatesOk = true → 2 ≤ s.voters → ∃ t, exec (.bringupPhaseDone r) s = .next t
        ∧ t.fld PWR_STATUS_PHASE = 5 ∧ t.hbm = [] ∧ t.spill = [] ∧ t.led = s.led ∧ t.out = s.out)
      ∧ (s.fld PWR_STATUS_PHASE = 5 → r.failedBlocks = [] → r.gatesOk = true → 2 ≤ s.voters → ∃ t, exec (.bringupPhaseDone r) s = .next t
        ∧ t.fld PWR_STATUS_PHASE = 6 ∧ (∀ x ∈ r.failedSquares, x ∈ t.sq.excluded) ∧ (∀ q, t.quarter q = .gated) ∧ t.out = s.out)
      ∧ (s.fld PWR_STATUS_PHASE = 6 → r.failedBlocks = [] → r.gatesOk = true → 2 ≤ s.voters → ∃ t, exec (.bringupPhaseDone r) s = .next t
        ∧ t.fld PWR_STATUS_PHASE = 7 ∧ t.out = s.out)
      ∧ (s.fld PWR_STATUS_PHASE = 7 → r.failedBlocks = [] → r.gatesOk = true → 2 ≤ s.voters → ∃ t, exec (.bringupPhaseDone r) s = .next t
        ∧ t.fld PWR_STATUS_PHASE = 0 ∧ t.fld PWR_STATUS_READY = 1))

/-- R22, R91, R136, R374, R421, R422: a training ends in state 2 with all lanes, 3 at half width or more, 4 below it and 5 with none; a
controller port is planned with four lanes; no outcome in 4 s is a failure; a retrain that leaves less than half width is handled as a
failed link; one that the operator orders drops the link, opens its shadow and waits for a wake; a ready controller asks for discovery
on a port of its own that has trained. Where it goes beyond the rules named it rests on the model's choices of log entry 84. -/
def Obligations.LinkTrainingResults : Prop :=
  ∀ (s : State) (n : Node) (port lanes planned got width delayPs farPort : Nat) (far : Fid) (lvl : Level) (v : Word64) (x : PortSt),
    (width = (if n = .ctl then 4 else planned) → got = (if (s.port n port).state = 1 ∧ (s.port n port).trainNs + 4000000000 < s.now then 0 else lanes) →
      x = ({ s.port n port with planned := width, delayPs := delayPs, farId := far, farPort := farPort } : PortSt).trained got →
      (x.state = (if got = 0 then 5 else if 2 * got < width then 4 else if got < width then 3 else 2)
        ∧ x.lanes = (if x.state = 2 ∨ x.state = 3 then got else 0) ∧ x.farId = far ∧ x.farPort = farPort)
      ∧ ∃ u : State, u.port n port = x ∧ u.now = s.now ∧ u.out = s.out ∧ u.engines = s.engines
        ∧ exec (.linkTrainDone n port lanes planned delayPs far farPort) s
          = .next (if n = .ctl then (if s.ready = true then u.keyLinks.askDiscovery port else u) else u.keyLinks))
    ∧ ((s.port n port).state ≠ 1 ∨ s.now < (s.port n port).trainNs + 4000000000 → exec (.trainTimeout n port) s = .next s)
    ∧ ((s.port n port).state = 1 → (s.port n port).trainNs + 4000000000 ≤ s.now → ∃ t, exec (.trainTimeout n port) s = .next t ∧ (t.port n port).state = 5 ∧ (t.port n port).lanes = 0
      ∧ t.out = s.out ∧ t.engines = s.engines)
    ∧ (x = (s.port n port).trained lanes → ∃ u : State, u.port n port = x ∧ u.out = s.out ∧ u.now = s.now
      ∧ exec (.retrainComplete n port lanes) s = .next ((if x.state = 2 ∨ x.state = 3 then u.keyLinks.recheckLink (s.nodeFid n) port
        else u.reportDown (s.nodeFid n) port).checkBounds))
    ∧ exec (.portRetrain .tenant v) s = .next (s.satFld FLT_VIOL_TENANT 1)
    ∧ (lvl ≠ .tenant → LNK_CTRL_RETRAIN.of v = 0 → exec (.portRetrain lvl v) s = .next s)
    ∧ (lvl ≠ .tenant → LNK_CTRL_RETRAIN.of v = 1 → ∀ p, p = s.fld LNK_SEL_PORT → ∃ t, exec (.portRetrain lvl v) s = .next t
      ∧ ((∀ q ∈ (s.port .ctl p).queue, q.source = none) → t.out = s.out ∧ t.port .ctl p = { (s.port .ctl p).retrain with trainNs := s.now }
        ∧ (t.port .ctl p).state = 1 ∧ (t.port .ctl p).queue = [])
      ∧ { kind := 64, origin := s.fid, port := p, openNs := s.now, closeNs := none } ∈ t.col.shadows)

/-- R333, R412, R422 to R424, R471: an agent that answers discovery is known, not admitted yet, and is claimed; a chain that fails is a
security record, and its link counts as failed; an outstanding claim or STREAMS_RESET goes as unicast after 100 µs. Where no ID is left
the agent is not admitted (DESIGN CHOICE, log entry 21). R42, R102, R313, R422, R473: an agent whose known-answer test passes is
admitted, one that fails has its links counted as failed. A rejoin orders the known-answer run of step 2 and goes on with its result; a
run that fails is ordered once more, and a step that fails twice ends the rejoin with an event of severity 2, after which none starts
until a later compute reset. Where it goes beyond the rules named it rests on the model's choices of log entries 21, 46, 74, 75, 80, 81. -/
def Obligations.DiscoveryResults : Prop :=
  (∀ (s : State) (port : Nat) (r : DiscoverInfo) (dest f : Fid) (other : Bool),
    (s.ready = false → exec (.discoverResp port r) s = .next s ∧ exec .discoveryClose s = .next s)
    ∧ (s.ready = true → r.chainOk = false → exec (.discoverResp port r) s = .next ((s.securityRecord 0x1A05 0).failReached r.agent r.agentPort))
    ∧ (s.ready = true → r.chainOk = true → s.assignId r = (none, other) → exec (.discoverResp port r) s = .next s)
    ∧ (s.ready = true → r.chainOk = true → s.assignId r = (some f, other) → ∃ t, exec (.discoverResp port r) s = .next t
      ∧ (∃ k ∈ t.dom.known, k.ref = r.agent ∧ k.fid = f ∧ k.admitted = false ∧ k.claimAcked = false ∧ k.port = port ∧ k.agentPort = r.agentPort)
      ∧ (∃ h ∈ t.hooks, h.dest = some f ∧ h.kind = .claim))
    ∧ (s.dom.known.find? (fun k => k.fid == dest) = none → exec (.claimAckTimeout dest) s = .next s)
    ∧ (∀ k, s.dom.known.find? (fun k => k.fid == dest) = some k →
      (k.claimAcked = true ∨ s.now < k.claimSentNs + 100000 → exec (.claimAckTimeout dest) s = .next s)
      ∧ (k.claimAcked = false → k.claimSentNs + 100000 ≤ s.now → ∃ u : State, exec (.claimAckTimeout dest) s
          = .next (u.sendHooked dest 0x33 (s.claimBytes dest noFid 0) .claim) ∧ u = { s with dom := u.dom }
          ∧ u.dom.known = s.dom.known.map fun (y : Known) => if y.fid = dest then { y with claimSentNs := s.now } else y))
    ∧ ((∀ x ∈ s.dom.restarts, dest ∉ x.2.1 ∨ s.now < x.2.2 + 100000) → exec (.streamsResetTimeout dest) s = .next s)
    ∧ (∀ target l x, s.dom.restarts = [(target, l, x)] → dest ∈ l → x + 100000 ≤ s.now → ∃ u : State, u = { s with dom := u.dom }
        ∧ u.dom.restarts = [(target, l, s.now)] ∧ exec (.streamsResetTimeout dest) s
          = .next (u.sendHooked dest 0x38 (leBytes 4 target.toNat ++ zeros 12) (.streamsReset target)))
    ∧ (s.dom.closed = true → exec .discoveryClose s = .next s)
    ∧ (s.dom.closed = false → s.ready = true → (∀ k ∈ s.dom.known, k.admitted = false ∨ k.version ≠ 0) →
        exec .discoveryClose s = .next (({ s with dom := { s.dom with closed := true } } : State).keyLinks.setFld PWR_STATUS_DOMAIN_READY 1))
    ∧ (s.dom.closed = false → s.ready = true → ∀ l, l = (s.dom.known.filter fun k => k.admitted && k.version == 0).map (·.fid) →
        l ≠ [] → exec .discoveryClose s = .next ((({ s with dom := { s.dom with closed := true } } : State).keyLinks.submitInstall
          (l.map fun f => (f, Config.baseTables s.fresh f.toNat)) .nobody).useFree)))
  ∧ (∀ (s : State) (p : Packet) (a : AgentRef) (k : Known) (f : Fid) (r : Rejoin) (step : Option Nat),
    (s.freshPacket .ctl p → s.dom.rejoins.find? (fun x => x.fid == p.hdr.src) = none → s.dom.known.find? (fun k => k.fid == p.hdr.src && k.katAsked && !k.admitted) = none →
      exec (.katResult p) s = .next (s.acked .ctl p))
    ∧ (s.freshPacket .ctl p → s.dom.rejoins.find? (fun x => x.fid == p.hdr.src) = none → s.dom.known.find? (fun k => k.fid == p.hdr.src && k.katAsked && !k.admitted) = some k →
      (leAt p.payload 4 4 = 0 → exec (.katResult p) s = .next ((s.admitAgent k).acked .ctl p))
      ∧ (leAt p.payload 4 4 ≠ 0 → exec (.katResult p) s = .next ((s.failLinks k.fid).acked .ctl p)))
    ∧ (s.freshPacket .ctl p → s.dom.rejoins.find? (fun x => x.fid == p.hdr.src) = some r → s.refOf p.hdr.src = some a →
      (leAt p.payload 4 4 = 0 → exec (.katResult p) s = .next ((s.rejoinRest a r).acked .ctl p))
      ∧ (leAt p.payload 4 4 ≠ 0 → r.tries ≠ 0 → exec (.katResult p) s = .next ((s.rejoinFailed p.hdr.src 2).acked .ctl p))
      ∧ (leAt p.payload 4 4 ≠ 0 → r.tries = 0 → ∃ u : State, u = { s with dom := u.dom }
        ∧ u.dom.rejoins = s.dom.rejoins.map (fun (x : Rejoin) => if x.fid = p.hdr.src then { x with tries := 1 } else x)
        ∧ exec (.katResult p) s = .next ((u.sendHooked p.hdr.src 0x21 [] .kat).acked .ctl p)))
    ∧ (∀ u, u = ({ s with dom := { s.dom with rejoins := s.dom.rejoins.filter fun x => x.fid != r.fid } } : State) →
      (r.failsAt = none → s.rejoinRest a r = (((u.rejoinStep a r.fid 3).rejoinStep a r.fid 4).rejoinStep a r.fid 5).rejoinStep a r.fid 6)
      ∧ (r.failsAt = some 3 → s.rejoinRest a r = u.rejoinFailed r.fid 3))
    ∧ (f ∈ (s.rejoinFailed f 2).dom.rejoinOut ∧ (∀ x ∈ (s.rejoinFailed f 2).dom.rejoins, x.fid ≠ f)
      ∧ { origin := f, source := 192, severity := 2, detail := 0x12, timeNs := s.now, agentOrigin := true } ∈ (s.rejoinFailed f 2).col.raised)
    ∧ (f = s.nodeFid (.agent a) →
      (a.variant = .s ∨ f = noFid ∨ s.jfld a JX_STATUS_COMPUTE_IN_RESET ≠ 0 ∨ s.jfld a JX_STATUS_REJOINED ≠ 0 ∨ f ∈ s.dom.rejoinOut →
        exec (.rejoinStart a step) s = .next s)
      ∧ (a.variant = .e → f ≠ noFid → s.jfld a JX_STATUS_COMPUTE_IN_RESET = 0 → s.jfld a JX_STATUS_REJOINED = 0 → f ∉ s.dom.rejoinOut →
        ∃ u : State, u = { s with dom := u.dom } ∧ { fid := f, failsAt := step } ∈ u.dom.rejoins
          ∧ exec (.rejoinStart a step) s = .next (u.sendHooked f 0x21 [] .kat))))

/-- R82 to R85, R89, R90, R336, R346: the first check a frame fails discards it with an event; a frame that passes brings its counter, key
and credit word to the port, a credit frame has its units audited, and any other packet is delivered at the controller, or routed,
replicated or delivered by the agent. An event whose detail no rule states carries 0 (DESIGN CHOICE, docstring of State.frameIn). Where
it goes beyond the rules named it rests on the model's choices of log entries 17, 20, 143, 145, 147, 149, 170. -/
def Obligations.FrameResults : Prop :=
  ∀ (s u : State) (n : Node) (port : Nat) (f : Frame) (x y : PortSt) (h : Header),
    x = s.port n port → y = x.taken f → u = s.setPort n port y → h = f.pkt.hdr →
    (∀ c, c ∈ [Instr.frameReceive n port f, .creditFrame n port f] →
      (f.fecOk = false → exec c s
          = .next ((s.setPort n port { x with uncorrectable := min (x.uncorrectable + 1) 0xFFFFFFFF }).discard n port 0x0000))
      ∧ (f.fecOk = true → ∀ v, v = s.setPort n port { x with corrected := min (x.corrected + f.corrected) 0xFFFFFFFF } →
        (∀ k, x.lastRx = some k → f.ctr.toNat ≤ k → exec c s = .next (v.discard n port 0x0102))
        ∧ ((∀ k, x.lastRx = some k → k < f.ctr.toNat) → f.tagOk = false → exec c s = .next (v.discard n port 0x0101))))
    ∧ (y.lastRx = some f.ctr.toNat ∧ y.corrected = min (x.corrected + f.corrected) 0xFFFFFFFF
      ∧ (∀ k, x.rxAct = some k → k ≤ f.ctr.toNat → y.rxKey = x.rxNext ∧ y.rxFrames = 1 ∧ y.rxBoot = false)
      ∧ (x.rxAct = none → y.rxKey = x.rxKey ∧ y.rxFrames = x.rxFrames + 1 ∧ y.rxBoot = x.rxBoot))
    ∧ (f.fecOk = true → (∀ k, x.lastRx = some k → k < f.ctr.toNat) → f.tagOk = true →
      (∀ c, c = Instr.creditFrame n port f ∨ (c = .frameReceive n port f ∧ h.isCredit = true) →
        exec c s = .next (((u.setPort n port (y.audit h)).pumpPort n port).returnCredit n port)
        ∧ ∀ l, l = [bitsAt h.addr.toNat 32 16, bitsAt h.addr.toNat 16 16, bitsAt h.addr.toNat 0 16, bitsAt h.aux.toNat 0 16] →
          ∀ i < 4, (y.audit h).accounted.get i % 65536 = l.getD i 0
            ∧ (y.audit h).freed.get i + y.accounted.get i = y.freed.get i + (y.audit h).accounted.get i)
      ∧ (h.isCredit = false → ∃ t : State, (t.port n port).lastRx = some f.ctr.toNat ∧ t.regs = s.regs ∧ t.engines = s.engines
        ∧ t.queues = s.queues
        ∧ (y.rxBoot = true → h.cls ≠ .control → exec (.frameReceive n port f) s = .next ((t.discard n port 0x0103).freeUnits n port h))
        ∧ (y.rxBoot = false ∨ h.cls = .control →
          (∀ d, headerFault h = some d → exec (.frameReceive n port f) s = .next ((t.discard n port d).freeUnits n port h))
          ∧ (headerFault h = none → x.scrubBlocks h = true → exec (.frameReceive n port f) s
              = .next (((t.discard n port 0x0120 0).countScrub x h).freeUnits n port h))
          ∧ (headerFault h = none → x.scrubBlocks h = false →
            (n = .ctl → exec (.frameReceive n port f) s
              = .next (((t.noteTraffic n port h).emit (.delivered .ctl port f.pkt)).freeUnits .ctl port h))
            ∧ ∀ a, n = .agent a → exec (.frameReceive n port f) s
              = .next (((t.noteTraffic n port h).sample a port h).agentTake a port f.pkt)))))

/-- R66, R86, R90, R124, R337: a credit frame leaves while credit is out; a link that goes down retrains with an event of severity 3; 2^39
frames under a key ask for a rekey once, with a report that an orphan keeps, and 2^40 - 1 stop the port; the head slot of the source's
own sends what fits. Where it goes beyond the rules named it rests on the model's choices of log entries 16, 123, 126, 151. -/
def Obligations.LinkUpkeepResults : Prop :=
  ∀ (s : State) (n : Node) (port slot : Nat) (cause : LinkDownCause) (a : AgentRef) (lvl : Level) (v : Word64) (x : PortSt) (p : Packet),
    x = s.port n port →
    (s.portUp n port = false ∨ (∀ i < 4, poolSizes.get i ≤ x.credit.get i) → exec (.creditFrameTimer n port) s = .next s)
    ∧ (s.portUp n port = true → (∃ i < 4, x.credit.get i < poolSizes.get i) →
      ((∃ q ∈ x.queue, q.pkt.hdr.isCredit = true) → exec (.creditFrameTimer n port) s = .next s)
      ∧ ((∀ q ∈ x.queue, q.pkt.hdr.isCredit = false) → ∃ t, exec (.creditFrameTimer n port) s = .next t ∧ t.regs = s.regs ∧ t.engines = s.engines
        ∧ (t.port n port).lastCreditNs = s.nodeNow n
        ∧ (x.fits s.now (s.openPs n port) (creditPacket x).hdr = true →
            t.out = s.out ++ [.portFrame n port x.txCtr (creditWord x.freed) (creditPacket x)] ∧ (t.port n port).txCtr = x.txCtr + 1)
        ∧ (x.fits s.now (s.openPs n port) (creditPacket x).hdr = false →
            t.out = s.out ∧ (t.port n port).queue = { pkt := creditPacket x } :: x.queue)))
    ∧ (s.portUsable n port = false → exec (.linkDown n port cause) s = .next s)
    ∧ (s.portUsable n port = true → exec (.linkDown n port cause) s = .next (s.portDown n port
        (match cause with | .blockLock => 0x0201 | .codewords => 0x0202 | .noCodeword => 0x0203)))
    ∧ (∀ d, ((∀ q ∈ (s.port .ctl port).queue, q.source = none) → (s.portDown .ctl port d).out = s.out
          ∧ ((s.portDown .ctl port d).port .ctl port) = { (s.port .ctl port).retrain with trainNs := s.now })
        ∧ { kind := 64, origin := s.fid, port := port, openNs := s.now + 1, closeNs := none } ∈ (s.portDown .ctl port d).col.shadows)
    ∧ (x.rekeyAsked = true → exec (.rekeyThreshold n port) s = .next s)
    ∧ (x.rekeyAsked = false → ∀ u, u = s.setPort n port { x with rekeyAsked := true } →
      (n = .ctl → (∀ m q, s.farNode .ctl port = some (m, q) → exec (.rekeyThreshold n port) s
          = .next (u.rekeyOneWay .ctl port m q (x.txCtr + 2 ^ 32)))
        ∧ (s.farNode .ctl port = none → exec (.rekeyThreshold n port) s = .next u))
      ∧ (n = .agent a → ∀ l, l = leBytes 2 port ++ zeros 6 ++ leBytes 8 x.txCtr →
        (s.mayReport a = true → exec (.rekeyThreshold n port) s = .next (u.sendMgmt n (s.owner a) 0x27 l))
        ∧ (s.mayReport a = false → ∃ t q, exec (.rekeyThreshold n port) s = .next t ∧ t.out = s.out
          ∧ (t.agent a).reports = (s.agent a).reports ++ [q] ∧ q.hdr.typ = 0x27 ∧ q.payload = l)))
    ∧ (∃ u t, u = s.portDown n port 0x0107 ∧ exec (.rekeyOverrun n port) s = .next t ∧ (t.port n port).overrun = true
        ∧ t = u.setPort n port { u.port n port with overrun := true })
    ∧ exec (.rekey .tenant v) s = .next (s.satFld FLT_VIOL_TENANT 1)
    ∧ (lvl ≠ .tenant → exec (.rekey lvl v) s = .next (if LNK_CTRL_REKEY.of v = 1 then s.rekeyLink .ctl (s.fld LNK_SEL_PORT) (2 ^ 32) else s))
    ∧ (s.freshPacket .ctl p → s.refOf p.hdr.src = some a → ∀ m q, s.farNode (.agent a) (leAt p.payload 0 2) = some (m, q) →
        exec (.rekeyReq p) s = .next ((s.rekeyOneWay (.agent a) (leAt p.payload 0 2) m q (leAt p.payload 8 8 + 2 ^ 32)).acked .ctl p))
    ∧ (s.freshPacket .ctl p → s.refOf p.hdr.src = none → exec (.rekeyReq p) s = .next (s.acked .ctl p))
    ∧ ∀ w, w = s.slotEntry a port slot →
      (slotKind w ≠ 1 ∨ slotInPort w ≠ 0x1FF ∨ slotSrc w ≠ s.localOf a → exec (.expressHeadSlot a port slot) s = .next s)
      ∧ (slotKind w = 1 → slotInPort w = 0x1FF → slotSrc w = s.localOf a →
          ∀ t k, State.emitHead a port (slotFlits w) (s.headQueue a port (slotStream w)) s = (t, k) → k ≤ slotFlits w
          ∧ exec (.expressHeadSlot a port slot) s = .next (t.setPort (.agent a) port
              { t.port (.agent a) port with runPassed := some (t.jfld a JX_EPOCH_EPOCH_NUM * 4096 + slot, k) }))

/-- R42, R123, R95, R96, R106, R227: a post is refused at once while the endpoint is down or without a head entry of its stream; a WRITE
lands whole in a window, a READ_REQ is answered with what stands there, a SEND fills the next slot of the ring; an access of another
partition is refused with reason 0x03, an address outside or a ring of another partition with 0x04, a full ring with 0x05, an endpoint
that is down with 0x02; an agent of no partition refuses every tenant packet with 0x03. R111: an agent that holds 4,096 completions
refuses a further flagged packet with reason 0x07, of whatever kind, and writes nothing of it; one that holds fewer takes it. Where it
goes beyond the rules named it rests on the model's choices of log entries 23, 62, 63, 64, 65, 144. -/
def Obligations.EndpointPacketResults : Prop :=
  (∀ (s : State) (a : AgentRef) (p : Packet) (n : Node) (g : Agent) (u : State) (len : Nat),
    n = .agent a → g = s.agent a → u = s.updAgent a (fun g => { g with lowPower := 0 }) → len = p.hdr.length.toNat →
    (s.computeUp a = false ∨ g.lowPower = 2 → exec (.packetPost a p) s = .next (s.emit (.packetDone n p.hdr.dest p.hdr.stream 0 0x02)))
    ∧ (s.computeUp a = true → g.lowPower ≠ 2 → p.hdr.cls = .express → g.hasHead (s.localOf a) p.hdr.stream.toNat = false →
        exec (.packetPost a p) s = .next (s.emit (.packetDone n p.hdr.dest p.hdr.stream 0 0xE0)))
    ∧ (s.computeUp a = true → g.lowPower ≠ 2 → (p.hdr.cls = .express → g.hasHead (s.localOf a) p.hdr.stream.toNat = true) →
        exec (.packetPost a p) s = .next (s.sendPkt n { p with hdr := { p.hdr with resend := false, length := lenOf p.payload } }))
    ∧ (∀ c, c ∈ [Instr.write n p, .readReq n p true, .sendPacket n p, .dispatchCopy a p] →
      (a.variant = .e → s.computeUp a = false → p.hdr.cls ≠ .express → exec c s = .next (s.nakPkt n p.hdr 0x02))
      ∧ (a.variant = .e → s.computeUp a = false → p.hdr.cls = .express → g.lowPower ≠ 2 → exec c s = .next ((s.raiseAgent a 200 0).nakPkt n p.hdr 0x02))
      ∧ ((a.variant = .e → s.computeUp a = true ∧ g.lowPower ≠ 2) →
        (p.crcOk = false → exec c s = .next (u.nakPkt n p.hdr 0x01))
        ∧ (s.freshPacket n p → g.partition = 0 → p.hdr.partition ≠ 0 → exec c s = .next (u.nakPkt n p.hdr 0x03))))
    ∧ ((a.variant = .e → s.computeUp a = true ∧ g.lowPower ≠ 2) → s.freshPacket n p → p.hdr.partition ≠ g.partition →
      (∀ c, c ∈ [Instr.write n p, .readReq n p true] → exec c s = .next (u.nakPkt n p.hdr 0x03))
      ∧ (g.partition ≠ 0 → ∀ r, g.rxRing = some r → r.partition ≠ p.hdr.partition → ∀ c, c ∈ [Instr.sendPacket n p, .dispatchCopy a p] →
          exec c s = .next (u.nakPkt n p.hdr 0x04)))
    ∧ ((a.variant = .e → s.computeUp a = true ∧ g.lowPower ≠ 2) → p.hdr.partition = g.partition → s.freshPacket n p → p.hdr.ord = false →
      (g.inWindow p.hdr.partition p.hdr.addr.toNat len = false → exec (.write n p) s = .next (u.nakPkt n p.hdr 0x04))
      ∧ (g.inWindow p.hdr.partition p.hdr.addr.toNat len = true → ∃ t, exec (.write n p) s = .next t
        ∧ (t.agent a).mem = g.mem.writeBytes p.hdr.addr.toNat (slice p.payload 0 len) ∧ (t.agent a).rxRing = g.rxRing
        ∧ t.regs = s.regs ∧ t.engines = s.engines ∧ ∀ b, b ≠ a → t.agent b = s.agent b)
      ∧ (g.inWindow p.hdr.partition p.hdr.addr.toNat (bitsAt p.hdr.aux.toNat 0 13) = true → (s.rx n p.hdr.src p.hdr.stream).held = [] →
          p.hdr.typ = 0x03 → exec (.readReq n p true) s = .next ((u.recordSeq n p.hdr).readAnswer n p.hdr))
      ∧ (g.rxRing = none → ∀ c, c ∈ [Instr.sendPacket n p, .dispatchCopy a p] → exec c s = .next (u.nakPkt n p.hdr 0x04))
      ∧ (∀ r, g.rxRing = some r → r.partition = p.hdr.partition → 2 ^ r.log2 - 1 ≤ r.filled →
          ∀ c, c ∈ [Instr.sendPacket n p, .dispatchCopy a p] → exec c s = .next (u.nakPkt n p.hdr 0x05))
      ∧ (∀ r, g.rxRing = some r → r.partition = p.hdr.partition → r.filled < 2 ^ r.log2 - 1 →
          ∀ c, c ∈ [Instr.sendPacket n p, .dispatchCopy a p] → ∃ t, exec c s = .next t
            ∧ (t.agent a).rxRing = some { r with fill := (r.fill + 1) % 2 ^ r.log2 }
            ∧ (t.agent a).mem = g.mem.writeBytes (r.base + 4160 * r.fill)
                (slice (p.hdr.bytes ++ leBytes 8 (s.agentNow a) ++ zeros 24 ++ slice p.payload 0 len) 0 4160)
            ∧ t.regs = s.regs ∧ t.engines = s.engines ∧ ∀ b, b ≠ a → t.agent b = s.agent b))
    ∧ (∀ v r, g.rxRing = some r → exec (.rxRingHeadWrite a v) s
        = .next (s.updAgent a fun g => { g with rxRing := some { r with head := v % 2 ^ r.log2 } }))
    ∧ (g.rxRing = none → ∀ v, ∃ t, exec (.rxRingHeadWrite a v) s = .next t ∧ t = { s with agents := t.agents }
        ∧ ∀ b, t.agent b = s.agent b))
  ∧ (∀ (s : State) (a : AgentRef) (p : Packet) (tagOk : Bool), s.computeUp a = true → (s.agent a).lowPower ≠ 2 → p.crcOk = true →
    s.isDup (.agent a) p.hdr = false → p.hdr.partition = (s.agent a).partition → p.hdr.ord = true → p.hdr.prec ≠ 0xFFFF →
    ∀ u, u = s.updAgent a (fun g => { g with lowPower := 0 }) →
    (4096 ≤ (s.nodeStreams (.agent a)).heldCount →
      ∀ i ∈ [Instr.write (.agent a) p, .readReq (.agent a) p tagOk, .sendPacket (.agent a) p, .dispatchCopy a p, .readResp (.agent a) p],
      ∃ t, exec i s = .next t ∧ t = u.nakPkt (.agent a) p.hdr 0x07 ∧ (t.agent a).mem = (s.agent a).mem
        ∧ (t.nodeStreams (.agent a)).rx = (s.nodeStreams (.agent a)).rx)
    ∧ ((s.nodeStreams (.agent a)).heldCount < 4096 →
      (∀ i ∈ [Instr.sendPacket (.agent a) p, .dispatchCopy a p],
        (∀ t, u.fillRing a p = (t, none) → exec i s = .next (t.acked (.agent a) p))
        ∧ (∀ t r, u.fillRing a p = (t, some r) → exec i s = .next (t.nakPkt (.agent a) p.hdr r)))
      ∧ ((s.agent a).inWindow p.hdr.partition p.hdr.addr.toNat p.hdr.length.toNat = true → exec (.write (.agent a) p) s
        = .next ((u.updAgent a fun g =>
            { g with mem := g.mem.writeBytes p.hdr.addr.toNat (slice p.payload 0 p.hdr.length.toNat) }).acked (.agent a) p))))

/-- R228, R320, R340, R110: at the controller a WRITE and a READ_REQ reach the spill pool of the source's own partition, and spill data
whose tag fails is an event of severity 3 and is not emitted; a SEND reaches the inbox of a running engine with room; missing precedents
are asked for three times, then the completion ends with an error. Where it goes beyond the rules named it rests on the model's choices
of log entries 37, 55. -/
def Obligations.ControllerPacketResults : Prop :=
  ∀ (s : State) (p : Packet) (k len e : Nat), k = p.hdr.partition.toNat → len = p.hdr.length.toNat → s.freshPacket .ctl p → p.hdr.ord = false →
    (s.spillAllowed p.hdr = false → exec (.write .ctl p) s = .next (s.nakPkt .ctl p.hdr 0x03)
      ∧ exec (.readReq .ctl p true) s = .next (s.nakPkt .ctl p.hdr 0x03))
    ∧ (s.spillAllowed p.hdr = true →
      (s.spillRange k p.hdr.addr.toNat len = false → exec (.write .ctl p) s = .next (s.nakPkt .ctl p.hdr 0x04))
      ∧ (s.spillRange k p.hdr.addr.toNat len = true → ∃ t, exec (.write .ctl p) s = .next t
        ∧ t.spill = s.spill.set k ((s.spill.getD k []).writeBytes p.hdr.addr.toNat (slice p.payload 0 len)) ∧ t.regs = s.regs
        ∧ t.engines = s.engines ∧ t.hbm = s.hbm ∧ t.agents = s.agents)
      ∧ (s.spillRange k p.hdr.addr.toNat (bitsAt p.hdr.aux.toNat 0 13) = true →
          exec (.readReq .ctl p false) s = .next (s.raise (0x1802 + 0x20 * s.spillStack p.hdr) 3)
          ∧ (p.hdr.typ = 0x03 → (s.rx .ctl p.hdr.src p.hdr.stream).held = [] →
              exec (.readReq .ctl p true) s = .next ((s.recordSeq .ctl p.hdr).readAnswer .ctl p.hdr))))
    ∧ (e = bitsAt p.hdr.aux.toNat 0 5 → e ≠ 2 → s.isUplink p = false →
      ((s.engine e).running = false ∨ (s.engine e).inboxRoom e 0 = false → exec (.sendPacket .ctl p) s = .next (s.nakPkt .ctl p.hdr 0x05))
      ∧ ((s.engine e).running = true → (s.engine e).inboxRoom e 0 = true → (s.engine e).level = .tenant →
          p.hdr.partition ≠ (s.engine e).partition → exec (.sendPacket .ctl p) s = .next (s.nakPkt .ctl p.hdr 0x03))
      ∧ ((s.engine e).running = true → (s.engine e).inboxRoom e 0 = true →
          ((s.engine e).level = .tenant → p.hdr.partition = (s.engine e).partition) → ∃ t, exec (.sendPacket .ctl p) s = .next t
          ∧ t.engine e = (s.engine e).receive 0 (p.hdr.bytes ++ slice p.payload 0 len) ∧ (∀ i, i ≠ e → t.engine i = s.engine i)
          ∧ t.regs = s.regs ∧ t.agents = s.agents))
    ∧ ∀ (n : Node) (src : Fid) (stream : BitVec 16) (seq : BitVec 32) (x : StreamRx), x = s.rx n src stream →
      (x.held.find? (fun f => f.seq == seq) = none → exec (.precedentTimer n src stream seq) s = .next s)
      ∧ ∀ f, x.held.find? (fun f => f.seq == seq) = some f →
        (x.missing f.seq f.prec = [] ∨ s.nodeNow n < f.arrivedNs + 50000 * (f.requests + 1) → exec (.precedentTimer n src stream seq) s = .next s)
        ∧ (f.arrivedNs + 50000 * (f.requests + 1) ≤ s.nodeNow n → x.missing f.seq f.prec ≠ [] → f.requests < 3 →
          ∃ u, exec (.precedentTimer n src stream seq) s = .next (u.forEach
            (resendGroups (x.missing f.seq f.prec).length (x.missing f.seq f.prec)) fun s g => s.answer n f.hdr 0x0A g.1 g.2)
            ∧ u = s.setRx n src stream { x with held := x.held.map fun (y : HeldFlag) =>
                if y.seq = seq then { y with requests := y.requests + 1 } else y })
        ∧ (f.arrivedNs + 50000 * (f.requests + 1) ≤ s.nodeNow n → x.missing f.seq f.prec ≠ [] → 3 ≤ f.requests →
          (n = .ctl → exec (.precedentTimer n src stream seq) s = .next (State.settle n src stream x.held.length
            ((s.endHeld n f true).raiseAt n 194 18 2 (s.originPort .ctl { f.hdr with dest := src }) 0)))
          ∧ ∀ a, n = .agent a → exec (.precedentTimer n src stream seq) s = .next
            (State.settle n src stream x.held.length ((s.endHeld n f true).raiseAgent a 194 2)))

/-- R105 to R107, R165, R473: an answer ends the packet it names, a retry or a CRC mismatch sends it again with RESEND set, at most three
times, a final reason ends it at once but for a report of an agent, which is kept; after a NAK that leads to a resend, answers wait for
that resend (R112); an answer with a bad CRC or to nothing outstanding changes nothing at an agent. Where it goes beyond the rules named
it rests on the model's choices of log entries 18, 122, 123, 156. -/
def Obligations.AnswerResults : Prop :=
  ∀ (s : State) (n : Node) (p : Packet) (dest : Fid) (stream : BitVec 16) (seq : BitVec 32) (t : TxPkt) (r : Nat),
    (s.sent n dest stream seq = none →
      (n ≠ .ctl ∨ (∀ k ∈ s.hooks, k.dest = none → k.stream = stream → k.seq ≠ seq) → exec (.retryTimeout n dest stream seq) s = .next s)
      ∧ (n = .ctl → ∀ k ver, s.hooks.find? (fun k => k.dest.isNone && k.stream == stream && k.seq == seq) = some k → k.kind = .commit ver →
          exec (.retryTimeout n dest stream seq) s = .next (s.commitUnicast ver dest)))
    ∧ (s.sent n dest stream seq = some t →
      (t.waiting = true ∨ t.parked = true ∨ s.nodeNow n < t.emittedNs + retryNs t.pkt.hdr.cls → exec (.retryTimeout n dest stream seq) s = .next s)
      ∧ (t.waiting = false → t.parked = false → t.emittedNs + retryNs t.pkt.hdr.cls ≤ s.nodeNow n → exec (.retryTimeout n dest stream seq) s
          = .next (if s.noCount n t = true ∨ t.resends < 3 then s.resendPkt n t else s.giveUp n t 0xF0)))
    ∧ (retryNs .express = 50000 ∧ retryNs .control = 100000 ∧ retryNs .bulk = 200000)
    ∧ (t.pkt.hdr.cls ≠ .express → (n = .ctl → s.gatesOpen = true ∧ (t.pkt.hdr.behindMirror = true → s.mirrorBlocks = false)) →
        s.mayOriginate n t.pkt.hdr = true → ∃ q, .packet n q ∈ (s.resendPkt n t).out ∧ q.hdr.resend = true
        ∧ q.hdr.seq = t.pkt.hdr.seq ∧ q.payload = t.pkt.payload ∧ q.crcOk = true)
    ∧ (p.crcOk = false → ∀ c, c ∈ [Instr.ack n p, .nak n p, .resendReq n p, .regResp p] → exec c s = .next s)
    ∧ (p.crcOk = true → r = p.hdr.aux.toNat % 256 → s.sent n (originalDest p.hdr) p.hdr.stream p.hdr.seq = some t →
      (p.hdr.aux = 0 → exec (.ack n p) s = .next (if t.unsent = true ∨ t.refused = true then s else s.packetEnd n t 0))
      ∧ (t.waiting = false → t.parked = false →
        (p.hdr.aux = 0 → exec (.resendReq n p) s = .next (if s.noCount n t = true ∨ t.resends < 3 then s.resendPkt n t else s))
        ∧ (t.refused = true → exec (.nak n p) s = .next s)
        ∧ (t.refused = false → (r ∈ [2, 3, 4, 9, 10] → exec (.nak n p) s
            = .next (if n ≠ .ctl ∧ keptReport t.pkt.hdr = true then s.park n t else s.packetEnd n t (if r = 9 then 0xF2 else r)))
          ∧ (r ∈ [1, 5, 6, 7, 8] → s.noCount n t = false → 3 ≤ t.resends → exec (.nak n p) s = .next (s.giveUp n t r))
          ∧ (s.noCount n t = true ∨ t.resends < 3 → (r = 1 → exec (.nak n p) s = .next (s.resendPkt n t))
            ∧ (r ∈ [5, 6, 7, 8] → exec (.nak n p) s = .next (s.refuseTx n t))))))
    ∧ (∀ a, n = .agent a → a.variant = .e → s.computeUp a = false → p.hdr.cls ≠ .express → exec (.readResp n p) s = .next (s.nakPkt n p.hdr 0x02))
    ∧ (s.freshPacket n p → ∀ (u : State) x, x = p.hdr.addr.toNat → (n = .ctl → u = s) →
        (∀ a, n = .agent a → u = s.updAgent a (fun g => { g with lowPower := 0 }) ∧ (a.variant = .e → s.computeUp a = true ∧ (s.agent a).lowPower ≠ 2)
          ∧ ((s.agent a).partition = 0 → p.hdr.partition = 0)) →
        (s.sent n p.hdr.src (BitVec.ofNat 16 (bitsAt x 32 16)) (BitVec.ofNat 32 (bitsAt x 0 32)) = some t → t.pkt.hdr.typ = 0x03 →
          exec (.readResp n p) s = .next (((u.emit (.delivered n 0x1FF p)).packetEnd n t 0).acked n p))
        ∧ (s.sent n p.hdr.src (BitVec.ofNat 16 (bitsAt x 32 16)) (BitVec.ofNat 32 (bitsAt x 0 32)) = none →
          exec (.readResp n p) s = .next (u.acked n p)))
    ∧ (p.crcOk = true →
        (s.sent .ctl p.hdr.src p.hdr.stream p.hdr.seq = none → exec (.regResp p) s = .next s)
        ∧ (s.sent .ctl p.hdr.src p.hdr.stream p.hdr.seq = some t → t.pkt.hdr.typ = 0x30 → exec (.regResp p) s
            = .next (s.packetEnd .ctl t (leAt p.payload 8 1) (BitVec.ofNat 64 (leAt p.payload 0 8))))
        ∧ (s.sent .ctl p.hdr.src p.hdr.stream p.hdr.seq = some t → t.pkt.hdr.typ = 0x29 → leAt p.payload 8 1 ≠ 0 → exec (.regResp p) s
            = .next (s.packetEnd .ctl t (leAt p.payload 8 1) (BitVec.ofNat 64 (leAt p.payload 0 8))))
        ∧ (s.sent .ctl p.hdr.src p.hdr.stream p.hdr.seq = some t → t.pkt.hdr.typ = 0x29 → leAt p.payload 8 1 = 0 → exec (.regResp p) s
            = .next ((s.correctMap p.hdr.src (t.pkt.hdr.addr.toNat % 65536) (BitVec.ofNat 64 (leAt p.payload 0 8))).packetEnd .ctl t 0
                (BitVec.ofNat 64 (leAt p.payload 0 8))))
        ∧ (s.sent .ctl p.hdr.src p.hdr.stream p.hdr.seq = some t → t.pkt.hdr.typ ≠ 0x29 → t.pkt.hdr.typ ≠ 0x30 → exec (.regResp p) s = .next s))

/-! ## Faults, ledger, power -/

/-- R36, R374 to R380, R427: a lost die raises its event and its response, an arbiter is ordered out of the vote; a block reset opens the
shadow and takes the block out of service, and ends in probation or, where its test failed or 100 ms passed, in retirement; a quiet
period that passes puts the block back into service and adds a pip. Where it goes beyond the rules named it rests on the model's choices
of log entries 55, 68, 90, 91, 152, 176. -/
def Obligations.BlockResults : Prop :=
  ∀ (s : State) (b start : Nat) (lvl : Level) (v : Word64),
    (64 ≤ b ∨ b ∈ s.pwr.deadBlocks → exec (.dieLost b) s = .next s)
    ∧ (b < 3 → b ∉ s.pwr.deadBlocks → exec (.dieLost b) s = .next ((s.raise (blockSource b) 3).orderFence b 0))
    ∧ (3 ≤ b → b < 64 → b ∉ s.pwr.deadBlocks → ∀ u : State, u = s.raise (blockSource b) (if lastCopy s.pwr.deadBlocks s.pwr.rebuilt b = true then 4 else lossSeverity b) →
        ∀ w : State, w = ({ u with pwr := { u.pwr with deadBlocks := u.pwr.deadBlocks ++ [b] } } : State).blockOut b →
        exec (.dieLost b) s = .next (if lastCopy s.pwr.deadBlocks s.pwr.rebuilt b = true then w.requestTakeover else w))
    ∧ (∀ p, p < 72 → ((s.pdOut (p / 3)).port .ctl p).state = 0 ∧ ((s.pdOut (p / 3)).port .ctl p).key = 0)
    ∧ exec (.blockReset .tenant v) s = .next (s.satFld FLT_VIOL_TENANT 1)
    ∧ (lvl ≠ .tenant → b = PWR_CTRL_BLOCK.of v → ∀ u, u = s.setFld PWR_CTRL_BLOCK b →
      (PWR_CTRL_BLOCK_RESET.of v = 0 → exec (.blockReset lvl v) s = .next u)
      ∧ (PWR_CTRL_BLOCK_RESET.of v = 1 → b < 3 ∨ b = 63 → exec (.blockReset lvl v) s = .next (u.satFld FLT_VIOL_OPERATOR 1))
      ∧ (PWR_CTRL_BLOCK_RESET.of v = 1 → 3 ≤ b → b < 63 → s.blk FLT_BLKn_STATE b < 2 → s.ownShadowOpen b = false →
          exec (.blockReset lvl v) s = .next (u.startReset b))
      ∧ (PWR_CTRL_BLOCK_RESET.of v = 1 → 3 ≤ b → b < 63 → s.blk FLT_BLKn_STATE b = 3 →
          (b ∉ s.pwr.pipsCleared → exec (.blockReset lvl v) s = .next u)
          ∧ (b ∈ s.pwr.pipsCleared → s.ownShadowOpen b = false → exec (.blockReset lvl v) s = .next (u.startReset b)))
      ∧ (PWR_CTRL_BLOCK_RESET.of v = 1 → 3 ≤ b → b < 63 → s.blk FLT_BLKn_STATE b = 2 → exec (.blockReset lvl v) s = .next
          (u.present { origin := s.fid, source := blockSource b, severity := 4, timeNs := s.now, escalated := true })))
    ∧ (3 ≤ b → b < 64 → b ∈ s.pwr.deadBlocks → ∃ t, t = s.startReset b ∧ t.blk FLT_BLKn_STATE b = 2 ∧ b ∈ t.pwr.deadBlocks
        ∧ (b, s.now) ∈ t.pwr.resets ∧ { kind := b, origin := s.fid, openNs := s.now } ∈ t.col.shadows)
    ∧ (64 ≤ b → ∀ k, exec (.blockResetDone b k start) s = .next s)
    ∧ (3 ≤ b → b < 64 → s.blk FLT_BLKn_STATE b ≠ 3 → ∃ t, exec (.blockResetDone b true start) s = .next t ∧ t.blk FLT_BLKn_STATE b = 1
        ∧ b ∉ t.pwr.deadBlocks ∧ (∀ x, (b, x) ∉ t.pwr.resets) ∧ t.col.quietUntil.get b = some (s.now + s.blk FLT_BLKn_QUIET_MS b * 1000000))
    ∧ (3 ≤ b → b < 64 → s.blk FLT_BLKn_STATE b ≠ 3 → b ∈ s.pwr.deadBlocks → ∃ t, exec (.blockResetDone b false start) s = .next t
        ∧ t.blk FLT_BLKn_STATE b = 3 ∧ (∀ x, (b, x) ∉ t.pwr.resets) ∧ t.col.quietUntil = s.col.quietUntil.erase b)
    ∧ (b < 3 → s.fld TRI_CFG_AUTO_RESYNC = 1 → ∃ t, exec (.blockResetDone b true start) s = .next t ∧ t.fld TRI_STATUS_PHASE = 3
        ∧ t.fld TRI_STATUS_RESYNC_DIE = b)
    ∧ (s.pwr.resets = [] → exec (.resetTimeout b) s = .next s)
    ∧ (∀ x, s.pwr.resets.find? (fun x => x.1 == b) = some (b, x) →
      (s.now < x + 100000000 → exec (.resetTimeout b) s = .next s)
      ∧ (x + 100000000 ≤ s.now → exec (.resetTimeout b) s = .next (((s.closeShadows (fun y => y.kind == b) (s.now - 1)).retire b).present
          { origin := ((s.closeShadows (fun y => y.kind == b) (s.now - 1)).retire b).fid, source := blockSource b, severity := 3
            timeNs := ((s.closeShadows (fun y => y.kind == b) (s.now - 1)).retire b).now, escalated := true })))
    ∧ (∃ t, exec (.shadowClose b) s = .next t ∧ (∀ x ∈ t.col.shadows, x ∈ s.col.shadows)
        ∧ (∀ x ∈ s.col.shadows, x.kind ≠ b ∨ x.closeNs = none → x ∈ t.col.shadows)
        ∧ (∀ x ∈ t.col.shadows, ∀ c, x.kind = b → x.closeNs = some c → s.now ≤ c)
        ∧ (b < 64 → (∀ x ∈ t.col.shadows, x.kind ≠ b) → t.blk FLT_BLKn_SHADOW b = 0) ∧ t.out = s.out)
    ∧ (s.col.quietUntil.get b = none → exec (.quietExpire b) s = .next s)
    ∧ (∀ x, b < 64 → s.col.quietUntil.get b = some x → x ≤ s.now → s.blk FLT_BLKn_STATE b = 1 → ∃ t, exec (.quietExpire b) s = .next t
        ∧ t.blk FLT_BLKn_STATE b = 0 ∧ t.blk FLT_BLKn_PIPS b = min (s.blk FLT_BLKn_PIPS b + 1) 255 ∧ t.col.quietUntil = s.col.quietUntil.erase b
        ∧ b ∉ t.pwr.deadBlocks ∧ t.out = s.out)

/-- R364, R365, R369 to R373, R382: the oldest event on its way enters the queue in its part, is held or is dropped and counted; service
takes the oldest event of severity 3 or 4 first; a forced event carries detail 0xFFFF; FAULT_N is cleared only while no bad block is out
of service. Where it goes beyond the rules named it rests on the model's choices of log entries 88, 153. -/
def Obligations.CollectorResults : Prop :=
  ∀ (s : State) (e : Event) (n : Nat) (lvl : Level) (v : Word64),
    exec (.eventIngress (some e)) s = exec (.eventIngress none) (s.present e)
    ∧ (s.col.raised = [] → exec (.eventIngress none) s = .next s)
    ∧ (∀ l m, s.col.raised = e :: l → mergeQueued s.col.queue e = some m →
        exec (.eventIngress none) s = .next (({ s with col := { s.col with raised := l } } : State).setIngress m))
    ∧ (∀ l, s.col.raised = e :: l → mergeQueued s.col.queue e = none → ∀ u : State, u = { s with col := { s.col with raised := l } } →
      (3 ≤ e.severity → reservedUsed s.col.queue < 256 → exec (.eventIngress none) s
          = .next (u.setIngress (s.col.queue ++ [{ ev := e, reserved := true }])))
      ∧ (e.severity < 3 ∨ 256 ≤ reservedUsed s.col.queue → generalUsed s.col.queue < 3840 → exec (.eventIngress none) s
          = .next (u.setIngress (s.col.queue ++ [{ ev := e, reserved := false }])))
      ∧ (generalUsed s.col.queue ≥ 3840 → lowestBelow s.col.queue e.severity = none →
          (e.severity < 3 → exec (.eventIngress none) s = .next (u.noteDropped e.severity e.count))
          ∧ (3 ≤ e.severity → 256 ≤ reservedUsed s.col.queue → exec (.eventIngress none) s = .next s)))
    ∧ (∀ l, (s.setIngress l).col.queue = l ∧ (s.setIngress l).fld FLT_STATUS_QUEUE_USED = l.length % 2 ^ 13)
    ∧ (s.col.lre0Wait = [] → (s.col.queue = [] ∨ s.col.accountNs < 250 ∨ 65536 ≤ s.led.buffer.length ∨ s.pausing = true → exec .eventServe s = .next s)
      ∧ ∀ q, nextServed s.col.queue = some q → 250 ≤ s.col.accountNs → s.led.buffer.length < 65536 → s.pausing = false → ∀ l, l = removeFirst (· == q) s.col.queue →
        exec .eventServe s = .next ((({ s with col := { s.col with
          accountNs := if l.isEmpty = true then 0 else s.col.accountNs - 250 } } : State).setIngress l).serve q.ev q.lastNs))
    ∧ (∀ l q, nextServed l = some q → q ∈ l ∧ (q.ev.severity < 3 → ∀ x ∈ l, x.ev.severity < 3))
    ∧ exec (.fltForce .tenant n v) s = .next (s.satFld FLT_VIOL_TENANT 1) ∧ exec (.severityWrite .tenant n v) s = .next (s.satFld FLT_VIOL_TENANT 1)
    ∧ exec (.faultnClr .tenant v) s = .next (s.satFld FLT_VIOL_TENANT 1)
    ∧ (lvl ≠ .tenant → n < 8192 → exec (.severityWrite lvl n v) s = .next (s.writeSource lvl n v)
      ∧ (FLT_SRCn_FORCE.of v = 0 → exec (.fltForce lvl n v) s = .next s)
      ∧ (FLT_SRCn_FORCE.of v = 1 → exec (.fltForce lvl n v) s = .next (s.writeSource lvl n v)
        ∧ (FLT_SRCn_MASK.of (srcWrite (defaultSev n) (s.reg (fltSrc n)) v).1 = 0 → ∃ x l r, (s.writeSource lvl n v).col.raised = l ++ x :: r ∧ l ++ r = s.col.raised
          ∧ x.forced = true ∧ x.detail = 0xFFFF ∧ x.source = n)))
    ∧ (lvl ≠ .tenant → FLT_CFG_FAULTN_CLR.of v = 1 → (∀ b < 64, s.blk FLT_BLKn_STATE b = 0) → ∃ t, exec (.faultnClr lvl v) s = .next t
        ∧ t.fld FLT_STATUS_FAULTN = 0 ∧ t.pwr = { s.pwr with faultN := true } ∧ t.out = s.out)
    ∧ (lvl ≠ .tenant → ∀ b k, k = FLT_CFG_FAULTN_SEV.of v → 1 ≤ k → k ≤ 4 → b < 64 → s.blk FLT_BLKn_STATE b ≠ 0 → k ≤ s.blk FLT_BLKn_WORST b →
        ∃ t, exec (.faultnClr lvl v) s = .next t ∧ t.fld FLT_STATUS_FAULTN = s.fld FLT_STATUS_FAULTN ∧ t.pwr = s.pwr
          ∧ t.fld FLT_CFG_FAULTN_SEV = k ∧ t.out = s.out)

/-- R384 to R389, R393: a waiting record is merged in 250 ns or written in 500 ns of account time, at the index of its SEQ; without an HBM
copy it goes to flash; drops of a millisecond are summed up; copies go to flash, severity 3 and 4 first. R102, R369, R57, R26, R60: the
events of an agent are acknowledged and handed to the collector one by one, samples go to the telemetry area, a status report is kept
with the version it names. Where it goes beyond the rules named it rests on the model's choices of log entries 47, 72, 89. -/
def Obligations.LedgerAndReportResults : Prop :=
  (∀ (s : State) (r : LedgerRec) (rest : List LedgerRec) (n : Nat) (origin : Fid) (source : Nat), n = s.fld LED_SEQ_NEXT_SEQ →
    (s.led.buffer = [] → exec .ledgerWrite s = .next s)
    ∧ (s.led.buffer = r :: rest → s.led.writerNs < 250 ∨ s.gatesOpen = false → exec .ledgerWrite s = .next s)
    ∧ (s.led.buffer = r :: rest → s.mergeTarget r = none → s.led.writerNs < 500 → exec .ledgerWrite s = .next s)
    ∧ (s.led.buffer = r :: rest → s.mergeTarget r = none → 500 ≤ s.led.writerNs → s.gatesOpen = true → s.ringLost = false → ∃ t, exec .ledgerWrite s = .next t
      ∧ (∃ x, t.led.ring.get (n % 1048576) = some x ∧ x = { r with seq := n, pips := x.pips }) ∧ t.fld LED_SEQ_NEXT_SEQ = (n + 1) % 2 ^ 64
      ∧ t.led.buffer = rest ∧ (∀ i, i ≠ n % 1048576 → t.led.ring.get i = s.led.ring.get i) ∧ t.out = s.out)
    ∧ (∀ o, s.led.buffer = r :: rest → s.mergeTarget r = some o → 250 ≤ s.led.writerNs → s.gatesOpen = true → s.ringLost = false → ∃ t, exec .ledgerWrite s = .next t
      ∧ (∃ x, t.led.ring.get (o.seq % 1048576) = some x ∧ x.tally = o.tally + r.tally ∧ x.lastMs = r.lastMs ∧ x.seq = o.seq)
      ∧ t.fld LED_SEQ_NEXT_SEQ = n ∧ t.led.buffer = rest ∧ t.out = s.out)
    ∧ (s.led.buffer = r :: rest → 500 ≤ s.led.writerNs → s.gatesOpen = true → s.ringLost = true → ∃ t, exec .ledgerWrite s = .next t ∧ t.led.ring = s.led.ring
      ∧ t.led.buffer = rest ∧ t.fld LED_SEQ_NEXT_SEQ = (n + 1) % 2 ^ 64
      ∧ ∃ x : LedgerRec, x = { r with seq := n, pips := x.pips }
        ∧ t.led.flash = if 2 ≤ r.severity ∧ s.fld LED_FLASH_FLASH_OK = 1 then flashPush s.led.flash x.bytes else s.led.flash)
    ∧ (s.operMs ≤ s.led.summedMs → exec .msBoundary s = .next s)
    ∧ (s.led.summedMs < s.operMs → ∃ t, exec .msBoundary s = .next t ∧ t.led.summedMs = s.operMs ∧ t.led.drops = [0, 0, 0] ∧ t.led.ring = s.led.ring ∧ t.out = s.out
      ∧ t.led.buffer.length = s.led.buffer.length + ((List.range 3).filter fun v => decide (0 < s.led.drops.getD v 0)).length)
    ∧ (s.led.flashQ = [] ∨ s.fld LED_FLASH_FLASH_OK = 0 ∨ s.gatesOpen = false → exec .flashCopy s = .next s)
    ∧ (∀ q x, s.fld LED_FLASH_FLASH_OK = 1 → s.gatesOpen = true → s.led.flashQ = [q] → s.recWith q = some x → ∃ t, exec .flashCopy s = .next t
      ∧ t.led.flash = flashPush s.led.flash x.bytes ∧ t.led.flashQ = [] ∧ t.led.flashTally.get q = some x.tally
      ∧ t.out = s.out ++ [.flashRecord x.bytes])
    ∧ (s.newestRec origin source = none → exec (.recordCloseTimer origin source) s = .next s)
    ∧ (∀ x k, s.newestRec origin source = some x → s.led.mergedNs.get x.seq = some k → exec (.recordCloseTimer origin source) s
        = .next (if k + 1000000000 ≤ s.now then s.closeRecord x else s)))
  ∧ (∀ (s : State) (p : Packet) (w : Nat) (l : List (Nat × Nat)) (ph : Int) (u : State),
    ph = (match s.refOf p.hdr.src with | some a => (s.agent a).phaseNs | none => 0) →
    (s.freshPacket .ctl p → exec (.events p) s = .next ((s.forEach
        (parseEvents p.hdr.src ph (p.payload.length / 16) p.payload) fun s ev => (s.noteEvent ev).present ev).acked .ctl p))
    ∧ (p.crcOk = true → s.isDup .ctl p.hdr = true → exec (.events p) s = .next (s.again .ctl p.hdr)
      ∧ (p.hdr.typ ≠ 0x03 → (s.rx .ctl p.hdr.src p.hdr.stream).held = [] → (s.rx .ctl p.hdr.src p.hdr.stream).flagsBad = [] →
          exec (.events p) s = .next (s.ackPkt .ctl p.hdr)))
    ∧ (p.crcOk = false → ∀ c, c ∈ [Instr.events p, .samples p, .statusReport p] → exec c s = .next (s.nakPkt .ctl p.hdr 0x01))
    ∧ (p.crcOk = true → s.gatesOpen = false → exec (.samples p) s = .next s)
    ∧ (p.crcOk = true → s.gatesOpen = true → s.dom.telemetryAt + p.payload.length ≤ 8589934592 → ∃ t, exec (.samples p) s = .next t
      ∧ t.hbm = s.hbm.writeBytes (hbmBase 2 + s.dom.telemetryAt) p.payload ∧ t.dom.telemetryAt = s.dom.telemetryAt + p.payload.length
      ∧ t = { s with hbm := t.hbm, dom := { s.dom with telemetryAt := t.dom.telemetryAt } })
    ∧ (p.crcOk = true → u = { s with dom := { s.dom with known := s.dom.known.map fun k => if k.fid = p.hdr.src then
          { k with status := p.payload, version := BitVec.ofNat 32 (leAt p.payload 4 4) } else k } } →
        exec (.statusReport p) s = .next (if p.payload.length = 64 then u.slotsSeen p.hdr.src (leAt p.payload 24 8) else u))
    ∧ (∃ t, exec (.powerInterval w l) s = .next t ∧ t.fld PWR_STATUS_PKG_POWER_W = min w 65535 % 2 ^ 16 ∧ t.engines = s.engines
      ∧ t.out = s.out ∧ t.pwr.wakeQ = s.pwr.wakeQ
      ∧ ∀ k x, s.sec.parts = [(k, x)] → x.state ≠ 0 → ∃ y, t.pwr.partPower.get k = some ((s.operMs / 10 * 10 - 10) % 2 ^ 32, y)))

/-- R429 to R432, R437: an idle port asks its far end to sleep once; a far end that may sleep too acknowledges and sleeps, and one that may
not refuses (with reason 0x09: DESIGN CHOICE, log entry 82); the asking port sleeps on the acknowledgement. A wake request waits, merged
with an earlier one of its port, is granted within the lanes of its rail group, and its port then carries what waits. Where it goes
beyond the rules named it rests on the model's choices of log entries 44, 82, 123. -/
def Obligations.SleepAndWakeResults : Prop :=
  ∀ (s : State) (n : Node) (port : Nat) (p : Packet) (cls : WakeClass) (w : WakeReq),
    (s.maySleep n port = false ∨ (s.port n port).sleepAsked = true → exec (.portIdleTimeout n port) s = .next s)
    ∧ (s.maySleep n port = true → (s.port n port).sleepAsked = false → ∀ u, u = s.sendPkt n { hdr := ownHdr (s.port n port).farId 0x26 [] } true (some port) →
      exec (.portIdleTimeout n port) s = .next (u.setPort n port { u.port n port with sleepAsked := true })
      ∧ u.regs = s.regs ∧ u.engines = s.engines)
    ∧ (∀ status, (s.port n port).sleepAsked = true → (s.port n port).queue = [] →
        s.sleepAnswered n (some port) status = if status = 0 then s.sleepPort n port
          else s.setPort n port { s.port n port with sleepAsked := false })
    ∧ (p.crcOk = false → exec (.sleep n port p) s = .next (s.originateOn n port (answerPkt (s.nodeFid n) p.hdr 0x09 p.hdr.seq 0x01)))
    ∧ (p.crcOk = true → s.maySleep n port = false → exec (.sleep n port p) s
        = .next ((s.recordSeq n p.hdr).originateOn n port (answerPkt (s.nodeFid n) p.hdr 0x09 p.hdr.seq 0x09)))
    ∧ (p.crcOk = true → s.maySleep n port = true → ∃ t, exec (.sleep n port p) s = .next t ∧ (t.port n port).state = 6
      ∧ t = ((s.recordSeq n p.hdr).originateOn n port (answerPkt (s.nodeFid n) p.hdr 0x08 p.hdr.seq 0)).sleepPort n port
      ∧ t.engines = s.engines)
    ∧ (s.portUp .ctl port = true → exec (.wakeRequest port cls) s = .next s)
    ∧ (s.portUp .ctl port = false → (∀ r ∈ s.pwr.resets, r.1 ≠ 15 + port / 3) → (∀ x ∈ s.pwr.wakeQ, x.port ≠ port) →
      ∃ t x, exec (.wakeRequest port cls) s = .next t ∧ t.pwr.wakeQ = s.pwr.wakeQ ++ [x] ∧ x.port = port ∧ x.cls = wakeCode cls
        ∧ x.deferred = false ∧ t.ports = s.ports ∧ t.out = s.out)
    ∧ (s.pwr.wakeQ = [] → exec (.wakeGrant (railGroup port)) s = .next s)
    ∧ (s.pwr.wakeQ = [w] → w.port = port → s.lanesGranted (railGroup port) + w.lanes ≤ s.fld PWR_WAKE_CFG_WAKE_LANES →
      ∃ t, exec (.wakeGrant (railGroup port)) s = .next t ∧ t.pwr.wakeQ = [] ∧ port ∈ t.pwr.waking
        ∧ (railGroup port, s.tick, w.lanes) ∈ t.pwr.grants ∧ t.ports = s.ports ∧ t.out = s.out)
    ∧ (s.pwr.wakeQ = [w] → w.port = port → w.deferred = false → s.fld PWR_WAKE_CFG_WAKE_LANES < s.lanesGranted (railGroup port) + w.lanes →
      ∃ t, exec (.wakeGrant (railGroup port)) s = .next t ∧ t.pwr.wakeQ = [{ w with deferred := true }] ∧ t.pwr.waking = s.pwr.waking
        ∧ t.out = s.out)
    ∧ (port ∉ s.pwr.waking → exec (.wakeComplete port) s = .next s)
    ∧ (port ∈ s.pwr.waking → ∃ t, exec (.wakeComplete port) s = .next t ∧ port ∉ t.pwr.waking
      ∧ ((s.port .ctl port).state = 6 → (t.port .ctl port).state
          = if (s.port .ctl port).lanes < (s.port .ctl port).planned then 3 else 2))

/-! ## Installs, gambits, collectives -/

/-- R45, R50, R151, R155: an INSTALL of a new version is written to the shadow bank, or deferred while the bank is copied, and acknowledged;
a COMMIT whose bank passes its checks names the version and the epoch, after the patches a copy in progress holds back; both are refused
with 0x09 where a play is pending, and a late or failed COMMIT is an event too. Where it goes beyond the rules named it rests on the
model's choices of log entries 128, 157. -/
def Obligations.InstallResults : Prop :=
  ∀ (s : State) (a : AgentRef) (p : Packet) (n : Node) (g f : Agent) (v e : BitVec 32), n = .agent a → g = s.agent a → f = g.finishCopy a.variant → s.ownerPacket a p →
    v = BitVec.ofNat 32 (bitsAt p.hdr.addr.toNat 0 32) → e = BitVec.ofNat 32 (leAt p.payload 0 4) →
    (g.play ≠ none → exec (.install a p) s = .next (s.nakPkt n p.hdr 0x09)
      ∧ (s.epochBegun a e = false → exec (.commit a p) s = .next (s.nakPkt n p.hdr 0x09)))
    ∧ (v = s.version a → exec (.install a p) s = .next (s.nakPkt n p.hdr 0x09))
    ∧ (g.play = none → v ≠ s.version a → g.shadowHolds = none ∨ g.shadowHolds = some v → ∃ t, exec (.install a p) s = .next t
      ∧ (t.agent a).shadowHolds = some v ∧ (t.agent a).active = g.active ∧ t.regs = s.regs ∧ t.engines = s.engines
      ∧ (g.copying = true → (t.agent a).deferred = g.deferred ++ [p.payload] ∧ (t.agent a).shadow = g.shadow)
      ∧ (∀ l, g.copying = false → parsePatches a.variant p.payload.length p.payload = some l → (t.agent a).shadow = g.shadow.patches l)
      ∧ (g.copying = false → parsePatches a.variant p.payload.length p.payload = none →
          (t.agent a).shadow = g.shadow ∧ (t.agent a).shadowBad = some 36)
      ∧ ∀ b, b ≠ a → t.agent b = s.agent b)
    ∧ (g.copying = false → f = g)
    ∧ (s.epochBegun a e = true → exec (.commit a p) s = .next ((s.raiseAgent a 33 2 (low16 v)).nakPkt n p.hdr 0x09))
    ∧ (g.play = none → s.epochBegun a e = false →
      (g.shadowHolds = none → v = s.version a → exec (.commit a p) s = .next (s.acked n p))
      ∧ (∀ w, g.shadowHolds = some w → w ≠ v → exec (.commit a p) s = .next (s.nakPkt n p.hdr 0x09))
      ∧ (g.shadowHolds = some v ∨ (g.shadowHolds = none ∧ v ≠ s.version a) → ∀ slots,
          slots = (match f.pendingGeometry with | some (k, _, _) => k | none => f.geometry.1) →
        (∀ k, f.shadowBad = some k → exec (.commit a p) s = .next ((s.raiseAgent a k 2 (low16 v)).nakPkt n p.hdr 0x09))
        ∧ (∀ k, f.shadowBad = none → f.shadow.fault a.variant slots = some k →
            exec (.commit a p) s = .next ((s.raiseAgent a k 2 (low16 v)).nakPkt n p.hdr 0x09))
        ∧ (f.shadowBad = none → f.shadow.fault a.variant slots = none →
            exec (.commit a p) s = .next ((s.updAgent a fun g => { g with commitAt := some (v, e) }).acked n p))))

/-- R48, R71, R153, R158, R160: STAGE writes, tags, makes valid, invalidates and rebases staging slots; an uncorrectable error clears the
valid bit, keeps the tag and loses what had arrived; the end of a copy applies what was deferred. -/
def Obligations.StagingResults : Prop :=
  ∀ (s : State) (a : AgentRef) (p : Packet) (n : Node) (slot off : Nat) (x : Staged), n = .agent a → slot = stageSlot p.hdr →
    off = bitsAt p.hdr.addr.toNat 0 18 → x = s.staged a slot →
    (s.ownerPacket a p → x.valid = true ∨ slotBytes a.variant < off + p.payload.length ∨ stageOp p.hdr = 3 →
      exec (.stageWrite a p) s = .next (s.nakPkt n p.hdr 0x09))
    ∧ (s.ownerPacket a p → x.valid = false → off + p.payload.length ≤ slotBytes a.variant → stageOp p.hdr ≠ 3 → ∃ t,
      exec (.stageWrite a p) s = .next t ∧ (t.staged a slot).bytes = x.bytes.writeBytes off p.payload
      ∧ (t.staged a slot).tag = (if off = 0 then some (sectionGambit (x.bytes.writeBytes off p.payload)) else x.tag)
      ∧ (t.staged a slot).valid = ((t.staged a slot).tag.isSome && sectionOk (t.staged a slot).bytes (t.staged a slot).arrived (slotBytes a.variant))
      ∧ (t.staged a slot).arrived = x.arrived ++ [(off, p.payload.length)]
      ∧ (t.jx a JX_GAMBIT_STAGED).getLsbD slot = (t.staged a slot).valid ∧ (∀ i, i ≠ slot → t.staged a i = s.staged a i)
      ∧ t.regs = s.regs ∧ t.engines = s.engines)
    ∧ (s.ownerPacket a p → ∃ t, exec (.stageInvalidate a p) s = .next t ∧ (t.staged a slot).tag = none ∧ (t.staged a slot).valid = false
      ∧ (t.jx a JX_GAMBIT_STAGED).getLsbD slot = false ∧ (∀ i, i ≠ slot → t.staged a i = s.staged a i) ∧ t.regs = s.regs)
    ∧ (s.ownerPacket a p → ∃ t, exec (.stageRebase a p) s = .next t ∧ t.regs = s.regs ∧ ∀ i < 64, t.staged a i =
        (if bitsAt (leAt p.payload 0 8) i 1 = 1 ∧ (s.staged a i).tag.isSome = true then
          { s.staged a i with base := BitVec.ofNat 32 (bitsAt p.hdr.addr.toNat 0 32) } else s.staged a i))
    ∧ (∀ k : BitVec 6, ∃ t, exec (.stagedSlotEccError a k) s = .next t ∧ t.staged a k.toNat = { s.staged a k.toNat with valid := false, bytes := [], arrived := [] }
      ∧ (t.jx a JX_GAMBIT_STAGED).getLsbD k.toNat = false ∧ (∀ i, i ≠ k.toNat → t.staged a i = s.staged a i)
      ∧ t = { s with agents := t.agents })
    ∧ ((s.agent a).copying = false → ∃ t, exec (.shadowCopyDone a) s = .next t ∧ t = { s with agents := t.agents } ∧ ∀ b, t.agent b = s.agent b)
    ∧ ((s.agent a).copying = true → ∃ t, exec (.shadowCopyDone a) s = .next t ∧ t = { s with agents := t.agents }
      ∧ (t.agent a).active = (s.agent a).active ∧ (t.agent a).deferred = [] ∧ (t.agent a).copying = false
      ∧ ((s.agent a).deferred = [] → (t.agent a).shadow = (s.agent a).shadow) ∧ ∀ b, b ≠ a → t.agent b = s.agent b)

/-- R49, R50, R108, R161, R165, R169: a PLAY of a higher sequence whose slots are valid and of the installed version becomes pending; one
that does not concern the agent is not acknowledged, a copy of one that does is acknowledged again; an older one is an event; applied
sections stand in the shadow bank or cancel the play. Where it goes beyond the rules named it rests on the model's choices of log entry
159. -/
def Obligations.PlayResults : Prop :=
  ∀ (s : State) (a : AgentRef) (p : Packet) (seq : BitVec 16) (mine : List (BitVec 24 × Nat)),
    seq = BitVec.ofNat 16 (bitsAt p.hdr.aux.toNat 0 16) → mine = (playList p).filter (fun x => (s.staged a x.2).tag == some x.1) →
    (p.crcOk = true → s.orphan a = false → p.hdr.src = s.owner a → s.owner a ≠ noFid → s.isDup (.agent a) p.hdr = true →
      (mine ≠ [] → exec (.play a p) s = .next (s.again (.agent a) p.hdr)) ∧ (mine = [] → exec (.play a p) s = .next s))
    ∧ (s.ownerPacket a p → (s.agent a).playSeqSeen = true → playHigher seq (BitVec.ofNat 16 (s.jfld a JX_GAMBIT_PLAY_SEQ)) = false →
      exec (.play a p) s = .next (s.raiseAgent a 98 1 seq))
    ∧ (s.ownerPacket a p → (s.agent a).playSeqSeen = false ∨ playHigher seq (BitVec.ofNat 16 (s.jfld a JX_GAMBIT_PLAY_SEQ)) = true →
      (mine = [] → ∃ t, exec (.play a p) s = .next t ∧ t.jfld a JX_GAMBIT_PLAY_SEQ = seq.toNat ∧ (t.agent a).play = none
        ∧ (t.agent a).active = (s.agent a).active ∧ t.out = s.out ∧ t.regs = s.regs)
      ∧ (mine ≠ [] → (∀ x ∈ mine, (s.staged a x.2).valid = true ∧ (s.staged a x.2).base = s.version a) → ∃ t, exec (.play a p) s = .next t
        ∧ (t.agent a).play = some { seq := seq, swapEpoch := BitVec.ofNat 32 (bitsAt p.hdr.addr.toNat 1 32)
                                    resultVersion := BitVec.ofNat 32 (leAt p.payload 0 4), slots := mine.map (·.2) }
        ∧ t.jfld a JX_STATUS_PLAY_PENDING = 1 ∧ (t.agent a).active = (s.agent a).active ∧ t.regs = s.regs))
    ∧ ((s.agent a).play = none → exec (.playApplyDone a) s = .next s)
    ∧ (∀ q, (s.agent a).play = some q → q.applied = true → exec (.playApplyDone a) s = .next s)
    ∧ (∀ q b, (s.agent a).play = some q → q.applied = false → (s.agent a).applyPlay a.variant q.slots = some b →
      exec (.playApplyDone a) s = .next (s.updAgent a fun g => { g with
        shadow := b, copying := false, deferred := [], shadowBad := none, play := some { q with applied := true } }))
    ∧ (∀ q, (s.agent a).play = some q → q.applied = false → (s.agent a).applyPlay a.variant q.slots = none →
      exec (.playApplyDone a) s = .next ((s.cancelPlay a).raiseAgent a 97 3 (BitVec.ofNat 16 (q.slots.headD 0))))

/-- R42, R55, R200, R226, R245, R276, R284: a doorbell of the queue's partition moves its tail and the queue runs; one of another partition
counts, one beyond the ring counts at the queue; a LAUNCH is a posted descriptor; a go notice starts its operation; a chunk without its
answer is sent again three times and then aborted with reason 4. Where it goes beyond the rules named it rests on the model's choices of
log entries 9, 32, 37, 101, 165. -/
def Obligations.GroupQueueResults : Prop :=
  ∀ (s : State) (a : AgentRef) (q : Nat) (g : GroupQueue) (part : BitVec 12) (v : BitVec 32) (p : Packet) (u : State),
    u = s.updAgent a (fun x => { x with lowPower := if x.lowPower = 1 then 0 else x.lowPower }) →
    (s.gq a q = none → exec (.gqDoorbell a q part v) s = .next (s.agentViolation a (if part = 0 then .operator else .tenant))
      ∧ exec (.gqCqHeadDoorbell a q v) s = .next s)
    ∧ (s.gq a q = some g →
      (part ≠ g.partition → exec (.gqDoorbell a q part v) s = .next (s.agentViolation a (if part = 0 then .operator else .tenant)))
      ∧ (s.computeUp a = false → exec (.gqDoorbell a q g.partition v) s = .next s ∧ exec (.gqCqHeadDoorbell a q v) s = .next s)
      ∧ (s.computeUp a = true → 2 ^ g.ringLog2 ≤ v.toNat →
        exec (.gqDoorbell a q g.partition v) s = .next (u.setGq a q { g with doorbellBad := min (g.doorbellBad + 1) 255 })
        ∧ exec (.gqCqHeadDoorbell a q v) s = .next (s.setGq a q { g with doorbellBad := min (g.doorbellBad + 1) 255 }))
      ∧ (s.computeUp a = true → v.toNat < 2 ^ g.ringLog2 →
        exec (.gqDoorbell a q g.partition v) s = .next ((u.setGq a q { g with tail := v.toNat }).runQueue a q)
        ∧ exec (.gqCqHeadDoorbell a q v) s = .next ((s.setGq a q { g with cqHead := v.toNat }).runQueue a q)))
    ∧ (s.computeUp a = false → ∀ k, exec (.launch a k p) s = .next (s.nakPkt (.agent a) p.hdr 0x02))
    ∧ (s.computeUp a = true → s.freshPacket (.agent a) p → ∀ k,
      (((s.agent a).gqs.find? fun x => x.2.group == k) = none → exec (.launch a k p) s = .next (s.acked (.agent a) p))
      ∧ (((s.agent a).gqs.find? fun x => x.2.group == k) = some (q, g) →
          exec (.launch a k p) s = .next (((s.takeDesc a q (slice p.payload 0 64) true).runQueue a q).acked (.agent a) p)))
    ∧ (s.ownerPacket a p → ∀ x : GoNotice,
      (((s.agent a).gqs.find? fun y => y.2.group == x.group) = none → exec (.go a p x) s = .next (s.acked (.agent a) p))
      ∧ (((s.agent a).gqs.find? fun y => y.2.group == x.group) = some (q, g) →
          exec (.go a p x) s = .next ((s.takeGo a q g x).acked (.agent a) p)))
    ∧ (∀ (k : Nat) (op : BitVec 32) (i : Nat), (s.agent a).findOp k op = none → exec (.chunkTimeout a k op i) s = .next s)
    ∧ (∀ (o : MemberOp) (x : MemberChunk) (i : Nat), (s.agent a).findOp o.group o.opSeq = some o → s.gq a o.queue = some g →
        o.chunks.find? (fun x => x.index == i && !x.released) = some x →
      (s.agentNow a < x.emittedNs + g.timeoutUs * 1000 → exec (.chunkTimeout a o.group o.opSeq i) s = .next s)
      ∧ (x.emittedNs + g.timeoutUs * 1000 ≤ s.agentNow a → (s.agent a).chunkSuspended = false → 3 ≤ x.resends → exec (.chunkTimeout a o.group o.opSeq i) s
          = .next (((s.raiseAgent a 196 2).memberAbort a o 4).runQueue a o.queue))
      ∧ (x.emittedNs + g.timeoutUs * 1000 ≤ s.agentNow a → (s.agent a).chunkSuspended = true ∨ x.resends < 3 → ∀ w,
          w = s.setOp a (o.updChunk i fun x => { x with
            resends := if (s.agent a).chunkSuspended = false then x.resends + 1 else x.resends, emittedNs := s.agentNow a }) →
          (o.ring = true → exec (.chunkTimeout a o.group o.opSeq i) s = .next (w.ringSend a g o x true))
          ∧ (o.ring = false → x.hasResult = false → exec (.chunkTimeout a o.group o.opSeq i) s = .next (w.sendMemberChunk a g o i true))
          ∧ (o.ring = false → x.hasResult = true → exec (.chunkTimeout a o.group o.opSeq i) s
              = .next (w.memberSend a { o.fields g 0x12 i with combine := 0, fmt := 0, resend := true }))))
    ∧ ((s.agent a).swapOpenedNs = none → exec (.attemptResumeTimer a) s = .next s)
    ∧ (∀ x, (s.agent a).swapOpenedNs = some x →
      (s.agentNow a < x + 5000000 → exec (.attemptResumeTimer a) s = .next s)
      ∧ (x + 5000000 ≤ s.agentNow a → exec (.attemptResumeTimer a) s
          = .next (s.updAgent a fun x => { x with chunkSuspended := false, swapOpenedNs := none })))

/-- R52, R104, R237, R255, R260, R261, R267, R270, R282, R287: a Collective packet with a bad CRC, without a context, of another partition
or of an unknown input is discarded, one of another generation is discarded at severity 0; a chunk of an input is taken by its node, a
copy of a part that stands in its set changes nothing; a context is written whole or refused, and a free order frees it. Where it goes
beyond the rules named it rests on the model's choices of log entries 33, 34, 39, 158, 164. -/
def Obligations.ReductionNodeResults : Prop :=
  ∀ (s : State) (a : AgentRef) (n : Node) (p : Packet) (c : Ctx) (h : BitVec 128) (kids : List (BitVec 128)) (u : State),
    n = .agent a → u = s.charge n p.hdr →
    (p.crcOk = false → ∀ m k, k ∈ [Instr.chunk m p, .chunkResult m p, .chunkAck m p] → exec k s = .next (s.discard m 0 0x0108))
    ∧ (p.crcOk = true → pktTree p.hdr = 0 → s.computeUp a = true → exec (.chunk n p) s = .next (s.ringChunk a p)
      ∧ exec (.chunkAck n p) s = .next (s.ringAck a p.hdr))
    ∧ (p.crcOk = true → pktTree p.hdr ≠ 0 → s.ctx n (pktTree p.hdr) (pktGroup p.hdr) = none →
      exec (.chunk n p) s = .next (u.collDiscard n (pktTree p.hdr))
      ∧ (s.nodeHead n (pktTree p.hdr) = none → exec (.chunkResult n p) s = .next (if s.computeUp a = true then s.memberResult a p else s)
        ∧ exec (.chunkAck n p) s = .next (if s.computeUp a = true then s.memberRootAck a p.hdr else s)))
    ∧ (p.crcOk = true → pktTree p.hdr ≠ 0 → s.ctx n (pktTree p.hdr) (pktGroup p.hdr) = some c → s.nodeHead n (pktTree p.hdr) = some (h, kids) →
      (p.hdr.partition ≠ c.partition → exec (.chunk n p) s = .next (u.collDiscard n (pktTree p.hdr))
        ∧ exec (.chunkResult n p) s = .next (u.collDiscard n (pktTree p.hdr)) ∧ exec (.chunkAck n p) s = .next (s.collDiscard n (pktTree p.hdr)))
      ∧ (p.hdr.partition = c.partition → pktGen p.hdr ≠ c.generation →
        exec (.chunk n p) s = .next (u.nodeGenDiscard n (pktGen p.hdr) c.generation)
        ∧ exec (.chunkAck n p) s = .next (s.nodeGenDiscard n (pktGen p.hdr) c.generation))
      ∧ (p.hdr.partition = c.partition → pktGen p.hdr = c.generation →
        exec (.chunkResult n p) s = .next (u.nodeResult n h kids c p)
        ∧ (s.inputOf n h kids p.hdr.src = none → exec (.chunk n p) s = .next (u.collDiscard n (pktTree p.hdr)))
        ∧ (∀ i, s.inputOf n h kids p.hdr.src = some i → exec (.chunk n p) s = .next (u.nodeChunk n h kids c i p)
          ∧ exec (.chunkAck n p) s = .next (s.nodeChildAck n h kids c i p))
        ∧ (s.inputOf n h kids p.hdr.src = none → p.hdr.src = headParent h → s.isRoot n h c.group = false →
            exec (.chunkAck n p) s = .next (s.nodeParentAck n h kids c p))))
    ∧ (∀ i x, pktKind p.hdr ≠ 3 → c.abortOf p.hdr.seq = none → c.find p.hdr.seq (pktIndex p.hdr) = some x → x.phase = .open_ →
        (∃ y ∈ x.ofInput i, y.part = (contribution p i).part) → x.whole (inputsOf h) = false → s.nodeChunk n h kids c i p = s)
    ∧ (s.ownerPacket a p → c = ctxOf p.payload →
      (s.ctx n c.treeId c.group ≠ none ∨ ctxTotal a.variant ≤ (s.agent a).ctxs.length ∨ c.blockCount < max 1 (ctxBlocks c.inputs c.window c.chunkLog2)
          ∨ blocksTotal a.variant < ((s.agent a).ctxs.map (·.blockCount)).sum + c.blockCount →
        exec (.reserveWrite a p) s = .next ((s.satJfld a JX_RCTX_RESERVE_FAILS 1).nakPkt n p.hdr 0x09))
      ∧ (s.ctx n c.treeId c.group = none → max 1 (ctxBlocks c.inputs c.window c.chunkLog2) ≤ c.blockCount →
          (s.agent a).ctxs.length < ctxTotal a.variant →
          ((s.agent a).ctxs.map (·.blockCount)).sum + c.blockCount ≤ blocksTotal a.variant → ∃ t, exec (.reserveWrite a p) s = .next t
          ∧ (t.agent a).ctxs = (s.agent a).ctxs ++ [c] ∧ t.regs = s.regs ∧ t.engines = s.engines ∧ ∀ b, b ≠ a → t.agent b = s.agent b)
      ∧ (s.ctx n c.treeId c.group = none → exec (.reserveFree a p) s = .next (s.nakPkt n p.hdr 0x09))
      ∧ (s.ctx n c.treeId c.group ≠ none → ∃ t, exec (.reserveFree a p) s = .next t
          ∧ (t.agent a).ctxs = ((s.agent a).ctxs.filter fun x => !(x.treeId == c.treeId && x.group == c.group)) ∧ t.regs = s.regs
          ∧ t.engines = s.engines ∧ ∀ b, b ≠ a → t.agent b = s.agent b))

/-- R7, R155, R156, R163, R164, R166: a COMMIT that an agent has not acknowledged is put off by 4 epochs three times, then those agents
count as failed; a PLAY goes again twice to the agents that have not acknowledged it; the classification closes; AUTO_PLAY lapses its
figure; a drain is asked for where every schedule on the element is replaced, a drained quiet element may be reset, one that is not
quiet in time is reported at severity 2. Each deadline acts at its time and not before. Where it goes beyond the rules named it rests on
the model's choices of log entries 103, 123, 135, 154, 156, 160. -/
def Obligations.FailoverResults : Prop :=
  ∀ (s : State) (i : InstallSt) (p : CtlPlay) (lvl : Level) (v : Word64) (d : DrainElem),
    (s.rte.install = none → exec .commitDeadline s = .next s)
    ∧ (s.rte.install = some i →
      (i.committed = false ∨ s.commitMissing i = [] ∨ 100000 < s.nsToEpoch i.epoch → exec .commitDeadline s = .next s)
      ∧ (i.committed = true → s.commitMissing i ≠ [] → s.nsToEpoch i.epoch ≤ 100000 → i.postponements < 3 → exec .commitDeadline s = .next (({ s with rte :=
          { s.rte with install := some { i with epoch := i.epoch + 4, postponements := i.postponements + 1, commitAcks := [], unicast := []
                                                commitNs := s.now } } } : State).sendCommit i.version (i.epoch + 4)))
      ∧ (i.committed = true → s.commitMissing i ≠ [] → s.nsToEpoch i.epoch ≤ 100000 → 3 ≤ i.postponements → ∃ t, exec .commitDeadline s = .next t
          ∧ (∀ f ∈ s.commitMissing i, (f, none) ∈ t.rte.failed ∧ ∀ k ∈ t.dom.known, k.fid = f → k.admitted = false)
          ∧ t.rte.install = some { i with silent := i.silent ++ s.commitMissing i } ∧ t.engines = s.engines))
    ∧ (s.rte.play = none → exec .playResendTimer s = .next s)
    ∧ (s.rte.play = some p →
      (2 ≤ p.resends ∨ s.now < p.emittedNs + 100000 * (p.resends + 1) → exec .playResendTimer s = .next s)
      ∧ (p.resends < 2 → p.emittedNs + 100000 * (p.resends + 1) ≤ s.now → ∃ t, exec .playResendTimer s = .next t ∧ t.rte = { s.rte with play := some { p with resends := p.resends + 1 } }
          ∧ t.regs = s.regs ∧ t.engines = s.engines
          ∧ ((∀ f ∈ s.playAgents p.gambits, f ∈ p.acks) → t = { s with rte := t.rte })))
    ∧ (s.rte.classNs = none → exec .classificationClose s = .next s)
    ∧ (∀ x, s.rte.classNs = some x → s.now < x + 20000 → exec .classificationClose s = .next s)
    ∧ (∀ x, s.rte.classNs = some x → x + 20000 ≤ s.now → ∃ t, exec .classificationClose s = .next t ∧ t.rte.classNs = none ∧ t.rte.reports = []
        ∧ ∀ y ∈ s.classified, y ∈ t.rte.failed)
    ∧ exec (.autoPlayWrite .tenant v) s = .next (s.satFld FLT_VIOL_TENANT 1)
    ∧ (lvl ≠ .tenant → ∃ t, exec (.autoPlayWrite lvl v) s = .next t ∧ t.fld RTE_FAILOVER_AUTO_PLAY = RTE_FAILOVER_AUTO_PLAY.of v
        ∧ (RTE_FAILOVER_NO_GAMBIT.of v = 0 → t.fld RTE_FAILOVER_NO_GAMBIT = s.fld RTE_FAILOVER_NO_GAMBIT)
        ∧ (RTE_FAILOVER_AUTO_PLAY.of v = 0 → (0x0004, 0) ∈ t.lapses) ∧ t.rte = s.rte ∧ t.engines = s.engines)
    ∧ (s.drainOf d = none → exec (.drainTimeout d) s = .next s
      ∧ (∀ a ∈ s.sch.admitted, s.usesElem a.sched d = true → s.replaced a d = false → exec (.drainQuiet d) s = .next s)
      ∧ ((∀ a ∈ s.sch.admitted, s.usesElem a.sched d = true → s.replaced a d = true) →
        (s.drainSets d = [] → exec (.drainQuiet d) s = .next (s.drainInForce d))
        ∧ (s.drainSets d ≠ [] → exec (.drainQuiet d) s = .next ((s.setDrain { elem := d }).submitInstall (s.drainSets d) (.drain d)))))
    ∧ (∀ x, s.drainOf d = some x →
      (x.startNs = none → exec (.drainQuiet d) s = .next s ∧ exec (.drainTimeout d) s = .next s)
      ∧ (s.drained d = false ∨ s.elemQuiet d = false → exec (.drainQuiet d) s = .next s)
      ∧ (x.startNs ≠ none → s.drained d = true → s.elemQuiet d = true →
          exec (.drainQuiet d) s = .next (s.setDrain { x with permitted := true }))
      ∧ (∀ b, x.startNs = some b →
        (x.permitted = true ∨ x.late = true ∨ s.now < b + 100000000 → exec (.drainTimeout d) s = .next s)
        ∧ (x.permitted = false → x.late = false → b + 100000000 ≤ s.now →
          exec (.drainTimeout d) s = .next ((s.setDrain { x with late := true }).raise srcRTE 2))))

/-! ## Queues, groups, dispatch, KV, partitions, attestation, triad -/

/-- R199 to R201, R210, R212, R214, R216, R420: a doorbell of an enabled queue moves the tail or the completion head, another counts, none
acts before the controller is ready; a turn, in ascending rotation of the queues that have entries to read, reads up to 8 entries never
beyond the free records; enabling starts both heads at 0; disabling cancels and ends when nothing is left; what was read arrives at its
entry; the time limit stops a program as cancelled. Where it goes beyond the rules named it rests on the model's choices of log entries
104, 124, 133. -/
def Obligations.QueueResults : Prop :=
  ∀ (s : State) (q : Nat) (x : QueueSt) (v : BitVec 32) (w : Word64) (lvl : Level) (ok : Bool) (data : List Byte) (size head n e : Nat),
    x = s.queue q → size = s.ringSize q → head = s.cq q CTL_CQn_STATUS_SQ_HEAD →
    n = min 8 (min ((x.tail + size - head) % size) (min (s.freeRecords q) (size - head))) →
    (s.ready = false → ∀ i ∈ [Instr.sqDoorbell q v, Instr.cqHeadDoorbell q v], exec i s = .next s)
    ∧ (s.ready = true → s.cq q CTL_CQn_CFG_ENABLE = 1 → v.toNat < size →
      exec (.sqDoorbell q v) s = .next ((s.setQueue q { x with tail := v.toNat }).showStalled q)
      ∧ exec (.cqHeadDoorbell q v) s = .next ((s.setCq q CTL_CQn_STATUS_CQ_HEAD v.toNat).showStalled q))
    ∧ (s.ready = true → s.cq q CTL_CQn_CFG_ENABLE = 0 ∨ size ≤ v.toNat → ∀ i ∈ [Instr.sqDoorbell q v, Instr.cqHeadDoorbell q v],
      exec i s = .next (s.setCq q CTL_CQn_STATUS_DOORBELL_BAD (min (s.cq q CTL_CQn_STATUS_DOORBELL_BAD + 1) 255)))
    ∧ (s.cq q CTL_CQn_CFG_ENABLE = 0 ∨ x.disabling = true ∨ s.gatesOpen = false ∨ s.hubDown (s.cq q CTL_CQn_CFG_HUB) = true →
      exec (.queueFetch q) s = .next (s.showStalled q))
    ∧ (s.cq q CTL_CQn_CFG_ENABLE = 1 → x.disabling = false → s.gatesOpen = true → s.hubDown (s.cq q CTL_CQn_CFG_HUB) = false → q < 64 →
      (n = 0 → exec (.queueFetch q) s = .next (s.showStalled q))
      ∧ (0 < n → q ∈ s.turn.served → (∃ k, k < 64 ∧ 0 < s.fetchable k ∧ k ∉ s.turn.served) → exec (.queueFetch q) s = .next s)
      ∧ (0 < n → (∃ k, k < q ∧ 0 < s.fetchable k ∧ k ∉ s.turn.served) → exec (.queueFetch q) s = .next s)
      ∧ (∀ u, 0 < n →
          (q ∉ s.turn.served ∧ (∀ k, k < q → 0 < s.fetchable k → k ∈ s.turn.served)
            ∧ u = { s with turn := { s.turn with served := s.turn.served ++ [q] } })
          ∨ ((∀ k, k < 64 → 0 < s.fetchable k → k ∈ s.turn.served) ∧ (∀ k, k < q → s.fetchable k = 0)
            ∧ u = { s with turn := { s.turn with served := [q] } }) →
        exec (.queueFetch q) s = .next (((((u.act (.hostFetch (s.cq q CTL_CQn_CFG_HUB)
          (s.cq q CTL_CQn_SQ_BASE_ADDR * 64 + 64 * head) (64 * n))).setCq q CTL_CQn_STATUS_SQ_HEAD ((head + n) % size)).setQueue q
          { x with inFlight := x.inFlight + n })).showStalled q)))
    ∧ (∀ i ∈ [Instr.queueEnable .tenant q w, Instr.queueDisable .tenant q w], exec i s = .next (s.satFld FLT_VIOL_TENANT 1))
    ∧ (lvl ≠ .tenant → CTL_CQn_CFG_ENABLE.of w = 1 → s.cq q CTL_CQn_CFG_ENABLE = 1 → exec (.queueEnable lvl q w) s = .next s)
    ∧ (lvl ≠ .tenant → CTL_CQn_CFG_ENABLE.of w = 1 → s.cq q CTL_CQn_CFG_ENABLE = 0 → ∃ t, exec (.queueEnable lvl q w) s = .next t
        ∧ t.cq q CTL_CQn_CFG_ENABLE = 1 ∧ t.cq q CTL_CQn_STATUS_SQ_HEAD = 0 ∧ t.cq q CTL_CQn_STATUS_CQ_HEAD = 0
        ∧ (x.journal = [] → t.cq q CTL_CQn_STATUS_CQ_TAIL = 0) ∧ (t.queue q).cmds = [] ∧ (t.queue q).tail = 0 ∧ (t.queue q).journal = []
        ∧ (q ≠ 0 → t.cq q CTL_CQn_CFG_LEVEL = CTL_CQn_CFG_LEVEL.of w) ∧ (q = 0 → t.cq q CTL_CQn_CFG_LEVEL = s.cq q CTL_CQn_CFG_LEVEL)
        ∧ (4 ≤ CTL_CQn_CFG_SIZE_LOG2.of w → CTL_CQn_CFG_SIZE_LOG2.of w ≤ 15 → t.cq q CTL_CQn_CFG_SIZE_LOG2 = CTL_CQn_CFG_SIZE_LOG2.of w)
        ∧ t.engines = s.engines ∧ t.agents = s.agents ∧ ∀ r, r ≠ q → t.queue r = s.queue r)
    ∧ (lvl ≠ .tenant → CTL_CQn_CFG_ENABLE.of w = 0 → exec (.queueEnable lvl q w) s = .next s
      ∧ (s.cq q CTL_CQn_CFG_ENABLE = 0 → exec (.queueDisable lvl q w) s = .next (s.writeCfg q w))
      ∧ (s.cq q CTL_CQn_CFG_ENABLE = 1 → x.cmds = [] → ∃ t, exec (.queueDisable lvl q w) s = .next t ∧ t.engines = s.engines ∧ t.out = s.out
          ∧ (x.inFlight = 0 → s.heldRecords q = 0 → t.cq q CTL_CQn_CFG_ENABLE = 0 ∧ (t.queue q).disabling = false)
          ∧ (x.inFlight ≠ 0 → t.cq q CTL_CQn_CFG_ENABLE = 1 ∧ (t.queue q).disabling = true)))
    ∧ (lvl ≠ .tenant → CTL_CQn_CFG_ENABLE.of w = 1 → exec (.queueDisable lvl q w) s = .next s)
    ∧ (∀ k l, k ≠ HostRead.ring → l = updateFirst (fun c => c.reads k && c.data.isNone) (fun c =>
          { c with data := some (if ok = true then data.take c.hostRange.2 else []), readFailed := !ok }) x.cmds →
        exec (.hostReadCompletion q k ok data) s = .next (s.setQueue q { x with cmds := l }))
    ∧ (0 < x.inFlight → ∀ u, u = s.setQueue q { x with inFlight := x.inFlight - 1 } →
      (x.disabling = false → data.length = 64 →
        exec (.hostReadCompletion q .ring true data) s = .next ((u.takeEntry q { bytes := data }).endDisable q))
      ∧ (x.disabling = false → exec (.hostReadCompletion q .ring false data) s
          = .next ((u.writeRecord q (({ bytes := zeros 64, readFailed := true } : Cmd).record 2 4) false).endDisable q)))
    ∧ ((s.engine e).run = none → exec (.wallTimeLimit e) s = .next s)
    ∧ (∀ r, (s.engine e).run = some r → (s.engine e).running = true → r.deadlineNs ≤ s.now →
      exec (.wallTimeLimit e) s = .next (s.endProgram e 3 2 0 0))
    ∧ (∀ r, (s.engine e).run = some r → s.now < r.deadlineNs → exec (.wallTimeLimit e) s = .next s)

/-- R202 to R212, R214, R216, R217, R220 to R224: a command starts in the order of its queue and ends with the status and detail of its
checks; LOAD fills a free program slot (below 32 only with three arbiters in the vote), UNLOAD empties one, RUN starts a program on a
free engine where the queue's turn of the rotation has come, CANCEL ends another command, IMGLOAD places an image, IMGFREE marks it and
the last close frees it, ADMIT takes a bundle or refuses it with its report. No command starts while the standby does not hold the
command journal. Where it goes beyond the rules named it rests on the model's choices of log entries 8, 40, 94, 97, 98, 124, 133, 155,
161, 163. -/
def Obligations.CommandResults : Prop :=
  ∀ (s : State) (q slot : Nat) (c : Cmd) (b1 b2 : Bool) (bd : Bundle) (l : List Byte), l = c.data.getD [] → slot = leAt c.bytes 8 1 →
    (∀ op i, (op, i) ∈ [(1, Instr.load q b1), (2, Instr.unload q), (3, Instr.run q), (3, Instr.engineGrant q), (4, Instr.cancel q),
        (5, Instr.imgload q b1 b2), (6, Instr.imgfree q), (7, Instr.admission q bd)] →
      (nextStart (s.queue q).cmds = none ∨ s.mirrorBlocks (some 4) = true → exec i s = .next s)
      ∧ (nextStart (s.queue q).cmds = some c → s.mirrorBlocks (some 4) = false →
        (c.opcode ≠ op → exec i s = .next s)
        ∧ (c.opcode = op → c.wellFormed = false → exec i s = .next (s.endCmd q c 2 1))
        ∧ (c.opcode = op → c.wellFormed = true → op = 1 → slot < 32 → s.queueLevel q = .tenant →
            exec i s = .next ((s.endCmd q c 0 0).satFld FLT_VIOL_TENANT 1))
        ∧ (c.opcode = op → c.wellFormed = true → op ≠ 1 ∨ 32 ≤ slot ∨ s.queueLevel q ≠ .tenant →
          (s.queueLevel q = .tenant → s.partActive (s.queuePartition q) = false → exec i s = .next (s.endCmd q c 2 9))
          ∧ (s.queueLevel q ≠ .tenant ∨ s.partActive (s.queuePartition q) = true → c.readFailed = true → exec i s = .next (s.endCmd q c 2 4))
          ∧ (s.queueLevel q ≠ .tenant ∨ s.partActive (s.queuePartition q) = true → c.readFailed = false → c.hostRange.2 ≠ 0 →
              c.data = none → exec i s = .next s))))
    ∧ (s.starts q c 0 .tenant → exec (.cmdNop q) s = .next (s.endCmd q c 0 0))
    ∧ (nextStart (s.queue q).cmds = some c → s.mirrorBlocks (some 4) = false → 7 < c.opcode → exec (.cmdNop q) s = .next (s.endCmd q c 2 1))
    ∧ (s.starts q c 1 (if slot < 32 then .operator else .tenant) → ∀ p, p = programOf l (s.queueLevel q) (s.queuePartition q) →
      (slot < 8 ∨ s.programs.get slot ≠ none ∨ (slot < 32 ∧ s.voters < 3) → exec (.load q b1) s = .next (s.endCmd q c 2 7))
      ∧ (8 ≤ slot → s.programs.get slot = none → 32 ≤ slot ∨ 3 ≤ s.voters → programOk l = false → exec (.load q b1) s = .next (s.endCmd q c 2 1))
      ∧ (8 ≤ slot → s.programs.get slot = none → 32 ≤ slot ∨ 3 ≤ s.voters → programOk l = true → programDigestOk l = false →
          exec (.load q b1) s = .next (s.endCmd q c 2 5))
      ∧ (8 ≤ slot → s.programs.get slot = none → 32 ≤ slot ∨ 3 ≤ s.voters → programOk l = true → programDigestOk l = true →
        (slot < 32 → p.signed = false ∨ p.level ≠ .vendor ∨ b1 = false → exec (.load q b1) s = .next (s.endCmd q c 2 5))
        ∧ (slot < 32 → p.signed = true → p.level = .vendor → exec (.load q true) s = .next
            ((({ s with programs := s.programs.set slot p } : State).extendMeas 2 (BitVec.ofNat 384 (beAt l 16 48))).endCmd q c 0 0
              (BitVec.ofNat 64 slot)))
        ∧ (32 ≤ slot → p.signed = true ∨ p.level ≠ s.queueLevel q → exec (.load q b1) s = .next (s.endCmd q c 2 5))
        ∧ (32 ≤ slot → p.signed = false → p.level = s.queueLevel q → exec (.load q b1) s = .next
            (({ s with programs := s.programs.set slot p } : State).endCmd q c 0 0 (BitVec.ofNat 64 slot)))))
    ∧ (s.starts q c 2 .tenant →
      (slot < 32 → exec (.unload q) s = .next (s.endCmd q c 2 7))
      ∧ (32 ≤ slot → s.seesSlot q slot = none → exec (.unload q) s = .next (s.endCmd q c 2 2))
      ∧ (32 ≤ slot → s.seesSlot q slot ≠ none → exec (.unload q) s = .next
          (({ s with programs := s.programs.erase slot } : State).endCmd q c 0 0)))
    ∧ (s.starts q c 3 .tenant → ∀ i ∈ [Instr.run q, Instr.engineGrant q],
      (s.seesSlot q slot = none → exec i s = .next (s.endCmd q c 2 2))
      ∧ (∀ p, s.seesSlot q slot = some p →
        (bindingsOk l c.runBinds = false → exec i s = .next (s.endCmd q c 2 3))
        ∧ (bindingsOk l c.runBinds = true → s.cq q CTL_CQn_CFG_MAX_ENGINES ≤ (s.queue q).running ∨ s.freeEngine c.runEngine = none →
            exec i s = .next s)
        ∧ (∀ e, bindingsOk l c.runBinds = true → (s.queue q).running < s.cq q CTL_CQn_CFG_MAX_ENGINES → s.freeEngine c.runEngine = some e →
          (s.grantNext ≠ some q → exec i s = .next s)
          ∧ (s.grantNext = some q ∨ (q < 64 ∧ ∀ k, k < 64 → k ≠ q → s.runWaits k = false) →
            ∀ u, u = { s with turn := { s.turn with granted := q } } →
              exec i s = .next (if slot < 8 then u.runVendor q c e slot else u.startProgram q c p e)))))
    ∧ (s.starts q c 4 .tenant → ∀ u, u = s.markStarted q c → ∀ d, d = { c with state := CmdState.started } →
      (((u.queue q).cmds.find? fun t => t != d && t.cmdId == leAt c.bytes 8 4) = none → exec (.cancel q) s = .next (u.endCmd q d 0 0 0))
      ∧ (∀ t, ((u.queue q).cmds.find? fun t => t != d && t.cmdId == leAt c.bytes 8 4) = some t →
          exec (.cancel q) s = .next ((u.cancelCmd q t 1).endCmd q d 0 0 1)))
    ∧ (s.starts q c 5 .tenant → ∀ signed lvl, signed = (leAt l 2 1 / 4 % 2 == 1) →
        lvl = (if signed = true then Level.vendor else levelOf (leAt l 2 1 % 4)) →
      (imageHeaderOk l = false → exec (.imgload q b1 b2) s = .next (s.endCmd q c 2 1))
      ∧ (imageHeaderOk l = true → imageDigestOk l = false ∨ (signed = true ∧ b1 = false) ∨ (signed = false ∧ lvl ≠ s.queueLevel q) →
          exec (.imgload q b1 b2) s = .next (s.endCmd q c 2 5))
      ∧ (∀ pl, imageHeaderOk l = true → imageDigestOk l = true → (signed = true ∧ b1 = true) ∨ (signed = false ∧ lvl = s.queueLevel q) →
          pl = s.placeImage l lvl (s.queueLevel q) (s.queuePartition q) →
        (∀ r, pl = .refused r → exec (.imgload q b1 b2) s = .next (s.endCmd q c 2 r))
        ∧ (∀ qs, pl = .waits qs → exec (.imgload q b1 b2) s
            = .next (s.forEach qs fun s k => s.ungateReq (if s.queueLevel q = .tenant then 3 else 2) k))
        ∧ (∀ k tiles u, pl = .loaded k tiles → u = s.addImage k tiles l lvl (s.queueLevel q) (s.queuePartition q) →
          exec (.imgload q b1 false) s = .next (s.endCmd q c 2 8)
          ∧ (signed = false → exec (.imgload q b1 true) s = .next (u.endCmd q c 0 0 (BitVec.ofNat 64 k)))
          ∧ (signed = true → exec (.imgload q b1 true) s
              = .next ((u.extendMeas 3 (BitVec.ofNat 384 (beAt l 16 48))).endCmd q c 0 0 (BitVec.ofNat 64 k))))))
    ∧ (s.starts q c 6 .tenant → ∀ k, k = leAt c.bytes 8 4 →
      (s.sq.images.get k = none → exec (.imgfree q) s = .next (s.endCmd q c 2 1))
      ∧ (∀ i, s.sq.images.get k = some i →
        (s.queueLevel q = .tenant → i.level ≠ .tenant ∨ i.partition.toNat ≠ s.queuePartition q →
          exec (.imgfree q) s = .next ((s.endCmd q c 0 0).satFld FLT_VIOL_TENANT 1))
        ∧ (s.queueLevel q ≠ .tenant ∨ (i.level = .tenant ∧ i.partition.toNat = s.queuePartition q) →
          (i.freeing = true → exec (.imgfree q) s = .next (s.endCmd q c 0 0))
          ∧ (∀ j, i.freeing = false → j = { i with freeing := true, freeCmd := some (q, c.cmdId) } → exec (.imgfree q) s
              = .next (({ s with sq := { s.sq with images := s.sq.images.set k j } } : State).markStarted q c)))))
    ∧ (s.starts q c 7 .tenant →
      (s.queueLevel q = .tenant → bd.partition.toNat ≠ s.queuePartition q →
        exec (.admission q bd) s = .next ((s.endCmd q c 0 0).satFld FLT_VIOL_TENANT 1))
      ∧ (s.queueLevel q ≠ .tenant ∨ bd.partition.toNat = s.queuePartition q →
        (∀ r, s.checkBundle bd = .refused r → exec (.admission q bd) s = .next ((s.countRefused bd).refuseAdmit q c r))
        ∧ (∀ n, s.checkBundle bd = .taken n [] → exec (.admission q bd) s = .next
            ((((s.takeBundle bd n).markStarted q c).finishInstall (.admission q c.cmdId n c.irq) 0 0).showStalled q))
        ∧ (∀ n sets, s.checkBundle bd = .taken n sets → sets ≠ [] → exec (.admission q bd) s
            = .next (((s.takeBundle bd n).markStarted q c).submitInstall sets (.admission q c.cmdId n c.irq)))))
    ∧ (∀ k, s.sq.images.get k = none → exec (.imgfreeComplete k) s = .next s)
    ∧ (∀ k i, s.sq.images.get k = some i →
      (i.freeing = false ∨ s.imageOpen k = true ∨ i.runs ≠ [] → exec (.imgfreeComplete k) s = .next s)
      ∧ (i.freeing = true → s.imageOpen k = false → i.runs = [] → i.freeCmd = none → exec (.imgfreeComplete k) s = .next (s.dropImage k))
      ∧ (∀ id d, i.freeing = true → s.imageOpen k = false → i.runs = [] → i.freeCmd = some (q, id) →
          ((s.queue q).cmds.find? fun c => c.cmdId == id && c.opcode == 6 && c.state == .started) = some d →
          exec (.imgfreeComplete k) s = .next ((s.dropImage k).completeCmd q d (d.record 0 0))))

/-- R270, R274, R275, R277 to R281: a launch notice of a member is decided once, by a reservation it holds, by the ring, by a reservation it
starts or by a ticket; a group all of whose members are idle may lose its reservation, at the latest after RELEASE_US; the next ticket
starts its reservation; a library group that waits 10 ms on a stalled holder is reported, and nothing is cancelled. Where it goes beyond
the rules named it rests on the model's choices of log entries 95, 123, 141. -/
def Obligations.GroupRequestResults : Prop :=
  ∀ (s : State) (p : Packet) (op : BitVec 32) (sparse : Bool) (g : Group) (k n : Nat) (t : Ticket),
    (p.crcOk = false → ∀ i ∈ [Instr.launchNotice p k op sparse, Instr.idleReport p], exec i s = .next (s.nakPkt .ctl p.hdr 0x01))
    ∧ (s.freshPacket .ctl p → s.group k = none → exec (.launchNotice p k op sparse) s = .next (s.acked .ctl p))
    ∧ (s.freshPacket .ctl p → s.group (leAt p.payload 0 2) = none → exec (.idleReport p) s = .next (s.acked .ctl p))
    ∧ (s.freshPacket .ctl p → s.group k = some g →
      ((∀ m ∈ g.rec_.members, m.fid ≠ p.hdr.src) ∨ g.rec_.library = true → exec (.launchNotice p k op sparse) s = .next (s.acked .ctl p))
      ∧ (∀ m u, m ∈ g.rec_.members → m.fid = p.hdr.src → g.rec_.library = false → u = { g with idle := [], idleSinceNs := none } →
        (op ∈ g.decided → exec (.launchNotice p k op sparse) s = .next ((s.setGroup u).acked .ctl p))
        ∧ (∀ w, op ∉ g.decided → w = { u with decided := (op :: g.decided).take 1024
                                              lastOp := if seqLater g.lastOp op = true then g.lastOp else op } →
          (g.resv = 2 → exec (.launchNotice p k op sparse) s = .next (((s.setGroup w).sendGo w op false false).acked .ctl p))
          ∧ (g.resv = 0 → g.rec_.policyRing = true → sparse = false → s.fits w = false → exec (.launchNotice p k op sparse) s
              = .next ((((s.setGroup w).satFld GRP_FALLBACK_RING 1).sendGo w op true false).acked .ctl p))
          ∧ (g.resv ≠ 2 → g.resv ≠ 0 ∨ g.rec_.policyRing = false ∨ sparse = true ∨ s.fits w = true →
            exec (.launchNotice p k op sparse) s = .next ((s.decideLaunch u op sparse).acked .ctl p)
            ∧ (g.resv ≠ 0 → exec (.launchNotice p k op sparse) s = .next ((s.setGroup { w with waiting := g.waiting ++ [op] }).acked .ctl p))
            ∧ (∀ v y, g.resv = 0 → v = { w with waiting := g.waiting ++ [op] } → y = s.setGroup v → ∀ busy,
                busy = (y.grp.groups.any fun h => y.groupActive h && y.overlapping v h) →
              ((∃ x ∈ y.grp.tickets, x.group = g.rec_.groupId) → exec (.launchNotice p k op sparse) s
                = .next ((if y.fits v = true then y else y.satFld GRP_FALLBACK_WAITED 1).acked .ctl p))
              ∧ ((∀ x ∈ y.grp.tickets, x.group ≠ g.rec_.groupId) →
                (busy = false → y.fits v = true → (∀ h ∈ y.grp.groups, h.resv ≠ 3) → exec (.launchNotice p k op sparse) s = .next
                  ((y.startReservation v { number := 0, group := g.rec_.groupId, goal := .launch, sinceNs := s.now }).acked .ctl p))
                ∧ (busy = true ∨ y.fits v = false ∨ (∃ h ∈ y.grp.groups, h.resv = 3) → exec (.launchNotice p k op sparse) s = .next
                  ((((if y.fits v = true then y else y.satFld GRP_FALLBACK_WAITED 1).drawTicket g.rec_.groupId .launch).freeIdle).acked
                    .ctl p))))))))
    ∧ (s.freshPacket .ctl p → s.group (leAt p.payload 0 2) = some g →
      (g.rec_.library = true ∨ (∀ m ∈ g.rec_.members, m.fid ≠ p.hdr.src) ∨ p.hdr.src ∈ g.idle →
        exec (.idleReport p) s = .next (s.acked .ctl p))
      ∧ (∀ m u, m ∈ g.rec_.members → m.fid = p.hdr.src → g.rec_.library = false → p.hdr.src ∉ g.idle →
          u = { g with idle := g.idle ++ [p.hdr.src] } →
        (g.resv = 2 → (∀ x ∈ agentMembers g.rec_, x.fid ∈ u.idle) →
          exec (.idleReport p) s = .next ((s.setGroup { u with idleSinceNs := some s.now }).freeIdle.acked .ctl p))
        ∧ (g.resv ≠ 2 ∨ (∃ x ∈ agentMembers g.rec_, x.fid ∉ u.idle) →
          exec (.idleReport p) s = .next ((s.setGroup { u with idleSinceNs := none }).freeIdle.acked .ctl p))))
    ∧ (s.group k = none → exec (.reservationReleaseTimer k) s = .next s)
    ∧ (s.group k = some g →
      (∀ x, g.idleSinceNs = some x → g.rec_.library = false → g.resv = 2 → x + s.fld GRP_RESV_CFG_RELEASE_US * 1000 ≤ s.now →
        exec (.reservationReleaseTimer k) s = .next (s.freeReservation g))
      ∧ (g.idleSinceNs = none ∨ g.rec_.library = true ∨ g.resv ≠ 2 ∨ (∀ x, g.idleSinceNs = some x → s.now < x + s.fld GRP_RESV_CFG_RELEASE_US * 1000) →
        exec (.reservationReleaseTimer k) s = .next s))
    ∧ (s.freeIdle.nextTicket = none → exec .ticketGrant s = .next s.freeIdle)
    ∧ (s.freeIdle.nextTicket = some t → s.freeIdle.group t.group = some g → exec .ticketGrant s
        = .next ((s.freeIdle.setTickets (removeFirst (· == t) s.freeIdle.grp.tickets)).startReservation g t))
    ∧ ((∀ x ∈ s.grp.tickets, x.number ≠ n) → exec (.crossOrderTimer n) s = .next s)
    ∧ (s.grp.tickets.find? (fun x => x.number == n) = some t →
      (∀ e, t.goal = .library e → s.now < t.sinceNs + 10000000 → exec (.crossOrderTimer n) s = .next s)
      ∧ (t.goal = .launch ∨ t.goal = .gambit → exec (.crossOrderTimer n) s = .next s)
      ∧ (∀ e h, t.goal = .library e → t.sinceNs + 10000000 ≤ s.now → s.group t.group = some g → h ∈ s.grp.groups → h.resv = 2 →
          h.heldNs + 10000000 ≤ s.now →
          s.overlapping g h = true → s.holderStalled h = true → h.rec_.groupId ∉ t.reported → ∃ u, exec (.crossOrderTimer n) s = .next u
          ∧ (∀ x ∈ u.grp.tickets, x.number = n → h.rec_.groupId ∈ x.reported) ∧ u.grp.groups = s.grp.groups
          ∧ u.grp.tickets.length = s.grp.tickets.length ∧ u.agents = s.agents ∧ u.engines = s.engines))

/-- R298, R303, R305, R306, R308, R309: a token with a bad CRC, a full store, no record of its part 0 or no layer entry is refused, a
pending one is sent again, an acknowledged one acknowledged again, a new one placed; a record goes after 1 ms; the counts of a window
are reported and summed, a report of a closed window counts for nothing; the end of a window starts the counts again. Where it goes
beyond the rules named it rests on the model's choices of log entries 41, 42, 123, 175. -/
def Obligations.DispatchResults : Prop :=
  ∀ (s : State) (a : AgentRef) (port i : Nat) (p : Packet) (e : BitVec 512) (d : DispatchSt) (r : DispRecord) (src : Fid)
    (stream : BitVec 16) (seq : BitVec 32) (tag : Word64), d = (s.agent a).disp →
    (p.crcOk = false → exec (.dispatch a port p) s = .next (s.nakPkt (.agent a) p.hdr 0x01))
    ∧ (p.crcOk = true → d.pending.find? (fun r => r.hasKey p.hdr.src p.hdr.stream p.hdr.seq) = some r →
      exec (.dispatch a port p) s = .next (s.resendToken a r p))
    ∧ (p.crcOk = true → (∀ r ∈ d.pending, r.hasKey p.hdr.src p.hdr.stream p.hdr.seq = false) →
      ((p.hdr.src, p.hdr.stream, p.hdr.seq) ∈ d.done → exec (.dispatch a port p) s = .next (s.ackPkt (.agent a) p.hdr))
      ∧ ((p.hdr.src, p.hdr.stream, p.hdr.seq) ∉ d.done →
        ((s.agent a).active.layerOf p.hdr.partition (flitLayer p.payload) = none
          ∨ (∀ c ∈ (s.agent a).active.children, c.1 ≠ port ∨ c.2 ≠ p.hdr.src) ∨ a.variant = .e →
            exec (.dispatch a port p) s = .next (s.nakPkt (.agent a) p.hdr 0x06))
        ∧ (∀ c ∈ (s.agent a).active.children, c.1 = port → c.2 = p.hdr.src → a.variant = .s →
            (s.agent a).active.layerOf p.hdr.partition (flitLayer p.payload) = some (i, e) → ∀ l, l = slice p.payload 0 64 →
          (65536 ≤ d.pending.length → exec (.dispatch a port p) s = .next (s.nakPkt (.agent a) p.hdr 0x05))
          ∧ (d.pending.length < 65536 → flitBad l p.hdr e = true → exec (.dispatch a port p) s
              = .next ((s.raiseAgent a 194 1).openToken a p (List.replicate (min 8 (flitK l)) 0xD) []))
          ∧ (d.pending.length < 65536 → flitBad l p.hdr e = false → flitPart l ≠ 0 →
            (d.parts.find? (fun x => x.src == p.hdr.src && x.stream == p.hdr.stream && x.tag == flitTag l) = none →
              exec (.dispatch a port p) s = .next (s.nakPkt (.agent a) p.hdr 0x05))
            ∧ ∀ x, d.parts.find? (fun x => x.src == p.hdr.src && x.stream == p.hdr.stream && x.tag == flitTag l) = some x →
              exec (.dispatch a port p) s = .next (s.openToken a p x.outcomes
                ((x.copies.filter fun c => !c.failed).map fun c => { c with acked := false })))
          ∧ (d.pending.length < 65536 → flitBad l p.hdr e = false → flitPart l = 0 →
              exec (.dispatch a port p) s = .next (s.placeToken a p i e)))))
    ∧ (d.pending.find? (fun r => r.hasKey src stream seq) = none → exec (.pendingRecordTimeout a src stream seq) s = .next s)
    ∧ (d.pending.find? (fun r => r.hasKey src stream seq) = some r →
      (s.agentNow a < r.createdNs + 1000000 → exec (.pendingRecordTimeout a src stream seq) s = .next s)
      ∧ (r.createdNs + 1000000 ≤ s.agentNow a → exec (.pendingRecordTimeout a src stream seq) s = .next ((s.updDisp a fun d =>
          { d with pending := d.pending.filter fun x => !x.hasKey src stream seq }).raiseAgent a 195 1)))
    ∧ (∃ t, exec (.partRecordTimeout a src tag) s = .next t ∧ t = { s with agents := t.agents } ∧ (t.agent a).disp = { d with
        parts := d.parts.filter fun x => !(x.src == src && x.tag == tag && decide (x.createdNs + 1000000 ≤ s.agentNow a)) }
        ∧ ∀ b, b ≠ a → t.agent b = s.agent b)
    ∧ (a.variant = .e → exec (.switchWindowEnd a) s = .next s)
    ∧ (a.variant = .s → ∃ t, exec (.switchWindowEnd a) s = .next t ∧ (t.agent a).disp.counts = [] ∧ (t.agent a).disp.pending = d.pending
        ∧ (t.agent a).active = (s.agent a).active ∧ t.regs = s.regs ∧ (d.counts = [] → t.out = s.out))
    ∧ (s.freshPacket .ctl p →
      (leAt p.payload 0 4 ≠ s.plc.window → exec (.windowReport p) s = .next (s.acked .ctl p))
      ∧ (leAt p.payload 0 4 = s.plc.window →
          exec (.windowReport p) s = .next ((s.takeBlocks p.hdr.src p.payload.length (p.payload.drop 16)).acked .ctl p)))
    ∧ (s.now < s.plc.windowNs + s.fld PLC_BROKER_CFG_WINDOW_MS * 1000000 ∨ (s.fld PLC_BROKER_CFG_ENABLE ≠ 0 ∧ s.rte.play ≠ none) →
      exec .brokerWindowEnd s = .next s)
    ∧ (s.plc.windowNs + s.fld PLC_BROKER_CFG_WINDOW_MS * 1000000 ≤ s.now → s.fld PLC_BROKER_CFG_ENABLE = 0 ∨ s.rte.play = none → ∃ t, exec .brokerWindowEnd s = .next t ∧ t.plc.window = s.plc.window + 1
        ∧ t.plc.windowNs = s.now ∧ t.plc.reported = [] ∧ t.plc.movedInWindow = 0 ∧ (∀ x ∈ t.plc.experts, x.window = 0 ∧ x.bySwitch = [])
        ∧ (s.fld PLC_BROKER_CFG_ENABLE = 0 → t.plc.experts = (levelSteps s.plc.experts).map (fun x => { x with
              lastWindow := x.window, window := 0, full := 0, steps := 0, bySwitch := [] }) ∧ t.rte = s.rte))

/-- R228, R314, R316 to R319, R321, R326: a KV request to a broker that does not run is refused with reason 5, another is served, answered
and acknowledged; a malformed one has status 1, one of an unknown sequence status 2, and both change no sequence; a closed sequence
keeps its extents until its grace ends; a move starts within MAX_MOVES. Where it goes beyond the rules named it rests on the model's
choices of log entry 54. -/
def Obligations.KvResults : Prop :=
  ∀ (s : State) (p : Packet) (id : BitVec 32) (q : Seq) (g : Grace) (l : List Grace), id = BitVec.ofNat 32 (leAt p.payload 8 4) →
    (∀ k i f, (k, i, f) ∈ [(1, Instr.kvOpen p, State.kvOpen), (2, .kvGrow p, State.kvGrow), (3, .kvClose p, State.kvClose),
        (4, .kvPrefetch p, State.kvPrefetch), (5, .kvRenew p, State.kvRenew)] →
      (leAt p.payload 0 1 ≠ k → exec i s = .next s)
      ∧ (leAt p.payload 0 1 = k → p.crcOk = false → exec i s = .next (s.nakPkt .ctl p.hdr 0x01))
      ∧ (leAt p.payload 0 1 = k → s.freshPacket .ctl p →
      ((s.engine 2).running = false → exec i s = .next (s.nakPkt .ctl p.hdr 0x05))
      ∧ ((s.engine 2).running = true →
        exec i s = .next (((f s p).1.kvAnswer p.hdr k (leAt p.payload 4 4) (f s p).2).acked .ctl p))
      ∧ (p.payload.length ≠ 64 → (f s p).1 = s ∧ (f s p).2.status = 1)
      ∧ (k ≠ 1 → p.payload.length = 64 → allZero p.payload 1 3 = true → allZero p.payload 20 44 = true →
          (k = 3 → allZero p.payload 12 8 = true) → (k = 2 → allZero p.payload 16 4 = true) →
          s.seqOf id p.hdr.partition = none → (f s p).1 = s ∧ (f s p).2.status = 2 ∧ (f s p).2.seqId = id)))
    ∧ (p.payload.length = 64 → allZero p.payload 1 3 = true → allZero p.payload 12 52 = true → s.seqOf id p.hdr.partition = some q →
        ∃ t, s.kvClose p = (t, { seqId := id }) ∧ (∃ x ∈ t.plc.seqs, x = { q with closedNs := some s.now })
          ∧ t.plc.grace = s.plc.grace ++ [{ atNs := s.graceNs, endpoint := 0, slot := 0, partition := q.partition, seq := some id }]
          ∧ (∀ m ∈ t.plc.moves, m ∈ s.plc.moves) ∧ t.hbm = s.hbm ∧ t.agents = s.agents)
    ∧ ((s.engine 2).running = false ∨ s.fld PLC_KV_CFG_MAX_MOVES ≤ s.plc.movedInWindow → exec .kvMoveStart s = .next s)
    ∧ ((∀ e ∈ s.moveOrder, s.homeSlot e = none) → exec .kvMoveStart s = .next s)
    ∧ (∀ e d i x, (s.engine 2).running = true → s.plc.movedInWindow < s.fld PLC_KV_CFG_MAX_MOVES → s.moveOrder.find? (fun e => (s.homeSlot e).isSome) = some e →
        s.homeSlot e = some (d, i) → s.plc.pages.get e = some x → ∃ t, exec .kvMoveStart s = .next t
          ∧ t.plc.pages.get e = some { x with state := 2 } ∧ t.plc.movedInWindow = s.plc.movedInWindow + 1
          ∧ t.plc.moves = s.plc.moves ++ [{ entry := e, endpoint := d, slot := i, tag := some (2, (s.engine 2).nextTag) }]
          ∧ t.plc.seqs = s.plc.seqs ∧ t.hbm = s.hbm ∧ t.agents = s.agents)
    ∧ (s.plc.grace = [] → exec .kvGraceTimer s = .next s)
    ∧ (s.plc.grace = g :: l → s.now < g.atNs ∨ s.mirrorBlocks (some 6) = true → exec .kvGraceTimer s = .next s)
    ∧ (s.plc.grace = g :: l → g.atNs ≤ s.now → s.mirrorBlocks (some 6) = false →
      (g.seq = none → exec .kvGraceTimer s = .next ({ s with plc := { s.plc with grace := l } } : State).showPlc)
      ∧ (∀ k, g.seq = some k → g.slot = 0 → ∃ t, exec .kvGraceTimer s = .next t ∧ t.plc.seqs = s.plc.seqs
          ∧ (∀ e x, t.plc.pages.get e = some x → x.seqId ≠ k) ∧ t.plc.grace = l ++ [{ g with atNs := s.graceNs, slot := 1 }])
      ∧ (∀ k, g.seq = some k → g.slot ≠ 0 → ∃ t, exec .kvGraceTimer s = .next t ∧ t.plc.pages = s.plc.pages
          ∧ t.plc.seqs = s.plc.seqs.filter (fun q => q.seqId != k) ∧ t.plc.grace = l))

/-- R4, R328 to R330: a tenant's order counts as a violation; a free partition opens with a new spill key, a closed one ends with its
programs faulted and its devices scrubbed, and goes when nothing is left; a free device is assigned to an active partition, an unused
one is released to a scrub, a quarantined one is scrubbed again; any other order is refused. Where it goes beyond the rules named it
rests on the model's choices of log entry 94. -/
def Obligations.PartitionResults : Prop :=
  ∀ (s : State) (lvl : Level) (v : Word64) (p e k : Nat), p = s.fld SEC_PART_SEL_PARTITION → e = s.fld SEC_DEV_SEL_ENDPOINT →
    (∀ i ∈ [Instr.partOpen .tenant v, Instr.partEnd .tenant v, Instr.devAssign .tenant v, Instr.devRelease .tenant v, Instr.devRescrub .tenant v],
      exec i s = .next (s.satFld FLT_VIOL_TENANT 1))
    ∧ (lvl ≠ .tenant →
      (SEC_PART_ACTION.of v ≠ 1 → exec (.partOpen lvl v) s = .next s)
      ∧ (SEC_PART_ACTION.of v ≠ 2 → exec (.partEnd lvl v) s = .next s)
      ∧ (SEC_DEV_ACTION.of v ≠ 1 → exec (.devAssign lvl v) s = .next s)
      ∧ (SEC_DEV_ACTION.of v ≠ 2 → exec (.devRelease lvl v) s = .next s)
      ∧ (SEC_DEV_ACTION.of v ≠ 3 → exec (.devRescrub lvl v) s = .next s)
      ∧ (SEC_PART_ACTION.of v = 1 → p = 0 ∨ (s.part p).state ≠ 0 ∨ s.sec.lifeCycle ≠ 1 → exec (.partOpen lvl v) s = .next s.refuseAction)
      ∧ (SEC_PART_ACTION.of v = 1 → p ≠ 0 → (s.part p).state = 0 → s.sec.lifeCycle = 1 → ∃ t, exec (.partOpen lvl v) s = .next t
          ∧ t.part p = { state := 1, spillKey := some s.sec.nextKey } ∧ t.sec.nextKey = s.sec.nextKey + 1
          ∧ (∀ j, j ≠ p → t.part j = s.part j) ∧ t.engines = s.engines)
      ∧ (SEC_PART_ACTION.of v = 2 → (s.part p).state ≠ 1 → exec (.partEnd lvl v) s = .next s.refuseAction)
      ∧ (SEC_PART_ACTION.of v = 2 → (s.part p).state = 1 → ∃ t, exec (.partEnd lvl v) s = .next t ∧ (t.part p).state = 2
          ∧ (t.part p).spillKey = none ∧ (t.part p).spillRecord = true ∧ (∀ q ∈ t.plc.seqs, q.partition.toNat ≠ p)
          ∧ (∀ d, (s.dev d).state = 1 → (s.dev d).partition.toNat = p → (t.dev d).state = 2))
      ∧ (SEC_DEV_ACTION.of v = 1 → (s.dev e).state ≠ 0 ∨ (s.part (SEC_DEV_PARTITION.of v)).state ≠ 1 →
          exec (.devAssign lvl v) s = .next s.refuseAction)
      ∧ (∀ q, SEC_DEV_ACTION.of v = 1 → q = BitVec.ofNat 12 (SEC_DEV_PARTITION.of v) → (s.dev e).state = 0 →
          (s.part (SEC_DEV_PARTITION.of v)).state = 1 → ∃ t, exec (.devAssign lvl v) s = .next t
          ∧ t.dev e = { s.dev e with state := 1, partition := q } ∧ (∀ a, s.devAgent e = some a → (t.agent a).partition = q)
          ∧ (∀ d, d ≠ e → t.dev d = s.dev d) ∧ t.engines = s.engines)
      ∧ (SEC_DEV_ACTION.of v = 2 → (s.dev e).state ≠ 1 ∨ s.devInUse e = true → exec (.devRelease lvl v) s = .next s.refuseAction)
      ∧ (SEC_DEV_ACTION.of v = 2 → (s.dev e).state = 1 → s.devInUse e = false → exec (.devRelease lvl v) s = .next (s.orderScrub e)
          ∧ (s.orderScrub e).dev e = { s.dev e with state := 2, former := (s.dev e).partition, partition := 0, scrubWaiting := true
                                                    scrubStartMs := s.operMs })
      ∧ (SEC_DEV_ACTION.of v = 3 → (s.dev e).state ≠ 3 → exec (.devRescrub lvl v) s = .next s.refuseAction)
      ∧ (SEC_DEV_ACTION.of v = 3 → (s.dev e).state = 3 → exec (.devRescrub lvl v) s = .next (s.orderScrub e)
          ∧ (s.orderScrub e).dev e = { s.dev e with state := 2, partition := 0, scrubWaiting := true, scrubStartMs := s.operMs }))
    ∧ ((s.part k).state ≠ 2 ∨ (s.part k).spillRecord = false ∨ (∃ d ∈ s.sec.devs, d.2.state = 2 ∧ d.2.former.toNat = k) →
        exec (.partFree k) s = .next s)
    ∧ ((s.part k).state = 2 → (s.part k).spillRecord = true → (∀ d ∈ s.sec.devs, d.2.state ≠ 2 ∨ d.2.former.toNat ≠ k) →
        exec (.partFree k) s = .next ((s.setPart k {}).dropGroups k))

/-- R345 to R348: a waiting scrub starts on a free engine with the device's key slots empty and its compute domain in reset; a read-back
that found every byte zeroed and verified frees the device, another quarantines it; a status restarts its watch, a missing one is an
event. Where it goes beyond the rules named it rests on the model's choices of log entries 49, 133. -/
def Obligations.ScrubResults : Prop :=
  ∀ (s : State) (e g z w : Nat) (a : AgentRef) (p : Packet) (x : AgentScrub),
    ((s.dev e).state ≠ 2 ∨ (s.dev e).scrubWaiting = false ∨ s.scrubEngine = none → exec (.scrubStart e) s = .next s)
    ∧ ((s.dev e).state = 2 → (s.dev e).scrubWaiting = true → s.scrubEngine = some g → s.devAgent e = some a → (s.agent a).memBytes ≠ 0 →
        ∃ t, exec (.scrubStart e) s = .next t ∧ (t.agent a).scrub = some { phase := 2, former := (s.dev e).former, seqNo := s.sec.scrubSeq + 1 }
          ∧ (t.agent a).keySlots = [] ∧ t.jfld a JX_STATUS_COMPUTE_IN_RESET = 1 ∧ (t.dev e).scrubWaiting = false
          ∧ (t.dev e).engine = some g ∧ t.sec.scrubSeq = s.sec.scrubSeq + 1 ∧ (t.engine g).running = true ∧ (t.engine g).scrubDev = some e)
    ∧ ((s.dev e).state = 2 → (s.dev e).scrubWaiting = true → s.scrubEngine = some g → s.devAgent e = none →
        ∃ t, exec (.scrubStart e) s = .next t ∧ (t.dev e).state = 3)
    ∧ ((s.agent a).scrub = none → exec (.scrubVerifyDone a z w) s = .next s)
    ∧ ((s.agent a).scrub = some x → e = (s.nodeFid (.agent a)).localId →
      ((s.dev e).state ≠ 2 → ∃ t, exec (.scrubVerifyDone a z w) s = .next t ∧ (t.agent a).scrub = none ∧ t.sec = s.sec)
      ∧ ((s.dev e).state = 2 → s.devAgent e = some a → ∃ t, exec (.scrubVerifyDone a z w) s = .next t ∧ (t.agent a).scrub = none
          ∧ (z = (s.agent a).memBytes → w = (s.agent a).memBytes → (t.dev e).state = 0)
          ∧ (z ≠ (s.agent a).memBytes ∨ w ≠ (s.agent a).memBytes → (t.dev e).state = 3) ∧ (t.dev e).engine = none))
    ∧ (p.crcOk = false → exec (.scrubStatus p) s = .next (s.nakPkt .ctl p.hdr 0x01))
    ∧ (p.crcOk = true → e = Fid.localId (BitVec.ofNat 32 (leAt p.payload 0 4)) →
      ((s.dev e).state ≠ 2 → exec (.scrubStatus p) s = .next s)
      ∧ ((s.dev e).state = 2 → exec (.scrubStatus p) s = .next (s.setDev e { s.dev e with lastStatusNs := s.now, statusRaised := false })))
    ∧ ((s.dev e).state ≠ 2 ∨ (s.dev e).scrubWaiting = true ∨ (s.dev e).statusRaised = true ∨ s.now < (s.dev e).lastStatusNs + 5000000 →
        exec (.scrubStatusMissing e) s = .next s)
    ∧ ((s.dev e).state = 2 → (s.dev e).scrubWaiting = false → (s.dev e).statusRaised = false → (s.dev e).lastStatusNs + 5000000 ≤ s.now →
        exec (.scrubStatusMissing e) s = .next ((s.setDev e { s.dev e with statusRaised := true }).raise srcSEC 2))

/-- R349 to R355, R420, R456: an SPDM request over PCIe of H0 or H1, or by an SMBus block write to the device's own address with a right
PEC, is answered over its path while RT0 and the hub run; before the controller is ready only the version and the capabilities are; in
life-cycle state 3 only the version, measurement block 0xF0 and an unsupported request have their answers, any other is an error; a
verified candidate's measurement is held. Where it goes beyond the rules named it rests on the model's choices of log entries 6, 36, 76,
166, 172. -/
def Obligations.AttestationResults : Prop :=
  ∀ (s : State) (via : SpdmPath) (off len k image hub : Nat) (nonce : BitVec 256) (code : BitVec 8) (digest : BitVec 384) (i : Instr)
    (l body sel : List Byte) (blocks : List (Nat × List Byte)) (heard : Prop), via = s.sec.spdmVia → hub = spdmHub via →
    (heard ↔ s.pwr.pwrgd = true ∧ s.rt0Out = false ∧ s.hubDown hub = false ∧ (∀ h, via = .pcie h → h < 2)
      ∧ ∀ addr bytes pec, via = .smbus addr bytes pec → smbusTakes addr bytes pec = true) →
    (¬ heard → i ∈ [Instr.getVersion, .getCapabilities, .negotiateAlgorithms, .getDigests, .getCertificate off len,
        .challenge nonce, .getMeasurements nonce k, .spdmUnsupported code] → exec i s = .next s.spdmNext)
    ∧ (s.ready = false → i ∈ [Instr.negotiateAlgorithms, .getDigests, .getCertificate off len, .challenge nonce,
        .getMeasurements nonce k, .spdmUnsupported code] → exec i s = .next s.spdmNext)
    ∧ (heard → exec .getVersion s = .next (s.emit (.spdm hub [0x10, 0x04, 0, 0, 0, 2, 0x00, 0x12, 0x00, 0x13])).spdmNext)
    ∧ (heard → s.ready = true → exec (.spdmUnsupported code) s = .next (s.emit (.spdm hub [0x12, 0x7F, 0x07, code])).spdmNext)
    ∧ (heard → s.sec.lifeCycle = 3 → exec .getCapabilities s = .next (s.emit (.spdm hub [0x12, 0x7F, 0x07, 0x00])).spdmNext)
    ∧ (heard → s.ready = true → s.sec.lifeCycle = 3 → i ∈ [Instr.negotiateAlgorithms, .getDigests, .getCertificate off len,
        .challenge nonce] ∨ (k ≠ 0xF0 ∧ i = .getMeasurements nonce k) → exec i s = .next (s.emit (.spdm hub [0x12, 0x7F, 0x07, 0x00])).spdmNext)
    ∧ (heard → s.sec.lifeCycle ≠ 3 →
        exec .getCapabilities s = .next (s.emit (.spdm hub ([0x12, 0x61, 0, 0, 0, 0, 0, 0] ++ leBytes 4 0x16))).spdmNext)
    ∧ (heard → s.ready = true → s.sec.lifeCycle ≠ 3 → (i, l) ∈ [
        (.negotiateAlgorithms, [0x12, 0x63, 0, 0] ++ leBytes 4 0x80 ++ leBytes 4 0x2),
        (.getDigests, [0x12, 0x01, 0, 1] ++ digestBytes (sha384 Config.certificateChain)),
        (.getCertificate off len, [0x12, 0x02, 0, 0] ++ leBytes 2 ((Config.certificateChain.drop off).take len).length
          ++ leBytes 2 (Config.certificateChain.length - off - ((Config.certificateChain.drop off).take len).length)
          ++ (Config.certificateChain.drop off).take len)] → exec i s = .next (s.emit (.spdm hub l)).spdmNext)
    ∧ (heard → s.ready = true → s.sec.lifeCycle ≠ 3 → body = [0x12, 0x03, 0, 1] ++ digestBytes (sha384 Config.certificateChain)
        ++ leBytes 32 nonce.toNat ++ digestBytes (sha384 (s.measBlocks.flatMap fun b => measBlock b.1 b.2)) →
      exec (.challenge nonce) s = .next (s.emit (.spdm hub (body ++ slice (Config.aliasSign body) 0 96))).spdmNext)
    ∧ (heard → s.ready = true → s.sec.lifeCycle ≠ 3 ∨ k = 0xF0 →
        blocks = (if k = 0xFF then s.measBlocks else s.measBlocks.filter fun b => b.1 == k) → sel = (blocks.flatMap fun b => measBlock b.1 b.2) →
        body = [0x12, 0x60, BitVec.ofNat 8 (if k = 0 then s.measBlocks.length else 0), 0] ++ leBytes 1 blocks.length
          ++ leBytes 3 sel.length ++ sel ++ leBytes 32 nonce.toNat →
      exec (.getMeasurements nonce k) s = .next (s.emit (.spdm hub (body ++ slice (Config.aliasSign body) 0 96))).spdmNext)
    ∧ exec (.bootImageVerified image digest) s = .next (({ s with sec := { s.sec with updatePending := some digest } } : State).showQuote)

/-- R17, R394 to R403: two equal copies of an act pass it and a die that differs or is late is fenced; where no two agree nothing passes; an
image triple's outputs are decided in the same way by its instances, and one that differs or is late is unloaded; a fenced die leaves
the vote; the operator fences and resyncs; equal digests at the end of a resync bring the die back. Where it goes beyond the rules named
it rests on the model's choices of log entries 15, 92. -/
def Obligations.VoteResults : Prop :=
  ∀ (s : State) (gate die unit seq k b : Nat) (c d : List Byte) (x : GateAct) (lvl : Level) (v : Word64),
    ((die < 3 ∧ s.votes die = false) ∨ s.pwr.held = true ∨ s.pwr.tripped = true ∨ (gate, unit, seq) ∈ s.tri.passedActs
        ∨ (3 ≤ die ∧ ∀ image, imageUnit unit = some image → s.instanceOn image (die - 3) = none) →
      exec (.actCopyArrive gate die unit seq c) s = .next s)
    ∧ (die < 3 → s.votes die = true → s.pwr.held = false → s.pwr.tripped = false → (gate, unit, seq) ∉ s.tri.passedActs →
      (s.gateAct gate unit seq = none → 1024 ≤ s.aloneAt gate die → exec (.actCopyArrive gate die unit seq c) s = .next s)
      ∧ (s.gateAct gate unit seq = none → s.aloneAt gate die < 1024 → exec (.actCopyArrive gate die unit seq c) s
          = .next (s.setAct { gate := gate, unit := unit, seq := seq, copies := [(die, c)], firstNs := s.now }))
      ∧ (s.gateAct gate unit seq = some x → (∃ y ∈ x.copies, y.1 = die) → exec (.actCopyArrive gate die unit seq c) s = .next s)
      ∧ (s.gateAct gate unit seq = some x → x.passed = false → x.copies = [(k, d)] → k ≠ die →
          ∀ y, y = { x with copies := [(k, d), (die, c)] } →
        (c = d → s.voters = 3 → exec (.actCopyArrive gate die unit seq c) s
          = .next (s.setAct { y with passed := true, passedNs := s.now, value := c }))
        ∧ (c = d → s.voters = 2 → exec (.actCopyArrive gate die unit seq c) s
          = .next (s.endAct { y with passed := true, passedNs := s.now, value := c }))
        ∧ (c ≠ d → s.voters = 3 → exec (.actCopyArrive gate die unit seq c) s = .next (s.setAct y))
        ∧ (c ≠ d → s.voters = 2 → exec (.actCopyArrive gate die unit seq c) s = .next (s.refuseAct y)))
      ∧ (s.gateAct gate unit seq = some x → x.passed = true → (∀ y ∈ x.copies, y.1 ≠ die) → ∀ y, y = { x with copies := x.copies ++ [(die, c)] } →
          exec (.actCopyArrive gate die unit seq c) s = .next ((if c = x.value then s else s.gateFence die gate).endAct y)))
    ∧ (∀ image inst m, 3 ≤ die → s.pwr.held = false → s.pwr.tripped = false → (gate, unit, seq) ∉ s.tri.passedActs →
        imageUnit unit = some image → s.instanceOn image (die - 3) = some inst → m = (s.instances image).length →
      (s.gateAct gate unit seq = none → exec (.actCopyArrive gate die unit seq c) s
          = .next (s.setAct { gate := gate, unit := unit, seq := seq, copies := [(inst, c)], firstNs := s.now }))
      ∧ (s.gateAct gate unit seq = some x → (∃ y ∈ x.copies, y.1 = inst) → exec (.actCopyArrive gate die unit seq c) s = .next s)
      ∧ (s.gateAct gate unit seq = some x → x.passed = false → x.copies = [(k, d)] → k ≠ inst →
          ∀ y, y = { x with copies := [(k, d), (inst, c)] } →
        (c = d → m = 3 → exec (.actCopyArrive gate die unit seq c) s
          = .next (s.setAct { y with passed := true, passedNs := s.now, value := c }))
        ∧ (c = d → m = 2 → exec (.actCopyArrive gate die unit seq c) s
          = .next (s.endAct { y with passed := true, passedNs := s.now, value := c }))
        ∧ (c ≠ d → m = 3 → exec (.actCopyArrive gate die unit seq c) s = .next (s.setAct y))
        ∧ (c ≠ d → m = 2 → exec (.actCopyArrive gate die unit seq c) s = .next (s.refuseOutput y image)))
      ∧ (s.gateAct gate unit seq = some x → x.passed = true → (∀ y ∈ x.copies, y.1 ≠ inst) → ∀ y, y = { x with copies := x.copies ++ [(inst, c)] } →
          exec (.actCopyArrive gate die unit seq c) s
            = .next ((s.endAct y).oddInstances image (if c = x.value then [] else [inst]))))
    ∧ (s.gateAct gate unit seq = none → exec (.voteTimeout gate unit seq) s = .next s)
    ∧ (∀ image, s.gateAct gate unit seq = some x → imageUnit unit = some image →
      (x.passed = true → s.now < x.passedNs + 200000 → exec (.voteTimeout gate unit seq) s = .next s)
      ∧ (x.passed = true → x.passedNs + 200000 ≤ s.now → exec (.voteTimeout gate unit seq) s = .next ((s.endAct x).oddInstances image
          ((s.instances image).filter fun k => !(x.copies.any fun c => c.1 == k))))
      ∧ (x.passed = false → s.now < x.firstNs + 200000 → exec (.voteTimeout gate unit seq) s = .next s)
      ∧ (x.passed = false → x.firstNs + 200000 ≤ s.now → (s.instances image).length = 2
          ∨ ((s.instances image).length = 3 ∧ x.copies.length = 2) → exec (.voteTimeout gate unit seq) s = .next (s.refuseOutput x image))
      ∧ (x.passed = false → (s.instances image).length ≠ 2 → (s.instances image).length ≠ 3 ∨ x.copies.length ≠ 2 →
          exec (.voteTimeout gate unit seq) s = .next s))
    ∧ (s.gateAct gate unit seq = some x → imageUnit unit = none →
      (x.passed = true → s.now < x.passedNs + 200000 → exec (.voteTimeout gate unit seq) s = .next s)
      ∧ (x.passed = true → x.passedNs + 200000 ≤ s.now → exec (.voteTimeout gate unit seq) s = .next ((s.forEach
          ((List.range 3).filter fun k => s.votes k && !(x.copies.any fun c => c.1 == k)) fun s k => s.gateFence k gate).endAct x))
      ∧ (x.passed = false → s.now < x.firstNs + 200000 → exec (.voteTimeout gate unit seq) s = .next s)
      ∧ (x.passed = false → x.firstNs + 200000 ≤ s.now → s.voters = 2 ∨ (s.voters = 3 ∧ x.copies.length = 2) →
          exec (.voteTimeout gate unit seq) s = .next (s.refuseAct x))
      ∧ (x.passed = false → s.voters < 2 ∨ (s.voters = 3 ∧ x.copies.length ≠ 2) → exec (.voteTimeout gate unit seq) s = .next s))
    ∧ (s.tri.fencing = [] → exec .fenceEffect s = .next s)
    ∧ (s.tri.fencing = [(die, gate)] → die < 3 → ∃ t, exec .fenceEffect s = .next t ∧ t.votes die = false
        ∧ ∀ j, j ≠ die → t.votes j = s.votes j)
    ∧ (∀ i ∈ [Instr.fenceReq .tenant v, Instr.resyncReq .tenant v], exec i s = .next (s.satFld FLT_VIOL_TENANT 1))
    ∧ (lvl ≠ .tenant → ∀ i ∈ [Instr.fenceReq lvl v, Instr.resyncReq lvl v], ∃ t, exec i s = .next t
        ∧ t.fld TRI_CFG_AUTO_RESYNC = TRI_CFG_AUTO_RESYNC.of v ∧ t.engines = s.engines ∧ t.agents = s.agents ∧ t.out = s.out
        ∧ (TRI_CFG_FENCE_REQ.of v = 1 → s.voters = 3 → TRI_CFG_FENCE_DIE.of v < 3 → s.tri.fencing = [] →
            t.tri.fencing = [(TRI_CFG_FENCE_DIE.of v, 0)])
        ∧ (TRI_CFG_FENCE_REQ.of v = 1 → s.voters < 3 → t.fld FLT_VIOL_OPERATOR = (s.satFld FLT_VIOL_OPERATOR 1).fld FLT_VIOL_OPERATOR
            ∧ t.tri = s.tri)
        ∧ (TRI_CFG_FENCE_REQ.of v = 0 → t.tri = s.tri)
        ∧ (TRI_CFG_RESYNC_REQ.of v = 1 → s.heldDie = some k → t.fld TRI_STATUS_PHASE = 3 ∧ t.fld TRI_STATUS_RESYNC_DIE = k)
        ∧ (TRI_CFG_RESYNC_REQ.of v = 0 → t.fld TRI_STATUS_PHASE = s.fld TRI_STATUS_PHASE))
    ∧ (s.fld TRI_STATUS_PHASE ≠ 3 → exec (.resyncPassDone b) s = .next s)
    ∧ (s.fld TRI_STATUS_PHASE = 3 → ∀ u : State, u = { s with tri := { s.tri with passes := s.tri.passes + 1, marked := b } } →
      (b ≤ 8388608 → s.rte.classNs = none → s.rte.play = none → exec (.resyncPassDone b) s = .next (u.setFld TRI_STATUS_PHASE 4))
      ∧ (8388608 < b ∨ s.rte.classNs ≠ none ∨ s.rte.play ≠ none → exec (.resyncPassDone b) s = .next u))
    ∧ (s.fld TRI_STATUS_PHASE ≠ 4 → ∀ eq, exec (.resyncPauseDone eq) s = .next s)
    ∧ (s.fld TRI_STATUS_PHASE = 4 → die = s.fld TRI_STATUS_RESYNC_DIE → die < 3 →
      (∃ t, exec (.resyncPauseDone true) s = .next t ∧ t.fld TRI_STATUS_PHASE = 0 ∧ t.votes die = true
        ∧ (∀ j, j ≠ die → t.votes j = s.votes j)
        ∧ t.fld TRI_STATUS_LAST_RESYNC_US = min 65535 ((s.now - s.tri.resyncStartNs) / 1000))
      ∧ ∃ t, exec (.resyncPauseDone false) s = .next t ∧ t.fld TRI_STATUS_PHASE = 0 ∧ t.blk FLT_BLKn_STATE die = 3
        ∧ ∀ j, t.votes j = s.votes j)
    ∧ exec .gateProbeTimer s = .next { s with tri := { s.tri with probes := s.tri.probes + 1 } }
    ∧ exec (.comparatorSelftest gate true) s = .next s
    ∧ (gate < 41 → exec (.comparatorSelftest gate false) s = .next
        (({ s with tri := { s.tri with selfTestFails := s.tri.selfTestFails + 1 } } : State).raise (gateSource gate) 3))
    ∧ (∀ l : List (BitVec 384), s.voters < 2 → exec (.digestProbeTimer l) s = .next s)
    ∧ (∀ (l : List (BitVec 384)) (w : BitVec 384), (∀ j < 3, l.getD j 0 = w) → exec (.digestProbeTimer l) s = .next s)
    ∧ (∀ (l : List (BitVec 384)) (w : BitVec 384), s.voters = 3 → k < 3 → l.getD k 0 ≠ w → digestBytes (l.getD k 0) ≠ digestBytes w →
        (∀ j < 3, j ≠ k → l.getD j 0 = w) → exec (.digestProbeTimer l) s = .next (s.gateFence k gateH3))
    ∧ exec (.patrolRead []) s = .next s
    ∧ (k < 3 → s.votes k = true → exec (.patrolRead [k]) s = .next
        ((({ s with tri := { s.tri with selfTestFails := s.tri.selfTestFails + 1 } } : State).raise (0x0200 + 0x40 * k + 1) 1).orderFence k 0))
    ∧ (3 ≤ k ∨ s.votes k = false → exec (.patrolRead [k]) s = .next s)

/-- R404 to R414: pairing extends MEAS6 and sends the full copy; the standby applies mirror records in order; a late one lapses the bound; a
heartbeat shows its path, a lost path is an event and both lost begin the hold; the standby takes over when asked or when both are lost,
a primary under a higher generation steps down; a hold that ends without a path leaves an unpaired primary. Where it goes beyond the
rules named it rests on the model's choices of log entries 43, 93, 162, 177. -/
def Obligations.PairResults : Prop :=
  ∀ (s : State) (p : Packet) (lvl : Level) (v : Word64) (l : List Byte) (n : Nat) (path : HbPath) (t0 : TriadSt) (u w : State),
    exec (.pairEnable .tenant v) s = .next (s.satFld FLT_VIOL_TENANT 1)
    ∧ (lvl ≠ .tenant → ∃ t, exec (.pairEnable lvl v) s = .next t ∧ t.fld TRI_STANDBY_CFG_PAIR_EN = TRI_STANDBY_CFG_PAIR_EN.of v
        ∧ t.fld TRI_STANDBY_CFG_PARTNER_ID = TRI_STANDBY_CFG_PARTNER_ID.of v ∧ t.engines = s.engines
        ∧ t.fld TRI_STANDBY_CFG_HB_MISS = (if 5 ≤ TRI_STANDBY_CFG_HB_MISS.of v then TRI_STANDBY_CFG_HB_MISS.of v
            else s.fld TRI_STANDBY_CFG_HB_MISS)
        ∧ t.fld TRI_STANDBY_CFG_HOLD_MS = (if 5 ≤ TRI_STANDBY_CFG_HOLD_MS.of v then TRI_STANDBY_CFG_HOLD_MS.of v
            else s.fld TRI_STANDBY_CFG_HOLD_MS)
        ∧ (s.fld TRI_STANDBY_CFG_PAIR_EN = TRI_STANDBY_CFG_PAIR_EN.of v → t.tri = s.tri ∧ t.sec = s.sec)
        ∧ (s.fld TRI_STANDBY_CFG_PAIR_EN = 1 → TRI_STANDBY_CFG_PAIR_EN.of v = 0 → t.tri.paired = false ∧ t.tri.fullCopy = false
            ∧ (0x0007, noFid.toNat) ∈ t.lapses)
        ∧ (s.fld TRI_STANDBY_CFG_PAIR_EN = 0 → TRI_STANDBY_CFG_PAIR_EN.of v = 1 → t.sec = (s.extendMeas 6
            (sha384 (leBytes 4 (BitVec.ofNat 32 (TRI_STANDBY_CFG_PARTNER_ID.of v)).toNat))).sec
            ∧ (s.fld TRI_STATUS_ROLE ≠ 1 → BitVec.ofNat 32 (TRI_STANDBY_CFG_PARTNER_ID.of v) ≠ noFid →
                t.tri = { s.tri with mirrorSeq := s.tri.mirrorSeq + 1, mirrorOpen := s.tri.mirrorOpen ++ [(s.tri.mirrorSeq + 1, s.now, 0)] })))
    ∧ (s.freshPacket .ctl p → p.hdr.src ≠ s.partner ∨ s.fld TRI_STANDBY_CFG_PAIR_EN = 0 → exec (.mirror p) s = .next (s.nakPkt .ctl p.hdr 0x03))
    ∧ (s.freshPacket .ctl p → p.hdr.src = s.partner → s.fld TRI_STANDBY_CFG_PAIR_EN = 1 → n = leAt p.payload 0 8 →
      (s.tri.fullCopy = true → n ≤ s.tri.mirrorApplied → exec (.mirror p) s = .next (s.acked .ctl p))
      ∧ (s.tri.fullCopy = false ∨ (s.tri.mirrorHeld = [] ∧ n = s.tri.mirrorApplied + 1) → 0 < n → ∃ t, exec (.mirror p) s = .next t
          ∧ t.tri.mirrorApplied = n ∧ t.tri.mirrorHeld = [] ∧ t.tri.fullCopy = true ∧ t.tri.paired = true ∧ t.fld TRI_STATUS_ROLE = 1
          ∧ t.tri.mirrorItems = s.tri.mirrorItems.set (leAt p.payload 8 2) (n, slice p.payload 16 (leAt p.payload 12 4))
          ∧ t.engines = s.engines ∧ t.agents = s.agents)
      ∧ (s.tri.fullCopy = true → s.tri.mirrorHeld = [] → s.tri.mirrorApplied + 1 < n → ∃ t, exec (.mirror p) s = .next t
          ∧ t.tri.mirrorApplied = s.tri.mirrorApplied ∧ t.tri.mirrorItems = s.tri.mirrorItems
          ∧ t.tri.mirrorHeld = [(n, leAt p.payload 8 2, slice p.payload 16 (leAt p.payload 12 4))]))
    ∧ (s.tri.mirrorOpen = [] → exec .mirrorLagTimeout s = .next s)
    ∧ (∀ x r, s.tri.mirrorOpen = x :: r →
      (s.now < x.2.1 + 10000000 ∨ s.tri.lagRaised = true ∨ s.inHold = true → exec .mirrorLagTimeout s = .next s)
      ∧ (x.2.1 + 10000000 ≤ s.now → s.tri.lagRaised = false → s.inHold = false → exec .mirrorLagTimeout s = .next
          ((({ s with tri := { s.tri with lagRaised := true } } : State).raise 0x000B 2).lapse 0x0007 s.partner.toNat)))
    ∧ (s.fld TRI_STANDBY_CFG_PAIR_EN = 0 ∨ s.pwr.pwrgd = false ∨ s.pwr.tripped = true → exec .heartbeatTimer s = .next s)
    ∧ (s.fld TRI_STANDBY_CFG_PAIR_EN = 1 → s.pwr.pwrgd = true → s.pwr.tripped = false → ∃ t, exec .heartbeatTimer s = .next t
        ∧ t.tri = { s.tri with hbSeq := s.tri.hbSeq + 1 } ∧ Out.heartbeat .inband s.heartbeatBytes ∈ t.out
        ∧ (62 ∉ s.pwr.deadBlocks → Out.heartbeat .pair s.heartbeatBytes ∈ t.out) ∧ t.regs = s.regs ∧ t.engines = s.engines)
    ∧ (s.heartbeatOk l = false → exec (.heartbeat path l) s = .next s)
    ∧ (s.heartbeatOk l = true →
        t0 = { (match path with | .pair => { s.tri with lastPairNs := s.now } | .inband => { s.tri with lastInbandNs := s.now } : TriadSt) with
          partnerVoting := leAt l 9 1, partnerGeneration := BitVec.ofNat 32 (leAt l 4 4), partnerReq := leAt l 10 1 % 2 == 1 } →
        u = ((({ s with tri := t0 } : State).setFld (pathField path) 1).setFld TRI_STANDBY_STATUS_PARTNER_ROLE (leAt l 8 1)) →
        w = (if s.inHold = true then u.endHold else u) →
      ((w.fld TRI_STATUS_ROLE = 0 ∨ w.fld TRI_STATUS_ROLE = 3) → leAt l 8 1 ≠ 1 → w.fld TRI_STANDBY_STATUS_GENERATION < leAt l 4 4 →
        exec (.heartbeat path l) s = .next w.stepDown)
      ∧ (w.fld TRI_STATUS_ROLE = 1 → leAt l 10 1 % 2 = 1 →
        exec (.heartbeat path l) s = .next (if w.mayTakeOver = true then w.takeOver else w.raise 0x000C 3))
      ∧ (w.fld TRI_STATUS_ROLE = 1 → leAt l 10 1 % 2 = 0 → exec (.heartbeat path l) s = .next w)
      ∧ (w.fld TRI_STATUS_ROLE ≠ 1 → leAt l 8 1 = 1 ∨ leAt l 4 4 ≤ w.fld TRI_STANDBY_STATUS_GENERATION →
        exec (.heartbeat path l) s = .next w))
    ∧ (∃ t, s.stepDown = t ∧ t.fld TRI_STATUS_ROLE = 1 ∧ t.tri.paired = false ∧ t.tri.fullCopy = false)
    ∧ (s.fld TRI_STANDBY_STATUS_PATH_PAIR = 0 ∨ s.now < s.tri.lastPairNs + s.fld TRI_STANDBY_CFG_HB_MISS * 100000 →
        exec (.hbPathLost .pair) s = .next s)
    ∧ (s.fld TRI_STANDBY_STATUS_PATH_PAIR = 1 → s.tri.lastPairNs + s.fld TRI_STANDBY_CFG_HB_MISS * 100000 ≤ s.now →
        exec (.hbPathLost .pair) s = .next
          ((((s.setFld TRI_STANDBY_STATUS_PATH_PAIR 0).satFld TRI_EVENTS_PAIR_LOSSES 1).raise 0x0009 2).beginHold))
    ∧ (s.fld TRI_STANDBY_STATUS_PATH_INBAND = 0 ∨ s.now < s.tri.lastInbandNs + s.fld TRI_STANDBY_CFG_HB_MISS * 100000 →
        exec (.hbPathLost .inband) s = .next s)
    ∧ (s.fld TRI_STANDBY_STATUS_PATH_INBAND = 1 → s.tri.lastInbandNs + s.fld TRI_STANDBY_CFG_HB_MISS * 100000 ≤ s.now →
        exec (.hbPathLost .inband) s = .next
          ((((s.setFld TRI_STANDBY_STATUS_PATH_INBAND 0).satFld TRI_EVENTS_INBAND_LOSSES 1).raise 0x000A 2).beginHold))
    ∧ (s.mayTakeOver = true → s.bothLost = true ∨ s.tri.partnerReq = true → exec .takeoverStart s = .next s.takeOver)
    ∧ (s.mayTakeOver = false ∨ (s.bothLost = false ∧ s.tri.partnerReq = false) → exec .takeoverStart s = .next s)
    ∧ (s.tri.holdEndNs = none → exec .holdExpire s = .next s)
    ∧ (s.tri.holdEndNs = some n → s.now < n ∨ s.bothLost = false → exec .holdExpire s = .next s)
    ∧ (s.tri.holdEndNs = some n → n ≤ s.now → s.bothLost = true → ∃ t, exec .holdExpire s = .next t ∧ t.fld TRI_STATUS_ROLE = 3
        ∧ t.tri.paired = false ∧ t.tri.holdEndNs = none ∧ t.fld TRI_STANDBY_STATUS_HOLD = 0 ∧ t.tri.mirrorOpen = []
        ∧ (0x0007, noFid.toNat) ∈ t.lapses)
    ∧ exec .healthReportTimer s = .next { s with tri := { s.tri with health := ringPush 256 s.tri.health s.healthBytes } }

/-! ## Rules of the machine -/

/-- R202: the next command of a ring that starts is the first fetched one; none starts past a command with SERIAL that has not completed,
and one with SERIAL only when no command before it is left in the ring. Where it goes beyond the rules named it rests on the model's
choices of log entry 124. -/
def Obligations.RingOrder : Prop :=
  (∀ (l : List Cmd) (c : Cmd), nextStart l = some c ↔ ∃ a b, l = a ++ c :: b ∧ c.state = .fetched
      ∧ (∀ d ∈ a, d.state ≠ .fetched ∧ d.serial = false) ∧ (c.serial = true → a = []))
    ∧ ∀ (s : State) (q : Nat) op lvl body, nextStart (s.queue q).cmds = none → s.startCmd q op lvl body = s

/-- No command faults and none is refused: each answers a next state in every state, so that a run of any length is safe. -/
def Obligations.EveryCommandAnswers : Prop :=
  (∀ (c : Instr) (s : State), ∃ t, exec c s = .next t) ∧ ∀ (n : Nat) (s : State), SafeRun n s

/-- R280: with POLICY 0 the first notice of a launch whose reservation does not fit puts the group's ticket among the waiting ones and
counts one in GRP_FALLBACK.WAITED; a notice of a launch that is decided counts nothing. -/
def Obligations.WaitedOnce : Prop :=
  ∀ (s : State) (p : Packet) (op : BitVec 32) (sparse : Bool) (g : Group) (k : Nat) (m : Member), s.freshPacket .ctl p → s.group k = some g →
    m ∈ g.rec_.members → m.fid = p.hdr.src → g.rec_.library = false →
    (op ∉ g.decided → g.resv = 0 → g.rec_.policyRing = false → s.fits g = false →
      ∃ t, exec (.launchNotice p k op sparse) s = .next t ∧ t.fld GRP_FALLBACK_WAITED = min (s.fld GRP_FALLBACK_WAITED + 1) 0xFFFFFFFF
        ∧ (∃ x ∈ t.grp.tickets, x.group = k) ∧ (∀ x ∈ s.grp.tickets, x ∈ t.grp.tickets) ∧ t.fld GRP_FALLBACK_RING = s.fld GRP_FALLBACK_RING)
    ∧ (op ∈ g.decided → ∃ t, exec (.launchNotice p k op sparse) s = .next t ∧ t.fld GRP_FALLBACK_WAITED = s.fld GRP_FALLBACK_WAITED
        ∧ t.grp.tickets = s.grp.tickets)

/-- R143: a write of 1 to ARM while SYNC_EN is 0 or the epoch is below 20 ticks does what the same write without ARM does; below 20 ticks
L1, a twentieth of the epoch, is zero. -/
def Obligations.ArmIgnored : Prop :=
  ∀ (s : State) (lvl : Level) (v : Word64), SCH_SYNC_CFG_SYNC_EN.of v = 0 ∨ s.epochTicks < 20 → SCH_SYNC_CFG_ARM.of v = 1 →
    (∃ t, exec (.syncArm lvl v) s = .next t ∧ exec (.syncArm lvl (SCH_SYNC_CFG_ARM.put v 0)) s = .next t) ∧ (s.epochTicks < 20 → s.syncL1 = 0)

/-- R399: with three arbiters in the vote the operator's request fences the die of FENCE_DIE and no other; with fewer it is ignored and
counted. -/
def Obligations.FenceRequest : Prop :=
  ∀ (s : State) (lvl : Level) (v : Word64) (die : Nat), lvl ≠ .tenant → TRI_CFG_FENCE_REQ.of v = 1 → TRI_CFG_RESYNC_REQ.of v = 0 →
    die = TRI_CFG_FENCE_DIE.of v →
    (s.voters = 3 → die < 3 → s.tri.fencing = [] → ∃ t u, exec (.fenceReq lvl v) s = .next t ∧ exec .fenceEffect t = .next u
      ∧ u.votes die = false ∧ ∀ k, k ≠ die → u.votes k = s.votes k)
    ∧ (s.voters < 3 → ∃ t, exec (.fenceReq lvl v) s = .next t ∧ t.tri = s.tri ∧ (∀ k, t.votes k = s.votes k) ∧ t.engines = s.engines
      ∧ t.agents = s.agents ∧ t.out = s.out
      ∧ (lvl = .operator → t.fld FLT_VIOL_OPERATOR = min (s.fld FLT_VIOL_OPERATOR + 1) FLT_VIOL_OPERATOR.max))

/-- A header as its 32 bytes is read back as it was (R92). -/
def Obligations.HeaderRoundTrip : Prop := ∀ h : Header, Header.parse h.bytes = h

/-- Every step keeps the canonical form of the HBM system area: addresses strictly rising, no entry equal to what an unlisted byte reads as.
Where it goes beyond the rules named it rests on the model's choices of log entry 10. -/
def Obligations.HbmCanonical : Prop := ∀ s t : State, s.hbm.wf = true → step s = .next t → t.hbm.wf = true

/-- R349: no command but LCADV changes the life-cycle state, and LCADV moves it only forward, to one of the states of R349. -/
def Obligations.LifeCycleForward : Prop :=
  ∀ (s t : State) (c : Instr), exec c s = .next t →
    s.sec.lifeCycle ≤ t.sec.lifeCycle ∧ (t.sec.lifeCycle ≠ s.sec.lifeCycle → t.sec.lifeCycle ≤ 3 ∧ ∃ e, c = .lcadv e)
end

