-- ==== Sys2Proof/Laws/Maps.lean ====
section
/-! SUPPORT. Laws of sparse maps and byte memories: read after write, and that every operation keeps a memory's canonical
form. -/

namespace Sys2Proof.Machine

/-! ## Maps -/

@[simp] theorem NMap.get_set_self {α : Type} (m : NMap α) (i : Nat) (x : α) : (m.set i x).get i = some x := by
  induction m with
  | nil => simp [NMap.set, NMap.get]
  | cons h t ih =>
    obtain ⟨k, v⟩ := h
    by_cases h1 : i < k
    · simp [NMap.set, NMap.get, h1]
    · by_cases h2 : i = k
      · simp [NMap.set, NMap.get, h2]
      · have h3 : ¬ k = i := fun h => h2 h.symm
        simp [NMap.set, NMap.get, h1, h2, h3, ih]

theorem NMap.get_set_ne {α : Type} (m : NMap α) {i j : Nat} (x : α) (h : j ≠ i) : (m.set i x).get j = m.get j := by
  have hij : ¬ i = j := fun e => h e.symm
  induction m with
  | nil => simp [NMap.set, NMap.get, hij]
  | cons p t ih =>
    obtain ⟨k, v⟩ := p
    by_cases h1 : i < k
    · simp [NMap.set, NMap.get, h1, hij]
    · by_cases h2 : i = k
      · subst h2
        simp [NMap.set, NMap.get, hij]
      · simp [NMap.set, NMap.get, h1, h2, ih]

@[simp] theorem NMap.getD_set_self {α : Type} (m : NMap α) (i : Nat) (x d : α) : (m.set i x).getD i d = x := by
  simp [NMap.getD]

theorem NMap.getD_set_ne {α : Type} (m : NMap α) {i j : Nat} (x d : α) (h : j ≠ i) : (m.set i x).getD j d = m.getD j d := by
  simp [NMap.getD, NMap.get_set_ne m x h]

@[simp] theorem NMap.set_set {α : Type} (m : NMap α) (i : Nat) (x y : α) : (m.set i x).set i y = m.set i y := by
  induction m with
  | nil => simp [NMap.set]
  | cons p t ih =>
    obtain ⟨k, v⟩ := p
    by_cases h1 : i < k
    · simp [NMap.set, h1]
    · by_cases h2 : i = k
      · simp [NMap.set, h2]
      · simp [NMap.set, h1, h2, ih]

@[simp] theorem NMap.get_nil {α : Type} (i : Nat) : NMap.get ([] : NMap α) i = none := rfl

@[simp] theorem NMap.getD_nil {α : Type} (i : Nat) (d : α) : NMap.getD ([] : NMap α) i d = d := rfl

/-! ## Memories: read after write -/

theorem Memory.read_of_wfFrom {lo : Nat} {m : Memory} (h : Memory.wfFrom lo m = true) {a : Nat} (ha : a < lo) :
    m.read a = Memory.unlisted := by
  induction m generalizing lo with
  | nil => rfl
  | cons p t ih =>
    obtain ⟨k, v⟩ := p
    simp [Memory.wfFrom] at h
    have hk : ¬ k = a := by omega
    simp [Memory.read, hk, ih h.2 (by omega)]

theorem Memory.read_write_self {m : Memory} (h : m.wf = true) (a : Nat) (b : Byte) : (m.write a b).read a = b := by
  have key : ∀ (m : Memory) (lo : Nat), Memory.wfFrom lo m = true → (m.write a b).read a = b := by
    intro m
    induction m with
    | nil =>
      intro lo _
      by_cases hb : b = Memory.unlisted
      · simp [Memory.write, Memory.read, hb]
      · simp [Memory.write, Memory.read, hb]
    | cons p t ih =>
      intro lo hw
      obtain ⟨k, v⟩ := p
      simp [Memory.wfFrom] at hw
      by_cases h1 : a < k
      · by_cases hb : b = Memory.unlisted
        · have hk : ¬ k = a := by omega
          simp [Memory.write, h1, hb, Memory.read, hk, Memory.read_of_wfFrom hw.2 (by omega : a < k + 1)]
        · simp [Memory.write, h1, hb, Memory.read]
      · by_cases h2 : a = k
        · subst h2
          by_cases hb : b = Memory.unlisted
          · simp [Memory.write, hb, Memory.read_of_wfFrom hw.2 (by omega : a < a + 1)]
          · simp [Memory.write, hb, Memory.read]
        · have hk : ¬ k = a := fun e => h2 e.symm
          simp [Memory.write, h1, h2, Memory.read, hk, ih (k + 1) hw.2]
  exact key m 0 h

theorem Memory.read_write_ne (m : Memory) {a c : Nat} (b : Byte) (h : c ≠ a) : (m.write a b).read c = m.read c := by
  have hac : ¬ a = c := fun e => h e.symm
  induction m with
  | nil =>
    by_cases hb : b = Memory.unlisted
    · simp [Memory.write, hb]
    · simp [Memory.write, hb, Memory.read, hac]
  | cons p t ih =>
    obtain ⟨k, v⟩ := p
    by_cases h1 : a < k
    · by_cases hb : b = Memory.unlisted
      · simp [Memory.write, h1, hb]
      · simp [Memory.write, h1, hb, Memory.read, hac]
    · by_cases h2 : a = k
      · subst h2
        by_cases hb : b = Memory.unlisted
        · simp [Memory.write, hb, Memory.read, hac]
        · simp [Memory.write, hb, Memory.read, hac]
      · simp [Memory.write, h1, h2, Memory.read, ih]

/-! ## Memories: the canonical form -/

theorem Memory.wfFrom_mono {lo hi : Nat} {m : Memory} (hle : lo ≤ hi) (h : Memory.wfFrom hi m = true) :
    Memory.wfFrom lo m = true := by
  cases m with
  | nil => rfl
  | cons p t =>
    obtain ⟨k, v⟩ := p
    simp [Memory.wfFrom] at h ⊢
    exact ⟨⟨by omega, h.1.2⟩, h.2⟩

theorem Memory.wfFrom_write {m : Memory} {lo a : Nat} (b : Byte) (hlo : lo ≤ a) (h : Memory.wfFrom lo m = true) :
    Memory.wfFrom lo (m.write a b) = true := by
  induction m generalizing lo with
  | nil =>
    by_cases hb : b = Memory.unlisted
    · simp [Memory.write, hb, Memory.wfFrom]
    · simp [Memory.write, hb, Memory.wfFrom, hlo]
  | cons p t ih =>
    obtain ⟨k, v⟩ := p
    simp [Memory.wfFrom] at h
    obtain ⟨⟨hk, hv⟩, ht⟩ := h
    by_cases h1 : a < k
    · by_cases hb : b = Memory.unlisted
      · simp [Memory.write, h1, hb, Memory.wfFrom, hk, hv, ht]
      · have hle : a + 1 ≤ k := by omega
        simp [Memory.write, h1, hb, Memory.wfFrom, hlo, hv, ht, hle]
    · by_cases h2 : a = k
      · subst h2
        by_cases hb : b = Memory.unlisted
        · simp [Memory.write, hb]
          exact Memory.wfFrom_mono (by omega) ht
        · simp [Memory.write, hb, Memory.wfFrom, hk, ht]
      · simp [Memory.write, h1, h2, Memory.wfFrom, hk, hv]
        exact ih (by omega) ht

theorem Memory.wf_write {m : Memory} (a : Nat) (b : Byte) (h : m.wf = true) : (m.write a b).wf = true :=
  Memory.wfFrom_write b (Nat.zero_le a) h

theorem Memory.wf_writeBytes {m : Memory} (a : Nat) (l : List Byte) (h : m.wf = true) : (m.writeBytes a l).wf = true := by
  induction l generalizing m a with
  | nil => exact h
  | cons b t ih => exact ih (a + 1) (Memory.wf_write a b h)

theorem Memory.wfFrom_filter {lo : Nat} {m : Memory} (p : Host.Cell → Bool) (h : Memory.wfFrom lo m = true) :
    Memory.wfFrom lo (m.filter p) = true := by
  induction m generalizing lo with
  | nil => rfl
  | cons c t ih =>
    obtain ⟨k, v⟩ := c
    simp [Memory.wfFrom] at h
    by_cases hp : p (k, v) = true
    · simp [List.filter, hp, Memory.wfFrom, h.1.1, h.1.2]
      exact ih h.2
    · simp [List.filter, hp]
      exact ih (Memory.wfFrom_mono (by omega) h.2)

theorem Memory.wf_zero {m : Memory} (a n : Nat) (h : m.wf = true) : (m.zero a n).wf = true :=
  Memory.wfFrom_filter _ h

theorem Memory.wf_nil : Memory.wf [] = true := rfl

/-! ## Memories: ranges -/

theorem Memory.read_writeBytes_below (m : Memory) {a c : Nat} (l : List Byte) (h : c < a) :
    (m.writeBytes a l).read c = m.read c := by
  induction l generalizing m a with
  | nil => rfl
  | cons b t ih => simp [Memory.writeBytes, ih (m.write a b) (by omega : c < a + 1), Memory.read_write_ne m b (by omega : c ≠ a)]

theorem Memory.read_writeBytes_above (m : Memory) {a c : Nat} (l : List Byte) (h : a + l.length ≤ c) :
    (m.writeBytes a l).read c = m.read c := by
  induction l generalizing m a with
  | nil => rfl
  | cons b t ih =>
    simp at h
    simp [Memory.writeBytes, ih (m.write a b) (by omega : a + 1 + t.length ≤ c), Memory.read_write_ne m b (by omega : c ≠ a)]

theorem Memory.readBytes_length (m : Memory) (a n : Nat) : (m.readBytes a n).length = n := by
  induction n generalizing a with
  | zero => rfl
  | succ n ih => simp [Memory.readBytes, ih]

theorem Memory.readBytes_writeBytes {m : Memory} (h : m.wf = true) (a : Nat) (l : List Byte) :
    (m.writeBytes a l).readBytes a l.length = l := by
  induction l generalizing m a with
  | nil => rfl
  | cons b t ih =>
    simp [Memory.writeBytes, Memory.readBytes, ih (Memory.wf_write a b h) (a + 1),
      Memory.read_writeBytes_below (m.write a b) t (by omega : a < a + 1), Memory.read_write_self h]

end Sys2Proof.Machine
end

