-- ==== Sys2Proof/Laws/State.lean ====
section
/-! SUPPORT. Laws of the named updates of State: what each leaves unchanged, one lemma for each field, and what it writes. -/

namespace Sys2Proof.Machine

/-! ## Registers of the controller -/

@[simp] theorem State.setReg_time (s : State) (off : Nat) (w : Word64) : (s.setReg off w).time = s.time := rfl
@[simp] theorem State.setReg_noc (s : State) (off : Nat) (w : Word64) : (s.setReg off w).noc = s.noc := rfl
@[simp] theorem State.setReg_sq (s : State) (off : Nat) (w : Word64) : (s.setReg off w).sq = s.sq := rfl
@[simp] theorem State.setReg_pwr (s : State) (off : Nat) (w : Word64) : (s.setReg off w).pwr = s.pwr := rfl
@[simp] theorem State.setReg_col (s : State) (off : Nat) (w : Word64) : (s.setReg off w).col = s.col := rfl
@[simp] theorem State.setReg_led (s : State) (off : Nat) (w : Word64) : (s.setReg off w).led = s.led := rfl
@[simp] theorem State.setReg_tri (s : State) (off : Nat) (w : Word64) : (s.setReg off w).tri = s.tri := rfl
@[simp] theorem State.setReg_dom (s : State) (off : Nat) (w : Word64) : (s.setReg off w).dom = s.dom := rfl
@[simp] theorem State.setReg_rte (s : State) (off : Nat) (w : Word64) : (s.setReg off w).rte = s.rte := rfl
@[simp] theorem State.setReg_sch (s : State) (off : Nat) (w : Word64) : (s.setReg off w).sch = s.sch := rfl
@[simp] theorem State.setReg_grp (s : State) (off : Nat) (w : Word64) : (s.setReg off w).grp = s.grp := rfl
@[simp] theorem State.setReg_plc (s : State) (off : Nat) (w : Word64) : (s.setReg off w).plc = s.plc := rfl
@[simp] theorem State.setReg_sec (s : State) (off : Nat) (w : Word64) : (s.setReg off w).sec = s.sec := rfl
@[simp] theorem State.setReg_engines (s : State) (off : Nat) (w : Word64) : (s.setReg off w).engines = s.engines := rfl
@[simp] theorem State.setReg_programs (s : State) (off : Nat) (w : Word64) : (s.setReg off w).programs = s.programs := rfl
@[simp] theorem State.setReg_queues (s : State) (off : Nat) (w : Word64) : (s.setReg off w).queues = s.queues := rfl
@[simp] theorem State.setReg_turn (s : State) (off : Nat) (w : Word64) : (s.setReg off w).turn = s.turn := rfl
@[simp] theorem State.setReg_sets (s : State) (off : Nat) (w : Word64) : (s.setReg off w).sets = s.sets := rfl
@[simp] theorem State.setReg_store (s : State) (off : Nat) (w : Word64) : (s.setReg off w).store = s.store := rfl
@[simp] theorem State.setReg_hbm (s : State) (off : Nat) (w : Word64) : (s.setReg off w).hbm = s.hbm := rfl
@[simp] theorem State.setReg_spill (s : State) (off : Nat) (w : Word64) : (s.setReg off w).spill = s.spill := rfl
@[simp] theorem State.setReg_ports (s : State) (off : Nat) (w : Word64) : (s.setReg off w).ports = s.ports := rfl
@[simp] theorem State.setReg_streams (s : State) (off : Nat) (w : Word64) : (s.setReg off w).streams = s.streams := rfl
@[simp] theorem State.setReg_hooks (s : State) (off : Nat) (w : Word64) : (s.setReg off w).hooks = s.hooks := rfl
@[simp] theorem State.setReg_agents (s : State) (off : Nat) (w : Word64) : (s.setReg off w).agents = s.agents := rfl
@[simp] theorem State.setReg_lapses (s : State) (off : Nat) (w : Word64) : (s.setReg off w).lapses = s.lapses := rfl
@[simp] theorem State.setReg_out (s : State) (off : Nat) (w : Word64) : (s.setReg off w).out = s.out := rfl
@[simp] theorem State.setReg_fresh (s : State) (off : Nat) (w : Word64) : (s.setReg off w).fresh = s.fresh := rfl
@[simp] theorem State.setReg_pending (s : State) (off : Nat) (w : Word64) : (s.setReg off w).pending = s.pending := rfl

@[simp] theorem State.setFld_time (s : State) (f : Field) (v : Nat) : (s.setFld f v).time = s.time := rfl
@[simp] theorem State.setFld_noc (s : State) (f : Field) (v : Nat) : (s.setFld f v).noc = s.noc := rfl
@[simp] theorem State.setFld_sq (s : State) (f : Field) (v : Nat) : (s.setFld f v).sq = s.sq := rfl
@[simp] theorem State.setFld_pwr (s : State) (f : Field) (v : Nat) : (s.setFld f v).pwr = s.pwr := rfl
@[simp] theorem State.setFld_col (s : State) (f : Field) (v : Nat) : (s.setFld f v).col = s.col := rfl
@[simp] theorem State.setFld_led (s : State) (f : Field) (v : Nat) : (s.setFld f v).led = s.led := rfl
@[simp] theorem State.setFld_tri (s : State) (f : Field) (v : Nat) : (s.setFld f v).tri = s.tri := rfl
@[simp] theorem State.setFld_dom (s : State) (f : Field) (v : Nat) : (s.setFld f v).dom = s.dom := rfl
@[simp] theorem State.setFld_rte (s : State) (f : Field) (v : Nat) : (s.setFld f v).rte = s.rte := rfl
@[simp] theorem State.setFld_sch (s : State) (f : Field) (v : Nat) : (s.setFld f v).sch = s.sch := rfl
@[simp] theorem State.setFld_grp (s : State) (f : Field) (v : Nat) : (s.setFld f v).grp = s.grp := rfl
@[simp] theorem State.setFld_plc (s : State) (f : Field) (v : Nat) : (s.setFld f v).plc = s.plc := rfl
@[simp] theorem State.setFld_sec (s : State) (f : Field) (v : Nat) : (s.setFld f v).sec = s.sec := rfl
@[simp] theorem State.setFld_engines (s : State) (f : Field) (v : Nat) : (s.setFld f v).engines = s.engines := rfl
@[simp] theorem State.setFld_programs (s : State) (f : Field) (v : Nat) : (s.setFld f v).programs = s.programs := rfl
@[simp] theorem State.setFld_queues (s : State) (f : Field) (v : Nat) : (s.setFld f v).queues = s.queues := rfl
@[simp] theorem State.setFld_turn (s : State) (f : Field) (v : Nat) : (s.setFld f v).turn = s.turn := rfl
@[simp] theorem State.setFld_sets (s : State) (f : Field) (v : Nat) : (s.setFld f v).sets = s.sets := rfl
@[simp] theorem State.setFld_store (s : State) (f : Field) (v : Nat) : (s.setFld f v).store = s.store := rfl
@[simp] theorem State.setFld_hbm (s : State) (f : Field) (v : Nat) : (s.setFld f v).hbm = s.hbm := rfl
@[simp] theorem State.setFld_spill (s : State) (f : Field) (v : Nat) : (s.setFld f v).spill = s.spill := rfl
@[simp] theorem State.setFld_ports (s : State) (f : Field) (v : Nat) : (s.setFld f v).ports = s.ports := rfl
@[simp] theorem State.setFld_streams (s : State) (f : Field) (v : Nat) : (s.setFld f v).streams = s.streams := rfl
@[simp] theorem State.setFld_hooks (s : State) (f : Field) (v : Nat) : (s.setFld f v).hooks = s.hooks := rfl
@[simp] theorem State.setFld_agents (s : State) (f : Field) (v : Nat) : (s.setFld f v).agents = s.agents := rfl
@[simp] theorem State.setFld_lapses (s : State) (f : Field) (v : Nat) : (s.setFld f v).lapses = s.lapses := rfl
@[simp] theorem State.setFld_out (s : State) (f : Field) (v : Nat) : (s.setFld f v).out = s.out := rfl
@[simp] theorem State.setFld_fresh (s : State) (f : Field) (v : Nat) : (s.setFld f v).fresh = s.fresh := rfl
@[simp] theorem State.setFld_pending (s : State) (f : Field) (v : Nat) : (s.setFld f v).pending = s.pending := rfl

@[simp] theorem State.satFld_time (s : State) (f : Field) (n : Nat) : (s.satFld f n).time = s.time := rfl
@[simp] theorem State.satFld_noc (s : State) (f : Field) (n : Nat) : (s.satFld f n).noc = s.noc := rfl
@[simp] theorem State.satFld_sq (s : State) (f : Field) (n : Nat) : (s.satFld f n).sq = s.sq := rfl
@[simp] theorem State.satFld_pwr (s : State) (f : Field) (n : Nat) : (s.satFld f n).pwr = s.pwr := rfl
@[simp] theorem State.satFld_col (s : State) (f : Field) (n : Nat) : (s.satFld f n).col = s.col := rfl
@[simp] theorem State.satFld_led (s : State) (f : Field) (n : Nat) : (s.satFld f n).led = s.led := rfl
@[simp] theorem State.satFld_tri (s : State) (f : Field) (n : Nat) : (s.satFld f n).tri = s.tri := rfl
@[simp] theorem State.satFld_dom (s : State) (f : Field) (n : Nat) : (s.satFld f n).dom = s.dom := rfl
@[simp] theorem State.satFld_rte (s : State) (f : Field) (n : Nat) : (s.satFld f n).rte = s.rte := rfl
@[simp] theorem State.satFld_sch (s : State) (f : Field) (n : Nat) : (s.satFld f n).sch = s.sch := rfl
@[simp] theorem State.satFld_grp (s : State) (f : Field) (n : Nat) : (s.satFld f n).grp = s.grp := rfl
@[simp] theorem State.satFld_plc (s : State) (f : Field) (n : Nat) : (s.satFld f n).plc = s.plc := rfl
@[simp] theorem State.satFld_sec (s : State) (f : Field) (n : Nat) : (s.satFld f n).sec = s.sec := rfl
@[simp] theorem State.satFld_engines (s : State) (f : Field) (n : Nat) : (s.satFld f n).engines = s.engines := rfl
@[simp] theorem State.satFld_programs (s : State) (f : Field) (n : Nat) : (s.satFld f n).programs = s.programs := rfl
@[simp] theorem State.satFld_queues (s : State) (f : Field) (n : Nat) : (s.satFld f n).queues = s.queues := rfl
@[simp] theorem State.satFld_turn (s : State) (f : Field) (n : Nat) : (s.satFld f n).turn = s.turn := rfl
@[simp] theorem State.satFld_sets (s : State) (f : Field) (n : Nat) : (s.satFld f n).sets = s.sets := rfl
@[simp] theorem State.satFld_store (s : State) (f : Field) (n : Nat) : (s.satFld f n).store = s.store := rfl
@[simp] theorem State.satFld_hbm (s : State) (f : Field) (n : Nat) : (s.satFld f n).hbm = s.hbm := rfl
@[simp] theorem State.satFld_spill (s : State) (f : Field) (n : Nat) : (s.satFld f n).spill = s.spill := rfl
@[simp] theorem State.satFld_ports (s : State) (f : Field) (n : Nat) : (s.satFld f n).ports = s.ports := rfl
@[simp] theorem State.satFld_streams (s : State) (f : Field) (n : Nat) : (s.satFld f n).streams = s.streams := rfl
@[simp] theorem State.satFld_hooks (s : State) (f : Field) (n : Nat) : (s.satFld f n).hooks = s.hooks := rfl
@[simp] theorem State.satFld_agents (s : State) (f : Field) (n : Nat) : (s.satFld f n).agents = s.agents := rfl
@[simp] theorem State.satFld_lapses (s : State) (f : Field) (n : Nat) : (s.satFld f n).lapses = s.lapses := rfl
@[simp] theorem State.satFld_out (s : State) (f : Field) (n : Nat) : (s.satFld f n).out = s.out := rfl
@[simp] theorem State.satFld_fresh (s : State) (f : Field) (n : Nat) : (s.satFld f n).fresh = s.fresh := rfl
@[simp] theorem State.satFld_pending (s : State) (f : Field) (n : Nat) : (s.satFld f n).pending = s.pending := rfl

@[simp] theorem State.subFld_time (s : State) (f : Field) (n : Nat) : (s.subFld f n).time = s.time := rfl
@[simp] theorem State.subFld_noc (s : State) (f : Field) (n : Nat) : (s.subFld f n).noc = s.noc := rfl
@[simp] theorem State.subFld_sq (s : State) (f : Field) (n : Nat) : (s.subFld f n).sq = s.sq := rfl
@[simp] theorem State.subFld_pwr (s : State) (f : Field) (n : Nat) : (s.subFld f n).pwr = s.pwr := rfl
@[simp] theorem State.subFld_col (s : State) (f : Field) (n : Nat) : (s.subFld f n).col = s.col := rfl
@[simp] theorem State.subFld_led (s : State) (f : Field) (n : Nat) : (s.subFld f n).led = s.led := rfl
@[simp] theorem State.subFld_tri (s : State) (f : Field) (n : Nat) : (s.subFld f n).tri = s.tri := rfl
@[simp] theorem State.subFld_dom (s : State) (f : Field) (n : Nat) : (s.subFld f n).dom = s.dom := rfl
@[simp] theorem State.subFld_rte (s : State) (f : Field) (n : Nat) : (s.subFld f n).rte = s.rte := rfl
@[simp] theorem State.subFld_sch (s : State) (f : Field) (n : Nat) : (s.subFld f n).sch = s.sch := rfl
@[simp] theorem State.subFld_grp (s : State) (f : Field) (n : Nat) : (s.subFld f n).grp = s.grp := rfl
@[simp] theorem State.subFld_plc (s : State) (f : Field) (n : Nat) : (s.subFld f n).plc = s.plc := rfl
@[simp] theorem State.subFld_sec (s : State) (f : Field) (n : Nat) : (s.subFld f n).sec = s.sec := rfl
@[simp] theorem State.subFld_engines (s : State) (f : Field) (n : Nat) : (s.subFld f n).engines = s.engines := rfl
@[simp] theorem State.subFld_programs (s : State) (f : Field) (n : Nat) : (s.subFld f n).programs = s.programs := rfl
@[simp] theorem State.subFld_queues (s : State) (f : Field) (n : Nat) : (s.subFld f n).queues = s.queues := rfl
@[simp] theorem State.subFld_turn (s : State) (f : Field) (n : Nat) : (s.subFld f n).turn = s.turn := rfl
@[simp] theorem State.subFld_sets (s : State) (f : Field) (n : Nat) : (s.subFld f n).sets = s.sets := rfl
@[simp] theorem State.subFld_store (s : State) (f : Field) (n : Nat) : (s.subFld f n).store = s.store := rfl
@[simp] theorem State.subFld_hbm (s : State) (f : Field) (n : Nat) : (s.subFld f n).hbm = s.hbm := rfl
@[simp] theorem State.subFld_spill (s : State) (f : Field) (n : Nat) : (s.subFld f n).spill = s.spill := rfl
@[simp] theorem State.subFld_ports (s : State) (f : Field) (n : Nat) : (s.subFld f n).ports = s.ports := rfl
@[simp] theorem State.subFld_streams (s : State) (f : Field) (n : Nat) : (s.subFld f n).streams = s.streams := rfl
@[simp] theorem State.subFld_hooks (s : State) (f : Field) (n : Nat) : (s.subFld f n).hooks = s.hooks := rfl
@[simp] theorem State.subFld_agents (s : State) (f : Field) (n : Nat) : (s.subFld f n).agents = s.agents := rfl
@[simp] theorem State.subFld_lapses (s : State) (f : Field) (n : Nat) : (s.subFld f n).lapses = s.lapses := rfl
@[simp] theorem State.subFld_out (s : State) (f : Field) (n : Nat) : (s.subFld f n).out = s.out := rfl
@[simp] theorem State.subFld_fresh (s : State) (f : Field) (n : Nat) : (s.subFld f n).fresh = s.fresh := rfl
@[simp] theorem State.subFld_pending (s : State) (f : Field) (n : Nat) : (s.subFld f n).pending = s.pending := rfl

@[simp] theorem State.reg_setReg_self (s : State) (off : Nat) (w : Word64) : (s.setReg off w).reg off = w := by
  simp [State.reg, State.setReg]

theorem State.reg_setReg_ne (s : State) {off off' : Nat} (w : Word64) (h : off' ≠ off) :
    (s.setReg off w).reg off' = s.reg off' := by
  simp [State.reg, State.setReg, NMap.getD_set_ne s.regs w _ h]

/-! ## Agents -/

@[simp] theorem State.setAgent_regs (s : State) (a : AgentRef) (x : Agent) : (s.setAgent a x).regs = s.regs := rfl
@[simp] theorem State.setAgent_time (s : State) (a : AgentRef) (x : Agent) : (s.setAgent a x).time = s.time := rfl
@[simp] theorem State.setAgent_noc (s : State) (a : AgentRef) (x : Agent) : (s.setAgent a x).noc = s.noc := rfl
@[simp] theorem State.setAgent_sq (s : State) (a : AgentRef) (x : Agent) : (s.setAgent a x).sq = s.sq := rfl
@[simp] theorem State.setAgent_pwr (s : State) (a : AgentRef) (x : Agent) : (s.setAgent a x).pwr = s.pwr := rfl
@[simp] theorem State.setAgent_col (s : State) (a : AgentRef) (x : Agent) : (s.setAgent a x).col = s.col := rfl
@[simp] theorem State.setAgent_led (s : State) (a : AgentRef) (x : Agent) : (s.setAgent a x).led = s.led := rfl
@[simp] theorem State.setAgent_tri (s : State) (a : AgentRef) (x : Agent) : (s.setAgent a x).tri = s.tri := rfl
@[simp] theorem State.setAgent_dom (s : State) (a : AgentRef) (x : Agent) : (s.setAgent a x).dom = s.dom := rfl
@[simp] theorem State.setAgent_rte (s : State) (a : AgentRef) (x : Agent) : (s.setAgent a x).rte = s.rte := rfl
@[simp] theorem State.setAgent_sch (s : State) (a : AgentRef) (x : Agent) : (s.setAgent a x).sch = s.sch := rfl
@[simp] theorem State.setAgent_grp (s : State) (a : AgentRef) (x : Agent) : (s.setAgent a x).grp = s.grp := rfl
@[simp] theorem State.setAgent_plc (s : State) (a : AgentRef) (x : Agent) : (s.setAgent a x).plc = s.plc := rfl
@[simp] theorem State.setAgent_sec (s : State) (a : AgentRef) (x : Agent) : (s.setAgent a x).sec = s.sec := rfl
@[simp] theorem State.setAgent_engines (s : State) (a : AgentRef) (x : Agent) : (s.setAgent a x).engines = s.engines := rfl
@[simp] theorem State.setAgent_programs (s : State) (a : AgentRef) (x : Agent) : (s.setAgent a x).programs = s.programs := rfl
@[simp] theorem State.setAgent_queues (s : State) (a : AgentRef) (x : Agent) : (s.setAgent a x).queues = s.queues := rfl
@[simp] theorem State.setAgent_turn (s : State) (a : AgentRef) (x : Agent) : (s.setAgent a x).turn = s.turn := rfl
@[simp] theorem State.setAgent_sets (s : State) (a : AgentRef) (x : Agent) : (s.setAgent a x).sets = s.sets := rfl
@[simp] theorem State.setAgent_store (s : State) (a : AgentRef) (x : Agent) : (s.setAgent a x).store = s.store := rfl
@[simp] theorem State.setAgent_hbm (s : State) (a : AgentRef) (x : Agent) : (s.setAgent a x).hbm = s.hbm := rfl
@[simp] theorem State.setAgent_spill (s : State) (a : AgentRef) (x : Agent) : (s.setAgent a x).spill = s.spill := rfl
@[simp] theorem State.setAgent_ports (s : State) (a : AgentRef) (x : Agent) : (s.setAgent a x).ports = s.ports := rfl
@[simp] theorem State.setAgent_streams (s : State) (a : AgentRef) (x : Agent) : (s.setAgent a x).streams = s.streams := rfl
@[simp] theorem State.setAgent_hooks (s : State) (a : AgentRef) (x : Agent) : (s.setAgent a x).hooks = s.hooks := rfl
@[simp] theorem State.setAgent_lapses (s : State) (a : AgentRef) (x : Agent) : (s.setAgent a x).lapses = s.lapses := rfl
@[simp] theorem State.setAgent_out (s : State) (a : AgentRef) (x : Agent) : (s.setAgent a x).out = s.out := rfl
@[simp] theorem State.setAgent_fresh (s : State) (a : AgentRef) (x : Agent) : (s.setAgent a x).fresh = s.fresh := rfl
@[simp] theorem State.setAgent_pending (s : State) (a : AgentRef) (x : Agent) : (s.setAgent a x).pending = s.pending := rfl

@[simp] theorem State.updAgent_regs (s : State) (a : AgentRef) (f : Agent → Agent) : (s.updAgent a f).regs = s.regs := rfl
@[simp] theorem State.updAgent_time (s : State) (a : AgentRef) (f : Agent → Agent) : (s.updAgent a f).time = s.time := rfl
@[simp] theorem State.updAgent_noc (s : State) (a : AgentRef) (f : Agent → Agent) : (s.updAgent a f).noc = s.noc := rfl
@[simp] theorem State.updAgent_sq (s : State) (a : AgentRef) (f : Agent → Agent) : (s.updAgent a f).sq = s.sq := rfl
@[simp] theorem State.updAgent_pwr (s : State) (a : AgentRef) (f : Agent → Agent) : (s.updAgent a f).pwr = s.pwr := rfl
@[simp] theorem State.updAgent_col (s : State) (a : AgentRef) (f : Agent → Agent) : (s.updAgent a f).col = s.col := rfl
@[simp] theorem State.updAgent_led (s : State) (a : AgentRef) (f : Agent → Agent) : (s.updAgent a f).led = s.led := rfl
@[simp] theorem State.updAgent_tri (s : State) (a : AgentRef) (f : Agent → Agent) : (s.updAgent a f).tri = s.tri := rfl
@[simp] theorem State.updAgent_dom (s : State) (a : AgentRef) (f : Agent → Agent) : (s.updAgent a f).dom = s.dom := rfl
@[simp] theorem State.updAgent_rte (s : State) (a : AgentRef) (f : Agent → Agent) : (s.updAgent a f).rte = s.rte := rfl
@[simp] theorem State.updAgent_sch (s : State) (a : AgentRef) (f : Agent → Agent) : (s.updAgent a f).sch = s.sch := rfl
@[simp] theorem State.updAgent_grp (s : State) (a : AgentRef) (f : Agent → Agent) : (s.updAgent a f).grp = s.grp := rfl
@[simp] theorem State.updAgent_plc (s : State) (a : AgentRef) (f : Agent → Agent) : (s.updAgent a f).plc = s.plc := rfl
@[simp] theorem State.updAgent_sec (s : State) (a : AgentRef) (f : Agent → Agent) : (s.updAgent a f).sec = s.sec := rfl
@[simp] theorem State.updAgent_engines (s : State) (a : AgentRef) (f : Agent → Agent) : (s.updAgent a f).engines = s.engines := rfl
@[simp] theorem State.updAgent_programs (s : State) (a : AgentRef) (f : Agent → Agent) : (s.updAgent a f).programs = s.programs := rfl
@[simp] theorem State.updAgent_queues (s : State) (a : AgentRef) (f : Agent → Agent) : (s.updAgent a f).queues = s.queues := rfl
@[simp] theorem State.updAgent_turn (s : State) (a : AgentRef) (f : Agent → Agent) : (s.updAgent a f).turn = s.turn := rfl
@[simp] theorem State.updAgent_sets (s : State) (a : AgentRef) (f : Agent → Agent) : (s.updAgent a f).sets = s.sets := rfl
@[simp] theorem State.updAgent_store (s : State) (a : AgentRef) (f : Agent → Agent) : (s.updAgent a f).store = s.store := rfl
@[simp] theorem State.updAgent_hbm (s : State) (a : AgentRef) (f : Agent → Agent) : (s.updAgent a f).hbm = s.hbm := rfl
@[simp] theorem State.updAgent_spill (s : State) (a : AgentRef) (f : Agent → Agent) : (s.updAgent a f).spill = s.spill := rfl
@[simp] theorem State.updAgent_ports (s : State) (a : AgentRef) (f : Agent → Agent) : (s.updAgent a f).ports = s.ports := rfl
@[simp] theorem State.updAgent_streams (s : State) (a : AgentRef) (f : Agent → Agent) : (s.updAgent a f).streams = s.streams := rfl
@[simp] theorem State.updAgent_hooks (s : State) (a : AgentRef) (f : Agent → Agent) : (s.updAgent a f).hooks = s.hooks := rfl
@[simp] theorem State.updAgent_lapses (s : State) (a : AgentRef) (f : Agent → Agent) : (s.updAgent a f).lapses = s.lapses := rfl
@[simp] theorem State.updAgent_out (s : State) (a : AgentRef) (f : Agent → Agent) : (s.updAgent a f).out = s.out := rfl
@[simp] theorem State.updAgent_fresh (s : State) (a : AgentRef) (f : Agent → Agent) : (s.updAgent a f).fresh = s.fresh := rfl
@[simp] theorem State.updAgent_pending (s : State) (a : AgentRef) (f : Agent → Agent) : (s.updAgent a f).pending = s.pending := rfl

@[simp] theorem State.setJx_regs (s : State) (a : AgentRef) (off : Nat) (w : Word64) : (s.setJx a off w).regs = s.regs := rfl
@[simp] theorem State.setJx_time (s : State) (a : AgentRef) (off : Nat) (w : Word64) : (s.setJx a off w).time = s.time := rfl
@[simp] theorem State.setJx_noc (s : State) (a : AgentRef) (off : Nat) (w : Word64) : (s.setJx a off w).noc = s.noc := rfl
@[simp] theorem State.setJx_sq (s : State) (a : AgentRef) (off : Nat) (w : Word64) : (s.setJx a off w).sq = s.sq := rfl
@[simp] theorem State.setJx_pwr (s : State) (a : AgentRef) (off : Nat) (w : Word64) : (s.setJx a off w).pwr = s.pwr := rfl
@[simp] theorem State.setJx_col (s : State) (a : AgentRef) (off : Nat) (w : Word64) : (s.setJx a off w).col = s.col := rfl
@[simp] theorem State.setJx_led (s : State) (a : AgentRef) (off : Nat) (w : Word64) : (s.setJx a off w).led = s.led := rfl
@[simp] theorem State.setJx_tri (s : State) (a : AgentRef) (off : Nat) (w : Word64) : (s.setJx a off w).tri = s.tri := rfl
@[simp] theorem State.setJx_dom (s : State) (a : AgentRef) (off : Nat) (w : Word64) : (s.setJx a off w).dom = s.dom := rfl
@[simp] theorem State.setJx_rte (s : State) (a : AgentRef) (off : Nat) (w : Word64) : (s.setJx a off w).rte = s.rte := rfl
@[simp] theorem State.setJx_sch (s : State) (a : AgentRef) (off : Nat) (w : Word64) : (s.setJx a off w).sch = s.sch := rfl
@[simp] theorem State.setJx_grp (s : State) (a : AgentRef) (off : Nat) (w : Word64) : (s.setJx a off w).grp = s.grp := rfl
@[simp] theorem State.setJx_plc (s : State) (a : AgentRef) (off : Nat) (w : Word64) : (s.setJx a off w).plc = s.plc := rfl
@[simp] theorem State.setJx_sec (s : State) (a : AgentRef) (off : Nat) (w : Word64) : (s.setJx a off w).sec = s.sec := rfl
@[simp] theorem State.setJx_engines (s : State) (a : AgentRef) (off : Nat) (w : Word64) : (s.setJx a off w).engines = s.engines := rfl
@[simp] theorem State.setJx_programs (s : State) (a : AgentRef) (off : Nat) (w : Word64) : (s.setJx a off w).programs = s.programs := rfl
@[simp] theorem State.setJx_queues (s : State) (a : AgentRef) (off : Nat) (w : Word64) : (s.setJx a off w).queues = s.queues := rfl
@[simp] theorem State.setJx_turn (s : State) (a : AgentRef) (off : Nat) (w : Word64) : (s.setJx a off w).turn = s.turn := rfl
@[simp] theorem State.setJx_sets (s : State) (a : AgentRef) (off : Nat) (w : Word64) : (s.setJx a off w).sets = s.sets := rfl
@[simp] theorem State.setJx_store (s : State) (a : AgentRef) (off : Nat) (w : Word64) : (s.setJx a off w).store = s.store := rfl
@[simp] theorem State.setJx_hbm (s : State) (a : AgentRef) (off : Nat) (w : Word64) : (s.setJx a off w).hbm = s.hbm := rfl
@[simp] theorem State.setJx_spill (s : State) (a : AgentRef) (off : Nat) (w : Word64) : (s.setJx a off w).spill = s.spill := rfl
@[simp] theorem State.setJx_ports (s : State) (a : AgentRef) (off : Nat) (w : Word64) : (s.setJx a off w).ports = s.ports := rfl
@[simp] theorem State.setJx_streams (s : State) (a : AgentRef) (off : Nat) (w : Word64) : (s.setJx a off w).streams = s.streams := rfl
@[simp] theorem State.setJx_hooks (s : State) (a : AgentRef) (off : Nat) (w : Word64) : (s.setJx a off w).hooks = s.hooks := rfl
@[simp] theorem State.setJx_lapses (s : State) (a : AgentRef) (off : Nat) (w : Word64) : (s.setJx a off w).lapses = s.lapses := rfl
@[simp] theorem State.setJx_out (s : State) (a : AgentRef) (off : Nat) (w : Word64) : (s.setJx a off w).out = s.out := rfl
@[simp] theorem State.setJx_fresh (s : State) (a : AgentRef) (off : Nat) (w : Word64) : (s.setJx a off w).fresh = s.fresh := rfl
@[simp] theorem State.setJx_pending (s : State) (a : AgentRef) (off : Nat) (w : Word64) : (s.setJx a off w).pending = s.pending := rfl

@[simp] theorem State.setJfld_regs (s : State) (a : AgentRef) (f : Field) (v : Nat) : (s.setJfld a f v).regs = s.regs := rfl
@[simp] theorem State.setJfld_time (s : State) (a : AgentRef) (f : Field) (v : Nat) : (s.setJfld a f v).time = s.time := rfl
@[simp] theorem State.setJfld_noc (s : State) (a : AgentRef) (f : Field) (v : Nat) : (s.setJfld a f v).noc = s.noc := rfl
@[simp] theorem State.setJfld_sq (s : State) (a : AgentRef) (f : Field) (v : Nat) : (s.setJfld a f v).sq = s.sq := rfl
@[simp] theorem State.setJfld_pwr (s : State) (a : AgentRef) (f : Field) (v : Nat) : (s.setJfld a f v).pwr = s.pwr := rfl
@[simp] theorem State.setJfld_col (s : State) (a : AgentRef) (f : Field) (v : Nat) : (s.setJfld a f v).col = s.col := rfl
@[simp] theorem State.setJfld_led (s : State) (a : AgentRef) (f : Field) (v : Nat) : (s.setJfld a f v).led = s.led := rfl
@[simp] theorem State.setJfld_tri (s : State) (a : AgentRef) (f : Field) (v : Nat) : (s.setJfld a f v).tri = s.tri := rfl
@[simp] theorem State.setJfld_dom (s : State) (a : AgentRef) (f : Field) (v : Nat) : (s.setJfld a f v).dom = s.dom := rfl
@[simp] theorem State.setJfld_rte (s : State) (a : AgentRef) (f : Field) (v : Nat) : (s.setJfld a f v).rte = s.rte := rfl
@[simp] theorem State.setJfld_sch (s : State) (a : AgentRef) (f : Field) (v : Nat) : (s.setJfld a f v).sch = s.sch := rfl
@[simp] theorem State.setJfld_grp (s : State) (a : AgentRef) (f : Field) (v : Nat) : (s.setJfld a f v).grp = s.grp := rfl
@[simp] theorem State.setJfld_plc (s : State) (a : AgentRef) (f : Field) (v : Nat) : (s.setJfld a f v).plc = s.plc := rfl
@[simp] theorem State.setJfld_sec (s : State) (a : AgentRef) (f : Field) (v : Nat) : (s.setJfld a f v).sec = s.sec := rfl
@[simp] theorem State.setJfld_engines (s : State) (a : AgentRef) (f : Field) (v : Nat) : (s.setJfld a f v).engines = s.engines := rfl
@[simp] theorem State.setJfld_programs (s : State) (a : AgentRef) (f : Field) (v : Nat) : (s.setJfld a f v).programs = s.programs := rfl
@[simp] theorem State.setJfld_queues (s : State) (a : AgentRef) (f : Field) (v : Nat) : (s.setJfld a f v).queues = s.queues := rfl
@[simp] theorem State.setJfld_turn (s : State) (a : AgentRef) (f : Field) (v : Nat) : (s.setJfld a f v).turn = s.turn := rfl
@[simp] theorem State.setJfld_sets (s : State) (a : AgentRef) (f : Field) (v : Nat) : (s.setJfld a f v).sets = s.sets := rfl
@[simp] theorem State.setJfld_store (s : State) (a : AgentRef) (f : Field) (v : Nat) : (s.setJfld a f v).store = s.store := rfl
@[simp] theorem State.setJfld_hbm (s : State) (a : AgentRef) (f : Field) (v : Nat) : (s.setJfld a f v).hbm = s.hbm := rfl
@[simp] theorem State.setJfld_spill (s : State) (a : AgentRef) (f : Field) (v : Nat) : (s.setJfld a f v).spill = s.spill := rfl
@[simp] theorem State.setJfld_ports (s : State) (a : AgentRef) (f : Field) (v : Nat) : (s.setJfld a f v).ports = s.ports := rfl
@[simp] theorem State.setJfld_streams (s : State) (a : AgentRef) (f : Field) (v : Nat) : (s.setJfld a f v).streams = s.streams := rfl
@[simp] theorem State.setJfld_hooks (s : State) (a : AgentRef) (f : Field) (v : Nat) : (s.setJfld a f v).hooks = s.hooks := rfl
@[simp] theorem State.setJfld_lapses (s : State) (a : AgentRef) (f : Field) (v : Nat) : (s.setJfld a f v).lapses = s.lapses := rfl
@[simp] theorem State.setJfld_out (s : State) (a : AgentRef) (f : Field) (v : Nat) : (s.setJfld a f v).out = s.out := rfl
@[simp] theorem State.setJfld_fresh (s : State) (a : AgentRef) (f : Field) (v : Nat) : (s.setJfld a f v).fresh = s.fresh := rfl
@[simp] theorem State.setJfld_pending (s : State) (a : AgentRef) (f : Field) (v : Nat) : (s.setJfld a f v).pending = s.pending := rfl

@[simp] theorem State.satJfld_regs (s : State) (a : AgentRef) (f : Field) (n : Nat) : (s.satJfld a f n).regs = s.regs := rfl
@[simp] theorem State.satJfld_time (s : State) (a : AgentRef) (f : Field) (n : Nat) : (s.satJfld a f n).time = s.time := rfl
@[simp] theorem State.satJfld_noc (s : State) (a : AgentRef) (f : Field) (n : Nat) : (s.satJfld a f n).noc = s.noc := rfl
@[simp] theorem State.satJfld_sq (s : State) (a : AgentRef) (f : Field) (n : Nat) : (s.satJfld a f n).sq = s.sq := rfl
@[simp] theorem State.satJfld_pwr (s : State) (a : AgentRef) (f : Field) (n : Nat) : (s.satJfld a f n).pwr = s.pwr := rfl
@[simp] theorem State.satJfld_col (s : State) (a : AgentRef) (f : Field) (n : Nat) : (s.satJfld a f n).col = s.col := rfl
@[simp] theorem State.satJfld_led (s : State) (a : AgentRef) (f : Field) (n : Nat) : (s.satJfld a f n).led = s.led := rfl
@[simp] theorem State.satJfld_tri (s : State) (a : AgentRef) (f : Field) (n : Nat) : (s.satJfld a f n).tri = s.tri := rfl
@[simp] theorem State.satJfld_dom (s : State) (a : AgentRef) (f : Field) (n : Nat) : (s.satJfld a f n).dom = s.dom := rfl
@[simp] theorem State.satJfld_rte (s : State) (a : AgentRef) (f : Field) (n : Nat) : (s.satJfld a f n).rte = s.rte := rfl
@[simp] theorem State.satJfld_sch (s : State) (a : AgentRef) (f : Field) (n : Nat) : (s.satJfld a f n).sch = s.sch := rfl
@[simp] theorem State.satJfld_grp (s : State) (a : AgentRef) (f : Field) (n : Nat) : (s.satJfld a f n).grp = s.grp := rfl
@[simp] theorem State.satJfld_plc (s : State) (a : AgentRef) (f : Field) (n : Nat) : (s.satJfld a f n).plc = s.plc := rfl
@[simp] theorem State.satJfld_sec (s : State) (a : AgentRef) (f : Field) (n : Nat) : (s.satJfld a f n).sec = s.sec := rfl
@[simp] theorem State.satJfld_engines (s : State) (a : AgentRef) (f : Field) (n : Nat) : (s.satJfld a f n).engines = s.engines := rfl
@[simp] theorem State.satJfld_programs (s : State) (a : AgentRef) (f : Field) (n : Nat) : (s.satJfld a f n).programs = s.programs := rfl
@[simp] theorem State.satJfld_queues (s : State) (a : AgentRef) (f : Field) (n : Nat) : (s.satJfld a f n).queues = s.queues := rfl
@[simp] theorem State.satJfld_turn (s : State) (a : AgentRef) (f : Field) (n : Nat) : (s.satJfld a f n).turn = s.turn := rfl
@[simp] theorem State.satJfld_sets (s : State) (a : AgentRef) (f : Field) (n : Nat) : (s.satJfld a f n).sets = s.sets := rfl
@[simp] theorem State.satJfld_store (s : State) (a : AgentRef) (f : Field) (n : Nat) : (s.satJfld a f n).store = s.store := rfl
@[simp] theorem State.satJfld_hbm (s : State) (a : AgentRef) (f : Field) (n : Nat) : (s.satJfld a f n).hbm = s.hbm := rfl
@[simp] theorem State.satJfld_spill (s : State) (a : AgentRef) (f : Field) (n : Nat) : (s.satJfld a f n).spill = s.spill := rfl
@[simp] theorem State.satJfld_ports (s : State) (a : AgentRef) (f : Field) (n : Nat) : (s.satJfld a f n).ports = s.ports := rfl
@[simp] theorem State.satJfld_streams (s : State) (a : AgentRef) (f : Field) (n : Nat) : (s.satJfld a f n).streams = s.streams := rfl
@[simp] theorem State.satJfld_hooks (s : State) (a : AgentRef) (f : Field) (n : Nat) : (s.satJfld a f n).hooks = s.hooks := rfl
@[simp] theorem State.satJfld_lapses (s : State) (a : AgentRef) (f : Field) (n : Nat) : (s.satJfld a f n).lapses = s.lapses := rfl
@[simp] theorem State.satJfld_out (s : State) (a : AgentRef) (f : Field) (n : Nat) : (s.satJfld a f n).out = s.out := rfl
@[simp] theorem State.satJfld_fresh (s : State) (a : AgentRef) (f : Field) (n : Nat) : (s.satJfld a f n).fresh = s.fresh := rfl
@[simp] theorem State.satJfld_pending (s : State) (a : AgentRef) (f : Field) (n : Nat) : (s.satJfld a f n).pending = s.pending := rfl

theorem agentKey_inj {a b : AgentRef} (h : agentKey a = agentKey b) : a = b := by
  obtain ⟨va, na⟩ := a
  obtain ⟨vb, nb⟩ := b
  cases va <;> cases vb <;> simp [agentKey] at h ⊢ <;> omega

@[simp] theorem State.agent_setAgent_self (s : State) (a : AgentRef) (x : Agent) : (s.setAgent a x).agent a = x := by
  simp [State.agent, State.setAgent]

theorem State.agent_setAgent_ne (s : State) {a b : AgentRef} (x : Agent) (h : b ≠ a) : (s.setAgent a x).agent b = s.agent b := by
  have hk : agentKey b ≠ agentKey a := fun e => h (agentKey_inj e)
  simp [State.agent, State.setAgent, NMap.getD_set_ne s.agents x _ hk]

@[simp] theorem State.agent_updAgent_self (s : State) (a : AgentRef) (f : Agent → Agent) :
    (s.updAgent a f).agent a = f (s.agent a) := by
  simp [State.updAgent]

theorem State.agent_updAgent_ne (s : State) {a b : AgentRef} (f : Agent → Agent) (h : b ≠ a) :
    (s.updAgent a f).agent b = s.agent b := by
  simp [State.updAgent, State.agent_setAgent_ne s _ h]

@[simp] theorem State.setAgent_setAgent (s : State) (a : AgentRef) (x y : Agent) : (s.setAgent a x).setAgent a y = s.setAgent a y := by
  simp [State.setAgent]

@[simp] theorem State.jx_setJx_self (s : State) (a : AgentRef) (off : Nat) (w : Word64) : (s.setJx a off w).jx a off = w := by
  simp [State.jx, State.setJx]

theorem State.jx_setJx_ne (s : State) (a : AgentRef) {off off' : Nat} (w : Word64) (h : off' ≠ off) :
    (s.setJx a off w).jx a off' = s.jx a off' := by
  simp [State.jx, State.setJx, NMap.getD_set_ne _ w _ h]

/-! ## Engines -/

@[simp] theorem State.setEngine_regs (s : State) (e : Nat) (x : Engine) : (s.setEngine e x).regs = s.regs := rfl
@[simp] theorem State.setEngine_time (s : State) (e : Nat) (x : Engine) : (s.setEngine e x).time = s.time := rfl
@[simp] theorem State.setEngine_noc (s : State) (e : Nat) (x : Engine) : (s.setEngine e x).noc = s.noc := rfl
@[simp] theorem State.setEngine_sq (s : State) (e : Nat) (x : Engine) : (s.setEngine e x).sq = s.sq := rfl
@[simp] theorem State.setEngine_pwr (s : State) (e : Nat) (x : Engine) : (s.setEngine e x).pwr = s.pwr := rfl
@[simp] theorem State.setEngine_col (s : State) (e : Nat) (x : Engine) : (s.setEngine e x).col = s.col := rfl
@[simp] theorem State.setEngine_led (s : State) (e : Nat) (x : Engine) : (s.setEngine e x).led = s.led := rfl
@[simp] theorem State.setEngine_tri (s : State) (e : Nat) (x : Engine) : (s.setEngine e x).tri = s.tri := rfl
@[simp] theorem State.setEngine_dom (s : State) (e : Nat) (x : Engine) : (s.setEngine e x).dom = s.dom := rfl
@[simp] theorem State.setEngine_rte (s : State) (e : Nat) (x : Engine) : (s.setEngine e x).rte = s.rte := rfl
@[simp] theorem State.setEngine_sch (s : State) (e : Nat) (x : Engine) : (s.setEngine e x).sch = s.sch := rfl
@[simp] theorem State.setEngine_grp (s : State) (e : Nat) (x : Engine) : (s.setEngine e x).grp = s.grp := rfl
@[simp] theorem State.setEngine_plc (s : State) (e : Nat) (x : Engine) : (s.setEngine e x).plc = s.plc := rfl
@[simp] theorem State.setEngine_sec (s : State) (e : Nat) (x : Engine) : (s.setEngine e x).sec = s.sec := rfl
@[simp] theorem State.setEngine_programs (s : State) (e : Nat) (x : Engine) : (s.setEngine e x).programs = s.programs := rfl
@[simp] theorem State.setEngine_queues (s : State) (e : Nat) (x : Engine) : (s.setEngine e x).queues = s.queues := rfl
@[simp] theorem State.setEngine_turn (s : State) (e : Nat) (x : Engine) : (s.setEngine e x).turn = s.turn := rfl
@[simp] theorem State.setEngine_sets (s : State) (e : Nat) (x : Engine) : (s.setEngine e x).sets = s.sets := rfl
@[simp] theorem State.setEngine_store (s : State) (e : Nat) (x : Engine) : (s.setEngine e x).store = s.store := rfl
@[simp] theorem State.setEngine_hbm (s : State) (e : Nat) (x : Engine) : (s.setEngine e x).hbm = s.hbm := rfl
@[simp] theorem State.setEngine_spill (s : State) (e : Nat) (x : Engine) : (s.setEngine e x).spill = s.spill := rfl
@[simp] theorem State.setEngine_ports (s : State) (e : Nat) (x : Engine) : (s.setEngine e x).ports = s.ports := rfl
@[simp] theorem State.setEngine_streams (s : State) (e : Nat) (x : Engine) : (s.setEngine e x).streams = s.streams := rfl
@[simp] theorem State.setEngine_hooks (s : State) (e : Nat) (x : Engine) : (s.setEngine e x).hooks = s.hooks := rfl
@[simp] theorem State.setEngine_agents (s : State) (e : Nat) (x : Engine) : (s.setEngine e x).agents = s.agents := rfl
@[simp] theorem State.setEngine_lapses (s : State) (e : Nat) (x : Engine) : (s.setEngine e x).lapses = s.lapses := rfl
@[simp] theorem State.setEngine_out (s : State) (e : Nat) (x : Engine) : (s.setEngine e x).out = s.out := rfl
@[simp] theorem State.setEngine_fresh (s : State) (e : Nat) (x : Engine) : (s.setEngine e x).fresh = s.fresh := rfl
@[simp] theorem State.setEngine_pending (s : State) (e : Nat) (x : Engine) : (s.setEngine e x).pending = s.pending := rfl

@[simp] theorem State.engine_setEngine_self (s : State) (e : Nat) (x : Engine) : (s.setEngine e x).engine e = x := by
  simp [State.engine, State.setEngine]

theorem State.engine_setEngine_ne (s : State) {e i : Nat} (x : Engine) (h : i ≠ e) : (s.setEngine e x).engine i = s.engine i := by
  simp [State.engine, State.setEngine, NMap.getD_set_ne s.engines x _ h]

@[simp] theorem State.setEngine_setEngine (s : State) (e : Nat) (x y : Engine) : (s.setEngine e x).setEngine e y = s.setEngine e y := by
  simp [State.setEngine]

/-! ## The voter gates -/

@[simp] theorem State.leaveGate_regs (s : State) (e : Nat) : (s.leaveGate e).regs = s.regs := by unfold State.leaveGate; split <;> rfl
@[simp] theorem State.leaveGate_time (s : State) (e : Nat) : (s.leaveGate e).time = s.time := by unfold State.leaveGate; split <;> rfl
@[simp] theorem State.leaveGate_noc (s : State) (e : Nat) : (s.leaveGate e).noc = s.noc := by unfold State.leaveGate; split <;> rfl
@[simp] theorem State.leaveGate_sq (s : State) (e : Nat) : (s.leaveGate e).sq = s.sq := by unfold State.leaveGate; split <;> rfl
@[simp] theorem State.leaveGate_pwr (s : State) (e : Nat) : (s.leaveGate e).pwr = s.pwr := by unfold State.leaveGate; split <;> rfl
@[simp] theorem State.leaveGate_col (s : State) (e : Nat) : (s.leaveGate e).col = s.col := by unfold State.leaveGate; split <;> rfl
@[simp] theorem State.leaveGate_led (s : State) (e : Nat) : (s.leaveGate e).led = s.led := by unfold State.leaveGate; split <;> rfl
@[simp] theorem State.leaveGate_dom (s : State) (e : Nat) : (s.leaveGate e).dom = s.dom := by unfold State.leaveGate; split <;> rfl
@[simp] theorem State.leaveGate_rte (s : State) (e : Nat) : (s.leaveGate e).rte = s.rte := by unfold State.leaveGate; split <;> rfl
@[simp] theorem State.leaveGate_sch (s : State) (e : Nat) : (s.leaveGate e).sch = s.sch := by unfold State.leaveGate; split <;> rfl
@[simp] theorem State.leaveGate_grp (s : State) (e : Nat) : (s.leaveGate e).grp = s.grp := by unfold State.leaveGate; split <;> rfl
@[simp] theorem State.leaveGate_plc (s : State) (e : Nat) : (s.leaveGate e).plc = s.plc := by unfold State.leaveGate; split <;> rfl
@[simp] theorem State.leaveGate_sec (s : State) (e : Nat) : (s.leaveGate e).sec = s.sec := by unfold State.leaveGate; split <;> rfl
@[simp] theorem State.leaveGate_engines (s : State) (e : Nat) : (s.leaveGate e).engines = s.engines := by unfold State.leaveGate; split <;> rfl
@[simp] theorem State.leaveGate_programs (s : State) (e : Nat) : (s.leaveGate e).programs = s.programs := by unfold State.leaveGate; split <;> rfl
@[simp] theorem State.leaveGate_queues (s : State) (e : Nat) : (s.leaveGate e).queues = s.queues := by unfold State.leaveGate; split <;> rfl
@[simp] theorem State.leaveGate_turn (s : State) (e : Nat) : (s.leaveGate e).turn = s.turn := by unfold State.leaveGate; split <;> rfl
@[simp] theorem State.leaveGate_sets (s : State) (e : Nat) : (s.leaveGate e).sets = s.sets := by unfold State.leaveGate; split <;> rfl
@[simp] theorem State.leaveGate_store (s : State) (e : Nat) : (s.leaveGate e).store = s.store := by unfold State.leaveGate; split <;> rfl
@[simp] theorem State.leaveGate_hbm (s : State) (e : Nat) : (s.leaveGate e).hbm = s.hbm := by unfold State.leaveGate; split <;> rfl
@[simp] theorem State.leaveGate_spill (s : State) (e : Nat) : (s.leaveGate e).spill = s.spill := by unfold State.leaveGate; split <;> rfl
@[simp] theorem State.leaveGate_ports (s : State) (e : Nat) : (s.leaveGate e).ports = s.ports := by unfold State.leaveGate; split <;> rfl
@[simp] theorem State.leaveGate_streams (s : State) (e : Nat) : (s.leaveGate e).streams = s.streams := by unfold State.leaveGate; split <;> rfl
@[simp] theorem State.leaveGate_hooks (s : State) (e : Nat) : (s.leaveGate e).hooks = s.hooks := by unfold State.leaveGate; split <;> rfl
@[simp] theorem State.leaveGate_agents (s : State) (e : Nat) : (s.leaveGate e).agents = s.agents := by unfold State.leaveGate; split <;> rfl
@[simp] theorem State.leaveGate_lapses (s : State) (e : Nat) : (s.leaveGate e).lapses = s.lapses := by unfold State.leaveGate; split <;> rfl
@[simp] theorem State.leaveGate_out (s : State) (e : Nat) : (s.leaveGate e).out = s.out := by unfold State.leaveGate; split <;> rfl
@[simp] theorem State.leaveGate_fresh (s : State) (e : Nat) : (s.leaveGate e).fresh = s.fresh := by unfold State.leaveGate; split <;> rfl
@[simp] theorem State.leaveGate_pending (s : State) (e : Nat) : (s.leaveGate e).pending = s.pending := by unfold State.leaveGate; split <;> rfl

@[simp] theorem State.waitAtGate_regs (s : State) (e : Nat) : (s.waitAtGate e).regs = s.regs := by unfold State.waitAtGate; split <;> rfl
@[simp] theorem State.waitAtGate_time (s : State) (e : Nat) : (s.waitAtGate e).time = s.time := by unfold State.waitAtGate; split <;> rfl
@[simp] theorem State.waitAtGate_noc (s : State) (e : Nat) : (s.waitAtGate e).noc = s.noc := by unfold State.waitAtGate; split <;> rfl
@[simp] theorem State.waitAtGate_sq (s : State) (e : Nat) : (s.waitAtGate e).sq = s.sq := by unfold State.waitAtGate; split <;> rfl
@[simp] theorem State.waitAtGate_pwr (s : State) (e : Nat) : (s.waitAtGate e).pwr = s.pwr := by unfold State.waitAtGate; split <;> rfl
@[simp] theorem State.waitAtGate_col (s : State) (e : Nat) : (s.waitAtGate e).col = s.col := by unfold State.waitAtGate; split <;> rfl
@[simp] theorem State.waitAtGate_led (s : State) (e : Nat) : (s.waitAtGate e).led = s.led := by unfold State.waitAtGate; split <;> rfl
@[simp] theorem State.waitAtGate_dom (s : State) (e : Nat) : (s.waitAtGate e).dom = s.dom := by unfold State.waitAtGate; split <;> rfl
@[simp] theorem State.waitAtGate_rte (s : State) (e : Nat) : (s.waitAtGate e).rte = s.rte := by unfold State.waitAtGate; split <;> rfl
@[simp] theorem State.waitAtGate_sch (s : State) (e : Nat) : (s.waitAtGate e).sch = s.sch := by unfold State.waitAtGate; split <;> rfl
@[simp] theorem State.waitAtGate_grp (s : State) (e : Nat) : (s.waitAtGate e).grp = s.grp := by unfold State.waitAtGate; split <;> rfl
@[simp] theorem State.waitAtGate_plc (s : State) (e : Nat) : (s.waitAtGate e).plc = s.plc := by unfold State.waitAtGate; split <;> rfl
@[simp] theorem State.waitAtGate_sec (s : State) (e : Nat) : (s.waitAtGate e).sec = s.sec := by unfold State.waitAtGate; split <;> rfl
@[simp] theorem State.waitAtGate_engines (s : State) (e : Nat) : (s.waitAtGate e).engines = s.engines := by unfold State.waitAtGate; split <;> rfl
@[simp] theorem State.waitAtGate_programs (s : State) (e : Nat) : (s.waitAtGate e).programs = s.programs := by unfold State.waitAtGate; split <;> rfl
@[simp] theorem State.waitAtGate_queues (s : State) (e : Nat) : (s.waitAtGate e).queues = s.queues := by unfold State.waitAtGate; split <;> rfl
@[simp] theorem State.waitAtGate_turn (s : State) (e : Nat) : (s.waitAtGate e).turn = s.turn := by unfold State.waitAtGate; split <;> rfl
@[simp] theorem State.waitAtGate_sets (s : State) (e : Nat) : (s.waitAtGate e).sets = s.sets := by unfold State.waitAtGate; split <;> rfl
@[simp] theorem State.waitAtGate_store (s : State) (e : Nat) : (s.waitAtGate e).store = s.store := by unfold State.waitAtGate; split <;> rfl
@[simp] theorem State.waitAtGate_hbm (s : State) (e : Nat) : (s.waitAtGate e).hbm = s.hbm := by unfold State.waitAtGate; split <;> rfl
@[simp] theorem State.waitAtGate_spill (s : State) (e : Nat) : (s.waitAtGate e).spill = s.spill := by unfold State.waitAtGate; split <;> rfl
@[simp] theorem State.waitAtGate_ports (s : State) (e : Nat) : (s.waitAtGate e).ports = s.ports := by unfold State.waitAtGate; split <;> rfl
@[simp] theorem State.waitAtGate_streams (s : State) (e : Nat) : (s.waitAtGate e).streams = s.streams := by unfold State.waitAtGate; split <;> rfl
@[simp] theorem State.waitAtGate_hooks (s : State) (e : Nat) : (s.waitAtGate e).hooks = s.hooks := by unfold State.waitAtGate; split <;> rfl
@[simp] theorem State.waitAtGate_agents (s : State) (e : Nat) : (s.waitAtGate e).agents = s.agents := by unfold State.waitAtGate; split <;> rfl
@[simp] theorem State.waitAtGate_lapses (s : State) (e : Nat) : (s.waitAtGate e).lapses = s.lapses := by unfold State.waitAtGate; split <;> rfl
@[simp] theorem State.waitAtGate_out (s : State) (e : Nat) : (s.waitAtGate e).out = s.out := by unfold State.waitAtGate; split <;> rfl
@[simp] theorem State.waitAtGate_fresh (s : State) (e : Nat) : (s.waitAtGate e).fresh = s.fresh := by unfold State.waitAtGate; split <;> rfl
@[simp] theorem State.waitAtGate_pending (s : State) (e : Nat) : (s.waitAtGate e).pending = s.pending := by unfold State.waitAtGate; split <;> rfl

/-! ## Queues -/

@[simp] theorem State.setQueue_regs (s : State) (n : Nat) (x : QueueSt) : (s.setQueue n x).regs = s.regs := rfl
@[simp] theorem State.setQueue_time (s : State) (n : Nat) (x : QueueSt) : (s.setQueue n x).time = s.time := rfl
@[simp] theorem State.setQueue_noc (s : State) (n : Nat) (x : QueueSt) : (s.setQueue n x).noc = s.noc := rfl
@[simp] theorem State.setQueue_sq (s : State) (n : Nat) (x : QueueSt) : (s.setQueue n x).sq = s.sq := rfl
@[simp] theorem State.setQueue_pwr (s : State) (n : Nat) (x : QueueSt) : (s.setQueue n x).pwr = s.pwr := rfl
@[simp] theorem State.setQueue_col (s : State) (n : Nat) (x : QueueSt) : (s.setQueue n x).col = s.col := rfl
@[simp] theorem State.setQueue_led (s : State) (n : Nat) (x : QueueSt) : (s.setQueue n x).led = s.led := rfl
@[simp] theorem State.setQueue_tri (s : State) (n : Nat) (x : QueueSt) : (s.setQueue n x).tri = s.tri := rfl
@[simp] theorem State.setQueue_dom (s : State) (n : Nat) (x : QueueSt) : (s.setQueue n x).dom = s.dom := rfl
@[simp] theorem State.setQueue_rte (s : State) (n : Nat) (x : QueueSt) : (s.setQueue n x).rte = s.rte := rfl
@[simp] theorem State.setQueue_sch (s : State) (n : Nat) (x : QueueSt) : (s.setQueue n x).sch = s.sch := rfl
@[simp] theorem State.setQueue_grp (s : State) (n : Nat) (x : QueueSt) : (s.setQueue n x).grp = s.grp := rfl
@[simp] theorem State.setQueue_plc (s : State) (n : Nat) (x : QueueSt) : (s.setQueue n x).plc = s.plc := rfl
@[simp] theorem State.setQueue_sec (s : State) (n : Nat) (x : QueueSt) : (s.setQueue n x).sec = s.sec := rfl
@[simp] theorem State.setQueue_engines (s : State) (n : Nat) (x : QueueSt) : (s.setQueue n x).engines = s.engines := rfl
@[simp] theorem State.setQueue_programs (s : State) (n : Nat) (x : QueueSt) : (s.setQueue n x).programs = s.programs := rfl
@[simp] theorem State.setQueue_turn (s : State) (n : Nat) (x : QueueSt) : (s.setQueue n x).turn = s.turn := rfl
@[simp] theorem State.setQueue_sets (s : State) (n : Nat) (x : QueueSt) : (s.setQueue n x).sets = s.sets := rfl
@[simp] theorem State.setQueue_store (s : State) (n : Nat) (x : QueueSt) : (s.setQueue n x).store = s.store := rfl
@[simp] theorem State.setQueue_hbm (s : State) (n : Nat) (x : QueueSt) : (s.setQueue n x).hbm = s.hbm := rfl
@[simp] theorem State.setQueue_spill (s : State) (n : Nat) (x : QueueSt) : (s.setQueue n x).spill = s.spill := rfl
@[simp] theorem State.setQueue_ports (s : State) (n : Nat) (x : QueueSt) : (s.setQueue n x).ports = s.ports := rfl
@[simp] theorem State.setQueue_streams (s : State) (n : Nat) (x : QueueSt) : (s.setQueue n x).streams = s.streams := rfl
@[simp] theorem State.setQueue_hooks (s : State) (n : Nat) (x : QueueSt) : (s.setQueue n x).hooks = s.hooks := rfl
@[simp] theorem State.setQueue_agents (s : State) (n : Nat) (x : QueueSt) : (s.setQueue n x).agents = s.agents := rfl
@[simp] theorem State.setQueue_lapses (s : State) (n : Nat) (x : QueueSt) : (s.setQueue n x).lapses = s.lapses := rfl
@[simp] theorem State.setQueue_out (s : State) (n : Nat) (x : QueueSt) : (s.setQueue n x).out = s.out := rfl
@[simp] theorem State.setQueue_fresh (s : State) (n : Nat) (x : QueueSt) : (s.setQueue n x).fresh = s.fresh := rfl
@[simp] theorem State.setQueue_pending (s : State) (n : Nat) (x : QueueSt) : (s.setQueue n x).pending = s.pending := rfl

@[simp] theorem State.setCq_time (s : State) (n : Nat) (f : Field) (v : Nat) : (s.setCq n f v).time = s.time := rfl
@[simp] theorem State.setCq_noc (s : State) (n : Nat) (f : Field) (v : Nat) : (s.setCq n f v).noc = s.noc := rfl
@[simp] theorem State.setCq_sq (s : State) (n : Nat) (f : Field) (v : Nat) : (s.setCq n f v).sq = s.sq := rfl
@[simp] theorem State.setCq_pwr (s : State) (n : Nat) (f : Field) (v : Nat) : (s.setCq n f v).pwr = s.pwr := rfl
@[simp] theorem State.setCq_col (s : State) (n : Nat) (f : Field) (v : Nat) : (s.setCq n f v).col = s.col := rfl
@[simp] theorem State.setCq_led (s : State) (n : Nat) (f : Field) (v : Nat) : (s.setCq n f v).led = s.led := rfl
@[simp] theorem State.setCq_tri (s : State) (n : Nat) (f : Field) (v : Nat) : (s.setCq n f v).tri = s.tri := rfl
@[simp] theorem State.setCq_dom (s : State) (n : Nat) (f : Field) (v : Nat) : (s.setCq n f v).dom = s.dom := rfl
@[simp] theorem State.setCq_rte (s : State) (n : Nat) (f : Field) (v : Nat) : (s.setCq n f v).rte = s.rte := rfl
@[simp] theorem State.setCq_sch (s : State) (n : Nat) (f : Field) (v : Nat) : (s.setCq n f v).sch = s.sch := rfl
@[simp] theorem State.setCq_grp (s : State) (n : Nat) (f : Field) (v : Nat) : (s.setCq n f v).grp = s.grp := rfl
@[simp] theorem State.setCq_plc (s : State) (n : Nat) (f : Field) (v : Nat) : (s.setCq n f v).plc = s.plc := rfl
@[simp] theorem State.setCq_sec (s : State) (n : Nat) (f : Field) (v : Nat) : (s.setCq n f v).sec = s.sec := rfl
@[simp] theorem State.setCq_engines (s : State) (n : Nat) (f : Field) (v : Nat) : (s.setCq n f v).engines = s.engines := rfl
@[simp] theorem State.setCq_programs (s : State) (n : Nat) (f : Field) (v : Nat) : (s.setCq n f v).programs = s.programs := rfl
@[simp] theorem State.setCq_queues (s : State) (n : Nat) (f : Field) (v : Nat) : (s.setCq n f v).queues = s.queues := rfl
@[simp] theorem State.setCq_turn (s : State) (n : Nat) (f : Field) (v : Nat) : (s.setCq n f v).turn = s.turn := rfl
@[simp] theorem State.setCq_sets (s : State) (n : Nat) (f : Field) (v : Nat) : (s.setCq n f v).sets = s.sets := rfl
@[simp] theorem State.setCq_store (s : State) (n : Nat) (f : Field) (v : Nat) : (s.setCq n f v).store = s.store := rfl
@[simp] theorem State.setCq_hbm (s : State) (n : Nat) (f : Field) (v : Nat) : (s.setCq n f v).hbm = s.hbm := rfl
@[simp] theorem State.setCq_spill (s : State) (n : Nat) (f : Field) (v : Nat) : (s.setCq n f v).spill = s.spill := rfl
@[simp] theorem State.setCq_ports (s : State) (n : Nat) (f : Field) (v : Nat) : (s.setCq n f v).ports = s.ports := rfl
@[simp] theorem State.setCq_streams (s : State) (n : Nat) (f : Field) (v : Nat) : (s.setCq n f v).streams = s.streams := rfl
@[simp] theorem State.setCq_hooks (s : State) (n : Nat) (f : Field) (v : Nat) : (s.setCq n f v).hooks = s.hooks := rfl
@[simp] theorem State.setCq_agents (s : State) (n : Nat) (f : Field) (v : Nat) : (s.setCq n f v).agents = s.agents := rfl
@[simp] theorem State.setCq_lapses (s : State) (n : Nat) (f : Field) (v : Nat) : (s.setCq n f v).lapses = s.lapses := rfl
@[simp] theorem State.setCq_out (s : State) (n : Nat) (f : Field) (v : Nat) : (s.setCq n f v).out = s.out := rfl
@[simp] theorem State.setCq_fresh (s : State) (n : Nat) (f : Field) (v : Nat) : (s.setCq n f v).fresh = s.fresh := rfl
@[simp] theorem State.setCq_pending (s : State) (n : Nat) (f : Field) (v : Nat) : (s.setCq n f v).pending = s.pending := rfl

@[simp] theorem State.queue_setQueue_self (s : State) (n : Nat) (x : QueueSt) : (s.setQueue n x).queue n = x := by
  simp [State.queue, State.setQueue]

theorem State.queue_setQueue_ne (s : State) {n i : Nat} (x : QueueSt) (h : i ≠ n) : (s.setQueue n x).queue i = s.queue i := by
  simp [State.queue, State.setQueue, NMap.getD_set_ne s.queues x _ h]

/-! ## Ports and streams -/

@[simp] theorem State.setPort_regs (s : State) (n : Node) (p : Nat) (x : PortSt) : (s.setPort n p x).regs = s.regs := by cases n <;> rfl
@[simp] theorem State.setPort_time (s : State) (n : Node) (p : Nat) (x : PortSt) : (s.setPort n p x).time = s.time := by cases n <;> rfl
@[simp] theorem State.setPort_noc (s : State) (n : Node) (p : Nat) (x : PortSt) : (s.setPort n p x).noc = s.noc := by cases n <;> rfl
@[simp] theorem State.setPort_sq (s : State) (n : Node) (p : Nat) (x : PortSt) : (s.setPort n p x).sq = s.sq := by cases n <;> rfl
@[simp] theorem State.setPort_pwr (s : State) (n : Node) (p : Nat) (x : PortSt) : (s.setPort n p x).pwr = s.pwr := by cases n <;> rfl
@[simp] theorem State.setPort_col (s : State) (n : Node) (p : Nat) (x : PortSt) : (s.setPort n p x).col = s.col := by cases n <;> rfl
@[simp] theorem State.setPort_led (s : State) (n : Node) (p : Nat) (x : PortSt) : (s.setPort n p x).led = s.led := by cases n <;> rfl
@[simp] theorem State.setPort_tri (s : State) (n : Node) (p : Nat) (x : PortSt) : (s.setPort n p x).tri = s.tri := by cases n <;> rfl
@[simp] theorem State.setPort_dom (s : State) (n : Node) (p : Nat) (x : PortSt) : (s.setPort n p x).dom = s.dom := by cases n <;> rfl
@[simp] theorem State.setPort_rte (s : State) (n : Node) (p : Nat) (x : PortSt) : (s.setPort n p x).rte = s.rte := by cases n <;> rfl
@[simp] theorem State.setPort_sch (s : State) (n : Node) (p : Nat) (x : PortSt) : (s.setPort n p x).sch = s.sch := by cases n <;> rfl
@[simp] theorem State.setPort_grp (s : State) (n : Node) (p : Nat) (x : PortSt) : (s.setPort n p x).grp = s.grp := by cases n <;> rfl
@[simp] theorem State.setPort_plc (s : State) (n : Node) (p : Nat) (x : PortSt) : (s.setPort n p x).plc = s.plc := by cases n <;> rfl
@[simp] theorem State.setPort_sec (s : State) (n : Node) (p : Nat) (x : PortSt) : (s.setPort n p x).sec = s.sec := by cases n <;> rfl
@[simp] theorem State.setPort_engines (s : State) (n : Node) (p : Nat) (x : PortSt) : (s.setPort n p x).engines = s.engines := by cases n <;> rfl
@[simp] theorem State.setPort_programs (s : State) (n : Node) (p : Nat) (x : PortSt) : (s.setPort n p x).programs = s.programs := by cases n <;> rfl
@[simp] theorem State.setPort_queues (s : State) (n : Node) (p : Nat) (x : PortSt) : (s.setPort n p x).queues = s.queues := by cases n <;> rfl
@[simp] theorem State.setPort_turn (s : State) (n : Node) (p : Nat) (x : PortSt) : (s.setPort n p x).turn = s.turn := by cases n <;> rfl
@[simp] theorem State.setPort_sets (s : State) (n : Node) (p : Nat) (x : PortSt) : (s.setPort n p x).sets = s.sets := by cases n <;> rfl
@[simp] theorem State.setPort_store (s : State) (n : Node) (p : Nat) (x : PortSt) : (s.setPort n p x).store = s.store := by cases n <;> rfl
@[simp] theorem State.setPort_hbm (s : State) (n : Node) (p : Nat) (x : PortSt) : (s.setPort n p x).hbm = s.hbm := by cases n <;> rfl
@[simp] theorem State.setPort_spill (s : State) (n : Node) (p : Nat) (x : PortSt) : (s.setPort n p x).spill = s.spill := by cases n <;> rfl
@[simp] theorem State.setPort_streams (s : State) (n : Node) (p : Nat) (x : PortSt) : (s.setPort n p x).streams = s.streams := by cases n <;> rfl
@[simp] theorem State.setPort_hooks (s : State) (n : Node) (p : Nat) (x : PortSt) : (s.setPort n p x).hooks = s.hooks := by cases n <;> rfl
@[simp] theorem State.setPort_lapses (s : State) (n : Node) (p : Nat) (x : PortSt) : (s.setPort n p x).lapses = s.lapses := by cases n <;> rfl
@[simp] theorem State.setPort_out (s : State) (n : Node) (p : Nat) (x : PortSt) : (s.setPort n p x).out = s.out := by cases n <;> rfl
@[simp] theorem State.setPort_fresh (s : State) (n : Node) (p : Nat) (x : PortSt) : (s.setPort n p x).fresh = s.fresh := by cases n <;> rfl
@[simp] theorem State.setPort_pending (s : State) (n : Node) (p : Nat) (x : PortSt) : (s.setPort n p x).pending = s.pending := by cases n <;> rfl

@[simp] theorem State.setStreams_regs (s : State) (n : Node) (x : Streams) : (s.setStreams n x).regs = s.regs := by cases n <;> rfl
@[simp] theorem State.setStreams_time (s : State) (n : Node) (x : Streams) : (s.setStreams n x).time = s.time := by cases n <;> rfl
@[simp] theorem State.setStreams_noc (s : State) (n : Node) (x : Streams) : (s.setStreams n x).noc = s.noc := by cases n <;> rfl
@[simp] theorem State.setStreams_sq (s : State) (n : Node) (x : Streams) : (s.setStreams n x).sq = s.sq := by cases n <;> rfl
@[simp] theorem State.setStreams_pwr (s : State) (n : Node) (x : Streams) : (s.setStreams n x).pwr = s.pwr := by cases n <;> rfl
@[simp] theorem State.setStreams_col (s : State) (n : Node) (x : Streams) : (s.setStreams n x).col = s.col := by cases n <;> rfl
@[simp] theorem State.setStreams_led (s : State) (n : Node) (x : Streams) : (s.setStreams n x).led = s.led := by cases n <;> rfl
@[simp] theorem State.setStreams_tri (s : State) (n : Node) (x : Streams) : (s.setStreams n x).tri = s.tri := by cases n <;> rfl
@[simp] theorem State.setStreams_dom (s : State) (n : Node) (x : Streams) : (s.setStreams n x).dom = s.dom := by cases n <;> rfl
@[simp] theorem State.setStreams_rte (s : State) (n : Node) (x : Streams) : (s.setStreams n x).rte = s.rte := by cases n <;> rfl
@[simp] theorem State.setStreams_sch (s : State) (n : Node) (x : Streams) : (s.setStreams n x).sch = s.sch := by cases n <;> rfl
@[simp] theorem State.setStreams_grp (s : State) (n : Node) (x : Streams) : (s.setStreams n x).grp = s.grp := by cases n <;> rfl
@[simp] theorem State.setStreams_plc (s : State) (n : Node) (x : Streams) : (s.setStreams n x).plc = s.plc := by cases n <;> rfl
@[simp] theorem State.setStreams_sec (s : State) (n : Node) (x : Streams) : (s.setStreams n x).sec = s.sec := by cases n <;> rfl
@[simp] theorem State.setStreams_engines (s : State) (n : Node) (x : Streams) : (s.setStreams n x).engines = s.engines := by cases n <;> rfl
@[simp] theorem State.setStreams_programs (s : State) (n : Node) (x : Streams) : (s.setStreams n x).programs = s.programs := by cases n <;> rfl
@[simp] theorem State.setStreams_queues (s : State) (n : Node) (x : Streams) : (s.setStreams n x).queues = s.queues := by cases n <;> rfl
@[simp] theorem State.setStreams_turn (s : State) (n : Node) (x : Streams) : (s.setStreams n x).turn = s.turn := by cases n <;> rfl
@[simp] theorem State.setStreams_sets (s : State) (n : Node) (x : Streams) : (s.setStreams n x).sets = s.sets := by cases n <;> rfl
@[simp] theorem State.setStreams_store (s : State) (n : Node) (x : Streams) : (s.setStreams n x).store = s.store := by cases n <;> rfl
@[simp] theorem State.setStreams_hbm (s : State) (n : Node) (x : Streams) : (s.setStreams n x).hbm = s.hbm := by cases n <;> rfl
@[simp] theorem State.setStreams_spill (s : State) (n : Node) (x : Streams) : (s.setStreams n x).spill = s.spill := by cases n <;> rfl
@[simp] theorem State.setStreams_ports (s : State) (n : Node) (x : Streams) : (s.setStreams n x).ports = s.ports := by cases n <;> rfl
@[simp] theorem State.setStreams_hooks (s : State) (n : Node) (x : Streams) : (s.setStreams n x).hooks = s.hooks := by cases n <;> rfl
@[simp] theorem State.setStreams_lapses (s : State) (n : Node) (x : Streams) : (s.setStreams n x).lapses = s.lapses := by cases n <;> rfl
@[simp] theorem State.setStreams_out (s : State) (n : Node) (x : Streams) : (s.setStreams n x).out = s.out := by cases n <;> rfl
@[simp] theorem State.setStreams_fresh (s : State) (n : Node) (x : Streams) : (s.setStreams n x).fresh = s.fresh := by cases n <;> rfl
@[simp] theorem State.setStreams_pending (s : State) (n : Node) (x : Streams) : (s.setStreams n x).pending = s.pending := by cases n <;> rfl

@[simp] theorem State.setTx_regs (s : State) (n : Node) (d : Fid) (i : BitVec 16) (x : StreamTx) : (s.setTx n d i x).regs = s.regs := by cases n <;> rfl
@[simp] theorem State.setTx_time (s : State) (n : Node) (d : Fid) (i : BitVec 16) (x : StreamTx) : (s.setTx n d i x).time = s.time := by cases n <;> rfl
@[simp] theorem State.setTx_noc (s : State) (n : Node) (d : Fid) (i : BitVec 16) (x : StreamTx) : (s.setTx n d i x).noc = s.noc := by cases n <;> rfl
@[simp] theorem State.setTx_sq (s : State) (n : Node) (d : Fid) (i : BitVec 16) (x : StreamTx) : (s.setTx n d i x).sq = s.sq := by cases n <;> rfl
@[simp] theorem State.setTx_pwr (s : State) (n : Node) (d : Fid) (i : BitVec 16) (x : StreamTx) : (s.setTx n d i x).pwr = s.pwr := by cases n <;> rfl
@[simp] theorem State.setTx_col (s : State) (n : Node) (d : Fid) (i : BitVec 16) (x : StreamTx) : (s.setTx n d i x).col = s.col := by cases n <;> rfl
@[simp] theorem State.setTx_led (s : State) (n : Node) (d : Fid) (i : BitVec 16) (x : StreamTx) : (s.setTx n d i x).led = s.led := by cases n <;> rfl
@[simp] theorem State.setTx_tri (s : State) (n : Node) (d : Fid) (i : BitVec 16) (x : StreamTx) : (s.setTx n d i x).tri = s.tri := by cases n <;> rfl
@[simp] theorem State.setTx_dom (s : State) (n : Node) (d : Fid) (i : BitVec 16) (x : StreamTx) : (s.setTx n d i x).dom = s.dom := by cases n <;> rfl
@[simp] theorem State.setTx_rte (s : State) (n : Node) (d : Fid) (i : BitVec 16) (x : StreamTx) : (s.setTx n d i x).rte = s.rte := by cases n <;> rfl
@[simp] theorem State.setTx_sch (s : State) (n : Node) (d : Fid) (i : BitVec 16) (x : StreamTx) : (s.setTx n d i x).sch = s.sch := by cases n <;> rfl
@[simp] theorem State.setTx_grp (s : State) (n : Node) (d : Fid) (i : BitVec 16) (x : StreamTx) : (s.setTx n d i x).grp = s.grp := by cases n <;> rfl
@[simp] theorem State.setTx_plc (s : State) (n : Node) (d : Fid) (i : BitVec 16) (x : StreamTx) : (s.setTx n d i x).plc = s.plc := by cases n <;> rfl
@[simp] theorem State.setTx_sec (s : State) (n : Node) (d : Fid) (i : BitVec 16) (x : StreamTx) : (s.setTx n d i x).sec = s.sec := by cases n <;> rfl
@[simp] theorem State.setTx_engines (s : State) (n : Node) (d : Fid) (i : BitVec 16) (x : StreamTx) : (s.setTx n d i x).engines = s.engines := by cases n <;> rfl
@[simp] theorem State.setTx_programs (s : State) (n : Node) (d : Fid) (i : BitVec 16) (x : StreamTx) : (s.setTx n d i x).programs = s.programs := by cases n <;> rfl
@[simp] theorem State.setTx_queues (s : State) (n : Node) (d : Fid) (i : BitVec 16) (x : StreamTx) : (s.setTx n d i x).queues = s.queues := by cases n <;> rfl
@[simp] theorem State.setTx_turn (s : State) (n : Node) (d : Fid) (i : BitVec 16) (x : StreamTx) : (s.setTx n d i x).turn = s.turn := by cases n <;> rfl
@[simp] theorem State.setTx_sets (s : State) (n : Node) (d : Fid) (i : BitVec 16) (x : StreamTx) : (s.setTx n d i x).sets = s.sets := by cases n <;> rfl
@[simp] theorem State.setTx_store (s : State) (n : Node) (d : Fid) (i : BitVec 16) (x : StreamTx) : (s.setTx n d i x).store = s.store := by cases n <;> rfl
@[simp] theorem State.setTx_hbm (s : State) (n : Node) (d : Fid) (i : BitVec 16) (x : StreamTx) : (s.setTx n d i x).hbm = s.hbm := by cases n <;> rfl
@[simp] theorem State.setTx_spill (s : State) (n : Node) (d : Fid) (i : BitVec 16) (x : StreamTx) : (s.setTx n d i x).spill = s.spill := by cases n <;> rfl
@[simp] theorem State.setTx_ports (s : State) (n : Node) (d : Fid) (i : BitVec 16) (x : StreamTx) : (s.setTx n d i x).ports = s.ports := by cases n <;> rfl
@[simp] theorem State.setTx_hooks (s : State) (n : Node) (d : Fid) (i : BitVec 16) (x : StreamTx) : (s.setTx n d i x).hooks = s.hooks := by cases n <;> rfl
@[simp] theorem State.setTx_lapses (s : State) (n : Node) (d : Fid) (i : BitVec 16) (x : StreamTx) : (s.setTx n d i x).lapses = s.lapses := by cases n <;> rfl
@[simp] theorem State.setTx_out (s : State) (n : Node) (d : Fid) (i : BitVec 16) (x : StreamTx) : (s.setTx n d i x).out = s.out := by cases n <;> rfl
@[simp] theorem State.setTx_fresh (s : State) (n : Node) (d : Fid) (i : BitVec 16) (x : StreamTx) : (s.setTx n d i x).fresh = s.fresh := by cases n <;> rfl
@[simp] theorem State.setTx_pending (s : State) (n : Node) (d : Fid) (i : BitVec 16) (x : StreamTx) : (s.setTx n d i x).pending = s.pending := by cases n <;> rfl

@[simp] theorem State.setRx_regs (s : State) (n : Node) (d : Fid) (i : BitVec 16) (x : StreamRx) : (s.setRx n d i x).regs = s.regs := by cases n <;> rfl
@[simp] theorem State.setRx_time (s : State) (n : Node) (d : Fid) (i : BitVec 16) (x : StreamRx) : (s.setRx n d i x).time = s.time := by cases n <;> rfl
@[simp] theorem State.setRx_noc (s : State) (n : Node) (d : Fid) (i : BitVec 16) (x : StreamRx) : (s.setRx n d i x).noc = s.noc := by cases n <;> rfl
@[simp] theorem State.setRx_sq (s : State) (n : Node) (d : Fid) (i : BitVec 16) (x : StreamRx) : (s.setRx n d i x).sq = s.sq := by cases n <;> rfl
@[simp] theorem State.setRx_pwr (s : State) (n : Node) (d : Fid) (i : BitVec 16) (x : StreamRx) : (s.setRx n d i x).pwr = s.pwr := by cases n <;> rfl
@[simp] theorem State.setRx_col (s : State) (n : Node) (d : Fid) (i : BitVec 16) (x : StreamRx) : (s.setRx n d i x).col = s.col := by cases n <;> rfl
@[simp] theorem State.setRx_led (s : State) (n : Node) (d : Fid) (i : BitVec 16) (x : StreamRx) : (s.setRx n d i x).led = s.led := by cases n <;> rfl
@[simp] theorem State.setRx_tri (s : State) (n : Node) (d : Fid) (i : BitVec 16) (x : StreamRx) : (s.setRx n d i x).tri = s.tri := by cases n <;> rfl
@[simp] theorem State.setRx_dom (s : State) (n : Node) (d : Fid) (i : BitVec 16) (x : StreamRx) : (s.setRx n d i x).dom = s.dom := by cases n <;> rfl
@[simp] theorem State.setRx_rte (s : State) (n : Node) (d : Fid) (i : BitVec 16) (x : StreamRx) : (s.setRx n d i x).rte = s.rte := by cases n <;> rfl
@[simp] theorem State.setRx_sch (s : State) (n : Node) (d : Fid) (i : BitVec 16) (x : StreamRx) : (s.setRx n d i x).sch = s.sch := by cases n <;> rfl
@[simp] theorem State.setRx_grp (s : State) (n : Node) (d : Fid) (i : BitVec 16) (x : StreamRx) : (s.setRx n d i x).grp = s.grp := by cases n <;> rfl
@[simp] theorem State.setRx_plc (s : State) (n : Node) (d : Fid) (i : BitVec 16) (x : StreamRx) : (s.setRx n d i x).plc = s.plc := by cases n <;> rfl
@[simp] theorem State.setRx_sec (s : State) (n : Node) (d : Fid) (i : BitVec 16) (x : StreamRx) : (s.setRx n d i x).sec = s.sec := by cases n <;> rfl
@[simp] theorem State.setRx_engines (s : State) (n : Node) (d : Fid) (i : BitVec 16) (x : StreamRx) : (s.setRx n d i x).engines = s.engines := by cases n <;> rfl
@[simp] theorem State.setRx_programs (s : State) (n : Node) (d : Fid) (i : BitVec 16) (x : StreamRx) : (s.setRx n d i x).programs = s.programs := by cases n <;> rfl
@[simp] theorem State.setRx_queues (s : State) (n : Node) (d : Fid) (i : BitVec 16) (x : StreamRx) : (s.setRx n d i x).queues = s.queues := by cases n <;> rfl
@[simp] theorem State.setRx_turn (s : State) (n : Node) (d : Fid) (i : BitVec 16) (x : StreamRx) : (s.setRx n d i x).turn = s.turn := by cases n <;> rfl
@[simp] theorem State.setRx_sets (s : State) (n : Node) (d : Fid) (i : BitVec 16) (x : StreamRx) : (s.setRx n d i x).sets = s.sets := by cases n <;> rfl
@[simp] theorem State.setRx_store (s : State) (n : Node) (d : Fid) (i : BitVec 16) (x : StreamRx) : (s.setRx n d i x).store = s.store := by cases n <;> rfl
@[simp] theorem State.setRx_hbm (s : State) (n : Node) (d : Fid) (i : BitVec 16) (x : StreamRx) : (s.setRx n d i x).hbm = s.hbm := by cases n <;> rfl
@[simp] theorem State.setRx_spill (s : State) (n : Node) (d : Fid) (i : BitVec 16) (x : StreamRx) : (s.setRx n d i x).spill = s.spill := by cases n <;> rfl
@[simp] theorem State.setRx_ports (s : State) (n : Node) (d : Fid) (i : BitVec 16) (x : StreamRx) : (s.setRx n d i x).ports = s.ports := by cases n <;> rfl
@[simp] theorem State.setRx_hooks (s : State) (n : Node) (d : Fid) (i : BitVec 16) (x : StreamRx) : (s.setRx n d i x).hooks = s.hooks := by cases n <;> rfl
@[simp] theorem State.setRx_lapses (s : State) (n : Node) (d : Fid) (i : BitVec 16) (x : StreamRx) : (s.setRx n d i x).lapses = s.lapses := by cases n <;> rfl
@[simp] theorem State.setRx_out (s : State) (n : Node) (d : Fid) (i : BitVec 16) (x : StreamRx) : (s.setRx n d i x).out = s.out := by cases n <;> rfl
@[simp] theorem State.setRx_fresh (s : State) (n : Node) (d : Fid) (i : BitVec 16) (x : StreamRx) : (s.setRx n d i x).fresh = s.fresh := by cases n <;> rfl
@[simp] theorem State.setRx_pending (s : State) (n : Node) (d : Fid) (i : BitVec 16) (x : StreamRx) : (s.setRx n d i x).pending = s.pending := by cases n <;> rfl

@[simp] theorem State.port_setPort_self (s : State) (n : Node) (p : Nat) (x : PortSt) : (s.setPort n p x).port n p = x := by
  cases n <;> simp [State.port, State.nodePorts, State.setPort, State.updAgent]

theorem State.port_setPort_ne (s : State) (n : Node) {p q : Nat} (x : PortSt) (h : q ≠ p) : (s.setPort n p x).port n q = s.port n q := by
  cases n <;> simp [State.port, State.nodePorts, State.setPort, State.updAgent, NMap.getD_set_ne _ x _ h]

/-! ## What leaves, events, free values -/

@[simp] theorem State.emit_regs (s : State) (o : Out) : (s.emit o).regs = s.regs := rfl
@[simp] theorem State.emit_time (s : State) (o : Out) : (s.emit o).time = s.time := rfl
@[simp] theorem State.emit_noc (s : State) (o : Out) : (s.emit o).noc = s.noc := rfl
@[simp] theorem State.emit_sq (s : State) (o : Out) : (s.emit o).sq = s.sq := rfl
@[simp] theorem State.emit_pwr (s : State) (o : Out) : (s.emit o).pwr = s.pwr := rfl
@[simp] theorem State.emit_col (s : State) (o : Out) : (s.emit o).col = s.col := rfl
@[simp] theorem State.emit_led (s : State) (o : Out) : (s.emit o).led = s.led := rfl
@[simp] theorem State.emit_tri (s : State) (o : Out) : (s.emit o).tri = s.tri := rfl
@[simp] theorem State.emit_dom (s : State) (o : Out) : (s.emit o).dom = s.dom := rfl
@[simp] theorem State.emit_rte (s : State) (o : Out) : (s.emit o).rte = s.rte := rfl
@[simp] theorem State.emit_sch (s : State) (o : Out) : (s.emit o).sch = s.sch := rfl
@[simp] theorem State.emit_grp (s : State) (o : Out) : (s.emit o).grp = s.grp := rfl
@[simp] theorem State.emit_plc (s : State) (o : Out) : (s.emit o).plc = s.plc := rfl
@[simp] theorem State.emit_sec (s : State) (o : Out) : (s.emit o).sec = s.sec := rfl
@[simp] theorem State.emit_engines (s : State) (o : Out) : (s.emit o).engines = s.engines := rfl
@[simp] theorem State.emit_programs (s : State) (o : Out) : (s.emit o).programs = s.programs := rfl
@[simp] theorem State.emit_queues (s : State) (o : Out) : (s.emit o).queues = s.queues := rfl
@[simp] theorem State.emit_turn (s : State) (o : Out) : (s.emit o).turn = s.turn := rfl
@[simp] theorem State.emit_sets (s : State) (o : Out) : (s.emit o).sets = s.sets := rfl
@[simp] theorem State.emit_store (s : State) (o : Out) : (s.emit o).store = s.store := rfl
@[simp] theorem State.emit_hbm (s : State) (o : Out) : (s.emit o).hbm = s.hbm := rfl
@[simp] theorem State.emit_spill (s : State) (o : Out) : (s.emit o).spill = s.spill := rfl
@[simp] theorem State.emit_ports (s : State) (o : Out) : (s.emit o).ports = s.ports := rfl
@[simp] theorem State.emit_streams (s : State) (o : Out) : (s.emit o).streams = s.streams := rfl
@[simp] theorem State.emit_hooks (s : State) (o : Out) : (s.emit o).hooks = s.hooks := rfl
@[simp] theorem State.emit_agents (s : State) (o : Out) : (s.emit o).agents = s.agents := rfl
@[simp] theorem State.emit_lapses (s : State) (o : Out) : (s.emit o).lapses = s.lapses := rfl
@[simp] theorem State.emit_fresh (s : State) (o : Out) : (s.emit o).fresh = s.fresh := rfl
@[simp] theorem State.emit_pending (s : State) (o : Out) : (s.emit o).pending = s.pending := rfl

@[simp] theorem State.act_regs (s : State) (o : Out) : (s.act o).regs = s.regs := by unfold State.act; split <;> rfl
@[simp] theorem State.act_time (s : State) (o : Out) : (s.act o).time = s.time := by unfold State.act; split <;> rfl
@[simp] theorem State.act_noc (s : State) (o : Out) : (s.act o).noc = s.noc := by unfold State.act; split <;> rfl
@[simp] theorem State.act_sq (s : State) (o : Out) : (s.act o).sq = s.sq := by unfold State.act; split <;> rfl
@[simp] theorem State.act_pwr (s : State) (o : Out) : (s.act o).pwr = s.pwr := by unfold State.act; split <;> rfl
@[simp] theorem State.act_col (s : State) (o : Out) : (s.act o).col = s.col := by unfold State.act; split <;> rfl
@[simp] theorem State.act_led (s : State) (o : Out) : (s.act o).led = s.led := by unfold State.act; split <;> rfl
@[simp] theorem State.act_tri (s : State) (o : Out) : (s.act o).tri = s.tri := by unfold State.act; split <;> rfl
@[simp] theorem State.act_dom (s : State) (o : Out) : (s.act o).dom = s.dom := by unfold State.act; split <;> rfl
@[simp] theorem State.act_rte (s : State) (o : Out) : (s.act o).rte = s.rte := by unfold State.act; split <;> rfl
@[simp] theorem State.act_sch (s : State) (o : Out) : (s.act o).sch = s.sch := by unfold State.act; split <;> rfl
@[simp] theorem State.act_grp (s : State) (o : Out) : (s.act o).grp = s.grp := by unfold State.act; split <;> rfl
@[simp] theorem State.act_plc (s : State) (o : Out) : (s.act o).plc = s.plc := by unfold State.act; split <;> rfl
@[simp] theorem State.act_sec (s : State) (o : Out) : (s.act o).sec = s.sec := by unfold State.act; split <;> rfl
@[simp] theorem State.act_engines (s : State) (o : Out) : (s.act o).engines = s.engines := by unfold State.act; split <;> rfl
@[simp] theorem State.act_programs (s : State) (o : Out) : (s.act o).programs = s.programs := by unfold State.act; split <;> rfl
@[simp] theorem State.act_queues (s : State) (o : Out) : (s.act o).queues = s.queues := by unfold State.act; split <;> rfl
@[simp] theorem State.act_turn (s : State) (o : Out) : (s.act o).turn = s.turn := by unfold State.act; split <;> rfl
@[simp] theorem State.act_sets (s : State) (o : Out) : (s.act o).sets = s.sets := by unfold State.act; split <;> rfl
@[simp] theorem State.act_store (s : State) (o : Out) : (s.act o).store = s.store := by unfold State.act; split <;> rfl
@[simp] theorem State.act_hbm (s : State) (o : Out) : (s.act o).hbm = s.hbm := by unfold State.act; split <;> rfl
@[simp] theorem State.act_spill (s : State) (o : Out) : (s.act o).spill = s.spill := by unfold State.act; split <;> rfl
@[simp] theorem State.act_ports (s : State) (o : Out) : (s.act o).ports = s.ports := by unfold State.act; split <;> rfl
@[simp] theorem State.act_streams (s : State) (o : Out) : (s.act o).streams = s.streams := by unfold State.act; split <;> rfl
@[simp] theorem State.act_hooks (s : State) (o : Out) : (s.act o).hooks = s.hooks := by unfold State.act; split <;> rfl
@[simp] theorem State.act_agents (s : State) (o : Out) : (s.act o).agents = s.agents := by unfold State.act; split <;> rfl
@[simp] theorem State.act_lapses (s : State) (o : Out) : (s.act o).lapses = s.lapses := by unfold State.act; split <;> rfl
@[simp] theorem State.act_fresh (s : State) (o : Out) : (s.act o).fresh = s.fresh := by unfold State.act; split <;> rfl
@[simp] theorem State.act_pending (s : State) (o : Out) : (s.act o).pending = s.pending := by unfold State.act; split <;> rfl

@[simp] theorem State.hubAct_regs (s : State) (h : Nat) (o : Out) : (s.hubAct h o).regs = s.regs := by unfold State.hubAct; split <;> simp [State.hold]
@[simp] theorem State.hubAct_time (s : State) (h : Nat) (o : Out) : (s.hubAct h o).time = s.time := by unfold State.hubAct; split <;> simp [State.hold]
@[simp] theorem State.hubAct_noc (s : State) (h : Nat) (o : Out) : (s.hubAct h o).noc = s.noc := by unfold State.hubAct; split <;> simp [State.hold]
@[simp] theorem State.hubAct_sq (s : State) (h : Nat) (o : Out) : (s.hubAct h o).sq = s.sq := by unfold State.hubAct; split <;> simp [State.hold]
@[simp] theorem State.hubAct_col (s : State) (h : Nat) (o : Out) : (s.hubAct h o).col = s.col := by unfold State.hubAct; split <;> simp [State.hold]
@[simp] theorem State.hubAct_led (s : State) (h : Nat) (o : Out) : (s.hubAct h o).led = s.led := by unfold State.hubAct; split <;> simp [State.hold]
@[simp] theorem State.hubAct_tri (s : State) (h : Nat) (o : Out) : (s.hubAct h o).tri = s.tri := by unfold State.hubAct; split <;> simp [State.hold]
@[simp] theorem State.hubAct_dom (s : State) (h : Nat) (o : Out) : (s.hubAct h o).dom = s.dom := by unfold State.hubAct; split <;> simp [State.hold]
@[simp] theorem State.hubAct_rte (s : State) (h : Nat) (o : Out) : (s.hubAct h o).rte = s.rte := by unfold State.hubAct; split <;> simp [State.hold]
@[simp] theorem State.hubAct_sch (s : State) (h : Nat) (o : Out) : (s.hubAct h o).sch = s.sch := by unfold State.hubAct; split <;> simp [State.hold]
@[simp] theorem State.hubAct_grp (s : State) (h : Nat) (o : Out) : (s.hubAct h o).grp = s.grp := by unfold State.hubAct; split <;> simp [State.hold]
@[simp] theorem State.hubAct_plc (s : State) (h : Nat) (o : Out) : (s.hubAct h o).plc = s.plc := by unfold State.hubAct; split <;> simp [State.hold]
@[simp] theorem State.hubAct_sec (s : State) (h : Nat) (o : Out) : (s.hubAct h o).sec = s.sec := by unfold State.hubAct; split <;> simp [State.hold]
@[simp] theorem State.hubAct_engines (s : State) (h : Nat) (o : Out) : (s.hubAct h o).engines = s.engines := by unfold State.hubAct; split <;> simp [State.hold]
@[simp] theorem State.hubAct_programs (s : State) (h : Nat) (o : Out) : (s.hubAct h o).programs = s.programs := by unfold State.hubAct; split <;> simp [State.hold]
@[simp] theorem State.hubAct_queues (s : State) (h : Nat) (o : Out) : (s.hubAct h o).queues = s.queues := by unfold State.hubAct; split <;> simp [State.hold]
@[simp] theorem State.hubAct_turn (s : State) (h : Nat) (o : Out) : (s.hubAct h o).turn = s.turn := by unfold State.hubAct; split <;> simp [State.hold]
@[simp] theorem State.hubAct_sets (s : State) (h : Nat) (o : Out) : (s.hubAct h o).sets = s.sets := by unfold State.hubAct; split <;> simp [State.hold]
@[simp] theorem State.hubAct_store (s : State) (h : Nat) (o : Out) : (s.hubAct h o).store = s.store := by unfold State.hubAct; split <;> simp [State.hold]
@[simp] theorem State.hubAct_hbm (s : State) (h : Nat) (o : Out) : (s.hubAct h o).hbm = s.hbm := by unfold State.hubAct; split <;> simp [State.hold]
@[simp] theorem State.hubAct_spill (s : State) (h : Nat) (o : Out) : (s.hubAct h o).spill = s.spill := by unfold State.hubAct; split <;> simp [State.hold]
@[simp] theorem State.hubAct_ports (s : State) (h : Nat) (o : Out) : (s.hubAct h o).ports = s.ports := by unfold State.hubAct; split <;> simp [State.hold]
@[simp] theorem State.hubAct_streams (s : State) (h : Nat) (o : Out) : (s.hubAct h o).streams = s.streams := by unfold State.hubAct; split <;> simp [State.hold]
@[simp] theorem State.hubAct_hooks (s : State) (h : Nat) (o : Out) : (s.hubAct h o).hooks = s.hooks := by unfold State.hubAct; split <;> simp [State.hold]
@[simp] theorem State.hubAct_agents (s : State) (h : Nat) (o : Out) : (s.hubAct h o).agents = s.agents := by unfold State.hubAct; split <;> simp [State.hold]
@[simp] theorem State.hubAct_lapses (s : State) (h : Nat) (o : Out) : (s.hubAct h o).lapses = s.lapses := by unfold State.hubAct; split <;> simp [State.hold]
@[simp] theorem State.hubAct_fresh (s : State) (h : Nat) (o : Out) : (s.hubAct h o).fresh = s.fresh := by unfold State.hubAct; split <;> simp [State.hold]
@[simp] theorem State.hubAct_pending (s : State) (h : Nat) (o : Out) : (s.hubAct h o).pending = s.pending := by unfold State.hubAct; split <;> simp [State.hold]

@[simp] theorem State.useFree_regs (s : State) : (s.useFree).regs = s.regs := rfl
@[simp] theorem State.useFree_time (s : State) : (s.useFree).time = s.time := rfl
@[simp] theorem State.useFree_noc (s : State) : (s.useFree).noc = s.noc := rfl
@[simp] theorem State.useFree_sq (s : State) : (s.useFree).sq = s.sq := rfl
@[simp] theorem State.useFree_pwr (s : State) : (s.useFree).pwr = s.pwr := rfl
@[simp] theorem State.useFree_col (s : State) : (s.useFree).col = s.col := rfl
@[simp] theorem State.useFree_led (s : State) : (s.useFree).led = s.led := rfl
@[simp] theorem State.useFree_tri (s : State) : (s.useFree).tri = s.tri := rfl
@[simp] theorem State.useFree_dom (s : State) : (s.useFree).dom = s.dom := rfl
@[simp] theorem State.useFree_rte (s : State) : (s.useFree).rte = s.rte := rfl
@[simp] theorem State.useFree_sch (s : State) : (s.useFree).sch = s.sch := rfl
@[simp] theorem State.useFree_grp (s : State) : (s.useFree).grp = s.grp := rfl
@[simp] theorem State.useFree_plc (s : State) : (s.useFree).plc = s.plc := rfl
@[simp] theorem State.useFree_sec (s : State) : (s.useFree).sec = s.sec := rfl
@[simp] theorem State.useFree_engines (s : State) : (s.useFree).engines = s.engines := rfl
@[simp] theorem State.useFree_programs (s : State) : (s.useFree).programs = s.programs := rfl
@[simp] theorem State.useFree_queues (s : State) : (s.useFree).queues = s.queues := rfl
@[simp] theorem State.useFree_turn (s : State) : (s.useFree).turn = s.turn := rfl
@[simp] theorem State.useFree_sets (s : State) : (s.useFree).sets = s.sets := rfl
@[simp] theorem State.useFree_store (s : State) : (s.useFree).store = s.store := rfl
@[simp] theorem State.useFree_hbm (s : State) : (s.useFree).hbm = s.hbm := rfl
@[simp] theorem State.useFree_spill (s : State) : (s.useFree).spill = s.spill := rfl
@[simp] theorem State.useFree_ports (s : State) : (s.useFree).ports = s.ports := rfl
@[simp] theorem State.useFree_streams (s : State) : (s.useFree).streams = s.streams := rfl
@[simp] theorem State.useFree_hooks (s : State) : (s.useFree).hooks = s.hooks := rfl
@[simp] theorem State.useFree_agents (s : State) : (s.useFree).agents = s.agents := rfl
@[simp] theorem State.useFree_lapses (s : State) : (s.useFree).lapses = s.lapses := rfl
@[simp] theorem State.useFree_out (s : State) : (s.useFree).out = s.out := rfl
@[simp] theorem State.useFree_pending (s : State) : (s.useFree).pending = s.pending := rfl

@[simp] theorem State.present_regs (s : State) (ev : Event) : (s.present ev).regs = s.regs := rfl
@[simp] theorem State.present_time (s : State) (ev : Event) : (s.present ev).time = s.time := rfl
@[simp] theorem State.present_noc (s : State) (ev : Event) : (s.present ev).noc = s.noc := rfl
@[simp] theorem State.present_sq (s : State) (ev : Event) : (s.present ev).sq = s.sq := rfl
@[simp] theorem State.present_pwr (s : State) (ev : Event) : (s.present ev).pwr = s.pwr := rfl
@[simp] theorem State.present_led (s : State) (ev : Event) : (s.present ev).led = s.led := rfl
@[simp] theorem State.present_tri (s : State) (ev : Event) : (s.present ev).tri = s.tri := rfl
@[simp] theorem State.present_dom (s : State) (ev : Event) : (s.present ev).dom = s.dom := rfl
@[simp] theorem State.present_rte (s : State) (ev : Event) : (s.present ev).rte = s.rte := rfl
@[simp] theorem State.present_sch (s : State) (ev : Event) : (s.present ev).sch = s.sch := rfl
@[simp] theorem State.present_grp (s : State) (ev : Event) : (s.present ev).grp = s.grp := rfl
@[simp] theorem State.present_plc (s : State) (ev : Event) : (s.present ev).plc = s.plc := rfl
@[simp] theorem State.present_sec (s : State) (ev : Event) : (s.present ev).sec = s.sec := rfl
@[simp] theorem State.present_engines (s : State) (ev : Event) : (s.present ev).engines = s.engines := rfl
@[simp] theorem State.present_programs (s : State) (ev : Event) : (s.present ev).programs = s.programs := rfl
@[simp] theorem State.present_queues (s : State) (ev : Event) : (s.present ev).queues = s.queues := rfl
@[simp] theorem State.present_turn (s : State) (ev : Event) : (s.present ev).turn = s.turn := rfl
@[simp] theorem State.present_sets (s : State) (ev : Event) : (s.present ev).sets = s.sets := rfl
@[simp] theorem State.present_store (s : State) (ev : Event) : (s.present ev).store = s.store := rfl
@[simp] theorem State.present_hbm (s : State) (ev : Event) : (s.present ev).hbm = s.hbm := rfl
@[simp] theorem State.present_spill (s : State) (ev : Event) : (s.present ev).spill = s.spill := rfl
@[simp] theorem State.present_ports (s : State) (ev : Event) : (s.present ev).ports = s.ports := rfl
@[simp] theorem State.present_streams (s : State) (ev : Event) : (s.present ev).streams = s.streams := rfl
@[simp] theorem State.present_hooks (s : State) (ev : Event) : (s.present ev).hooks = s.hooks := rfl
@[simp] theorem State.present_agents (s : State) (ev : Event) : (s.present ev).agents = s.agents := rfl
@[simp] theorem State.present_lapses (s : State) (ev : Event) : (s.present ev).lapses = s.lapses := rfl
@[simp] theorem State.present_out (s : State) (ev : Event) : (s.present ev).out = s.out := rfl
@[simp] theorem State.present_fresh (s : State) (ev : Event) : (s.present ev).fresh = s.fresh := rfl
@[simp] theorem State.present_pending (s : State) (ev : Event) : (s.present ev).pending = s.pending := rfl

theorem State.countSource_eq (s : State) (src n : Nat) (d : BitVec 16) (c : Option Capture) : ∃ x0 x1, s.countSource src n d c = { s with regs := x0 , col := x1 } := by
  unfold State.countSource
  cases c with
  | none => exact ⟨_, _, rfl⟩
  | some c =>
    dsimp only
    split <;> exact ⟨_, _, rfl⟩

@[simp] theorem State.countSource_time (s : State) (src n : Nat) (d : BitVec 16) (c : Option Capture) : (s.countSource src n d c).time = s.time := by obtain ⟨_, _, h⟩ := s.countSource_eq src n d c; rw [h]
@[simp] theorem State.countSource_noc (s : State) (src n : Nat) (d : BitVec 16) (c : Option Capture) : (s.countSource src n d c).noc = s.noc := by obtain ⟨_, _, h⟩ := s.countSource_eq src n d c; rw [h]
@[simp] theorem State.countSource_sq (s : State) (src n : Nat) (d : BitVec 16) (c : Option Capture) : (s.countSource src n d c).sq = s.sq := by obtain ⟨_, _, h⟩ := s.countSource_eq src n d c; rw [h]
@[simp] theorem State.countSource_pwr (s : State) (src n : Nat) (d : BitVec 16) (c : Option Capture) : (s.countSource src n d c).pwr = s.pwr := by obtain ⟨_, _, h⟩ := s.countSource_eq src n d c; rw [h]
@[simp] theorem State.countSource_led (s : State) (src n : Nat) (d : BitVec 16) (c : Option Capture) : (s.countSource src n d c).led = s.led := by obtain ⟨_, _, h⟩ := s.countSource_eq src n d c; rw [h]
@[simp] theorem State.countSource_tri (s : State) (src n : Nat) (d : BitVec 16) (c : Option Capture) : (s.countSource src n d c).tri = s.tri := by obtain ⟨_, _, h⟩ := s.countSource_eq src n d c; rw [h]
@[simp] theorem State.countSource_dom (s : State) (src n : Nat) (d : BitVec 16) (c : Option Capture) : (s.countSource src n d c).dom = s.dom := by obtain ⟨_, _, h⟩ := s.countSource_eq src n d c; rw [h]
@[simp] theorem State.countSource_rte (s : State) (src n : Nat) (d : BitVec 16) (c : Option Capture) : (s.countSource src n d c).rte = s.rte := by obtain ⟨_, _, h⟩ := s.countSource_eq src n d c; rw [h]
@[simp] theorem State.countSource_sch (s : State) (src n : Nat) (d : BitVec 16) (c : Option Capture) : (s.countSource src n d c).sch = s.sch := by obtain ⟨_, _, h⟩ := s.countSource_eq src n d c; rw [h]
@[simp] theorem State.countSource_grp (s : State) (src n : Nat) (d : BitVec 16) (c : Option Capture) : (s.countSource src n d c).grp = s.grp := by obtain ⟨_, _, h⟩ := s.countSource_eq src n d c; rw [h]
@[simp] theorem State.countSource_plc (s : State) (src n : Nat) (d : BitVec 16) (c : Option Capture) : (s.countSource src n d c).plc = s.plc := by obtain ⟨_, _, h⟩ := s.countSource_eq src n d c; rw [h]
@[simp] theorem State.countSource_sec (s : State) (src n : Nat) (d : BitVec 16) (c : Option Capture) : (s.countSource src n d c).sec = s.sec := by obtain ⟨_, _, h⟩ := s.countSource_eq src n d c; rw [h]
@[simp] theorem State.countSource_engines (s : State) (src n : Nat) (d : BitVec 16) (c : Option Capture) : (s.countSource src n d c).engines = s.engines := by obtain ⟨_, _, h⟩ := s.countSource_eq src n d c; rw [h]
@[simp] theorem State.countSource_programs (s : State) (src n : Nat) (d : BitVec 16) (c : Option Capture) : (s.countSource src n d c).programs = s.programs := by obtain ⟨_, _, h⟩ := s.countSource_eq src n d c; rw [h]
@[simp] theorem State.countSource_queues (s : State) (src n : Nat) (d : BitVec 16) (c : Option Capture) : (s.countSource src n d c).queues = s.queues := by obtain ⟨_, _, h⟩ := s.countSource_eq src n d c; rw [h]
@[simp] theorem State.countSource_turn (s : State) (src n : Nat) (d : BitVec 16) (c : Option Capture) : (s.countSource src n d c).turn = s.turn := by obtain ⟨_, _, h⟩ := s.countSource_eq src n d c; rw [h]
@[simp] theorem State.countSource_sets (s : State) (src n : Nat) (d : BitVec 16) (c : Option Capture) : (s.countSource src n d c).sets = s.sets := by obtain ⟨_, _, h⟩ := s.countSource_eq src n d c; rw [h]
@[simp] theorem State.countSource_store (s : State) (src n : Nat) (d : BitVec 16) (c : Option Capture) : (s.countSource src n d c).store = s.store := by obtain ⟨_, _, h⟩ := s.countSource_eq src n d c; rw [h]
@[simp] theorem State.countSource_hbm (s : State) (src n : Nat) (d : BitVec 16) (c : Option Capture) : (s.countSource src n d c).hbm = s.hbm := by obtain ⟨_, _, h⟩ := s.countSource_eq src n d c; rw [h]
@[simp] theorem State.countSource_spill (s : State) (src n : Nat) (d : BitVec 16) (c : Option Capture) : (s.countSource src n d c).spill = s.spill := by obtain ⟨_, _, h⟩ := s.countSource_eq src n d c; rw [h]
@[simp] theorem State.countSource_ports (s : State) (src n : Nat) (d : BitVec 16) (c : Option Capture) : (s.countSource src n d c).ports = s.ports := by obtain ⟨_, _, h⟩ := s.countSource_eq src n d c; rw [h]
@[simp] theorem State.countSource_streams (s : State) (src n : Nat) (d : BitVec 16) (c : Option Capture) : (s.countSource src n d c).streams = s.streams := by obtain ⟨_, _, h⟩ := s.countSource_eq src n d c; rw [h]
@[simp] theorem State.countSource_hooks (s : State) (src n : Nat) (d : BitVec 16) (c : Option Capture) : (s.countSource src n d c).hooks = s.hooks := by obtain ⟨_, _, h⟩ := s.countSource_eq src n d c; rw [h]
@[simp] theorem State.countSource_agents (s : State) (src n : Nat) (d : BitVec 16) (c : Option Capture) : (s.countSource src n d c).agents = s.agents := by obtain ⟨_, _, h⟩ := s.countSource_eq src n d c; rw [h]
@[simp] theorem State.countSource_lapses (s : State) (src n : Nat) (d : BitVec 16) (c : Option Capture) : (s.countSource src n d c).lapses = s.lapses := by obtain ⟨_, _, h⟩ := s.countSource_eq src n d c; rw [h]
@[simp] theorem State.countSource_out (s : State) (src n : Nat) (d : BitVec 16) (c : Option Capture) : (s.countSource src n d c).out = s.out := by obtain ⟨_, _, h⟩ := s.countSource_eq src n d c; rw [h]
@[simp] theorem State.countSource_fresh (s : State) (src n : Nat) (d : BitVec 16) (c : Option Capture) : (s.countSource src n d c).fresh = s.fresh := by obtain ⟨_, _, h⟩ := s.countSource_eq src n d c; rw [h]
@[simp] theorem State.countSource_pending (s : State) (src n : Nat) (d : BitVec 16) (c : Option Capture) : (s.countSource src n d c).pending = s.pending := by obtain ⟨_, _, h⟩ := s.countSource_eq src n d c; rw [h]

theorem State.raise_eq (s : State) (src st : Nat) (d : BitVec 16) (p : Nat) (c : Option Capture) : ∃ x0 x1, s.raise src st d p c = { s with regs := x0 , col := x1 } := by
  unfold State.raise
  dsimp only
  split
  · exact s.countSource_eq _ _ _ _
  · have key : ∀ cc ev, ∃ r k, (s.countSource src 1 d cc).present ev = { s with regs := r, col := k } := by
      intro cc ev
      obtain ⟨r, k, h⟩ := s.countSource_eq src 1 d cc
      exact ⟨r, _, by rw [h]; rfl⟩
    exact key _ _

@[simp] theorem State.raise_time (s : State) (src st : Nat) (d : BitVec 16) (p : Nat) (c : Option Capture) : (s.raise src st d p c).time = s.time := by obtain ⟨_, _, h⟩ := s.raise_eq src st d p c; rw [h]
@[simp] theorem State.raise_noc (s : State) (src st : Nat) (d : BitVec 16) (p : Nat) (c : Option Capture) : (s.raise src st d p c).noc = s.noc := by obtain ⟨_, _, h⟩ := s.raise_eq src st d p c; rw [h]
@[simp] theorem State.raise_sq (s : State) (src st : Nat) (d : BitVec 16) (p : Nat) (c : Option Capture) : (s.raise src st d p c).sq = s.sq := by obtain ⟨_, _, h⟩ := s.raise_eq src st d p c; rw [h]
@[simp] theorem State.raise_pwr (s : State) (src st : Nat) (d : BitVec 16) (p : Nat) (c : Option Capture) : (s.raise src st d p c).pwr = s.pwr := by obtain ⟨_, _, h⟩ := s.raise_eq src st d p c; rw [h]
@[simp] theorem State.raise_led (s : State) (src st : Nat) (d : BitVec 16) (p : Nat) (c : Option Capture) : (s.raise src st d p c).led = s.led := by obtain ⟨_, _, h⟩ := s.raise_eq src st d p c; rw [h]
@[simp] theorem State.raise_tri (s : State) (src st : Nat) (d : BitVec 16) (p : Nat) (c : Option Capture) : (s.raise src st d p c).tri = s.tri := by obtain ⟨_, _, h⟩ := s.raise_eq src st d p c; rw [h]
@[simp] theorem State.raise_dom (s : State) (src st : Nat) (d : BitVec 16) (p : Nat) (c : Option Capture) : (s.raise src st d p c).dom = s.dom := by obtain ⟨_, _, h⟩ := s.raise_eq src st d p c; rw [h]
@[simp] theorem State.raise_rte (s : State) (src st : Nat) (d : BitVec 16) (p : Nat) (c : Option Capture) : (s.raise src st d p c).rte = s.rte := by obtain ⟨_, _, h⟩ := s.raise_eq src st d p c; rw [h]
@[simp] theorem State.raise_sch (s : State) (src st : Nat) (d : BitVec 16) (p : Nat) (c : Option Capture) : (s.raise src st d p c).sch = s.sch := by obtain ⟨_, _, h⟩ := s.raise_eq src st d p c; rw [h]
@[simp] theorem State.raise_grp (s : State) (src st : Nat) (d : BitVec 16) (p : Nat) (c : Option Capture) : (s.raise src st d p c).grp = s.grp := by obtain ⟨_, _, h⟩ := s.raise_eq src st d p c; rw [h]
@[simp] theorem State.raise_plc (s : State) (src st : Nat) (d : BitVec 16) (p : Nat) (c : Option Capture) : (s.raise src st d p c).plc = s.plc := by obtain ⟨_, _, h⟩ := s.raise_eq src st d p c; rw [h]
@[simp] theorem State.raise_sec (s : State) (src st : Nat) (d : BitVec 16) (p : Nat) (c : Option Capture) : (s.raise src st d p c).sec = s.sec := by obtain ⟨_, _, h⟩ := s.raise_eq src st d p c; rw [h]
@[simp] theorem State.raise_engines (s : State) (src st : Nat) (d : BitVec 16) (p : Nat) (c : Option Capture) : (s.raise src st d p c).engines = s.engines := by obtain ⟨_, _, h⟩ := s.raise_eq src st d p c; rw [h]
@[simp] theorem State.raise_programs (s : State) (src st : Nat) (d : BitVec 16) (p : Nat) (c : Option Capture) : (s.raise src st d p c).programs = s.programs := by obtain ⟨_, _, h⟩ := s.raise_eq src st d p c; rw [h]
@[simp] theorem State.raise_queues (s : State) (src st : Nat) (d : BitVec 16) (p : Nat) (c : Option Capture) : (s.raise src st d p c).queues = s.queues := by obtain ⟨_, _, h⟩ := s.raise_eq src st d p c; rw [h]
@[simp] theorem State.raise_turn (s : State) (src st : Nat) (d : BitVec 16) (p : Nat) (c : Option Capture) : (s.raise src st d p c).turn = s.turn := by obtain ⟨_, _, h⟩ := s.raise_eq src st d p c; rw [h]
@[simp] theorem State.raise_sets (s : State) (src st : Nat) (d : BitVec 16) (p : Nat) (c : Option Capture) : (s.raise src st d p c).sets = s.sets := by obtain ⟨_, _, h⟩ := s.raise_eq src st d p c; rw [h]
@[simp] theorem State.raise_store (s : State) (src st : Nat) (d : BitVec 16) (p : Nat) (c : Option Capture) : (s.raise src st d p c).store = s.store := by obtain ⟨_, _, h⟩ := s.raise_eq src st d p c; rw [h]
@[simp] theorem State.raise_hbm (s : State) (src st : Nat) (d : BitVec 16) (p : Nat) (c : Option Capture) : (s.raise src st d p c).hbm = s.hbm := by obtain ⟨_, _, h⟩ := s.raise_eq src st d p c; rw [h]
@[simp] theorem State.raise_spill (s : State) (src st : Nat) (d : BitVec 16) (p : Nat) (c : Option Capture) : (s.raise src st d p c).spill = s.spill := by obtain ⟨_, _, h⟩ := s.raise_eq src st d p c; rw [h]
@[simp] theorem State.raise_ports (s : State) (src st : Nat) (d : BitVec 16) (p : Nat) (c : Option Capture) : (s.raise src st d p c).ports = s.ports := by obtain ⟨_, _, h⟩ := s.raise_eq src st d p c; rw [h]
@[simp] theorem State.raise_streams (s : State) (src st : Nat) (d : BitVec 16) (p : Nat) (c : Option Capture) : (s.raise src st d p c).streams = s.streams := by obtain ⟨_, _, h⟩ := s.raise_eq src st d p c; rw [h]
@[simp] theorem State.raise_hooks (s : State) (src st : Nat) (d : BitVec 16) (p : Nat) (c : Option Capture) : (s.raise src st d p c).hooks = s.hooks := by obtain ⟨_, _, h⟩ := s.raise_eq src st d p c; rw [h]
@[simp] theorem State.raise_agents (s : State) (src st : Nat) (d : BitVec 16) (p : Nat) (c : Option Capture) : (s.raise src st d p c).agents = s.agents := by obtain ⟨_, _, h⟩ := s.raise_eq src st d p c; rw [h]
@[simp] theorem State.raise_lapses (s : State) (src st : Nat) (d : BitVec 16) (p : Nat) (c : Option Capture) : (s.raise src st d p c).lapses = s.lapses := by obtain ⟨_, _, h⟩ := s.raise_eq src st d p c; rw [h]
@[simp] theorem State.raise_out (s : State) (src st : Nat) (d : BitVec 16) (p : Nat) (c : Option Capture) : (s.raise src st d p c).out = s.out := by obtain ⟨_, _, h⟩ := s.raise_eq src st d p c; rw [h]
@[simp] theorem State.raise_fresh (s : State) (src st : Nat) (d : BitVec 16) (p : Nat) (c : Option Capture) : (s.raise src st d p c).fresh = s.fresh := by obtain ⟨_, _, h⟩ := s.raise_eq src st d p c; rw [h]
@[simp] theorem State.raise_pending (s : State) (src st : Nat) (d : BitVec 16) (p : Nat) (c : Option Capture) : (s.raise src st d p c).pending = s.pending := by obtain ⟨_, _, h⟩ := s.raise_eq src st d p c; rw [h]

@[simp] theorem State.violation_time (s : State) (l : Level) : (s.violation l).time = s.time := by cases l <;> rfl
@[simp] theorem State.violation_noc (s : State) (l : Level) : (s.violation l).noc = s.noc := by cases l <;> rfl
@[simp] theorem State.violation_sq (s : State) (l : Level) : (s.violation l).sq = s.sq := by cases l <;> rfl
@[simp] theorem State.violation_pwr (s : State) (l : Level) : (s.violation l).pwr = s.pwr := by cases l <;> rfl
@[simp] theorem State.violation_col (s : State) (l : Level) : (s.violation l).col = s.col := by cases l <;> rfl
@[simp] theorem State.violation_led (s : State) (l : Level) : (s.violation l).led = s.led := by cases l <;> rfl
@[simp] theorem State.violation_tri (s : State) (l : Level) : (s.violation l).tri = s.tri := by cases l <;> rfl
@[simp] theorem State.violation_dom (s : State) (l : Level) : (s.violation l).dom = s.dom := by cases l <;> rfl
@[simp] theorem State.violation_rte (s : State) (l : Level) : (s.violation l).rte = s.rte := by cases l <;> rfl
@[simp] theorem State.violation_sch (s : State) (l : Level) : (s.violation l).sch = s.sch := by cases l <;> rfl
@[simp] theorem State.violation_grp (s : State) (l : Level) : (s.violation l).grp = s.grp := by cases l <;> rfl
@[simp] theorem State.violation_plc (s : State) (l : Level) : (s.violation l).plc = s.plc := by cases l <;> rfl
@[simp] theorem State.violation_sec (s : State) (l : Level) : (s.violation l).sec = s.sec := by cases l <;> rfl
@[simp] theorem State.violation_engines (s : State) (l : Level) : (s.violation l).engines = s.engines := by cases l <;> rfl
@[simp] theorem State.violation_programs (s : State) (l : Level) : (s.violation l).programs = s.programs := by cases l <;> rfl
@[simp] theorem State.violation_queues (s : State) (l : Level) : (s.violation l).queues = s.queues := by cases l <;> rfl
@[simp] theorem State.violation_turn (s : State) (l : Level) : (s.violation l).turn = s.turn := by cases l <;> rfl
@[simp] theorem State.violation_sets (s : State) (l : Level) : (s.violation l).sets = s.sets := by cases l <;> rfl
@[simp] theorem State.violation_store (s : State) (l : Level) : (s.violation l).store = s.store := by cases l <;> rfl
@[simp] theorem State.violation_hbm (s : State) (l : Level) : (s.violation l).hbm = s.hbm := by cases l <;> rfl
@[simp] theorem State.violation_spill (s : State) (l : Level) : (s.violation l).spill = s.spill := by cases l <;> rfl
@[simp] theorem State.violation_ports (s : State) (l : Level) : (s.violation l).ports = s.ports := by cases l <;> rfl
@[simp] theorem State.violation_streams (s : State) (l : Level) : (s.violation l).streams = s.streams := by cases l <;> rfl
@[simp] theorem State.violation_hooks (s : State) (l : Level) : (s.violation l).hooks = s.hooks := by cases l <;> rfl
@[simp] theorem State.violation_agents (s : State) (l : Level) : (s.violation l).agents = s.agents := by cases l <;> rfl
@[simp] theorem State.violation_lapses (s : State) (l : Level) : (s.violation l).lapses = s.lapses := by cases l <;> rfl
@[simp] theorem State.violation_out (s : State) (l : Level) : (s.violation l).out = s.out := by cases l <;> rfl
@[simp] theorem State.violation_fresh (s : State) (l : Level) : (s.violation l).fresh = s.fresh := by cases l <;> rfl
@[simp] theorem State.violation_pending (s : State) (l : Level) : (s.violation l).pending = s.pending := by cases l <;> rfl

@[simp] theorem State.countViolation_time (s : State) (l : Level) : (s.countViolation l).time = s.time := by cases l <;> rfl
@[simp] theorem State.countViolation_noc (s : State) (l : Level) : (s.countViolation l).noc = s.noc := by cases l <;> rfl
@[simp] theorem State.countViolation_sq (s : State) (l : Level) : (s.countViolation l).sq = s.sq := by cases l <;> rfl
@[simp] theorem State.countViolation_pwr (s : State) (l : Level) : (s.countViolation l).pwr = s.pwr := by cases l <;> rfl
@[simp] theorem State.countViolation_col (s : State) (l : Level) : (s.countViolation l).col = s.col := by cases l <;> rfl
@[simp] theorem State.countViolation_led (s : State) (l : Level) : (s.countViolation l).led = s.led := by cases l <;> rfl
@[simp] theorem State.countViolation_tri (s : State) (l : Level) : (s.countViolation l).tri = s.tri := by cases l <;> rfl
@[simp] theorem State.countViolation_dom (s : State) (l : Level) : (s.countViolation l).dom = s.dom := by cases l <;> rfl
@[simp] theorem State.countViolation_rte (s : State) (l : Level) : (s.countViolation l).rte = s.rte := by cases l <;> rfl
@[simp] theorem State.countViolation_sch (s : State) (l : Level) : (s.countViolation l).sch = s.sch := by cases l <;> rfl
@[simp] theorem State.countViolation_grp (s : State) (l : Level) : (s.countViolation l).grp = s.grp := by cases l <;> rfl
@[simp] theorem State.countViolation_plc (s : State) (l : Level) : (s.countViolation l).plc = s.plc := by cases l <;> rfl
@[simp] theorem State.countViolation_sec (s : State) (l : Level) : (s.countViolation l).sec = s.sec := by cases l <;> rfl
@[simp] theorem State.countViolation_engines (s : State) (l : Level) : (s.countViolation l).engines = s.engines := by cases l <;> rfl
@[simp] theorem State.countViolation_programs (s : State) (l : Level) : (s.countViolation l).programs = s.programs := by cases l <;> rfl
@[simp] theorem State.countViolation_queues (s : State) (l : Level) : (s.countViolation l).queues = s.queues := by cases l <;> rfl
@[simp] theorem State.countViolation_turn (s : State) (l : Level) : (s.countViolation l).turn = s.turn := by cases l <;> rfl
@[simp] theorem State.countViolation_sets (s : State) (l : Level) : (s.countViolation l).sets = s.sets := by cases l <;> rfl
@[simp] theorem State.countViolation_store (s : State) (l : Level) : (s.countViolation l).store = s.store := by cases l <;> rfl
@[simp] theorem State.countViolation_hbm (s : State) (l : Level) : (s.countViolation l).hbm = s.hbm := by cases l <;> rfl
@[simp] theorem State.countViolation_spill (s : State) (l : Level) : (s.countViolation l).spill = s.spill := by cases l <;> rfl
@[simp] theorem State.countViolation_ports (s : State) (l : Level) : (s.countViolation l).ports = s.ports := by cases l <;> rfl
@[simp] theorem State.countViolation_streams (s : State) (l : Level) : (s.countViolation l).streams = s.streams := by cases l <;> rfl
@[simp] theorem State.countViolation_hooks (s : State) (l : Level) : (s.countViolation l).hooks = s.hooks := by cases l <;> rfl
@[simp] theorem State.countViolation_agents (s : State) (l : Level) : (s.countViolation l).agents = s.agents := by cases l <;> rfl
@[simp] theorem State.countViolation_lapses (s : State) (l : Level) : (s.countViolation l).lapses = s.lapses := by cases l <;> rfl
@[simp] theorem State.countViolation_out (s : State) (l : Level) : (s.countViolation l).out = s.out := by cases l <;> rfl
@[simp] theorem State.countViolation_fresh (s : State) (l : Level) : (s.countViolation l).fresh = s.fresh := by cases l <;> rfl
@[simp] theorem State.countViolation_pending (s : State) (l : Level) : (s.countViolation l).pending = s.pending := by cases l <;> rfl

theorem State.lapseRecord_eq (s : State) (d : BitVec 16) (x : Nat) : ∃ x0 x1, s.lapseRecord d x = { s with regs := x0 , col := x1 } := by
  unfold State.lapseRecord
  dsimp only
  split
  · exact s.countSource_eq _ _ _ _
  · obtain ⟨r, k, h⟩ := s.countSource_eq 7 1 d none
    exact ⟨r, _, by rw [h]; rfl⟩

@[simp] theorem State.lapseRecord_time (s : State) (d : BitVec 16) (x : Nat) : (s.lapseRecord d x).time = s.time := by obtain ⟨_, _, h⟩ := s.lapseRecord_eq d x; rw [h]
@[simp] theorem State.lapseRecord_noc (s : State) (d : BitVec 16) (x : Nat) : (s.lapseRecord d x).noc = s.noc := by obtain ⟨_, _, h⟩ := s.lapseRecord_eq d x; rw [h]
@[simp] theorem State.lapseRecord_sq (s : State) (d : BitVec 16) (x : Nat) : (s.lapseRecord d x).sq = s.sq := by obtain ⟨_, _, h⟩ := s.lapseRecord_eq d x; rw [h]
@[simp] theorem State.lapseRecord_pwr (s : State) (d : BitVec 16) (x : Nat) : (s.lapseRecord d x).pwr = s.pwr := by obtain ⟨_, _, h⟩ := s.lapseRecord_eq d x; rw [h]
@[simp] theorem State.lapseRecord_led (s : State) (d : BitVec 16) (x : Nat) : (s.lapseRecord d x).led = s.led := by obtain ⟨_, _, h⟩ := s.lapseRecord_eq d x; rw [h]
@[simp] theorem State.lapseRecord_tri (s : State) (d : BitVec 16) (x : Nat) : (s.lapseRecord d x).tri = s.tri := by obtain ⟨_, _, h⟩ := s.lapseRecord_eq d x; rw [h]
@[simp] theorem State.lapseRecord_dom (s : State) (d : BitVec 16) (x : Nat) : (s.lapseRecord d x).dom = s.dom := by obtain ⟨_, _, h⟩ := s.lapseRecord_eq d x; rw [h]
@[simp] theorem State.lapseRecord_rte (s : State) (d : BitVec 16) (x : Nat) : (s.lapseRecord d x).rte = s.rte := by obtain ⟨_, _, h⟩ := s.lapseRecord_eq d x; rw [h]
@[simp] theorem State.lapseRecord_sch (s : State) (d : BitVec 16) (x : Nat) : (s.lapseRecord d x).sch = s.sch := by obtain ⟨_, _, h⟩ := s.lapseRecord_eq d x; rw [h]
@[simp] theorem State.lapseRecord_grp (s : State) (d : BitVec 16) (x : Nat) : (s.lapseRecord d x).grp = s.grp := by obtain ⟨_, _, h⟩ := s.lapseRecord_eq d x; rw [h]
@[simp] theorem State.lapseRecord_plc (s : State) (d : BitVec 16) (x : Nat) : (s.lapseRecord d x).plc = s.plc := by obtain ⟨_, _, h⟩ := s.lapseRecord_eq d x; rw [h]
@[simp] theorem State.lapseRecord_sec (s : State) (d : BitVec 16) (x : Nat) : (s.lapseRecord d x).sec = s.sec := by obtain ⟨_, _, h⟩ := s.lapseRecord_eq d x; rw [h]
@[simp] theorem State.lapseRecord_engines (s : State) (d : BitVec 16) (x : Nat) : (s.lapseRecord d x).engines = s.engines := by obtain ⟨_, _, h⟩ := s.lapseRecord_eq d x; rw [h]
@[simp] theorem State.lapseRecord_programs (s : State) (d : BitVec 16) (x : Nat) : (s.lapseRecord d x).programs = s.programs := by obtain ⟨_, _, h⟩ := s.lapseRecord_eq d x; rw [h]
@[simp] theorem State.lapseRecord_queues (s : State) (d : BitVec 16) (x : Nat) : (s.lapseRecord d x).queues = s.queues := by obtain ⟨_, _, h⟩ := s.lapseRecord_eq d x; rw [h]
@[simp] theorem State.lapseRecord_turn (s : State) (d : BitVec 16) (x : Nat) : (s.lapseRecord d x).turn = s.turn := by obtain ⟨_, _, h⟩ := s.lapseRecord_eq d x; rw [h]
@[simp] theorem State.lapseRecord_sets (s : State) (d : BitVec 16) (x : Nat) : (s.lapseRecord d x).sets = s.sets := by obtain ⟨_, _, h⟩ := s.lapseRecord_eq d x; rw [h]
@[simp] theorem State.lapseRecord_store (s : State) (d : BitVec 16) (x : Nat) : (s.lapseRecord d x).store = s.store := by obtain ⟨_, _, h⟩ := s.lapseRecord_eq d x; rw [h]
@[simp] theorem State.lapseRecord_hbm (s : State) (d : BitVec 16) (x : Nat) : (s.lapseRecord d x).hbm = s.hbm := by obtain ⟨_, _, h⟩ := s.lapseRecord_eq d x; rw [h]
@[simp] theorem State.lapseRecord_spill (s : State) (d : BitVec 16) (x : Nat) : (s.lapseRecord d x).spill = s.spill := by obtain ⟨_, _, h⟩ := s.lapseRecord_eq d x; rw [h]
@[simp] theorem State.lapseRecord_ports (s : State) (d : BitVec 16) (x : Nat) : (s.lapseRecord d x).ports = s.ports := by obtain ⟨_, _, h⟩ := s.lapseRecord_eq d x; rw [h]
@[simp] theorem State.lapseRecord_streams (s : State) (d : BitVec 16) (x : Nat) : (s.lapseRecord d x).streams = s.streams := by obtain ⟨_, _, h⟩ := s.lapseRecord_eq d x; rw [h]
@[simp] theorem State.lapseRecord_hooks (s : State) (d : BitVec 16) (x : Nat) : (s.lapseRecord d x).hooks = s.hooks := by obtain ⟨_, _, h⟩ := s.lapseRecord_eq d x; rw [h]
@[simp] theorem State.lapseRecord_agents (s : State) (d : BitVec 16) (x : Nat) : (s.lapseRecord d x).agents = s.agents := by obtain ⟨_, _, h⟩ := s.lapseRecord_eq d x; rw [h]
@[simp] theorem State.lapseRecord_lapses (s : State) (d : BitVec 16) (x : Nat) : (s.lapseRecord d x).lapses = s.lapses := by obtain ⟨_, _, h⟩ := s.lapseRecord_eq d x; rw [h]
@[simp] theorem State.lapseRecord_out (s : State) (d : BitVec 16) (x : Nat) : (s.lapseRecord d x).out = s.out := by obtain ⟨_, _, h⟩ := s.lapseRecord_eq d x; rw [h]
@[simp] theorem State.lapseRecord_fresh (s : State) (d : BitVec 16) (x : Nat) : (s.lapseRecord d x).fresh = s.fresh := by obtain ⟨_, _, h⟩ := s.lapseRecord_eq d x; rw [h]
@[simp] theorem State.lapseRecord_pending (s : State) (d : BitVec 16) (x : Nat) : (s.lapseRecord d x).pending = s.pending := by obtain ⟨_, _, h⟩ := s.lapseRecord_eq d x; rw [h]

theorem State.lapse_eq (s : State) (c x : Nat) : ∃ x0 x1 x2, s.lapse c x = { s with regs := x0 , col := x1 , lapses := x2 } := by
  unfold State.lapse
  split
  · exact ⟨_, _, _, rfl⟩
  · obtain ⟨r, k, h⟩ := State.lapseRecord_eq { s with lapses := s.lapses ++ [(c, x)] } (BitVec.ofNat 16 c) x
    exact ⟨r, k, _, h⟩

@[simp] theorem State.lapse_time (s : State) (c x : Nat) : (s.lapse c x).time = s.time := by obtain ⟨_, _, _, h⟩ := s.lapse_eq c x; rw [h]
@[simp] theorem State.lapse_noc (s : State) (c x : Nat) : (s.lapse c x).noc = s.noc := by obtain ⟨_, _, _, h⟩ := s.lapse_eq c x; rw [h]
@[simp] theorem State.lapse_sq (s : State) (c x : Nat) : (s.lapse c x).sq = s.sq := by obtain ⟨_, _, _, h⟩ := s.lapse_eq c x; rw [h]
@[simp] theorem State.lapse_pwr (s : State) (c x : Nat) : (s.lapse c x).pwr = s.pwr := by obtain ⟨_, _, _, h⟩ := s.lapse_eq c x; rw [h]
@[simp] theorem State.lapse_led (s : State) (c x : Nat) : (s.lapse c x).led = s.led := by obtain ⟨_, _, _, h⟩ := s.lapse_eq c x; rw [h]
@[simp] theorem State.lapse_tri (s : State) (c x : Nat) : (s.lapse c x).tri = s.tri := by obtain ⟨_, _, _, h⟩ := s.lapse_eq c x; rw [h]
@[simp] theorem State.lapse_dom (s : State) (c x : Nat) : (s.lapse c x).dom = s.dom := by obtain ⟨_, _, _, h⟩ := s.lapse_eq c x; rw [h]
@[simp] theorem State.lapse_rte (s : State) (c x : Nat) : (s.lapse c x).rte = s.rte := by obtain ⟨_, _, _, h⟩ := s.lapse_eq c x; rw [h]
@[simp] theorem State.lapse_sch (s : State) (c x : Nat) : (s.lapse c x).sch = s.sch := by obtain ⟨_, _, _, h⟩ := s.lapse_eq c x; rw [h]
@[simp] theorem State.lapse_grp (s : State) (c x : Nat) : (s.lapse c x).grp = s.grp := by obtain ⟨_, _, _, h⟩ := s.lapse_eq c x; rw [h]
@[simp] theorem State.lapse_plc (s : State) (c x : Nat) : (s.lapse c x).plc = s.plc := by obtain ⟨_, _, _, h⟩ := s.lapse_eq c x; rw [h]
@[simp] theorem State.lapse_sec (s : State) (c x : Nat) : (s.lapse c x).sec = s.sec := by obtain ⟨_, _, _, h⟩ := s.lapse_eq c x; rw [h]
@[simp] theorem State.lapse_engines (s : State) (c x : Nat) : (s.lapse c x).engines = s.engines := by obtain ⟨_, _, _, h⟩ := s.lapse_eq c x; rw [h]
@[simp] theorem State.lapse_programs (s : State) (c x : Nat) : (s.lapse c x).programs = s.programs := by obtain ⟨_, _, _, h⟩ := s.lapse_eq c x; rw [h]
@[simp] theorem State.lapse_queues (s : State) (c x : Nat) : (s.lapse c x).queues = s.queues := by obtain ⟨_, _, _, h⟩ := s.lapse_eq c x; rw [h]
@[simp] theorem State.lapse_turn (s : State) (c x : Nat) : (s.lapse c x).turn = s.turn := by obtain ⟨_, _, _, h⟩ := s.lapse_eq c x; rw [h]
@[simp] theorem State.lapse_sets (s : State) (c x : Nat) : (s.lapse c x).sets = s.sets := by obtain ⟨_, _, _, h⟩ := s.lapse_eq c x; rw [h]
@[simp] theorem State.lapse_store (s : State) (c x : Nat) : (s.lapse c x).store = s.store := by obtain ⟨_, _, _, h⟩ := s.lapse_eq c x; rw [h]
@[simp] theorem State.lapse_hbm (s : State) (c x : Nat) : (s.lapse c x).hbm = s.hbm := by obtain ⟨_, _, _, h⟩ := s.lapse_eq c x; rw [h]
@[simp] theorem State.lapse_spill (s : State) (c x : Nat) : (s.lapse c x).spill = s.spill := by obtain ⟨_, _, _, h⟩ := s.lapse_eq c x; rw [h]
@[simp] theorem State.lapse_ports (s : State) (c x : Nat) : (s.lapse c x).ports = s.ports := by obtain ⟨_, _, _, h⟩ := s.lapse_eq c x; rw [h]
@[simp] theorem State.lapse_streams (s : State) (c x : Nat) : (s.lapse c x).streams = s.streams := by obtain ⟨_, _, _, h⟩ := s.lapse_eq c x; rw [h]
@[simp] theorem State.lapse_hooks (s : State) (c x : Nat) : (s.lapse c x).hooks = s.hooks := by obtain ⟨_, _, _, h⟩ := s.lapse_eq c x; rw [h]
@[simp] theorem State.lapse_agents (s : State) (c x : Nat) : (s.lapse c x).agents = s.agents := by obtain ⟨_, _, _, h⟩ := s.lapse_eq c x; rw [h]
@[simp] theorem State.lapse_out (s : State) (c x : Nat) : (s.lapse c x).out = s.out := by obtain ⟨_, _, _, h⟩ := s.lapse_eq c x; rw [h]
@[simp] theorem State.lapse_fresh (s : State) (c x : Nat) : (s.lapse c x).fresh = s.fresh := by obtain ⟨_, _, _, h⟩ := s.lapse_eq c x; rw [h]
@[simp] theorem State.lapse_pending (s : State) (c x : Nat) : (s.lapse c x).pending = s.pending := by obtain ⟨_, _, _, h⟩ := s.lapse_eq c x; rw [h]

theorem State.restore_eq (s : State) (c x : Nat) : ∃ x0 x1 x2, s.restore c x = { s with regs := x0 , col := x1 , lapses := x2 } := by
  unfold State.restore
  split
  · obtain ⟨r, k, h⟩ := State.lapseRecord_eq { s with lapses := removeFirst (· == (c, x)) s.lapses } (BitVec.ofNat 16 (c + 0x8000)) x
    exact ⟨r, k, _, h⟩
  · exact ⟨_, _, _, rfl⟩

@[simp] theorem State.restore_time (s : State) (c x : Nat) : (s.restore c x).time = s.time := by obtain ⟨_, _, _, h⟩ := s.restore_eq c x; rw [h]
@[simp] theorem State.restore_noc (s : State) (c x : Nat) : (s.restore c x).noc = s.noc := by obtain ⟨_, _, _, h⟩ := s.restore_eq c x; rw [h]
@[simp] theorem State.restore_sq (s : State) (c x : Nat) : (s.restore c x).sq = s.sq := by obtain ⟨_, _, _, h⟩ := s.restore_eq c x; rw [h]
@[simp] theorem State.restore_pwr (s : State) (c x : Nat) : (s.restore c x).pwr = s.pwr := by obtain ⟨_, _, _, h⟩ := s.restore_eq c x; rw [h]
@[simp] theorem State.restore_led (s : State) (c x : Nat) : (s.restore c x).led = s.led := by obtain ⟨_, _, _, h⟩ := s.restore_eq c x; rw [h]
@[simp] theorem State.restore_tri (s : State) (c x : Nat) : (s.restore c x).tri = s.tri := by obtain ⟨_, _, _, h⟩ := s.restore_eq c x; rw [h]
@[simp] theorem State.restore_dom (s : State) (c x : Nat) : (s.restore c x).dom = s.dom := by obtain ⟨_, _, _, h⟩ := s.restore_eq c x; rw [h]
@[simp] theorem State.restore_rte (s : State) (c x : Nat) : (s.restore c x).rte = s.rte := by obtain ⟨_, _, _, h⟩ := s.restore_eq c x; rw [h]
@[simp] theorem State.restore_sch (s : State) (c x : Nat) : (s.restore c x).sch = s.sch := by obtain ⟨_, _, _, h⟩ := s.restore_eq c x; rw [h]
@[simp] theorem State.restore_grp (s : State) (c x : Nat) : (s.restore c x).grp = s.grp := by obtain ⟨_, _, _, h⟩ := s.restore_eq c x; rw [h]
@[simp] theorem State.restore_plc (s : State) (c x : Nat) : (s.restore c x).plc = s.plc := by obtain ⟨_, _, _, h⟩ := s.restore_eq c x; rw [h]
@[simp] theorem State.restore_sec (s : State) (c x : Nat) : (s.restore c x).sec = s.sec := by obtain ⟨_, _, _, h⟩ := s.restore_eq c x; rw [h]
@[simp] theorem State.restore_engines (s : State) (c x : Nat) : (s.restore c x).engines = s.engines := by obtain ⟨_, _, _, h⟩ := s.restore_eq c x; rw [h]
@[simp] theorem State.restore_programs (s : State) (c x : Nat) : (s.restore c x).programs = s.programs := by obtain ⟨_, _, _, h⟩ := s.restore_eq c x; rw [h]
@[simp] theorem State.restore_queues (s : State) (c x : Nat) : (s.restore c x).queues = s.queues := by obtain ⟨_, _, _, h⟩ := s.restore_eq c x; rw [h]
@[simp] theorem State.restore_turn (s : State) (c x : Nat) : (s.restore c x).turn = s.turn := by obtain ⟨_, _, _, h⟩ := s.restore_eq c x; rw [h]
@[simp] theorem State.restore_sets (s : State) (c x : Nat) : (s.restore c x).sets = s.sets := by obtain ⟨_, _, _, h⟩ := s.restore_eq c x; rw [h]
@[simp] theorem State.restore_store (s : State) (c x : Nat) : (s.restore c x).store = s.store := by obtain ⟨_, _, _, h⟩ := s.restore_eq c x; rw [h]
@[simp] theorem State.restore_hbm (s : State) (c x : Nat) : (s.restore c x).hbm = s.hbm := by obtain ⟨_, _, _, h⟩ := s.restore_eq c x; rw [h]
@[simp] theorem State.restore_spill (s : State) (c x : Nat) : (s.restore c x).spill = s.spill := by obtain ⟨_, _, _, h⟩ := s.restore_eq c x; rw [h]
@[simp] theorem State.restore_ports (s : State) (c x : Nat) : (s.restore c x).ports = s.ports := by obtain ⟨_, _, _, h⟩ := s.restore_eq c x; rw [h]
@[simp] theorem State.restore_streams (s : State) (c x : Nat) : (s.restore c x).streams = s.streams := by obtain ⟨_, _, _, h⟩ := s.restore_eq c x; rw [h]
@[simp] theorem State.restore_hooks (s : State) (c x : Nat) : (s.restore c x).hooks = s.hooks := by obtain ⟨_, _, _, h⟩ := s.restore_eq c x; rw [h]
@[simp] theorem State.restore_agents (s : State) (c x : Nat) : (s.restore c x).agents = s.agents := by obtain ⟨_, _, _, h⟩ := s.restore_eq c x; rw [h]
@[simp] theorem State.restore_out (s : State) (c x : Nat) : (s.restore c x).out = s.out := by obtain ⟨_, _, _, h⟩ := s.restore_eq c x; rw [h]
@[simp] theorem State.restore_fresh (s : State) (c x : Nat) : (s.restore c x).fresh = s.fresh := by obtain ⟨_, _, _, h⟩ := s.restore_eq c x; rw [h]
@[simp] theorem State.restore_pending (s : State) (c x : Nat) : (s.restore c x).pending = s.pending := by obtain ⟨_, _, _, h⟩ := s.restore_eq c x; rw [h]

end Sys2Proof.Machine
end

