-- ==== Sys2Proof/Laws/Accept.lean ====
section
/-! SUPPORT. Laws of arrival and of the start of a command: what each check of a packet or of a command comes to. -/

namespace Sys2Proof.Machine

variable {s : State} {n : Node} {a : AgentRef} {p : Packet}

/-! ## Packets that are acknowledged (R104, R105, R108) -/

/-- A packet that arrives whole and for the first time has its effect and completes, or is refused with the body's reason. -/
theorem State.accept_fresh (h : s.freshPacket n p) (body : State → State × Option Nat) :
    s.accept n p body = match body s with
      | (t, none) => t.acked n p
      | (t, some r) => t.nakPkt n p.hdr r := by
  obtain ⟨h1, h2, h3⟩ := h
  simp [State.accept, h1, h2, h3] <;> rfl

/-- An effect that is never refused leaves the packet complete. -/
theorem State.accept_taken {t : State} {body : State → State × Option Nat} (h : s.freshPacket n p) (hb : body s = (t, none)) :
    s.accept n p body = t.acked n p := by rw [State.accept_fresh h, hb]

/-- An effect that is refused with a reason. -/
theorem State.accept_refused {t : State} {r : Nat} {body : State → State × Option Nat} (h : s.freshPacket n p) (hb : body s = (t, some r)) :
    s.accept n p body = t.nakPkt n p.hdr r := by rw [State.accept_fresh h, hb]

/-- A packet whose CRC does not match has no effect and is refused with reason 0x01. -/
theorem State.accept_bad (h : p.crcOk = false) (body : State → State × Option Nat) : s.accept n p body = s.nakPkt n p.hdr 0x01 := by
  simp [State.accept, h]

/-- A copy of a packet is answered again without a second effect. -/
theorem State.accept_copy (h : p.crcOk = true) (hd : s.isDup n p.hdr = true) (body : State → State × Option Nat) :
    s.accept n p body = s.again n p.hdr := by simp [State.accept, h, hd]

/-- A flagged packet that finds no completion left is refused with reason 0x07 (R111). -/
theorem State.accept_full (h : p.crcOk = true) (hd : s.isDup n p.hdr = false) (hf : s.orderFull n p.hdr = true)
    (body : State → State × Option Nat) : s.accept n p body = s.nakPkt n p.hdr 0x07 := by simp [State.accept, h, hd, hf]

/-- A packet that is not acknowledged, and whose CRC matches, has its effect. -/
theorem State.consume_ok (h : p.crcOk = true) (body : State → State) : s.consume n p body = body s := by simp [State.consume, h]

/-! ## Packets of the owner (R58, R61) -/

/-- A packet of the owner at an agent that is not orphaned is taken. -/
theorem State.fromOwner_owner (h : s.ownerPacket a p) (body : State → State) : s.fromOwner a p body = body s := by
  obtain ⟨h1, h2, h3, h4⟩ := h
  simp [State.fromOwner, State.ownerSent, h1, h2, h3]

/-- An orphaned agent takes nothing of its owner. -/
theorem State.fromOwner_orphan (h : s.orphan a = true) (ho : s.ownerSent a p.hdr = true) (body : State → State) :
    s.fromOwner a p body = s := by simp [State.fromOwner, h, ho]

/-- A packet of another source raises the event of source 8. -/
theorem State.fromOwner_other (ho : s.ownerSent a p.hdr = false) (body : State → State) :
    s.fromOwner a p body = s.raiseAgent a 8 2 (p.hdr.src.setWidth 16) := by simp [State.fromOwner, ho]

/-- What the owner's packet is for the checks of arrival. -/
theorem State.ownerPacket.fresh (h : s.ownerPacket a p) : s.freshPacket (.agent a) p := h.2.2.2

/-- The owner's packet, taken and acknowledged or refused. -/
theorem State.fromOwner_accept (h : s.ownerPacket a p) (body : State → State × Option Nat) :
    (s.fromOwner a p fun s => s.accept (.agent a) p body) = match body s with
      | (t, none) => t.acked (.agent a) p
      | (t, some r) => t.nakPkt (.agent a) p.hdr r := by
  rw [State.fromOwner_owner h, State.accept_fresh h.fresh]

/-! ## Packets to memory and rings (R42, R92, R95) -/

/-- A compute domain that is down, or in E-DEEP, refuses with reason 0x02. -/
theorem State.deliverTo_down (hv : a.variant = .e) (h : s.computeUp a = false ∨ (s.agent a).lowPower = 2) (hc : p.hdr.cls ≠ .express)
    (body : State → State × Option Nat) : s.deliverTo a p body = s.nakPkt (.agent a) p.hdr 0x02 := by
  unfold State.deliverTo
  rw [if_pos ⟨hv, by simpa using h⟩, if_neg (by rintro ⟨h, -⟩; exact hc h)]

/-- One that is up goes on to the checks of arrival and of the partition, out of low power. -/
theorem State.deliverTo_up (h : a.variant = .e → s.computeUp a = true ∧ (s.agent a).lowPower ≠ 2) (body : State → State × Option Nat) :
    s.deliverTo a p body = (s.updAgent a fun g => { g with lowPower := 0 }).accept (.agent a) p fun s =>
      if (s.agent a).partition = 0 ∧ p.hdr.partition ≠ 0 then (s, some 0x03) else body s := by
  unfold State.deliverTo
  rw [if_neg]
  rintro ⟨hv, hb⟩
  obtain ⟨h1, h2⟩ := h hv
  rcases hb with hb | hb
  · simp [h1] at hb
  · exact h2 (by simpa using hb)

/-! ## Commands of a queue (R202, R205, R214, R217) -/

variable {q : Nat} {c : Cmd} {ok : Nat → Bool} {lv : Cmd → Level} {body : State → Cmd → State}

/-- A queue without a command that may start starts none. -/
theorem State.startCmd_none (h : nextStart (s.queue q).cmds = none) : s.startCmd q ok lv body = s := by unfold State.startCmd; rw [h]

/-- A command that passes its checks has its effect. -/
theorem State.startCmd_starts {op : Nat} {l : Level} (h : s.starts q c op l) (hok : ok op = true) (hl : lv c = l) :
    s.startCmd q ok lv body = body s c := by
  obtain ⟨h1, h2, h3, h4, h5, h6, h7, h8⟩ := h
  unfold State.startCmd
  rw [h1]
  simp only [h2, hok, h3, hl, h6, h8]
  simp only [Bool.true_eq_false, if_false, Bool.false_eq_true, or_self]
  rw [if_neg (by omega)]
  rw [if_neg (by rintro ⟨ha, hb⟩; simp [h5 ha] at hb), if_neg]
  rintro ⟨ha, hb⟩
  rcases h7 with h | h
  · exact ha h
  · cases hd : c.data <;> simp_all

/-- A command of another opcode is left for its own row. -/
theorem State.startCmd_other (h : nextStart (s.queue q).cmds = some c) (ho : ok c.opcode = false) : s.startCmd q ok lv body = s := by
  unfold State.startCmd; simp [h, ho]

/-- A malformed command completes with reason 0x01. -/
theorem State.startCmd_malformed (h : nextStart (s.queue q).cmds = some c) (ho : ok c.opcode = true) (hw : c.wellFormed = false)
    (hm : s.mirrorBlocks (some 4) = false) : s.startCmd q ok lv body = s.endCmd q c 2 1 := by
  unfold State.startCmd; simp [h, ho, hw, hm]

end Sys2Proof.Machine
end

