-- ==== Sys2Proof/Laws/Fields.lean ====
section
/-! SUPPORT. Laws of register fields: what a field reads after it, or another field of the same register, was set. -/

namespace Sys2Proof.Machine

/-- A field lies within a word. -/
def Field.fits (f : Field) : Prop := f.lo ≤ f.hi ∧ f.hi ≤ 63

/-- Two fields share no bit. -/
def Field.apart (f g : Field) : Prop := f.hi < g.lo ∨ g.hi < f.lo

/-- A number cut at two bit positions. -/
theorem split_field (n lo k : Nat) : n = n / 2 ^ (lo + k) * 2 ^ (lo + k) + n / 2 ^ lo % 2 ^ k * 2 ^ lo + n % 2 ^ lo := by
  have h1 := Nat.div_add_mod n (2 ^ lo)
  have h2 := Nat.div_add_mod (n / 2 ^ lo) (2 ^ k)
  rw [Nat.div_div_eq_div_mul, ← pow_add] at h2
  calc n = 2 ^ lo * (n / 2 ^ lo) + n % 2 ^ lo := h1.symm
    _ = 2 ^ lo * (2 ^ k * (n / 2 ^ (lo + k)) + n / 2 ^ lo % 2 ^ k) + n % 2 ^ lo := by rw [h2]
    _ = _ := by rw [pow_add]; ring

/-- The number a field's replacement leaves. -/
theorem Field.put_toNat {f : Field} (hf : f.fits) (w : Word64) (v : Nat) :
    (f.put w v).toNat = w.toNat / 2 ^ (f.hi + 1) * 2 ^ (f.hi + 1) + v % 2 ^ (f.hi - f.lo + 1) * 2 ^ f.lo + w.toNat % 2 ^ f.lo := by
  obtain ⟨h1, h2⟩ := hf
  have hk : f.lo + (f.hi - f.lo + 1) = f.hi + 1 := by omega
  have hs := split_field w.toNat f.lo (f.hi - f.lo + 1)
  rw [hk] at hs
  have hv : v % 2 ^ (f.hi - f.lo + 1) < 2 ^ (f.hi - f.lo + 1) := Nat.mod_lt _ (by positivity)
  have hl : w.toNat % 2 ^ f.lo < 2 ^ f.lo := Nat.mod_lt _ (by positivity)
  have hh : w.toNat / 2 ^ (f.hi + 1) < 2 ^ (63 - f.hi) := by
    rw [Nat.div_lt_iff_lt_mul (by positivity), ← pow_add]
    have : 63 - f.hi + (f.hi + 1) = 64 := by omega
    rw [this]
    exact w.isLt
  have hlow : v % 2 ^ (f.hi - f.lo + 1) * 2 ^ f.lo + w.toNat % 2 ^ f.lo < 2 ^ (f.hi + 1) := by
    have h3 : (v % 2 ^ (f.hi - f.lo + 1) + 1) * 2 ^ f.lo ≤ 2 ^ (f.hi - f.lo + 1) * 2 ^ f.lo := Nat.mul_le_mul_right _ hv
    rw [← pow_add, Nat.add_comm (f.hi - f.lo + 1) f.lo, hk] at h3
    nlinarith
  have htot : w.toNat / 2 ^ (f.hi + 1) * 2 ^ (f.hi + 1) + (v % 2 ^ (f.hi - f.lo + 1) * 2 ^ f.lo + w.toNat % 2 ^ f.lo) < 2 ^ 64 := by
    have h3 : (w.toNat / 2 ^ (f.hi + 1) + 1) * 2 ^ (f.hi + 1) ≤ 2 ^ (63 - f.hi) * 2 ^ (f.hi + 1) := Nat.mul_le_mul_right _ hh
    rw [← pow_add, show 63 - f.hi + (f.hi + 1) = 64 by omega] at h3
    nlinarith
  have hput : w.toNat - f.of w * 2 ^ f.lo + v % 2 ^ (f.hi - f.lo + 1) * 2 ^ f.lo
      = w.toNat / 2 ^ (f.hi + 1) * 2 ^ (f.hi + 1) + (v % 2 ^ (f.hi - f.lo + 1) * 2 ^ f.lo + w.toNat % 2 ^ f.lo) := by
    unfold Field.of
    omega
  unfold Field.put
  rw [hput, BitVec.toNat_ofNat, Nat.mod_eq_of_lt htot]
  omega

theorem Field.of_put_self {f : Field} (hf : f.fits) (w : Word64) (v : Nat) : f.of (f.put w v) = v % 2 ^ (f.hi - f.lo + 1) := by
  have h := Field.put_toNat hf w v
  obtain ⟨h1, h2⟩ := hf
  unfold Field.of
  rw [h]
  have hl : w.toNat % 2 ^ f.lo < 2 ^ f.lo := Nat.mod_lt _ (by positivity)
  have hk : (2 : Nat) ^ (f.hi + 1) = 2 ^ (f.hi - f.lo + 1) * 2 ^ f.lo := by rw [← pow_add]; congr 1; omega
  rw [hk, show w.toNat / (2 ^ (f.hi - f.lo + 1) * 2 ^ f.lo) * (2 ^ (f.hi - f.lo + 1) * 2 ^ f.lo) + v % 2 ^ (f.hi - f.lo + 1) * 2 ^ f.lo
      + w.toNat % 2 ^ f.lo = (w.toNat / (2 ^ (f.hi - f.lo + 1) * 2 ^ f.lo) * 2 ^ (f.hi - f.lo + 1) + v % 2 ^ (f.hi - f.lo + 1)) * 2 ^ f.lo
      + w.toNat % 2 ^ f.lo by ring]
  rw [Nat.add_comm, Nat.add_mul_div_right _ _ (by positivity), Nat.div_eq_of_lt hl, Nat.zero_add, Nat.add_comm, Nat.add_mul_mod_self_right,
    Nat.mod_mod]

theorem Field.of_put_ne {f g : Field} (hf : f.fits) (hg : g.fits) (ha : f.apart g) (w : Word64) (v : Nat) : g.of (f.put w v) = g.of w := by
  have h := Field.put_toNat hf w v
  have hs := split_field w.toNat f.lo (f.hi - f.lo + 1)
  obtain ⟨h1, h2⟩ := hf
  obtain ⟨h3, h4⟩ := hg
  have hk : f.lo + (f.hi - f.lo + 1) = f.hi + 1 := by omega
  rw [hk] at hs
  have hv : v % 2 ^ (f.hi - f.lo + 1) < 2 ^ (f.hi - f.lo + 1) := Nat.mod_lt _ (by positivity)
  have ho : w.toNat / 2 ^ f.lo % 2 ^ (f.hi - f.lo + 1) < 2 ^ (f.hi - f.lo + 1) := Nat.mod_lt _ (by positivity)
  have hl : w.toNat % 2 ^ f.lo < 2 ^ f.lo := Nat.mod_lt _ (by positivity)
  have low : ∀ x, x < 2 ^ (f.hi - f.lo + 1) → x * 2 ^ f.lo + w.toNat % 2 ^ f.lo < 2 ^ (f.hi + 1) := by
    intro x hx
    have h5 : (x + 1) * 2 ^ f.lo ≤ 2 ^ (f.hi - f.lo + 1) * 2 ^ f.lo := Nat.mul_le_mul_right _ hx
    rw [← pow_add, Nat.add_comm (f.hi - f.lo + 1) f.lo, hk] at h5
    nlinarith
  unfold Field.of
  rw [h]
  rcases ha with ha | ha
  · -- g above f
    have cut : ∀ x, x < 2 ^ (f.hi - f.lo + 1) →
        (w.toNat / 2 ^ (f.hi + 1) * 2 ^ (f.hi + 1) + x * 2 ^ f.lo + w.toNat % 2 ^ f.lo) / 2 ^ g.lo
          = w.toNat / 2 ^ (f.hi + 1) / 2 ^ (g.lo - (f.hi + 1)) := by
      intro x hx
      rw [show (2 : Nat) ^ g.lo = 2 ^ (f.hi + 1) * 2 ^ (g.lo - (f.hi + 1)) by rw [← pow_add]; congr 1; omega, ← Nat.div_div_eq_div_mul]
      congr 1
      rw [Nat.add_assoc, Nat.add_comm, Nat.add_mul_div_right _ _ (by positivity), Nat.div_eq_of_lt (low x hx), Nat.zero_add]
    rw [cut _ hv]
    conv_rhs => rw [hs]
    rw [cut _ ho]
  · -- g below f
    have cut : ∀ x, (w.toNat / 2 ^ (f.hi + 1) * 2 ^ (f.hi + 1) + x * 2 ^ f.lo + w.toNat % 2 ^ f.lo) % 2 ^ (g.hi + 1)
        = w.toNat % 2 ^ f.lo % 2 ^ (g.hi + 1) := by
      intro x
      rw [show (2 : Nat) ^ (f.hi + 1) = 2 ^ (f.hi + 1 - (g.hi + 1)) * 2 ^ (g.hi + 1) by rw [← pow_add]; congr 1; omega]
      rw [show (2 : Nat) ^ f.lo = 2 ^ (f.lo - (g.hi + 1)) * 2 ^ (g.hi + 1) by rw [← pow_add]; congr 1; omega]
      rw [← Nat.mul_assoc, ← Nat.mul_assoc, ← Nat.add_mul, Nat.add_comm, Nat.add_mul_mod_self_right]
    have pick : ∀ n : Nat, n / 2 ^ g.lo % 2 ^ (g.hi - g.lo + 1) = n % 2 ^ (g.hi + 1) / 2 ^ g.lo := by
      intro n
      rw [show (2 : Nat) ^ (g.hi + 1) = 2 ^ g.lo * 2 ^ (g.hi - g.lo + 1) by rw [← pow_add]; congr 1; omega]
      exact (Nat.mod_mul_right_div_self n (2 ^ g.lo) (2 ^ (g.hi - g.lo + 1))).symm
    rw [pick, pick, cut]
    conv_rhs => rw [hs]
    rw [cut]

/-! ## Fields of the controller's and of an agent's registers -/

theorem State.fld_setFld_self (s : State) {f : Field} (hf : f.fits) (v : Nat) : (s.setFld f v).fld f = v % 2 ^ (f.hi - f.lo + 1) := by
  simp [State.fld, State.setFld, Field.of_put_self hf]

theorem State.fld_setFld_apart (s : State) {f g : Field} (hf : f.fits) (hg : g.fits) (ha : f.apart g) (v : Nat) :
    (s.setFld f v).fld g = s.fld g := by
  unfold State.fld State.setFld
  by_cases h : g.off = f.off
  · rw [h, State.reg_setReg_self, Field.of_put_ne hf hg ha]
  · rw [State.reg_setReg_ne s _ h]

theorem State.fld_setFld_off (s : State) {f g : Field} (h : g.off ≠ f.off) (v : Nat) : (s.setFld f v).fld g = s.fld g := by
  unfold State.fld State.setFld
  rw [State.reg_setReg_ne s _ h]

theorem State.reg_setFld_off (s : State) {f : Field} {off : Nat} (h : off ≠ f.off) (v : Nat) : (s.setFld f v).reg off = s.reg off := by
  unfold State.setFld
  rw [State.reg_setReg_ne s _ h]

theorem State.jfld_setJfld_self (s : State) (a : AgentRef) {f : Field} (hf : f.fits) (v : Nat) :
    (s.setJfld a f v).jfld a f = v % 2 ^ (f.hi - f.lo + 1) := by
  simp [State.jfld, State.setJfld, Field.of_put_self hf]

theorem State.jfld_setJfld_apart (s : State) (a : AgentRef) {f g : Field} (hf : f.fits) (hg : g.fits) (ha : f.apart g) (v : Nat) :
    (s.setJfld a f v).jfld a g = s.jfld a g := by
  unfold State.jfld State.setJfld
  by_cases h : g.off = f.off
  · rw [h, State.jx_setJx_self, Field.of_put_ne hf hg ha]
  · rw [State.jx_setJx_ne s a _ h]

theorem State.jfld_setJfld_off (s : State) (a : AgentRef) {f g : Field} (h : g.off ≠ f.off) (v : Nat) :
    (s.setJfld a f v).jfld a g = s.jfld a g := by
  unfold State.jfld State.setJfld
  rw [State.jx_setJx_ne s a _ h]

/-- An agent but for its registers is as before when a field of one is set. -/
theorem State.agent_setJfld (s : State) (a : AgentRef) (f : Field) (v : Nat) :
    ∃ j, (s.setJfld a f v).agent a = { s.agent a with jx := j } := by
  exact ⟨(s.agent a).jx.set f.off (f.put (s.jx a f.off) v), by simp [State.setJfld, State.setJx]⟩

end Sys2Proof.Machine
end

