-- ==== Sys2Proof/Laws/Frame.lean ====
section
/-! SUPPORT. What the operations of links, streams and agents can change: nothing of the controller beside its ports, its streams and the
record of what leaves. -/

namespace Sys2Proof.Machine

/-- `t` differs from `s` in agents, ports, streams, the record of what leaves and the packets behind mirror records alone. -/
def State.LinkOnly (s t : State) : Prop :=
  t = { s with agents := t.agents, ports := t.ports, streams := t.streams, out := t.out, tri := { s.tri with behind := t.tri.behind } }

theorem linkOnly_refl (s : State) : s.LinkOnly s := rfl

theorem linkOnly_trans {s t u : State} (h : s.LinkOnly t) (g : t.LinkOnly u) : s.LinkOnly u := by
  unfold State.LinkOnly at *
  rw [h] at g
  exact g

theorem linkOnly_forEach {α : Type} {f : State → α → State} (h : ∀ (s : State) x, s.LinkOnly (f s x)) (l : List α) (s : State) :
    s.LinkOnly (s.forEach l f) := by
  induction l generalizing s with
  | nil => rfl
  | cons x t ih => exact linkOnly_trans (h s x) (ih (f s x))

theorem linkOnly_ite {s t u : State} {c : Prop} [Decidable c] (h : s.LinkOnly t) (g : s.LinkOnly u) : s.LinkOnly (if c then t else u) := by
  split
  · exact h
  · exact g

/-! ## Ports and streams -/

theorem linkOnly_setAgent (s : State) (a : AgentRef) (x : Agent) : s.LinkOnly (s.setAgent a x) := rfl
theorem linkOnly_updAgent (s : State) (a : AgentRef) (f : Agent → Agent) : s.LinkOnly (s.updAgent a f) := rfl
theorem linkOnly_setJfld (s : State) (a : AgentRef) (f : Field) (v : Nat) : s.LinkOnly (s.setJfld a f v) := rfl
theorem linkOnly_satJfld (s : State) (a : AgentRef) (f : Field) (v : Nat) : s.LinkOnly (s.satJfld a f v) := rfl
theorem linkOnly_emit (s : State) (o : Out) : s.LinkOnly (s.emit o) := rfl
theorem linkOnly_setPort (s : State) (n : Node) (p : Nat) (x : PortSt) : s.LinkOnly (s.setPort n p x) := by cases n <;> rfl
theorem linkOnly_setStreams (s : State) (n : Node) (x : Streams) : s.LinkOnly (s.setStreams n x) := by cases n <;> rfl
theorem linkOnly_setTx (s : State) (n : Node) (d : Fid) (k : BitVec 16) (x : StreamTx) : s.LinkOnly (s.setTx n d k x) := linkOnly_setStreams _ _ _
theorem linkOnly_setRx (s : State) (n : Node) (d : Fid) (k : BitVec 16) (x : StreamRx) : s.LinkOnly (s.setRx n d k x) := linkOnly_setStreams _ _ _
theorem linkOnly_recordSeq (s : State) (n : Node) (h : Header) : s.LinkOnly (s.recordSeq n h) := linkOnly_setStreams _ _ _

theorem linkOnly_startFrame (s : State) (n : Node) (p : Nat) (k : Packet) : s.LinkOnly (s.startFrame n p k) :=
  linkOnly_trans (linkOnly_setPort _ _ _ _) (linkOnly_emit _ _)

theorem linkOnly_sendCredit (s : State) (n : Node) (p : Nat) : s.LinkOnly (s.sendCredit n p) := by
  unfold State.sendCredit
  exact linkOnly_ite rfl (linkOnly_ite (linkOnly_trans (linkOnly_setPort _ _ _ _) (linkOnly_startFrame _ _ _ _)) (linkOnly_setPort _ _ _ _))

theorem linkOnly_returnCredit (s : State) (n : Node) (p : Nat) : s.LinkOnly (s.returnCredit n p) := by
  unfold State.returnCredit
  exact linkOnly_ite (linkOnly_sendCredit _ _ _) rfl

theorem linkOnly_freeUnits (s : State) (n : Node) (p : Nat) (h : Header) : s.LinkOnly (s.freeUnits n p h) :=
  linkOnly_trans (linkOnly_setPort _ _ _ _) (linkOnly_returnCredit _ _ _)

theorem linkOnly_recordSent (s : State) (n : Node) (p : Nat) (l : List Sent) : s.LinkOnly (s.recordSent n p l) := by
  unfold State.recordSent
  refine linkOnly_trans (t := { s with out := s.out ++ l.map fun t => Out.portFrame n p t.ctr t.credit t.frame.pkt }) rfl
    (linkOnly_forEach (fun s t => ?_) _ _)
  split
  · exact linkOnly_freeUnits _ _ _ _
  · rfl

theorem linkOnly_pumpPort (s : State) (n : Node) (p : Nat) : s.LinkOnly (s.pumpPort n p) :=
  linkOnly_trans (linkOnly_setPort _ _ _ _) (linkOnly_recordSent _ _ _ _)

theorem linkOnly_noteTraffic (s : State) (n : Node) (p : Nat) (h : Header) : s.LinkOnly (s.noteTraffic n p h) := by
  unfold State.noteTraffic
  refine linkOnly_ite rfl ?_
  cases n <;> rfl

theorem linkOnly_wakeAgentPort (s : State) (n : Node) (p : Nat) : s.LinkOnly (s.wakeAgentPort n p) := by
  cases n with
  | ctl => rfl
  | agent a => exact linkOnly_ite (linkOnly_setPort _ _ _ _) rfl

/-- A packet handed to a port reaches agents, ports and the record of what leaves alone. -/
theorem linkOnly_portSend (s : State) (n : Node) (p : Nat) (k : Packet) (source : Option Nat := none) :
    s.LinkOnly (s.portSend n p k source) := by
  unfold State.portSend
  have h : s.LinkOnly ((s.noteTraffic n p k.hdr).wakeAgentPort n p) := linkOnly_trans (linkOnly_noteTraffic _ _ _ _) (linkOnly_wakeAgentPort _ _ _)
  generalize (s.noteTraffic n p k.hdr).wakeAgentPort n p = u at h
  refine linkOnly_ite (linkOnly_ite ?_ ?_) ?_
  · exact linkOnly_trans h (linkOnly_trans (linkOnly_setPort _ _ _ _) (linkOnly_startFrame _ _ _ _))
  · exact linkOnly_trans h (linkOnly_setPort _ _ _ _)
  · exact linkOnly_trans h (linkOnly_trans (linkOnly_setPort _ _ _ _) (linkOnly_pumpPort _ _ _))

theorem linkOnly_originateOn (s : State) (n : Node) (port : Nat) (p : Packet) : s.LinkOnly (s.originateOn n port p) := by
  unfold State.originateOn
  exact linkOnly_ite rfl (linkOnly_ite rfl (linkOnly_trans (linkOnly_emit _ _) (linkOnly_portSend _ _ _ _)))

theorem linkOnly_originate (s : State) (n : Node) (p : Packet) : s.LinkOnly (s.originate n p) := linkOnly_originateOn _ _ _ _

theorem linkOnly_emitTx (s : State) (n : Node) (t : TxPkt) : s.LinkOnly (s.emitTx n t) := by
  unfold State.emitTx
  split
  · exact linkOnly_originateOn _ _ _ _
  · exact linkOnly_originate _ _ _

/-- A packet sent on its stream. -/
theorem linkOnly_sendPkt (s : State) (n : Node) (p : Packet) (kept : Bool := true) (port : Option Nat := none) :
    s.LinkOnly (s.sendPkt n p kept port) := by
  unfold State.sendPkt
  extract_lets
  refine linkOnly_ite (linkOnly_ite ?_ ?_) ?_
  · exact linkOnly_setTx _ _ _ _ _
  · exact linkOnly_trans (linkOnly_setTx _ _ _ _ _) (linkOnly_emitTx _ _ _)
  · exact linkOnly_trans (linkOnly_setTx _ _ _ _ _) (linkOnly_emitTx _ _ _)

theorem linkOnly_releaseWaiting (s : State) (n : Node) (d : Fid) (k : BitVec 16) : s.LinkOnly (s.releaseWaiting n d k) := by
  unfold State.releaseWaiting
  extract_lets
  split
  · rfl
  · exact linkOnly_ite (linkOnly_trans (linkOnly_setTx _ _ _ _ _) (linkOnly_emitTx _ _ _)) rfl

theorem linkOnly_sendMgmt (s : State) (n : Node) (d : Fid) (t : BitVec 8) (l : List Byte) (x : BitVec 24) (k : Bool) :
    s.LinkOnly (s.sendMgmt n d t l x k) := linkOnly_sendPkt _ _ _ _ _

/-! ## Answers, acceptance and completions -/

theorem linkOnly_answer (s : State) (n : Node) (h : Header) (t : BitVec 8) (q : BitVec 32) (x : BitVec 24) :
    s.LinkOnly (s.answer n h t q x) := linkOnly_ite rfl (linkOnly_originate _ _ _)

theorem linkOnly_ackPkt (s : State) (n : Node) (h : Header) : s.LinkOnly (s.ackPkt n h) := linkOnly_answer _ _ _ _ _ _
theorem linkOnly_nakPkt (s : State) (n : Node) (h : Header) (r : Nat) : s.LinkOnly (s.nakPkt n h r) := linkOnly_answer _ _ _ _ _ _

theorem linkOnly_finish (s : State) (n : Node) (h : Header) : s.LinkOnly (s.finish n h) := by
  unfold State.finish State.readAnswer
  exact linkOnly_ite (linkOnly_sendPkt _ _ _ _ _) (linkOnly_ackPkt _ _ _)

theorem linkOnly_endHeld (s : State) (n : Node) (f : HeldFlag) (b : Bool) : s.LinkOnly (s.endHeld n f b) := by
  unfold State.endHeld
  exact linkOnly_ite (linkOnly_trans (linkOnly_setRx _ _ _ _ _) (linkOnly_nakPkt _ _ _ _))
    (linkOnly_trans (linkOnly_setRx _ _ _ _ _) (linkOnly_finish _ _ _))

theorem linkOnly_settle (n : Node) (d : Fid) (k : BitVec 16) (i : Nat) (s : State) : s.LinkOnly (State.settle n d k i s) := by
  induction i generalizing s with
  | zero => rfl
  | succ i ih =>
    unfold State.settle
    dsimp only
    split
    · rfl
    · exact linkOnly_trans (linkOnly_endHeld _ _ _ _) (ih _)

theorem linkOnly_complete (s : State) (n : Node) (h : Header) : s.LinkOnly (s.complete n h) := by
  unfold State.complete
  extract_lets u x f
  have g : s.LinkOnly u := linkOnly_recordSeq _ _ _
  clear_value u
  exact linkOnly_ite (linkOnly_trans g (linkOnly_trans (linkOnly_setRx _ _ _ _ _) (linkOnly_settle _ _ _ _ _)))
    (linkOnly_trans g (linkOnly_trans (linkOnly_finish _ _ _) (linkOnly_settle _ _ _ _ _)))

theorem linkOnly_again (s : State) (n : Node) (h : Header) : s.LinkOnly (s.again n h) :=
  linkOnly_ite rfl (linkOnly_ite (linkOnly_nakPkt _ _ _ _) (linkOnly_finish _ _ _))

/-- Acceptance adds to its body's effect what links and streams take. -/
theorem linkOnly_accept (s : State) (n : Node) (p : Packet) (body : State → State × Option Nat) (h : s.LinkOnly (body s).1) :
    s.LinkOnly (s.accept n p body) := by
  unfold State.accept
  refine linkOnly_ite (linkOnly_nakPkt _ _ _ _) (linkOnly_ite (linkOnly_again _ _ _) (linkOnly_ite (linkOnly_nakPkt _ _ _ _) ?_))
  rcases hb : body s with ⟨u, r⟩
  rw [hb] at h
  cases r with
  | none => exact linkOnly_trans h (linkOnly_complete _ _ _)
  | some r => exact linkOnly_trans h (linkOnly_nakPkt _ _ _ _)

/-! ## Events of an agent -/

theorem linkOnly_displace (s : State) (a : AgentRef) (n : Nat) : s.LinkOnly (s.displace a n) := by
  unfold State.displace
  split
  · rfl
  · rfl

theorem linkOnly_bufferEvent (s : State) (a : AgentRef) (e : Event) : s.LinkOnly (s.bufferEvent a e) := by
  unfold State.bufferEvent
  dsimp only
  repeat' split
  all_goals first | rfl | exact linkOnly_trans (linkOnly_displace _ _ _) rfl

theorem linkOnly_sendEvents (s : State) (a : AgentRef) (l : List Event) : s.LinkOnly (s.sendEvents a l) := by
  unfold State.sendEvents
  extract_lets dest seq u
  have h : s.LinkOnly u := linkOnly_updAgent s a _
  clear_value u
  exact linkOnly_trans h (linkOnly_sendMgmt u _ _ _ _ _ _)

theorem linkOnly_sendUrgent (s : State) (a : AgentRef) : s.LinkOnly (s.sendUrgent a) :=
  linkOnly_ite (linkOnly_forEach (fun s e => linkOnly_sendEvents s a [e]) _ _) rfl

theorem linkOnly_presentLatched (a : AgentRef) (k : Nat) (s : State) : s.LinkOnly (State.presentLatched a k s) := by
  induction k generalizing s with
  | zero => rfl
  | succ k ih =>
    unfold State.presentLatched
    split
    · rfl
    · exact linkOnly_ite (linkOnly_trans (linkOnly_updAgent _ _ _) (linkOnly_trans (linkOnly_bufferEvent _ _ _)
        (linkOnly_trans (linkOnly_sendUrgent _ _) (ih _)))) rfl

theorem linkOnly_countAgentSource (s : State) (a : AgentRef) (n : Nat) (d : BitVec 16) (c : Option Capture) :
    s.LinkOnly (s.countAgentSource a n d c) := by
  unfold State.countAgentSource
  extract_lets off u w
  have h : s.LinkOnly w := linkOnly_trans (linkOnly_satJfld s a _ _) (linkOnly_setJfld u a _ _)
  clear_value w
  cases c with
  | none => exact h
  | some c =>
    exact linkOnly_ite (linkOnly_trans h (linkOnly_trans (linkOnly_setJfld w a _ _) (linkOnly_updAgent _ a _))) h

/-- An event of an agent source. -/
theorem linkOnly_raiseAgent (s : State) (a : AgentRef) (n v : Nat) (d : BitVec 16) (p : Nat) (c : Option Capture) :
    s.LinkOnly (s.raiseAgent a n v d p c) := by
  unfold State.raiseAgent
  extract_lets
  refine linkOnly_ite ?_ (linkOnly_ite ?_ ?_)
  · exact linkOnly_countAgentSource _ _ _ _ _
  · exact linkOnly_trans (linkOnly_countAgentSource _ _ _ _ _) (linkOnly_trans (linkOnly_bufferEvent _ _ _) (linkOnly_sendUrgent _ _))
  · exact linkOnly_trans (linkOnly_countAgentSource _ _ _ _ _) (linkOnly_bufferEvent _ _ _)

theorem linkOnly_fromOwner (s : State) (a : AgentRef) (p : Packet) (body : State → State) (h : s.LinkOnly (body s)) :
    s.LinkOnly (s.fromOwner a p body) := linkOnly_ite (linkOnly_raiseAgent _ _ _ _ _ _ _) (linkOnly_ite rfl h)

theorem linkOnly_releaseWithheld (s : State) (n : Node) : s.LinkOnly (s.releaseWithheld n) :=
  linkOnly_ite rfl (linkOnly_forEach (fun _ _ => linkOnly_trans (linkOnly_setPort _ _ _ _) (linkOnly_returnCredit _ _ _)) _ _)

/-! ## The two directions of what holds of states that agree so -/

section
variable {s t : State} (h : s.LinkOnly t)
include h

theorem LinkOnly_regs : t.regs = s.regs := by unfold State.LinkOnly at h; rw [h]
theorem LinkOnly_reg (off : Nat) : t.reg off = s.reg off := by unfold State.LinkOnly at h; rw [h]; rfl
theorem LinkOnly_fld (f : Field) : t.fld f = s.fld f := by unfold State.LinkOnly at h; rw [h]; rfl
theorem LinkOnly_now : t.now = s.now := congrArg BitVec.toNat (LinkOnly_reg h TIM_NOW)
theorem LinkOnly_time : t.time = s.time := by unfold State.LinkOnly at h; rw [h]
theorem LinkOnly_col : t.col = s.col := by unfold State.LinkOnly at h; rw [h]
theorem LinkOnly_pwr : t.pwr = s.pwr := by unfold State.LinkOnly at h; rw [h]
theorem LinkOnly_engines : t.engines = s.engines := by unfold State.LinkOnly at h; rw [h]
theorem LinkOnly_queues : t.queues = s.queues := by unfold State.LinkOnly at h; rw [h]
theorem LinkOnly_rte : t.rte = s.rte := by unfold State.LinkOnly at h; rw [h]
theorem LinkOnly_pending : t.pending = s.pending := by unfold State.LinkOnly at h; rw [h]
end

/-! ## Events and lapses of the controller -/

theorem State.reg_withCol (s : State) (c : CollectorSt) (off : Nat) : ({ s with col := c } : State).reg off = s.reg off := rfl

/-- A source's event changes the registers of that source alone. -/
theorem State.reg_countSource_ne (s : State) {n off : Nat} (k : Nat) (d : BitVec 16) (c : Option Capture) (h : off ≠ fltSrc n) :
    (s.countSource n k d c).reg off = s.reg off := by
  have key : ∀ (u : State) (f : Field) (v : Nat), (u.setFld (f.at (fltSrc n)) v).reg off = u.reg off :=
    fun u f v => State.reg_setReg_ne u _ h
  have pick : ∀ (p : Prop) [Decidable p] (u v : State), u.reg off = s.reg off → v.reg off = s.reg off →
      (if p then u else v).reg off = s.reg off := by
    intro p _ u v h1 h2
    split
    · exact h1
    · exact h2
  have h1 : ((s.satFld (FLT_SRCn_COUNT.at (fltSrc n)) k).setFld (FLT_SRCn_LAST_DETAIL.at (fltSrc n)) d.toNat).reg off = s.reg off := by
    rw [key, State.satFld, key]
  unfold State.countSource
  cases c with
  | none => exact h1
  | some c =>
    dsimp only
    generalize (s.satFld (FLT_SRCn_COUNT.at (fltSrc n)) k).setFld (FLT_SRCn_LAST_DETAIL.at (fltSrc n)) d.toNat = w at h1 ⊢
    refine pick _ _ _ ?_ h1
    rw [State.reg_withCol, key, h1]

theorem State.reg_ite_present (p : Prop) [Decidable p] (u : State) (ev : Event) (off : Nat) :
    (if p then u else u.present ev).reg off = u.reg off := by
  split
  · rfl
  · rfl

theorem State.reg_raise_ne (s : State) {n off : Nat} (k : Nat) (d : BitVec 16) (p : Nat) (c : Option Capture) (h : off ≠ fltSrc n) :
    (s.raise n k d p c).reg off = s.reg off := by
  unfold State.raise
  exact (State.reg_ite_present _ _ _ _).trans (s.reg_countSource_ne _ _ _ h)

theorem State.reg_lapseRecord_ne (s : State) {off : Nat} (d : BitVec 16) (o : Nat) (h : off ≠ fltSrc 7) :
    (s.lapseRecord d o).reg off = s.reg off := by
  unfold State.lapseRecord
  exact (State.reg_ite_present _ _ _ _).trans (s.reg_countSource_ne _ _ _ h)

theorem State.reg_lapse_ne (s : State) {off : Nat} (c o : Nat) (h : off ≠ fltSrc 7) : (s.lapse c o).reg off = s.reg off := by
  unfold State.lapse
  split
  · rfl
  · exact State.reg_lapseRecord_ne _ _ _ h

theorem State.reg_restore_ne (s : State) {off : Nat} (c o : Nat) (h : off ≠ fltSrc 7) : (s.restore c o).reg off = s.reg off := by
  unfold State.restore
  split
  · exact State.reg_lapseRecord_ne _ _ _ h
  · rfl

/-- An event adds to what is on its way to the collector and to the captures, to nothing else of the collector. -/
theorem State.countSource_col (s : State) (n k : Nat) (d : BitVec 16) (c : Option Capture) :
    ∃ x, (s.countSource n k d c).col = { s.col with captures := x } := by
  unfold State.countSource
  cases c with
  | none => exact ⟨s.col.captures, rfl⟩
  | some c =>
    dsimp only
    split
    · exact ⟨_, rfl⟩
    · exact ⟨s.col.captures, rfl⟩

theorem State.present_col (s : State) (ev : Event) : (s.present ev).col = { s.col with raised := (s.present ev).col.raised } := rfl

theorem State.raise_col (s : State) (n k : Nat) (d : BitVec 16) (p : Nat) (c : Option Capture) :
    ∃ x y, (s.raise n k d p c).col = { s.col with captures := x, raised := y } := by
  unfold State.raise
  extract_lets c1 ev m u
  obtain ⟨x, hx⟩ := s.countSource_col n 1 d (some c1)
  split
  · exact ⟨x, s.col.raised, hx⟩
  · exact ⟨x, (u.present ev).col.raised, by rw [State.present_col, show u.col = _ from hx]⟩

theorem State.lapseRecord_col (s : State) (d : BitVec 16) (o : Nat) :
    ∃ x y, (s.lapseRecord d o).col = { s.col with captures := x, raised := y } := by
  unfold State.lapseRecord
  extract_lets m ev u
  obtain ⟨x, hx⟩ := s.countSource_col 7 1 d none
  split
  · exact ⟨x, s.col.raised, hx⟩
  · exact ⟨x, (u.present ev).col.raised, by rw [State.present_col, show u.col = _ from hx]⟩

theorem State.lapse_col (s : State) (k o : Nat) : ∃ x y, (s.lapse k o).col = { s.col with captures := x, raised := y } := by
  unfold State.lapse
  split
  · exact ⟨_, _, rfl⟩
  · exact State.lapseRecord_col _ _ _

theorem State.restore_col (s : State) (k o : Nat) : ∃ x y, (s.restore k o).col = { s.col with captures := x, raised := y } := by
  unfold State.restore
  split
  · exact State.lapseRecord_col _ _ _
  · exact ⟨_, _, rfl⟩

end Sys2Proof.Machine
end

