-- ==== Sys2Proof/Laws/Issue.lean ====
section
/-! SUPPORT. Laws of issue: what each outcome of an instruction's effect comes to when the engine executes it, and what issue
does otherwise. -/

namespace Sys2Proof.Machine

variable {s : State} {e op : Nat} {lvl : Level} {w : Word64} {body : State → Word64 → Effect}

@[simp] theorem State.engine_leaveGate (s : State) (e i : Nat) : (s.leaveGate e).engine i = s.engine i := by simp [State.engine]

/-- Leaving the gates and replacing an engine do not meet. -/
theorem State.leaveGate_setEngine (s : State) (e i : Nat) (x : Engine) : (s.setEngine i x).leaveGate e = (s.leaveGate e).setEngine i x := by
  unfold State.leaveGate State.setEngine
  split <;> rfl

@[simp] theorem State.engine_charged (s : State) (e : Nat) :
    (s.charged e).engine e = { s.engine e with budget := (s.engine e).budget - 1 } := by
  simp [State.charged]

/-- Replacing the engine of a charged state. -/
theorem State.charged_setEngine (s : State) (e : Nat) (x : Engine) : (s.charged e).setEngine e x = (s.setEngine e x).leaveGate e := by
  simp [State.charged, State.leaveGate_setEngine]

/-- What the effect of an instruction finds changed before it: the engine's budget and the queue at the gates alone. -/
theorem State.charged_eq (s : State) (e : Nat) : ∃ l n, s.charged e =
    { s with engines := s.engines.set e { s.engine e with budget := (s.engine e).budget - 1 }
             tri := { s.tri with gateWait := l, gateTurn := n } } := by
  unfold State.charged State.leaveGate
  split
  · exact ⟨_, _, rfl⟩
  · exact ⟨s.tri.gateWait, s.tri.gateTurn, rfl⟩

theorem Engine.running_of_issues {x : Engine} (h : x.issues = true) : x.running = true := by
  simp [Engine.issues] at h
  exact h.1.1

theorem State.executes.running (h : s.executes e lvl w) : (s.engine e).running = true := Engine.running_of_issues h.1

theorem legal_defined (h : legal w = true) : (usedMask (wOp w)).isSome := by
  unfold legal at h
  cases hm : usedMask (wOp w) with
  | none => rw [hm] at h; cases h
  | some m => rfl

/-- An executing engine carries out the effect on the charged state. -/
theorem State.issue_executes (h : s.executes e lvl w) (ho : wOp w = op) :
    s.issue e op lvl body = s.settleEffect (s.charged e) e w (body (s.charged e) w) := by
  obtain ⟨h1, h2, h3, h4, h5, h6, h7, h8⟩ := h
  have h9 : ¬ levelRank (s.engine e).level < levelRank lvl := by omega
  have h10 : ((s.engine e).gated w && !s.gateServes e w) = false := by
    cases hg : (s.engine e).gated w
    · rfl
    · simp [h8 hg]
  unfold State.issue
  simp only [h1, h2, ho, h3, h4, h5, h7, h9, h10]
  simp [State.charged]

theorem State.setPc_running {s : State} (e pc : Nat) (h : (s.engine e).running = true) :
    s.setPc e pc = s.setEngine e { s.engine e with pc := pc } := by
  simp [State.setPc, h]

theorem State.issue_done {t : State} (h : s.executes e lvl w) (ho : wOp w = op) (hb : body (s.charged e) w = .done t)
    (hr : (t.engine e).running = true) : s.issue e op lvl body = t.advanced s e := by
  rw [State.issue_executes h ho, hb]
  simp [State.settleEffect, State.setPc_running _ _ hr, State.advanced]

theorem State.issue_goto {t : State} {pc : Nat} (h : s.executes e lvl w) (ho : wOp w = op)
    (hb : body (s.charged e) w = .goto t pc) (hr : (t.engine e).running = true) :
    s.issue e op lvl body = t.setEngine e { t.engine e with pc := pc } := by
  rw [State.issue_executes h ho, hb]
  simp [State.settleEffect, State.setPc_running _ _ hr]

theorem State.issue_fault {c : Nat} {r : Word64} (h : s.executes e lvl w) (ho : wOp w = op)
    (hb : body (s.charged e) w = .fault c r) : s.issue e op lvl body = (s.charged e).faultProgram e c r := by
  rw [State.issue_executes h ho, hb]
  rfl

theorem State.issue_block {t : State} {b : Blocked} (h : s.executes e lvl w) (ho : wOp w = op)
    (hb : body (s.charged e) w = .block t b) : s.issue e op lvl body = t.setBlocked e b := by
  rw [State.issue_executes h ho, hb]
  rfl

theorem State.issue_stay (h : s.executes e lvl w) (ho : wOp w = op)
    (hb : body (s.charged e) w = .stay) : s.issue e op lvl body = s := by
  rw [State.issue_executes h ho, hb]
  rfl

theorem State.issue_suppress (h : s.executes e lvl w) (ho : wOp w = op)
    (hb : body (s.charged e) w = .suppress) : s.issue e op lvl body = (s.charged e).suppress e w := by
  rw [State.issue_executes h ho, hb]
  rfl

theorem State.issue_ended {t : State} (h : s.executes e lvl w) (ho : wOp w = op)
    (hb : body (s.charged e) w = .ended t) : s.issue e op lvl body = t := by
  rw [State.issue_executes h ho, hb]
  rfl

/-! ## Registers of an engine through issue -/

@[simp] theorem Engine.setG_running (x : Engine) (r : Nat) (v : Word64) : (x.setG r v).running = x.running := by
  unfold Engine.setG; split <;> rfl

@[simp] theorem Engine.setG_level (x : Engine) (r : Nat) (v : Word64) : (x.setG r v).level = x.level := by
  unfold Engine.setG; split <;> rfl

@[simp] theorem Engine.setG_partition (x : Engine) (r : Nat) (v : Word64) : (x.setG r v).partition = x.partition := by
  unfold Engine.setG; split <;> rfl

@[simp] theorem Engine.setG_p (x : Engine) (r : Nat) (v : Word64) : (x.setG r v).p = x.p := by
  unfold Engine.setG; split <;> rfl

@[simp] theorem Engine.setG_h (x : Engine) (r : Nat) (v : Word64) : (x.setG r v).h = x.h := by
  unfold Engine.setG; split <;> rfl

@[simp] theorem Engine.setG_pc (x : Engine) (r : Nat) (v : Word64) : (x.setG r v).pc = x.pc := by
  unfold Engine.setG; split <;> rfl

@[simp] theorem Engine.setG_budget (x : Engine) (r : Nat) (v : Word64) : (x.setG r v).budget = x.budget := by
  unfold Engine.setG; split <;> rfl

@[simp] theorem Engine.setG_code (x : Engine) (r : Nat) (v : Word64) : (x.setG r v).code = x.code := by
  unfold Engine.setG; split <;> rfl

@[simp] theorem Engine.setG_localMem (x : Engine) (r : Nat) (v : Word64) : (x.setG r v).localMem = x.localMem := by
  unfold Engine.setG; split <;> rfl

@[simp] theorem Engine.setG_bufs (x : Engine) (r : Nat) (v : Word64) : (x.setG r v).bufs = x.bufs := by
  unfold Engine.setG; split <;> rfl

@[simp] theorem Engine.setG_inbox (x : Engine) (r : Nat) (v : Word64) : (x.setG r v).inbox = x.inbox := by
  unfold Engine.setG; split <;> rfl

@[simp] theorem Engine.setG_drops (x : Engine) (r : Nat) (v : Word64) : (x.setG r v).drops = x.drops := by
  unfold Engine.setG; split <;> rfl

@[simp] theorem Engine.setG_tags (x : Engine) (r : Nat) (v : Word64) : (x.setG r v).tags = x.tags := by
  unfold Engine.setG; split <;> rfl

@[simp] theorem Engine.setG_nextTag (x : Engine) (r : Nat) (v : Word64) : (x.setG r v).nextTag = x.nextTag := by
  unfold Engine.setG; split <;> rfl

@[simp] theorem Engine.setG_blocked (x : Engine) (r : Nat) (v : Word64) : (x.setG r v).blocked = x.blocked := by
  unfold Engine.setG; split <;> rfl

@[simp] theorem Engine.setG_run (x : Engine) (r : Nat) (v : Word64) : (x.setG r v).run = x.run := by
  unfold Engine.setG; split <;> rfl

@[simp] theorem Engine.setG_scrubDev (x : Engine) (r : Nat) (v : Word64) : (x.setG r v).scrubDev = x.scrubDev := by
  unfold Engine.setG; split <;> rfl

@[simp] theorem Engine.setP_running (x : Engine) (i : Nat) (b : Bool) : (x.setP i b).running = x.running := by
  unfold Engine.setP; split <;> rfl

@[simp] theorem Engine.setP_level (x : Engine) (i : Nat) (b : Bool) : (x.setP i b).level = x.level := by
  unfold Engine.setP; split <;> rfl

@[simp] theorem Engine.setP_partition (x : Engine) (i : Nat) (b : Bool) : (x.setP i b).partition = x.partition := by
  unfold Engine.setP; split <;> rfl

@[simp] theorem Engine.setP_g (x : Engine) (i : Nat) (b : Bool) : (x.setP i b).g = x.g := by
  unfold Engine.setP; split <;> rfl

@[simp] theorem Engine.setP_h (x : Engine) (i : Nat) (b : Bool) : (x.setP i b).h = x.h := by
  unfold Engine.setP; split <;> rfl

@[simp] theorem Engine.setP_pc (x : Engine) (i : Nat) (b : Bool) : (x.setP i b).pc = x.pc := by
  unfold Engine.setP; split <;> rfl

@[simp] theorem Engine.setP_budget (x : Engine) (i : Nat) (b : Bool) : (x.setP i b).budget = x.budget := by
  unfold Engine.setP; split <;> rfl

@[simp] theorem Engine.setP_code (x : Engine) (i : Nat) (b : Bool) : (x.setP i b).code = x.code := by
  unfold Engine.setP; split <;> rfl

@[simp] theorem Engine.setP_localMem (x : Engine) (i : Nat) (b : Bool) : (x.setP i b).localMem = x.localMem := by
  unfold Engine.setP; split <;> rfl

@[simp] theorem Engine.setP_bufs (x : Engine) (i : Nat) (b : Bool) : (x.setP i b).bufs = x.bufs := by
  unfold Engine.setP; split <;> rfl

@[simp] theorem Engine.setP_inbox (x : Engine) (i : Nat) (b : Bool) : (x.setP i b).inbox = x.inbox := by
  unfold Engine.setP; split <;> rfl

@[simp] theorem Engine.setP_drops (x : Engine) (i : Nat) (b : Bool) : (x.setP i b).drops = x.drops := by
  unfold Engine.setP; split <;> rfl

@[simp] theorem Engine.setP_tags (x : Engine) (i : Nat) (b : Bool) : (x.setP i b).tags = x.tags := by
  unfold Engine.setP; split <;> rfl

@[simp] theorem Engine.setP_nextTag (x : Engine) (i : Nat) (b : Bool) : (x.setP i b).nextTag = x.nextTag := by
  unfold Engine.setP; split <;> rfl

@[simp] theorem Engine.setP_blocked (x : Engine) (i : Nat) (b : Bool) : (x.setP i b).blocked = x.blocked := by
  unfold Engine.setP; split <;> rfl

@[simp] theorem Engine.setP_run (x : Engine) (i : Nat) (b : Bool) : (x.setP i b).run = x.run := by
  unfold Engine.setP; split <;> rfl

@[simp] theorem Engine.setP_scrubDev (x : Engine) (i : Nat) (b : Bool) : (x.setP i b).scrubDev = x.scrubDev := by
  unfold Engine.setP; split <;> rfl

@[simp] theorem Engine.reg_budget (x : Engine) (b r : Nat) : Engine.reg { x with budget := b } r = x.reg r := rfl

@[simp] theorem Engine.reg_pc (x : Engine) (b r : Nat) : Engine.reg { x with pc := b } r = x.reg r := rfl

@[simp] theorem Engine.pred_budget (x : Engine) (b i : Nat) : Engine.pred { x with budget := b } i = x.pred i := rfl

theorem Engine.setG_withBudget (x : Engine) (b r : Nat) (v : Word64) :
    Engine.setG { x with budget := b } r v = { x.setG r v with budget := b } := by
  unfold Engine.setG; split <;> rfl

theorem Engine.setP_withBudget (x : Engine) (b i : Nat) (v : Bool) :
    Engine.setP { x with budget := b } i v = { x.setP i v with budget := b } := by
  unfold Engine.setP; split <;> rfl

@[simp] theorem State.g_charged (s : State) (e r : Nat) : (s.charged e).g e r = s.g e r := by
  simp [State.g]

/-- Writing a register and going on is one step of the engine. -/
theorem State.advanced_putG (s : State) (e r : Nat) (v : Word64) :
    ((s.charged e).putG e r v).advanced s e = s.stepped e ((s.engine e).setG r v) := by
  simp [State.advanced, State.putG, State.stepped, State.charged, ← State.leaveGate_setEngine, Engine.setG_withBudget]

theorem State.advanced_putP (s : State) (e i : Nat) (v : Bool) :
    ((s.charged e).putP e i v).advanced s e = s.stepped e ((s.engine e).setP i v) := by
  simp [State.advanced, State.putP, State.stepped, State.charged, ← State.leaveGate_setEngine, Engine.setP_withBudget]

/-! ## Handles -/

theorem State.withHandle_some {k : Handle → Effect} {i need : Nat} {kinds : List Nat} {h : Handle}
    (hh : (s.engine e).handle i = some h) (hk : kinds.contains h.kind = true) (hr : h.rights &&& need = need) :
    s.withHandle e i kinds need k = k h := by
  have hk' : h.kind ∈ kinds := by simpa using hk
  simp [State.withHandle, hh, hk', hr]

theorem State.withBytes_ok {k : List Byte → Effect} {h : Handle} {a n : Nat} {l : List Byte}
    (hr : s.readSpace e h a n = .ok l) : s.withBytes e h a n k = k l := by
  simp [State.withBytes, hr]

theorem State.withStore_ok {k : State → Effect} {h : Handle} {a : Nat} {l : List Byte} {t : State}
    (hr : s.writeSpace e h a l = .ok t) : s.withStore e h a l k = k t := by
  simp [State.withStore, hr]

/-! ## Whole instructions: one result written, or a range of memory reached -/

theorem State.issue_putG {s : State} {e op : Nat} {w v : Word64} {lvl} {body : State → Word64 → Effect} (h : s.executes e lvl w) (ho : wOp w = op)
   (hb : body (s.charged e) w = .done ((s.charged e).putG e (wRd w) v)) :
   s.issue e op lvl body = s.stepped e ((s.engine e).setG (wRd w) v) := by
  rw [State.issue_done h ho hb (by simp [State.putG, h.running]), State.advanced_putG]
theorem State.issue_putP {s : State} {e op i : Nat} {w : Word64} {v} {lvl} {body : State → Word64 → Effect} (h : s.executes e lvl w) (ho : wOp w = op)
   (hb : body (s.charged e) w = .done ((s.charged e).putP e i v)) :
   s.issue e op lvl body = s.stepped e ((s.engine e).setP i v) := by
  rw [State.issue_done h ho hb (by simp [State.putP, h.running]), State.advanced_putP]
theorem State.spaceBytes_charged (s : State) (e : Nat) (h : Handle) (a n : Nat) (hk : h.kind ∈ [1, 2, 3, 4, 5, 9]) :
   (s.charged e).spaceBytes e h a n = s.spaceBytes e h a n := by
  have hx := s.engine_charged e
  obtain ⟨l, k, ht⟩ := s.charged_eq e
  rw [ht] at hx ⊢
  simp at hk
  rcases hk with h1|h1|h1|h1|h1|h1 <;> simp only [State.spaceBytes, h1, hx] <;> rfl

theorem State.readLost_charged (s : State) (e : Nat) (h : Handle) (a n : Nat) :
   (s.charged e).readLost h a n = s.readLost h a n := by
  obtain ⟨l, k, ht⟩ := s.charged_eq e
  rw [ht]
  rfl

theorem State.readSpace_charged (s : State) (e : Nat) (h : Handle) (a n : Nat) (hk : h.kind ∈ [1, 2, 3, 4, 5, 9]) (h1 : a + n ≤ h.size) (h2 : s.readLost h a n = false) :
   (s.charged e).readSpace e h a n = .ok (s.spaceBytes e h a n) := by
  have : ¬ h.size < a + n := by omega
  simp [State.readSpace, this, State.readLost_charged, h2, State.spaceBytes_charged s e h a n hk]

theorem State.handle_charged (s : State) (e i : Nat) : ((s.charged e).engine e).handle i = (s.engine e).handle i := by
  simp [Engine.handle]

theorem State.setLocked_charged (s : State) (e : Nat) (h : Handle) : (s.charged e).setLocked h = s.setLocked h := by
  obtain ⟨l, k, ht⟩ := s.charged_eq e
  rw [ht]
  rfl

theorem State.writeSpace_charged (s : State) (e : Nat) (h : Handle) (a : Nat) (l : List Byte) (h0 : s.setLocked h = false) (hr : h.readOnly = false) (h1 : a + l.length ≤ h.size) :
   (s.charged e).writeSpace e h a l = .ok ((s.charged e).putSpace e h a l) := by
  have : ¬ h.size < a + l.length := by omega
  simp [State.writeSpace, this, State.setLocked_charged, h0, hr]

theorem withMem_ok {s : State} {e need : Nat} {w : Word64} {b : Bool} {k} {h : Handle} (hh : (s.engine e).handle (wHs w) = some h) (hk : h.kind ∈ [1, 2, 3, 4, 5, 9])
   (hr : h.rights &&& need = need) (ha : (s.g e (wRa w) + (BitVec.ofNat 33 w.toNat).signExtend 64).toNat % szBytes (wSz w) = 0) :
   withMem (s.charged e) e w need b k = k h (s.g e (wRa w) + (BitVec.ofNat 33 w.toNat).signExtend 64).toNat := by
  unfold withMem
  rw [State.withHandle_some (h := h) (by rw [State.handle_charged]; exact hh) _ hr]
  · simp [memAddr, wOff] at ha ⊢; simp [ha]
  · split <;> simp [memKinds] at hk ⊢ <;> tauto

theorem State.putGs_eq (s : State) (e r : Nat) (l : List Word64) (x : Engine) :
  (s.setEngine e x).putGs e r l = s.setEngine e ((List.range l.length).foldl (fun (x : Engine) i => x.setG (r + i) (l.getD i 0)) x) := by
  induction l generalizing x r with
  | nil => rfl
  | cons v t ih =>
    simp only [State.putGs, State.putG, State.engine_setEngine_self, State.setEngine_setEngine]
    rw [ih]
    simp only [List.length_cons]
    rw [List.range_succ_eq_map, List.foldl_cons, List.foldl_map]
    simp [Nat.add_assoc, Nat.add_comm 1]

theorem Engine.foldl_setG_withBudget (r b : Nat) (f : Nat → Word64) (l : List Nat) (x : Engine) :
  l.foldl (fun (x : Engine) i => x.setG (r + i) (f i)) { x with budget := b } = { l.foldl (fun (x : Engine) i => x.setG (r + i) (f i)) x with budget := b } := by
  induction l generalizing x with
  | nil => rfl
  | cons a t ih => simp only [List.foldl_cons, Engine.setG_withBudget]; exact ih (x.setG (r + a) (f a))

theorem Engine.foldl_setG_running (r : Nat) (f : Nat → Word64) (l : List Nat) (x : Engine) :
  (l.foldl (fun (x : Engine) i => x.setG (r + i) (f i)) x).running = x.running := by
  induction l generalizing x with
  | nil => rfl
  | cons a t ih => simp only [List.foldl_cons]; rw [ih]; simp

theorem State.issue_putGs {s : State} {e op r : Nat} {w : Word64} {l : List Word64} {lvl} {body : State → Word64 → Effect} (h : s.executes e lvl w) (ho : wOp w = op)
   (hb : body (s.charged e) w = .done ((s.charged e).putGs e r l)) :
   s.issue e op lvl body = s.stepped e ((List.range l.length).foldl (fun (x : Engine) i => x.setG (r + i) (l.getD i 0)) (s.engine e)) := by
  have hx := State.putGs_eq (s.leaveGate e) e r l { s.engine e with budget := (s.engine e).budget - 1 }
  rw [← State.leaveGate_setEngine, show (s.setEngine e { s.engine e with budget := (s.engine e).budget - 1 }).leaveGate e = s.charged e from rfl,
    Engine.foldl_setG_withBudget] at hx
  rw [State.issue_done h ho hb, hx]
  · simp [State.advanced, State.stepped, State.leaveGate_setEngine]
  · rw [hx]; simp [Engine.foldl_setG_running, h.running]

theorem State.issue_setPc {s t : State} {e op : Nat} {w : Word64} {lvl} {body : State → Word64 → Effect} (h : s.executes e lvl w) (ho : wOp w = op) (hb : body (s.charged e) w = .done t) : s.issue e op lvl body = t.setPc e ((s.engine e).pc + 1) := by
  rw [State.issue_executes h ho, hb]; simp [State.settleEffect]
end Sys2Proof.Machine
end

