-- ==== Sys2Proof/Tests/Slice0.lean ====
section
/-! SUPPORT. Small tests of single commands, and a witness for each statement that has hypotheses. -/

namespace Sys2Proof.Tests

open Sys2Proof Sys2Proof.Machine

set_option Elab.async false

/-! ## Small states -/

/-- A word from its opcode, RD, RA and lower bits (R178, R179). -/
def enc (op rd ra low : Nat) : Word64 := BitVec.ofNat 64 (op * 2 ^ 56 + rd * 2 ^ 46 + ra * 2 ^ 40 + low)

/-- Format R or H with RB. -/
def encB (op rd ra rb low : Nat) : Word64 := enc op rd ra (rb * 2 ^ 34 + low)

/-- Format H: handles, MOD and IMM. -/
def encH (op rd ra rb ha hb hd md imm : Nat) : Word64 :=
  encB op rd ra rb (ha * 2 ^ 30 + hb * 2 ^ 26 + hd * 2 ^ 22 + md * 2 ^ 16 + imm)

/-- Format M: handle, size code and offset. -/
def encM (op rd ra hs sz off : Nat) : Word64 := enc op rd ra (hs * 2 ^ 36 + sz * 2 ^ 33 + off)

/-- An engine at word `w` with g1 = 64, g2 = 3 and open handles. -/
def engAt (l : Level) (w : Word64) : Engine :=
  { running := true, level := l, partition := 1, code := [w], budget := 9, g := [(1, 64), (2, 3)]
    h := [(1, ⟨2, 0, 15, l, 1, 4128⟩), (2, ⟨8, 5, 4, l, 1, 64⟩), (3, ⟨3, 6, 1, l, 1, 64⟩), (4, ⟨9, 1, 15, l, 1, 64⟩), (5, ⟨11, 1, 1, l, 1, 64⟩),
      (6, ⟨6, 1, 15, l, 1, 32⟩), (7, ⟨7, 1, 15, l, 1, 64⟩), (8, ⟨1, 0, 2, l, 1, 64⟩), (9, ⟨4, 1, 3, l, 1, 64⟩)] }

/-- The state after reset with power, and with engine 4 at word `w`. -/
def at4 (l : Level) (w : Word64) (f : Engine → Engine := id) : State :=
  ({ State.reset with pwr := { pwrgd := true } } : State).setEngine 4 (f (engAt l w))

/-- A sealed packet to the controller or to an agent. -/
def pkt (src dest : Fid) (typ : BitVec 8) (l : List Byte) (f : Header → Header := id) : Packet :=
  Packet.seal { hdr := f { dest := dest, src := src, cls := .control, typ := typ, length := BitVec.ofNat 13 l.length }, payload := l }

/-! ## Instructions -/

/-- One legal word of each opcode, registers from g1 to g3, a destination in g3 (g8 where it is a line). -/
def isaWords : List (Nat × Word64) :=
  [(0x00, enc 0 0 0 0), (0x01, enc 1 0 0 0), (0x02, encB 2 3 1 2 0), (0x03, encB 3 3 1 2 0), (0x04, encB 4 3 1 2 0), (0x05, encB 5 3 1 2 0),
   (0x06, encB 6 3 1 2 0), (0x07, encB 7 3 1 2 0), (0x08, encB 8 3 1 2 0), (0x09, encB 9 3 1 2 0), (0x0A, encB 10 3 1 2 0),
   (0x0B, encB 11 3 1 2 0), (0x0C, encB 12 3 1 2 0), (0x0D, encB 13 3 1 2 0), (0x0E, encB 14 3 1 2 0), (0x0F, encB 15 3 1 2 0)] ++
  [(0x10, enc 0x10 3 1 (2 ^ 40 - 1)), (0x11, enc 0x11 3 1 7), (0x12, enc 0x12 3 1 7), (0x13, enc 0x13 3 1 7), (0x14, enc 0x14 3 1 63),
   (0x15, enc 0x15 3 1 63), (0x16, enc 0x16 3 0 (2 ^ 39)), (0x17, enc 0x17 3 1 0xFFFFFF), (0x18, encB 0x18 3 1 2 (7 * 2 ^ 28)),
   (0x19, enc 0x19 3 1 (63 * 2 ^ 22)), (0x1A, encB 0x1A 3 1 2 (7 * 2 ^ 22 + 7 * 2 ^ 16)), (0x1B, enc 0x1B 3 1 0), (0x1C, enc 0x1C 3 1 0),
   (0x1D, encB 0x1D 3 1 2 (8 * 2 ^ 16)), (0x1E, enc 0x1E 9 1 (2 * 2 ^ 34 + 7 * 2 ^ 30 + 2 ^ 29)), (0x1F, enc 0x1F 9 1 (7 * 2 ^ 36 + 2 ^ 34))] ++
  [(0x20, encM 0x20 3 1 0 0 0), (0x21, encM 0x21 3 1 0 7 0), (0x22, encM 0x22 3 1 0 3 (2 ^ 33 - 8)), (0x23, encM 0x23 8 1 0 4 0),
   (0x24, encM 0x24 8 1 0 4 0), (0x25, encM 0x25 2 1 0 2 0), (0x26, encM 0x26 2 1 0 6 0), (0x27, encH 0x27 0 1 0 0 0 1 0 0),
   (0x28, encH 0x28 8 1 0 3 0 0 8 0), (0x29, encH 0x29 3 0 1 1 0 0 0 60), (0x2A, encH 0x2A 3 0 0 4 0 0 0 0), (0x2B, encH 0x2B 3 1 0 1 0 0 0 0)] ++
  [(0x30, encH 0x30 3 0 0 1 0 0 9 0), (0x31, encH 0x31 3 2 0 0 0 0 1 0), (0x32, encH 0x32 3 0 0 0 0 1 1 0), (0x33, encH 0x33 3 1 0 0 0 0 1 8),
   (0x34, encH 0x34 3 1 2 0 0 0 1 8), (0x40, encH 0x40 3 0 0 1 2 0 0 0), (0x41, encH 0x41 3 0 0 0 2 0 1 0), (0x42, encH 0x42 0 0 0 0 2 0 0 0),
   (0x43, encH 0x43 3 2 0 0 0 0 0 0), (0x44, encH 0x44 3 0 1 7 1 8 0 0)] ++
  [(0x50, encB 0x50 3 0 2 0), (0x51, encB 0x51 0 1 2 (3 * 2 ^ 19)), (0x52, encB 0x52 0 1 2 (4 * 2 ^ 19)), (0x53, enc 0x53 3 0 0),
   (0x54, enc 0x54 3 0 0), (0x60, encH 0x60 8 1 2 5 0 0 0 0), (0x61, encH 0x61 3 1 2 5 0 0 0 0), (0x62, encH 0x62 8 1 2 0 0 0 1 0),
   (0x63, encH 0x63 8 1 2 0 0 0 0 0), (0x64, encH 0x64 3 1 2 1 0 0 0 0), (0x65, encH 0x65 0 0 0 1 0 8 1 0)] ++
  [(0x70, encH 0x70 0 1 0 0 0 9 1 0x15), (0x71, encH 0x71 0 0 0 1 0 0 0 0), (0x72, encH 0x72 0 0 0 1 0 9 0 0x10), (0x73, encH 0x73 3 0 0 1 0 0 0 0),
   (0x74, encH 0x74 0 0 0 0 0 9 0 2), (0x75, encH 0x75 3 0 0 6 6 8 0 0), (0x76, encH 0x76 3 1 2 6 0 0 16 0), (0x77, encH 0x77 0 0 0 6 0 0 0 0),
   (0x78, encH 0x78 0 2 1 1 0 0 0 0), (0x79, encH 0x79 3 0 0 1 0 0 0 0), (0x7A, encH 0x7A 0 2 0 0 0 0 1 0)] ++
  [(0x80, enc 0x80 0 0 (2 ^ 40 - 1)), (0x81, enc 0x81 3 0 1), (0x82, enc 0x82 0 1 0), (0x83, enc 0x83 0 2 (2 ^ 40 - 1)),
   (0x84, enc 0x84 9 1 (2 * 2 ^ 34 + 15 * 2 ^ 30 + 2 ^ 28)), (0x85, enc 0x85 0 1 0), (0x86, enc 0x86 0 1 0), (0x87, enc 0x87 0 0 0)]

/-- Every opcode of R186 to R193 has a legal word in the list, with that opcode and a guard that always holds. -/
theorem test_isa_words : isaWords.length = 84
    ∧ (isaWords.all fun x => wOp x.2 == x.1 && legal x.2 && wPidx x.2 == 0 && !wNeg x.2) = true := by decide +kernel

theorem at4_executes {l m : Level} {w : Word64} (h : legal w = true) (hp : wPidx w = 0) (hn : wNeg w = false) (hl : levelRank m ≤ levelRank l) :
    (at4 l w).executes 4 m w := by
  have he : (at4 l w).engine 4 = engAt l w := rfl
  have hp4 : ({ State.reset with pwr := { pwrgd := true } } : State).gatesOpen = true ∧ State.reset.pausing = false := by decide +kernel
  have hg : (at4 l w).gatesOpen = true := hp4.1
  have hr : (at4 l w).rt0Out = false := rfl
  have hw : nextAtGate (at4 l w).tri.gateWait (at4 l w).tri.gateTurn = none := rfl
  refine ⟨by rw [he]; rfl, by rw [he]; rfl, h, by rw [he]; exact Nat.succ_ne_zero 8, ?_, by rw [he]; exact hl, hp4.2, fun _ => ?_⟩
  · rw [he, hp, hn]
    exact Bool.noConfusion
  · simp [State.gateServes, hg, hr, hw]

/-- Each of the words executes, whatever level its row asks for. -/
theorem witness_executes (m : Level) : ∀ x ∈ isaWords, (at4 .vendor x.2).executes 4 m x.2 ∧ wOp x.2 = x.1 := by
  intro x hx
  have h := List.all_eq_true.mp test_isa_words.2 x hx
  simp only [Bool.and_eq_true, beq_iff_eq, Bool.not_eq_true'] at h
  exact ⟨at4_executes h.1.1.2 h.1.2 h.2 (by cases m <;> decide), h.1.1.1⟩

/-- With guard 8 they do not (R178). -/
theorem witness_guard : (isaWords.all fun x => let w := x.2 ||| 0x0080000000000000
    legal w && wOp w == x.1 && (engAt .tenant w).pred (wPidx w) == wNeg w) = true := by decide +kernel

/-- The other outcomes of issue: a PC outside the image, an illegal word, no budget, a level that does not suffice. -/
theorem witness_issue : (engAt .tenant 0).issues = true ∧ ({ engAt .tenant 0 with pc := 1 } : Engine).code[1]? = none
    ∧ legal (enc 0x90 0 0 0) = false ∧ legal (enc 0x01 0 0 1) = false ∧ levelRank (engAt .tenant 0).level < levelRank .operator := by
  decide +kernel

/-- The word of the list with an opcode. -/
def wd (op : Nat) : Word64 := ((isaWords.find? fun x => x.1 == op).map (·.2)).getD 0

/-- Loads, stores and atomics: the handle, the address and the range of each word (LoadAndStoreResults, TableAndCopyResults). -/
theorem witness_memory :
    ([0x20, 0x21, 0x22, 0x23, 0x24, 0x25, 0x26].all fun op => let w := wd op; let s := at4 .tenant w
      let a := (s.g 4 (wRa w) + (BitVec.ofNat 33 w.toNat).signExtend 64).toNat
      match (s.engine 4).handle (wHs w) with
      | some h => h.kind == 1 && h.rights &&& 3 == 3 && !s.setLocked h && !h.readOnly && a % szBytes (wSz w) == 0
          && decide (a + szBytes (wSz w) ≤ h.size) && !s.readLost h a (szBytes (wSz w)) && (s.engine 4).localMem.wf
      | none => false) = true := by decide +kernel

/-- CAS finds the value it compares with, and another one; the accesses that fault. -/
theorem witness_memory_cases :
    szValue 2 ((at4 .tenant (wd 0x25) fun x => { x with localMem := [⟨64, 3⟩] }).spaceBytes 4 ⟨1, 0, 15, .tenant, 1, 262144⟩ 64 4) = 3
    ∧ szValue 2 ((at4 .tenant (wd 0x25)).spaceBytes 4 ⟨1, 0, 15, .tenant, 1, 262144⟩ 64 4) = 0
    ∧ ((at4 .tenant (encM 0x20 3 1 15 0 0)).engine 4).handle 15 = none
    ∧ legal (encM 0x20 3 1 15 0 0) = true ∧ legal (encM 0x22 3 1 3 0 0) = true ∧ legal (encM 0x20 3 2 0 3 0) = true
    ∧ (((at4 .tenant 0).engine 4).handle 3).map (·.rights) = some 1
    ∧ (((at4 .tenant 0).engine 4).handle 6).map (·.kind) = some 6
    ∧ 3 % szBytes 3 ≠ 0 ∧ legal (encM 0x22 3 1 9 0 0) = true
    ∧ (((at4 .tenant 0).engine 4).handle 9).map (·.readOnly) = some true
    ∧ (((at4 .tenant 0).engine 4).handle 8).map (fun h => decide (h.size < 64 + szBytes 0)) = some true
    ∧ (at4 .operator (encM 0x20 3 0 10 3 0) fun x => { x with h := x.h.set 10 ⟨10, 0, 3, .operator, 0, 131072⟩ }).readLost ⟨10, 0, 3, .operator, 0, 131072⟩ 0 8 = false := by
  decide +kernel

/-- An install set of one patchless record, and a gambit record without sections whose CRC-32C is right. -/
def setBytes : List Byte := leBytes 4 0 ++ leBytes 4 16 ++ zeros 8
def gambitBytes : List Byte :=
  let l := leBytes 4 1 ++ leBytes 4 0 ++ [1, 0, 0, 0] ++ leBytes 4 0x10005 ++ leBytes 4 0 ++ leBytes 4 0 ++ leBytes 4 64 ++ zeros 4 ++ zeros 28
  l ++ leBytes 4 (crc32c (l ++ zeros 4))

/-- MCOPY, SEAL, TLOOK, TINST and TSTAGE (TableAndCopyResults). -/
theorem witness_table :
    (let s := at4 .vendor (wd 0x27); ((s.engine 4).handle 1).map (·.kind) = some 2 ∧ ((s.engine 4).handle 0).map (·.kind) = some 1
      ∧ (s.g 4 (wRa (wd 0x27))).toNat % 64 = 0 ∧ wHa (wd 0x27) = 0 ∧ wHd (wd 0x27) = 1 ∧ s.readLost ⟨1, 0, 15, .vendor, 1, 262144⟩ 64 0 = false)
    ∧ (let s := at4 .vendor (wd 0x29); wHa (wd 0x29) = 1 ∧ wImmH (wd 0x29) + 4 ≤ (s.g 4 (wRb (wd 0x29))).toNat
      ∧ (s.g 4 (wRa (wd 0x29))).toNat + (s.g 4 (wRb (wd 0x29))).toNat ≤ 4128)
    ∧ (wHa (wd 0x28) = 3 ∧ (((at4 .vendor 0).engine 4).handle 3).map (fun h => (h.kind, h.rights, h.obj)) = some (3, 1, 6))
    ∧ (let s : State := { at4 .vendor (wd 0x2A) with sets := [(1, { size := 64, bytes := Memory.writeBytes [] 0 setBytes })] }
      wHa (wd 0x2A) = 4 ∧ s.setLocked ⟨9, 1, 15, .vendor, 1, 64⟩ = false ∧ (s.engine 4).outstanding < 256 ∧ (s.sets.get 1).isSome
      ∧ (((s.charged 4).openTag 4 3 { kind := .install, handles := [4] }).parseSet (s.spaceBytes 4 ⟨9, 1, 15, .vendor, 1, 64⟩ 0 64)).isSome)
    ∧ (let s := at4 .vendor (wd 0x2B) fun x => { x with bufs := [(0, Memory.writeBytes [] 64 gambitBytes)] };
      wHa (wd 0x2B) = 1 ∧ (s.g 4 1).toNat + 64 ≤ 4128 ∧ leAt (s.spaceBytes 4 ⟨2, 0, 15, .vendor, 1, 4128⟩ 64 64) 24 4 = 64
      ∧ recordOk (s.spaceBytes 4 ⟨2, 0, 15, .vendor, 1, 4128⟩ 64 64) = true
      ∧ s.sectionsFit (recordOf (s.spaceBytes 4 ⟨2, 0, 15, .vendor, 1, 4128⟩ 64 64)).1
        (recordOf (s.spaceBytes 4 ⟨2, 0, 15, .vendor, 1, 4128⟩ 64 64)).2.1 = true) := by decide +kernel

/-- An engine with 256 tags outstanding (R185). -/
theorem witness_tags_full :
    256 ≤ ({ engAt .vendor 0 with tags := (List.range 256).map fun i => (i + 1, { kind := .send }) } : Engine).outstanding := by decide +kernel

/-- A message buffer with a Bulk WRITE of 4 bytes, and one with an undefined type. -/
def bufOf (h : Header) : NMap Memory := [(0, Memory.writeBytes [] 0 (h.bytes ++ [1, 2, 3, 4]))]
def bulkHdr : Header := { dest := 0x10005, src := 0, cls := .bulk, typ := 1, length := 4 }

/-- SEND, RREAD and RWRITE (SendAndRegisterResults). -/
theorem witness_send :
    (let s := at4 .operator (wd 0x30) fun x => { x with bufs := bufOf bulkHdr };
      headerFault (s.bufferPacket 4 0).hdr = none ∧ unanswered (s.bufferPacket 4 0).hdr = false ∧ (s.engine 4).level ≠ .tenant)
    ∧ (let s := at4 .operator (wd 0x30) fun x => { x with bufs := bufOf { bulkHdr with typ := 0x05 } };
      (headerFault (s.bufferPacket 4 0).hdr).isSome = true)
    ∧ wMod3 (wd 0x30) = true ∧ wMod3 (encH 0x30 3 0 0 1 0 0 1 0) = false ∧ legal (encH 0x30 3 0 0 1 0 0 1 0) = true
    ∧ wHa (wd 0x30) = 1 := by decide +kernel

/-- WAIT on an unknown, a ready and an outstanding tag; RECV of an empty inbox and of a message; completions (TagResults). -/
theorem witness_wait :
    (let i := ((at4 .tenant (wd 0x31)).g 4 (wRa (wd 0x31))).toNat;
      i = 3 ∧ ((at4 .tenant (wd 0x31)).engine 4).tags.get i = none
      ∧ ((at4 .tenant (wd 0x31) fun x => { x with tags := [(3, { kind := .send, ready := some (0, 7) })] }).engine 4).tags.get i
          = some { kind := .send, ready := some (0, 7) }
      ∧ ((at4 .tenant (wd 0x31) fun x => { x with tags := [(3, { kind := .send })] }).engine 4).tags.get i = some { kind := .send })
    ∧ wHd (wd 0x32) = 1 ∧ ((at4 .tenant (wd 0x32)).engine 4).inbox = []
    ∧ ((at4 .tenant (wd 0x32) fun x => { x with inbox := [(0, [1])] }).engine 4).inbox = [(0, [1])]
    ∧ ((at4 .tenant 0 fun x => { x with tags := [(3, { kind := .send })], blocked := .wait 3 5 1 }).engine 4).blocked = .wait 3 5 1 := by
  decide +kernel

/-- A queue-mode group of two endpoints without a tree, its engine's tags, an image (CollectiveClassResults). -/
def grp (lib : Bool) : Group :=
  { rec_ := { groupId := 5, library := lib, policyRing := false, chunkLog2 := 12, treeId := 1, window := 4, timeoutUs := 1000, partition := 1
              members := [⟨0x10005, 0, 0, 6, 0, false⟩, ⟨0x10006, 1, 0, 6, 0, false⟩] }, admission := 0, tree := 1 }

def withGroup (s : State) (g : Group) : State := { s with grp := { s.grp with groups := [g] } }

theorem witness_collective :
    (wHb (wd 0x40) = 2 ∧ wHa (wd 0x40) = 1 ∧ ((withGroup (at4 .tenant (wd 0x40)) (grp false)).group 5).isSome = true)
    ∧ (wHb (wd 0x41) = 2 ∧ (((withGroup (at4 .tenant (wd 0x41)) (grp true)).charged 4).gresv 4 5).2 = none
      ∧ (((withGroup (at4 .tenant (wd 0x41)) (grp false)).charged 4).gresv 4 5).2 = some 0xF2)
    ∧ wHb (wd 0x42) = 2 ∧ ((at4 .tenant (wd 0x43)).engine 4).tags.get ((at4 .tenant (wd 0x43)).g 4 (wRa (wd 0x43))).toNat = none
    ∧ ((at4 .tenant (wd 0x43) fun x => { x with tags := [(3, { kind := .collective 5 0 })] }).engine 4).tags.get 3 = some { kind := .collective 5 0 }
    ∧ (let s := at4 .tenant (wd 0x44); let t : State := { s with sq := { s.sq with images := [(1, { level := .tenant, partition := 1, entries := 1, squares := 0 })] } }
      wHa (wd 0x44) = 7 ∧ wHb (wd 0x44) = 1 ∧ wHd (wd 0x44) = 8 ∧ (t.sq.images.get 1).isSome ∧ wImmH (wd 0x44) < 1) := by decide +kernel

/-- A KV directory with one resident page, and the words of the placement class (PlacementClassResults). -/
def kvState (w : Word64) : State :=
  let s := at4 .operator w
  { s with plc := { s.plc with pages := [(0, { state := 1, partition := 1, page := 3, seqId := 64, fill := 0, endpoint := 5, slot := 0 })] } }

theorem witness_placement :
    wHa (wd 0x60) = 5 ∧ wHa (wd 0x61) = 5
    ∧ (let s := kvState (wd 0x62); (s.findPage 64 3).isSome = true ∧ s.findPage 64 4 = none ∧ s.g 4 1 = 64 ∧ s.g 4 2 = 3)
    ∧ ((kvState (wd 0x63)).pageLine 64 3).isSome = true ∧ ((kvState (wd 0x64)).findPage 64 3).map (·.2.state) = some 1
    ∧ wHa (wd 0x64) = 1 ∧ wHa (wd 0x65) = 1 ∧ wHd (wd 0x65) = 8
    ∧ (let s := (at4 .tenant (wd 0x65)).charged 4; (s.footReport 1 ⟨[], 0, 0, 0, 0, 0, []⟩ (s.footItems 1 ⟨[], 0, 0, 0, 0, 0, []⟩)).length ≤ 4128) := by
  decide +kernel

/-- Handles that open, are absent or denied, are busy or free (HandleResults). -/
theorem witness_handles :
    (match (at4 .operator 0).openHandle .operator 0 3 0 1 with | .handle _ => true | _ => false) = true
    ∧ (match (at4 .operator 0).openHandle .operator 0 8 9 1 with | .absent => true | _ => false) = true
    ∧ (match (at4 .tenant 0).openHandle .tenant 1 3 0 1 with | .denied => true | _ => false) = true
    ∧ (engAt .tenant 0).handleBusy 1 = false ∧ ((engAt .tenant 0).handle 1).isSome = true
    ∧ ({ engAt .tenant 0 with tags := [(1, { kind := .send, handles := [1] })] } : Engine).handleBusy 1 = true
    ∧ wHa (wd 0x71) ≠ 0 ∧ wHd (wd 0x72) ≠ 0 := by decide +kernel

/-- The key store, the vendor instructions, a life cycle that may advance and one that may not (KeyAndVendorResults). -/
theorem witness_keys :
    wHd (wd 0x74) ≠ 0 ∧ wImmH (wd 0x74) ≤ 2 ∧ (at4 .tenant 0).sec.keys.length < 8192 ∧ (at4 .tenant 0).keysOf 1 < 256
    ∧ (let s := at4 .tenant (wd 0x75); let t : State := { s with sec := { s.sec with keys := [(1, { typ := 0, partition := 1, level := .tenant })] } }
      (t.sec.keys.get 1).isSome = true ∧ wHa (wd 0x75) = 6 ∧ wHb (wd 0x75) = 6 ∧ wHd (wd 0x75) = 8 ∧ wModHi (wd 0x76) = 2
      ∧ (t.engine 4).handleBusy 6 = false)
    ∧ (let s := at4 .vendor (wd 0x78); (s.g 4 (wRa (wd 0x78))).toNat = 3 ∧ (s.g 4 (wRb (wd 0x78))).toNat ≤ 4128 ∧ wHa (wd 0x78) = 1)
    ∧ wHa (wd 0x79) = 1
    ∧ (let s := at4 .vendor (wd 0x7A); s.scrubsActive = 0 ∧ 0x1A53 ∉ s.pwr.railsOut ∧ s.sec.lifeCycle < (s.g 4 (wRa (wd 0x7A))).toNat
      ∧ (s.g 4 (wRa (wd 0x7A))).toNat ≤ 3 ∧ s.sec.parts.all (fun p => p.2.state == 0) = true) := by decide +kernel

/-- LCADV advances to state 3, and with VPP_FUSE out of range it does not (R349, R449). -/
theorem test_lcadv :
    (match exec (.lcadv 4) (at4 .vendor (wd 0x7A)) with | .next t => (t.sec.lifeCycle, (t.engine 4).pred 1) | _ => (0, false)) = (3, true)
    ∧ (let s := at4 .vendor (wd 0x7A)
      match exec (.lcadv 4) { s with pwr := { s.pwr with railsOut := [0x1A53] } } with | .next t => (t.sec.lifeCycle, (t.engine 4).pred 1) | _ => (0, true))
      = (1, false) := by decide +kernel

/-! ## Witnesses: package, agents, time -/

/-- The endpoint and the switch the witnesses speak of. -/
def ep : AgentRef := ⟨.e, 5⟩
def sw : AgentRef := ⟨.s, 9⟩

/-- A powered and ready controller of fabric ID 0x1A000 that owns both agents; each has one port that is up. -/
def owned : State :=
  let s : State := { State.reset with pwr := { pwrgd := true } }
  let up : PortSt := { state := 2, lanes := 4, key := 2, farId := 0x1A000, credit := ⟨9999, 9999, 9999, 9999⟩ }
  let s := (s.updAgent ep fun g => { g with ports := [(0, up)], memBytes := 4096 }).updAgent sw fun g => { g with ports := [(0, up)] }
  let s := [(ep, 0x10005), (sw, 0x18009)].foldl (fun (s : State) x => (((s.setJfld x.1 JX_OWNER_OWNER_ID 0x1A000).setJfld x.1 JX_OWNER_GENERATION 1).setJx
    x.1 JX_ID (BitVec.ofNat 64 x.2))) s
  let s := s.setJfld ep JX_STATUS_REJOINED 1
  ((s.setFld PWR_STATUS_READY 1).setFld PWR_STATUS_PHASE 7)

/-- A register request of the owner. -/
def regPkt (a : AgentRef) (typ : BitVec 8) (addr : Nat) (l : List Byte := []) : Packet :=
  pkt 0x1A000 (match a.variant with | .s => 0x18009 | .e => 0x10005) typ l fun h => { h with addr := BitVec.ofNat 57 addr }

theorem witness_owned :
    owned.ready = true ∧ owned.fid = 0x1A000 ∧ [ep, sw].all (fun a => owned.owner a == 0x1A000 && !owned.orphan a && owned.portUp (.agent a) 0) = true := by
  decide +kernel

/-- Items in and out of sequence; sensors at the bounds; quarters (PackageResults). -/
theorem witness_package :
    (let p := State.reset.nocPair 1 2; p.src = 1 ∧ p.dst = 2 ∧ p.held = [] ∧ p.delivered.length = 0 ∧ p.nextSeq = 0)
    ∧ (let t : State := { State.reset with noc := { pairs := [{ src := 1, dst := 2, nextSeq := 1, delivered := [7] }] } }
      0 < (t.nocPair 1 2).delivered.length ∧ 0 < (t.nocPair 1 2).nextSeq)
    ∧ (State.reset.quarter 0 = .gated ∧ (∀ x ∈ State.reset.sq.tiles, x.quarter ≠ 3))
    ∧ (let t : State := { State.reset with sq := { quarters := [(3, .ramping), (4, .on)] } }
      (List.range 48).find? (fun i => t.quarter i == .ramping) = some 3 ∧ t.sq.ungate = [] ∧ t.quarter 4 = .on ∧ ∀ x ∈ t.sq.tiles, x.quarter ≠ 4)
    ∧ (let t : State := { State.reset with pwr := { held := true, brownRails := [1] } }
      t.pwr.held = true ∧ ∀ r ∈ t.pwr.brownRails, r + 0x1A40 = 0x1A41) := by
  decide +kernel

/-- The owner's packet and the reset states of an endpoint (AgentResetResults); registers that exist and forced sources (AgentRegisterResults). -/
theorem witness_agent_reset :
    owned.ownerPacket ep (regPkt ep 0x30 JX_CTRL (leBytes 8 1)) ∧ owned.jfld ep JX_STATUS_COMPUTE_IN_RESET = 0
    ∧ (owned.setJfld ep JX_STATUS_COMPUTE_IN_RESET 1).jfld ep JX_STATUS_COMPUTE_IN_RESET = 1 ∧ (owned.agent ep).crstN = true
    ∧ ((owned.updAgent ep fun g => { g with crstN := false }).agent ep).crstN = false
    ∧ owned.jfld ep JX_STATUS_DRAINED ≠ 1 ∧ (owned.setJfld ep JX_STATUS_DRAINED 1).jfld ep JX_STATUS_DRAINED = 1
    ∧ (owned.setJfld ep JX_STATUS_DRAINED 1).ownerPacket ep (regPkt ep 0x30 JX_CTRL (leBytes 8 1)) := by
  unfold State.ownerPacket State.freshPacket
  decide +kernel

theorem witness_agent_register :
    jxExists JX_CTRL = true ∧ ¬ JX_CTRL = JX_ID ∧ JX_CTRL ≠ JX_EPOCH ∧ jxExists 0x1008 = true ∧ 0x1000 ≤ 0x1008
    ∧ regOffset (regPkt ep 0x29 JX_CTRL).hdr = JX_CTRL
    ∧ (regPkt ep 0x29 JX_CTRL).crcOk = true ∧ (pkt 7 0x10005 0x29 []).crcOk = true ∧ (pkt 7 0x10005 0x29 []).hdr.src ≠ owned.owner ep
    ∧ (owned.setJfld ep JX_STATUS_ORPHAN 1).orphan ep = true := by decide +kernel

/-- Beacons of the owner, whole or not, newer or older (OwnerAndBeaconResults). -/
def beaconPkt (seq : Nat) : Packet := pkt 0x1A000 noFid 0x32 (State.beaconBytes { owned with time := { beaconSeq := BitVec.ofNat 32 seq } })
theorem witness_beacon :
    (beaconPkt 3).crcOk = true ∧ beaconGen (beaconPkt 3) = 0 ∧ owned.jfld ep JX_OWNER_GENERATION = 1
    ∧ (owned.setJfld ep JX_OWNER_GENERATION 0).jfld ep JX_OWNER_GENERATION = 0 ∧ beaconSeqOf (beaconPkt 3) = 3
    ∧ seqLater (beaconSeqOf (beaconPkt 3)) 2 = true ∧ (owned.agent ep).lastBeaconSeq = none
    ∧ ({ beaconPkt 3 with crc := 0 } : Packet).crcOk = false ∧ (owned.agent ep).holdoverRaised = false
    ∧ 2 ≤ (owned.port (.agent ep) 0).key := by decide +kernel

/-- A claim for any ID, of generation 2, 1 or 0, against the owner's generation 1 (OwnerAndBeaconResults). -/
def claimPkt (gen id : Nat) : Packet := pkt 0x1A000 noFid 0x10 (leBytes 4 id ++ leBytes 4 gen ++ leBytes 4 0xFFFFFFFF ++ zeros 52 ++ zeros 64)
theorem witness_claim :
    [0, 1, 2].all (fun g => (claimPkt g 7).crcOk && claimTarget (claimPkt g 7) == noFid && claimGen (claimPkt g 7) == g
      && owned.claimGenuine ep (claimPkt g 7) true true) = true ∧ claimId (claimPkt 1 7) ≠ owned.owner ep := by decide +kernel

/-- Reports, events, the phases of a scrub and low power (AgentReportResults). -/
theorem witness_report :
    owned.mayReport ep = true ∧ packEvents 8 [({ origin := 1, source := 3, severity := 2 } : Event)] ≠ [] ∧ owned.computeUp ep = true
    ∧ (owned.agent ep).quiet = true ∧ owned.jfld ep JX_STATUS_PLAY_PENDING = 0
    ∧ (owned.setJfld ep JX_STATUS_COMPUTE_IN_RESET 1).computeUp ep = false
    ∧ (owned.agent ep).ports = [(0, owned.port (.agent ep) 0)]
    ∧ ((owned.updAgent ep fun g => { g with scrub := some { former := 1, seqNo := 1 } }).agent ep).scrub = some { former := 1, seqNo := 1 } := by
  decide +kernel

/-- Accesses of another size, alignment or address, and registers that stand (RegisterWriteResults). -/
theorem witness_register :
    regDesc 0x1 = none ∧ [FLT_STATUS, FLT_DROP, FLT_VIOL, FLT_CAP_SEL, LED_SEQ, LED_FLASH, LED_COUNT, LED_SEC_SEL, PWR_STATUS, PWR_WAKE_STATUS,
      PWR_PART_SEL, CFB_QUOTA_SEL, SCH_ADMIT, TIM_NOW, TIM_STATUS, GRP_ABORTS, RTE_INSTALL, RTE_GAMBIT].all (fun a => (regDesc a).isSome && a % 8 == 0) = true := by
  decide +kernel

/-- Ticks, the switchover, an agent's commit and its applied play (TickAndEpochResults). -/
theorem witness_tick :
    owned.pwr.pwrgd = true ∧ owned.col.resetDue = false ∧ owned.fld TIM_TICK_SOURCE = 0 ∧ State.reset.pwr.pwrgd = false
    ∧ owned.rte.install = none ∧ owned.rte.play = none ∧ owned.time.pendingGeom = none
    ∧ (let t := owned.updAgent ep fun g => { g with commitAt := some (2, 5) }
      (t.agent ep).play = none ∧ (t.agent ep).commitAt = some (2, 5) ∧ (t.agent ep).copying = false ∧ seqLater (5 : BitVec 32) 4 = true
      ∧ seqLater (5 : BitVec 32) 5 = false)
    ∧ (let t := owned.updAgent ep fun g => { g with play := some ⟨1, 5, 3, [0], true⟩ }
      (t.agent ep).play = some ⟨1, 5, 3, [0], true⟩ ∧ (t.agent ep).commitAt = none ∧ (t.agent ep).copying = false) := by
  decide +kernel

/-- Beacon, geometry and edges (SteeringAndEdgeResults). -/
theorem witness_steering :
    owned.fld TRI_STATUS_ROLE ≠ 1 ∧ (owned.setFld TRI_STATUS_ROLE 1).fld TRI_STATUS_ROLE = 1 ∧ owned.tri.paired = false
    ∧ owned.geometryOk 1953 1 = true ∧ owned.geometryOk 0 1 = false
    ∧ SCH_EPOCH_CFG_SLOTS.of (BitVec.ofNat 64 (SCH_EPOCH_CFG_SLOTS.put 0 1953).toNat) = 1953
    ∧ 20 ≤ owned.epochTicks ∧ owned.time.lostNs = none
    ∧ tooSoon none 5 = false ∧ tooSoon (some 5) 6 = true ∧ bit false = 0 ∧ owned.fld SCH_SYNC_CFG_EDGE = 0
    ∧ owned.steering = false ∧ (owned.setFld SCH_SYNC_STATUS_STATE 1).steering = true ∧ (owned.setFld SCH_SYNC_STATUS_STATE 1).matchEdge 0 = some 0
    ∧ (owned.setFld TIM_PTP_CFG_ENABLE 1).fld TIM_PTP_CFG_ENABLE = 1 ∧ owned.dom.ip ≠ 1 ∧ owned.fld TIM_PTP_CFG_ENABLE = 0 := by decide +kernel

/-! ## Witnesses: bring-up, links, packets -/

/-- Time at `ns`. -/
def atNs (s : State) (ns : Nat) : State := s.setReg TIM_NOW (BitVec.ofNat 64 ns)

/-- Power, resets, brown-out and PERST (ResetAndPowerResults). -/
theorem witness_power :
    owned.pwr.tripped = false ∧ owned.pwr.pwrgd = true ∧ State.reset.pwr.pwrgd = false ∧ owned.pwr.resetN = true ∧ owned.hasStandby = false
    ∧ owned.pwr.brownBackNs = none ∧ (atNs owned 10000000).now = 10000000 ∧ 0 + 10000000 ≤ (atNs owned 10000000).now
    ∧ owned.sec.lifeCycle = 1 ∧ PWR_CTRL_CTRL_RESET.of (PWR_CTRL_CTRL_RESET.put 0 1) = 1 := by decide +kernel

/-- The phases of bring-up, and what passes and fails in them (BringupResults). -/
theorem witness_bringup :
    owned.fld PWR_STATUS_PHASE = 7 ∧ ([1, 2, 3, 4, 5, 6].all fun p => (owned.setFld PWR_STATUS_PHASE p).fld PWR_STATUS_PHASE == p) = true
    ∧ ({} : PhaseResult).failedBlocks = [] ∧ ({ gatesOk := false } : PhaseResult).gatesOk = false ∧ ({ gatesOk := true } : PhaseResult).gatesOk = true
    ∧ ({ bootOk := false } : PhaseResult).bootOk = false ∧ ({ bootOk := true } : PhaseResult).bootOk = true ∧ owned.pwr.resetKind = 0 := by
  decide +kernel

/-- Training at each width (LinkTrainingResults); a port that trains. -/
theorem witness_training :
    ([0, 1, 2, 3, 4].map fun l => (({ planned := 4 } : PortSt).trained l).state) = [5, 4, 3, 3, 2]
    ∧ ((owned.setPort .ctl 3 { state := 1 }).port .ctl 3).state = 1 ∧ (owned.port .ctl 3).state ≠ 1
    ∧ LNK_CTRL_RETRAIN.of (LNK_CTRL_RETRAIN.put 0 1) = 1 ∧ LNK_CTRL_RETRAIN.of 0 = 0 := by decide +kernel

/-- An agent that answered discovery, its claim, its known-answer result and a restart of streams (DiscoveryResults). -/
def knownState : State :=
  atNs { owned with dom := { owned.dom with known := [{ ref := ep, fid := 0x10005, ports := 4, katAsked := true }], restarts := [(0x10005, [0x18009], 0)] } } 100000
def katPkt (bad : Nat) : Packet := pkt 0x10005 0x1A000 0x36 (leBytes 4 7 ++ leBytes 4 bad ++ zeros 8)

theorem witness_discovery :
    owned.ready = true ∧ State.reset.ready = false ∧ owned.dom.known.find? (fun k => k.fid == 0x10005) = none
    ∧ ((knownState.dom.known.find? fun k => k.fid == 0x10005).map fun k => (k.claimAcked, decide (k.claimSentNs + 100000 ≤ knownState.now)))
        = some (false, true)
    ∧ (knownState.dom.restarts.map fun x => (x.1, x.2.1, decide (x.2.2 + 100000 ≤ knownState.now))) = [(0x10005, [0x18009], true)]
    ∧ owned.dom.closed = false ∧ owned.dom.known.isEmpty = true ∧ owned.bootLinks.isEmpty = true := by decide +kernel

theorem witness_kat :
    ((knownState.dom.known.find? fun k => k.fid == (katPkt 0).hdr.src && k.katAsked && !k.admitted).isSome = true)
    ∧ leAt (katPkt 0).payload 4 4 = 0 ∧ leAt (katPkt 1).payload 4 4 ≠ 0 ∧ knownState.isDup .ctl (katPkt 0).hdr = false := by decide +kernel
theorem witness_kat_crc : (katPkt 0).crcOk = true ∧ (katPkt 1).crcOk = true := by decide +kernel
theorem witness_rejoin :
    owned.jfld ep JX_STATUS_REJOINED = 1 ∧ (owned.setJfld ep JX_STATUS_REJOINED 0).jfld ep JX_STATUS_REJOINED = 0 := by decide +kernel
theorem witness_rejoin_id : owned.nodeFid (.agent ep) = 0x10005 ∧ owned.nodeFid (.agent ep) ≠ noFid := by decide +kernel

/-- Frames that fail each check, and one that passes (FrameResults). -/
def frm : Frame := { ctr := 6, pkt := pkt 0x1A000 0x10005 0x36 (zeros 64) }
theorem witness_frame :
    frm.fecOk = true ∧ frm.tagOk = true ∧ (owned.port (.agent ep) 0).lastRx = none ∧ (owned.port (.agent ep) 0).rxBoot = false
    ∧ ((owned.setPort (.agent ep) 0 { lastRx := some 6 }).port (.agent ep) 0).lastRx = some 6 ∧ frm.ctr.toNat ≤ 6 ∧ 5 < frm.ctr.toNat
    ∧ headerFault frm.pkt.hdr = none ∧ (headerFault { frm.pkt.hdr with typ := 0x05, cls := .bulk }).isSome = true
    ∧ (owned.port (.agent ep) 0).scrubBlocks frm.pkt.hdr = false
    ∧ ({ scrub := [0x10005] } : PortSt).scrubBlocks { frm.pkt.hdr with cls := .bulk, typ := 1, src := 0x10005, partition := 1 } = true := by decide +kernel

/-- Credit below and at the pools, a rekey that is asked or not, a head slot of the source's own (LinkUpkeepResults). -/
theorem witness_upkeep :
    owned.portUp (.agent ep) 0 = true ∧ owned.portUp .ctl 3 = false ∧ owned.portUsable (.agent ep) 0 = true ∧ owned.portUsable .ctl 3 = false
    ∧ ((List.range 4).all fun i => decide (poolSizes.get i ≤ (owned.port (.agent ep) 0).credit.get i)) = true
    ∧ ((List.range 4).any fun i => decide ((({ state := 2 } : PortSt)).credit.get i < poolSizes.get i)) = true
    ∧ (owned.port (.agent ep) 0).rekeyAsked = false ∧ owned.refOf 0x10005 = none ∧ slotKind (owned.slotEntry ep 0 0) ≠ 1
    ∧ owned.farNode (.agent ep) 0 = some (.ctl, 0) := by decide +kernel

/-- An endpoint with a window, a receive ring of four slots and partition 0 (EndpointPacketResults). -/
def ringState : State := owned.updAgent ep fun g => { g with windows := [⟨0, 256, 64⟩], rxRing := some { partition := 0, base := 1024, log2 := 2 } }
def wrPkt (addr : Nat) (part : BitVec 12 := 0) : Packet := pkt 0x18009 0x10005 1 [1, 2, 3, 4] fun h => { h with cls := .bulk, addr := BitVec.ofNat 57 addr, partition := part }

theorem witness_endpoint :
    ringState.computeUp ep = true ∧ (ringState.agent ep).lowPower = 0 ∧ (ringState.setJfld ep JX_STATUS_REJOINED 0).computeUp ep = false
    ∧ (ringState.agent ep).hasHead (ringState.localOf ep) 0 = false ∧ (wrPkt 256).hdr.partition = (ringState.agent ep).partition
    ∧ (wrPkt 256 1).hdr.partition ≠ (ringState.agent ep).partition
    ∧ ((316 : Nat) :: [317, 255]).map (fun a => (ringState.agent ep).inWindow 0 a 4) = [true, false, false]
    ∧ ((ringState.agent ep).rxRing.map fun r => (decide (r.filled < 2 ^ r.log2 - 1), r.filled)) = some (true, 0)
    ∧ 2 ^ 2 - 1 ≤ ({ partition := 0, base := 1024, log2 := 2, fill := 3 } : RxRing).filled ∧ (owned.agent ep).rxRing = none
    ∧ (ringState.rx (.agent ep) 0x18009 0).held = [] := by decide +kernel
theorem witness_endpoint_packet :
    (wrPkt 256).crcOk = true ∧ ({ wrPkt 256 with crc := 0 } : Packet).crcOk = false ∧ (wrPkt 256).hdr.ord = false := by decide +kernel
theorem witness_endpoint_dup : ringState.isDup (.agent ep) (wrPkt 256).hdr = false := by decide +kernel

/-- A source whose partition holds page 3 in slot 0 of the spill pool; inboxes; a held flag (ControllerPacketResults). -/
def spillState : State :=
  let s : State := { owned with sec := { owned.sec with devs := [(5, { state := 1, partition := 1 })] } }
  { s with
    plc := { s.plc with pages := [(0, { state := 3, partition := 1, page := 3, seqId := 64, fill := 0, endpoint := 0xFFFF, slot := 0 })] }
    engines := [(4, engAt .tenant 0)] }
def spillPkt (part aux : Nat) : Packet :=
  pkt 0x10005 0x1A000 1 [1, 2, 3, 4] fun h => { h with cls := .bulk, partition := BitVec.ofNat 12 part, aux := BitVec.ofNat 24 aux }

theorem witness_spill :
    spillState.spillAllowed (spillPkt 1 0).hdr = true ∧ spillState.spillAllowed (spillPkt 2 0).hdr = false ∧ spillState.isDup .ctl (spillPkt 1 0).hdr = false
    ∧ spillState.spillRange 1 9999999999 4 = false ∧ bitsAt (spillPkt 1 4).hdr.aux.toNat 0 5 = 4 ∧ spillState.isUplink (spillPkt 1 4) = false
    ∧ (spillState.engine 4).running = true ∧ (spillState.engine 4).inboxRoom 4 0 = true ∧ (spillState.engine 5).running = false
    ∧ (spillState.engine 4).level = .tenant ∧ (spillPkt 1 4).hdr.partition = (spillState.engine 4).partition
    ∧ (spillPkt 2 4).hdr.partition ≠ (spillState.engine 4).partition ∧ (spillState.rx .ctl 0x10005 0).held = [] := by decide +kernel
theorem witness_spill_crc : (spillPkt 1 0).crcOk = true ∧ (spillPkt 1 4).crcOk = true ∧ (spillPkt 2 4).crcOk = true := by decide +kernel

/-- Precedents that are missing, with requests left and without (ControllerPacketResults). -/
def heldF (n : Nat) : HeldFlag := { seq := 9, prec := 3, arrivedNs := 0, requests := n, hdr := (wrPkt 256).hdr }
theorem witness_precedents :
    ({ held := [heldF 0] } : StreamRx).held.find? (fun f => f.seq == 9) = some (heldF 0) ∧ ({ held := [] } : StreamRx).held.find? (fun f => f.seq == 9) = none
    ∧ ({ held := [heldF 0], gaps := [(5, 2)] } : StreamRx).missing 9 3 = [5, 6] ∧ ({ delivered := [] } : StreamRx).missing 9 3 = []
    ∧ (heldF 2).requests < 3 ∧ 3 ≤ (heldF 3).requests := by decide +kernel

/-- Packets outstanding with each count of resends, and answers to them (AnswerResults). -/
def sentState (t : TxPkt) : State := owned.setTx .ctl 0x10005 0xFF04 { nextSeq := 1, outstanding := [t] }
def sentPkt (typ : BitVec 8) (n : Nat) : TxPkt :=
  { pkt := pkt 0x1A000 0x10005 typ [] fun h => { h with stream := 0xFF04 }, resends := n }
def ansPkt (aux : Nat) (typ : BitVec 8) (l : List Byte) : Packet :=
  pkt 0x10005 0x1A000 typ l fun h => { h with stream := 0xFF04, aux := BitVec.ofNat 24 aux, addr := 0x10005 }

theorem witness_answer :
    (sentState (sentPkt 0x29 0)).sent .ctl 0x10005 0xFF04 0 = some (sentPkt 0x29 0) ∧ owned.sent .ctl 0x10005 0xFF04 0 = none
    ∧ (sentPkt 0x29 0).waiting = false ∧ (sentPkt 0x29 0).parked = false ∧ owned.noCount .ctl (sentPkt 0x29 0) = false ∧ 3 ≤ (sentPkt 0x29 3).resends
    ∧ originalDest (ansPkt 0 0x20 []).hdr = 0x10005 ∧ (ansPkt 9 0x21 []).hdr.aux.toNat % 256 = 9 ∧ owned.gatesOpen = true := by decide +kernel
theorem witness_answer_crc : (ansPkt 0 0x20 []).crcOk = true ∧ (ansPkt 9 0x21 []).crcOk = true ∧ ({ ansPkt 0 0x20 [] with crc := 0 } : Packet).crcOk = false := by
  decide +kernel

/-! ## Witnesses: faults, ledger, power -/

/-- Blocks in service, lost, in reset, in probation (BlockResults). -/
def blockState (b v : Nat) : State :=
  let s := atNs owned 100000000
  { s.setBlk FLT_BLKn_STATE b v with pwr := { s.pwr with deadBlocks := [b], resets := [(b, 0)] }, col := { s.col with quietUntil := [(b, 5)] } }

theorem witness_block :
    5 ∉ owned.pwr.deadBlocks ∧ 5 ∈ (blockState 5 2).pwr.deadBlocks ∧ (blockState 5 2).blk FLT_BLKn_STATE 5 = 2 ∧ owned.blk FLT_BLKn_STATE 3 < 2
    ∧ owned.ownShadowOpen 3 = false ∧ PWR_CTRL_BLOCK.of ((PWR_CTRL_BLOCK.put 0 3)) = 3
    ∧ PWR_CTRL_BLOCK_RESET.of (PWR_CTRL_BLOCK_RESET.put 0 1) = 1 ∧ owned.blk FLT_BLKn_STATE 5 ≠ 3 ∧ owned.fld TRI_CFG_AUTO_RESYNC = 1
    ∧ (blockState 5 2).pwr.resets.find? (fun x => x.1 == 5) = some (5, 0) ∧ 0 + 100000000 ≤ (blockState 5 2).now
    ∧ (blockState 5 1).col.quietUntil.get 5 = some 5 ∧ (blockState 5 1).blk FLT_BLKn_STATE 5 = 1 := by decide +kernel

/-- An event of a severity, and queues with room and without (CollectorResults). -/
def evt (sev : Nat) : Event := { origin := 0x1A000, source := 0x0060, severity := sev }
theorem witness_collector :
    mergeQueued [] (evt 3) = none ∧ reservedUsed [] < 256 ∧ generalUsed [] < 3840 ∧ lowestBelow [] 2 = none ∧ owned.col.lre0Wait = []
    ∧ nextServed [{ ev := evt 2, reserved := false }, { ev := evt 3, reserved := true }] = some { ev := evt 3, reserved := true }
    ∧ owned.led.buffer.length < 65536 ∧ FLT_SRCn_FORCE.of (FLT_SRCn_FORCE.put 0 1) = 1
    ∧ FLT_SRCn_MASK.of (srcWrite (defaultSev 96) (owned.reg (fltSrc 96)) (FLT_SRCn_FORCE.put 0 1)).1 = 0
    ∧ FLT_CFG_FAULTN_CLR.of (FLT_CFG_FAULTN_CLR.put 0 1) = 1 ∧ ((List.range 64).all fun b => owned.blk FLT_BLKn_STATE b == 0) = true
    ∧ FLT_CFG_FAULTN_SEV.of (FLT_CFG_FAULTN_SEV.put 0 3) = 3 := by decide +kernel
theorem witness_collector_bad :
    (let s := ((owned.setBlk FLT_BLKn_STATE 5 1).setBlk FLT_BLKn_WORST 5 3); s.blk FLT_BLKn_STATE 5 ≠ 0 ∧ 3 ≤ s.blk FLT_BLKn_WORST 5)
    ∧ 3840 ≤ generalUsed ((List.range 3840).map fun i => { ev := { evt 3 with source := i }, reserved := false }) := by decide +kernel

/-- A record on its way with no open record to merge into, and one with (LedgerAndReportResults). -/
def ledRec : LedgerRec :=
  { firstMs := 0, firstTick := 0, lastMs := 0, pcycle := 0, origin := 0x1A000, source := 0x60, severity := 2, shadow := false, escalated := false
    forced := false, typ := 0, tally := 1, detail := 0, port := 0xFFFF, capture := none, addr := 0, pips := 0 }
def ledState (open_ : Bool) : State :=
  { owned with led := { owned.led with buffer := [ledRec], writerNs := 500, ring := if open_ then [(0, ledRec)] else [], mergedNs := if open_ then [(0, 0)] else [] } }
theorem witness_ledger :
    (ledState false).mergeTarget ledRec = none ∧ (ledState true).mergeTarget ledRec = some ledRec ∧ (ledState false).ringLost = false
    ∧ ((ledState true).newestRec 0x1A000 0x60) = some ledRec ∧ owned.newestRec 0x1A000 0x60 = none ∧ owned.led.buffer = []
    ∧ (owned.setFld LED_FLASH_FLASH_OK 1).fld LED_FLASH_FLASH_OK = 1 ∧ (ledState true).recWith 0 = some ledRec
    ∧ owned.dom.telemetryAt + 16 ≤ 8589934592 := by decide +kernel
theorem witness_reports :
    (let p := pkt 0x10005 0x1A000 0x2A (zeros 16); p.crcOk = true ∧ owned.refOf p.hdr.src = none ∧ owned.isDup .ctl p.hdr = false) := by decide +kernel

/-- An idle port, wake requests within and beyond the lanes of their group (SleepAndWakeResults). -/
theorem witness_sleep :
    (let s := atNs (owned.setFld PWR_WAKE_CFG_IDLE_US 10) 10000; s.maySleep (.agent ep) 0 = true ∧ (s.port (.agent ep) 0).sleepAsked = false)
    ∧ owned.maySleep .ctl 3 = false ∧ owned.portUp .ctl 3 = false ∧ owned.pwr.resets = [] ∧ owned.pwr.wakeQ = [] ∧ owned.pwr.waking = []
    ∧ owned.lanesGranted (railGroup 3) + 4 ≤ owned.fld PWR_WAKE_CFG_WAKE_LANES ∧ owned.fld PWR_WAKE_CFG_WAKE_LANES < owned.lanesGranted (railGroup 3) + 25
    ∧ ((owned.setPort .ctl 3 { state := 6, lanes := 2, planned := 4 }).port .ctl 3).state = 6 := by decide +kernel

/-! ## Witnesses: installs, gambits, collectives -/

/-- An INSTALL or COMMIT of a version (InstallResults). -/
def verPkt (typ : BitVec 8) (v : Nat) (l : List Byte) : Packet :=
  pkt 0x1A000 0x10005 typ l fun h => { h with addr := BitVec.ofNat 57 v }
theorem witness_install :
    (owned.agent ep).play = none ∧ owned.version ep = 0 ∧ (owned.agent ep).shadowHolds = none ∧ (owned.agent ep).copying = false
    ∧ BitVec.ofNat 32 (bitsAt (verPkt 0x2C 2 []).hdr.addr.toNat 0 32) ≠ owned.version ep ∧ parsePatches .e 0 [] = some []
    ∧ parsePatches .e 3 [1, 2, 3] = none ∧ owned.epochBegun ep 0 = true ∧ owned.epochBegun ep 5 = false
    ∧ (owned.agent ep).pendingGeometry = none ∧ (owned.agent ep).shadow.fault .e (owned.agent ep).geometry.1 = none
    ∧ (owned.agent ep).shadowBad = none ∧ owned.isDup (.agent ep) (verPkt 0x2C 2 []).hdr = false := by decide +kernel
theorem witness_install_crc : (verPkt 0x2C 2 []).crcOk = true ∧ (verPkt 0x2D 0 (leBytes 4 5 ++ zeros 12)).crcOk = true := by decide +kernel

/-- Staging slots: empty, valid, at the end of the slot (StagingResults). -/
def stgPkt (aux addr : Nat) (l : List Byte) : Packet := pkt 0x1A000 0x10005 0x2E l fun h => { h with addr := BitVec.ofNat 57 addr, aux := BitVec.ofNat 24 aux }
theorem witness_staging :
    (owned.staged ep 0).valid = false ∧ stageOp (stgPkt 0 16376 (zeros 8)).hdr = 0 ∧ 16376 + 8 ≤ slotBytes .e ∧ slotBytes .e < 16377 + 8
    ∧ stageOp (stgPkt (3 * 2 ^ 22) 0 []).hdr = 3 ∧ stageSlot (stgPkt (5 * 2 ^ 16) 0 []).hdr = 5
    ∧ (((owned.updAgent ep fun g => { g with staged := [(5, { valid := true, tag := some 7 })] }).staged ep 5).valid = true)
    ∧ ((owned.updAgent ep fun g => { g with copying := true }).agent ep).copying = true := by decide +kernel

/-- A PLAY that is newer or older, that concerns the agent or not (PlayResults). -/
def playPkt (seq gam slot : Nat) : Packet :=
  pkt 0x1A000 0x10005 0x2F (leBytes 4 3 ++ zeros 124) fun h => { h with addr := BitVec.ofNat 57 (gam * 2 ^ 33 + 10), aux := BitVec.ofNat 24 (slot * 2 ^ 18 + seq) }
theorem witness_play :
    (owned.agent ep).playSeqSeen = false ∧ playHigher 2 1 = true ∧ playHigher 1 1 = false ∧ playHigher 0 0xFFFF = true
    ∧ (playList (playPkt 2 7 5)).filter (fun x => (owned.staged ep x.2).tag == some x.1) = []
    ∧ (let s := owned.updAgent ep fun g => { g with staged := [(5, { valid := true, tag := some 7 })] };
      (playList (playPkt 2 7 5)).filter (fun x => (s.staged ep x.2).tag == some x.1) = [(7, 5)] ∧ (s.staged ep 5).valid = true
      ∧ (s.staged ep 5).base = s.version ep)
    ∧ (owned.agent ep).applyPlay .e [] = some (owned.agent ep).active := by decide +kernel

/-- A group queue, its operation and a chunk (GroupQueueResults). -/
def gqVal : GroupQueue :=
  { group := 5, partition := 1, library := false, policyRing := false, treeId := 1, rank := 0, members := 2, chunkLog2 := 12, window := 4
    timeoutUs := 1000, ringBase := 0, ringLog2 := 4 }
def opVal (n : Nat) : MemberOp :=
  { queue := 0, group := 5, desc := [], opSeq := 1, started := true, tree := 1, chunks := [{ index := 0, sent := true, resends := n }], total := 1 }
def gqState (n : Nat) : State := owned.updAgent ep fun g => { g with gqs := [(0, gqVal)], ops := [opVal n] }
theorem witness_group_queue :
    (gqState 0).gq ep 0 = some gqVal ∧ (gqState 0).gq ep 1 = none ∧ gqVal.partition ≠ 2 ∧ (gqState 0).computeUp ep = true
    ∧ 15 < 2 ^ gqVal.ringLog2 ∧ 2 ^ gqVal.ringLog2 ≤ 16 ∧ ((gqState 0).agent ep).gqs.find? (fun x => x.2.group == 5) = some (0, gqVal)
    ∧ ((gqState 0).agent ep).gqs.find? (fun x => x.2.group == 6) = none ∧ ((gqState 3).agent ep).findOp 5 1 = some (opVal 3)
    ∧ ((gqState 3).agent ep).findOp 5 2 = none
    ∧ (opVal 3).chunks.find? (fun x => x.index == 0 && !x.released) = some { index := 0, sent := true, resends := 3 }
    ∧ ((gqState 3).agent ep).chunkSuspended = false := by decide +kernel

/-- A reduction node with a tree, one child and a context of group 5; chunks of its child (ReductionNodeResults). -/
def headVal (role : Nat) : BitVec 128 := BitVec.ofNat 128 (1 * 2 ^ 126 + role * 2 ^ 124 + 1 * 2 ^ 112 + 1 * 2 ^ 60)
def childVal : BitVec 128 := BitVec.ofNat 128 (2 * 2 ^ 126 + 0x10005 * 2 ^ 64)
def ctxVal : Ctx := { treeId := 1, generation := 2, group := 5, partition := 1, inputs := 1, chunkLog2 := 12, window := 4, blockBase := 0, blockCount := 4 }
def nodeState : State := owned.updAgent sw fun g => { g with active := { g.active with trees := [(0, headVal 0), (1, childVal)] }, ctxs := [ctxVal] }
def chunkPkt (tree gen : Nat) (part : BitVec 12) : Packet :=
  pkt 0x10005 0x18009 1 (zeros 16) fun h => { h with cls := .collective, partition := part, stream := 5, addr := BitVec.ofNat 57 (tree * 2 ^ 33 + gen) }

theorem witness_node :
    nodeState.ctx (.agent sw) (pktTree (chunkPkt 1 2 1).hdr) (pktGroup (chunkPkt 1 2 1).hdr) = some ctxVal
    ∧ (pktTree (chunkPkt 0 2 1).hdr, pktTree (chunkPkt 1 2 1).hdr, pktTree (chunkPkt 2 2 1).hdr) = (0, 1, 2)
    ∧ nodeState.ctx (.agent sw) 2 5 = none ∧ nodeState.nodeHead (.agent sw) 2 = none ∧ (nodeState.nodeHead (.agent sw) 1).isSome = true
    ∧ (chunkPkt 1 2 2).hdr.partition ≠ ctxVal.partition ∧ (chunkPkt 1 2 1).hdr.partition = ctxVal.partition
    ∧ pktGen (chunkPkt 1 3 1).hdr ≠ ctxVal.generation ∧ pktGen (chunkPkt 1 2 1).hdr = ctxVal.generation := by decide +kernel
theorem witness_node_crc :
    [chunkPkt 1 2 1, chunkPkt 1 2 2, chunkPkt 1 3 1, chunkPkt 0 2 1, chunkPkt 2 2 1].all Packet.crcOk = true := by decide +kernel
theorem witness_node_input :
    (match nodeState.nodeHead (.agent sw) 1 with | some (h, kids) => (h, kids) | none => (0, [])) = (headVal 0, [childVal])
    ∧ headRole (headVal 0) ≠ 2 ∧ headParent (headVal 0) ≠ 0x10005
    ∧ nodeState.inputOf (.agent sw) (headVal 0) [childVal] 0x99999 = none := by decide +kernel

/-- A context write that fits and one that does not (ReductionNodeResults). -/
theorem witness_reserve :
    (let c := ctxOf (ctxBytes { ctxVal with treeId := 2 }); nodeState.ctx (.agent sw) c.treeId c.group = none
      ∧ max 1 (ctxBlocks c.inputs c.window c.chunkLog2) ≤ c.blockCount
      ∧ (nodeState.agent sw).ctxs.length < ctxTotal .s ∧ ((nodeState.agent sw).ctxs.map (·.blockCount)).sum + c.blockCount ≤ blocksTotal .s)
    ∧ (let c := ctxOf (ctxBytes ctxVal); (nodeState.ctx (.agent sw) c.treeId c.group).isSome = true)
    ∧ (ctxOf (ctxBytes { ctxVal with blockCount := 0 })).blockCount = 0 ∧ blocksTotal .s < 4 + (ctxOf (ctxBytes { ctxVal with blockCount := 1021 })).blockCount := by
  decide +kernel

/-- A COMMIT that one agent has not acknowledged, a PLAY out, a link that nothing uses (FailoverResults). -/
def instState (posts : Nat) : State :=
  let i : InstallSt := { version := 2, sets := [], openMsgs := [], committed := true, epoch := 9, postponements := posts }
  { knownState with
    rte := { knownState.rte with install := some i, classNs := some 0, play := some ⟨1, 9, 3, [7], 0, 0, [], posts⟩ }
    dom := { knownState.dom with known := [{ ref := ep, fid := 0x10005, ports := 4, admitted := true }] } }
/-- Two whole epochs with Control frames only at both ports of the endpoint's link. -/
def quietLink : State := [(Node.agent ep), .ctl].foldl (fun (s : State) n => s.setPort n 0 { s.port n 0 with quietEpochs := 2 }) knownState
theorem witness_failover :
    ((instState 2).rte.install.map fun i => ((instState 2).commitMissing i, i.committed, decide (i.postponements < 3))) = some ([0x10005], true, true)
    ∧ ((instState 3).rte.install.map fun i => decide (3 ≤ i.postponements)) = some true ∧ owned.rte.install = none ∧ owned.rte.play = none
    ∧ (((instState 1).rte.play.map fun p => decide (p.resends < 2)), (instState 2).rte.play.map fun p => decide (2 ≤ p.resends)) = (some true, some true)
    ∧ (instState 0).rte.classNs = some 0 ∧ owned.rte.classNs = none ∧ quietLink.drained (.link 0x10005 0) = true ∧ quietLink.elemQuiet (.link 0x10005 0) = true ∧ owned.elemQuiet (.link 0x10005 0) = false
    ∧ owned.elemQuiet (.switch 0x18009) = false ∧ owned.drainOf (.link 0x10005 0) = none := by
  decide +kernel

/-! ## Witnesses: queues and commands -/

/-- Queue 1, enabled with 16 entries at operator level, with one command of its ring (QueueResults, CommandResults). -/
def cmdBytes (op flags : Nat) (rest : List Byte) : List Byte := leBytes 1 op ++ leBytes 1 flags ++ zeros 2 ++ leBytes 4 77 ++ rest ++ zeros (56 - rest.length)
def queueState (lvl : Nat) (l : List Cmd) : State :=
  let s := (((owned.setCq 1 CTL_CQn_CFG_ENABLE 1).setCq 1 CTL_CQn_CFG_SIZE_LOG2 4).setCq 1 CTL_CQn_CFG_LEVEL lvl).setCq 1 CTL_CQn_CFG_MAX_ENGINES 2
  s.setQueue 1 { tail := 3, cmds := l }
def oneCmd (op : Nat) (rest : List Byte) (data : Option (List Byte)) : Cmd := { bytes := cmdBytes op 0 rest, data := data }

theorem witness_queue :
    (queueState 1 []).cq 1 CTL_CQn_CFG_ENABLE = 1 ∧ (queueState 1 []).ringSize 1 = 16 ∧ (15#32).toNat < 16 ∧ 16 ≤ (16#32).toNat ∧ owned.cq 1 CTL_CQn_CFG_ENABLE = 0
    ∧ ((queueState 1 []).queue 1).disabling = false ∧ (queueState 1 []).gatesOpen = true ∧ (queueState 1 []).pwr.perst = []
    ∧ (let s := queueState 1 []; min 8 (min (((s.queue 1).tail + 16 - 0) % 16) (min (s.freeRecords 1) (16 - 0)))) = 3
    ∧ CTL_CQn_CFG_ENABLE.of (CTL_CQn_CFG_ENABLE.put 0 1) = 1 ∧ CTL_CQn_CFG_SIZE_LOG2.of (CTL_CQn_CFG_SIZE_LOG2.put 0 4) = 4
    ∧ CTL_CQn_CFG_SIZE_LOG2.of (CTL_CQn_CFG_SIZE_LOG2.put 0 15) = 15 ∧ ((queueState 1 []).queue 1).journal = []
    ∧ ((engAt .tenant 0).run = none) := by decide +kernel

/-- A CMDNOP, a LOAD into slots 7 and 32, an UNLOAD, a RUN, a CANCEL, IMGLOAD, IMGFREE and ADMIT that may start (CommandResults). -/
theorem witness_commands :
    ([oneCmd 0 [] none, oneCmd 2 [40] none, oneCmd 4 (leBytes 4 78) none, oneCmd 6 (leBytes 4 1) none].all fun c =>
      let s := queueState 1 [c]
      nextStart (s.queue 1).cmds == some c && c.wellFormed && s.queueLevel 1 == .operator && !c.readFailed && c.hostRange.2 == 0) = true
    ∧ (let c := oneCmd 9 [] none; nextStart ((queueState 1 [c]).queue 1).cmds = some c ∧ 7 < c.opcode ∧ c.wellFormed = false)
    ∧ (queueState 0 []).queueLevel 1 = .tenant ∧ (queueState 0 []).partActive ((queueState 0 []).queuePartition 1) = false
    ∧ nextStart ((queueState 1 []).queue 1).cmds = none ∧ owned.programs.get 40 = none ∧ owned.sq.images.get 1 = none
    ∧ owned.seesSlot 1 40 = none
    ∧ (queueState 1 []).freeEngine 0xFF = some 4 ∧ (0 : Nat) < (queueState 1 []).cq 1 CTL_CQn_CFG_MAX_ENGINES := by decide +kernel

/-- A program image of one NOP whose digest is right for 8 and for 40, and one whose digest is wrong (CommandResults). -/
def progBytes (lvl : Nat) (code : List Byte) (digest : Nat) : List Byte :=
  leBytes 2 1 ++ leBytes 1 lvl ++ zeros 1 ++ leBytes 4 1 ++ zeros 8 ++ (leBytes 48 digest).reverse ++ code
theorem witness_load :
    programOk (progBytes 1 (zeros 8) 0) = true ∧ programOk (progBytes 3 (zeros 8) 0) = false
    ∧ (programOf (progBytes 1 (zeros 8) 0) .operator 0).signed = false ∧ (programOf (progBytes 1 (zeros 8) 0) .operator 0).level = .operator := by
  decide +kernel
theorem witness_load_digest :
    programDigestOk (progBytes 1 (zeros 8) 0) = false ∧ programDigestOk (progBytes 1 (zeros 8) (sha384 (zeros 8)).toNat) = true := by decide +kernel

/-- A program in slot 40 that a RUN may start, an image that is freed, a bundle that is taken (CommandResults). -/
def slotState (c : Cmd) : State :=
  { queueState 1 [c] with
    programs := [(40, { code := [0], level := .operator, signed := false, minInvoke := 0, queueLevel := .operator, partition := 0 })]
    sq := { owned.sq with images := [(1, { level := .operator, partition := 0, entries := 1, squares := 0, freeing := false })] } }
def runCmd : Cmd := oneCmd 3 ([40, 0xFF, 0, 0] ++ leBytes 4 100) none
theorem witness_run :
    (let s := slotState runCmd; runCmd.wellFormed = true ∧ (s.seesSlot 1 40).isSome = true ∧ bindingsOk [] runCmd.runBinds = true ∧ runCmd.hostRange.2 = 0
      ∧ (s.queue 1).running < s.cq 1 CTL_CQn_CFG_MAX_ENGINES ∧ s.freeEngine runCmd.runEngine = some 4 ∧ leAt runCmd.bytes 8 1 = 40)
    ∧ (let s := slotState (oneCmd 6 (leBytes 4 1) none); (s.sq.images.get 1).isSome = true ∧ s.imageOpen 1 = false)
    ∧ (match owned.checkBundle { partition := 0 } with | .taken _ l => l.isEmpty | .refused _ => false) = true := by decide +kernel

/-! ## Witnesses: groups, dispatch, KV -/

/-- Notices and idle reports of a member of group 5 (GroupRequestResults, WaitedOnce). -/
def noticePkt : Packet := pkt 0x10005 0x1A000 0x28 (leBytes 2 5 ++ zeros 14)
def grpState (g : Group) : State := withGroup owned g
theorem witness_notice :
    noticePkt.crcOk = true ∧ leAt noticePkt.payload 0 2 = 5 ∧ (grpState (grp false)).isDup .ctl noticePkt.hdr = false := by decide +kernel
theorem witness_group :
    (grpState (grp false)).group 5 = some (grp false) ∧ owned.group 5 = none ∧ ((grp false).rec_.members.any fun m => m.fid == noticePkt.hdr.src) = true
    ∧ (grp false).rec_.library = false ∧ (grp true).rec_.library = true ∧ (grp false).decided = [] ∧ (grp false).resv = 0
    ∧ (grp false).rec_.policyRing = false ∧ (grp false).idle = [] ∧ (grpState (grp false)).fits (grp false) = true
    ∧ (grpState (grp false)).freeIdle.nextTicket = none := by decide +kernel

/-- A group with a tree whose node has no free context: its launch waits (WaitedOnce). -/
def fullState : State :=
  let s := grpState (grp false)
  { s with grp := { s.grp with
      trees := [{ treeId := 1, partition := 1, nodes := [{ node := 0x18009, index := 0, children := [(0, 0x10005), (1, 0x10006)], isRoot := true }] }]
      map := [((0x18009 : Nat), { ctxFree := 0, blkFree := 0 })] } }
theorem witness_waited : fullState.fits (grp false) = false ∧ fullState.group 5 = some (grp false) ∧ fullState.isDup .ctl noticePkt.hdr = false := by
  decide +kernel

/-- A switch with a child endpoint and a pending token of it (DispatchResults). -/
def tokPkt (layer : Nat) : Packet :=
  pkt 0x10005 0x18009 0x09 (leBytes 2 layer ++ zeros 2 ++ leBytes 1 1 ++ zeros 59) fun h => { h with cls := .collective, partition := 1, stream := 7 }
def tokRec : DispRecord := { src := 0x10005, stream := 7, seq := 0, createdNs := 0, hdr := (tokPkt 3).hdr, flit := [], outcomes := [], copies := [] }
def layerVal : BitVec 512 := BitVec.ofNat 512 ((2 ^ 63 + 1 * 2 ^ 48 + 3 * 2 ^ 32 + 8) * 2 ^ 448 + 4 * 2 ^ 444)
def dispState (l : List DispRecord) : State :=
  atNs (owned.updAgent sw fun g => { g with
    active := { g.active with bcast := [(1, BitVec.ofNat 64 (4 * 2 ^ 55 + 0x10005))], places := [(0, layerVal)] }, disp := { pending := l } }) 1000000
theorem witness_dispatch :
    (((dispState [tokRec]).agent sw).disp.pending.find? fun r => r.hasKey 0x10005 7 0).isSome = true
    ∧ ((dispState []).agent sw).disp.pending = [] ∧ ((dispState []).agent sw).disp.done = []
    ∧ ((dispState []).agent sw).active.children = [(4, 0x10005)] ∧ flitPart (tokPkt 3).payload = 0 ∧ flitK (tokPkt 3).payload = 1
    ∧ ((dispState []).agent sw).active.layerOf 1 9 = none ∧ ((dispState []).agent sw).active.layerOf 1 3 = some (0, layerVal)
    ∧ flitBad (slice (tokPkt 3).payload 0 64) (tokPkt 3).hdr layerVal = false ∧ tokRec.createdNs + 1000000 ≤ (dispState []).agentNow sw
    ∧ (owned.fld PLC_BROKER_CFG_ENABLE = 1 ∧ (owned.setFld PLC_BROKER_CFG_ENABLE 0).fld PLC_BROKER_CFG_ENABLE = 0) ∧ owned.plc.window = 0 := by
  decide +kernel
theorem witness_dispatch_crc : (tokPkt 3).crcOk = true ∧ ({ tokPkt 3 with crc := 0 } : Packet).crcOk = false := by decide +kernel

/-- KV requests of 64 bytes, a broker that runs, an open sequence, graces (KvResults). -/
def kvPkt (op : Nat) : Packet := pkt 0x10005 0x1A000 0x2A ([BitVec.ofNat 8 op, 0, 0, 0] ++ leBytes 4 9 ++ leBytes 4 1 ++ zeros 52) fun h => { h with partition := 1, aux := 2 }
def brokerState : State :=
  let s : State := { owned with engines := [(2, engAt .operator 0)] }
  { s with plc := { s.plc with seqs := [{ seqId := 1, partition := 1, opener := 0x10005, home := [5], extents := [] }]
                               grace := [{ atNs := 0, endpoint := 5, slot := 0, partition := 1, seq := some 1 }] } }
theorem witness_kv :
    (brokerState.engine 2).running = true ∧ (owned.engine 2).running = false ∧ (kvPkt 3).payload.length = 64 ∧ leAt (kvPkt 3).payload 0 1 = 3
    ∧ allZero (kvPkt 3).payload 1 3 = true ∧ allZero (kvPkt 3).payload 12 52 = true ∧ (brokerState.seqOf 1 1).isSome = true ∧ brokerState.seqOf 2 1 = none
    ∧ owned.plc.grace = [] ∧ (brokerState.plc.grace.map fun g => (g.seq, g.slot)) = [(some 1, 0)] ∧ brokerState.isDup .ctl (kvPkt 3).hdr = false := by
  decide +kernel
theorem witness_kv_crc : (kvPkt 3).crcOk = true := by decide +kernel

/-- A page away from home whose home slot is free: the move that starts (KvResults). -/
theorem witness_kv_move : owned.plc.movedInWindow < (owned.setFld PLC_KV_CFG_MAX_MOVES 1).fld PLC_KV_CFG_MAX_MOVES ∧ owned.moveOrder = [] := by
  decide +kernel

/-! ## Witnesses: partitions, scrubs, attestation, triad, standby -/

/-- Partition 1 in a state, device 5 in a state (PartitionResults, ScrubResults). -/
def secState (part dev : Nat) : State :=
  let s : State := { knownState with sec := { knownState.sec with parts := [(1, { state := part })], devs := [(5, { state := dev, partition := 1, scrubWaiting := true })] } }
  (s.setFld SEC_PART_SEL_PARTITION 1).setFld SEC_DEV_SEL_ENDPOINT 5
theorem witness_partition :
    (secState 0 0).fld SEC_PART_SEL_PARTITION = 1 ∧ (secState 0 0).fld SEC_DEV_SEL_ENDPOINT = 5 ∧ ((secState 0 0).part 1).state = 0
    ∧ ((secState 2 0).part 1).state = 2 ∧ ((secState 2 0).part 1).spillRecord = true ∧ (secState 0 0).sec.lifeCycle = 1
    ∧ ([0, 1, 2, 3].map fun d => ((secState 1 d).dev 5).state) = [0, 1, 2, 3] ∧ (secState 1 1).devInUse 5 = false
    ∧ SEC_PART_ACTION.of (SEC_PART_ACTION.put 0 2) = 2 ∧ SEC_DEV_ACTION.of (SEC_DEV_ACTION.put 0 3) = 3
    ∧ SEC_DEV_PARTITION.of (SEC_DEV_PARTITION.put 0 1) = 1 := by decide +kernel

theorem witness_scrub :
    (secState 2 2).scrubEngine = some 4 ∧ (secState 2 2).devAgent 5 = some ep ∧ ((secState 2 2).agent ep).memBytes = 4096
    ∧ ((secState 2 2).dev 5).scrubWaiting = true ∧ ((secState 2 2).dev 5).statusRaised = false ∧ (secState 2 2).devAgent 6 = none
    ∧ ((secState 2 2).agent ep).scrub = none ∧ ((secState 2 2).nodeFid (.agent ep)).localId = 5 := by decide +kernel
theorem witness_scrub_status :
    (let p := pkt 0x10005 0x1A000 0x2F (leBytes 4 0x10005 ++ zeros 60); p.crcOk = true ∧ Fid.localId (BitVec.ofNat 32 (leAt p.payload 0 4)) = 5) := by
  decide +kernel

/-- Requests are answered where there is power, in each life-cycle state (AttestationResults). -/
theorem witness_attestation :
    owned.pwr.pwrgd = true ∧ owned.sec.lifeCycle ≠ 3 ∧ ({ owned with sec := { owned.sec with lifeCycle := 3 } } : State).sec.lifeCycle = 3 := by decide +kernel

/-- Copies of an act: none, one, two that agree, one that passed (VoteResults). -/
def actState (voting : Nat) (l : List (Nat × List Byte)) (passed : Bool) : State :=
  let s := atNs (owned.setFld TRI_STATUS_VOTING voting) 200000
  { s with tri := { s.tri with acts := [{ gate := 3, unit := 0, seq := 1, copies := l, firstNs := 0, passed := passed, value := [7] }] } }
theorem witness_vote :
    (actState 7 [] false).votes 2 = true ∧ (actState 3 [] false).votes 2 = false ∧ (actState 7 [] false).voters = 3 ∧ (actState 3 [] false).voters = 2
    ∧ (actState 1 [] false).voters = 1 ∧ ((actState 7 [(0, [7])] false).gateAct 3 0 1).isSome = true ∧ (actState 7 [] false).gateAct 3 0 2 = none
    ∧ (actState 7 [(0, [7])] false).aloneAt 3 0 = 1 ∧ (actState 7 [] false).pwr.held = false ∧ (actState 7 [] false).tri.passedActs = []
    ∧ 0 + 200000 ≤ (actState 7 [] false).now ∧ (owned.setFld TRI_STATUS_PHASE 3).fld TRI_STATUS_PHASE = 3 ∧ owned.fld TRI_STATUS_PHASE = 0
    ∧ owned.rte.classNs = none ∧ owned.tri.fencing = [] := by decide +kernel
theorem witness_held_die :
    (((owned.setFld TRI_STATUS_VOTING 3).setBlk FLT_BLKn_STATE 2 2).heldDie = some 2)
    ∧ digestBytes 1 ≠ digestBytes 2 := by decide +kernel

/-- Pairs, mirror records in and out of order, heartbeats and lost paths (PairResults). -/
def pairState (role : Nat) : State :=
  let s := ((owned.setFld TRI_STANDBY_CFG_PAIR_EN 1).setFld TRI_STANDBY_CFG_PARTNER_ID 0x1A001).setFld TRI_STATUS_ROLE role
  let s := atNs ((s.setFld TRI_STANDBY_STATUS_PATH_PAIR 1).setFld TRI_STANDBY_STATUS_PATH_INBAND 1) 10000000
  { s with tri := { s.tri with paired := true, fullCopy := true, mirrorApplied := 3, mirrorOpen := [(1, 0, 0)] } }
def mirPkt (n : Nat) : Packet := pkt 0x1A001 0x1A000 0x37 (leBytes 8 n ++ leBytes 2 4 ++ zeros 2 ++ leBytes 4 0)
def beatBytes (gen role req : Nat) : List Byte :=
  let l := leBytes 4 0x1A001 ++ leBytes 4 gen ++ leBytes 1 role ++ leBytes 1 7 ++ leBytes 1 req ++ zeros 17
  l ++ leBytes 4 (crc32c l)
theorem witness_pair :
    (pairState 1).partner = 0x1A001 ∧ (pairState 1).fld TRI_STANDBY_CFG_PAIR_EN = 1 ∧ owned.fld TRI_STANDBY_CFG_PAIR_EN = 0
    ∧ leAt (mirPkt 4).payload 0 8 = 3 + 1 ∧ (pairState 1).tri.mirrorHeld = [] ∧ 0 + 10000000 ≤ (pairState 1).now ∧ (pairState 0).tri.lagRaised = false
    ∧ (pairState 0).inHold = false ∧ (pairState 1).mayTakeOver = true ∧ (pairState 0).mayTakeOver = false ∧ owned.bothLost = true ∧ (pairState 1).bothLost = false
    ∧ (pairState 1).fld TRI_STANDBY_STATUS_PATH_PAIR = 1
    ∧ (pairState 1).tri.lastPairNs + (pairState 1).fld TRI_STANDBY_CFG_HB_MISS * 100000 ≤ (pairState 1).now
    ∧ (pairState 1).isDup .ctl (mirPkt 4).hdr = false := by decide +kernel
theorem witness_mirror_crc : [mirPkt 3, mirPkt 4, mirPkt 5].all Packet.crcOk = true := by decide +kernel
theorem witness_heartbeat :
    (pairState 0).heartbeatOk (beatBytes 1 0 0) = true ∧ (pairState 0).heartbeatOk (zeros 32) = false ∧ (pairState 0).fld TRI_STATUS_ROLE = 0
    ∧ (pairState 0).fld TRI_STANDBY_STATUS_GENERATION < leAt (beatBytes 1 0 0) 4 4 ∧ leAt (beatBytes 1 0 0) 8 1 ≠ 1
    ∧ (pairState 1).heartbeatOk (beatBytes 0 0 1) = true ∧ leAt (beatBytes 0 0 1) 10 1 % 2 = 1 ∧ leAt (beatBytes 1 0 0) 10 1 % 2 = 0 := by decide +kernel

/-! ## Witnesses: rules of the machine -/

/-- An agent that holds 4,095 and 4,096 completions, and a flagged packet (HeldLimit). -/
def flagPkt : Packet := pkt 0x18009 0x10005 1 [1, 2, 3, 4] fun h => { h with cls := .bulk, addr := 256, ord := true, prec := 0, seq := 5000 }
def holdState (n : Nat) : State :=
  ringState.updAgent ep fun g => { g with streams := { g.streams with rx := [(9, { held := (List.range n).map fun i => { heldF 0 with seq := BitVec.ofNat 32 i } })] } }
theorem witness_held :
    ((holdState 4096).nodeStreams (.agent ep)).heldCount = 4096 ∧ ((holdState 4095).nodeStreams (.agent ep)).heldCount = 4095
    ∧ (holdState 4096).computeUp ep = true ∧ ((holdState 4096).agent ep).lowPower = 0 ∧ flagPkt.hdr.partition = ((holdState 4096).agent ep).partition
    ∧ flagPkt.hdr.ord = true ∧ flagPkt.hdr.prec ≠ 0xFFFF ∧ (holdState 4096).isDup (.agent ep) flagPkt.hdr = false
    ∧ ((holdState 4096).agent ep).inWindow flagPkt.hdr.partition flagPkt.hdr.addr.toNat flagPkt.hdr.length.toNat = true := by decide +kernel
theorem witness_held_crc : flagPkt.crcOk = true := by decide +kernel

/-- ARM with SYNC_EN 0, and with an epoch below 20 ticks (ArmIgnored); a request to fence (FenceRequest). -/
theorem witness_arm :
    SCH_SYNC_CFG_SYNC_EN.of (SCH_SYNC_CFG_ARM.put 0 1) = 0 ∧ SCH_SYNC_CFG_ARM.of (SCH_SYNC_CFG_ARM.put 0 1) = 1
    ∧ (let s := (owned.setFld SCH_EPOCH_CFG_SLOTS 16).setFld SCH_EPOCH_CFG_SLOT_TICKS 0; s.epochTicks < 20) := by decide +kernel
theorem witness_fence :
    (let v := TRI_CFG_FENCE_DIE.put (TRI_CFG_FENCE_REQ.put 0 1) 2;
      TRI_CFG_FENCE_REQ.of v = 1 ∧ TRI_CFG_RESYNC_REQ.of v = 0 ∧ TRI_CFG_FENCE_DIE.of v = 2) ∧ owned.voters = 3
    ∧ (owned.setFld TRI_STATUS_VOTING 3).voters = 2 := by decide +kernel

/-- The reset memory is canonical; LCADV answers a next state (HbmCanonical, LifeCycleForward). -/
theorem witness_canonical :
    State.reset.hbm.wf = true ∧ (match step State.reset with | .next t => t.hbm.wf | _ => false) = true
    ∧ (match exec (.lcadv 4) (at4 .vendor (wd 0x7A)) with | .next _ => true | _ => false) = true := by decide +kernel
/-! ## Witnesses at the limits of the clauses -/

/-- What keeps an instruction from its effect: the pause of a resync, gates that are closed, gates that serve another engine (GuardRule,
IssueAndEndResults). -/
theorem witness_gates :
    ((at4 .tenant (wd 0x53)).setFld TRI_STATUS_PHASE 4).pausing = true ∧ (at4 .tenant (wd 0x53)).pausing = false
    ∧ (engAt .tenant (wd 0x53)).gated (wd 0x53) = true
    ∧ (State.reset.setEngine 4 (engAt .tenant (wd 0x53))).gateServes 4 (wd 0x53) = false
    ∧ (let s := at4 .tenant (wd 0x53); ({ s with tri := { s.tri with gateWait := [2, 4] } } : State).gateServes 4 (wd 0x53) = false) := by
  decide +kernel

/-- A wait with a deadline; an STL whose registers end beyond g63; a space of eight-byte accesses; a locked install set
(FlowAndEventResults, LoadAndStoreResults). -/
theorem witness_access :
    ((at4 .tenant 0 fun x => { x with blocked := .evwait 1 0 700 }).engine 4).blocked = .evwait 1 0 700
    ∧ (at4 .tenant 0).now < 700 ∧ 700 ≤ (atNs (at4 .tenant 0) 700).now
    ∧ legal (encM 0x24 57 1 0 4 0) = true ∧ wRd (encM 0x24 57 1 0 4 0) = 57 ∧ wRd (wd 0x24) ≤ 56
    ∧ szBytes (wSz (encM 0x20 3 0 10 3 0)) = 8 ∧ wOp (encM 0x20 3 0 10 3 0) = 0x20
    ∧ (let s := at4 .tenant 0; ({ s with sets := [(1, { size := 64, locked := true })] } : State).setLocked ⟨9, 1, 15, .tenant, 1, 64⟩ = true) := by
  decide +kernel

/-- A run of image 1 under tag 3 whose turn has come, with and without instances that agree; copies of the records of a GLAUNCH that are
all there or not (TagResults); a tag of another kind (CollectiveClassResults). -/
def tileOf (image inst quarter : Nat) : Tile :=
  { image := image, inst := inst, quarter := quarter, row := 0, col := 0, h := 1, w := 1, sramUnits := 1, exclusive := false, owner := 1 }
def imgState (tiles : List Tile) : State :=
  { owned with sq := { owned.sq with images := [(1, { level := .tenant, partition := 1, entries := 1, squares := 0, runs := [(4, 3)] })], tiles := tiles } }
theorem witness_tag_kinds :
    (imgState [tileOf 1 0 0, tileOf 1 1 4]).runsNow 4 3 1 = true ∧ (imgState [tileOf 1 0 0]).runsNow 4 3 1 = false
    ∧ (withGroup owned (grp false)).launchResult 5 1 = none
    ∧ (let s := withGroup owned (grp false); ({ s with grp := { s.grp with copies :=
        [⟨5, 1, 0x10005, zeros 64⟩, ⟨5, 1, 0x10006, zeros 64⟩] } } : State).launchResult 5 1) = some (0, 0)
    ∧ ((at4 .tenant 0 fun x => { x with tags := [(3, { kind := .send })] }).engine 4).tags.get 3 = some { kind := .send }
    ∧ ((at4 .tenant 0).engine 4).blocked = .no := by decide +kernel

/-- A page at home that moves from a handle of a message buffer; a scrub that runs, and two voters only (PlacementClassResults,
KeyAndVendorResults). -/
theorem witness_levels :
    ((kvState (wd 0x64)).findPage 64 3).map (fun x => decide (x.2.state = 1 ∨ x.2.state = 3)) = some true
    ∧ 0 < (at4 .vendor (wd 0x7A) fun x => { x with scrubDev := some 5 }).scrubsActive
    ∧ ((at4 .vendor (wd 0x7A)).setFld TRI_STATUS_VOTING 3).voters = 2 := by decide +kernel

/-- Pairs used first after a router failed; a quarter that has stood without a context, before and after GATE_MS (PackageResults). -/
theorem witness_quarter :
    State.reset.sq.reloads = [] ∧ (State.reset.nocPair 1 2).kept = []
    ∧ (({ State.reset with noc := { routersDown := [0, 1, 2, 3, 4, 5, 6, 7, 8, 9, 10, 11] } } : State).nocPair 20 40).second = true
    ∧ (let t : State := { owned with sq := { quarters := [(4, .on)], lastUse := [(4, 5)] } };
      t.now < t.sq.lastUse.getD 4 0 + t.fld PWR_WAKE_CFG_GATE_MS * 1000000
      ∧ t.sq.lastUse.getD 4 0 + t.fld PWR_WAKE_CFG_GATE_MS * 1000000 ≤ (atNs t 10000005).now) := by decide +kernel

/-- A port without an RT0 key, a claim for another target, a claim heard before; beacon deadlines before and after they pass
(OwnerAndBeaconResults). -/
def claimFor (target : Nat) : Packet := pkt 0x1A000 noFid 0x10 (leBytes 4 7 ++ leBytes 4 1 ++ leBytes 4 target ++ zeros 52 ++ zeros 64)
theorem witness_claim_cases :
    (State.reset.port (.agent ep) 0).key < 2 ∧ claimTarget (claimFor 0x12345) ≠ noFid ∧ claimTarget (claimFor 0x12345) ≠ owned.nodeFid (.agent ep)
    ∧ (owned.recordSeq (.agent ep) (claimPkt 1 0x1A000).hdr).isDup (.agent ep) (claimPkt 1 0x1A000).hdr = true
    ∧ claimId (claimPkt 1 0x1A000) = owned.owner ep
    ∧ owned.agentNow ep < (owned.agent ep).lastBeaconNs.getD 0 + owned.jfld ep JX_HB_ORPHAN_MS * 1000000
    ∧ (let t := atNs owned 100000000; (t.agent ep).lastBeaconNs.getD 0 + t.jfld ep JX_HB_ORPHAN_MS * 1000000 ≤ t.agentNow ep
      ∧ (t.agent ep).lastBeaconNs.getD 0 + 100000000 ≤ t.agentNow ep)
    ∧ ((owned.updAgent ep fun g => { g with holdoverRaised := true }).agent ep).holdoverRaised = true
    ∧ owned.ownerSent ep (pkt 7 0x10005 0x29 []).hdr = false ∧ owned.ownerSent ep (regPkt ep 0x29 JX_CTRL).hdr = true := by decide +kernel

/-- An armed and an unarmed write, a loss of sync that may rearm (SteeringAndEdgeResults); a geometry change with no restart of streams
under way (TickAndEpochResults). -/
theorem witness_arm_cases :
    SCH_SYNC_CFG_ARM.of 0 = 0 ∧ SCH_SYNC_CFG_SYNC_EN.of (SCH_SYNC_CFG_SYNC_EN.put 0 1) = 1 ∧ owned.dom.restarts = []
    ∧ (let t := (((atNs owned 1000000000).setFld SCH_SYNC_CFG_AUTO_REARM 1).setFld SCH_SYNC_CFG_SYNC_EN 1).setFld SCH_SYNC_STATUS_STATE 3;
      ({ t with time := { t.time with lostNs := some 0 } } : State).time.lostNs = some 0 ∧ t.fld SCH_SYNC_STATUS_STATE = 3 ∧ 0 + 1000000000 ≤ t.now)
    ∧ 20 ≤ owned.epochTicks := by decide +kernel

/-- Bring-up that is stuck, a phase without gates; a hub that is lost (BringupResults, ResetAndPowerResults). -/
theorem witness_stuck :
    owned.stopBringup.pwr.stuck = true ∧ ({ failedBlocks := [63] } : PhaseResult).failedBlocks = [63]
    ∧ 59 + 1 ∈ ({ owned with pwr := { owned.pwr with deadBlocks := [60] } } : State).pwr.deadBlocks ∧ 59 + 1 ∉ owned.pwr.deadBlocks
    ∧ ({ owned with pwr := { owned.pwr with brownBackNs := some 5, held := true } } : State).pwr.brownBackNs = some 5
    ∧ ({ owned with sec := { owned.sec with lifeCycle := 2 } } : State).sec.lifeCycle = 2 := by decide +kernel

/-- A training 4 s old, and one that is younger; a controller port with a frame of its own in its queue (LinkTrainingResults). -/
theorem witness_train_time :
    (let t := atNs (owned.setPort .ctl 3 { state := 1 }) 4000000000; (t.port .ctl 3).state = 1 ∧ (t.port .ctl 3).trainNs + 4000000000 ≤ t.now)
    ∧ owned.now < (owned.port .ctl 3).trainNs + 4000000000
    ∧ (owned.setPort .ctl 3 { state := 1, queue := [{ pkt := frm.pkt }] }).port .ctl 3 = { state := 1, queue := [{ pkt := frm.pkt }] } := by
  decide +kernel

/-- Restarts in progress, discovery that is open with an agent without tables, a rejoin at its first and second try, an endpoint in and
out of the rejoin bar (DiscoveryResults). -/
def rejoinState (tries : Nat) : State := { owned with dom := { knownState.dom with rejoins := [{ fid := 0x10005, tries := tries }] } }
theorem witness_rejoins :
    ((rejoinState 0).dom.rejoins.find? fun x => x.fid == (katPkt 1).hdr.src) = some { fid := 0x10005 }
    ∧ ((rejoinState 1).dom.rejoins.find? fun x => x.fid == (katPkt 1).hdr.src) = some { fid := 0x10005, tries := 1 }
    ∧ (rejoinState 0).refOf 0x10005 = some ep ∧ (knownState.dom.rejoins.find? fun x => x.fid == (katPkt 1).hdr.src) = none
    ∧ ((knownState.dom.known.filter fun k => k.admitted && k.version == 0).map (·.fid)) = []
    ∧ (((instState 0).dom.known.filter fun k => k.admitted && k.version == 0).map (·.fid)) = [0x10005]
    ∧ (0x10005 : Fid) ∉ owned.dom.rejoinOut ∧ (0x10005 : Fid) ∈ (owned.rejoinFailed 0x10005 2).dom.rejoinOut
    ∧ (owned.setJfld ep JX_STATUS_REJOINED 0).jfld ep JX_STATUS_COMPUTE_IN_RESET = 0 ∧ owned.refOf 0x10006 = none
    ∧ (∀ x ∈ owned.dom.restarts, (0x18009 : Fid) ∉ x.2.1) := by decide +kernel
def infoOf (ok : Bool) : DiscoverInfo :=
  { agent := sw, agentPort := 0, ports := 2, chainOk := ok, certDigest := 0, release := 1, ownerGeneration := 0, installVersion := 0, partition := 0
    memBytes := 0, scrubbing := false, epochNum := 0 }
theorem witness_discover_info :
    (owned.assignId (infoOf true)).1.isSome = true ∧ (infoOf true).chainOk = true ∧ (infoOf false).chainOk = false := by decide +kernel

/-- A port whose next receive key activates, a boot-key port, a credit frame; a queue that holds one (FrameResults, LinkUpkeepResults). -/
theorem witness_frame_cases :
    ({ rxAct := some 6 } : PortSt).rxAct = some 6 ∧ 6 ≤ frm.ctr.toNat ∧ (({ rxBoot := true } : PortSt).taken frm).rxBoot = true
    ∧ ({ frm.pkt.hdr with cls := .control, typ := 0 } : Header).isCredit = true ∧ frm.pkt.hdr.isCredit = false
    ∧ ({ frm.pkt.hdr with cls := .bulk } : Header).cls ≠ .control
    ∧ (let x := owned.port (.agent ep) 0; x.fits owned.now (owned.openPs (.agent ep) 0) (creditPacket x).hdr = true
      ∧ ({ x with busyPs := 999999999 } : PortSt).fits owned.now (owned.openPs (.agent ep) 0) (creditPacket x).hdr = false
      ∧ (creditPacket x).hdr.isCredit = true ∧ (∀ q ∈ x.queue, q.pkt.hdr.isCredit = false))
    ∧ owned.mayReport ep = true ∧ (owned.setJfld ep JX_STATUS_ORPHAN 1).mayReport ep = false ∧ knownState.refOf 0x10005 = some ep
    ∧ owned.farNode .ctl 3 = none := by decide +kernel

/-- An endpoint in E-DEEP; a ring of another partition; a packet heard before (EndpointPacketResults, LedgerAndReportResults). -/
theorem witness_endpoint_cases :
    ((owned.updAgent ep fun g => { g with lowPower := 2 }).agent ep).lowPower = 2 ∧ (wrPkt 256).hdr.cls ≠ .express
    ∧ ((ringState.agent ep).rxRing.map fun r => decide (r.partition ≠ (wrPkt 256 1).hdr.partition)) = some true
    ∧ (let s := ringState.updAgent ep fun g => { g with partition := 3 }; (s.agent ep).partition ≠ 0) ∧ (ringState.agent ep).partition = 0
    ∧ (owned.recordSeq .ctl (katPkt 0).hdr).isDup .ctl (katPkt 0).hdr = true ∧ (owned.rx .ctl 0x10005 0).flagsBad = []
    ∧ owned.operMs ≤ owned.led.summedMs ∧ owned.led.summedMs < (owned.setFld LED_TIME_OPER_MS 1).operMs
    ∧ 250 ≤ (ledState true).led.writerNs ∧ ({ owned with led := { owned.led with buffer := [ledRec] } } : State).led.writerNs < 250 := by
  decide +kernel

/-- The deadline of a precedent, of a packet and of a report: before and after; packets that are parked, refused, or wait for their first
head entry; a COMMIT in the records (ControllerPacketResults, AnswerResults). -/
theorem witness_deadlines :
    owned.nodeNow .ctl < (heldF 0).arrivedNs + 50000 * ((heldF 0).requests + 1)
    ∧ (heldF 3).arrivedNs + 50000 * ((heldF 3).requests + 1) ≤ (atNs owned 200000).nodeNow .ctl
    ∧ owned.nodeNow .ctl < (sentPkt 0x29 0).emittedNs + retryNs (sentPkt 0x29 0).pkt.hdr.cls
    ∧ (sentPkt 0x29 0).emittedNs + retryNs (sentPkt 0x29 0).pkt.hdr.cls ≤ (atNs owned 100000).nodeNow .ctl
    ∧ ({ sentPkt 0x29 0 with parked := true } : TxPkt).parked = true ∧ ({ sentPkt 0x29 0 with refused := true } : TxPkt).refused = true
    ∧ ({ sentPkt 0x29 0 with waiting := true } : TxPkt).unsent = true ∧ (sentPkt 0x29 0).unsent = false
    ∧ owned.mayOriginate .ctl (sentPkt 0x29 0).pkt.hdr = true ∧ owned.mirrorBlocks = false
    ∧ (let l := [({ dest := none, stream := 0xFF04, seq := 0, kind := .commit 2 } : AckHook)]
      (l.find? fun k => k.dest.isNone && k.stream == 0xFF04 && k.seq == 0).map (·.kind)) = some (.commit 2)
    ∧ (sentPkt 0x30 0).pkt.hdr.typ = 0x30 ∧ (sentPkt 0x29 0).pkt.hdr.typ = 0x29 ∧ (sentPkt 0x2B 0).pkt.hdr.typ ≠ 0x29 := by decide +kernel

/-- A bank that is copied and holds patches back, a bank that is bad; a section that is whole, a slot that had one (InstallResults,
StagingResults); a PLAY heard before (PlayResults). -/
theorem witness_banks :
    ((owned.updAgent ep fun g => { g with copying := true, deferred := [[1]] }).agent ep).copying = true
    ∧ (({ shadowBad := some 36 } : Agent).finishCopy .e).shadowBad = some 36
    ∧ ((owned.updAgent ep fun g => { g with shadowHolds := some 5 }).agent ep).shadowHolds = some 5
    ∧ (owned.recordSeq (.agent ep) (playPkt 2 7 5).hdr).isDup (.agent ep) (playPkt 2 7 5).hdr = true
    ∧ owned.isDup (.agent ep) (playPkt 2 7 5).hdr = false
    ∧ ((owned.updAgent ep fun g => { g with playSeqSeen := true }).agent ep).playSeqSeen = true := by decide +kernel

/-- Chunks on a tree and on the ring, with a result and without, before and after their time-out; the 5 ms after a swap
(GroupQueueResults). -/
theorem witness_chunk_time :
    (gqState 0).agentNow ep < 0 + gqVal.timeoutUs * 1000 ∧ 0 + gqVal.timeoutUs * 1000 ≤ (atNs (gqState 0) 1000000).agentNow ep
    ∧ (opVal 0).ring = false ∧ ({ opVal 0 with ring := true } : MemberOp).ring = true ∧ ({ index := 0, hasResult := true } : MemberChunk).hasResult = true
    ∧ (gqState 0).gq ep (opVal 0).queue = some gqVal ∧ ((gqState 0).setJfld ep JX_STATUS_REJOINED 0).computeUp ep = false
    ∧ (owned.agent ep).swapOpenedNs = none
    ∧ (let t := atNs (owned.updAgent ep fun g => { g with swapOpenedNs := some 0 }) 5000000; (t.agent ep).swapOpenedNs = some 0 ∧ 0 + 5000000 ≤ t.agentNow ep) := by
  decide +kernel

/-- The last 100 µs before a swap epoch, and the time before; a PLAY before and after its resend time; a classification at 20 µs; drains
that are asked for, in force, late (FailoverResults). -/
def drainState (x : Drain) : State := { quietLink with rte := { quietLink.rte with drains := [x] } }
theorem witness_failover_time :
    100000 < (instState 0).nsToEpoch 9 ∧ (instState 0).nsToEpoch 0 ≤ 100000 ∧ (instState 0).now < 0 + 100000 * (1 + 1)
    ∧ 0 + 100000 * (1 + 1) ≤ (atNs (instState 1) 200000).now ∧ (instState 0).rte.classNs = some 0 ∧ 0 + 20000 ≤ (instState 0).now
    ∧ (atNs (instState 0) 0).now < 0 + 20000
    ∧ ((drainState { elem := .link 0x10005 0 }).drainOf (.link 0x10005 0)) = some { elem := .link 0x10005 0 }
    ∧ (∀ a ∈ owned.sch.admitted, owned.usesElem a.sched (.link 0x10005 0) = true → owned.replaced a (.link 0x10005 0) = true)
    ∧ knownState.drainSets (.link 0x10005 0) = []
    ∧ (let d := drainState { elem := .link 0x10005 0, startNs := some 0 }; d.drained (.link 0x10005 0) = true ∧ d.elemQuiet (.link 0x10005 0) = true
      ∧ d.now < 0 + 100000000 ∧ 0 + 100000000 ≤ (atNs d 100000000).now) := by decide +kernel

/-- Rounds of fetches that serve queue 1, have served it, or begin anew; queues that wait for an engine (QueueResults, CommandResults). -/
theorem witness_turns :
    (queueState 1 []).fetchable 1 = 3 ∧ (queueState 1 []).turn.served = [] ∧ (∀ k, k < 64 → 0 < (queueState 1 []).fetchable k → k = 1)
    ∧ (let s := (((queueState 1 []).setCq 2 CTL_CQn_CFG_ENABLE 1).setCq 2 CTL_CQn_CFG_SIZE_LOG2 4).setQueue 2 { tail := 3 };
      0 < s.fetchable 2 ∧ s.turn.served = [])
    ∧ (slotState runCmd).runWaits 1 = true ∧ (slotState runCmd).grantNext = some 1
    ∧ (∀ k, k < 64 → k ≠ 1 → (slotState runCmd).runWaits k = false)
    ∧ (queueState 1 []).mirrorBlocks (some 4) = false
    ∧ (let s := queueState 1 []; ({ s with tri := { s.tri with paired := true, mirrorOpen := [(1, 0, 4)] } } : State).mirrorBlocks (some 4) = true)
    ∧ ((queueState 1 []).setFld PWR_STATUS_READY 0).ready = false ∧ owned.hubDown 0 = false ∧ owned.voters = 3 := by decide +kernel
def wallState : State :=
  at4 .tenant 0 fun x => { x with run := some { queue := 1, cmdId := 77, irq := false, budget0 := 9, reportH := 0, reportAddr := 0, reportLen := 0, deadlineNs := 50, slot := 40 } }
theorem witness_wall :
    ((wallState.engine 4).run.map (·.deadlineNs)) = some 50 ∧ (wallState.engine 4).running = true ∧ wallState.now < 50 ∧ 50 ≤ (atNs wallState 50).now := by
  decide +kernel

/-- A group that holds its reservation, one that is busy with another's, one idle in full; a holder that stalls (GroupRequestResults). -/
theorem witness_group_cases :
    (let g : Group := { grp false with resv := 2, idle := [0x10006], idleSinceNs := some 0 };
      (grpState g).group 5 = some g ∧ (∀ x ∈ agentMembers g.rec_, x.fid ∈ g.idle ++ [(0x10005 : Fid)]) ∧ (0x10005 : Fid) ∉ g.idle
      ∧ 0 + (grpState g).fld GRP_RESV_CFG_RELEASE_US * 1000 ≤ (atNs (grpState g) 100000).now
      ∧ (grpState g).now < 0 + (grpState g).fld GRP_RESV_CFG_RELEASE_US * 1000)
    ∧ (let g := { grp false with rec_ := { (grp false).rec_ with policyRing := true } }; g.rec_.policyRing = true ∧ g.resv = 0)
    ∧ fullState.fits (grp false) = false
    ∧ (let h : Group := { grp false with rec_ := { (grp false).rec_ with groupId := 6 }, resv := 2 };
      let t : Ticket := { number := 1, group := 5, goal := .library 4, sinceNs := 0 };
      let s : State := atNs { owned with grp := { owned.grp with groups := [grp true, h], tickets := [t] } } 10000000;
      s.grp.tickets.find? (fun x => x.number == 1) = some t ∧ t.sinceNs + 10000000 ≤ s.now ∧ h.heldNs + 10000000 ≤ s.now
      ∧ s.group 5 = some (grp true) ∧ s.overlapping (grp true) h = true ∧ s.holderStalled h = true) := by decide +kernel

/-- A broker window that has ended and one that has not; a KV deadline behind the mirror (DispatchResults, KvResults). -/
theorem witness_windows :
    owned.now < owned.plc.windowNs + owned.fld PLC_BROKER_CFG_WINDOW_MS * 1000000
    ∧ (let t := atNs owned 100000000; t.plc.windowNs + t.fld PLC_BROKER_CFG_WINDOW_MS * 1000000 ≤ t.now)
    ∧ owned.rte.play = none ∧ (instState 0).rte.play ≠ none ∧ brokerState.mirrorBlocks (some 6) = false
    ∧ ({ brokerState with tri := { brokerState.tri with paired := true, mirrorOpen := [(1, 0, 6)] } } : State).mirrorBlocks (some 6) = true
    ∧ tokRec.createdNs + 1000000 ≤ (dispState []).agentNow sw ∧ (atNs (dispState []) 0).agentNow sw < tokRec.createdNs + 1000000 := by decide +kernel

/-- A device in scrub whose status is late, and one that has just reported (ScrubResults). -/
theorem witness_scrub_time :
    (let d : DevSt := { state := 2, lastStatusNs := 0 };
      d.state = 2 ∧ d.scrubWaiting = false ∧ d.statusRaised = false
      ∧ owned.now < d.lastStatusNs + 5000000 ∧ d.lastStatusNs + 5000000 ≤ (atNs owned 5000000).now) := by decide +kernel

/-- The paths of SPDM: PCIe of H1 is heard, of H2 is not, an SMBus write is heard at each strapping of the address with a right PEC
(AttestationResults). -/
theorem witness_spdm :
    owned.spdmHears (.pcie 1) = true ∧ owned.spdmHears (.pcie 2) = false ∧ State.reset.spdmHears (.pcie 0) = false ∧ owned.hubDown 3 = false
    ∧ owned.rt0Out = false := by decide +kernel
theorem witness_smbus : ∃ pec, smbusTakes (0x60 + Config.smbAddr.toNat) [0x0F, 6, 0, 0, 0, 0, 0, 5] pec = true := by
  simp only [smbusTakes]
  generalize Config.smbAddr = a
  revert a
  decide +kernel

/-- Outputs of an image: no copy, one, two that agree, one that passed, with three instances and with two (VoteResults). -/
def outState (tiles : List Tile) (l : List (Nat × List Byte)) (passed : Bool) : State :=
  let s := imgState tiles
  atNs { s with tri := { s.tri with acts := [{ gate := 3, unit := 0x1001, seq := 1, copies := l, firstNs := 0, passed := passed, value := [7] }] } } 200000
def threeTiles : List Tile := [tileOf 1 0 0, tileOf 1 1 4, tileOf 1 2 8]
theorem witness_outputs :
    imageUnit 0x1001 = some 1 ∧ imageUnit 0 = none ∧ (outState threeTiles [] false).instanceOn 1 (4 - 3) = some 1
    ∧ (outState threeTiles [] false).instanceOn 1 9 = none
    ∧ ((outState threeTiles [] false).instances 1).length = 3 ∧ ((outState (threeTiles.take 2) [] false).instances 1).length = 2
    ∧ ((outState threeTiles [(0, [7])] false).gateAct 3 0x1001 1).map (·.copies) = some [(0, [7])]
    ∧ ((outState threeTiles [(0, [7]), (2, [7])] true).gateAct 3 0x1001 1).map (·.passed) = some true
    ∧ 0 + 200000 ≤ (outState threeTiles [] false).now ∧ (atNs (outState threeTiles [] false) 0).now < 0 + 200000 := by decide +kernel

/-- A hold that is open and ends, a mirror record too late; a pair whose generation allows a takeover (PairResults). -/
theorem witness_hold :
    (let s := pairState 0; ({ s with tri := { s.tri with holdEndNs := some 5 } } : State).tri.holdEndNs = some 5)
    ∧ (pairState 0).tri.mirrorOpen = [(1, 0, 0)] ∧ 0 + 10000000 ≤ (pairState 0).now ∧ (atNs (pairState 0) 0).now < 0 + 10000000
    ∧ (pairState 1).tri.partnerReq = false ∧ owned.tri.mirrorOpen = [] ∧ 62 ∉ owned.pwr.deadBlocks ∧ (5 : Nat) ≤ 10 := by decide +kernel

/-- A domain whose 8,192 switch IDs are all in use: a further switch gets none (DiscoveryResults). -/
def switchKnown (i : Nat) : Known := { ref := ⟨.s, i⟩, fid := owned.fidOf (0x8000 + i), ports := 1 }
def allSwitches : State := { owned with dom := { owned.dom with known := (List.range 0x2000).map switchKnown } }
theorem witness_no_id : allSwitches.assignId { infoOf true with agent := ⟨.s, 0x2000⟩ } = (none, false) := by
  have hk : (allSwitches.dom.known.find? fun k => k.ref == (⟨.s, 0x2000⟩ : AgentRef)) = none := by
    simp [allSwitches, switchKnown, List.find?_eq_none]
    omega
  have hl : allSwitches.lowestId .s = none := by
    simp only [State.lowestId, List.find?_eq_none, List.mem_map, List.mem_range]
    rintro x ⟨i, hi, rfl⟩
    have hf : owned.fidOf (0x8000 + i) = allSwitches.fidOf (0x8000 + i) := by
      simp only [State.fidOf, allSwitches]
    have : allSwitches.idTaken (0x8000 + i) = true := by
      have hm : switchKnown i ∈ allSwitches.dom.known := by
        simp only [allSwitches]
        exact List.mem_map_of_mem (List.mem_range.mpr hi)
      rw [State.idTaken, Bool.or_eq_true, List.any_eq_true]
      exact Or.inl ⟨switchKnown i, hm, beq_iff_eq.mpr hf⟩
    simp [this]
  have hi : allSwitches.dom.inventory = [] := rfl
  simp only [State.assignId, hk, hi, List.find?_nil]
  rw [hl]
  rfl

/-! ## Well-formed commands -/

/-- An ill-formed term for each check is refused. -/
theorem test_ill_formed :
    ([.registerWrite .operator 8 0x200000 0, .nocItemArrive 64 0 0 0, .nocRouterFail 12, .supplyOutOfRange 0x1A3F, .brownOut 19, .tempHigh 0x1A53 0,
      .quarterIdleTimeout 48, .dieLost 64, .install ep { hdr := bulkHdr }, .gqDoorbell ep 64 0 0, .linkDown .ctl 72 .blockLock,
      .linkDown (.agent sw) 512 .blockLock, .linkDown (.agent ep) 8 .blockLock, .expressHeadSlot ep 0 4096, .retrainComplete .ctl 0 5, .wakeGrant 6,
      .nop 32, .queueFetch 64, .chunkTimeout ep 65536 0 0, .partFree 0, .partFree 4096, .scrubStart 0x8000, .fltForce .operator 8192 0,
      .actCopyArrive 41 0 0 0 [], .actCopyArrive 0 3 0 0 [], .perstAssert 2].all fun i => !wellFormed i) = true := by decide +kernel

/-- Terms at the ends of the ranges pass. -/
theorem test_well_formed :
    ([.registerWrite .operator 8 0x1FFFFF 0, .nocItemArrive 63 0 0 0, .nocRouterFail 11, .supplyOutOfRange 0x1A53, .brownOut 18, .tempHigh 0x1A54 0,
      .quarterIdleTimeout 47, .dieLost 63, .write (.agent ep) (wrPkt 256), .gqDoorbell ep 63 0 0, .linkDown .ctl 71 .blockLock,
      .linkDown (.agent sw) 511 .blockLock, .linkDown (.agent ep) 7 .blockLock, .expressHeadSlot ep 0 4095, .retrainComplete .ctl 0 4, .wakeGrant 5,
      .nop 31, .queueFetch 63, .chunkTimeout ep 65535 0 0, .partFree 1, .partFree 4095, .scrubStart 0x7FFF, .fltForce .operator 8191 0,
      .actCopyArrive 40 2 0 0 [], .perstAssert 1].all wellFormed) = true := by decide +kernel

/-! ## Single steps -/

/-- The state a step answers with. -/
def after (c : Instr) (s : State) : State := match step { s with pending := [c] } with | .next t => t | _ => s

/-- The words of the worked example of R196 carry the operands its table names. -/
theorem test_worked_example :
    (let w : Word64 := 0x2001011400000000; (wOp w, wRd w, wRa w, wHs w, wSz w)) = (0x20, 4, 1, 1, 2)
    ∧ (let w : Word64 := 0x3301440000010010; (wOp w, wRd w, wRa w, wSp w, wImmH w)) = (0x33, 5, 4, 1, 0x10)
    ∧ (let w : Word64 := 0x1F04456400000004; (wOp w, wPd w, wPc w, wRa w, wCondI w, wCombI w)) = (0x1F, 2, 1, 5, 6, 1)
    ∧ (let w : Word64 := 0x1020C30000000001; (wOp w, wPidx w, wRd w, wRa w)) = (0x10, 2, 3, 3)
    ∧ (let w : Word64 := 0x830002FFFFFFFFFB; (wOp w, wRa w)) = (0x83, 2) := by decide +kernel

/-- LOOP by -5 from PC 6 with g2 = 24 goes to PC 1 with g2 = 23; with g2 = 1 it falls through (R193, R196). -/
theorem test_loop :
    (let x := (after (.loop 4) (at4 .operator 0x830002FFFFFFFFFB fun x => { x with pc := 6, code := [0, 0, 0, 0, 0, 0, 0x830002FFFFFFFFFB], g := [(2, 24)] })).engine 4;
      (x.pc, x.reg 2)) = (1, 23)
    ∧ (let x := (after (.loop 4) (at4 .operator 0x830002FFFFFFFFFB fun x => { x with pc := 6, code := [0, 0, 0, 0, 0, 0, 0x830002FFFFFFFFFB], g := [(2, 1)] })).engine 4;
      (x.pc, x.reg 2)) = (7, 0) := by decide +kernel

/-- LD of 4 bytes from a message buffer (R187, R196). -/
theorem test_ld :
    (let x := (after (.ld 4) (at4 .operator 0x2001011400000000 fun x => { x with g := [], bufs := [(0, Memory.writeBytes [] 0 (leBytes 4 0x80010005))] })).engine 4;
      (x.pc, x.reg 4)) = (1, 0x80010005) := by decide +kernel

/-- CMPI with COMB 1 keeps the AND with p1 (R181, R196). -/
theorem test_cmpi :
    ([true, false].map fun q => ((after (.cmpi 4) (at4 .operator 0x1F04456400000004 fun x => { x with g := [(5, 4)], p := [q, false, false, false, false, false, false] })).engine 4).pred 2)
      = [true, false] := by decide +kernel

/-- An idle step changes nothing; a step takes the front of the queue only. -/
theorem test_queue :
    (match step State.reset with | .next t => decide (t = State.reset) | _ => false) = true
    ∧ (match step { owned with pending := [.slotTick, .gateProbeTimer] } with | .next t => t.pending.length | _ => 9) = 1 := by decide +kernel

/-- CRC-32C of the nine digits (R104). -/
theorem test_crc : crc32c [0x31, 0x32, 0x33, 0x34, 0x35, 0x36, 0x37, 0x38, 0x39] = 0xE3069283 := by decide +kernel

/-- SHA-384 of the empty text begins with these bytes (R220, R352). -/
theorem test_sha384 : (sha384 []).toNat / 2 ^ 352 = 0x38B060A7 := by decide +kernel

/-- A header is read back from its bytes (R92). -/
theorem test_header_roundtrip :
    Header.parse (Header.bytes { dest := 5, src := 9, cls := .bulk, typ := 0x10 }) = { dest := 5, src := 9, cls := .bulk, typ := 0x10 } := by decide +kernel

/-- A tenant's write is counted and has no effect; the operator's is taken (R4). -/
theorem test_register_write :
    (after (.registerWrite .tenant 8 GRP_RESV_CFG 5) owned).fld FLT_VIOL_TENANT = 1
    ∧ (after (.registerWrite .tenant 8 GRP_RESV_CFG 5) owned).fld GRP_RESV_CFG_RELEASE_US = 100 := by decide +kernel

/-- A tick is 128 ns (R28). -/
theorem test_tick : (after .slotTick owned).now = 128 := by decide +kernel

/-- A WRITE lands in its window, and one byte beyond it is refused (R95). -/
theorem test_write :
    ((after (.write (.agent ep) (wrPkt 316)) ringState).agent ep).mem.readBytes 316 4 = [1, 2, 3, 4]
    ∧ ((after (.write (.agent ep) (wrPkt 317)) ringState).agent ep).mem = [] := by decide +kernel

/-- Two equal copies pass an act; a third that differs is fenced (R395, R397). -/
theorem test_vote :
    ((after (.actCopyArrive 3 1 0 1 [7]) (actState 7 [(0, [7])] false)).tri.acts.map (·.passed)) = [true]
    ∧ ((after (.actCopyArrive 3 2 0 1 [8]) (actState 7 [(0, [7]), (1, [7])] true)).tri.fencing.map (·.1)) = [2] := by decide +kernel

end Sys2Proof.Tests
end

section
/-! Writes of SCH_SYNC_CFG (R143, R144): what a register write stores, and when ARM has an effect beside that. -/

namespace Sys2Proof.Machine

/-- A field of one bit reads that bit. -/
theorem Field.of_eq_getLsbD {f : Field} (h : f.hi = f.lo) (w : Word64) : f.of w = (w.getLsbD f.lo).toNat := by
  rw [Field.of, h, Nat.sub_self, BitVec.getLsbD, Nat.toNat_testBit, Nat.zero_add, Nat.pow_one]

/-- A bit outside a field is as before when the field is set: the bit is a field of its own. -/
theorem Field.getLsbD_put_outside {f : Field} (hf : f.fits) {i : Nat} (hi : i ≤ 63) (h : i < f.lo ∨ f.hi < i) (w : Word64) (v : Nat) :
    (f.put w v).getLsbD i = w.getLsbD i := by
  have hapart : f.apart ⟨f.off, i, i⟩ := h.symm
  have hbit := Field.of_put_ne hf ⟨Nat.le_refl i, hi⟩ hapart w v
  rw [Field.of_eq_getLsbD rfl, Field.of_eq_getLsbD rfl] at hbit
  rw [Bool.eq_iff_iff, ← Bool.toNat_eq_one, hbit, Bool.toNat_eq_one]

/-- A register write takes of the written word the writable bits and those cleared by a 1, and nothing else (R11). -/
theorem writeWord_congr {d : RegDesc} {v w : Word64} (hrw : v &&& BitVec.ofNat 64 d.rw = w &&& BitVec.ofNat 64 d.rw)
    (hw1c : BitVec.ofNat 64 d.w1c &&& v = BitVec.ofNat 64 d.w1c &&& w) (old : Word64) : writeWord d old v = writeWord d old w := by
  simp only [writeWord, hrw, hw1c]

/-- Mirroring to the standby writes one register of the controller, TRI_STANDBY_STATUS. -/
theorem State.reg_mirrorOut (s : State) (item : Nat) {off : Nat} (h : off ≠ TRI_STANDBY_STATUS) :
    (s.mirrorOut item).reg off = s.reg off := by
  unfold State.mirrorOut
  split
  · rfl
  · exact (LinkOnly_reg (linkOnly_sendMgmt _ _ _ _ _ _ _) off).trans (State.reg_setFld_off _ h _)

/-- The ticks of an epoch stand in SCH_EPOCH_CFG. -/
theorem State.epochTicks_of_reg {s t : State} (h : t.reg SCH_EPOCH_CFG = s.reg SCH_EPOCH_CFG) : t.epochTicks = s.epochTicks := by
  simp only [State.epochTicks, State.geometry, State.fld, SCH_EPOCH_CFG_SLOTS, SCH_EPOCH_CFG_SLOT_TICKS, h]

/-- The description of SCH_SYNC_CFG (R144). -/
def descSyncCfg : RegDesc := ⟨SCH_SYNC_CFG, 0xFFFF00FF0007, 0, 0⟩

theorem regDesc_syncCfg : regDesc SCH_SYNC_CFG = some descSyncCfg := by decide +kernel

theorem syncArm_fits : SCH_SYNC_CFG_ARM.fits := by unfold Field.fits; decide

/-- ARM is none of the writable bits of SCH_SYNC_CFG, so what is stored does not depend on it. -/
theorem writeWord_put_arm (old v : Word64) (b : Nat) :
    writeWord descSyncCfg old (SCH_SYNC_CFG_ARM.put v b) = writeWord descSyncCfg old v := by
  refine writeWord_congr (BitVec.eq_of_getLsbD_eq fun i hi => ?_) (by simp [descSyncCfg]) old
  rw [BitVec.getLsbD_and, BitVec.getLsbD_and]
  by_cases harm : i = 3
  · subst harm
    simp [descSyncCfg]
  · rw [Field.getLsbD_put_outside syncArm_fits (Nat.le_of_lt_succ hi) (by simp only [SCH_SYNC_CFG_ARM]; omega)]

/-- The stored SYNC_EN is the written one. -/
theorem syncEn_writeWord (old v : Word64) : SCH_SYNC_CFG_SYNC_EN.of (writeWord descSyncCfg old v) = SCH_SYNC_CFG_SYNC_EN.of v := by
  rw [Field.of_eq_getLsbD rfl, Field.of_eq_getLsbD rfl]
  simp [SCH_SYNC_CFG_SYNC_EN, writeWord, descSyncCfg]

/-- The fields a write of SCH_SYNC_CFG stores, and STATE off where SYNC_EN is 0: the write but for ARM. -/
def State.storeSyncCfg (s : State) (v : Word64) : State :=
  let t := (s.setReg SCH_SYNC_CFG (writeWord descSyncCfg (s.reg SCH_SYNC_CFG) v)).mirrorOut 7
  if t.fld SCH_SYNC_CFG_SYNC_EN = 0 then t.setFld SCH_SYNC_STATUS_STATE 0 else t

/-- A write of SCH_SYNC_CFG stores its fields; then ARM starts acquisition where SYNC_EN is 1 and the epoch has 20 ticks (R143). -/
theorem State.writeSyncCfg_eq (s : State) (v : Word64) :
    s.writeSyncCfg v = if SCH_SYNC_CFG_ARM.of v = 1 ∧ (s.storeSyncCfg v).fld SCH_SYNC_CFG_SYNC_EN = 1 ∧ 20 ≤ (s.storeSyncCfg v).epochTicks
      then (s.storeSyncCfg v).acquire else s.storeSyncCfg v := by
  unfold State.writeSyncCfg
  rw [regDesc_syncCfg]
  rfl

theorem State.storeSyncCfg_put_arm (s : State) (v : Word64) (b : Nat) :
    s.storeSyncCfg (SCH_SYNC_CFG_ARM.put v b) = s.storeSyncCfg v := by
  unfold State.storeSyncCfg
  rw [writeWord_put_arm]

/-- Storing the fields touches SCH_SYNC_CFG, SCH_SYNC_STATUS and TRI_STANDBY_STATUS alone of the controller's registers. -/
theorem State.reg_storeSyncCfg (s : State) (v : Word64) {off : Nat} (hcfg : off ≠ SCH_SYNC_CFG) (hsta : off ≠ SCH_SYNC_STATUS)
    (hmir : off ≠ TRI_STANDBY_STATUS) : (s.storeSyncCfg v).reg off = s.reg off := by
  have hmirror : ((s.setReg SCH_SYNC_CFG (writeWord descSyncCfg (s.reg SCH_SYNC_CFG) v)).mirrorOut 7).reg off = s.reg off := by
    rw [State.reg_mirrorOut _ _ hmir, State.reg_setReg_ne _ _ hcfg]
  unfold State.storeSyncCfg
  extract_lets t
  split
  · rw [State.reg_setFld_off _ hsta, hmirror]
  · exact hmirror

theorem State.epochTicks_storeSyncCfg (s : State) (v : Word64) : (s.storeSyncCfg v).epochTicks = s.epochTicks :=
  State.epochTicks_of_reg (s.reg_storeSyncCfg v (by decide) (by decide) (by decide))

theorem State.syncEn_storeSyncCfg (s : State) (v : Word64) :
    (s.storeSyncCfg v).fld SCH_SYNC_CFG_SYNC_EN = SCH_SYNC_CFG_SYNC_EN.of v := by
  have hmirror : ((s.setReg SCH_SYNC_CFG (writeWord descSyncCfg (s.reg SCH_SYNC_CFG) v)).mirrorOut 7).fld SCH_SYNC_CFG_SYNC_EN
      = SCH_SYNC_CFG_SYNC_EN.of v := by
    rw [State.fld, State.reg_mirrorOut _ _ (by decide)]
    exact (congrArg _ (State.reg_setReg_self s SCH_SYNC_CFG _)).trans (syncEn_writeWord _ _)
  unfold State.storeSyncCfg
  extract_lets t
  split
  · rw [State.fld_setFld_off _ (by decide), hmirror]
  · exact hmirror

/-- A write that starts no acquisition only stores its fields: without ARM, with SYNC_EN 0 or with an epoch below 20 ticks (R143). -/
theorem State.writeSyncCfg_of_unarmed {s : State} {v : Word64}
    (h : SCH_SYNC_CFG_ARM.of v ≠ 1 ∨ SCH_SYNC_CFG_SYNC_EN.of v = 0 ∨ s.epochTicks < 20) : s.writeSyncCfg v = s.storeSyncCfg v := by
  rw [State.writeSyncCfg_eq, State.syncEn_storeSyncCfg, State.epochTicks_storeSyncCfg, if_neg (by omega)]

/-- An ignored ARM is as if it were not written (R143). -/
theorem State.writeSyncCfg_put_arm {s : State} {v : Word64} (h : SCH_SYNC_CFG_SYNC_EN.of v = 0 ∨ s.epochTicks < 20) :
    s.writeSyncCfg (SCH_SYNC_CFG_ARM.put v 0) = s.writeSyncCfg v := by
  have hput : SCH_SYNC_CFG_ARM.of (SCH_SYNC_CFG_ARM.put v 0) ≠ 1 := by simp [Field.of_put_self syncArm_fits]
  rw [State.writeSyncCfg_of_unarmed (.inl hput), State.writeSyncCfg_of_unarmed (.inr h), State.storeSyncCfg_put_arm]

/-- A SYNC_ARM answers a next state: a tenant's violation is counted, another's word is written (R4, R143). -/
theorem exec_syncArm (lvl : Level) (v : Word64) (s : State) :
    exec (.syncArm lvl v) s = .next (if lvl = .tenant then s.violation lvl else s.writeSyncCfg v) := by
  cases lvl <;> rfl

/-- Settles O56: what a write stores does not depend on ARM, and with SYNC_EN 0 or a short epoch it does nothing beside storing. -/
theorem armIgnored : Obligations.ArmIgnored := by
  intro s lvl v h _
  refine ⟨⟨_, exec_syncArm lvl v s, ?_⟩, fun hshort => Nat.div_eq_of_lt hshort⟩
  rw [exec_syncArm, State.writeSyncCfg_put_arm h]

end Sys2Proof.Machine
end

section
/-! The guard of an Alanik instruction (R178): where it stands in the word, and what it decides at issue. -/

namespace Sys2Proof.Machine

/-! ## The guard in the word -/

/-- A field is the word moved down by its low bit, cut to its width. -/
theorem wf_eq_shift (w : Word64) (lo n : Nat) : wf w lo n = (w >>> lo).toNat % 2 ^ n := by
  rw [wf, bitsAt, BitVec.toNat_ushiftRight, Nat.shiftRight_eq_div_pow]

theorem wOp_eq_shift (w : Word64) : wOp w = (w >>> 56).toNat := by
  have hlt : (w >>> 56).toNat < 2 ^ 8 := by
    rw [BitVec.toNat_ushiftRight, Nat.shiftRight_eq_div_pow]
    omega
  rw [wOp, wf_eq_shift, Nat.mod_eq_of_lt hlt]

theorem wNeg_eq_getLsbD (w : Word64) : wNeg w = w.getLsbD 55 := by
  rw [wNeg, wf, bitsAt, BitVec.getLsbD, Nat.testBit_eq_decide_div_mod_eq, beq_eq_decide, Nat.pow_one]

theorem wPidx_eq_shift (w : Word64) : wPidx w = (w >>> 52).toNat % 8 := wf_eq_shift w 52 3

/-- NEG is the upper bit of the guard, bits 55:52. -/
theorem wNeg_eq_guard (w : Word64) : wNeg w = decide (8 ≤ (w >>> 52).toNat % 16) := by
  rw [wNeg_eq_getLsbD, BitVec.getLsbD, Nat.testBit_eq_decide_div_mod_eq, BitVec.toNat_ushiftRight, Nat.shiftRight_eq_div_pow]
  exact decide_eq_decide.mpr (by omega)

/-- PIDX is the lower three bits of the guard. -/
theorem wPidx_eq_guard (w : Word64) : wPidx w = (w >>> 52).toNat % 16 % 8 := by
  rw [wPidx_eq_shift]
  omega

@[simp] theorem Engine.pred_zero (x : Engine) : x.pred 0 = true := rfl

/-- Guard 0 holds: p0 reads 1 and NEG is 0. -/
theorem Engine.guard_zero_holds (x : Engine) {w : Word64} (h : (w >>> 52).toNat % 16 = 0) : x.pred (wPidx w) ≠ wNeg w := by
  rw [wPidx_eq_guard, wNeg_eq_guard, h]
  simp

/-- Guard 8 does not hold: p0 reads 1 and NEG is 1. -/
theorem Engine.guard_eight_fails (x : Engine) {w : Word64} (h : (w >>> 52).toNat % 16 = 8) : x.pred (wPidx w) = wNeg w := by
  rw [wPidx_eq_guard, wNeg_eq_guard, h]
  simp

/-! ## The guard at issue -/

/-- A charged engine that runs and goes on by one instruction has stepped with its registers as they were (R182). -/
theorem State.charged_setPc_next {s : State} {e : Nat} (hr : (s.engine e).running = true) :
    (s.charged e).setPc e ((s.engine e).pc + 1) = s.stepped e (s.engine e) := by
  rw [State.setPc_running _ _ (by simpa using hr), State.engine_charged, State.charged_setEngine]
  rfl

/-- An instruction whose guard does not hold uses a budget unit and goes on, whatever its level and its effect (R178, R182). -/
theorem State.issue_guard_fails {s : State} {e op : Nat} {lvl : Level} {w : Word64} {body : State → Word64 → Effect}
    (hi : (s.engine e).issues = true) (hc : (s.engine e).code[(s.engine e).pc]? = some w) (hl : legal w = true)
    (hb : (s.engine e).budget ≠ 0) (hp : s.pausing = false) (hg : (s.engine e).pred (wPidx w) = wNeg w) (ho : wOp w = op) :
    s.issue e op lvl body = s.stepped e (s.engine e) := by
  rw [← State.charged_setPc_next (Engine.running_of_issues hi)]
  unfold State.issue
  simp [hi, hp, hc, ho, hl, hb, hg, State.charged]

/-- The command is one issue of an instruction of that opcode by engine `e`, at some level and with some effect. -/
def IssuesOn (e : Nat) (row : Nat × Instr) : Prop :=
  ∀ s, ∃ lvl body, exec row.2 s = .next (s.issue e row.1 lvl body)

/-- A row joins a list of rows that are each one issue. -/
theorem issuesOn_cons {e op : Nat} {i : Instr} {rows : List (Nat × Instr)} {lvl : Level} {body : State → Word64 → Effect}
    (h : ∀ s, exec i s = .next (s.issue e op lvl body)) (hrows : ∀ row ∈ rows, IssuesOn e row) :
    ∀ row ∈ (op, i) :: rows, IssuesOn e row :=
  List.forall_mem_cons.mpr ⟨fun s => ⟨lvl, body, h s⟩, hrows⟩

/-- Settles O3: by the bits of the word, and because each of the 84 rows is one issue of its opcode, whose effect the guard decides
whether to carry out. -/
theorem guardRule : Obligations.GuardRule := by
  refine ⟨fun w => ⟨wOp_eq_shift w, wNeg_eq_getLsbD w, wPidx_eq_shift w⟩, fun x w => ⟨x.guard_zero_holds, x.guard_eight_fails⟩, ?_⟩
  intro s e w hi hc hl hb hp
  constructor
  · intro hg i fp hrow
    have hissue : IssuesOn e (wOp w, i) := by
      refine (?_ : ∀ row ∈ _, IssuesOn e row) _ hrow
      repeat' apply issuesOn_cons (fun _ => rfl)
      exact List.forall_mem_nil _
    obtain ⟨lvl, body, hexec⟩ := hissue s
    rw [hexec, State.issue_guard_fails hi hc hl hb hp hg rfl]
  · intro hg lvl body hlvl hgate
    exact State.issue_executes ⟨hi, hc, hl, hb, hg, hlvl, hp, hgate⟩ rfl

end Sys2Proof.Machine
end

section
/-! A launch that does not fit (R274, R275, R280): how a launch notice changes the waiting tickets and GRP_FALLBACK. -/

namespace Sys2Proof.Machine

/-- `t` has the waiting tickets of `s`, and the counts of GRP_FALLBACK stand as they stood there. -/
structure State.KeepsWaiting (s t : State) : Prop where
  tickets : t.grp.tickets = s.grp.tickets
  fallback : t.reg GRP_FALLBACK = s.reg GRP_FALLBACK

/-! ## What keeps the waiting tickets and the counts -/

theorem State.KeepsWaiting.refl (s : State) : s.KeepsWaiting s := ⟨rfl, rfl⟩

theorem State.KeepsWaiting.trans {s t u : State} (h : s.KeepsWaiting t) (g : t.KeepsWaiting u) : s.KeepsWaiting u :=
  ⟨g.tickets.trans h.tickets, g.fallback.trans h.fallback⟩

theorem State.KeepsWaiting.fld {s t : State} (h : s.KeepsWaiting t) {f : Field} (hf : f.off = GRP_FALLBACK) : t.fld f = s.fld f := by
  rw [State.fld, State.fld, hf, h.fallback]

theorem LinkOnly_grp {s t : State} (h : s.LinkOnly t) : t.grp = s.grp := by
  unfold State.LinkOnly at h
  rw [h]

theorem keepsWaiting_of_linkOnly {s t : State} (h : s.LinkOnly t) : s.KeepsWaiting t :=
  ⟨congrArg GroupSt.tickets (LinkOnly_grp h), LinkOnly_reg h GRP_FALLBACK⟩

theorem keepsWaiting_forEach {α : Type} {f : State → α → State} (h : ∀ (s : State) x, s.KeepsWaiting (f s x)) (l : List α) (s : State) :
    s.KeepsWaiting (s.forEach l f) := by
  induction l generalizing s with
  | nil => exact .refl s
  | cons x l ih => exact (h s x).trans (ih (f s x))

theorem keepsWaiting_setFld (s : State) {f : Field} (hf : GRP_FALLBACK ≠ f.off) (v : Nat) : s.KeepsWaiting (s.setFld f v) :=
  ⟨rfl, s.reg_setFld_off hf v⟩

theorem keepsWaiting_setGroup (s : State) (g : Group) : s.KeepsWaiting (s.setGroup g) := ⟨rfl, rfl⟩

theorem keepsWaiting_acked (s : State) (n : Node) (p : Packet) : s.KeepsWaiting (s.acked n p) :=
  keepsWaiting_of_linkOnly (linkOnly_complete s n p.hdr)

/-- A free order leaves by a stream of the controller, with the hook of its acknowledgement. -/
theorem keepsWaiting_sendHooked (s : State) (f : Fid) (typ : BitVec 8) (l : List Byte) (k : AckKind) :
    s.KeepsWaiting (s.sendHooked f typ l k) := by
  unfold State.sendHooked
  extract_lets seq hook u
  have hhook : s.KeepsWaiting u := ⟨rfl, rfl⟩
  exact hhook.trans (keepsWaiting_of_linkOnly (linkOnly_sendPkt u _ _))

/-- GRP_STATUS and GRP_ROOT are other registers than GRP_FALLBACK. -/
theorem keepsWaiting_showGroups (s : State) : s.KeepsWaiting s.showGroups := by
  unfold State.showGroups
  extract_lets m s1 s2 s3 s4
  have h1 : s.KeepsWaiting s1 := keepsWaiting_setFld s (by decide) _
  have h2 : s1.KeepsWaiting s2 := keepsWaiting_setFld s1 (by decide) _
  have h3 : s2.KeepsWaiting s3 := keepsWaiting_setFld s2 (by decide) _
  have h4 : s3.KeepsWaiting s4 := keepsWaiting_setFld s3 (by decide) _
  have hroot : s4.KeepsWaiting ((s4.setFld GRP_ROOT_ROOT_CTX_FREE m.ctxFree).setFld GRP_ROOT_ROOT_BLOCKS_FREE m.blkFree) :=
    (keepsWaiting_setFld s4 (by decide) _).trans (keepsWaiting_setFld _ (by decide) _)
  exact (((h1.trans h2).trans h3).trans h4).trans hroot

theorem keepsWaiting_mapFree (s : State) (f : Fid) (tree : BitVec 24) (group : Nat) : s.KeepsWaiting (s.mapFree f tree group) := by
  unfold State.mapFree
  dsimp only
  split
  · exact ⟨rfl, rfl⟩
  · exact .refl s

theorem keepsWaiting_freeAt (s : State) (g : Group) (f : Fid) : s.KeepsWaiting (s.freeAt g f) := by
  unfold State.freeAt
  split
  · extract_lets u
    have hctxs : s.KeepsWaiting u := ⟨rfl, rfl⟩
    exact (hctxs.trans (keepsWaiting_mapFree u _ _ _)).trans (keepsWaiting_showGroups _)
  · exact keepsWaiting_sendHooked s _ _ _ _

theorem keepsWaiting_freeReservation (s : State) (g : Group) : s.KeepsWaiting (s.freeReservation g) :=
  (keepsWaiting_forEach (fun s f => keepsWaiting_freeAt s g f) g.written s).trans (keepsWaiting_setGroup _ _)

/-- Reservations that are freed for a waiting ticket leave that ticket waiting (R277). -/
theorem keepsWaiting_freeIdle (s : State) : s.KeepsWaiting s.freeIdle := keepsWaiting_forEach keepsWaiting_freeReservation _ s

/-! ## A ticket that is drawn (R274) -/

/-- The ticket a group draws next. -/
def State.newTicket (s : State) (group : Nat) (goal : ResvFor) : Ticket :=
  { number := s.fld GRP_TICKET_NEXT, group := group, goal := goal, sinceNs := s.now }

@[simp] theorem State.drawTicket_tickets (s : State) (group : Nat) (goal : ResvFor) :
    (s.drawTicket group goal).grp.tickets = s.grp.tickets ++ [s.newTicket group goal] := rfl

/-- GRP_TICKET is another register than GRP_FALLBACK. -/
theorem State.drawTicket_fallback (s : State) (group : Nat) (goal : ResvFor) :
    (s.drawTicket group goal).reg GRP_FALLBACK = s.reg GRP_FALLBACK := by
  unfold State.drawTicket State.setTickets State.showTickets
  rw [State.reg_setFld_off _ (by decide), State.reg_setFld_off _ (by decide)]
  exact State.reg_setFld_off _ (by decide) _

/-! ## The counts of GRP_FALLBACK -/

/-- One more launch has waited: WAITED counts it and saturates, RING is as before. -/
theorem State.waited_satFld (s : State) :
    (s.satFld GRP_FALLBACK_WAITED 1).fld GRP_FALLBACK_WAITED = min (s.fld GRP_FALLBACK_WAITED + 1) 0xFFFFFFFF := by
  have hfits : GRP_FALLBACK_WAITED.fits := by unfold Field.fits; decide
  have hmax : GRP_FALLBACK_WAITED.max = 0xFFFFFFFF := rfl
  rw [State.satFld, State.fld_setFld_self s hfits, hmax]
  exact Nat.mod_eq_of_lt (Nat.lt_of_le_of_lt (Nat.min_le_right _ _) (by decide))

theorem State.ring_satFld_waited (s : State) (n : Nat) :
    (s.satFld GRP_FALLBACK_WAITED n).fld GRP_FALLBACK_RING = s.fld GRP_FALLBACK_RING :=
  State.fld_setFld_apart s (by unfold Field.fits; decide) (by unfold Field.fits; decide) (by unfold Field.apart; decide) _

/-! ## A launch that is decided to wait (R275, R280) -/

/-- The group once a launch of it waits for its go notice. -/
def Group.awaiting (g : Group) (op : BitVec 32) : Group :=
  { g with decided := (op :: g.decided).take 1024
           lastOp := if seqLater g.lastOp op then g.lastOp else op
           waiting := g.waiting ++ [op] }

/-- The state in which a launch that does not fit has been counted, before its ticket is seen to. -/
def State.countedWaiting (s : State) (g : Group) (op : BitVec 32) : State :=
  (s.setGroup (g.awaiting op)).satFld GRP_FALLBACK_WAITED 1

/-- With POLICY 0, a launch whose reservation does not fit is counted; it joins the ticket of its group where one waits, and draws one
otherwise. -/
theorem State.decideLaunch_of_not_fits {s : State} {g : Group} (op : BitVec 32) (sparse : Bool) (hresv : g.resv = 0)
    (hpolicy : g.rec_.policyRing = false) (hfits : s.fits g = false) :
    s.decideLaunch g op sparse = if s.grp.tickets.any (fun t => t.group == g.rec_.groupId) then s.countedWaiting g op
      else ((s.countedWaiting g op).drawTicket g.rec_.groupId .launch).freeIdle := by
  unfold State.decideLaunch
  extract_lets u gid w y busy z
  have hfits' : ¬ y.fits w = true := Bool.eq_false_iff.mp hfits
  have hcounted : z = s.countedWaiting g op := if_neg hfits'
  rw [if_neg (show u.resv ≠ 2 by simp [u, hresv]), if_neg (by simp [u, hpolicy]), if_neg (show ¬ w.resv ≠ 0 by simp [w, u, hresv]),
    if_neg hfits', if_neg (fun h : busy = false ∧ y.fits w = true ∧ _ => hfits' h.2.1), hcounted]
  rfl

/-- A launch that does not fit puts its group's ticket among the waiting ones, beside those that wait already, and changes of
GRP_FALLBACK what one more count of WAITED changes. -/
theorem State.decideLaunch_waits {s : State} {g : Group} (op : BitVec 32) (sparse : Bool) (hresv : g.resv = 0)
    (hpolicy : g.rec_.policyRing = false) (hfits : s.fits g = false) :
    (∃ x ∈ (s.decideLaunch g op sparse).grp.tickets, x.group = g.rec_.groupId)
    ∧ (∀ x ∈ s.grp.tickets, x ∈ (s.decideLaunch g op sparse).grp.tickets)
    ∧ (s.decideLaunch g op sparse).reg GRP_FALLBACK = (s.satFld GRP_FALLBACK_WAITED 1).reg GRP_FALLBACK := by
  rw [State.decideLaunch_of_not_fits op sparse hresv hpolicy hfits]
  split
  case isTrue hticket =>
    obtain ⟨x, hx, hgroup⟩ := List.any_eq_true.mp hticket
    exact ⟨⟨x, hx, eq_of_beq hgroup⟩, fun _ h => h, rfl⟩
  case isFalse =>
    have hfree := keepsWaiting_freeIdle ((s.countedWaiting g op).drawTicket g.rec_.groupId .launch)
    rw [hfree.tickets, hfree.fallback, State.drawTicket_tickets, State.drawTicket_fallback]
    exact ⟨⟨_, List.mem_append_right _ (List.mem_singleton_self _), rfl⟩, fun _ h => List.mem_append_left _ h, rfl⟩

/-! ## The notice (R274) -/

/-- The group from which a notice has come: it is not idle (R277). -/
def Group.roused (g : Group) : Group := { g with idle := [], idleSinceNs := none }

theorem State.group_id {s : State} {k : Nat} {g : Group} (h : s.group k = some g) : g.rec_.groupId = k := by
  simpa using List.find?_some h

/-- A notice of a member of a queue-mode group is acknowledged, and its launch is decided unless it has been. -/
theorem exec_launchNotice_of_member {s : State} {p : Packet} {op : BitVec 32} {sparse : Bool} {g : Group} {k : Nat} {m : Member}
    (hp : s.freshPacket .ctl p) (hg : s.group k = some g) (hm : m ∈ g.rec_.members) (hsrc : m.fid = p.hdr.src)
    (hlib : g.rec_.library = false) :
    exec (.launchNotice p k op sparse) s
      = .next ((if op ∈ g.decided then s.setGroup g.roused else s.decideLaunch g.roused op sparse).acked .ctl p) := by
  have hmember : (g.rec_.members.any fun m => m.fid == p.hdr.src) = true := List.any_eq_true.mpr ⟨m, hm, beq_iff_eq.mpr hsrc⟩
  have hlaunch : s.launchNotice k op sparse = if op ∈ g.decided then s.setGroup g.roused else s.decideLaunch g.roused op sparse := by
    simp [State.launchNotice, hg, hlib, Group.roused]
  rw [← hlaunch]
  refine (congrArg Host.Outcome.next (State.accept_taken hp ?_) : execLaunchNotice p k op sparse s = _)
  simp [hg, hmember]

/-- Settles O55: a launch that is decided now joins or draws its group's ticket and counts once, one decided before only rouses its group;
the acknowledgement keeps tickets and counts. -/
theorem waitedOnce : Obligations.WaitedOnce := by
  intro s p op sparse g k m hp hg hm hsrc hlib
  have hexec := exec_launchNotice_of_member (op := op) (sparse := sparse) hp hg hm hsrc hlib
  constructor
  · intro hop hresv hpolicy hfits
    rw [if_neg hop] at hexec
    obtain ⟨⟨x, hx, hgroup⟩, hold, hcount⟩ := State.decideLaunch_waits (g := g.roused) op sparse hresv hpolicy hfits
    have hid : g.roused.rec_.groupId = k := State.group_id (g := g) hg
    have hack := keepsWaiting_acked (s.decideLaunch g.roused op sparse) .ctl p
    have hfld : ∀ f : Field, f.off = GRP_FALLBACK →
        ((s.decideLaunch g.roused op sparse).acked .ctl p).fld f = (s.satFld GRP_FALLBACK_WAITED 1).fld f := fun f hf => by
      rw [hack.fld hf, State.fld, State.fld, hf, hcount]
    refine ⟨_, hexec, ?_, ?_, ?_, ?_⟩
    · rw [hfld _ rfl, State.waited_satFld]
    · exact ⟨x, hack.tickets ▸ hx, hgroup.trans hid⟩
    · exact fun y hy => hack.tickets ▸ hold y hy
    · rw [hfld _ rfl, State.ring_satFld_waited]
  · intro hop
    rw [if_pos hop] at hexec
    have hkeeps := (keepsWaiting_setGroup s g.roused).trans (keepsWaiting_acked _ .ctl p)
    exact ⟨_, hexec, hkeeps.fld rfl, hkeeps.tickets⟩

end Sys2Proof.Machine
end

section
/-! The operator's fence (R397, R399, R400): what a write of TRI_CFG orders, and what the fence tick does to the vote. -/

namespace Sys2Proof.Machine

/-! ## The vote -/

/-- TRI_STATUS.VOTING stands in `t` as it stood in `s`. -/
structure State.KeepsVote (s t : State) : Prop where
  voting : t.fld TRI_STATUS_VOTING = s.fld TRI_STATUS_VOTING

theorem voting_fits : TRI_STATUS_VOTING.fits := by unfold Field.fits; decide

/-- VOTING has a bit per arbiter, three in all. -/
theorem State.voting_lt (s : State) : s.fld TRI_STATUS_VOTING < 8 := Nat.mod_lt _ (by decide)

theorem State.KeepsVote.votes {s t : State} (h : s.KeepsVote t) (k : Nat) : t.votes k = s.votes k := by
  rw [State.votes, State.votes, h.voting]

theorem State.KeepsVote.voters {s t : State} (h : s.KeepsVote t) : t.voters = s.voters := by
  rw [State.voters, State.voters, h.voting]

/-- With three voters every arbiter is in the vote. -/
theorem State.votes_of_voters_eq_three {s : State} (h : s.voters = 3) {die : Nat} (hdie : die < 3) : s.votes die = true := by
  have hall : ∀ v < 8, v % 2 + v / 2 % 2 + v / 4 % 2 = 3 → ∀ k < 3, (v / 2 ^ k % 2 == 1) = true := by decide
  exact hall _ s.voting_lt h die hdie

/-- Without the bit of a voting arbiter the vote is that of the others. -/
theorem State.votes_of_voting_sub {s t : State} {die : Nat} (hdie : die < 3) (hvotes : s.votes die = true)
    (h : t.fld TRI_STATUS_VOTING = s.fld TRI_STATUS_VOTING - 2 ^ die) (k : Nat) : t.votes k = (k != die && s.votes k) := by
  have hbits : ∀ v < 8, ∀ d < 3, (v / 2 ^ d % 2 == 1) = true →
      ∀ k < 3, ((v - 2 ^ d) / 2 ^ k % 2 == 1) = (k != d && (v / 2 ^ k % 2 == 1)) := by decide
  have hlt := s.voting_lt
  rw [State.votes, State.votes, h]
  by_cases hk : k < 3
  · exact hbits _ hlt die hdie hvotes k hk
  · have hpow : 8 ≤ 2 ^ k := Nat.pow_le_pow_right (n := 2) (i := 3) (by decide) (Nat.le_of_not_lt hk)
    have hkeep : s.fld TRI_STATUS_VOTING < 2 ^ k := Nat.lt_of_lt_of_le hlt hpow
    rw [Nat.div_eq_of_lt (Nat.lt_of_le_of_lt (Nat.sub_le _ _) hkeep), Nat.div_eq_of_lt hkeep]
    simp

/-! ## What keeps the vote -/

theorem State.KeepsVote.refl (s : State) : s.KeepsVote s := ⟨rfl⟩

theorem State.KeepsVote.trans {s t u : State} (h : s.KeepsVote t) (g : t.KeepsVote u) : s.KeepsVote u :=
  ⟨g.voting.trans h.voting⟩

theorem keepsVote_of_reg {s t : State} (h : t.reg TRI_STATUS = s.reg TRI_STATUS) : s.KeepsVote t :=
  ⟨congrArg TRI_STATUS_VOTING.of h⟩

/-- What an operation keeps from a state on, it keeps from any state with the same registers. -/
theorem State.KeepsVote.after {s t u : State} (h : t.KeepsVote u) (hregs : t.regs = s.regs) : s.KeepsVote u :=
  (keepsVote_of_reg (by rw [State.reg, State.reg, hregs])).trans h

theorem keepsVote_ite {s t u : State} {c : Prop} [Decidable c] (h : s.KeepsVote t) (g : s.KeepsVote u) :
    s.KeepsVote (if c then t else u) := by
  split
  · exact h
  · exact g

theorem keepsVote_forEach {α : Type} {f : State → α → State} (h : ∀ (s : State) x, s.KeepsVote (f s x)) (l : List α) (s : State) :
    s.KeepsVote (s.forEach l f) := by
  induction l generalizing s with
  | nil => exact .refl s
  | cons x l ih => exact (h s x).trans (ih (f s x))

theorem keepsVote_setFld (s : State) {f : Field} (hf : TRI_STATUS ≠ f.off) (v : Nat) : s.KeepsVote (s.setFld f v) :=
  ⟨State.fld_setFld_off s hf v⟩

/-- PHASE, RESYNC_DIE and DIVERGENCES lie below VOTING in its register. -/
theorem keepsVote_setFld_below (s : State) {f : Field} (hle : f.lo ≤ f.hi) (hlt : f.hi < 61) (v : Nat) : s.KeepsVote (s.setFld f v) :=
  ⟨State.fld_setFld_apart s ⟨hle, by omega⟩ voting_fits (.inl hlt) v⟩

theorem keepsVote_setBlk (s : State) (f : Field) (b v : Nat) : s.KeepsVote (s.setBlk f b v) :=
  keepsVote_setFld s (by simp only [Field.at, fltBlk, TRI_STATUS, FLT_BLKn]; omega) v

theorem triStatus_ne_fltSrc (n : Nat) : TRI_STATUS ≠ fltSrc n := by
  simp only [fltSrc, TRI_STATUS, FLT_SRCn]
  omega

theorem keepsVote_raise (s : State) (n sev : Nat) (d : BitVec 16 := 0) : s.KeepsVote (s.raise n sev d) :=
  keepsVote_of_reg (s.reg_raise_ne sev d _ _ (triStatus_ne_fltSrc n))

theorem keepsVote_lapse (s : State) (code object : Nat) : s.KeepsVote (s.lapse code object) :=
  keepsVote_of_reg (s.reg_lapse_ne code object (triStatus_ne_fltSrc 7))

theorem keepsVote_requestTakeover (s : State) : s.KeepsVote s.requestTakeover := ⟨rfl⟩

theorem keepsVote_present (s : State) (ev : Event) : s.KeepsVote (s.present ev) := ⟨rfl⟩

theorem keepsVote_showQuote (s : State) : s.KeepsVote s.showQuote := keepsVote_setFld s (by decide) _

/-! ## The acts at the gates (R395) -/

theorem keepsVote_setAct (s : State) (x : GateAct) : s.KeepsVote (s.setAct x) := ⟨rfl⟩

theorem keepsVote_endAct (s : State) (x : GateAct) : s.KeepsVote (s.endAct x) := ⟨rfl⟩

theorem keepsVote_refuseAct (s : State) (x : GateAct) : s.KeepsVote (s.refuseAct x) := by
  unfold State.refuseAct
  extract_lets rest tri
  exact (keepsVote_raise _ _ _).after rfl

/-- The fence that is ordered takes effect at the next tick. -/
theorem keepsVote_orderFence (s : State) (die gate : Nat) : s.KeepsVote (s.orderFence die gate) := keepsVote_ite (.refl s) ⟨rfl⟩

/-- A fence of a voting arbiter that is ordered while none other is waits alone. -/
theorem State.fencing_orderFence {s : State} {die : Nat} (gate : Nat) (hvotes : s.votes die = true) (hnone : s.tri.fencing = []) :
    (s.orderFence die gate).tri.fencing = [(die, gate)] := by
  simp [State.orderFence, hvotes, hnone]

theorem keepsVote_gateFence (s : State) (die gate : Nat) : s.KeepsVote (s.gateFence die gate) := by
  unfold State.gateFence
  extract_lets u tri
  have hcounted : s.KeepsVote u := (keepsVote_raise s _ _ _).trans (keepsVote_setFld_below _ (by decide) (by decide) _)
  exact hcounted.trans ((keepsVote_orderFence _ die gate).after rfl)

theorem keepsVote_judge (s : State) (x : GateAct) : s.KeepsVote (s.judge x) := by
  unfold State.judge
  extract_lets n
  refine keepsVote_ite (keepsVote_setAct s x) ?_
  split
  · extract_lets y odd u
    have hfence : ∀ (s : State) (d : Nat × List Byte), s.KeepsVote (s.gateFence d.1 x.gate) :=
      fun s d => keepsVote_gateFence s d.1 x.gate
    have hodd : s.KeepsVote u := keepsVote_forEach hfence odd s
    exact hodd.trans (keepsVote_ite (keepsVote_endAct u y) (keepsVote_setAct u y))
  · exact keepsVote_ite (keepsVote_refuseAct s x) (keepsVote_setAct s x)

theorem keepsVote_dropCopies (s : State) (die : Nat) : s.KeepsVote (s.dropCopies die) := by
  unfold State.dropCopies
  extract_lets acts tri u
  have hcleared : s.KeepsVote u := ⟨rfl⟩
  refine hcleared.trans (keepsVote_forEach (fun s x => ?_) _ u)
  exact keepsVote_ite (keepsVote_setAct s x)
    (keepsVote_ite (keepsVote_ite (keepsVote_endAct s _) (keepsVote_setAct s _)) (keepsVote_ite (.refl s) (keepsVote_judge s _)))

/-! ## The reset or retirement of an arbiter (R377, R381) -/

theorem keepsVote_noteLastCopy (s : State) (b : Nat) : s.KeepsVote (s.noteLastCopy b) :=
  keepsVote_ite ((keepsVote_raise s _ _ _).trans (keepsVote_requestTakeover _)) (.refl s)

theorem keepsVote_setBlockState (s : State) (b st : Nat) : s.KeepsVote (s.setBlockState b st) := by
  unfold State.setBlockState
  extract_lets dead pwr u
  have hdead : s.KeepsVote u := ⟨rfl⟩
  exact ((hdead.trans (keepsVote_setBlk u _ _ _)).trans (keepsVote_setFld _ (by decide) _)).trans (keepsVote_setFld _ (by decide) _)

theorem keepsVote_openShadow (s : State) (b t : Nat) : s.KeepsVote (s.openShadow b t) := by
  unfold State.openShadow
  extract_lets col
  exact (keepsVote_setBlk _ _ _ _).after rfl

/-- An arbiter that is out needs no response but the fence (R36). -/
theorem keepsVote_blockOut (s : State) {b : Nat} (hb : b < 3) : s.KeepsVote (s.blockOut b) := by
  rw [State.blockOut, if_pos hb]
  exact .refl s

theorem keepsVote_startReset (s : State) {b : Nat} (hb : b < 3) : s.KeepsVote (s.startReset b) := by
  unfold State.startReset
  extract_lets out u resets pwr col v w
  have hshadow : s.KeepsVote u :=
    ((keepsVote_noteLastCopy s b).trans (keepsVote_setBlockState _ _ _)).trans (keepsVote_openShadow _ _ _)
  have hquote : s.KeepsVote w := hshadow.trans ((keepsVote_showQuote v).after rfl)
  exact hquote.trans (keepsVote_ite (.refl w) (keepsVote_blockOut w hb))

theorem keepsVote_retire (s : State) {b : Nat} (hb : b < 3) : s.KeepsVote (s.retire b) := by
  unfold State.retire
  extract_lets out u pwr col v w sq x
  have hretired : s.KeepsVote (v.setBlockState b 3) := (keepsVote_noteLastCopy s b).trans ((keepsVote_setBlockState v b 3).after rfl)
  have hshown : s.KeepsVote w := hretired.trans (keepsVote_showQuote _)
  exact hshown.trans ((keepsVote_ite (.refl x) (keepsVote_blockOut x hb)).after rfl)

/-! ## The fence tick (R397, R398) -/

/-- The fence takes the bit of its die out of VOTING and changes no other. -/
theorem State.voting_fence {s : State} {die : Nat} (gate : Nat) (hdie : die < 3) (hvotes : s.votes die = true) :
    (s.fence die gate).fld TRI_STATUS_VOTING = s.fld TRI_STATUS_VOTING - 2 ^ die := by
  unfold State.fence
  rw [if_neg (by simp [hvotes])]
  extract_lets busy left shown limit reset tri answered dropped idle
  have hleft : left.fld TRI_STATUS_VOTING = s.fld TRI_STATUS_VOTING - 2 ^ die := by
    rw [State.fld_setFld_self s voting_fits]
    exact Nat.mod_eq_of_lt (Nat.lt_of_le_of_lt (Nat.sub_le _ _) s.voting_lt)
  have hshown : left.KeepsVote shown := (keepsVote_lapse left _ _).trans (keepsVote_showQuote _)
  have hreset : shown.KeepsVote reset := ((keepsVote_startReset shown hdie).trans
    (keepsVote_setFld_below _ (by decide) (by decide) _)).trans (keepsVote_setFld_below _ (by decide) (by decide) _)
  have hretire : shown.KeepsVote (shown.retire die) := keepsVote_retire shown hdie
  have hanswered : shown.KeepsVote answered := keepsVote_ite (.refl shown) (keepsVote_ite (hretire.trans (keepsVote_present _ _))
    (keepsVote_ite hretire (hreset.trans ((State.KeepsVote.refl _).after rfl))))
  have hdropped : left.KeepsVote dropped := (hshown.trans hanswered).trans (keepsVote_dropCopies answered die)
  have hidle : dropped.KeepsVote idle := keepsVote_ite (keepsVote_setFld_below _ (by decide) (by decide) _) (.refl dropped)
  have hend : dropped.KeepsVote (if dropped.voters < 2 then (idle.raise (blockSource die) 4).requestTakeover else dropped) :=
    keepsVote_ite ((hidle.trans (keepsVote_raise _ _ _)).trans (keepsVote_requestTakeover _)) (.refl dropped)
  rw [(hdropped.trans hend).voting, hleft]

/-- The state with no fence ordered. -/
def State.withoutFences (s : State) : State := { s with tri := { s.tri with fencing := [] } }

theorem keepsVote_withoutFences (s : State) : s.KeepsVote s.withoutFences := ⟨rfl⟩

/-- The tick of a single fence that is ordered takes its die and no other out of the vote. -/
theorem exec_fenceEffect_of_one {s : State} {die gate : Nat} (hone : s.tri.fencing = [(die, gate)]) (hdie : die < 3)
    (hvotes : s.votes die = true) : ∃ t, exec .fenceEffect s = .next t ∧ ∀ k, t.votes k = (k != die && s.votes k) := by
  have hcleared := keepsVote_withoutFences s
  have hmember : s.withoutFences.votes die = true := (hcleared.votes die).trans hvotes
  refine ⟨s.withoutFences.fence die gate, ?_, fun k => ?_⟩
  · change execFenceEffect s = _
    rw [execFenceEffect, hone]
    rfl
  · rw [State.votes_of_voting_sub hdie hmember (State.voting_fence gate hdie hmember), hcleared.votes]

/-! ## The request (R399, R4) -/

/-- The fields a write of TRI_CFG stores. -/
def State.storeTriCfg (s : State) (v : Word64) : State :=
  (s.setFld TRI_CFG_FENCE_DIE (TRI_CFG_FENCE_DIE.of v)).setFld TRI_CFG_AUTO_RESYNC (TRI_CFG_AUTO_RESYNC.of v)

theorem State.reg_storeTriCfg (s : State) (v : Word64) {off : Nat} (h : off ≠ TRI_CFG) : (s.storeTriCfg v).reg off = s.reg off :=
  (State.reg_setFld_off _ h _).trans (State.reg_setFld_off _ h _)

theorem keepsVote_storeTriCfg (s : State) (v : Word64) : s.KeepsVote (s.storeTriCfg v) :=
  keepsVote_of_reg (s.reg_storeTriCfg v (by decide))

/-- A request to fence with fewer than three voters is a violation, otherwise it orders the fence of the die it names. -/
theorem exec_fenceReq_of_request {s : State} {lvl : Level} {v : Word64} (hlvl : lvl ≠ .tenant) (hfence : TRI_CFG_FENCE_REQ.of v = 1)
    (hresync : TRI_CFG_RESYNC_REQ.of v = 0) :
    exec (.fenceReq lvl v) s = .next (if s.voters < 3 then (s.storeTriCfg v).violation lvl
      else if TRI_CFG_FENCE_DIE.of v < 3 then (s.storeTriCfg v).orderFence (TRI_CFG_FENCE_DIE.of v) 0 else s.storeTriCfg v) := by
  have hwrite : exec (.fenceReq lvl v) s = .next (s.writeTriCfg lvl v) := by
    cases lvl with
    | tenant => exact absurd rfl hlvl
    | operator => rfl
    | vendor => rfl
  rw [hwrite, ← (keepsVote_storeTriCfg s v).voters]
  unfold State.writeTriCfg
  extract_lets u die t
  have ht : t = _ := if_neg (show ¬ TRI_CFG_FENCE_REQ.of v = 0 by simp [hfence])
  rw [if_pos hresync, ht]
  rfl

/-- A saturating counter holds at its largest value. -/
theorem State.fld_satFld_self (s : State) {f : Field} (hf : f.fits) (n : Nat) : (s.satFld f n).fld f = min (s.fld f + n) f.max := by
  have hpos : 0 < 2 ^ (f.hi - f.lo + 1) := by positivity
  rw [State.satFld, State.fld_setFld_self s hf]
  exact Nat.mod_eq_of_lt (Nat.lt_of_le_of_lt (Nat.min_le_right _ _) (Nat.sub_lt hpos Nat.one_pos))

theorem keepsVote_violation (s : State) (lvl : Level) : s.KeepsVote (s.violation lvl) := by
  cases lvl with
  | tenant => exact keepsVote_setFld s (by decide) _
  | operator => exact keepsVote_setFld s (by decide) _
  | vendor => exact keepsVote_setFld s (by decide) _

/-- Settles O57: with three voters the request orders one fence, which at the tick takes its die and no other out of the vote; with fewer
the write stores its fields and counts a violation. -/
theorem fenceRequest : Obligations.FenceRequest := by
  intro s lvl v die hlvl hfence hresync hdie
  subst hdie
  have hexec := exec_fenceReq_of_request (s := s) hlvl hfence hresync
  have hstore := keepsVote_storeTriCfg s v
  generalize TRI_CFG_FENCE_DIE.of v = die at hexec ⊢
  constructor
  · intro hthree hdie hnone
    have hvotes : (s.storeTriCfg v).votes die = true := (hstore.votes die).trans (State.votes_of_voters_eq_three hthree hdie)
    rw [if_neg (by omega), if_pos hdie] at hexec
    obtain ⟨u, htick, hafter⟩ := exec_fenceEffect_of_one (State.fencing_orderFence 0 hvotes hnone) hdie
      (((keepsVote_orderFence _ die 0).votes die).trans hvotes)
    have hkept : ∀ k, ((s.storeTriCfg v).orderFence die 0).votes k = s.votes k := (hstore.trans (keepsVote_orderFence _ die 0)).votes
    refine ⟨_, u, hexec, htick, ?_, fun k hk => ?_⟩
    · simp [hafter]
    · simp [hafter, hk, hkept]
  · intro hfew
    rw [if_pos hfew] at hexec
    refine ⟨_, hexec, ?_, fun k => ?_, ?_, ?_, ?_, ?_⟩
    · simp [State.storeTriCfg]
    · exact (hstore.trans (keepsVote_violation _ lvl)).votes k
    · simp [State.storeTriCfg]
    · simp [State.storeTriCfg]
    · simp [State.storeTriCfg]
    · rintro rfl
      have hcount : (s.storeTriCfg v).fld FLT_VIOL_OPERATOR = s.fld FLT_VIOL_OPERATOR :=
        congrArg FLT_VIOL_OPERATOR.of (s.reg_storeTriCfg v (by decide))
      rw [← hcount]
      exact State.fld_satFld_self _ (by unfold Field.fits; decide) 1

end Sys2Proof.Machine
end

section
/-! The 32 header bytes (R92): each field fits its bits, so the number the bytes spell gives every field back. -/

namespace Sys2Proof.Machine

/-! ## Numbers as bytes, most significant first -/

theorem leNat_leBytes (n v : Nat) : leNat (leBytes n v) = v % 256 ^ n := by
  induction n generalizing v with
  | zero => simp [leBytes, leNat, Nat.mod_one]
  | succ n ih =>
    have hbyte : (BitVec.ofNat 8 v).toNat = v % 256 := BitVec.toNat_ofNat v 8
    rw [leBytes, leNat, ih, hbyte, Nat.pow_succ, Nat.mul_comm (256 ^ n), Nat.mod_mul]

theorem beNat_beBytes (n v : Nat) : beNat (beBytes n v) = v % 256 ^ n := by
  rw [beNat, beBytes, List.reverse_reverse, leNat_leBytes]

theorem length_leBytes (n v : Nat) : (leBytes n v).length = n := by
  induction n generalizing v with
  | zero => rfl
  | succ n ih => rw [leBytes, List.length_cons, ih]

theorem length_beBytes (n v : Nat) : (beBytes n v).length = n := by rw [beBytes, List.length_reverse, length_leBytes]

theorem slice_zero_of_length {l : List Byte} {n : Nat} (h : l.length = n) : slice l 0 n = l := by
  subst h
  simp [slice]

end Sys2Proof.Machine

namespace Sys2Proof

open Sys2Proof.Machine

/-! ## The fields of a header -/

theorem classOf_code (c : PktClass) : classOf c.code = c := by cases c <;> rfl

theorem PktClass.code_lt (c : PktClass) : c.code < 4 := by cases c <;> decide

theorem bit_lt (b : Bool) : bit b < 2 := by cases b <;> decide

theorem bit_beq_one (b : Bool) : (bit b == 1) = b := by cases b <;> rfl

/-- The fields of a header fill its 256 bits, and each stands alone in its own (R92). -/
theorem Header.bitsAt_num (h : Header) :
    h.num < 2 ^ 256 ∧ bitsAt h.num 224 32 = h.dest.toNat ∧ bitsAt h.num 192 32 = h.src.toNat ∧ bitsAt h.num 190 2 = h.cls.code
      ∧ bitsAt h.num 189 1 = bit h.ord ∧ bitsAt h.num 188 1 = bit h.bcast ∧ bitsAt h.num 187 1 = bit h.resend
      ∧ bitsAt h.num 186 1 = bit h.zblk ∧ bitsAt h.num 184 2 = h.reserved.toNat ∧ bitsAt h.num 176 8 = h.typ.toNat
      ∧ bitsAt h.num 164 12 = h.partition.toNat ∧ bitsAt h.num 158 6 = h.hops.toNat ∧ bitsAt h.num 145 13 = h.length.toNat
      ∧ bitsAt h.num 88 57 = h.addr.toNat ∧ bitsAt h.num 72 16 = h.stream.toNat ∧ bitsAt h.num 40 32 = h.seq.toNat
      ∧ bitsAt h.num 24 16 = h.prec.toNat ∧ bitsAt h.num 0 24 = h.aux.toNat := by
  have hdest := h.dest.isLt
  have hsrc := h.src.isLt
  have hcls := h.cls.code_lt
  have hord := bit_lt h.ord
  have hbcast := bit_lt h.bcast
  have hresend := bit_lt h.resend
  have hzblk := bit_lt h.zblk
  have hreserved := h.reserved.isLt
  have htyp := h.typ.isLt
  have hpartition := h.partition.isLt
  have hhops := h.hops.isLt
  have hlength := h.length.isLt
  have haddr := h.addr.isLt
  have hstream := h.stream.isLt
  have hseq := h.seq.isLt
  have hprec := h.prec.isLt
  have haux := h.aux.isLt
  unfold Header.num bitsAt
  refine ⟨?_, ?_, ?_, ?_, ?_, ?_, ?_, ?_, ?_, ?_, ?_, ?_, ?_, ?_, ?_, ?_, ?_, ?_⟩ <;> omega

/-- The 32 bytes spell the number of the header. -/
theorem Header.beNat_bytes (h : Header) : beNat (slice h.bytes 0 32) = h.num := by
  rw [Header.bytes, slice_zero_of_length (length_beBytes 32 h.num), beNat_beBytes, show 256 ^ 32 = 2 ^ 256 by norm_num,
    Nat.mod_eq_of_lt h.bitsAt_num.1]

/-- Settles O58: the bytes spell the header's number, in whose bits each field stands alone. -/
theorem headerRoundTrip : Obligations.HeaderRoundTrip := by
  intro h
  obtain ⟨-, h1, h2, h3, h4, h5, h6, h7, h8, h9, h10, h11, h12, h13, h14, h15, h16, h17⟩ := h.bitsAt_num
  simp [Header.parse, h.beNat_bytes, h1, h2, h3, h4, h5, h6, h7, h8, h9, h10, h11, h12, h13, h14, h15, h16, h17, classOf_code,
    bit_beq_one]

end Sys2Proof
end

section
/-! What keeps an instruction from its effect (R173, R180, R182, R183, R195, R401), and HALT, TRAP and INV (R182, R183, R193). -/

namespace Sys2Proof.Machine

/-! ## Issue, outcome by outcome -/

section
variable {s : State} {e op : Nat} {lvl : Level} {w : Word64} {body : State → Word64 → Effect}

theorem State.issue_pausing (h : s.pausing = true) : s.issue e op lvl body = s := by
  unfold State.issue
  rw [if_pos (.inr h)]

variable (hi : (s.engine e).issues = true) (hp : s.pausing = false)
include hi hp

/-- An engine that issues and is not paused goes on to its instruction. -/
theorem State.issue_goes : ¬((s.engine e).issues = false ∨ s.pausing) := by simp [hi, hp]

theorem State.issue_beyond (hc : (s.engine e).code[(s.engine e).pc]? = none) : s.issue e op lvl body = s.faultProgram e 0x06 := by
  unfold State.issue
  rw [if_neg (State.issue_goes hi hp), hc]

variable (hc : (s.engine e).code[(s.engine e).pc]? = some w) (ho : wOp w = op)
include hc ho

theorem State.issue_illegal (hl : legal w = false) : s.issue e op lvl body = s.faultProgram e 0x01 := by
  unfold State.issue
  rw [if_neg (State.issue_goes hi hp), hc]
  simp [ho, hl]

variable (hl : legal w = true)
include hl

theorem State.issue_exhausted (hb : (s.engine e).budget = 0) : s.issue e op lvl body = s.faultProgram e 0x05 := by
  unfold State.issue
  rw [if_neg (State.issue_goes hi hp), hc]
  simp [ho, hl, hb]

variable (hb : (s.engine e).budget ≠ 0) (hg : (s.engine e).pred (wPidx w) ≠ wNeg w)
include hb hg

theorem State.issue_below_level (hlvl : levelRank (s.engine e).level < levelRank lvl) :
    s.issue e op lvl body = (s.charged e).suppress e w := by
  unfold State.issue
  rw [if_neg (State.issue_goes hi hp), hc]
  simp [ho, hl, hb, hg, hlvl, State.charged]

theorem State.issue_at_gate (hlvl : levelRank lvl ≤ levelRank (s.engine e).level) (hgated : (s.engine e).gated w = true)
    (hserves : s.gateServes e w = false) : s.issue e op lvl body = s.waitAtGate e := by
  unfold State.issue
  rw [if_neg (State.issue_goes hi hp), hc]
  simp [ho, hl, hb, hg, hgated, hserves, Nat.not_lt.mpr hlvl]

end

/-! ## The end of a program -/

@[simp] theorem State.quitGate_engines (s : State) (e : Nat) : (s.quitGate e).engines = s.engines := by
  unfold State.quitGate
  split <;> rfl

@[simp] theorem State.putRecord_engines (s : State) (n : Nat) (l : List Byte) (irq : Bool) :
    (s.putRecord n l irq).engines = s.engines := by
  simp [State.putRecord, apply_ite State.engines]

@[simp] theorem State.writeRecord_engines (s : State) (n : Nat) (r : Record) (irq : Bool) :
    (s.writeRecord n r irq).engines = s.engines := by
  unfold State.writeRecord
  split
  · rfl
  · exact State.putRecord_engines _ _ _ _

@[simp] theorem State.endDisable_engines (s : State) (n : Nat) : (s.endDisable n).engines = s.engines := by
  simp [State.endDisable, apply_ite State.engines]

@[simp] theorem State.completeCmd_engines (s : State) (n : Nat) (c : Cmd) (r : Record) : (s.completeCmd n c r).engines = s.engines := by
  simp [State.completeCmd]

theorem State.engine_of_engines {s t : State} (h : t.engines = s.engines) (e : Nat) : t.engine e = s.engine e := by
  rw [State.engine, h, State.engine]

/-- Nothing of a program that has ended stays in its engine: beside clearing it, the end reports and completes the command of its run. -/
theorem State.engine_endProgram (s : State) {e : Nat} (hr : (s.engine e).running = true) (status detail : Nat) (result : Word64)
    (pc : Nat) : (s.endProgram e status detail result pc).engine e = {} := by
  unfold State.endProgram
  extract_lets x u
  have hu : u.engine e = {} := State.engine_setEngine_self _ _ _
  clear_value u
  rw [if_neg (by simp [x, hr])]
  split
  · exact hu
  · extract_lets rep v q w
    have hw : w.engines = u.engines := by simp [w, v, apply_ite State.engines]
    clear_value w
    split
    · rw [State.engine_of_engines hw, hu]
    · rename_i pc v _ c _
      have hv : v.engines = u.engines := by simp [v, hw, apply_ite State.engines]
      rw [State.engine_of_engines ((State.completeCmd_engines _ _ _ _).trans hv), hu]

/-- A fault ends the program and raises the event of the engine's source. -/
theorem State.engine_faultProgram (s : State) {e : Nat} (hr : (s.engine e).running = true) (c : Nat) (r : Word64) :
    (s.faultProgram e c r).engine e = {} := by
  rw [State.faultProgram, State.engine_of_engines (State.raise_engines _ _ _ _ _ _), State.engine_endProgram s hr]

/-- Settles O4: issue refuses in the order of its checks; an instruction that ends the program leaves an empty engine. -/
theorem issueAndEndResults : Obligations.IssueAndEndResults := by
  constructor
  · rintro s e op lvl body _ rfl hi
    refine ⟨State.issue_pausing, fun hp => ⟨State.issue_beyond hi hp, fun w hc ho => ⟨?_, ?_, ?_, ?_, ?_⟩⟩⟩
    · exact State.issue_illegal hi hp hc ho
    · exact State.issue_exhausted hi hp hc ho
    · exact fun hl hb hg => State.issue_guard_fails hi hc hl hb hp hg ho
    · exact fun hl hb hg => State.issue_below_level hi hp hc ho hl hb hg
    · exact fun hl hb hg => State.issue_at_gate hi hp hc ho hl hb hg
  · intro s e w h
    have hrun : ((s.charged e).engine e).running = true := by simp [h.running]
    refine ⟨fun ho => ⟨_, rfl, ?_, ?_⟩, fun ho => ⟨_, _, rfl, ?_, rfl, ?_⟩, fun ho => ⟨_, _, rfl, ?_, rfl, ?_⟩⟩
    · rw [State.issue_ended h ho rfl, State.engine_endProgram _ hrun]
    · rw [State.issue_ended h ho rfl, State.g_charged]
    · rw [State.issue_fault h ho rfl, State.engine_faultProgram _ hrun]
    · rw [State.issue_fault h ho rfl, State.faultProgram]
      simp [engineSource]
    · rw [State.issue_fault h ho rfl, State.engine_faultProgram _ hrun]
    · rw [State.issue_fault h ho rfl, State.faultProgram]
      simp [engineSource]

end Sys2Proof.Machine
end

section
/-! WAIT, RECV and the completion of tags (R183, R185, R188, R190, R224, R245). -/

namespace Sys2Proof.Machine

/-! ## An instruction that leaves its engine changed and nothing else -/

/-- The charged state with another engine, its budget unit used: the engine has stepped. -/
theorem State.issue_setEngine {s : State} {e op : Nat} {lvl : Level} {w : Word64} {body : State → Word64 → Effect} {x : Engine}
    (h : s.executes e lvl w) (ho : wOp w = op) (hr : x.running = true)
    (hb : body (s.charged e) w = .done ((s.charged e).setEngine e { x with budget := (s.engine e).budget - 1 })) :
    s.issue e op lvl body = s.stepped e x := by
  rw [State.issue_setPc h ho hb, State.setPc_running _ _ (by simpa using hr), State.engine_setEngine_self, State.setEngine_setEngine,
    State.charged_setEngine]
  rfl

/-- Status and result of a tag in a pair of registers, and its predicate. -/
def Engine.take (x : Engine) (rd sp st : Nat) (r : Word64) : Engine :=
  ((x.setG rd (BitVec.ofNat 64 st)).setG (rd + 1) r).setP sp (st == 0)

theorem Engine.take_withBudget (x : Engine) (b rd sp st : Nat) (r : Word64) :
    Engine.take { x with budget := b } rd sp st r = { x.take rd sp st r with budget := b } := by
  simp only [Engine.take, Engine.setG_withBudget, Engine.setP_withBudget]

theorem State.putGs_putP (s : State) (e rd sp st : Nat) (r : Word64) (x : Engine) :
    (((s.setEngine e x).putGs e rd [BitVec.ofNat 64 st, r]).putP e sp (st == 0)) = s.setEngine e (x.take rd sp st r) := by
  simp [State.putGs, State.putG, State.putP, Engine.take]

theorem State.setEngine_engine_charged (s : State) (e : Nat) :
    (s.charged e).setEngine e { s.engine e with budget := (s.engine e).budget - 1 } = s.charged e := by
  rw [State.charged_setEngine]; rfl

/-- A result in a register and a predicate. -/
def Engine.withResult (x : Engine) (rd sp : Nat) (v : Word64) (b : Bool) : Engine := (x.setG rd v).setP sp b

theorem Engine.withResult_withBudget (x : Engine) (k rd sp : Nat) (v : Word64) (b : Bool) :
    Engine.withResult { x with budget := k } rd sp v b = { x.withResult rd sp v b with budget := k } := by
  simp only [Engine.withResult, Engine.setG_withBudget, Engine.setP_withBudget]

theorem State.putG_putP (s : State) (e rd sp : Nat) (v : Word64) (b : Bool) (x : Engine) :
    ((s.setEngine e x).putG e rd v).putP e sp b = s.setEngine e (x.withResult rd sp v b) := by
  simp [State.putG, State.putP, Engine.withResult]

/-! ## WAIT -/

section
variable {s : State} {e i : Nat} {w : Word64} (h : s.executes e .tenant w) (ho : wOp w = 0x31) (hi : i = (s.g e (wRa w)).toNat)
include h ho hi

theorem exec_wait_unknown (hg : (s.engine e).tags.get i = none) :
    exec (.wait e) s = .next (s.stepped e ((s.engine e).take (wRd w) (wSp w) 0xF4 0)) := by
  refine congrArg Host.Outcome.next (State.issue_setEngine h ho (by simp [Engine.take, h.running]) ?_)
  have hget : ((s.charged e).engine e).tags.get ((s.charged e).g e (wRa w)).toNat = none := by simpa [← hi] using hg
  dsimp only
  rw [hget, ← Engine.take_withBudget, ← State.putGs_putP, State.setEngine_engine_charged]

theorem exec_wait_ready {g : Tag} {st : Nat} {r : Word64} (hg : (s.engine e).tags.get i = some g) (hr : g.ready = some (st, r)) :
    exec (.wait e) s
      = .next (s.stepped e (({ s.engine e with tags := (s.engine e).tags.erase i } : Engine).take (wRd w) (wSp w) st r)) := by
  refine congrArg Host.Outcome.next (State.issue_setEngine h ho (by simp [Engine.take, h.running]) ?_)
  have hget : ((s.charged e).engine e).tags.get ((s.charged e).g e (wRa w)).toNat = some g := by simpa [← hi] using hg
  dsimp only
  rw [hget, ← Engine.take_withBudget, ← State.putGs_putP]
  simp [hr, ← hi]

theorem exec_wait_outstanding {g : Tag} (hg : (s.engine e).tags.get i = some g) (hr : g.ready = none) :
    exec (.wait e) s = .next ((s.charged e).setBlocked e (.wait i (wRd w) (wSp w))) := by
  have hget : ((s.charged e).engine e).tags.get ((s.charged e).g e (wRa w)).toNat = some g := by simpa [← hi] using hg
  refine congrArg Host.Outcome.next (State.issue_block h ho ?_)
  dsimp only
  rw [hget]
  simp [hr, ← hi]

end

/-! ## RECV -/

section
variable {s : State} {e : Nat} {w : Word64} {h : Handle} (hx : s.executes e .tenant w) (ho : wOp w = 0x32)
  (hh : (s.engine e).handle (wHd w) = some h) (hk : h.kind = 2) (hr : h.rights &&& 2 = 2)
include hx ho hh hk hr

theorem exec_recv_empty (hin : (s.engine e).inbox = []) :
    exec (.recv e) s = .next (s.stepped e ((s.engine e).withResult (wRd w) (wSp w) 0 false)) := by
  refine congrArg Host.Outcome.next (State.issue_setEngine hx ho (by simp [Engine.withResult, hx.running]) ?_)
  rw [State.withHandle_some (h := h) (need := rWrite) (by rw [State.handle_charged]; exact hh) (by simp [hk]) hr,
    ← Engine.withResult_withBudget, ← State.putG_putP, State.setEngine_engine_charged]
  simp [hin]

/-- The engine of a RECV that takes a message into the buffer of a handle. -/
def Engine.received (x : Engine) (buf : Nat) (m : List Byte) (rest : List (Nat × List Byte)) (rd sp : Nat) : Engine :=
  ({ x with inbox := rest, bufs := x.bufs.set buf ((x.bufs.getD buf []).writeBytes 0 m) } : Engine).withResult rd sp (BitVec.ofNat 64 m.length) true

theorem exec_recv_message {v : Nat} {m : List Byte} {rest : List (Nat × List Byte)} {x : Engine}
    (hin : (s.engine e).inbox = (v, m) :: rest)
    (hy : x = { (s.engine e).received h.obj (m.take 4128) rest (wRd w) (wSp w) with budget := (s.engine e).budget - 1}) :
    exec (.recv e) s = .next ((if e = 0 then ((s.charged e).setEngine e x).flushLre0 else (s.charged e).setEngine e x).setPc e
            ((s.engine e).pc + 1)) := by
  refine congrArg Host.Outcome.next (State.issue_setPc hx ho ?_)
  rw [State.withHandle_some (h := h) (need := rWrite) (by rw [State.handle_charged]; exact hh) (by simp [hk]) hr, hy, Engine.received,
    ← Engine.withResult_withBudget, ← State.putG_putP]
  simp [hin]
end

/-! ## The completion of a tag -/

theorem Engine.setP_eq_of_p {x y : Engine} (h : x.p = y.p) (i : Nat) (b : Bool) : (x.setP i b).p = (y.setP i b).p := by
  unfold Engine.setP
  split <;> simp [h]

/-- A completion that no WAIT is blocked on is kept with its tag. -/
theorem Engine.finishTag_kept {x : Engine} {tag st : Nat} {r : Word64} {g : Tag} (hg : x.tags.get tag = some g) (hb : x.blocked = .no) :
    x.finishTag tag st r = { x with tags := x.tags.set tag { g with ready := some (st, r) } } := by
  simp [Engine.finishTag, hg, hb]

/-- The WAIT that is blocked on the tag takes its completion and goes on. -/
theorem Engine.finishTag_taken {x : Engine} {tag st rd sp : Nat} {r : Word64} {g : Tag} (hg : x.tags.get tag = some g)
    (hb : x.blocked = .wait tag rd sp) :
    x.finishTag tag st r = { x.take rd sp st r with tags := x.tags.erase tag, blocked := .no, pc := x.pc + 1 } := by
  simp [Engine.finishTag, hg, hb, Engine.take]

/-- The message about a completion changes inbox and drops of an engine that waits for none. -/
theorem State.inboxPut_unblocked (s : State) (e v : Nat) (m : List Byte) (h : (s.engine e).blocked = .no) :
    ∃ l d, (s.inboxPut e v m).engine e = { s.engine e with inbox := l, drops := d } := by
  unfold State.inboxPut
  extract_lets x
  split
  · exact ⟨x.inbox ++ [(v, m)], x.drops, by simp [Engine.receive, h, x]⟩
  · exact ⟨x.inbox, x.drops + 1, by simp [x]⟩

/-- A tag that completes leaves its engine as the completion makes it, but for what the inbox takes. -/
theorem State.engine_completeTag {s : State} {e tag st : Nat} {r : Word64} {g : Tag} (hg : (s.engine e).tags.get tag = some g)
    (hb : ((s.engine e).finishTag tag st r).blocked = .no) :
    ∃ l d, (s.completeTag e tag st r).engine e = { (s.engine e).finishTag tag st r with inbox := l, drops := d } := by
  obtain ⟨l, d, h⟩ := (s.setEngine e ((s.engine e).finishTag tag st r)).inboxPut_unblocked e 0
    (Config.inboxMessage 1 tag st (r.setWidth 16)) (by simpa using hb)
  refine ⟨l, d, ?_⟩
  rw [State.completeTag, if_pos (by simp [hg]), h, State.engine_setEngine_self]

section
variable {s : State} {e tag status : Nat} {result : Word64} {g : Tag} (hff : e ≠ 0xFF) (hfe : e ≠ 0xFE)
  (hg : (s.engine e).tags.get tag = some g) (hr : g.ready = none)
include hff hfe hg hr

theorem exec_tagComplete_imgrun {i j a n : Nat} {h d : Handle} (hk : g.kind = .imgrun i j h a n d) :
    exec (.tagComplete e tag status result) s
      = .next (if s.runsNow e tag i = false then s else s.endRun e tag i j h a n d) := by
  simp [exec, execTagComplete, hff, hfe, hg, hr, hk, apply_ite Host.Outcome.next]

theorem exec_tagComplete_collective {i : Nat} {op : BitVec 32} (hk : g.kind = .collective i op) :
    exec (.tagComplete e tag status result) s = .next (match s.launchResult i op with
      | some r => (s.dropLaunchCopies i op).completeTag e tag r.1 r.2
      | none => s) := by
  simp only [exec, execTagComplete, hff, hfe, hg, hr, hk]
  cases s.launchResult i op <;> rfl

theorem exec_tagComplete_other (hmove : ∀ i, g.kind ≠ .kvmove i) (hrun : ∀ i j h a n d, g.kind ≠ .imgrun i j h a n d)
    (hcoll : ∀ i op, g.kind ≠ .collective i op) :
    exec (.tagComplete e tag status result) s = .next (s.completeTag e tag status result) := by
  simp only [exec, execTagComplete, hff, hfe, hg, hr]
  cases hk : g.kind <;> simp_all

end

/-- Settles O11: WAIT and RECV by their branches, a completion by the kind of its tag and by what its engine is blocked on. -/
theorem tagResults : Obligations.TagResults := by
  constructor
  · intro s e w h
    refine ⟨fun ho i hi => ⟨?_, ?_, ?_⟩, fun ho hd hh hk hr => ⟨?_, ?_⟩⟩
    · exact exec_wait_unknown h ho hi
    · exact fun g st r hg hr => exec_wait_ready h ho hi hg hr
    · exact fun g hg hr => exec_wait_outstanding h ho hi hg hr
    · exact exec_recv_empty h ho hh hk hr
    · rintro v m rest x hin rfl
      have hexec := exec_recv_message h ho hh hk hr hin rfl
      refine ⟨fun he => ?_, fun he => ?_⟩
      · rw [hexec, if_neg he, State.setPc_running _ _ ?_, State.engine_setEngine_self, State.setEngine_setEngine, State.charged_setEngine]
        · rfl
        · simp [Engine.received, Engine.withResult, h.running]
      · subst he
        rw [hexec, if_pos rfl]
        rfl
  · intro s e tag status result g hff hfe hg hr
    refine ⟨fun i j hd a n d hk => ?_, fun i op hk => ?_, fun hmove hrun hcoll => ?_⟩
    · rw [exec_tagComplete_imgrun hff hfe hg hr hk]
      exact ⟨fun h => by rw [if_pos h], fun h => by rw [if_neg (by simp [h])]⟩
    · rw [exec_tagComplete_collective hff hfe hg hr hk]
      exact ⟨fun h => by rw [h], fun st r h => by rw [h]⟩
    · rw [exec_tagComplete_other hff hfe hg hr hmove hrun hcoll]
      refine ⟨fun hb => ⟨_, rfl, ?_⟩, fun rd sp hb _ => ⟨_, rfl, ?_⟩⟩
      · have hfin := Engine.finishTag_kept (st := status) (r := result) hg hb
        obtain ⟨l, d, h⟩ := State.engine_completeTag hg (by rw [hfin]; exact hb)
        rw [h, hfin]
        simp
      · have hfin := Engine.finishTag_taken (st := status) (r := result) hg hb
        obtain ⟨l, d, h⟩ := State.engine_completeTag hg (by rw [hfin])
        rw [h, hfin]
        simp [Engine.take, Engine.setP_eq_of_p (y := s.engine e)]

end Sys2Proof.Machine
end

section
/-! LCADV on an engine whose list of predicate registers is empty (R192, R349): nothing holds its status predicate. -/

namespace Sys2Proof.Machine

/-- LCADV g1 with status predicate p1. -/
def lcadvWord : Word64 := 0x7A00010000010000

/-- A vendor program about to take the life cycle to the state in g1; the engine lists none of p1 to p7. -/
def engineWithoutPredicates : Engine := { running := true, level := .vendor, g := [(1, 2)], p := [], budget := 1, code := [lcadvWord] }

/-- The state after reset with power good and that program on LRE0. -/
def stateWithoutPredicates : State :=
  { State.reset with engines := [(0, engineWithoutPredicates)], pwr := { State.reset.pwr with pwrgd := true } }

theorem stateWithoutPredicates_executes : stateWithoutPredicates.executes 0 .vendor lcadvWord := by
  unfold State.executes
  decide +kernel

/-- Refutes O15: LCADV succeeds, but the engine has no p1 that could show it. -/
theorem not_keyAndVendorResults : ¬ Obligations.KeyAndVendorResults := by
  rintro ⟨-, h⟩
  obtain ⟨-, -, hlcadv⟩ := h stateWithoutPredicates 0 1 lcadvWord ⟨0, 0, 0, .tenant, 0, 0⟩ stateWithoutPredicates_executes rfl
  obtain ⟨-, hadvances⟩ := hlcadv (by decide) 2 (by decide +kernel)
  obtain ⟨t, hexec, -, hok⟩ := hadvances (.inl (by decide +kernel))
  obtain ⟨-, hpred, -⟩ := hok true (by decide +kernel)
  have ht : t = _ := (Host.Outcome.next.inj hexec).symm
  have hfalse : (t.engine 0).pred (wSp lcadvWord) = false := by
    rw [ht]
    decide +kernel
  rw [hpred (by decide)] at hfalse
  cases hfalse

end Sys2Proof.Machine
end

section
/-! The in-package network, supplies, sensors and quarters (R15, R21, R31, R35, R429, R448, R460). -/

namespace Sys2Proof.Machine

/-! ## Pairs of dies (R15) -/

/-- A pair that is replaced is found as it was put. -/
theorem State.nocPair_setNocPair (s : State) {src dst : Nat} {p : NocPair} (hsrc : p.src = src) (hdst : p.dst = dst) :
    (s.setNocPair p).nocPair src dst = p := by
  subst hsrc hdst
  have hnone : (s.noc.pairs.filter fun q => !(q.src == p.src && q.dst == p.dst)).find? (fun q => q.src == p.src && q.dst == p.dst)
      = none := by
    rw [List.find?_eq_none]
    intro q hq hpair
    have hother := (List.mem_filter.mp hq).2
    simp [hpair] at hother
  unfold State.nocPair State.setNocPair
  rw [List.find?_append, hnone]
  simp

theorem State.setNocPair_noc (s : State) (p : NocPair) : s.setNocPair p = { s with noc := (s.setNocPair p).noc } := rfl

theorem NocPair.drain_keeps_source (n : Nat) (p : NocPair) :
    ∃ l d, p.drain n = { p with held := l, delivered := d } := by
  induction n generalizing p with
  | zero => exact ⟨_, _, rfl⟩
  | succ n ih =>
    unfold NocPair.drain
    split
    · obtain ⟨l, d, h⟩ := ih { p with held := _, delivered := _ }
      exact ⟨l, d, h⟩
    · exact ⟨_, _, rfl⟩

/-- An arrival leaves the ends of its pair. -/
theorem NocPair.arrive_ends (p : NocPair) (seq : Nat) (data : Word64) :
    (p.arrive seq data).src = p.src ∧ (p.arrive seq data).dst = p.dst := by
  unfold NocPair.arrive
  extract_lets q
  split
  · exact ⟨rfl, rfl⟩
  · split
    · exact ⟨rfl, rfl⟩
    · obtain ⟨l, d, h⟩ := NocPair.drain_keeps_source (q.held.length + 1) { q with held := q.held ++ [(seq, data)] }
      rw [h]
      exact ⟨rfl, rfl⟩

/-- The item in sequence, with nothing held: it and those before it that are on their way are kept. -/
theorem NocPair.arrive_next {p : NocPair} {seq : Nat} (data : Word64) (hheld : p.held = []) (hseq : seq = p.delivered.length)
    (hnext : p.nextSeq ≤ seq) (hkept : ∀ x ∈ p.kept, x.1 < p.nextSeq) :
    p.arrive seq data = { p with
      nextSeq := seq + 1, delivered := p.delivered ++ [data]
      kept := p.kept ++ (List.range (seq + 1 - p.nextSeq)).map fun i => (p.nextSeq + i, if p.nextSeq + i = seq then some data else none) } := by
  have hmax : max p.nextSeq (seq + 1) = seq + 1 := by omega
  have hold : p.kept.map (fun x => if x.1 = seq then (seq, some data) else x) = p.kept := by
    rw [List.map_congr_left (g := id), List.map_id]
    intro x hx
    rw [if_neg (by have := hkept x hx; omega)]
    rfl
  have hsent : ∀ i, (if p.nextSeq + i = seq then (seq, some data) else (p.nextSeq + i, none))
      = (p.nextSeq + i, if p.nextSeq + i = seq then some data else none) := by
    intro i
    split
    · rename_i h
      rw [h]
    · rfl
  subst hseq
  simp [NocPair.arrive, NocPair.keep, hheld, NocPair.drain, hmax, hold, hsent, Function.comp_def]

/-- A copy of a delivered item changes only what the source keeps. -/
theorem NocPair.arrive_copy {p : NocPair} {seq : Nat} (data : Word64) (hseq : seq < p.delivered.length) (hnext : seq < p.nextSeq) :
    (p.arrive seq data).delivered = p.delivered ∧ (p.arrive seq data).held = p.held ∧ (p.arrive seq data).nextSeq = p.nextSeq := by
  have hmax : max p.nextSeq (seq + 1) = p.nextSeq := by omega
  simp [NocPair.arrive, NocPair.keep, hseq, hmax]

/-- An item ahead of its turn is held. -/
theorem NocPair.arrive_ahead {p : NocPair} {seq : Nat} (data : Word64) (hseq : p.delivered.length < seq) (hnext : p.nextSeq ≤ seq)
    (hheld : p.held = []) :
    (p.arrive seq data).delivered = p.delivered ∧ (p.arrive seq data).held = [(seq, data)]
      ∧ (seq, some data) ∈ (p.arrive seq data).kept ∧ ∀ i, p.nextSeq ≤ i → i < seq → (i, none) ∈ (p.arrive seq data).kept := by
  have hp : p.arrive seq data = { p.keep seq data with held := [(seq, data)] } := by
    have hlate : ¬ seq < p.delivered.length := by omega
    have hwait : ¬ seq = p.delivered.length := by omega
    simp [NocPair.arrive, NocPair.keep, hheld, NocPair.drain, hlate, hwait]
  have hmem : ∀ i, p.nextSeq ≤ i → i ≤ seq → (if i = seq then (seq, some data) else (i, none)) ∈ (p.keep seq data).kept := by
    intro i h1 h2
    refine List.mem_map.mpr ⟨(i, none), List.mem_append_right _ (List.mem_map.mpr ⟨i - p.nextSeq, ?_, ?_⟩), rfl⟩
    · rw [List.mem_range]
      omega
    · rw [Nat.add_sub_cancel' h1]
  rw [hp]
  refine ⟨rfl, rfl, ?_, fun i h1 h2 => ?_⟩
  · simpa using hmem seq hnext (Nat.le_refl _)
  · simpa [Nat.ne_of_lt h2] using hmem i h1 (Nat.le_of_lt h2)

theorem NocPair.reroute_eq (p : NocPair) (cf : Nat) :
    p.reroute cf = if cf ∈ diePath p.src p.dst p.second then { p with second := true, reissued := p.reissued ++ p.kept } else p := by
  simp [NocPair.reroute]

theorem exec_nocRouterFail (cf : Nat) (s : State) : ∃ t, exec (.nocRouterFail cf) s = .next t ∧ cf ∈ t.noc.routersDown
    ∧ t = { s with noc := t.noc } ∧ t.noc.pairs = s.noc.pairs.map fun q => q.reroute cf := by
  refine ⟨_, rfl, ?_, rfl, rfl⟩
  dsimp only
  split
  · simp_all
  · simp

/-- A pair that is used for the first time starts on the second attachment where a router of its first path has failed. -/
theorem State.nocPair_new {s : State} {src dst : Nat} (h : ∀ q ∈ s.noc.pairs, q.src ≠ src ∨ q.dst ≠ dst) :
    (s.nocPair src dst).second = true ↔ ∃ cf ∈ diePath src dst false, cf ∈ s.noc.routersDown := by
  have hnone : s.noc.pairs.find? (fun q => q.src == src && q.dst == dst) = none := by
    rw [List.find?_eq_none]
    intro q hq
    have := h q hq
    simp only [Bool.and_eq_true, beq_iff_eq]
    tauto
  simp [State.nocPair, hnone, newPair]

/-! ## Supplies and sensors (R31, R448, R460) -/

theorem State.mem_lapses_lapse (s : State) (c x : Nat) : (c, x) ∈ (s.lapse c x).lapses := by
  unfold State.lapse
  split
  · simp_all
  · simp

@[simp] theorem State.showRails_pwr (s : State) : s.showRails.pwr = s.pwr := rfl
@[simp] theorem State.showRails_out (s : State) : s.showRails.out = s.out := rfl

theorem exec_supplyOutOfRange (s : State) (source : Nat) :
    ∃ t, exec (.supplyOutOfRange source) s = .next t ∧ source ∈ t.pwr.railsOut ∧ (0x0009, source) ∈ t.lapses
      ∧ t.pwr.held = s.pwr.held ∧ t.pwr.pwrgd = s.pwr.pwrgd ∧ t.out = s.out := by
  refine ⟨_, rfl, ?_, State.mem_lapses_lapse _ _ _, by simp, by simp, by simp⟩
  simp only [State.lapse_pwr, State.raise_pwr, State.showRails_pwr]
  split
  · simp_all
  · simp

theorem exec_supplyBackInRange (s : State) (source : Nat) :
    ∃ t, exec (.supplyBackInRange source) s = .next t ∧ source ∉ t.pwr.railsOut ∧ source ∉ t.pwr.sensorsOut ∧ t.out = s.out
      ∧ (s.pwr.held = true → (∀ r ∈ s.pwr.brownRails, r + 0x1A40 = source) → t.pwr.brownBackNs = some s.now ∧ t.pwr.brownRails = []) := by
  refine ⟨_, rfl, by simp, by simp, by simp, fun hheld hall => ?_⟩
  have hnone : s.pwr.brownRails.filter (fun r => r + 0x1A40 != source) = [] := by
    rw [List.filter_eq_nil_iff]
    intro r hr
    simp [hall r hr]
  simp [hheld, hnone]

@[simp] theorem State.raise_takeoverReq (s : State) (n v : Nat) (d : BitVec 16) (p : Nat) (c : Option Capture) :
    (s.raise n v d p c).col.takeoverReq = s.col.takeoverReq := by
  obtain ⟨x, y, h⟩ := s.raise_col n v d p c
  rw [h]

theorem exec_brownOut (s : State) (rail : Nat) :
    ∃ t, exec (.brownOut rail) s = .next t ∧ t.pwr.held = true ∧ t.pwr.faultN = false ∧ rail ∈ t.pwr.brownRails
      ∧ t.gatesOpen = false ∧ t.fld FLT_STATUS_FAULTN = 1 ∧ t.col.takeoverReq = (s.col.takeoverReq || s.tri.paired) ∧ t.out = s.out := by
  refine ⟨_, rfl, rfl, rfl, ?_, ?_, ?_, ?_, by simp⟩
  · simp only [State.setFld_pwr, State.raise_pwr]
    split
    · simp_all
    · simp
  · simp [State.gatesOpen]
  · exact State.fld_setFld_self _ (by unfold Field.fits; decide) 1
  · simp [State.hasStandby]

theorem exec_tempHigh_above (s : State) {source celsius : Nat} (h : 105 < celsius) :
    ∃ t, exec (.tempHigh source celsius) s = .next t ∧ t.pwr.temps.get source = some celsius
      ∧ source ∈ t.pwr.sensorsOut ∧ (0x0009, source) ∈ t.lapses ∧ t.pwr.tripped = s.pwr.tripped := by
  refine ⟨_, if_neg (Nat.not_le.mpr h), ?_, ?_, State.mem_lapses_lapse _ _ _, ?_⟩
  · simp [State.setTemp]
  · simp only [State.lapse_pwr, State.raise_pwr]
    split
    · simp_all
    · simp
  · simp [State.setTemp]

theorem exec_thermalTrip (s : State) {source celsius : Nat} (h : 115 ≤ celsius) :
    ∃ t, exec (.thermalTrip source celsius) s = .next t ∧ t.pwr.tripped = true ∧ t.pwr.thermtripN = false
      ∧ t.gatesOpen = false ∧ t.out = s.out := by
  refine ⟨_, if_neg (Nat.not_lt.mpr h), rfl, rfl, ?_, ?_⟩
  · simp [State.gatesOpen]
  · simp [State.setTemp]

/-! ## Quarters (R21, R35, R429) -/

@[simp] theorem State.quarter_setQuarter_self (s : State) (q : Nat) (x : QuarterState) : (s.setQuarter q x).quarter q = x := by
  simp [State.quarter, State.setQuarter, State.showGated]

theorem State.quarter_setQuarter_ne (s : State) {q i : Nat} (x : QuarterState) (h : i ≠ q) :
    (s.setQuarter q x).quarter i = s.quarter i := by
  simp [State.quarter, State.setQuarter, State.showGated, NMap.getD_set_ne _ _ _ h]

/-- No quarter waits for its ramp: none starts. -/
theorem State.startRamp_none {s : State} (h : s.sq.ungate = []) : s.startRamp = s := by
  simp [State.startRamp, h, nextUngate]

theorem State.serveReloads_none {s : State} (h : s.sq.reloads = []) : s.serveReloads = s := by
  rw [State.serveReloads, h]
  rfl

@[simp] theorem State.showCfb_sq (s : State) : s.showCfb.sq = s.sq := rfl

theorem State.quarter_of_sq {s t : State} (h : t.sq = s.sq) (q : Nat) : t.quarter q = s.quarter q := by rw [State.quarter, h, State.quarter]

theorem exec_quarterRampDone {s : State} {q : Nat} (hq : (List.range 48).find? (fun i => s.quarter i == .ramping) = some q)
    (hungate : s.sq.ungate = []) (hreloads : s.sq.reloads = []) :
    ∃ t, exec .quarterRampDone s = .next t ∧ t.quarter q = (if s.fld PWR_STATUS_PHASE = 5 then .gated else .on)
        ∧ (s.fld PWR_STATUS_PHASE ≠ 5 → q ∈ t.sq.tested) ∧ (∀ b ∈ s.sq.failing, b < 576 → q * 576 + b ∈ t.sq.excluded)
        ∧ t.sq.lastUse.get q = some s.now ∧ ∀ i, i ≠ q → t.quarter i = s.quarter i := by
  let bringup := s.fld PWR_STATUS_PHASE == 5
  let bad := (s.sq.failing.filter (· < 576)).map (q * 576 + ·)
  let u : State := { s with sq := { s.sq with tested := if s.sq.tested.contains q || bringup then s.sq.tested else s.sq.tested ++ [q]
                                              excluded := (s.sq.excluded ++ bad).dedup
                                              suspect := s.sq.suspect.filter fun x => x / 576 != q
                                              failing := Config.failingSquares s.fresh
                                              lastUse := s.sq.lastUse.set q s.now } }
  let v := u.useFree.setQuarter q (if bringup then .gated else .on)
  have hexec : exec .quarterRampDone s = .next (v.startRamp.showCfb.serveReloads) := by
    change execQuarterRampDone s = _
    rw [execQuarterRampDone, hq]
  have hv : v.startRamp.showCfb.serveReloads = v.showCfb := by
    rw [State.startRamp_none (show v.sq.ungate = [] from hungate), State.serveReloads_none (show v.showCfb.sq.reloads = [] from hreloads)]
  have hsq : v.showCfb.sq = { u.sq with quarters := v.sq.quarters } := rfl
  refine ⟨_, hexec, ?_, ?_, ?_, ?_, ?_⟩
  · rw [hv, State.quarter_of_sq (State.showCfb_sq v), State.quarter_setQuarter_self]
    simp [bringup]
  · intro hphase
    rw [hv, hsq]
    simp only [u, bringup, beq_eq_false_iff_ne.mpr hphase, Bool.or_false]
    split
    · simp_all
    · simp
  · intro b hb hlt
    rw [hv, hsq]
    simp only [u, bad, List.mem_dedup, List.mem_append, List.mem_map, List.mem_filter]
    exact .inr ⟨b, ⟨hb, by simpa using hlt⟩, rfl⟩
  · rw [hv, hsq]
    simp [u]
  · intro i hi
    rw [hv, State.quarter_of_sq (State.showCfb_sq v), State.quarter_setQuarter_ne _ _ hi]
    rfl

theorem exec_quarterIdleTimeout_early {s : State} {q : Nat} (h : s.now < s.sq.lastUse.getD q 0 + s.fld PWR_WAKE_CFG_GATE_MS * 1000000) :
    exec (.quarterIdleTimeout q) s = .next s := if_neg fun hc => Nat.not_lt.mpr hc.2.2 h

theorem exec_quarterIdleTimeout_due {s : State} {q : Nat} (hon : s.quarter q = .on) (htiles : ∀ x ∈ s.sq.tiles, x.quarter ≠ q)
    (hdue : s.sq.lastUse.getD q 0 + s.fld PWR_WAKE_CFG_GATE_MS * 1000000 ≤ s.now) :
    ∃ t, exec (.quarterIdleTimeout q) s = .next t ∧ t.quarter q = .gated ∧ q ∉ t.sq.tested ∧ t.sq.images = s.sq.images
      ∧ ∀ i, i ≠ q → t.quarter i = s.quarter i := by
  refine ⟨_, if_pos ⟨hon, by simpa using htiles, hdue⟩, State.quarter_setQuarter_self _ _ _, ?_, rfl, fun i hi => ?_⟩
  · change q ∉ s.sq.tested.filter (· != q)
    simp
  · rw [State.quarter_setQuarter_ne _ _ hi]
    rfl

/-- Settles O16: an arrival by whether its item is next, a copy or ahead; the rest by what each command records. -/
theorem packageResults : Obligations.PackageResults := by
  refine ⟨?_, ?_, ?_⟩
  · rintro s src dst seq data p rfl hsrc hdst
    obtain ⟨hasrc, hadst⟩ := (s.nocPair src dst).arrive_ends seq data
    have harrive := s.nocPair_setNocPair (hasrc.trans hsrc) (hadst.trans hdst)
    refine ⟨?_, ?_, ?_, ⟨_, rfl, s.nocPair_setNocPair hsrc hdst, rfl⟩, ?_, State.nocPair_new⟩
    · intro hheld hseq hnext hkept
      exact ⟨_, rfl, harrive.trans (NocPair.arrive_next data hheld hseq hnext hkept), rfl, rfl⟩
    · intro hseq hnext
      obtain ⟨h1, h2, h3⟩ := NocPair.arrive_copy data hseq hnext
      exact ⟨_, rfl, by rw [harrive, h1], by rw [harrive, h2], by rw [harrive, h3], rfl⟩
    · intro hseq hnext hheld
      obtain ⟨h1, h2, h3, h4⟩ := NocPair.arrive_ahead data hseq hnext hheld
      exact ⟨_, rfl, by rw [harrive, h1], by rw [harrive, h2], by rwa [harrive], by rwa [harrive], rfl⟩
    · intro cf
      obtain ⟨t, hexec, hdown, hframe, hpairs⟩ := exec_nocRouterFail cf s
      exact ⟨t, hexec, hdown, hframe, by simpa only [NocPair.reroute_eq] using hpairs⟩
  · intro s source rail celsius
    exact ⟨exec_supplyOutOfRange s source, exec_supplyBackInRange s source, exec_brownOut s rail, exec_tempHigh_above s,
      fun h => ⟨_, if_pos h, rfl, rfl, rfl⟩, exec_thermalTrip s⟩
  · exact fun s q => ⟨exec_quarterRampDone, exec_quarterIdleTimeout_early, exec_quarterIdleTimeout_due⟩

end Sys2Proof.Machine
end

section
/-! Compute and link-domain resets of an agent (R39, R40, R42, R43). -/

namespace Sys2Proof.Machine

/-! ## Registers of an agent and its other parts -/

/-- A change of an agent that keeps its registers keeps what they read. -/
theorem State.jx_updAgent {s : State} {a : AgentRef} {f : Agent → Agent} (h : (f (s.agent a)).jx = (s.agent a).jx) (off : Nat) :
    (s.updAgent a f).jx a off = s.jx a off := by
  rw [State.jx, State.agent_updAgent_self, h, State.jx]

theorem State.jfld_updAgent {s : State} {a : AgentRef} {f : Agent → Agent} (h : (f (s.agent a)).jx = (s.agent a).jx) (g : Field) :
    (s.updAgent a f).jfld a g = s.jfld a g := by
  rw [State.jfld, State.jx_updAgent h, State.jfld]

/-- Reading a register depends on the registers and on the held events alone. -/
theorem State.jxRead_congr {s t : State} {a : AgentRef} (hjx : ∀ off, t.jx a off = s.jx a off)
    (hheld : (t.agent a).held = (s.agent a).held) (off : Nat) : t.jxRead a off = s.jxRead a off := by
  have horphan : t.orphan a = s.orphan a := by rw [State.orphan, State.jfld, hjx, State.orphan, State.jfld]
  rw [State.jxRead, hjx, horphan, hheld, State.jxRead]

/-- What a node records of a stream it receives leaves an agent's registers and held events. -/
theorem State.jxRead_setRx (s : State) (a : AgentRef) (d : Fid) (i : BitVec 16) (x : StreamRx) (off : Nat) :
    (s.setRx (.agent a) d i x).jxRead a off = s.jxRead a off := by
  have hset : s.setRx (.agent a) d i x = s.updAgent a fun g => { g with streams := { s.nodeStreams (.agent a) with
    rx := (s.nodeStreams (.agent a)).rx.set (streamKey d i) x } } := rfl
  rw [hset]
  exact State.jxRead_congr (State.jx_updAgent rfl) (by rw [State.agent_updAgent_self]; rfl) off

theorem State.jxRead_recordSeq (s : State) (a : AgentRef) (h : Header) (off : Nat) :
    (s.recordSeq (.agent a) h).jxRead a off = s.jxRead a off := State.jxRead_setRx _ _ _ _ _ _

theorem State.jxRead_noteRefused (s : State) (a : AgentRef) (h : Header) (b : Bool) (off : Nat) :
    (s.noteRefused a h b).jxRead a off = s.jxRead a off := by
  cases b
  · rfl
  · exact State.jxRead_setRx _ _ _ _ _ _

/-- A register write of the owner that arrives whole and for the first time has its effect and is answered (R58, R99). -/
theorem State.regWriteReq_owner {s : State} {a : AgentRef} {p : Packet} (h : s.ownerPacket a p) (write : State → State × Bool) :
    s.regWriteReq a p write = (((write s).1.recordSeq (.agent a) p.hdr).noteRefused a p.hdr (write s).2).regRespond a p.hdr
      ((write s).1.jxRead a (regOffset p.hdr)) (if (write s).2 then 0xF2 else 0) := by
  obtain ⟨horphan, hsrc, howner, hcrc, hdup, -⟩ := h
  have hsent : s.ownerSent a p.hdr = true := by simp [State.ownerSent, hsrc, howner]
  unfold State.regWriteReq
  simp only [hcrc, hsent, horphan, hdup, Bool.true_eq_false, Bool.false_eq_true, if_false]
  rw [State.jxRead_noteRefused, State.jxRead_recordSeq]

/-- A write that is not refused. -/
theorem State.regWriteReq_done {s : State} {a : AgentRef} {p : Packet} (h : s.ownerPacket a p) {write : State → State × Bool} {u : State}
    (hw : write s = (u, false)) :
    s.regWriteReq a p write = (u.recordSeq (.agent a) p.hdr).regRespond a p.hdr (u.jxRead a (regOffset p.hdr)) 0 := by
  rw [State.regWriteReq_owner h, hw]
  rfl

/-- A write that is refused. -/
theorem State.regWriteReq_refused {s : State} {a : AgentRef} {p : Packet} (h : s.ownerPacket a p) {write : State → State × Bool} {u : State}
    (hw : write s = (u, true)) :
    s.regWriteReq a p write = ((u.recordSeq (.agent a) p.hdr).noteRefused a p.hdr true).regRespond a p.hdr
      (u.jxRead a (regOffset p.hdr)) 0xF2 := by
  rw [State.regWriteReq_owner h, hw]
  rfl

/-! ## Compute resets (R40, R42) -/

theorem computeInReset_fits : JX_STATUS_COMPUTE_IN_RESET.fits := by unfold Field.fits; decide

theorem rejoined_fits : JX_STATUS_REJOINED.fits := by unfold Field.fits; decide

/-- What a compute reset takes from an agent (R40). -/
def Agent.computeReset (g : Agent) : Agent :=
  { g with ops := [], gqs := [], keySlots := [], rxRing := none, windows := [], lowPower := 0, deepDeferred := false
           chunkSuspended := false, streams := g.streams.computeReset }

/-- A compute reset ends with the agent cleared and its status set. -/
theorem State.beginComputeReset_eq {s : State} {a : AgentRef} (h : s.jfld a JX_STATUS_COMPUTE_IN_RESET = 0) :
    ∃ u, s.beginComputeReset a
      = ((State.updAgent u a Agent.computeReset).setJfld a JX_STATUS_COMPUTE_IN_RESET 1).setJfld a JX_STATUS_REJOINED 0 :=
  ⟨_, if_neg (by omega)⟩

/-- The beginning of a compute reset leaves no operation, group queue and key slot, and an agent that is not rejoined. -/
theorem State.beginComputeReset_clears {s : State} {a : AgentRef} (h : s.jfld a JX_STATUS_COMPUTE_IN_RESET = 0) :
    (s.beginComputeReset a).jfld a JX_STATUS_COMPUTE_IN_RESET = 1 ∧ (s.beginComputeReset a).jfld a JX_STATUS_REJOINED = 0
      ∧ ((s.beginComputeReset a).agent a).ops = [] ∧ ((s.beginComputeReset a).agent a).gqs = []
      ∧ ((s.beginComputeReset a).agent a).keySlots = [] := by
  obtain ⟨u, hu⟩ := State.beginComputeReset_eq h
  obtain ⟨j, hj⟩ := State.agent_setJfld (u.updAgent a Agent.computeReset) a JX_STATUS_COMPUTE_IN_RESET 1
  obtain ⟨k, hk⟩ := State.agent_setJfld ((u.updAgent a Agent.computeReset).setJfld a JX_STATUS_COMPUTE_IN_RESET 1) a JX_STATUS_REJOINED 0
  rw [hj, State.agent_updAgent_self] at hk
  rw [hu]
  refine ⟨?_, State.jfld_setJfld_self _ a rejoined_fits 0, by rw [hk]; rfl, by rw [hk]; rfl, by rw [hk]; rfl⟩
  rw [State.jfld_setJfld_apart _ a rejoined_fits computeInReset_fits (.inr (by decide)), State.jfld_setJfld_self _ a computeInReset_fits]
  rfl

theorem State.endComputeReset_idle {s : State} {a : AgentRef} (h : s.jfld a JX_STATUS_COMPUTE_IN_RESET = 0) :
    s.endComputeReset a = s := if_pos h

theorem State.takeRejoinDone_up {s : State} {n : Nat} (h : s.jfld ⟨.e, n⟩ JX_STATUS_COMPUTE_IN_RESET = 0) :
    s.takeRejoinDone ⟨.e, n⟩ = s.setJfld ⟨.e, n⟩ JX_STATUS_REJOINED 1 := if_pos ⟨rfl, h⟩

/-! ## Link-domain resets (R39, R43) -/

/-- An agent but for its registers, its ports and its shadow. -/
def Agent.beyondLinks (g : Agent) : Agent := { g with jx := [], ports := [], ownShadow := none }

/-- A link-domain reset sets parts of its agent and opens a shadow at the collector. -/
theorem State.linkDomainReset_eq (s : State) (a : AgentRef) :
    ∃ u c, s.linkDomainReset a = { (State.setJfld u a JX_STATUS_COMPUTE_IN_RESET (s.jfld a JX_STATUS_COMPUTE_IN_RESET)) with col := c }
      ∧ (u.agent a).beyondLinks = (s.agent a).linkReset.beyondLinks ∧ (∀ b, b ≠ a → u.agent b = s.agent b) ∧ u.out = s.out := by
  refine ⟨_, _, rfl, ?_, fun b hb => ?_, rfl⟩
  · rw [State.agent_updAgent_self, State.agent_updAgent_self]
    rfl
  · rw [State.agent_updAgent_ne _ _ hb, State.agent_updAgent_ne _ _ hb]

/-- A link-domain reset starts the agent's links and tables again and keeps its memory, partition and compute domain. -/
theorem State.linkDomainReset_agent (s : State) (a : AgentRef) :
    ((s.linkDomainReset a).agent a).beyondLinks = (s.agent a).linkReset.beyondLinks := by
  obtain ⟨u, c, hs, hu, -⟩ := s.linkDomainReset_eq a
  obtain ⟨j, hj⟩ := State.agent_setJfld u a JX_STATUS_COMPUTE_IN_RESET (s.jfld a JX_STATUS_COMPUTE_IN_RESET)
  have hagent : (s.linkDomainReset a).agent a = { u.agent a with jx := j } := by
    rw [hs]
    exact hj
  rw [hagent, ← hu]
  rfl

theorem State.linkDomainReset_out (s : State) (a : AgentRef) : (s.linkDomainReset a).out = s.out := by
  obtain ⟨u, c, hs, -, -, hu⟩ := s.linkDomainReset_eq a
  rw [hs, ← hu]
  rfl

theorem State.linkDomainReset_inReset (s : State) (a : AgentRef) :
    (s.linkDomainReset a).jfld a JX_STATUS_COMPUTE_IN_RESET = s.jfld a JX_STATUS_COMPUTE_IN_RESET := by
  obtain ⟨u, c, hs, -⟩ := s.linkDomainReset_eq a
  rw [hs]
  exact (State.jfld_setJfld_self u a computeInReset_fits _).trans (Nat.mod_eq_of_lt (Nat.mod_lt _ (by decide)))

theorem State.linkDomainReset_others (s : State) {a b : AgentRef} (h : b ≠ a) : (s.linkDomainReset a).agent b = s.agent b := by
  obtain ⟨u, c, hs, -, hu, -⟩ := s.linkDomainReset_eq a
  rw [hs]
  exact (State.agent_setAgent_ne u _ h).trans (hu b h)

/-- The completion of a link-domain reset closes the agent's shadow. -/
theorem State.linkResetDone_agent (s : State) (a : AgentRef) (origin : Fid) :
    ∃ x, (s.linkResetDone a origin).agent a = { s.agent a with ownShadow := x } := 
  ⟨_, State.agent_updAgent_self s a fun g => { g with ownShadow := g.ownShadow.map fun x => (x.1, s.agentNow a + 20000) }⟩

/-- Settles O17: the agent's registers and parts after each reset, and the owner's orders as answered register writes. -/
theorem agentResetResults : Obligations.AgentResetResults := by
  constructor
  · rintro s n a p rfl
    refine ⟨?_, fun h => ?_, fun h => ⟨_, rfl, if_pos ((State.jfld_updAgent rfl _).trans h)⟩, ⟨_, rfl, rfl⟩, fun h => if_pos h, fun h => if_neg (by simp [h]),
      State.endComputeReset_idle, ?_, ?_⟩
    · intro c hc
      simp only [List.mem_cons, List.not_mem_nil, or_false] at hc
      rcases hc with rfl | rfl
      · rfl
      · rfl
    · exact ⟨_, rfl, State.beginComputeReset_clears (by rw [State.jfld_updAgent rfl, h])⟩
    · rintro hown v u rfl rfl
      exact congrArg Host.Outcome.next (State.regWriteReq_done hown rfl)
    · rintro hown v u hup rfl rfl
      refine ⟨congrArg Host.Outcome.next (State.regWriteReq_done hown ?_), State.jfld_setJfld_self _ _ rejoined_fits 1⟩
      rw [State.takeRejoinDone_up hup]
  · intro s a p
    refine ⟨?_, ?_, ?_, ?_⟩
    · have hg := State.linkDomainReset_agent (s.updAgent a fun g => { g with lrstN := false }) a
      rw [State.agent_updAgent_self] at hg
      refine ⟨_, _, rfl, rfl, congrArg Agent.active hg, congrArg Agent.shadow hg, congrArg Agent.staged hg, congrArg Agent.ctxs hg,
        congrArg Agent.streams hg, congrArg Agent.buffer hg, (congrArg Agent.mem hg :), congrArg Agent.lrstN hg,
        (congrArg Agent.partition hg :), ?_, fun b hb => ?_, State.linkDomainReset_out _ a⟩
      · rw [State.linkDomainReset_inReset, State.jfld_updAgent rfl]
      · rw [State.linkDomainReset_others _ hb, State.agent_updAgent_ne _ _ hb]
    · obtain ⟨x, hx⟩ := State.linkResetDone_agent (s.updAgent a fun g => { g with lrstN := true }) a
        (((s.dom.known.find? fun k => k.ref == a).map (·.fid)).getD noFid)
      rw [State.agent_updAgent_self] at hx
      exact ⟨_, rfl, (congrArg Agent.lrstN hx :), (congrArg Agent.active hx :), rfl⟩
    · rintro hown u hdrained rfl
      refine congrArg Host.Outcome.next (State.regWriteReq_done hown ?_)
      rw [State.askLinkReset, if_pos hdrained]
    · rintro hown u hdrained rfl
      refine congrArg Host.Outcome.next (State.regWriteReq_refused hown ?_)
      rw [State.askLinkReset, if_neg hdrained]

end Sys2Proof.Machine
end

section
/-! Claims, orders of the owner, beacons and orphans (R59 to R61, R84, R100, R101, R118, R338, R471). -/

namespace Sys2Proof.Machine

variable {s : State} {a : AgentRef} {port : Nat} {p : Packet}

/-! ## Claims (R59, R101, R338, R471) -/

theorem exec_claim_unkeyed (h : (s.port (.agent a) port).key < 2) (x y z : Bool) : exec (.claim a port p x y z) s = .next s := if_pos h

theorem exec_claim_bad (hk : 2 ≤ (s.port (.agent a) port).key) (hc : p.crcOk = false) (x y z : Bool) :
    exec (.claim a port p x y z) s = .next (s.nakPkt (.agent a) p.hdr 0x01) := by
  simp [exec, execClaim, Nat.not_lt.mpr hk, hc]

theorem exec_claim_elsewhere (hk : 2 ≤ (s.port (.agent a) port).key) (hc : p.crcOk = true) (hn : claimTarget p ≠ noFid)
    (ht : claimTarget p ≠ s.nodeFid (.agent a)) (x y z : Bool) : exec (.claim a port p x y z) s = .next s := by
  simp [exec, execClaim, Nat.not_lt.mpr hk, hc, hn, ht]

section
variable (hk : 2 ≤ (s.port (.agent a) port).key) (hc : p.crcOk = true)
  (ht : claimTarget p = noFid ∨ claimTarget p = s.nodeFid (.agent a))
include hk hc ht

theorem exec_claim_forged {x y : Bool} (hg : s.claimGenuine a p x y = false) (z : Bool) : exec (.claim a port p x y z) s = .next s := by
  have htarget : ¬(claimTarget p ≠ noFid ∧ claimTarget p ≠ s.nodeFid (.agent a)) := by tauto
  simp only [exec, execClaim, if_neg (Nat.not_lt.mpr hk), hc, if_neg htarget, hg]
  simp

/-- A genuine claim is decided by its generation and its claimant. -/
theorem exec_claim_genuine (hg : s.claimGenuine a p true true = true) (m : Bool) :
    exec (.claim a port p true true m) s = .next (
      if s.jfld a JX_OWNER_GENERATION < claimGen p then s.acceptClaim a p m true
      else if claimGen p < s.jfld a JX_OWNER_GENERATION then s.raiseAgent a 9 2 ((claimId p).setWidth 16)
      else if claimId p = s.owner a then (if s.isDup (.agent a) p.hdr then s.again (.agent a) p.hdr else s.acceptClaim a p m false)
      else s.raiseAgent a 9 3 ((claimId p).setWidth 16)) := by
  have htarget : ¬(claimTarget p ≠ noFid ∧ claimTarget p ≠ s.nodeFid (.agent a)) := by tauto
  simp only [exec, execClaim, if_neg (Nat.not_lt.mpr hk), hc, if_neg htarget, hg, apply_ite Host.Outcome.next]
  simp

end

/-! ## Orders of the owner (R101, R471) -/

theorem exec_streamsReset_owner (h : s.ownerPacket a p) :
    exec (.streamsReset a p) s = .next ((s.restartStreams a (BitVec.ofNat 32 (leAt p.payload 0 4))).acked (.agent a) p) :=
  congrArg Host.Outcome.next (State.fromOwner_accept h _)

theorem exec_katOrder_owner (h : s.ownerPacket a p) (f : BitVec 32) :
    exec (.katOrder a p f) s
      = .next ((s.sendReport a 0x36 (leBytes 4 (katMask a.variant) ++ leBytes 4 f.toNat ++ zeros 8) 2).acked (.agent a) p) :=
  congrArg Host.Outcome.next (State.fromOwner_accept h _)

/-! ## Beacons and orphans (R60, R61, R84, R100, R118) -/

theorem exec_beacon_bad (hc : p.crcOk = false) : exec (.beacon a port p) s = .next (s.nakPkt (.agent a) p.hdr 0x01) := if_pos hc

section
variable (hc : p.crcOk = true) {u : State}
  (hu : u = s.replicate a port p (p.payload.take 8 ++ leBytes 8 (beaconCorr p + (s.port (.agent a) port).delayPs
    + Config.residencePs (agentKey a) (beaconSeqOf p)) ++ p.payload.drop 16))
include hc hu

theorem exec_beacon_other (h : beaconGen p ≠ u.jfld a JX_OWNER_GENERATION ∨ p.hdr.src ≠ u.owner a) :
    exec (.beacon a port p) s = .next u := by
  have hstop : ∀ b : Bool, beaconGen p ≠ u.jfld a JX_OWNER_GENERATION ∨ p.hdr.src ≠ u.owner a ∨ b := fun b => h.imp_right .inl
  subst hu
  exact (if_neg (by simp [hc])).trans (if_pos (hstop _))

theorem exec_beacon_newer (hg : beaconGen p = u.jfld a JX_OWNER_GENERATION) (hsrc : p.hdr.src = u.owner a)
    (hnew : ∀ q, (u.agent a).lastBeaconSeq = some q → seqLater (beaconSeqOf p) q = true) {v : State}
    (hv : v = (u.correctPhase a port p).takeBeacon a p) :
    exec (.beacon a port p) s = .next (((v.unorphan a).sendKept a).restore 0x000A ((v.unorphan a).nodeFid (.agent a)).toNat) := by
  subst hu hv
  refine (if_neg (by simp [hc])).trans (if_neg ?_)
  rintro (h | h | h)
  · exact h hg
  · exact h hsrc
  · split at h
    · rename_i q hq
      simp [hnew q hq] at h
    · cases h

end

theorem beaconMiss_fits : JX_HB_BEACON_MISS.fits := by unfold Field.fits; decide

theorem orphan_fits : JX_STATUS_ORPHAN.fits := by unfold Field.fits; decide

/-- A beacon that is taken starts the count of missed ones again and is the last one. -/
theorem State.takeBeacon_last (s : State) (a : AgentRef) (p : Packet) :
    (s.takeBeacon a p).jfld a JX_HB_BEACON_MISS = 0 ∧ ((s.takeBeacon a p).agent a).lastBeaconSeq = some (beaconSeqOf p) := by
  have hshape : ∃ u f, s.takeBeacon a p = (State.updAgent u a f).setJfld a JX_HB_BEACON_MISS 0
      ∧ ∀ g : Agent, (f g).lastBeaconSeq = some (beaconSeqOf p) := ⟨_, _, rfl, fun _ => rfl⟩
  obtain ⟨u, f, hs, hlast⟩ := hshape
  obtain ⟨j, hj⟩ := State.agent_setJfld (u.updAgent a f) a JX_HB_BEACON_MISS 0
  rw [hs, hj, State.agent_updAgent_self]
  exact ⟨State.jfld_setJfld_self _ a beaconMiss_fits 0, hlast _⟩

theorem State.agent_setJfld_ne (s : State) {a b : AgentRef} (h : b ≠ a) (f : Field) (v : Nat) : (s.setJfld a f v).agent b = s.agent b :=
  State.agent_setAgent_ne s _ h

theorem exec_orphanTimeout_due (h : (s.agent a).lastBeaconNs.getD 0 + s.jfld a JX_HB_ORPHAN_MS * 1000000 ≤ s.agentNow a) :
    ∃ t, exec (.orphanTimeout a) s = .next t ∧ t.orphan a = true ∧ t.out = s.out ∧ ∀ b, b ≠ a → t.agent b = s.agent b := by
  refine ⟨_, if_neg (Nat.not_lt.mpr h), ?_, by simp [State.showMissed, State.updAgent], fun b hb => ?_⟩
  · rw [State.orphan, State.showMissed, State.jfld_setJfld_off _ _ (by decide), State.jfld_updAgent (by rfl),
      State.jfld_setJfld_self _ _ orphan_fits]
    rfl
  · rw [State.showMissed, State.agent_setJfld_ne _ hb, State.agent_updAgent_ne _ _ hb, State.agent_setJfld_ne _ hb]

/-- Settles O19: a claim by its checks, generation and claimant, a beacon by its generation, source and number, and the two deadlines. -/
theorem ownerAndBeaconResults : Obligations.OwnerAndBeaconResults := by
  constructor
  · rintro s a port p cur rfl
    refine ⟨exec_claim_unkeyed, exec_claim_bad, exec_claim_elsewhere, fun hk hc ht => ⟨⟨rfl, ?_, ?_⟩, fun hg => ?_⟩,
      exec_streamsReset_owner, exec_katOrder_owner⟩
    · exact exec_claim_forged hk hc ht rfl true
    · exact exec_claim_forged hk hc ht rfl true
    · have hexec := exec_claim_genuine hk hc ht hg
      refine ⟨fun hgt m => ?_, fun heq hown hdup m => ?_, fun heq hown hdup m => ?_, fun hlt => ?_, fun heq hown => ?_⟩
      · rw [hexec, if_pos hgt]
      · simp [hexec, heq, hown, hdup]
      · simp [hexec, heq, hown, hdup]
      · rw [hexec, if_neg (by omega), if_pos hlt]
      · simp [hexec, heq, hown]
  · intro s a port p
    refine ⟨exec_beacon_bad, ?_, fun h => if_pos h, exec_orphanTimeout_due, fun h => if_pos (.inr h), fun hr h => ?_,
      fun hr => if_pos (.inl hr)⟩
    · rintro hc corr u rfl hu
      refine ⟨exec_beacon_other hc hu, fun hg hsrc hnew v hv => ⟨exec_beacon_newer hc hu hg hsrc hnew hv, ?_⟩⟩
      rw [hv]
      exact State.takeBeacon_last _ a p
    · exact ⟨_, _, if_neg (by simp [hr, h]), rfl, rfl⟩

end Sys2Proof.Machine
end

section
/-! Every command answers: each branch of each command ends in a next state, so no run of any length stops. -/

namespace Sys2Proof.Machine

/-- An outcome that is a next state. -/
def Answers (o : Answer) : Prop := ∃ t, o = .next t

theorem answers_next (t : State) : Answers (.next t) := ⟨t, rfl⟩

theorem exec_answers (c : Instr) (s : State) : Answers (exec c s) := by
  cases c <;> unfold exec <;> try exact answers_next _
  all_goals
    simp only [
      execRegisterWrite, execSlotTick, execBrownOutRecovery, execTempHigh, execThermalTrip, execQuarterRampDone,
      execQuarterIdleTimeout, execDieLost, execCrstAssert, execComputeResetEnd, execCrstDeassert, execRejoinStart,
      execEpochBoundary, execPlayApplyDone, execGqDoorbell, execBeaconTimer, execBeacon, execOrphanTimeout,
      execHoldoverExceeded, execClaim, execEventsSendTimer, execLinkDown, execCreditFrameTimer, execRekeyThreshold,
      execPacketPost, execExpressHeadSlot, execRetryTimeout, execAck, execNak, execResendReq, execPrecedentTimer, execWrite,
      execReadReq, execReadResp, execSendPacket, execDiscoverResp, execRegRead, execRegResp, execSleep, execPortIdleTimeout,
      execWakeRequest, execWakeComplete, execEIdleRequest, execEDeepRequest, execEpochCfgWrite, execSyncArm,
      execSyncRearmTimer, execSyncInEdge, execPpsInEdge, execPtpFrame, execArpRequest, execPortRetrain, execRekey,
      execCommitDeadline, execDrainQuiet, execDrainTimeout, execClassificationClose, execPlayResendTimer, execAutoPlayWrite,
      execAttemptResumeTimer, execTagComplete, execEvwaitDeadline, execSqDoorbell, execCqHeadDoorbell, execQueueFetch,
      execQueueEnable, execQueueDisable, execImgfreeComplete, execWallTimeLimit, execLaunch, execTicketGrant,
      execChunkTimeout, execReservationReleaseTimer, execCrossOrderTimer, execDispatch, execPendingRecordTimeout,
      execBrokerWindowEnd, execKvMoveStart, execKvGraceTimer, execPartOpen, execPartEnd, execPartFree, execDevAssign,
      execDevRelease, execDevRescrub, execScrubStart, execScrubZeroDone, execScrubVerifyDone, execScrubStatusTimer,
      execScrubStatusMissing, execEventIngress, execEventServe, execLedgerWrite, execMsBoundary, execFlashCopy,
      execRecordCloseTimer, execResetTimeout, execQuietExpire, execFltForce, execSeverityWrite, execFaultnClr,
      execActCopyArrive, execVoteTimeout, execFenceReq, execResyncReq, execResyncPassDone, execResyncPauseDone,
      execComparatorSelftest, execDigestProbeTimer, execPairEnable, execMirrorLagTimeout, execHeartbeatTimer, execHeartbeat,
      execHbPathLost, execTakeoverStart, execHoldExpire, execPowerGood, execBringupPhaseDone, execCtrlReset, execBlockReset,
      execTrainTimeout, execDiscoveryClose, execBlockResetDone, execJtagInternalScan, execGqCqHeadDoorbell,
      execSwitchWindowEnd, execHostReadCompletion, execClaimAckTimeout]
    repeat' split
  all_goals exact answers_next _

theorem step_answers (s : State) : Answers (step s) := by
  unfold step
  split
  · exact answers_next s
  · exact exec_answers _ _

theorem safeRun (n : Nat) (s : State) : SafeRun n s := by
  induction n generalizing s with
  | zero => exact ⟨s, rfl⟩
  | succ n ih =>
    obtain ⟨t, ht⟩ := step_answers s
    obtain ⟨u, hu⟩ := ih t
    exact ⟨u, by simp only [runSteps, ht, hu]⟩

/-- Settles O54: the commands that are one change of the state answer it; in the others every branch ends in a next state. -/
theorem everyCommandAnswers : Obligations.EveryCommandAnswers := by
  unfold Obligations.EveryCommandAnswers
  exact ⟨exec_answers, safeRun⟩

end Sys2Proof.Machine
end

section
/-! The next command of a ring to start (R202). -/

namespace Sys2Proof.Machine

/-- A command that has started hands the choice on: one with SERIAL lets none start behind it, and none with SERIAL starts behind it. -/
theorem nextStart_cons_started {d : Cmd} (l : List Cmd) (hstate : d.state ≠ .fetched) :
    nextStart (d :: l) = if d.serial then none else (nextStart l).filter fun c => !c.serial := by
  rw [nextStart]
  split
  · exact absurd ‹_› hstate
  · cases nextStart l with
    | none => rfl
    | some c => cases hc : c.serial <;> simp [Option.filter, hc]

theorem nextStart_cons_fetched {d : Cmd} (l : List Cmd) (hstate : d.state = .fetched) : nextStart (d :: l) = some d := by
  simp only [nextStart, hstate]

/-- `c` may start in the ring `l` as R202 orders it. -/
def MayStart (l : List Cmd) (c : Cmd) : Prop :=
  ∃ a b, l = a ++ c :: b ∧ c.state = .fetched ∧ (∀ d ∈ a, d.state ≠ .fetched ∧ d.serial = false) ∧ (c.serial = true → a = [])

theorem mayStart_cons_fetched {d c : Cmd} {l : List Cmd} (hstate : d.state = .fetched) : MayStart (d :: l) c ↔ d = c := by
  constructor
  · rintro ⟨a, b, hl, -, hbefore, -⟩
    cases a with
    | nil => exact (List.cons.inj hl).1
    | cons x a =>
      obtain ⟨rfl, -⟩ := List.cons.inj hl
      exact absurd hstate (hbefore d List.mem_cons_self).1
  · rintro rfl
    exact ⟨[], l, rfl, hstate, by simp, fun _ => rfl⟩

theorem mayStart_cons_started {d c : Cmd} {l : List Cmd} (hstate : d.state ≠ .fetched) :
    MayStart (d :: l) c ↔ d.serial = false ∧ MayStart l c ∧ c.serial = false := by
  constructor
  · rintro ⟨a, b, hl, hc, hbefore, hserial⟩
    cases a with
    | nil =>
      obtain ⟨rfl, -⟩ := List.cons.inj hl
      exact absurd hc hstate
    | cons x a =>
      obtain ⟨rfl, rfl⟩ := List.cons.inj hl
      have hfree : c.serial = false := by
        by_contra h
        exact absurd (hserial (by simpa using h)) (List.cons_ne_nil d a)
      exact ⟨(hbefore d List.mem_cons_self).2,
        ⟨a, b, rfl, hc, fun x hx => hbefore x (List.mem_cons_of_mem d hx), fun h => by simp [hfree] at h⟩, hfree⟩
  · rintro ⟨hd, ⟨a, b, rfl, hc, hbefore, -⟩, hfree⟩
    exact ⟨d :: a, b, rfl, hc, List.forall_mem_cons.mpr ⟨⟨hstate, hd⟩, hbefore⟩, fun h => by simp [hfree] at h⟩

theorem nextStart_eq_some_iff (l : List Cmd) (c : Cmd) : nextStart l = some c ↔ MayStart l c := by
  induction l with
  | nil => simp [nextStart, MayStart]
  | cons d l ih =>
    by_cases hstate : d.state = .fetched
    · rw [nextStart_cons_fetched l hstate, mayStart_cons_fetched hstate, Option.some_inj]
    · rw [nextStart_cons_started l hstate, mayStart_cons_started hstate, ← ih]
      cases d.serial <;> simp [Option.filter_eq_some_iff]

/-- Settles O53, by induction on the ring. -/
theorem ringOrder : Obligations.RingOrder := by
  unfold Obligations.RingOrder
  exact ⟨nextStart_eq_some_iff, fun _ _ _ _ _ hnone => State.startCmd_none hnone⟩

end Sys2Proof.Machine
end

section
/-! A step takes the command at the front of the queue; reset leaves the queue empty and every register as its table says. -/

namespace Sys2Proof.Machine

/-- Settles O1. -/
theorem stepRunsFront : Obligations.StepRunsFront := by
  unfold Obligations.StepRunsFront
  exact ⟨fun _ _ _ => rfl, fun s hempty => by simp only [step, hempty]⟩

/-! ## Reset: no table of the state has an entry, so every register reads its reset value -/

theorem State.reset_jfld (a : AgentRef) (f : Field) : State.reset.jfld a f = f.of (jxReset a.variant a.num f.off) := rfl

/-- Variant, release and port count stand above the low 32 bits of JX_ID. -/
theorem fabricId_jxReset (v : Variant) (num : Nat) : JX_ID_FABRIC_ID.of (jxReset v num JX_ID) = 0xFFFFFFFF := by
  simp only [jxReset, if_true, Field.of, JX_ID_FABRIC_ID, BitVec.toNat_ofNat]
  omega

/-- The other registers below the severities do not depend on the agent's number. -/
theorem jxReset_num {off : Nat} (hid : off ≠ JX_ID) (hoff : off < 0x1000) (v : Variant) (num : Nat) : jxReset v num off = jxReset v 0 off := by
  have hsev : ¬ (0x1000 ≤ off ∧ off < 0x1800 ∧ off % 8 = 0) := by omega
  simp only [jxReset, if_neg hid, if_neg hsev]

/-- A field of a list that reads as listed. -/
theorem State.reset_fld_of_mem {l : List (Field × Nat)} (hl : ∀ x ∈ l, State.reset.fld x.1 = x.2) {f : Field} {v : Nat} (h : (f, v) ∈ l) :
    State.reset.fld f = v := hl _ h

/-- An agent's field of a list that reads as listed at the agent numbered 0. -/
theorem State.reset_jfld_of_mem {l : List (Field × Nat)} {a : AgentRef}
    (hl : ∀ x ∈ l, x.1.off ≠ JX_ID ∧ x.1.off < 0x1000 ∧ x.1.of (jxReset a.variant 0 x.1.off) = x.2) {f : Field} {v : Nat} (h : (f, v) ∈ l) :
    State.reset.jfld a f = v := by
  obtain ⟨hid, hoff, hread⟩ := hl _ h
  rw [State.reset_jfld, jxReset_num hid hoff, hread]

/-- Settles O2. -/
theorem resetState : Obligations.ResetState := by
  unfold Obligations.ResetState
  refine ⟨rfl, rfl, rfl, fun _ => rfl, fun _ => rfl, fun f v h => State.reset_fld_of_mem (by decide +kernel) h, fun a f v h => ?_⟩
  obtain ⟨variant, num⟩ := a
  obtain hfabric | h := List.mem_cons.mp h
  · obtain ⟨rfl, rfl⟩ := Prod.mk.inj hfabric
    exact fabricId_jxReset variant num
  · cases variant <;> exact State.reset_jfld_of_mem (by dsimp only; decide +kernel) h

end Sys2Proof.Machine
end

section
/-! The arithmetic class (R181, R186): what each instruction leaves in g[RD] or p[PD]. -/

namespace Sys2Proof.Machine

section
variable {s : State} {e op : Nat} {w : Word64}

/-! ## The shared forms -/

theorem State.issue_alu (f : Word64 → Word64 → Word64) (h : s.executes e .tenant w) (hop : wOp w = op) :
    s.issue e op .tenant (alu e f) = s.stepped e ((s.engine e).setG (wRd w) (f (s.g e (wRa w)) (s.g e (wRb w)))) :=
  State.issue_putG h hop (by simp only [alu, State.g_charged])

theorem State.issue_aluI (f : Word64 → Word64 → Word64) (h : s.executes e .tenant w) (hop : wOp w = op) :
    s.issue e op .tenant (aluI e f) = s.stepped e ((s.engine e).setG (wRd w) (f (s.g e (wRa w)) (wImm w))) :=
  State.issue_putG h hop (by simp only [aluI, State.g_charged])

theorem State.pred_charged (s : State) (e i : Nat) : ((s.charged e).engine e).pred i = (s.engine e).pred i := by simp

theorem next_congr {s t : State} (h : s = t) : (Host.Outcome.next s : Answer) = .next t := congrArg _ h

end

/-! ## The operations on words -/

theorem divU_eq (x y : Word64) : divU x y = if y = 0 then BitVec.allOnes 64 else BitVec.ofNat 64 (x.toNat / y.toNat) := by
  unfold divU
  congr 1
  exact BitVec.eq_of_toNat_eq (by simpa using (Nat.mod_eq_of_lt ((Nat.div_le_self _ _).trans_lt x.isLt)).symm)

theorem remU_eq (x y : Word64) : remU x y = if y = 0 then x else BitVec.ofNat 64 (x.toNat % y.toNat) := by
  unfold remU
  congr 1
  exact BitVec.eq_of_toNat_eq (by simpa using (Nat.mod_eq_of_lt ((Nat.mod_le _ _).trans_lt x.isLt)).symm)

theorem ult_ite (x y a b : Word64) : (if x.ult y then a else b) = if x.toNat < y.toNat then a else b := by
  simp only [BitVec.ult, decide_eq_true_eq]

/-- Settles O5. -/
theorem aluResults : Obligations.AluResults := by
  unfold Obligations.AluResults
  constructor
  · rintro s e w x y hexec rfl rfl
    have hdone {op : Nat} (f : Word64 → Word64 → Word64) (hop : wOp w = op) := next_congr (State.issue_alu f hexec hop)
    refine ⟨hdone _, hdone _, hdone _, hdone _, fun hop => ?_, fun hop => ?_, hdone _, hdone _, hdone _, hdone _, hdone _, hdone _,
      fun hop => ?_, fun hop => ?_⟩
    · rw [← divU_eq]
      exact hdone divU hop
    · rw [← remU_eq]
      exact hdone remU hop
    · rw [← ult_ite]
      exact hdone _ hop
    · rw [← ult_ite]
      exact hdone _ hop
  · rintro s e w x m hexec rfl rfl
    have hdone {op : Nat} (f : Word64 → Word64 → Word64) (hop : wOp w = op) := next_congr (State.issue_aluI f hexec hop)
    exact ⟨hdone _, hdone _, hdone _, hdone _, hdone _, hdone _, hdone _, hdone _⟩

/-! ## Bit fields, leading zeros and comparisons -/

theorem bitRange_eq (x : Word64) (hi lo : Nat) : bitRange x hi lo = BitVec.ofNat 64 (x.toNat / 2 ^ lo % 2 ^ (hi + 1 - lo)) := rfl

theorem testBit_fm (lo n i : Nat) : (fm lo n).testBit i = (decide (lo ≤ i) && decide (i - lo < n)) := by
  rw [fm, Nat.testBit_mul_two_pow, Nat.testBit_two_pow_sub_one]

theorem getLsbD_insertRange (x y : Word64) {hi lo i : Nat} (hlo : lo ≤ hi) (hi64 : i < 64) :
    (insertRange x y hi lo).getLsbD i = if lo ≤ i ∧ i ≤ hi then y.getLsbD (i - lo) else x.getLsbD i := by
  have hmask : (BitVec.ofNat 64 (fm lo (hi + 1 - lo))).getLsbD i = (decide (lo ≤ i) && decide (i ≤ hi)) := by
    rw [BitVec.getLsbD_ofNat, testBit_fm]
    simp only [hi64, decide_true, Bool.true_and]
    congr 2
    exact propext (by omega)
  simp only [insertRange, BitVec.getLsbD_or, BitVec.getLsbD_and, BitVec.getLsbD_not, BitVec.getLsbD_shiftLeft, hmask, hi64, decide_true,
    Bool.true_and]
  by_cases hle : lo ≤ i <;> by_cases hge : i ≤ hi <;> simp [hle, hge, Nat.not_lt.mpr, Nat.lt_of_not_le]

/-- The leading zeros: no one stands above, and one right below them unless the word is zero. -/
theorem leadZeros_eq (x : Word64) : ∃ n ≤ 64, leadZeros x = BitVec.ofNat 64 n ∧ (∀ i < n, x.getLsbD (63 - i) = false)
    ∧ (n < 64 → x.getLsbD (63 - n) = true) := by
  unfold leadZeros
  cases hfind : (List.range 64).find? fun i => x.getLsbD (63 - i) with
  | none => exact ⟨64, le_rfl, rfl, by simpa [List.find?_range_eq_none] using hfind, fun h => absurd h (by omega)⟩
  | some n =>
    obtain ⟨hone, hn, hzero⟩ := List.find?_range_eq_some.mp hfind
    exact ⟨n, (List.mem_range.mp hn).le, rfl, fun i hi => by simpa using hzero i hi, fun _ => hone⟩

theorem condHolds_eq {c : Nat} (hc : c < 8) (x y : Word64) : condHolds c x y = condition c x y := by
  rw [Bool.eq_iff_iff]
  interval_cases c <;> simp [condHolds, condition, BitVec.ult, BitVec.slt]

theorem combine_eq {n : Nat} (hn : n < 3) (c p : Bool) : combine n c p = [c, c && p, c || p].getD n false := by
  interval_cases n <;> rfl

theorem truthTable_eq (cond : Nat) (a b : Bool) : truthTable cond a b = cond.testBit (2 * a.toNat + b.toNat) := by
  cases a <;> cases b <;> simp [truthTable, bitsAt, bit, Nat.testBit_eq_decide_div_mod_eq, Bool.beq_eq_decide_eq]

/-! ## What a legal word of these instructions states (R180, R181) -/

section
variable {w : Word64}

theorem rowOk_of_legal (h : legal w = true) : rowOk w = true := by
  unfold legal at h
  split at h
  · simp at h
  · exact (Bool.and_eq_true_iff.mp h).2

theorem range_of_bfi (h : legal w = true) (hop : wOp w = 0x1A) : wLo w ≤ wHi w := by
  simpa [rowOk, hop] using rowOk_of_legal h

theorem cond_of_cmp (h : legal w = true) (hop : wOp w = 0x1E) : wCond w < 8 ∧ wComb w < 3 := by
  have := rowOk_of_legal h
  simp [rowOk, hop] at this
  exact this.1

theorem cond_of_cmpi (h : legal w = true) (hop : wOp w = 0x1F) : wCondI w < 8 ∧ wCombI w < 3 := by
  have := rowOk_of_legal h
  simp [rowOk, hop] at this
  exact this.1

theorem comb_of_plog (h : legal w = true) (hop : wOp w = 0x84) : wComb w < 3 := by
  have := rowOk_of_legal h
  simp [rowOk, hop] at this
  exact this.1.2.2

end

/-- Settles O6. -/
theorem bitAndPredicateResults : Obligations.BitAndPredicateResults := by
  unfold Obligations.BitAndPredicateResults
  constructor
  · rintro s e w x y hexec rfl rfl
    have hput {op : Nat} {v : Word64} {body : State → Word64 → Effect} (hop : wOp w = op)
        (hbody : body (s.charged e) w = .done ((s.charged e).putG e (wRd w) v)) := next_congr (State.issue_putG hexec hop hbody)
    obtain ⟨-, -, hlegal, -⟩ := id hexec
    refine ⟨fun hop => ?_, fun hop => ?_, fun hop => ?_, fun hop => ?_, fun hop => ?_, fun hop => ?_⟩
    · exact hput hop (by simp only [State.g_charged, State.pred_charged])
    · exact hput hop (by simp only [State.g_charged, bitRange_eq])
    · exact ⟨_, hput hop (by simp only [State.g_charged]), fun i hi => getLsbD_insertRange _ _ (range_of_bfi hlegal hop) hi⟩
    · exact hput hop (by simp only [alu, State.g_charged, popCount])
    · obtain ⟨n, hn, hlead, hzero, hone⟩ := leadZeros_eq (s.g e (wRa w))
      exact ⟨n, hn, hput hop (by simp only [alu, State.g_charged, hlead]), hzero, hone⟩
    · exact hput hop (by simp only [State.g_charged, crcStep]; rfl)
  · rintro s e w x y m q hexec rfl rfl rfl rfl
    have hput {op : Nat} {v : Bool} {body : State → Word64 → Effect} (hop : wOp w = op)
        (hbody : body (s.charged e) w = .done ((s.charged e).putP e (wPd w) v)) := next_congr (State.issue_putP hexec hop hbody)
    obtain ⟨-, -, hlegal, -⟩ := id hexec
    refine ⟨fun hop => ?_, fun hop => ?_, fun hop => ?_⟩
    · obtain ⟨hcond, hcomb⟩ := cond_of_cmp hlegal hop
      rw [← condHolds_eq hcond, ← combine_eq hcomb]
      exact hput hop (by simp only [compareInto, State.g_charged, State.pred_charged])
    · obtain ⟨hcond, hcomb⟩ := cond_of_cmpi hlegal hop
      rw [← condHolds_eq hcond, ← combine_eq hcomb]
      exact hput hop (by simp only [compareInto, State.g_charged, State.pred_charged]; rfl)
    · refine ⟨_, (truthTable_eq _ _ _), ?_⟩
      rw [← combine_eq (comb_of_plog hlegal hop)]
      exact hput hop (by simp only [State.pred_charged])

end Sys2Proof.Machine
end

section
/-! Branches, the time base, fences and the event class (R189, R193). -/

namespace Sys2Proof.Machine

section
variable {s : State} {e op : Nat} {lvl : Level} {w : Word64}

/-! ## Instructions that go on with nothing changed, or set the PC -/

theorem State.advanced_charged (s : State) (e : Nat) : (s.charged e).advanced s e = s.stepped e (s.engine e) := by
  simp [State.advanced, State.stepped, State.charged, ← State.leaveGate_setEngine]

theorem State.setPc_charged (h : s.executes e lvl w) : (s.charged e).setPc e ((s.engine e).pc + 1) = s.stepped e (s.engine e) := by
  rw [State.setPc_running _ _ (by simpa using h.running), ← State.advanced_charged, State.advanced]

/-- A change of other parts of the state than its engines, and the engine going on. -/
theorem State.setPc_comm {f : State → State} (hengines : ∀ s, (f s).engines = s.engines) (hset : ∀ s e x, f (s.setEngine e x) = (f s).setEngine e x)
    (s : State) (e pc : Nat) : (f s).setPc e pc = f (s.setPc e pc) := by
  have hengine : (f s).engine e = s.engine e := State.engine_of_engines (hengines s) e
  simp only [State.setPc, hengine, apply_ite f, hset]

theorem State.setPc_withCol (s : State) (c : CollectorSt) (e pc : Nat) : ({ s with col := c } : State).setPc e pc = { s.setPc e pc with col := c } :=
  State.setPc_comm (f := fun s => { s with col := c }) (fun _ => rfl) (fun _ _ _ => rfl) s e pc

theorem State.issue_unchanged {body : State → Word64 → Effect} (h : s.executes e lvl w) (hop : wOp w = op)
    (hbody : body (s.charged e) w = .done (s.charged e)) : s.issue e op lvl body = s.stepped e (s.engine e) := by
  rw [State.issue_done h hop hbody (by simp [h.running]), State.advanced_charged]

theorem State.executes.running_charged {lvl : Level} (h : s.executes e lvl w) : ((s.charged e).engine e).running = true := by
  simpa using h.running

theorem State.reg_charged (s : State) (e off : Nat) : (s.charged e).reg off = s.reg off := by
  obtain ⟨l, n, hcharged⟩ := s.charged_eq e
  rw [hcharged]
  rfl

theorem State.now_charged (s : State) (e : Nat) : (s.charged e).now = s.now := by rw [State.now, State.reg_charged, State.now]

theorem State.col_charged (s : State) (e : Nat) : (s.charged e).col = s.col := by
  obtain ⟨l, n, hcharged⟩ := s.charged_eq e
  rw [hcharged]

/-- SCH_EPOCH_NOW stands outside the windows and the parts that are gated until the controller is ready. -/
theorem State.readReg_epochNow (s : State) : s.readReg SCH_EPOCH_NOW = s.reg SCH_EPOCH_NOW := by
  rw [State.readReg, if_neg (fun h => absurd h.2.2 (by decide)), if_neg (by decide), if_neg (by decide), if_neg (by decide), if_neg (by decide), if_neg (by decide),
    if_neg (by decide), if_neg (by decide), if_neg (by decide), if_neg (by decide), if_neg (by decide)]

theorem State.target_charged (s : State) (e : Nat) (w : Word64) :
    (s.charged e).target e w = (BitVec.ofNat 64 (s.engine e).pc + (BitVec.ofNat 40 w.toNat).signExtend 64).toNat := by
  simp [State.target, wImm]

/-- An instruction that goes elsewhere leaves its engine as it was but for the budget unit, one register and the PC. -/
theorem State.issue_goto_putG {r pc : Nat} {v : Word64} {body : State → Word64 → Effect} (h : s.executes e lvl w)
    (hop : wOp w = op) (hbody : body (s.charged e) w = .goto ((s.charged e).putG e r v) pc) :
    s.issue e op lvl body
      = (s.charged e).setEngine e { ({ s.engine e with budget := (s.engine e).budget - 1 } : Engine).setG r v with pc := pc } := by
  rw [State.issue_goto h hop hbody (by simp [State.putG, h.running])]
  simp [State.putG]

theorem State.issue_goto_unchanged {pc : Nat} {body : State → Word64 → Effect} (h : s.executes e lvl w) (hop : wOp w = op)
    (hbody : body (s.charged e) w = .goto (s.charged e) pc) :
    s.issue e op lvl body = (s.charged e).setEngine e { s.engine e with budget := (s.engine e).budget - 1, pc := pc } := by
  rw [State.issue_goto h hop hbody (by simp [h.running])]
  simp

/-! ## LOOP: the count goes down, never below zero -/

theorem loop_count (v : Word64) : (if v = 0 then 0 else v - 1) = BitVec.ofNat 64 (v.toNat - 1) := by
  split
  · next h => rw [h]; rfl
  · next h =>
    have hpos : v.toNat ≠ 0 := fun h0 => h (BitVec.eq_of_toNat_eq h0)
    apply BitVec.eq_of_toNat_eq
    rw [BitVec.toNat_sub, BitVec.toNat_ofNat]
    have := v.isLt
    simp
    omega

theorem exec_loop (h : s.executes e .tenant w) (hop : wOp w = 0x83) {x : Engine} {v : Word64}
    (hx : x = { s.engine e with budget := (s.engine e).budget - 1 }) (hv : v = BitVec.ofNat 64 ((x.reg (wRa w)).toNat - 1)) :
    exec (.loop e) s = .next ((s.charged e).setEngine e
      { x.setG (wRa w) v with pc := if v = 0 then x.pc + 1 else (BitVec.ofNat 64 x.pc + (BitVec.ofNat 40 w.toNat).signExtend 64).toNat }) := by
  subst hx
  have hcount : v = if s.g e (wRa w) = 0 then 0 else s.g e (wRa w) - 1 := hv.trans (loop_count _).symm
  refine next_congr ?_
  by_cases hzero : v = 0
  · rw [if_pos hzero]
    rw [State.issue_done h hop (t := (s.charged e).putG e (wRa w) v) (by simp only [State.g_charged, ← hcount, if_pos hzero])
      (by simp [State.putG, h.running])]
    simp [State.advanced, State.putG]
  · rw [if_neg hzero]
    exact State.issue_goto_putG h hop (by simp only [State.g_charged, ← hcount, if_neg hzero, State.target_charged])

end

/-- Settles O7. -/
theorem flowAndEventResults : Obligations.FlowAndEventResults := by
  unfold Obligations.FlowAndEventResults
  constructor
  · rintro s e w m x hexec rfl rfl
    refine ⟨fun hop => ?_, fun hop => ?_, fun hop => ?_, fun hop => ?_, fun hop => ?_, fun hop => ?_, fun hop => ?_, fun hop v hv => ?_⟩
    · exact next_congr (State.issue_unchanged hexec hop rfl)
    · exact next_congr (State.issue_unchanged hexec hop rfl)
    · exact next_congr (State.issue_putG hexec hop (by simp only [State.reg_charged]))
    · exact next_congr (State.issue_putG hexec hop (by simp only [State.readReg_epochNow, State.reg_charged]))
    · exact next_congr (State.issue_goto_unchanged hexec hop (by simp only [State.target_charged]))
    · exact next_congr (State.issue_goto_putG hexec hop (by simp only [State.target_charged]; simp))
    · exact next_congr (State.issue_goto_unchanged hexec hop (by simp only [State.g_charged]; rfl))
    · exact exec_loop hexec hop rfl hv
  · rintro s e w x y rfl rfl
    refine ⟨fun hexec hop => ⟨fun hin => ?_, fun hin hdl => ?_, fun hin hdl => ?_⟩, fun rd sp d hb hd => ?_, fun rd sp d hr hb hd => ?_,
      fun hexec hop => ?_, fun hexec hop => ⟨fun hl => ?_, fun hl hm => ?_, fun hl hm => ?_⟩⟩
    · exact next_congr (State.issue_putG hexec hop (by simp [hin]))
    · exact next_congr (State.issue_putG hexec hop (by simp [hin, State.now_charged, hdl]))
    · exact next_congr (State.issue_block hexec hop (by simp [hin, State.now_charged, Nat.not_le.mpr hdl]))
    · simp only [exec, execEvwaitDeadline, hb, if_pos hd]
    · simp only [exec, execEvwaitDeadline, hb, if_neg (Nat.not_lt.mpr hd)]
      rw [State.setPc_running _ _ (by simp [State.setBlocked, State.putG, hr])]
      simp [State.setBlocked, State.putG]
    · refine next_congr ?_
      rw [State.issue_setPc hexec hop rfl, State.setPc_withCol, State.setPc_charged hexec]
      simp only [State.col_charged, State.g_charged, wModHi, wf]
    · refine next_congr (State.issue_done hexec hop ?_ (by rw [State.engine_of_engines (State.raise_engines ..)]; exact hexec.running_charged))
      simp [hl, engineSource]
    · refine next_congr (State.issue_done hexec hop ?_ (by rw [State.engine_of_engines (State.raise_engines ..)]; exact hexec.running_charged))
      simp [hl, wModHi, wf, Nat.not_lt.mpr hm]
    · refine next_congr (State.issue_unchanged hexec hop ?_)
      simp [hl, wModHi, wf, hm]

end Sys2Proof.Machine
end

section
/-! Opening, closing, copying and describing handles (R177, R192). -/

namespace Sys2Proof.Machine

variable {s : State} {e op : Nat} {w : Word64} {lvl : Level} {body : State → Word64 → Effect}

/-- An engine's handle table with a handle opened, replaced or closed. -/
def Engine.putH (x : Engine) (i : Nat) (h : Option Handle) : Engine :=
  { x with h := match h with | some h => x.h.set i h | none => x.h.erase i }

theorem Engine.putH_some (x : Engine) (i : Nat) (h : Handle) : x.putH i (some h) = { x with h := x.h.set i h } := rfl

theorem Engine.putH_none (x : Engine) (i : Nat) : x.putH i none = { x with h := x.h.erase i } := rfl

theorem State.putH_charged (s : State) (e i : Nat) (h : Option Handle) :
    (s.charged e).putH e i h = (s.charged e).setEngine e { (s.engine e).putH i h with budget := (s.engine e).budget - 1 } := by
  cases h <;> simp only [State.putH, Engine.putH, State.engine_charged]

theorem State.issue_putH {i : Nat} {h : Option Handle} (hexec : s.executes e lvl w) (hop : wOp w = op)
    (hbody : body (s.charged e) w = .done ((s.charged e).putH e i h)) : s.issue e op lvl body = s.stepped e ((s.engine e).putH i h) :=
  State.issue_setEngine hexec hop hexec.running (hbody.trans (by rw [State.putH_charged]))

theorem State.issue_putH_putP {i j : Nat} {h : Option Handle} {b : Bool} (hexec : s.executes e lvl w) (hop : wOp w = op)
    (hbody : body (s.charged e) w = .done (((s.charged e).putH e i h).putP e j b)) :
    s.issue e op lvl body = s.stepped e (((s.engine e).putH i h).setP j b) := by
  refine State.issue_setEngine hexec hop (by simp [Engine.putH, hexec.running]) (hbody.trans ?_)
  rw [State.putH_charged, State.putP, State.engine_setEngine_self, State.setEngine_setEngine, Engine.setP_withBudget]

/-- Settles O14. -/
theorem handleResults : Obligations.HandleResults := by
  unfold Obligations.HandleResults
  rintro s e w x hexec rfl
  refine ⟨fun hop r hr => ?_, fun hop ha hsome => ?_, fun h hh => ⟨fun hop hd => ?_, fun hop => ?_⟩⟩
  · refine ⟨fun h hopen => next_congr ?_, fun hopen => next_congr ?_, fun hopen => next_congr ?_⟩
    · rw [← Engine.putH_some]
      refine State.issue_putH_putP hexec hop ?_
      simp only [State.engine_charged, State.g_charged, ← hr, hopen]
    · rw [← Engine.putH_none]
      refine State.issue_putH_putP hexec hop ?_
      simp only [State.engine_charged, State.g_charged, ← hr, hopen]
    · refine State.issue_suppress hexec hop ?_
      simp only [State.engine_charged, State.g_charged, ← hr, hopen]
  · have hknown : ¬ (wHa w = 0 ∨ (((s.charged e).engine e).handle (wHa w)).isNone = true) := by
      rw [State.handle_charged]
      simp [ha, Option.isSome_iff_ne_none.mp hsome]
    have hcharged : ((s.charged e).engine e).handleBusy (wHa w) = (s.engine e).handleBusy (wHa w) := by simp [Engine.handleBusy]
    refine ⟨fun hbusy => next_congr ?_, fun hbusy => next_congr ?_⟩
    · refine State.issue_stay hexec hop ?_
      simp only [if_neg hknown, hcharged, if_pos hbusy]
    · rw [← Engine.putH_none]
      refine State.issue_putH hexec hop ?_
      simp only [if_neg hknown, hcharged, hbusy, Bool.false_eq_true, if_false]
  · rw [← Engine.putH_some]
    refine next_congr (State.issue_putH hexec hop ?_)
    simp only [State.handle_charged, hh, if_neg hd]
  · refine next_congr (State.issue_putGs (r := wRd w) (l := [BitVec.ofNat 64 _, BitVec.ofNat 64 h.size]) hexec hop ?_)
    simp only [State.handle_charged, hh]

end Sys2Proof.Machine
end

section
/-! Loads and stores behind a handle (R177, R183, R187). -/

namespace Sys2Proof.Machine

/-! ## Lengths of what is loaded and stored -/

theorem length_szStore (sz v : Nat) : (szStore sz v).length = szBytes sz := by
  unfold szStore
  split
  · exact length_beBytes _ _
  · exact length_leBytes _ _

/-- Eight bytes of a row of eight-byte words. -/
theorem slice_flatMap_range' {f : Nat → List Byte} (hlen : ∀ i, (f i).length = 8) {n i : Nat} (hi : i < n) (r : Nat) :
    slice ((List.range' r n).flatMap f) (8 * i) 8 = f (r + i) := by
  induction n generalizing r i with
  | zero => exact absurd hi (Nat.not_lt_zero i)
  | succ n ih =>
    rw [List.range'_succ, List.flatMap_cons]
    cases i with
    | zero => simp [slice, hlen]
    | succ i =>
      have hdrop : (f r ++ (List.range' (r + 1) n).flatMap f).drop (8 * (i + 1)) = ((List.range' (r + 1) n).flatMap f).drop (8 * i) := by
        rw [List.drop_append, hlen, List.drop_eq_nil_of_le (by rw [hlen]; omega), List.nil_append]
        congr 1
      rw [slice, hdrop, ← slice, ih (Nat.lt_of_succ_lt_succ hi), Nat.add_right_comm, Nat.add_assoc]

theorem slice_flatMap_range {f : Nat → List Byte} (hlen : ∀ i, (f i).length = 8) {n i : Nat} (hi : i < n) :
    slice ((List.range n).flatMap f) (8 * i) 8 = f i := by
  rw [List.range_eq_range', slice_flatMap_range' hlen hi, Nat.zero_add]

theorem length_flatMap_range {f : Nat → List Byte} (hlen : ∀ i, (f i).length = 8) (n : Nat) :
    ((List.range n).flatMap f).length = 8 * n := by
  simp [List.length_flatMap, hlen, Nat.mul_comm]

theorem State.length_regLine (s : State) (e r : Nat) : (s.regLine e r).length = 64 := length_flatMap_range (fun _ => length_leBytes _ _) 8

theorem length_freeWord (s : State) (e r i : Nat) :
    (if r + i < 64 then leBytes 8 (s.g e (r + i)).toNat else leBytes 8 (Config.free (s.fresh + i)).toNat).length = 8 := by
  split <;> exact length_leBytes _ _

theorem State.length_freeLine (s : State) (e r : Nat) : (s.freeLine e r).length = 64 := length_flatMap_range (length_freeWord s e r) 8

theorem State.slice_freeLine (s : State) (e r : Nat) {i : Nat} (hi : i < 8) (hr : r + i < 64) :
    slice (s.freeLine e r) (8 * i) 8 = leBytes 8 (s.g e (r + i)).toNat :=
  (slice_flatMap_range (length_freeWord s e r) hi).trans (if_pos hr)

theorem State.regLine_charged (s : State) (e r : Nat) : (s.charged e).regLine e r = s.regLine e r := by
  simp only [State.regLine, State.g_charged]

/-- LDL and STL move a line (R187). -/
theorem szBytes_of_line {w : Word64} (h : legal w = true) (hop : wOp w = 0x23 ∨ wOp w = 0x24) : szBytes (wSz w) = 64 := by
  have hsz : wSz w = 4 := by
    have := rowOk_of_legal h
    rcases hop with hop | hop <;> simp [rowOk, hop] at this
    · exact this.1
    · exact this
  rw [hsz]
  rfl

/-! ## Ranges behind a handle: reached, or the fault that keeps them out of reach -/

section
variable {s : State} {e a n : Nat} {h : Handle} {l : List Byte}

theorem State.withBytes_beyond {k : List Byte → Effect} (hbeyond : h.size < a + n) : s.withBytes e h a n k = .fault 0x02 0 := by
  simp only [State.withBytes, State.readSpace, if_pos hbeyond]

theorem State.withStore_locked {k : State → Effect} (hlocked : s.setLocked h = true ∨ h.readOnly = true) :
    s.withStore e h a l k = .fault 0x04 0 := by
  simp only [State.withStore, State.writeSpace, if_pos hlocked]

theorem State.withStore_beyond {k : State → Effect} (hset : s.setLocked h = false) (hro : h.readOnly = false) (hbeyond : h.size < a + l.length) :
    s.withStore e h a l k = .fault 0x02 0 := by
  simp [State.withStore, State.writeSpace, hset, hro, hbeyond]

theorem State.withStore_charged {k : State → Effect} (hset : s.setLocked h = false) (hro : h.readOnly = false) (hfit : a + l.length ≤ h.size) :
    (s.charged e).withStore e h a l k = k ((s.charged e).putSpace e h a l) :=
  State.withStore_ok (State.writeSpace_charged s e h a l hset hro hfit)

/-- A register block is read as the block of the state with the budget unit used. -/
theorem State.readReg_charged (s : State) (e off : Nat) : (s.charged e).readReg off = s.readReg off := by
  obtain ⟨l, n, hcharged⟩ := s.charged_eq e
  rw [hcharged]
  rfl

theorem State.withBytes_charged {k : List Byte → Effect} (hkind : h.kind ∈ memKinds ∨ h.kind = 10) (hfit : a + n ≤ h.size)
    (hlost : s.readLost h a n = false) : (s.charged e).withBytes e h a n k = k (s.spaceBytes e h a n) := by
  have hspace : (s.charged e).spaceBytes e h a n = s.spaceBytes e h a n := by
    rcases hkind with hkind | hkind
    · exact State.spaceBytes_charged s e h a n hkind
    · simp only [State.spaceBytes, hkind, State.readReg_charged]
  have hread : (s.charged e).readSpace e h a n = .ok (s.spaceBytes e h a n) := by
    rw [State.readSpace, if_neg (Nat.not_lt.mpr hfit), State.readLost_charged, hlost, if_neg Bool.false_ne_true, hspace]
  exact State.withBytes_ok hread

end

/-! ## The handle of an access (R176, R183) -/

section
variable {s : State} {e need : Nat} {w : Word64} {regs : Bool} {k : Handle → Nat → Effect} {h : Handle}

theorem memAddr_charged (s : State) (e : Nat) (w : Word64) :
    memAddr (s.charged e) e w = (s.g e (wRa w) + (BitVec.ofNat 33 w.toNat).signExtend 64).toNat := by
  rw [memAddr, State.g_charged, wOff]

theorem withMem_none (hh : (s.engine e).handle (wHs w) = none) : withMem (s.charged e) e w need regs k = .fault 0x04 0 := by
  rw [withMem, State.withHandle, State.handle_charged, hh]

theorem withMem_rights (hh : (s.engine e).handle (wHs w) = some h) (hr : h.rights &&& need ≠ need) :
    withMem (s.charged e) e w need regs k = .fault 0x04 0 := by
  rw [withMem, State.withHandle, State.handle_charged, hh]
  simp [hr]

theorem withMem_kind (hh : (s.engine e).handle (wHs w) = some h) (hk : h.kind ∉ [1, 2, 3, 4, 5, 9, 10]) :
    withMem (s.charged e) e w need regs k = .fault 0x04 0 := by
  have hkind : (if regs && szBytes (wSz w) == 8 then 10 :: memKinds else memKinds).contains h.kind = false := by
    split <;> simp [memKinds] at hk ⊢ <;> tauto
  rw [withMem, State.withHandle, State.handle_charged, hh]
  simp only [hkind, Bool.false_and, Bool.false_eq_true, if_false]

theorem withMem_reaches (hh : (s.engine e).handle (wHs w) = some h) (hr : h.rights &&& need = need)
    (hk : h.kind ∈ memKinds ∨ (h.kind = 10 ∧ szBytes (wSz w) = 8 ∧ regs = true)) {a : Nat}
    (ha : a = (s.g e (wRa w) + (BitVec.ofNat 33 w.toNat).signExtend 64).toNat) :
    withMem (s.charged e) e w need regs k = if a % szBytes (wSz w) ≠ 0 then .fault 0x03 0 else k h a := by
  have hkind : (if regs && szBytes (wSz w) == 8 then 10 :: memKinds else memKinds).contains h.kind = true := by
    rcases hk with hk | ⟨hk, hsz, rfl⟩
    · split <;> simp [hk]
    · simp [hk, hsz]
  rw [withMem, State.withHandle_some (h := h) (by rw [State.handle_charged]; exact hh) hkind hr, memAddr_charged, ← ha]

end

/-! ## Storing changes no free value, and a store into the local space changes nothing else -/

theorem State.fresh_forEach {α : Type} (l : List α) (f : State → α → State) (hf : ∀ s x, (f s x).fresh = s.fresh) (s : State) :
    (s.forEach l f).fresh = s.fresh := by
  induction l generalizing s with
  | nil => rfl
  | cons x l ih => exact (ih (f s x)).trans (hf s x)

theorem State.fresh_writeHbm (s : State) (area a : Nat) (l : List Byte) : (s.writeHbm area a l).fresh = s.fresh := by
  unfold State.writeHbm
  split
  · exact State.fresh_forEach (List.range _) (fun s k => s.setDirLine (a / 64 + k) (slice _ (64 * k) 64)) (fun _ _ => rfl) s
  · rfl
  · rfl

theorem State.fresh_writeOwn (s : State) (e : Nat) (h : Handle) (a : Nat) (l : List Byte) : (s.writeOwn e h a l).fresh = s.fresh := by
  unfold State.writeOwn
  split <;> rfl

theorem State.fresh_charged (s : State) (e : Nat) : (s.charged e).fresh = s.fresh := by
  obtain ⟨l, n, hcharged⟩ := s.charged_eq e
  rw [hcharged]

theorem State.fresh_putSpace {h : Handle} (hk : h.kind ∈ memKinds) (s : State) (e a : Nat) (l : List Byte) :
    (s.putSpace e h a l).fresh = s.fresh := by
  simp only [memKinds, List.mem_cons, List.not_mem_nil, or_false] at hk
  rcases hk with hk | hk | hk | hk | hk | hk <;> simp only [State.putSpace, hk]
  · exact s.fresh_writeOwn e h a l
  · exact s.fresh_writeOwn e h a l
  · exact s.fresh_writeHbm h.obj a l
  · split <;> rfl

theorem State.putSpace_local {s : State} {e : Nat} {w : Word64} {lvl : Level} (hexec : s.executes e lvl w) {h : Handle} (hk : h.kind = 1) (a : Nat)
    (l : List Byte) : ((s.charged e).putSpace e h a l).setPc e ((s.engine e).pc + 1)
      = s.stepped e { s.engine e with localMem := (s.engine e).localMem.writeBytes a l } := by
  have hput : (s.charged e).putSpace e h a l = (s.charged e).setEngine e { (s.charged e).engine e with
      localMem := ((s.charged e).engine e).localMem.writeBytes a l } := by
    simp only [State.putSpace, hk, State.writeOwn, if_true]
  rw [hput, State.setPc_running _ _ (by simp [hexec.running]), State.engine_setEngine_self, State.setEngine_setEngine, State.charged_setEngine,
    State.engine_charged]
  rfl

/-! ## The accesses to memory, each through the handle its word names -/

/-- What the accesses share: the effect behind the handle, and the faults of a range that may not be written or lies beyond the space. -/
theorem exec_access {s : State} {e need : Nat} {w : Word64} {i : Instr} (hi : (wOp w, i) ∈ [(0x20, Instr.ld e), (0x21, .lds e), (0x22, .st e),
    (0x23, .ldl e), (0x24, .stl e), (0x25, .cas e), (0x26, .fadd e)]) (hexec : s.executes e .tenant w)
    (hneed : need = if wOp w ∈ [0x20, 0x21, 0x23] then 1 else if wOp w ∈ [0x22, 0x24] then 2 else 3) :
    ∃ regs k, exec i s = .next (s.settleEffect (s.charged e) e w (withMem (s.charged e) e w need regs k))
      ∧ (∀ h a, need ≠ 1 → s.setLocked h = true ∨ h.readOnly = true → k h a = .fault 0x04 0)
      ∧ ∀ h a, s.setLocked h = false → h.readOnly = false → h.size < a + szBytes (wSz w) → k h a = .fault 0x02 0 := by
  have hlegal : legal w = true := hexec.2.2.1
  have hset (h : Handle) : (s.charged e).setLocked h = s.setLocked h := State.setLocked_charged s e h
  simp only [List.mem_cons, List.not_mem_nil, or_false, Prod.mk.injEq] at hi
  obtain ⟨hop, rfl⟩ | ⟨hop, rfl⟩ | ⟨hop, rfl⟩ | ⟨hop, rfl⟩ | ⟨hop, rfl⟩ | ⟨hop, rfl⟩ | ⟨hop, rfl⟩ := hi <;> simp [hop] at hneed <;> subst hneed
  · exact ⟨_, _, next_congr (State.issue_executes hexec hop), fun h a hw => absurd rfl hw, fun h a _ _ hbeyond => State.withBytes_beyond hbeyond⟩
  · exact ⟨_, _, next_congr (State.issue_executes hexec hop), fun h a hw => absurd rfl hw, fun h a _ _ hbeyond => State.withBytes_beyond hbeyond⟩
  · exact ⟨_, _, next_congr (State.issue_executes hexec hop), fun h a _ hlocked => State.withStore_locked (by rwa [hset]),
      fun h a hfree hro hbeyond => State.withStore_beyond (by rwa [hset]) hro (by rwa [length_szStore])⟩
  · exact ⟨_, _, next_congr (State.issue_executes hexec hop), fun h a hw => absurd rfl hw,
      fun h a _ _ hbeyond => State.withBytes_beyond (by rwa [szBytes_of_line hlegal (.inl hop)] at hbeyond)⟩
  · refine ⟨_, _, next_congr (State.issue_executes hexec hop), fun h a _ hlocked => ?_, fun h a hfree hro hbeyond => ?_⟩
    · exact (ite_congr rfl (fun _ => State.withStore_locked (by rwa [hset])) fun _ => State.withStore_locked (by rwa [hset])).trans (ite_self _)
    · rw [szBytes_of_line hlegal (.inr hop)] at hbeyond
      exact (ite_congr rfl (fun _ => State.withStore_beyond (by rwa [hset]) hro (by rwa [State.length_freeLine]))
        fun _ => State.withStore_beyond (by rwa [hset]) hro (by rwa [State.length_regLine])).trans (ite_self _)
  · exact ⟨_, _, next_congr (State.issue_executes hexec hop), fun h a _ hlocked => if_pos (by rwa [hset]),
      fun h a hfree hro hbeyond => (if_neg (by simp [hset, hfree, hro])).trans (State.withBytes_beyond hbeyond)⟩
  · exact ⟨_, _, next_congr (State.issue_executes hexec hop), fun h a _ hlocked => if_pos (by rwa [hset]),
      fun h a hfree hro hbeyond => (if_neg (by simp [hset, hfree, hro])).trans (State.withBytes_beyond hbeyond)⟩

/-- Settles O8. -/
theorem loadAndStoreResults : Obligations.LoadAndStoreResults := by
  unfold Obligations.LoadAndStoreResults
  refine ⟨?_, ?_, ?_⟩
  · rintro s e w h a n l hexec hh hkind hr ha rfl hal hfit hlost rfl
    have hlegal : legal w = true := hexec.2.2.1
    have hbytes {k : List Byte → Effect} := State.withBytes_charged (e := e) (k := k) (hkind.imp_right And.left) hfit hlost
    have hword {regs : Bool} {k : Handle → Nat → Effect} (hregs : wOp w ≠ 0x23 → regs = true) :
        withMem (s.charged e) e w 1 regs k = k h a := by
      rw [withMem_reaches hh hr (hkind.imp_right fun ⟨hk, hsz, hop⟩ => ⟨hk, hsz, hregs hop⟩) ha, if_neg (not_not.mpr hal)]
    refine ⟨fun hop => ?_, fun hop => ?_, fun hop => ?_⟩
    · exact next_congr (State.issue_putG hexec hop ((hword fun _ => rfl).trans hbytes))
    · exact next_congr (State.issue_putG hexec hop ((hword fun _ => rfl).trans hbytes))
    · have hline := szBytes_of_line hlegal (.inl hop)
      refine ⟨hline, next_congr ?_⟩
      rw [hline] at hbytes
      rw [State.issue_putGs hexec hop ((hword fun h => absurd hop h).trans hbytes), hline]
      rfl
  · rintro s e w h a n hexec hh hkind hr hset hro ha rfl hal hfit l hl
    have hlegal : legal w = true := hexec.2.2.1
    have hlen : l.length = szBytes (wSz w) := by
      rw [hl]
      split
      · next hop => exact (s.length_regLine e (wRd w)).trans (szBytes_of_line hlegal (.inr hop)).symm
      · exact length_szStore _ _
    have hword {regs : Bool} {k : Handle → Nat → Effect} (hregs : wOp w = 0x22 → regs = true) :
        withMem (s.charged e) e w 2 regs k = k h a := by
      rw [withMem_reaches hh hr (hkind.imp_right fun ⟨hk, hsz, hop⟩ => ⟨hk, hsz, hregs hop⟩) ha, if_neg (not_not.mpr hal)]
    have hstore {k : State → Effect} {m : List Byte} (hm : m.length = szBytes (wSz w)) :
        (s.charged e).withStore e h a m k = k ((s.charged e).putSpace e h a m) := State.withStore_charged hset hro (by rwa [hm])
    refine ⟨hlen, fun hop => ?_, fun hop hrd => ?_, fun hop hrd => ?_, fun hk hwf => ⟨State.putSpace_local hexec hk a l, ?_, fun c hc => ?_⟩⟩
    · rw [hl, if_neg (by rw [hop]; decide)] at hlen ⊢
      refine next_congr (State.issue_setPc hexec hop ((hword fun _ => rfl).trans ?_))
      rw [State.g_charged]
      exact hstore hlen
    · rw [hl, if_pos hop] at hlen ⊢
      refine next_congr (State.issue_setPc hexec hop ((hword fun h => absurd (hop.symm.trans h) (by decide)).trans ?_))
      rw [if_neg (Nat.not_lt.mpr hrd), State.regLine_charged]
      exact hstore hlen
    · have hmem : h.kind ∈ memKinds := hkind.resolve_right fun ⟨_, _, h22⟩ => absurd (hop.symm.trans h22) (by decide)
      have hline : ((s.charged e).freeLine e (wRd w)).length = szBytes (wSz w) :=
        (State.length_freeLine _ _ _).trans (szBytes_of_line hlegal (.inr hop)).symm
      refine ⟨(s.charged e).freeLine e (wRd w), hline, fun i hi hr => ?_, next_congr (State.issue_setPc hexec hop ?_)⟩
      · rw [State.slice_freeLine _ _ _ hi hr, State.g_charged]
      · refine (hword fun h => absurd (hop.symm.trans h) (by decide)).trans ((if_pos hrd).trans ((hstore hline).trans ?_))
        rw [State.fresh_putSpace hmem, State.fresh_charged]
    · rw [← hlen]
      exact Memory.readBytes_writeBytes hwf a l
    · rcases hc with hc | hc
      · exact Memory.read_writeBytes_below _ l hc
      · exact Memory.read_writeBytes_above _ l (by rwa [hlen])
  · rintro s e a n need w i hi hexec hneed ha rfl
    obtain ⟨regs, k, hrun, hlocked, hbeyond⟩ := exec_access hi hexec hneed
    have hfault {c : Nat} (heffect : withMem (s.charged e) e w need regs k = .fault c 0) :
        exec i s = .next ((s.charged e).faultProgram e c) := by rw [hrun, heffect]; rfl
    refine ⟨fun hnone => hfault (withMem_none hnone), fun h hh => ⟨fun hr => hfault (withMem_rights hh hr), fun hk => hfault (withMem_kind hh hk),
      fun hr hk => ?_⟩⟩
    have hreach := withMem_reaches (regs := regs) (k := k) hh hr (.inl hk) ha
    refine ⟨fun hal => hfault ?_, fun hal hw hlock => hfault ?_, fun hal hfree hro hsize => hfault ?_⟩
    · rw [hreach, if_pos hal]
    · rw [hreach, if_neg (not_not.mpr hal), hlocked h a hw hlock]
    · rw [hreach, if_neg (not_not.mpr hal), hbeyond h a hfree hro hsize]

end Sys2Proof.Machine
end

section
/-! Atomics, copies, seals, route look-up, installs and staging by instruction (R104, R147, R155, R185, R187). -/

namespace Sys2Proof.Machine

section
variable {s : State} {e : Nat} {w : Word64}

/-! ## Atomics (R187) -/

/-- An atomic on a range it reaches: what it reads, and what it writes, if anything. -/
theorem atomic_reaches {f : State → Word64 → Nat → Option Nat} {h : Handle} {a old : Nat} (hh : (s.engine e).handle (wHs w) = some h)
    (hk : h.kind ∈ memKinds) (hr : h.rights &&& 3 = 3) (hset : s.setLocked h = false) (hro : h.readOnly = false)
    (ha : a = (s.g e (wRa w) + (BitVec.ofNat 33 w.toNat).signExtend 64).toNat) (hal : a % szBytes (wSz w) = 0)
    (hfit : a + szBytes (wSz w) ≤ h.size) (hlost : s.readLost h a (szBytes (wSz w)) = false)
    (hold : old = szValue (wSz w) (s.spaceBytes e h a (szBytes (wSz w)))) :
    atomic e f (s.charged e) w = match f (s.charged e) w old with
      | none => .done ((s.charged e).putG e (wRd w) (BitVec.ofNat 64 old))
      | some v => .done (((s.charged e).putSpace e h a (szStore (wSz w) v)).putG e (wRd w) (BitVec.ofNat 64 old)) := by
  have hopen : ¬ ((s.charged e).setLocked h = true ∨ h.readOnly = true) := by simp [State.setLocked_charged, hset, hro]
  refine (withMem_reaches hh hr (.inl hk) ha).trans ((if_neg (not_not.mpr hal)).trans ((if_neg hopen).trans
    ((State.withBytes_charged (.inl hk) hfit hlost).trans ?_)))
  rw [← hold]
  dsimp only
  cases f (s.charged e) w old with
  | none => rfl
  | some v => exact State.withStore_charged hset hro (by rwa [length_szStore])

/-! ## The tables, read through the charged state -/

theorem State.rte_charged (s : State) (e : Nat) : (s.charged e).rte = s.rte := by
  obtain ⟨l, n, hcharged⟩ := s.charged_eq e
  rw [hcharged]

theorem State.withHandle_charged {i need : Nat} {kinds : List Nat} {k : Handle → Effect} {h : Handle} (hh : (s.engine e).handle i = some h)
    (hk : kinds.contains h.kind = true) (hr : h.rights &&& need = need) : (s.charged e).withHandle e i kinds need k = k h :=
  State.withHandle_some (by rwa [State.handle_charged]) hk hr

theorem State.async_charged {t : Tag} {rd : Nat} {k : State → Nat → State} (hroom : (s.engine e).outstanding < 256) :
    (s.charged e).async e rd t k = .done (k ((s.charged e).openTag e rd t) (s.engine e).nextTag) := by
  have hout : ((s.charged e).engine e).outstanding = (s.engine e).outstanding := by simp [Engine.outstanding]
  rw [State.async, hout, if_neg (Nat.not_le.mpr hroom), State.nextTag, State.engine_charged]

theorem State.async_charged_full {t : Tag} {rd : Nat} {k : State → Nat → State} (hfull : 256 ≤ (s.engine e).outstanding) :
    (s.charged e).async e rd t k = .stay := by
  have hout : ((s.charged e).engine e).outstanding = (s.engine e).outstanding := by simp [Engine.outstanding]
  rw [State.async, hout, if_pos hfull]

theorem State.sets_openTag_charged (s : State) (e rd : Nat) (t : Tag) : ((s.charged e).openTag e rd t).sets = s.sets := by
  obtain ⟨l, n, hcharged⟩ := s.charged_eq e
  rw [hcharged]
  rfl

end

/-- Settles O9. -/
theorem tableAndCopyResults : Obligations.TableAndCopyResults := by
  unfold Obligations.TableAndCopyResults
  refine ⟨?_, ?_, ?_, ?_⟩
  · rintro s e w h a n old hexec hh hk hr hset hro ha rfl hal hfit hlost hold
    have hatomic {f : State → Word64 → Nat → Option Nat} := atomic_reaches (f := f) hh hk hr hset hro ha hal hfit hlost hold
    refine ⟨fun hop heq => next_congr (State.issue_setPc hexec hop (hatomic.trans ?_)),
      fun hop hne => next_congr (State.issue_putG hexec hop (hatomic.trans ?_)), fun hop => next_congr (State.issue_setPc hexec hop (hatomic.trans ?_))⟩
    · simp only [State.g_charged, if_pos heq]
    · simp only [State.g_charged, if_neg hne]
    · simp only [State.g_charged]
  · rintro s e w h d a b n f hexec hh hk rfl rfl hfit hlost
    have hbytes {k : List Byte → Effect} := State.withBytes_charged (e := e) (k := k) (.inl hk) hfit hlost
    refine ⟨fun hop hr hd hdk hdr hdset hdro hb ha64 hb64 hn64 hn hdfit => next_congr (State.issue_setPc hexec hop ?_),
      fun hop hr hset hro hf hfit4 c hc => next_congr (State.issue_setPc hexec hop ?_)⟩
    · have hal : ¬ ((s.g e (wRa w)).toNat % 64 ≠ 0 ∨ (s.g e (wRd w)).toNat % 64 ≠ 0 ∨ (s.g e (wRb w)).toNat % 64 ≠ 0) := by
        rw [← hb]
        omega
      simp only [State.g_charged]
      refine (State.withHandle_charged hh (by simpa [memKinds] using hk) hr).trans ((State.withHandle_charged hd (by simpa [memKinds] using hdk) hdr).trans ?_)
      rw [if_neg hal, if_neg (Nat.not_lt.mpr hn), hbytes, ← hb, State.withStore_charged hdset hdro hdfit]
    · simp only [State.g_charged]
      refine (State.withHandle_charged hh (by simpa [memKinds] using hk) hr).trans (hbytes.trans ?_)
      rw [← hf, ← hc]
      exact State.withStore_charged hset hro (by rwa [length_leBytes])
  · rintro s e w h r hexec hop hh hk hr hobj hroute
    refine next_congr (State.issue_putGs (l := routeRegs r) hexec hop ?_)
    refine (State.withHandle_charged hh (by simp [hk]) hr).trans ((if_neg (Nat.not_lt.mpr hobj)).trans ?_)
    simp only [State.g_charged, State.rte_charged, hroute, wMod3, wf, beq_iff_eq]
  · rintro s t e n w h hexec hh rfl
    refine ⟨fun hop hk hr hset => ⟨fun hfull => next_congr (State.issue_stay hexec hop ?_),
      fun hroom ht x sets hx hparse => next_congr (State.issue_setPc hexec hop ?_)⟩,
      fun hop hk hr a l ha hfit hlost hl m hm hfitm hlostm r hrec hok hroom ht hsec => next_congr (State.issue_setPc hexec hop ?_)⟩
    · refine (State.withHandle_charged hh (by simp [hk]) hr).trans ((if_neg (by simp [State.setLocked_charged, hset])).trans ?_)
      exact State.async_charged_full hfull
    · refine (State.withHandle_charged hh (by simp [hk]) hr).trans ((if_neg (by simp [State.setLocked_charged, hset])).trans ?_)
      refine (State.async_charged hroom).trans ?_
      rw [← ht, hparse]
      have hget : t.sets.get h.obj = some x := by rw [ht, State.sets_openTag_charged, hx]
      simp only [hget]
    · refine (State.withHandle_charged hh (by simpa [memKinds] using hk) hr).trans ?_
      rw [State.g_charged, ← ha]
      refine (State.withBytes_charged (.inl hk) hfit hlost).trans ?_
      rw [hl, ← hm]
      refine (State.withBytes_charged (.inl hk) hfitm hlostm).trans ((State.async_charged hroom).trans ?_)
      rw [← ht]
      simp only [← hrec, hok, hsec, and_self, if_true]

end Sys2Proof.Machine
end

section
/-! SEND, RREAD and RWRITE (R99, R188). -/

namespace Sys2Proof.Machine

section
variable {s : State} {e : Nat} {w : Word64}

/-! ## What a SEND reads of the state -/

theorem State.bufferPacket_charged (s : State) (e obj : Nat) : (s.charged e).bufferPacket e obj = s.bufferPacket e obj := by
  have hfid : (s.charged e).fid = s.fid := by
    obtain ⟨l, n, hcharged⟩ := s.charged_eq e
    rw [hcharged]
    rfl
  simp only [State.bufferPacket, hfid, State.engine_charged]

theorem State.tenantSend_charged (s : State) (e : Nat) (hdr : Header) : (s.charged e).tenantSend e hdr = s.tenantSend e hdr := by
  have hengine := State.engine_charged s e
  obtain ⟨l, n, hcharged⟩ := s.charged_eq e
  rw [hcharged] at hengine ⊢
  simp only [State.tenantSend, hengine]
  rfl

/-- The effect of a SEND of a packet that its level allows. -/
def sendEffect (s : State) (e : Nat) (w : Word64) (i : Nat) (p : Packet) : Effect :=
  if wMod3 w then
    if (headerFault p.hdr).isSome then .done ((s.putG e (wRd w) 0xF6).putP e (wSp w) false)
    else if unanswered p.hdr then .done (((s.sendProgram p .other).putG e (wRd w) 0).putP e (wSp w) true)
    else .block (s.sendProgram p (.sendBlock e)) (.answer (wRd w) (wSp w) false)
  else s.async e (wRd w) { kind := .send, handles := [i] } fun t n =>
    if (headerFault p.hdr).isSome then t.completeTag e n 0xF6 0
    else if unanswered p.hdr then (t.sendProgram p .other).completeTag e n 0 0
    else t.sendProgram p (.sendTag e n)

/-- A SEND that its level allows, on a message buffer it may read and emit, has its effect. -/
theorem exec_send_allowed {h : Handle} {p : Packet} (hexec : s.executes e .tenant w) (hop : wOp w = 0x30)
    (hh : (s.engine e).handle (wHa w) = some h) (hk : h.kind = 2) (hr : h.rights &&& 5 = 5) (hp : p = s.bufferPacket e h.obj)
    (hlevel : (s.engine e).level ≠ .tenant ∨ s.tenantSend e p.hdr = true) :
    exec (.send e) s = .next (s.settleEffect (s.charged e) e w (sendEffect (s.charged e) e w (wHa w) p)) := by
  refine next_congr ((State.issue_executes hexec hop).trans (congrArg (s.settleEffect (s.charged e) e w) ?_))
  refine (State.withHandle_charged hh (by simp [hk]) hr).trans ?_
  dsimp only
  rw [State.bufferPacket_charged, ← hp, State.tenantSend_charged, if_neg]
  · rfl
  · rintro ⟨ht, hs⟩
    rcases hlevel with hl | hl
    · exact hl (by simpa using ht)
    · simp [hl] at hs

/-- The charged state with another engine, its budget unit used, goes on: the engine has stepped. -/
theorem State.setPc_setEngine_charged {x : Engine} (hr : x.running = true) :
    ((s.charged e).setEngine e { x with budget := (s.engine e).budget - 1 }).setPc e ((s.engine e).pc + 1) = s.stepped e x := by
  rw [State.setPc_running _ _ (by simpa using hr), State.engine_setEngine_self, State.setEngine_setEngine, State.charged_setEngine]
  rfl

/-- A register request of an engine, the budget unit used. -/
theorem State.regRequest_charged (s : State) (e : Nat) (dest : Fid) (typ : BitVec 8) (off : Nat) (payload : List Byte) :
    (s.charged e).regRequest e dest typ off payload = (s.charged e).sendProgram {
      hdr := { dest := dest, src := s.fid, cls := .control, typ := typ, length := lenOf payload, partition := (s.engine e).partition
               addr := BitVec.ofNat 57 off, stream := BitVec.ofNat 16 (0xFF00 + e) }
      payload := payload } (.sendBlock e) := by
  have hfid : (s.charged e).fid = s.fid := by
    obtain ⟨l, n, hcharged⟩ := s.charged_eq e
    rw [hcharged]
    rfl
  rw [State.regRequest, hfid, State.engine_charged]
  rfl

end

/-- Settles O10. -/
theorem sendAndRegisterResults : Obligations.SendAndRegisterResults := by
  unfold Obligations.SendAndRegisterResults
  constructor
  · rintro s e n w h p hexec hop hh hk hr hp hlevel rfl
    rw [exec_send_allowed hexec hop hh hk hr hp hlevel]
    refine ⟨by rw [hp]; rfl, by rw [hp]; rfl, by rw [hp]; rfl, by rw [hp]; rfl, fun hgood hans => ⟨fun hmod => next_congr ?_,
      fun hmod hroom => next_congr ?_⟩, fun hgood hans hmod => next_congr ?_, fun hbad hmod => next_congr ?_⟩
    · simp [sendEffect, hmod, hgood, hans, State.settleEffect]
    · simp [sendEffect, hmod, hgood, hans, State.async_charged hroom, State.settleEffect]
    · simp [sendEffect, hmod, hgood, hans, State.settleEffect]
    · have hput := State.putG_putP (s.charged e) e (wRd w) (wSp w) 0xF6 false { s.engine e with budget := (s.engine e).budget - 1 }
      rw [State.setEngine_engine_charged, Engine.withResult_withBudget] at hput
      have hpc : ((s.charged e).engine e).pc = (s.engine e).pc := by simp
      rw [sendEffect, if_pos hmod, if_pos hbad, State.settleEffect, hput, hpc]
      exact State.setPc_setEngine_charged (x := (s.engine e).withResult (wRd w) (wSp w) 0xF6 false) (by simp [Engine.withResult, hexec.running])
  · rintro s e w request hexec rfl
    refine ⟨fun hop => next_congr (State.issue_block hexec hop ?_), fun hop => next_congr (State.issue_block hexec hop ?_)⟩
    · rw [State.regRequest_charged, State.g_charged]
    · rw [State.regRequest_charged, State.g_charged, State.g_charged]

end Sys2Proof.Machine
end

section
/-! The collective and the placement class of instructions (R190, R191). -/

namespace Sys2Proof.Machine

section
variable {s : State} {e : Nat} {w : Word64}

theorem State.setPc_withSq (s : State) (q : SquareSt) (e pc : Nat) : ({ s with sq := q } : State).setPc e pc = { s.setPc e pc with sq := q } :=
  State.setPc_comm (f := fun s => { s with sq := q }) (fun _ => rfl) (fun _ _ _ => rfl) s e pc

theorem State.setPc_setDirLine (s : State) (i : Nat) (l : List Byte) (e pc : Nat) : (s.setDirLine i l).setPc e pc = (s.setPc e pc).setDirLine i l :=
  State.setPc_comm (f := fun s => s.setDirLine i l) (fun _ => rfl) (fun _ _ _ => rfl) s e pc

theorem State.sq_charged (s : State) (e : Nat) : (s.charged e).sq = s.sq := by
  obtain ⟨l, n, hcharged⟩ := s.charged_eq e
  rw [hcharged]

theorem State.grp_charged (s : State) (e : Nat) : (s.charged e).grp = s.grp := by
  obtain ⟨l, n, hcharged⟩ := s.charged_eq e
  rw [hcharged]

theorem State.plc_charged (s : State) (e : Nat) : (s.charged e).plc = s.plc := by
  obtain ⟨l, n, hcharged⟩ := s.charged_eq e
  rw [hcharged]

/-- A row of registers and a predicate, and on. -/
theorem State.issue_putGs_putP {op r i : Nat} {b : Bool} {l : List Word64} {lvl : Level} {body : State → Word64 → Effect}
    (h : s.executes e lvl w) (hop : wOp w = op) (hbody : body (s.charged e) w = .done (((s.charged e).putGs e r l).putP e i b)) :
    s.issue e op lvl body
      = s.stepped e (((List.range l.length).foldl (fun (x : Engine) i => x.setG (r + i) (l.getD i 0)) (s.engine e)).setP i b) := by
  have hput := State.putGs_eq (s.charged e) e r l { s.engine e with budget := (s.engine e).budget - 1 }
  rw [State.setEngine_engine_charged, Engine.foldl_setG_withBudget] at hput
  refine State.issue_setEngine h hop (by simp [Engine.foldl_setG_running, h.running]) (hbody.trans ?_)
  rw [hput, State.putP, State.engine_setEngine_self, State.setEngine_setEngine, Engine.setP_withBudget]

/-- An engine with a tag opened and its number in a register. -/
def Engine.openTag (x : Engine) (rd : Nat) (t : Tag) : Engine :=
  ({ x with tags := x.tags.set x.nextTag t, nextTag := x.nextTag + 1 } : Engine).setG rd (BitVec.ofNat 64 x.nextTag)

theorem State.setPc_openTag_charged {lvl : Level} (hexec : s.executes e lvl w) (rd : Nat) (t : Tag) :
    ((s.charged e).openTag e rd t).setPc e ((s.engine e).pc + 1) = s.stepped e ((s.engine e).openTag rd t) := by
  have hopen : (s.charged e).openTag e rd t = (s.charged e).setEngine e { (s.engine e).openTag rd t with budget := (s.engine e).budget - 1 } := by
    rw [State.openTag, State.engine_charged]
    exact congrArg ((s.charged e).setEngine e)
      (Engine.setG_withBudget { s.engine e with tags := (s.engine e).tags.set (s.engine e).nextTag t, nextTag := (s.engine e).nextTag + 1 } _ _ _)
  rw [hopen, State.setPc_setEngine_charged (by simp [Engine.openTag, hexec.running])]

end

/-- Settles O12. -/
theorem collectiveClassResults : Obligations.CollectiveClassResults := by
  unfold Obligations.CollectiveClassResults
  rintro s e n w h hexec rfl hh
  refine ⟨fun hop hk hr m a d hm hmk hmr ha hfit hlost hd hgroup hroom => ?_, fun hop hk hr => ⟨fun t hres => ?_, fun t st hres => ?_⟩,
    fun hop hk hr => ?_, fun hop i hi => ⟨fun hnone => ?_, fun g hg hother => ?_, fun g op l hg => ?_⟩,
    fun hop i d a b im hi hik hd hhk hhr hdk hdr ha hb hfit hlost him hentry hroom => ?_⟩
  · refine next_congr (State.issue_setPc hexec hop ?_)
    refine (State.withHandle_charged hm (by simpa [memKinds] using hmk) hmr).trans ((State.withHandle_charged hh (by simp [hk]) hr).trans ?_)
    rw [State.g_charged, ← ha]
    refine (State.withBytes_charged (.inl hmk) hfit hlost).trans ((State.async_charged hroom).trans ?_)
    rw [← hd]
    have hknown (t : Tag) : (((s.charged e).openTag e (wRd w) t).group h.obj).isSome = true := by
      rw [State.group, State.openTag, State.setEngine_grp, State.grp_charged]
      exact hgroup
    rw [if_pos (hknown _)]
  · refine next_congr (State.issue_block hexec hop ((State.withHandle_charged hh (by simp [hk]) hr).trans ?_))
    simp only [hres]
  · refine next_congr (State.issue_setPc hexec hop ((State.withHandle_charged hh (by simp [hk]) hr).trans ?_))
    simp only [hres]
  · exact next_congr (State.issue_setPc hexec hop (State.withHandle_charged hh (by simp [hk]) hr))
  · refine next_congr (State.issue_putG hexec hop ?_)
    simp only [State.g_charged, State.engine_charged, ← hi, hnone]
  · refine next_congr (State.issue_putG hexec hop ?_)
    simp only [State.g_charged, State.engine_charged, ← hi, hg]
    split
    · next heq =>
      obtain rfl := Option.some.inj heq
      rcases hother with hready | hkind
      · exact absurd rfl hready
      · exact absurd rfl (hkind _ _)
    · rfl
  · refine next_congr (State.issue_setPc hexec hop ?_)
    simp only [State.g_charged, State.engine_charged, ← hi, hg]
  · have him' (t : Tag) : ((s.charged e).openTag e (wRd w) t).sq = s.sq := by rw [State.openTag, State.setEngine_sq, State.sq_charged]
    refine next_congr ?_
    rw [State.issue_setPc (t := { (s.charged e).openTag e (wRd w)
        { kind := .imgrun i.obj (wImmH w) h a b d, handles := [wHa w, wHb w, wHd w] } with
      sq := { s.sq with images := s.sq.images.set i.obj { im with runs := im.runs ++ [(e, (s.engine e).nextTag)] } } }) hexec hop,
      State.setPc_withSq, State.setPc_openTag_charged hexec]
    · rfl
    simp only [State.g_charged, ← ha, ← hb]
    refine (State.withHandle_charged hi (by simp [hik]) (Nat.and_zero _)).trans ((State.withHandle_charged hh (by simpa [memKinds] using hhk) hhr).trans
      ((State.withHandle_charged hd (by simpa [memKinds] using hdk) hdr).trans ((State.withBytes_charged (.inl hhk) hfit hlost).trans
        ((State.async_charged hroom).trans ?_))))
    simp only [him', him, if_neg (Nat.not_le.mpr hentry)]

/-- Settles O13. -/
theorem placementClassResults : Obligations.PlacementClassResults := by
  unfold Obligations.PlacementClassResults
  rintro s e n x y w h rfl hx hy
  have hexpert (part layer ex : Nat) : (s.charged e).expertOf part layer ex = s.expertOf part layer ex := by
    rw [State.expertOf, State.plc_charged, State.expertOf]
  have hfind (q k : Nat) : (s.charged e).findPage q k = s.findPage q k := by rw [State.findPage, State.plc_charged, State.findPage]
  refine ⟨fun hexec hop hh hk hr => ?_, fun hexec hop hh hk hr v hv => ?_, fun hexec hop => ⟨fun i p hfound hown => ?_, fun hnone => ?_⟩,
    fun hexec hop i hline => ?_, fun hexec hop hh hk hr hsize hlost i p l hfound hstate hl hroom => ?_,
    fun hexec hop hh hk hr d fp items r hd hdk hdr hset hro hitems hrep hfit => ?_⟩
  · refine next_congr (State.issue_putGs (l := expertRegs _) hexec hop ((State.withHandle_charged hh (by simp [hk]) hr).trans ?_))
    simp only [State.g_charged, ← hx, ← hy, hexpert]
  · refine next_congr (State.issue_putG hexec hop ((State.withHandle_charged hh (by simp [hk]) hr).trans ?_))
    simp only [State.g_charged, ← hx, ← hy, hexpert, ← hv, State.engine_charged]
  · have hlen : (p.words.map (BitVec.ofNat 64)).length = p.words.length := List.length_map _
    refine next_congr ((State.issue_putGs_putP (r := wRd w) (l := p.words.map (BitVec.ofNat 64)) (i := wSp w) (b := true) hexec hop ?_).trans ?_)
    · have hseen : ¬ (((s.charged e).engine e).level = .tenant ∧ p.partition ≠ ((s.charged e).engine e).partition) := by
        simp only [State.engine_charged]
        tauto
      simp only [State.g_charged, ← hx, ← hy, hfind, hfound, if_neg hseen]
    · have hword (i : Nat) : (p.words.map (BitVec.ofNat 64)).getD i 0 = BitVec.ofNat 64 (p.words.getD i 0) := List.getD_map _ _ _
      simp only [hlen, hword]
  · refine next_congr ((State.issue_putGs_putP (r := wRd w) (l := List.replicate 8 0) (i := wSp w) (b := false) hexec hop ?_).trans rfl)
    simp only [State.g_charged, ← hx, ← hy, hfind, hnone]
  · have hline' : (s.charged e).pageLine x y = some i := by
      rw [State.pageLine, hfind, State.plc_charged, ← hline, State.pageLine]
    refine next_congr ((State.issue_setPc (t := (s.charged e).setDirLine i (s.regLine e (wRd w))) hexec hop ?_).trans ?_)
    · simp only [State.g_charged, ← hx, ← hy, hline', State.regLine_charged]
    · rw [State.setPc_setDirLine, State.setPc_charged hexec]
      rfl
  · refine next_congr (State.issue_setPc hexec hop ((State.withHandle_charged hh (by simpa [memKinds] using hk) hr).trans ?_))
    refine (State.withBytes_charged (.inl hk) (by omega) hlost).trans ?_
    rw [← hl]
    simp only [State.g_charged, ← hx, ← hy, hfind, hfound, State.async_charged hroom, if_pos hstate]
  · refine next_congr (State.issue_setPc hexec hop ((State.withHandle_charged hh (by simpa [memKinds] using hk) hr).trans ?_))
    refine (State.withHandle_charged hd (by simpa [memKinds] using hdk) hdr).trans ?_
    simp only [State.engine_charged, ← hitems, ← hrep]
    exact State.withStore_charged hset hro (by omega)

end Sys2Proof.Machine
end

section
/-! Register access and forced events at an agent (R67, R99, R365). -/

namespace Sys2Proof.Machine

section
variable {s : State} {a : AgentRef} {p : Packet}

/-! ## Requests of another source, and of the owner at an orphan -/

theorem State.regWriteReq_other (hcrc : p.crcOk = true) (hsent : s.ownerSent a p.hdr = false) (write : State → State × Bool) :
    s.regWriteReq a p write = (s.raiseAgent a 8 2 (p.hdr.src.setWidth 16)).regRespond a p.hdr 0 0xF2 := by
  simp only [State.regWriteReq, hcrc, hsent, Bool.true_eq_false, if_false, if_true]

theorem State.regWriteReq_orphan (hcrc : p.crcOk = true) (hsent : s.ownerSent a p.hdr = true) (horphan : s.orphan a = true)
    (write : State → State × Bool) : s.regWriteReq a p write = s := by
  simp only [State.regWriteReq, hcrc, hsent, horphan, Bool.true_eq_false, if_false, if_true]

theorem exec_regRead_other (hcrc : p.crcOk = true) (hsent : s.ownerSent a p.hdr = false) (lvl : Level) :
    exec (.regRead a p lvl) s = .next ((s.raiseAgent a 8 2 (p.hdr.src.setWidth 16)).regRespond a p.hdr 0 0xF2) := by
  simp only [exec, execRegRead, hcrc, hsent, Bool.true_eq_false, if_false, if_true]

theorem exec_regRead_orphan (hcrc : p.crcOk = true) (hsent : s.ownerSent a p.hdr = true) (horphan : s.orphan a = true) (lvl : Level) :
    exec (.regRead a p lvl) s = .next s := by
  simp only [exec, execRegRead, hcrc, hsent, horphan, Bool.true_eq_false, if_false, if_true]

/-- A read of the owner that arrives whole: the register, or what the spec gives in its place. -/
theorem exec_regRead_owner (h : s.ownerPacket a p) (lvl : Level) : exec (.regRead a p lvl) s =
    .next (let t := s.recordSeq (.agent a) p.hdr
      if jxExists (regOffset p.hdr) = false then t.regRespond a p.hdr 0 0xF2
      else if lvl = .tenant ∧ (regOffset p.hdr == JX_ID || regOffset p.hdr == JX_EPOCH) = false then
        (t.agentViolation a .tenant).regRespond a p.hdr 0 0
      else t.regRespond a p.hdr (s.jxRead a (regOffset p.hdr)) 0) := by
  obtain ⟨horphan, hsrc, howner, hcrc, -⟩ := h
  have hsent : s.ownerSent a p.hdr = true := by simp [State.ownerSent, hsrc, howner]
  simp only [exec, execRegRead, hcrc, hsent, horphan, Bool.true_eq_false, Bool.false_eq_true, if_false, State.jxRead_recordSeq]
  simp only [← apply_ite Host.Outcome.next]

end

/-- Settles O18. -/
theorem agentRegisterResults : Obligations.AgentRegisterResults := by
  unfold Obligations.AgentRegisterResults
  rintro s a p off v rfl
  refine ⟨fun hown hex => ?_, fun hown hex lvl => ?_, fun hown hex hid hep => ?_, fun hown u b hw => ?_, fun hcrc hsent c hc => ?_,
    fun hcrc hsent horphan c hc => ?_, rfl, fun hown hsrc hex u hu => ?_⟩
  · simp [exec_regRead_owner hown, hex]
  · simp [exec_regRead_owner hown, hex]
  · simp [exec_regRead_owner hown, hex, hid, hep, State.agentViolation]
  · refine next_congr ((State.regWriteReq_owner hown _).trans ?_)
    rw [hw]
  · simp only [List.mem_cons, List.not_mem_nil, or_false] at hc
    rcases hc with rfl | rfl
    · exact next_congr (State.regWriteReq_other hcrc hsent _)
    · exact exec_regRead_other hcrc hsent _
  · simp only [List.mem_cons, List.not_mem_nil, or_false] at hc
    rcases hc with rfl | rfl | rfl | rfl | rfl | rfl
    · exact next_congr (State.regWriteReq_orphan hcrc hsent horphan _)
    · exact exec_regRead_orphan hcrc hsent horphan _
    · exact next_congr (State.regWriteReq_orphan hcrc hsent horphan _)
    · exact next_congr (State.regWriteReq_orphan hcrc hsent horphan _)
    · exact next_congr (State.regWriteReq_orphan hcrc hsent horphan _)
    · exact next_congr (State.regWriteReq_orphan hcrc hsent horphan _)
  · rw [hu]
    exact next_congr (State.regWriteReq_done hown (if_pos ⟨hsrc, hex⟩))

end Sys2Proof.Machine
end

section
/-! What an agent reports, the low-power states of an endpoint (R57, R60, R65, R78, R346, R429, R437), and register writes (R4, R11, R452). -/

namespace Sys2Proof.Machine

/-! ## Reports -/

section
variable {s : State} {a : AgentRef}

theorem State.mayReport_of_orphan (h : s.orphan a = true) : s.mayReport a = false := by simp only [State.mayReport, h, Bool.not_true, Bool.false_and]

theorem exec_eventsSendTimer_sends {l : List Event} (hl : l = packEvents 8 (s.agent a).buffer) (hne : l ≠ []) (hmay : s.mayReport a = true) :
    exec (.eventsSendTimer a) s = .next (s.sendEvents a l) := by
  simp only [exec, execEventsSendTimer, ← hl, hmay, List.isEmpty_eq_false_iff.mpr hne, Bool.not_false, and_self, if_true]

end

/-- Settles O20. -/
theorem agentReportResults : Obligations.AgentReportResults := by
  unfold Obligations.AgentReportResults
  constructor
  · rintro s a port p
    refine ⟨fun hmay => ?_, fun horphan => ⟨?_, ?_⟩, fun l hl hne hmay => exec_eventsSendTimer_sends hl hne hmay, rfl, fun hcrc => ?_,
      fun l hcrc hl => ?_, fun x hx => ?_, fun x l me dest hx hports hup hme hid hdest hl k x1 hk hx1 => ?_⟩
    · exact next_congr (if_pos hmay)
    · exact next_congr (if_neg (by simp [State.mayReport_of_orphan horphan]))
    · exact if_neg (by simp [State.mayReport_of_orphan horphan])
    · exact next_congr (if_pos hcrc)
    · rw [hl]
      exact next_congr (if_neg (by simp [hcrc]))
    · simp only [exec, execScrubZeroDone, hx]
    · simp only [exec, execScrubStatusTimer, hx]
      rw [← hme, ← hdest, ← hl, hports]
      refine next_congr ((if_pos ⟨hup, hid⟩).trans ?_)
      rw [hk, hx1]
  · rintro s a
    refine ⟨fun hup => if_pos hup, fun hup hq hp => ?_, fun hup hq hp => ?_, rfl, fun hdown => ⟨if_neg (by simp [hdown]), if_neg (by simp [hdown])⟩⟩
    · exact (if_pos ⟨hup, hq⟩).trans (if_neg (by omega))
    · exact (if_pos ⟨hup, hq⟩).trans (if_pos hp)

/-! ## Register writes (R11, R452) -/

/-- The offsets at which a write is neither range-checked nor has a further effect. -/
def plainOffset (off : Nat) : Bool :=
  !decide (LNK_SEL ≤ off ∧ off ≤ LNK_CTRL) && !([SCH_EPOCH_CFG, SCH_SYNC_CFG, RTE_FAILOVER, CFB_QUOTA, TIM_PTP_CFG, GRP_RESV_CFG, FLT_CFG, TRI_CFG,
    TRI_STANDBY_CFG, PWR_CTRL, PWR_WAKE_CFG].contains off) && !decide (PLC_STATUS ≤ off ∧ off ≤ PLC_BROKER_STAT)
    && !decide (SEC_STATUS ≤ off ∧ off ≤ SEC_SCRUB) && !decide (FLT_BLKn ≤ off ∧ off < FLT_BLKn + 0x200)
    && !decide (FLT_SRCn ≤ off ∧ off < FLT_SRCn + 0x10000) && !decide (0x1000 ≤ off ∧ off < 0x1800)

theorem State.writeReg_plain {off : Nat} (h : plainOffset off = true) {d : RegDesc} (hd : regDesc off = some d) (s : State) (lvl : Level)
    (v : Word64) : s.writeReg lvl off v = s.setReg off (writeWord d (s.reg off) v) := by
  simp only [plainOffset, Bool.and_eq_true, Bool.not_eq_true', decide_eq_false_iff_not, List.contains_eq_mem, List.mem_cons, List.not_mem_nil,
    or_false, not_or] at h
  obtain ⟨⟨⟨⟨⟨⟨hlnk, hsch, hsync, hrte, hquota, hptp, hresv, hflt, htri, hstandby, hpwr, hwake⟩, hplc⟩, hsec⟩, hblk⟩, hsrc⟩, hcq⟩ := h
  rw [State.writeReg, if_neg (by simp [hd]), if_neg hlnk, if_neg hsch, if_neg hsync, if_neg hrte, if_neg hquota, if_neg hptp, if_neg hresv,
    if_neg hplc, if_neg hsec, if_neg hflt, if_neg hblk, if_neg hsrc, if_neg htri, if_neg hstandby, if_neg hpwr, if_neg hwake, if_neg hcq,
    State.plainWrite, hd]

theorem plainOffset_of_mem {l : List Nat} (hl : l.all plainOffset = true) {off : Nat} (h : off ∈ l) : plainOffset off = true :=
  List.all_eq_true.mp hl off h

theorem getLsbD_writeWord (d : RegDesc) (old v : Word64) {i : Nat} (hi : i < 64) :
    (writeWord d old v).getLsbD i = if d.rw.testBit i then v.getLsbD i else if d.w1c.testBit i && v.getLsbD i then false else old.getLsbD i := by
  simp only [writeWord, BitVec.getLsbD_or, BitVec.getLsbD_and, BitVec.getLsbD_not, BitVec.getLsbD_ofNat, hi, decide_true, Bool.true_and]
  cases d.rw.testBit i <;> cases d.w1c.testBit i <;> cases v.getLsbD i <;> simp

/-- Settles O21. -/
theorem registerWriteResults : Obligations.RegisterWriteResults := by
  unfold Obligations.RegisterWriteResults
  rintro s lvl size addr v d
  refine ⟨fun hbad => ?_, fun hal hd => ⟨?_, fun hlvl => ?_⟩, fun hmem hd => ?_, fun old i hi => getLsbD_writeWord d old v hi⟩
  · exact if_pos (by rwa [Option.isNone_iff_eq_none])
  · exact if_neg (by simp [hal, hd])
  · refine (if_neg (by simp [hal, hd])).trans ?_
    cases lvl
    · exact absurd rfl hlvl
    · rfl
    · rfl
  · exact State.writeReg_plain (plainOffset_of_mem (by decide) hmem) hd s lvl v

end Sys2Proof.Machine
end

section
/-! Group queues, launches and go notices (R42, R55, R200, R226, R245, R276, R284). -/

namespace Sys2Proof.Machine

section
variable {s : State} {a : AgentRef} {q : Nat} {g : GroupQueue}

/-! ## Doorbells (R55, R200) -/

theorem exec_gqDoorbell_unknown (h : s.gq a q = none) (part : BitVec 12) (v : BitVec 32) :
    exec (.gqDoorbell a q part v) s = .next (s.agentViolation a (if part = 0 then .operator else .tenant)) := by
  simp only [exec, execGqDoorbell, h]

theorem exec_gqDoorbell_known (h : s.gq a q = some g) (part : BitVec 12) (v : BitVec 32) : exec (.gqDoorbell a q part v) s =
    if part ≠ g.partition then .next (s.agentViolation a (if part = 0 then .operator else .tenant))
    else if s.computeUp a = false then .next s
    else if 2 ^ g.ringLog2 ≤ v.toNat then
      .next ((s.updAgent a fun x => { x with lowPower := if x.lowPower = 1 then 0 else x.lowPower }).setGq a q
        { g with doorbellBad := min (g.doorbellBad + 1) 255 })
    else .next (((s.updAgent a fun x => { x with lowPower := if x.lowPower = 1 then 0 else x.lowPower }).setGq a q
      { g with tail := v.toNat }).runQueue a q) := by
  simp only [exec, execGqDoorbell, h]

theorem exec_gqCqHeadDoorbell_known (h : s.gq a q = some g) (v : BitVec 32) : exec (.gqCqHeadDoorbell a q v) s =
    if s.computeUp a = false then .next s
    else if 2 ^ g.ringLog2 ≤ v.toNat then .next (s.setGq a q { g with doorbellBad := min (g.doorbellBad + 1) 255 })
    else .next ((s.setGq a q { g with cqHead := v.toNat }).runQueue a q) := by
  simp only [exec, execGqCqHeadDoorbell, h]

/-! ## The time-out of a chunk (R284) -/

theorem exec_chunkTimeout_outstanding {o : MemberOp} {x : MemberChunk} {i : Nat} (hop : (s.agent a).findOp o.group o.opSeq = some o)
    (hq : s.gq a o.queue = some g) (hx : o.chunks.find? (fun x => x.index == i && !x.released) = some x) :
    exec (.chunkTimeout a o.group o.opSeq i) s =
      let counts := (s.agent a).chunkCounts
      if s.agentNow a < x.emittedNs + g.timeoutUs * 1000 then .next s
      else if counts ∧ 3 ≤ x.resends then .next (((s.raiseAgent a 196 2).memberAbort a o 4).runQueue a o.queue)
      else
        let w := s.setOp a (o.updChunk i fun x => { x with resends := if counts then x.resends + 1 else x.resends, emittedNs := s.agentNow a })
        if o.ring then .next (w.ringSend a g o x true)
        else if x.hasResult then .next (w.memberSend a { o.fields g 0x12 i with combine := 0, fmt := 0, resend := true })
        else .next (w.sendMemberChunk a g o i true) := by
  simp only [exec, execChunkTimeout, hop, hq, hx]

end

/-- Settles O40. -/
theorem groupQueueResults : Obligations.GroupQueueResults := by
  unfold Obligations.GroupQueueResults
  rintro s a q g part v p u rfl
  refine ⟨fun hnone => ⟨exec_gqDoorbell_unknown hnone part v, ?_⟩, fun hq => ⟨fun hpart => ?_, fun hdown => ⟨?_, ?_⟩, fun hup hbad => ⟨?_, ?_⟩,
    fun hup hok => ⟨?_, ?_⟩⟩, fun hdown k => if_pos hdown, fun hup hfresh k => ⟨fun hnone => ?_, fun hsome => ?_⟩, fun hown x => ⟨fun hnone => ?_,
    fun hsome => ?_⟩, fun k op i hnone => ?_, fun o x i hop hq hx => ⟨fun hearly => ?_, fun hlate hcount hthree => ?_, fun hlate hfew w hw => ?_⟩,
    fun hnone => ?_, fun x hx => ⟨fun hearly => ?_, fun hlate => ?_⟩⟩
  · simp only [exec, execGqCqHeadDoorbell, hnone]
  · rw [exec_gqDoorbell_known hq, if_pos hpart]
  · rw [exec_gqDoorbell_known hq, if_neg (not_not.mpr rfl), if_pos hdown]
  · rw [exec_gqCqHeadDoorbell_known hq, if_pos hdown]
  · rw [exec_gqDoorbell_known hq, if_neg (not_not.mpr rfl), if_neg (by simp [hup]), if_pos hbad]
  · rw [exec_gqCqHeadDoorbell_known hq, if_neg (by simp [hup]), if_pos hbad]
  · rw [exec_gqDoorbell_known hq, if_neg (not_not.mpr rfl), if_neg (by simp [hup]), if_neg (Nat.not_le.mpr hok)]
  · rw [exec_gqCqHeadDoorbell_known hq, if_neg (by simp [hup]), if_neg (Nat.not_le.mpr hok)]
  · refine (if_neg (by simp [hup])).trans (next_congr ?_)
    rw [State.accept_fresh hfresh, hnone]
  · refine (if_neg (by simp [hup])).trans (next_congr ?_)
    rw [State.accept_fresh hfresh, hsome]
  · refine next_congr ?_
    rw [State.fromOwner_accept hown, hnone]
  · refine next_congr ?_
    rw [State.fromOwner_accept hown, hsome]
  · simp only [exec, execChunkTimeout, hnone]
  · rw [exec_chunkTimeout_outstanding hop hq hx]
    exact if_pos hearly
  · rw [exec_chunkTimeout_outstanding hop hq hx]
    exact (if_neg (Nat.not_lt.mpr hlate)).trans (if_pos ⟨by simp [Agent.chunkCounts, hcount], hthree⟩)
  · have hagain : ¬ ((s.agent a).chunkCounts = true ∧ 3 ≤ x.resends) := by
      rintro ⟨hcounts, hthree⟩
      simp only [Agent.chunkCounts, Bool.not_eq_true'] at hcounts
      rcases hfew with hsus | hfew
      · simp [hcounts] at hsus
      · omega
    have hcounts : ((s.agent a).chunkCounts = true) = ((s.agent a).chunkSuspended = false) := by simp [Agent.chunkCounts]
    rw [exec_chunkTimeout_outstanding hop hq hx]
    simp only [if_neg (Nat.not_lt.mpr hlate), if_neg hagain]
    simp only [hcounts, ← hw]
    exact ⟨fun hring => if_pos hring, fun hring hres => (if_neg (by simp [hring])).trans (if_neg (by simp [hres])),
      fun hring hres => (if_neg (by simp [hring])).trans (if_pos hres)⟩
  · simp only [exec, execAttemptResumeTimer, hnone]
  · simp only [exec, execAttemptResumeTimer, hx, if_pos hearly]
  · simp only [exec, execAttemptResumeTimer, hx, if_neg (Nat.not_lt.mpr hlate)]

end Sys2Proof.Machine
end

section
/-! Attestation requests (R349 to R355, R420, R456). -/

namespace Sys2Proof.Machine

section
variable {s : State} {always early : Bool} {l : List Byte}

theorem State.spdmHears_iff (s : State) (via : SpdmPath) : s.spdmHears via = true ↔ s.pwr.pwrgd = true ∧ s.rt0Out = false
    ∧ s.hubDown (spdmHub via) = false ∧ (∀ h, via = .pcie h → h < 2)
    ∧ ∀ addr bytes pec, via = .smbus addr bytes pec → smbusTakes addr bytes pec = true := by
  cases via <;> simp [State.spdmHears, and_assoc]

/-- A request that is not heard, or comes before the controller is ready, has no answer. -/
theorem State.spdmAnswer_silent (h : s.spdmHears s.sec.spdmVia = false ∨ (s.ready = false ∧ early = false)) :
    s.spdmAnswer always l early = s.spdmNext := by
  simp only [State.spdmAnswer, if_pos h]

/-- In life-cycle state 3 most requests are answered with an error (R352). -/
theorem State.spdmAnswer_refused (hears : s.spdmHears s.sec.spdmVia = true) (hready : s.ready = true ∨ early = true)
    (hlife : s.sec.lifeCycle = 3) :
    s.spdmAnswer false l early = (s.emit (.spdm (spdmHub s.sec.spdmVia) [0x12, 0x7F, 0x07, 0x00])).spdmNext := by
  have hheard : ¬ (s.spdmHears s.sec.spdmVia = false ∨ (s.ready = false ∧ early = false)) := by
    rcases hready with h | h <;> simp [hears, h]
  simp only [State.spdmAnswer, if_neg hheard, hlife, and_self, if_true]

theorem State.spdmAnswer_answered (hears : s.spdmHears s.sec.spdmVia = true) (hready : s.ready = true ∨ early = true)
    (hlife : s.sec.lifeCycle ≠ 3 ∨ always = true) :
    s.spdmAnswer always l early = (s.emit (.spdm (spdmHub s.sec.spdmVia) l)).spdmNext := by
  have hheard : ¬ (s.spdmHears s.sec.spdmVia = false ∨ (s.ready = false ∧ early = false)) := by
    rcases hready with h | h <;> simp [hears, h]
  have hopen : ¬ (s.sec.lifeCycle = 3 ∧ always = false) := by
    rcases hlife with h | h <;> simp [h]
  simp only [State.spdmAnswer, if_neg hheard, if_neg hopen]

end

/-- Settles O50. -/
theorem attestationResults : Obligations.AttestationResults := by
  unfold Obligations.AttestationResults
  rintro s via off len k image hub nonce code digest i l body sel blocks heard rfl rfl hheard
  rw [← State.spdmHears_iff] at hheard
  refine ⟨fun hdeaf hi => ?_, fun hready hi => ?_, fun h => ?_, fun h hready => ?_, fun h hlife => ?_, fun h hready hlife hi => ?_, fun h hlife => ?_,
    fun h hready hlife hi => ?_, fun h hready hlife hbody => ?_, fun h hready hlife hblocks hsel hbody => ?_, rfl⟩
  · have hsilent {always early : Bool} {l : List Byte} : (Host.Outcome.next (s.spdmAnswer always l early) : Answer) = .next s.spdmNext :=
      next_congr (State.spdmAnswer_silent (.inl (by simpa using mt hheard.mpr hdeaf)))
    simp only [List.mem_cons, List.not_mem_nil, or_false] at hi
    rcases hi with rfl | rfl | rfl | rfl | rfl | rfl | rfl | rfl <;> exact hsilent
  · have hsilent {always : Bool} {l : List Byte} : (Host.Outcome.next (s.spdmAnswer always l) : Answer) = .next s.spdmNext :=
      next_congr (State.spdmAnswer_silent (.inr ⟨hready, rfl⟩))
    simp only [List.mem_cons, List.not_mem_nil, or_false] at hi
    rcases hi with rfl | rfl | rfl | rfl | rfl | rfl <;> exact hsilent
  · exact next_congr (State.spdmAnswer_answered (hheard.mp h) (.inr rfl) (.inr rfl))
  · exact next_congr (State.spdmAnswer_answered (hheard.mp h) (.inl hready) (.inr rfl))
  · exact next_congr (State.spdmAnswer_refused (hheard.mp h) (.inr rfl) hlife)
  · have hrefused {l : List Byte} := next_congr (State.spdmAnswer_refused (early := false) (l := l) (hheard.mp h) (.inl hready) hlife)
    rcases hi with hi | ⟨hk, rfl⟩
    · simp only [List.mem_cons, List.not_mem_nil, or_false] at hi
      rcases hi with rfl | rfl | rfl | rfl <;> exact hrefused
    · have hother : (k == 0xF0) = false := by simpa using hk
      simp only [exec, execGetMeasurements, hother]
      exact hrefused
  · exact next_congr (State.spdmAnswer_answered (hheard.mp h) (.inr rfl) (.inl hlife))
  · have hanswer {l : List Byte} := next_congr (State.spdmAnswer_answered (always := false) (early := false) (l := l) (hheard.mp h) (.inl hready) (.inl hlife))
    simp only [List.mem_cons, List.not_mem_nil, or_false, Prod.mk.injEq] at hi
    obtain ⟨rfl, rfl⟩ | ⟨rfl, rfl⟩ | ⟨rfl, rfl⟩ := hi <;> exact hanswer
  · rw [hbody]
    exact next_congr (State.spdmAnswer_answered (hheard.mp h) (.inl hready) (.inl hlife))
  · rw [hbody, hsel, hblocks]
    exact next_congr (State.spdmAnswer_answered (hheard.mp h) (.inl hready) (hlife.imp_right (by simp [·])))

end Sys2Proof.Machine
end

section
/-! What links, streams and events change at their own node: nothing of another node, and of an agent only what records them. -/

namespace Sys2Proof.Machine

/-! ## Steps of a node's link layer -/

/-- What of an agent the link layer leaves: all but its registers, its ports, its streams, and its records of traffic and of events. -/
def Agent.core (g : Agent) : Agent :=
  { g with jx := [], ports := [], streams := {}, nonControlSeen := false, quietEpochs := 0, buffer := [], latched := [], eventsSent := []
           captured := [], reports := [], statusNs := 0, samples := [] }

/-- The registers' fields that records of traffic and of events use: DRAINED, the drop counts, and the sources. -/
def linkField (f : Field) : Prop := f = JX_STATUS_DRAINED ∨ f.off = JX_EVDROP ∨ 0x1000 ≤ f.off

/-- One change of the link layer of node `n`. -/
inductive State.LinkStep : Node → State → State → Prop
  | agent (s : State) (a : AgentRef) (f : Agent → Agent) (hcore : (f (s.agent a)).core = (s.agent a).core)
      (hjx : (f (s.agent a)).jx = (s.agent a).jx) : LinkStep (.agent a) s (s.updAgent a f)
  | field (s : State) (a : AgentRef) (f : Field) (v : Nat) (hf : linkField f) : LinkStep (.agent a) s (s.setJfld a f v)
  | ports (s : State) (p : NMap PortSt) : LinkStep .ctl s { s with ports := p }
  | streams (s : State) (x : Streams) : LinkStep .ctl s { s with streams := x }
  | behind (s : State) (l : List Behind) : LinkStep .ctl s { s with tri := { s.tri with behind := l } }
  | out (n : Node) (s : State) (l : List Out) : LinkStep n s { s with out := s.out ++ l }

/-- `t` comes from `s` by changes of the link layer of node `n`. -/
def State.Link (n : Node) : State → State → Prop := Relation.ReflTransGen (State.LinkStep n)

section
variable {n : Node} {s t u : State}

theorem State.Link.refl (s : State) : s.Link n s := Relation.ReflTransGen.refl

theorem State.Link.trans (h : s.Link n t) (g : t.Link n u) : s.Link n u := Relation.ReflTransGen.trans h g

theorem State.Link.step (h : State.LinkStep n s t) : s.Link n t := Relation.ReflTransGen.single h

theorem State.Link.ite {c : Prop} [Decidable c] (h : s.Link n t) (g : s.Link n u) : s.Link n (if c then t else u) := by
  split
  · exact h
  · exact g

theorem State.Link.forEach {α : Type} {f : State → α → State} (h : ∀ (s : State) x, s.Link n (f s x)) (l : List α) (s : State) :
    s.Link n (s.forEach l f) := by
  induction l generalizing s with
  | nil => exact .refl s
  | cons x l ih => exact (h s x).trans (ih (f s x))

/-! ## What a link's steps keep -/

theorem State.LinkStep.linkOnly (h : State.LinkStep n s t) : s.LinkOnly t := by cases h <;> rfl

theorem State.Link.linkOnly (h : s.Link n t) : s.LinkOnly t := by
  induction h with
  | refl => exact linkOnly_refl s
  | tail _ hstep ih => exact linkOnly_trans ih hstep.linkOnly

theorem State.LinkStep.out_prefix (h : State.LinkStep n s t) : s.out <+: t.out := by
  cases h with
  | agent => exact List.prefix_rfl
  | field => exact List.prefix_rfl
  | ports => exact List.prefix_rfl
  | streams => exact List.prefix_rfl
  | behind => exact List.prefix_rfl
  | out => exact List.prefix_append _ _

theorem State.Link.out_prefix (h : s.Link n t) : s.out <+: t.out := by
  induction h with
  | refl => exact List.prefix_rfl
  | tail _ hstep ih => exact ih.trans hstep.out_prefix

/-- What has left before stays in the record of what leaves. -/
theorem State.Link.mem_out (h : s.Link n t) {o : Out} (ho : o ∈ s.out) : o ∈ t.out := h.out_prefix.subset ho

theorem State.LinkStep.agent_ne (h : State.LinkStep n s t) {b : AgentRef} (hb : n ≠ .agent b) : t.agent b = s.agent b := by
  cases h with
  | agent _ a f => exact State.agent_updAgent_ne _ _ fun h => hb (congrArg Node.agent h.symm)
  | field _ a f v => exact State.agent_updAgent_ne _ _ fun h => hb (congrArg Node.agent h.symm)
  | ports => rfl
  | streams => rfl
  | behind => rfl
  | out => rfl

/-- Another agent is as before. -/
theorem State.Link.agent_ne (h : s.Link n t) {b : AgentRef} (hb : n ≠ .agent b) : t.agent b = s.agent b := by
  induction h with
  | refl => rfl
  | tail _ hstep ih => exact (hstep.agent_ne hb).trans ih

theorem State.LinkStep.agents_ctl (h : State.LinkStep .ctl s t) : t.agents = s.agents := by cases h <;> rfl

/-- A link of the controller leaves every agent. -/
theorem State.Link.agents_ctl (h : s.Link .ctl t) : t.agents = s.agents := by
  induction h with
  | refl => rfl
  | tail _ hstep ih => exact hstep.agents_ctl.trans ih

theorem State.LinkStep.core (h : State.LinkStep n s t) (b : AgentRef) : (t.agent b).core = (s.agent b).core := by
  by_cases hb : n = .agent b
  · subst hb
    cases h with
    | agent _ _ f hcore hjx =>
      rw [State.agent_updAgent_self]
      exact hcore
    | field _ _ f v hf =>
      obtain ⟨j, hj⟩ := State.agent_setJfld s b f v
      rw [hj]
      rfl
    | out => rfl
  · rw [h.agent_ne hb]

/-- An agent is as before but for what the link layer records. -/
theorem State.Link.core (h : s.Link n t) (b : AgentRef) : (t.agent b).core = (s.agent b).core := by
  induction h with
  | refl => rfl
  | tail _ hstep ih => exact (hstep.core b).trans ih

/-- A part of an agent that no record of traffic or events holds. -/
theorem State.Link.get {α : Type} (h : s.Link n t) (b : AgentRef) (f : Agent → α) (hf : ∀ g : Agent, f g.core = f g) : f (t.agent b) = f (s.agent b) := by
  rw [← hf, h.core b, hf]

/-- A field that the link layer does not write. -/
def keptField (f : Field) : Prop := f.fits ∧ (f.off ≠ JX_STATUS_DRAINED.off ∨ JX_STATUS_DRAINED.apart f) ∧ f.off ≠ JX_EVDROP ∧ f.off < 0x1000

theorem drained_fits : JX_STATUS_DRAINED.fits := by unfold Field.fits; decide

theorem State.LinkStep.jfld (h : State.LinkStep n s t) (b : AgentRef) {g : Field} (hg : keptField g) : t.jfld b g = s.jfld b g := by
  by_cases hb : n = .agent b
  · subst hb
    cases h with
    | agent _ _ f hcore hjx => rw [State.jfld, State.jx, State.agent_updAgent_self, hjx, State.jfld, State.jx]
    | field _ _ f v hf =>
      obtain ⟨hfits, hapart, hdrop, hlow⟩ := hg
      rcases hf with rfl | hoff | hoff
      · rcases hapart with hoff | hapart
        · exact State.jfld_setJfld_off s b hoff v
        · exact State.jfld_setJfld_apart s b drained_fits hfits hapart v
      · exact State.jfld_setJfld_off s b (by rw [hoff]; exact hdrop) v
      · exact State.jfld_setJfld_off s b (by omega) v
    | out => rfl
  · rw [State.jfld, State.jx, h.agent_ne hb, State.jfld, State.jx]

theorem State.LinkStep.jx (h : State.LinkStep n s t) (b : AgentRef) {off : Nat} (hst : off ≠ JX_STATUS) (hdrop : off ≠ JX_EVDROP) (hlow : off < 0x1000) :
    t.jx b off = s.jx b off := by
  by_cases hb : n = .agent b
  · subst hb
    cases h with
    | agent _ _ f hcore hjx => rw [State.jx, State.agent_updAgent_self, hjx, State.jx]
    | field _ _ f v hf =>
      refine State.jx_setJx_ne s b _ ?_
      rcases hf with rfl | hoff | hoff
      · exact hst
      · rw [hoff]
        exact hdrop
      · omega
    | out => rfl
  · rw [State.jx, h.agent_ne hb, State.jx]

/-- A register that the link layer does not write. -/
theorem State.Link.jx (h : s.Link n t) (b : AgentRef) {off : Nat} (hst : off ≠ JX_STATUS) (hdrop : off ≠ JX_EVDROP) (hlow : off < 0x1000) :
    t.jx b off = s.jx b off := by
  induction h with
  | refl => rfl
  | tail _ hstep ih => exact (hstep.jx b hst hdrop hlow).trans ih

theorem State.Link.jfld (h : s.Link n t) (b : AgentRef) {g : Field} (hg : keptField g) : t.jfld b g = s.jfld b g := by
  induction h with
  | refl => rfl
  | tail _ hstep ih => exact (hstep.jfld b hg).trans ih

end

/-! ## The operations of ports and streams -/

section
variable (s : State) (n : Node)

theorem link_updAgent (a : AgentRef) (f : Agent → Agent) (hcore : (f (s.agent a)).core = (s.agent a).core) (hjx : (f (s.agent a)).jx = (s.agent a).jx) :
    s.Link (.agent a) (s.updAgent a f) := .step (.agent s a f hcore hjx)

theorem link_setJfld (a : AgentRef) {f : Field} (hf : linkField f) (v : Nat) : s.Link (.agent a) (s.setJfld a f v) := .step (.field s a f v hf)

theorem link_satJfld (a : AgentRef) {f : Field} (hf : linkField f) (v : Nat) : s.Link (.agent a) (s.satJfld a f v) := link_setJfld s a hf _

theorem link_emit (o : Out) : s.Link n (s.emit o) := .step (.out n s [o])

theorem link_setPort (p : Nat) (x : PortSt) : s.Link n (s.setPort n p x) := by
  cases n with
  | ctl => exact .step (.ports s _)
  | agent a => exact link_updAgent s a (fun g => { g with ports := g.ports.set p x }) rfl rfl

theorem link_setStreams (x : Streams) : s.Link n (s.setStreams n x) := by
  cases n with
  | ctl => exact .step (.streams s x)
  | agent a => exact link_updAgent s a (fun g => { g with streams := x }) rfl rfl

theorem link_setTx (d : Fid) (k : BitVec 16) (x : StreamTx) : s.Link n (s.setTx n d k x) := link_setStreams s n _

theorem link_setRx (d : Fid) (k : BitVec 16) (x : StreamRx) : s.Link n (s.setRx n d k x) := link_setStreams s n _

theorem link_recordSeq (h : Header) : s.Link n (s.recordSeq n h) := link_setStreams s n _

/-- `t` comes from `s` by changes of the link layer that leave the node's streams. -/
def State.PortLink (n : Node) (s t : State) : Prop := s.Link n t ∧ t.nodeStreams n = s.nodeStreams n

section
omit s n
variable {s t u : State} {n : Node}

theorem State.PortLink.refl (s : State) : s.PortLink n s := ⟨.refl s, rfl⟩

theorem State.PortLink.trans (h : s.PortLink n t) (g : t.PortLink n u) : s.PortLink n u := ⟨h.1.trans g.1, g.2.trans h.2⟩

theorem State.PortLink.ite {c : Prop} [Decidable c] (h : s.PortLink n t) (g : s.PortLink n u) : s.PortLink n (if c then t else u) := by
  split
  · exact h
  · exact g

theorem State.PortLink.forEach {α : Type} {f : State → α → State} (h : ∀ (s : State) x, s.PortLink n (f s x)) (l : List α) (s : State) :
    s.PortLink n (s.forEach l f) := by
  induction l generalizing s with
  | nil => exact .refl s
  | cons x l ih => exact (h s x).trans (ih (f s x))

end

theorem portLink_emit (o : Out) : s.PortLink n (s.emit o) := ⟨link_emit s n o, by cases n <;> rfl⟩

theorem portLink_setPort (p : Nat) (x : PortSt) : s.PortLink n (s.setPort n p x) := by
  refine ⟨link_setPort s n p x, ?_⟩
  cases n with
  | ctl => rfl
  | agent a => simp only [State.nodeStreams, State.setPort, State.agent_updAgent_self]

theorem portLink_startFrame (p : Nat) (k : Packet) : s.PortLink n (s.startFrame n p k) := (portLink_setPort s n p _).trans (portLink_emit _ n _)

theorem portLink_sendCredit (p : Nat) : s.PortLink n (s.sendCredit n p) := by
  unfold State.sendCredit
  exact .ite (.refl s) (.ite ((portLink_setPort s n p _).trans (portLink_startFrame _ n p _)) (portLink_setPort s n p _))

theorem portLink_returnCredit (p : Nat) : s.PortLink n (s.returnCredit n p) := by
  unfold State.returnCredit
  exact .ite (portLink_sendCredit s n p) (.refl s)

theorem portLink_freeUnits (p : Nat) (h : Header) : s.PortLink n (s.freeUnits n p h) := (portLink_setPort s n p _).trans (portLink_returnCredit _ n p)

theorem portLink_recordSent (p : Nat) (l : List Sent) : s.PortLink n (s.recordSent n p l) := by
  unfold State.recordSent
  refine State.PortLink.trans ⟨.step (.out n s _), by cases n <;> rfl⟩ (.forEach (fun s t => ?_) _ _)
  split
  · exact portLink_freeUnits s n _ _
  · exact .refl s

theorem portLink_pumpPort (p : Nat) : s.PortLink n (s.pumpPort n p) := (portLink_setPort s n p _).trans (portLink_recordSent _ n p _)

theorem portLink_noteTraffic (p : Nat) (h : Header) : s.PortLink n (s.noteTraffic n p h) := by
  unfold State.noteTraffic
  split
  · exact .refl s
  · cases n with
    | ctl => exact portLink_setPort s _ p _
    | agent a =>
      refine (portLink_setPort s _ p _).trans ⟨(link_updAgent _ a _ (by exact rfl) (by exact rfl)).trans (link_setJfld _ a (.inl rfl) 0), ?_⟩
      obtain ⟨j, hj⟩ := State.agent_setJfld ((s.setPort (.agent a) p { s.port (.agent a) p with carried := true, quietEpochs := 0 }).updAgent a
        fun g => { g with nonControlSeen := true, quietEpochs := 0 }) a JX_STATUS_DRAINED 0
      simp only [State.nodeStreams]
      rw [hj, State.agent_updAgent_self]

theorem portLink_wakeAgentPort (p : Nat) : s.PortLink n (s.wakeAgentPort n p) := by
  cases n with
  | ctl => exact .refl s
  | agent a => exact .ite (portLink_setPort s _ p _) (.refl s)

theorem portLink_portSend (p : Nat) (k : Packet) (source : Option Nat := none) : s.PortLink n (s.portSend n p k source) := by
  unfold State.portSend
  refine ((portLink_noteTraffic s n p k.hdr).trans (portLink_wakeAgentPort _ n p)).trans (.ite (.ite ?_ ?_) ?_)
  · exact (portLink_setPort _ n p _).trans (portLink_startFrame _ n p k)
  · exact portLink_setPort _ n p _
  · exact (portLink_setPort _ n p _).trans (portLink_pumpPort _ n p)

theorem portLink_originateOn (port : Nat) (p : Packet) : s.PortLink n (s.originateOn n port p) := by
  unfold State.originateOn
  split
  · exact .refl s
  · split
    · next hctl =>
      obtain ⟨rfl, -⟩ := hctl
      exact ⟨.step (.behind s _), rfl⟩
    · exact (portLink_emit s n _).trans (portLink_portSend _ n port p)

theorem portLink_originate (p : Packet) : s.PortLink n (s.originate n p) := portLink_originateOn s n _ p

theorem portLink_emitTx (t : TxPkt) : s.PortLink n (s.emitTx n t) := by
  unfold State.emitTx
  split
  · exact portLink_originateOn s n _ _
  · exact portLink_originate s n _

theorem link_returnCredit (p : Nat) : s.Link n (s.returnCredit n p) := (portLink_returnCredit s n p).1

theorem link_freeUnits (p : Nat) (h : Header) : s.Link n (s.freeUnits n p h) := (portLink_freeUnits s n p h).1

theorem link_pumpPort (p : Nat) : s.Link n (s.pumpPort n p) := (portLink_pumpPort s n p).1

theorem link_portSend (p : Nat) (k : Packet) (source : Option Nat := none) : s.Link n (s.portSend n p k source) := (portLink_portSend s n p k source).1

theorem link_originateOn (port : Nat) (p : Packet) : s.Link n (s.originateOn n port p) := (portLink_originateOn s n port p).1

theorem link_originate (p : Packet) : s.Link n (s.originate n p) := (portLink_originate s n p).1

theorem link_emitTx (t : TxPkt) : s.Link n (s.emitTx n t) := (portLink_emitTx s n t).1

theorem link_sendPkt (p : Packet) (kept : Bool := true) (port : Option Nat := none) : s.Link n (s.sendPkt n p kept port) := by
  unfold State.sendPkt
  extract_lets
  refine .ite (.ite ?_ ?_) ?_
  · exact link_setTx s n _ _ _
  · exact (link_setTx s n _ _ _).trans (link_emitTx _ n _)
  · exact (link_setTx s n _ _ _).trans (link_emitTx _ n _)

theorem link_sendMgmt (d : Fid) (t : BitVec 8) (l : List Byte) (x : BitVec 24) (k : Bool) : s.Link n (s.sendMgmt n d t l x k) := link_sendPkt s n _ _ _

/-! ## Answers, acceptance and completions -/

theorem portLink_answer (h : Header) (t : BitVec 8) (q : BitVec 32) (x : BitVec 24) : s.PortLink n (s.answer n h t q x) :=
  .ite (.refl s) (portLink_originate s n _)

theorem portLink_nakPkt (h : Header) (r : Nat) : s.PortLink n (s.nakPkt n h r) := portLink_answer s n h _ _ _

theorem link_answer (h : Header) (t : BitVec 8) (q : BitVec 32) (x : BitVec 24) : s.Link n (s.answer n h t q x) := (portLink_answer s n h t q x).1

theorem link_ackPkt (h : Header) : s.Link n (s.ackPkt n h) := link_answer s n h _ _ _

theorem link_nakPkt (h : Header) (r : Nat) : s.Link n (s.nakPkt n h r) := link_answer s n h _ _ _

theorem link_finish (h : Header) : s.Link n (s.finish n h) := by
  unfold State.finish State.readAnswer
  exact .ite (link_sendPkt s n _ _ _) (link_ackPkt s n h)

theorem link_endHeld (f : HeldFlag) (b : Bool) : s.Link n (s.endHeld n f b) := by
  unfold State.endHeld
  exact .ite ((link_setRx s n _ _ _).trans (link_nakPkt _ n _ _)) ((link_setRx s n _ _ _).trans (link_finish _ n _))

theorem link_settle (d : Fid) (k : BitVec 16) (i : Nat) : s.Link n (State.settle n d k i s) := by
  induction i generalizing s with
  | zero => exact .refl s
  | succ i ih =>
    unfold State.settle
    dsimp only
    split
    · exact .refl s
    · exact (link_endHeld s n _ _).trans (ih _)

theorem link_complete (h : Header) : s.Link n (s.complete n h) := by
  unfold State.complete
  refine (link_recordSeq s n h).trans (.ite ?_ ?_)
  · exact (link_setRx _ n _ _ _).trans (link_settle _ n _ _ _)
  · exact (link_finish _ n h).trans (link_settle _ n _ _ _)

theorem link_acked (p : Packet) : s.Link n (s.acked n p) := link_complete s n p.hdr

theorem link_again (h : Header) : s.Link n (s.again n h) := .ite (.refl s) (.ite (link_nakPkt s n h _) (link_finish s n h))

/-- Acceptance adds to its body's effect what links and streams take. -/
theorem link_accept (p : Packet) (body : State → State × Option Nat) (h : s.Link n (body s).1) : s.Link n (s.accept n p body) := by
  unfold State.accept
  refine .ite (link_nakPkt s n _ _) (.ite (link_again s n _) (.ite (link_nakPkt s n _ _) ?_))
  rcases hb : body s with ⟨u, r⟩
  rw [hb] at h
  cases r with
  | none => exact h.trans (link_complete u n _)
  | some r => exact h.trans (link_nakPkt u n _ _)

theorem link_consume (p : Packet) (body : State → State) (h : s.Link n (body s)) : s.Link n (s.consume n p body) := .ite (link_nakPkt s n _ _) h

/-! ## Events of an agent -/

end

section
variable (s : State) (a : AgentRef)

theorem evdropField_off (sev : Nat) : (evdropField sev).off = JX_EVDROP := by
  unfold evdropField
  split <;> rfl

theorem link_countDrop (e : Event) : s.Link (.agent a) (s.countDrop a e) := link_satJfld s a (.inr (.inl (evdropField_off e.severity))) _

theorem Agent.dropNewest_core (g : Agent) (sev : Nat) : (g.dropNewest sev).core = g.core ∧ (g.dropNewest sev).jx = g.jx := by
  unfold Agent.dropNewest
  split <;> exact ⟨rfl, rfl⟩

theorem link_displace (sev : Nat) : s.Link (.agent a) (s.displace a sev) := by
  unfold State.displace
  split
  · obtain ⟨hcore, hjx⟩ := Agent.dropNewest_core (s.agent a) sev
    exact (link_updAgent s a _ hcore hjx).trans (link_countDrop _ a _)
  · exact .refl s

theorem link_bufferEvent (e : Event) : s.Link (.agent a) (s.bufferEvent a e) := by
  have hput (s : State) (e : Event) : s.Link (.agent a) (s.updAgent a fun g => { g with buffer := g.buffer ++ [e] }) := link_updAgent s a _ (by exact rfl) (by exact rfl)
  unfold State.bufferEvent
  dsimp only
  split
  · exact link_updAgent s a _ (by exact rfl) (by exact rfl)
  · refine .ite (.ite (hput s e) ?_) (.ite (hput s _) (.ite (hput s e) ?_))
    · split
      · exact .ite ((link_displace s a _).trans (hput _ e)) (link_countDrop s a e)
      · exact link_countDrop s a e
    · split
      · exact .ite ((link_displace s a _).trans (hput _ e)) (link_updAgent s a _ (by exact rfl) (by exact rfl))
      · exact link_updAgent s a _ (by exact rfl) (by exact rfl)

theorem link_sendEvents (l : List Event) : s.Link (.agent a) (s.sendEvents a l) :=
  (link_updAgent s a _ (by exact rfl) (by exact rfl)).trans (link_sendMgmt _ (.agent a) _ _ _ _ _)

theorem link_sendUrgent : s.Link (.agent a) (s.sendUrgent a) := .ite (.forEach (fun s e => link_sendEvents s a [e]) _ _) (.refl s)

theorem link_presentLatched (k : Nat) : s.Link (.agent a) (State.presentLatched a k s) := by
  induction k generalizing s with
  | zero => exact .refl s
  | succ k ih =>
    unfold State.presentLatched
    split
    · exact .refl s
    · exact .ite ((link_updAgent s a _ (by exact rfl) (by exact rfl)).trans ((link_bufferEvent _ a _).trans ((link_sendUrgent _ a).trans (ih _)))) (.refl s)

/-- The fields of a source lie at and above 0x1000. -/
theorem linkField_source (f : Field) (src : Nat) : linkField (f.at (jxSrc src)) := .inr (.inr (Nat.le_add_right _ _))

theorem link_countAgentSource (src : Nat) (d : BitVec 16) (c : Option Capture) : s.Link (.agent a) (s.countAgentSource a src d c) := by
  have hcount : s.Link (.agent a) ((s.satJfld a (FLT_SRCn_COUNT.at (jxSrc src)) 1).setJfld a (FLT_SRCn_LAST_DETAIL.at (jxSrc src)) d.toNat) :=
    (link_satJfld s a (linkField_source _ _) 1).trans (link_setJfld _ a (linkField_source _ _) _)
  unfold State.countAgentSource
  cases c with
  | none => exact hcount
  | some c => exact .ite (hcount.trans ((link_setJfld _ a (linkField_source _ _) 1).trans (link_updAgent _ a _ (by exact rfl) (by exact rfl)))) hcount

/-- An event of an agent source. -/
theorem link_raiseAgent (src stated : Nat) (d : BitVec 16 := 0) (port : Nat := 0xFFFF) (c : Option Capture := none) :
    s.Link (.agent a) (s.raiseAgent a src stated d port c) := by
  unfold State.raiseAgent
  exact (link_countAgentSource s a src d _).trans
    (.ite (.refl _) (.ite ((link_bufferEvent _ a _).trans (link_sendUrgent _ a)) (link_bufferEvent _ a _)))

theorem link_fromOwner (p : Packet) (body : State → State) (h : s.Link (.agent a) (body s)) : s.Link (.agent a) (s.fromOwner a p body) :=
  .ite (link_raiseAgent s a _ _ _ _ _) (.ite (.refl s) h)

end

theorem link_releaseWaiting (s : State) (n : Node) (d : Fid) (k : BitVec 16) : s.Link n (s.releaseWaiting n d k) := by
  unfold State.releaseWaiting
  extract_lets
  split
  · exact .refl s
  · exact .ite ((link_setTx s n _ _ _).trans (link_emitTx _ n _)) (.refl s)

theorem link_releaseWithheld (s : State) (n : Node) : s.Link n (s.releaseWithheld n) :=
  .ite (.refl s) (.forEach (fun s _ => (link_setPort s n _ _).trans (link_returnCredit _ n _)) _ _)

/-! ## Arrival at a node with the same streams -/

theorem State.freshPacket_of_streams {s u : State} {n : Node} {p : Packet} (h : s.freshPacket n p) (hu : u.nodeStreams n = s.nodeStreams n) :
    u.freshPacket n p := by
  obtain ⟨hcrc, hdup, hord⟩ := h
  refine ⟨hcrc, ?_, ?_⟩
  · rw [State.isDup, State.rx, hu]
    exact hdup
  · rw [State.orderFull, hu]
    exact hord

theorem State.sent_of_streams {s u : State} {n : Node} (hu : u.nodeStreams n = s.nodeStreams n) (d : Fid) (k : BitVec 16) (q : BitVec 32) :
    u.sent n d k q = s.sent n d k q := by rw [State.sent, State.tx, hu, State.sent, State.tx]

/-- The agent out of low power, as an arrival finds it. -/
def State.wokenAt (s : State) (a : AgentRef) : State := s.updAgent a fun g => { g with lowPower := 0 }

theorem State.wokenAt_agent (s : State) (a : AgentRef) : (s.wokenAt a).agent a = { s.agent a with lowPower := 0 } := State.agent_updAgent_self ..

theorem State.wokenAt_streams (s : State) (a : AgentRef) : (s.wokenAt a).nodeStreams (.agent a) = s.nodeStreams (.agent a) := by
  simp only [State.nodeStreams, State.wokenAt_agent]

/-- A fresh packet of the endpoint's own partition, at an endpoint that is up, has its effect there. -/
theorem State.deliverTo_fresh {s : State} {a : AgentRef} {p : Packet} (hup : a.variant = .e → s.computeUp a = true ∧ (s.agent a).lowPower ≠ 2)
    (hf : s.freshPacket (.agent a) p) (hp : (s.agent a).partition = 0 → p.hdr.partition = 0) (body : State → State × Option Nat) :
    s.deliverTo a p body = match body (s.wokenAt a) with
      | (t, none) => t.acked (.agent a) p
      | (t, some r) => t.nakPkt (.agent a) p.hdr r := by
  have hin : ¬(((s.wokenAt a).agent a).partition = 0 ∧ p.hdr.partition ≠ 0) := by
    rw [State.wokenAt_agent]
    exact fun h => h.2 (hp h.1)
  refine (State.deliverTo_up hup body).trans ((State.accept_fresh (State.freshPacket_of_streams hf (s.wokenAt_streams a)) _).trans ?_)
  rw [if_neg hin] <;> rfl

end Sys2Proof.Machine
end

section
/-! The answers to packets a node sent: the packet each ends, and the resends. -/

namespace Sys2Proof.Machine

variable {s : State} {n : Node} {p : Packet} {t : TxPkt}

/-! ## Resends -/

/-- What a node may send is sent over the port: it is among what leaves. -/
theorem State.originateOn_leaves (hg : n = .ctl → s.gatesOpen = true ∧ (p.hdr.behindMirror = true → s.mirrorBlocks = false))
    (ho : s.mayOriginate n p.hdr = true) (port : Nat) : .packet n p ∈ (s.originateOn n port p).out := by
  have h1 : ¬((n = .ctl ∧ s.gatesOpen = false) ∨ s.mayOriginate n p.hdr = false) := by
    rintro (⟨hc, hgate⟩ | hno)
    · simp [(hg hc).1] at hgate
    · simp [ho] at hno
  have h2 : ¬(n = .ctl ∧ p.hdr.behindMirror = true ∧ s.mirrorBlocks = true) := by
    rintro ⟨hc, hb, hm⟩
    simp [(hg hc).2 hb] at hm
  unfold State.originateOn
  rw [if_neg h1, if_neg h2]
  exact (link_portSend _ n port p).mem_out (by simp [State.emit])

/-- The packet as it leaves again: RESEND set, and with its CRC. -/
def TxPkt.repeated (t : TxPkt) : Packet := Packet.seal { t.pkt with hdr := { t.pkt.hdr with resend := true } }

theorem State.resendPkt_leaves (hc : t.pkt.hdr.cls ≠ .express)
    (hg : n = .ctl → s.gatesOpen = true ∧ (t.pkt.hdr.behindMirror = true → s.mirrorBlocks = false)) (ho : s.mayOriginate n t.pkt.hdr = true) :
    .packet n t.repeated ∈ (s.resendPkt n t).out := by
  have hkeep (x : StreamTx) : (n = .ctl → (s.setTx n t.pkt.hdr.dest t.pkt.hdr.stream x).gatesOpen = true
      ∧ (t.repeated.hdr.behindMirror = true → (s.setTx n t.pkt.hdr.dest t.pkt.hdr.stream x).mirrorBlocks = false))
      ∧ (s.setTx n t.pkt.hdr.dest t.pkt.hdr.stream x).mayOriginate n t.repeated.hdr = true := by
    cases n with
    | ctl => exact ⟨hg, ho⟩
    | agent a =>
      refine ⟨by simp, ?_⟩
      have hid : (s.setTx (.agent a) t.pkt.hdr.dest t.pkt.hdr.stream x).nodeFid (.agent a) = s.nodeFid (.agent a) := by
        simp [State.nodeFid, (link_setTx s (.agent a) _ _ x).jfld a (g := JX_ID_FABRIC_ID) (by unfold keptField Field.fits Field.apart; decide)]
      unfold State.mayOriginate at ho ⊢
      rw [hid]
      exact ho
  have hwait : (t.pkt.hdr.cls == PktClass.express) = false := by simpa using hc
  unfold State.resendPkt State.emitTx State.originate
  simp only [hwait, Bool.false_eq_true, if_false]
  split
  · exact State.originateOn_leaves (hkeep _).1 (hkeep _).2 _
  · exact State.originateOn_leaves (hkeep _).1 (hkeep _).2 _

theorem TxPkt.repeated_crcOk (t : TxPkt) : t.repeated.crcOk = true := beq_self_eq_true _

/-! ## The retry timer -/

theorem exec_retryTimeout_sent {dest : Fid} {stream : BitVec 16} {seq : BitVec 32} (h : s.sent n dest stream seq = some t) :
    exec (.retryTimeout n dest stream seq) s = if t.waiting ∨ t.parked ∨ s.nodeNow n < t.emittedNs + retryNs t.pkt.hdr.cls then .next s
      else if s.noCount n t ∨ t.resends < 3 then .next (s.resendPkt n t) else .next (s.giveUp n t 0xF0) := by
  simp only [exec, execRetryTimeout, h]

theorem exec_retryTimeout_none {dest : Fid} {stream : BitVec 16} {seq : BitVec 32} (h : s.sent n dest stream seq = none)
    (hn : n ≠ .ctl ∨ ∀ k ∈ s.hooks, k.dest = none → k.stream = stream → k.seq ≠ seq) :
    exec (.retryTimeout n dest stream seq) s = .next s := by
  cases n with
  | agent a => simp only [exec, execRetryTimeout, h]
  | ctl =>
    have hfind : s.hooks.find? (fun k => k.dest.isNone && k.stream == stream && k.seq == seq) = none := by
      rw [List.find?_eq_none]
      intro k hk hm
      simp only [Bool.and_eq_true, Option.isNone_iff_eq_none, beq_iff_eq] at hm
      exact (hn.resolve_left (by simp)) k hk hm.1.1 hm.1.2 hm.2
    simp only [exec, execRetryTimeout, h, hfind]

theorem exec_retryTimeout_bcast {dest : Fid} {stream : BitVec 16} {seq : BitVec 32} (h : s.sent .ctl dest stream seq = none) {k : AckHook}
    {ver : BitVec 32} (hk : s.hooks.find? (fun k => k.dest.isNone && k.stream == stream && k.seq == seq) = some k) (hv : k.kind = .commit ver) :
    exec (.retryTimeout .ctl dest stream seq) s = .next (s.commitUnicast ver dest) := by
  obtain ⟨d, st, sq, kind⟩ := k
  cases hv
  simp only [exec, execRetryTimeout, h, hk]

/-! ## ACK, NAK and RESEND_REQ -/

/-- An answer with AUX 0 names the packet of its own number alone. -/
theorem namedSeqs_aux_zero {h : Header} (ha : h.aux = 0) : namedSeqs h = [h.seq] := by
  simp [namedSeqs, ha]

theorem exec_answer_badCrc (h : p.crcOk = false) : ∀ c ∈ [Instr.ack n p, .nak n p, .resendReq n p, .regResp p], exec c s = .next s := by
  intro c hc
  simp only [List.mem_cons, List.not_mem_nil, or_false] at hc
  rcases hc with rfl | rfl | rfl | rfl <;> exact if_pos h

theorem exec_ack_one (hcrc : p.crcOk = true) (h : s.sent n (originalDest p.hdr) p.hdr.stream p.hdr.seq = some t) (ha : p.hdr.aux = 0) :
    exec (.ack n p) s = .next (if t.unsent = true ∨ t.refused = true then s else s.packetEnd n t 0) := by
  refine (if_neg (by simp [hcrc])).trans ?_
  rw [namedSeqs_aux_zero ha]
  simp only [State.forEach, List.foldl_cons, List.foldl_nil, State.ackOne, h]

theorem exec_resendReq_one (hcrc : p.crcOk = true) (h : s.sent n (originalDest p.hdr) p.hdr.stream p.hdr.seq = some t) (ha : p.hdr.aux = 0)
    (hw : t.waiting = false) (hp : t.parked = false) :
    exec (.resendReq n p) s = .next (if s.noCount n t = true ∨ t.resends < 3 then s.resendPkt n t else s) := by
  refine (if_neg (by simp [hcrc])).trans ?_
  rw [namedSeqs_aux_zero ha]
  simp only [State.forEach, List.foldl_cons, List.foldl_nil, State.resendOne, h, hw, hp, Bool.false_eq_true, or_self, if_false]

/-- What a NAK does to the packet it names. -/
theorem exec_nak_sent (hcrc : p.crcOk = true) (h : s.sent n (originalDest p.hdr) p.hdr.stream p.hdr.seq = some t) {r : Nat}
    (hr : r = p.hdr.aux.toNat % 256) :
    exec (.nak n p) s = if t.unsent ∨ t.parked ∨ t.refused then .next s
      else if finalNak r then .next (s.failPkt n t (nakStatus r))
      else if r = 0 ∨ 10 < r then .next s
      else if s.noCount n t = false ∧ 3 ≤ t.resends then .next (s.giveUp n t r)
      else if r = 1 then .next (if t.waiting then s else s.resendPkt n t)
      else .next (s.refuseTx n t) := by
  subst hr
  refine (if_neg (by simp [hcrc])).trans ?_
  simp only [h]

theorem exec_nak_counted (hcrc : p.crcOk = true) (h : s.sent n (originalDest p.hdr) p.hdr.stream p.hdr.seq = some t) {r : Nat}
    (hr : r = p.hdr.aux.toNat % 256) (hw : t.waiting = false) (hp : t.parked = false) :
    (t.refused = true → exec (.nak n p) s = .next s)
    ∧ (t.refused = false → (r ∈ [2, 3, 4, 9, 10] → exec (.nak n p) s
        = .next (if n ≠ .ctl ∧ keptReport t.pkt.hdr = true then s.park n t else s.packetEnd n t (if r = 9 then 0xF2 else r)))
      ∧ (r ∈ [1, 5, 6, 7, 8] → s.noCount n t = false → 3 ≤ t.resends → exec (.nak n p) s = .next (s.giveUp n t r))
      ∧ (s.noCount n t = true ∨ t.resends < 3 → (r = 1 → exec (.nak n p) s = .next (s.resendPkt n t))
        ∧ (r ∈ [5, 6, 7, 8] → exec (.nak n p) s = .next (s.refuseTx n t)))) := by
  have hu : t.unsent = false := by simp [TxPkt.unsent, hw]
  rw [exec_nak_sent hcrc h hr]
  refine ⟨fun href => if_pos (.inr (.inr href)), fun href => ?_⟩
  rw [if_neg (by simp [hu, hp, href])]
  have hfinal : ∀ r ∈ [2, 3, 4, 9, 10], finalNak r = true := by decide
  have hresend : ∀ r ∈ [1, 5, 6, 7, 8], ¬finalNak r = true ∧ ¬(r = 0 ∨ 10 < r) := by decide
  have hlater : ∀ r ∈ [5, 6, 7, 8], r ∈ [1, 5, 6, 7, 8] ∧ r ≠ 1 := by decide
  refine ⟨fun hm => if_pos (hfinal r hm), fun hm hcount hmax => ?_, fun hmore => ⟨fun h1 => ?_, fun hm => ?_⟩⟩
  · rw [if_neg (hresend r hm).1, if_neg (hresend r hm).2, if_pos ⟨hcount, hmax⟩]
  · have hmore' : ¬(s.noCount n t = false ∧ 3 ≤ t.resends) := fun ⟨hc, hm⟩ => by simp [hc] at hmore; omega
    subst h1
    rw [if_neg (hresend 1 (by decide)).1, if_neg (by decide), if_neg hmore', if_pos rfl, hw, if_neg Bool.false_ne_true]
  · have hmore' : ¬(s.noCount n t = false ∧ 3 ≤ t.resends) := fun ⟨hc, hm⟩ => by simp [hc] at hmore; omega
    rw [if_neg (hresend r (hlater r hm).1).1, if_neg (hresend r (hlater r hm).1).2, if_neg hmore', if_neg (hlater r hm).2]

/-! ## READ_RESP and REG_RESP -/

theorem State.takeReadResp_request {u : State} (h : u.sent n p.hdr.src (BitVec.ofNat 16 (bitsAt p.hdr.addr.toNat 32 16))
      (BitVec.ofNat 32 (bitsAt p.hdr.addr.toNat 0 32)) = some t) (ht : t.pkt.hdr.typ = 0x03) :
    u.takeReadResp n p = ((u.emit (.delivered n 0x1FF p)).packetEnd n t 0, none) := by
  simp only [State.takeReadResp, h, ht, if_true]

theorem State.takeReadResp_none {u : State} (h : u.sent n p.hdr.src (BitVec.ofNat 16 (bitsAt p.hdr.addr.toNat 32 16))
      (BitVec.ofNat 32 (bitsAt p.hdr.addr.toNat 0 32)) = none) : u.takeReadResp n p = (u, none) := by
  simp only [State.takeReadResp, h]

/-- A fresh READ_RESP has its effect at the controller, and at an endpoint that takes it. -/
theorem exec_readResp_fresh (hf : s.freshPacket n p) {u v : State} (hctl : n = .ctl → u = s)
    (hagent : ∀ a, n = .agent a → u = s.wokenAt a ∧ (a.variant = .e → s.computeUp a = true ∧ (s.agent a).lowPower ≠ 2)
      ∧ ((s.agent a).partition = 0 → p.hdr.partition = 0)) (hv : u.takeReadResp n p = (v, none)) :
    u.nodeStreams n = s.nodeStreams n ∧ exec (.readResp n p) s = .next (v.acked n p) := by
  cases n with
  | ctl =>
    obtain rfl := hctl rfl
    refine ⟨rfl, next_congr ?_⟩
    exact State.accept_taken hf hv
  | agent a =>
    obtain ⟨rfl, hup, hp⟩ := hagent a rfl
    refine ⟨s.wokenAt_streams a, next_congr ?_⟩
    rw [State.deliverTo_fresh hup hf hp, hv]

/-- Settles O32, along the answers: each names a packet, and the packet's state says what the answer comes to. -/
theorem answerResults : Obligations.AnswerResults := by
  intro s n p dest stream seq t r
  refine ⟨fun h => ⟨exec_retryTimeout_none h, ?_⟩, fun h => ⟨fun hnot => ?_, fun hw hp hdue => ?_⟩, ⟨rfl, rfl, rfl⟩, ?_, fun h => exec_answer_badCrc h,
    fun hcrc hr h => ⟨exec_ack_one hcrc h, fun hw hp => ⟨fun ha => exec_resendReq_one hcrc h ha hw hp, exec_nak_counted hcrc h hr hw hp⟩⟩, ?_, ?_, ?_⟩
  · rintro rfl k ver hk hv
    exact exec_retryTimeout_bcast h hk hv
  · rw [exec_retryTimeout_sent h, if_pos hnot]
  · rw [exec_retryTimeout_sent h, if_neg (by simp [hw, hp]; omega), ← apply_ite]
  · exact fun hc hg ho => ⟨t.repeated, State.resendPkt_leaves hc hg ho, rfl, rfl, rfl, t.repeated_crcOk⟩
  · rintro a rfl hv hdown hc
    exact next_congr (State.deliverTo_down hv (.inl hdown) hc _)
  · rintro hf u x rfl hctl hagent
    have hsame : u.nodeStreams n = s.nodeStreams n := by
      cases n with
      | ctl => rw [hctl rfl]
      | agent a =>
        rw [(hagent a rfl).1]
        exact s.wokenAt_streams a
    refine ⟨fun h ht => ?_, fun h => ?_⟩
    · rw [← State.sent_of_streams hsame] at h
      exact (exec_readResp_fresh hf hctl hagent (State.takeReadResp_request h ht)).2
    · rw [← State.sent_of_streams hsame] at h
      exact (exec_readResp_fresh hf hctl hagent (State.takeReadResp_none h)).2
  · intro hcrc
    have hok : ¬p.crcOk = false := by simp [hcrc]
    refine ⟨fun h => ?_, fun h ht => ?_, fun h ht hst => ?_, fun h ht hst => ?_, fun h h1 h2 => ?_⟩
    · simp only [exec, execRegResp, if_neg hok, h]
    · simp only [exec, execRegResp, if_neg hok, h, ht]
      rfl
    · simp only [exec, execRegResp, if_neg hok, h, ht, hst, and_false, if_false]
      rfl
    · simp only [exec, execRegResp, if_neg hok, h, ht, hst, and_true, if_true]
      rfl
    · simp only [exec, execRegResp, if_neg hok, h, if_pos (And.intro h1 h2)]

end Sys2Proof.Machine
end

section
/-! The collector: the queue an event enters, the entry served next, forced events and the clearing of FAULT_N. -/

namespace Sys2Proof.Machine

variable {s : State} {e : Event} {lvl : Level} {v : Word64}

/-! ## Arrival (R369 to R371) -/

/-- The oldest event on its way, taken off. -/
theorem exec_eventIngress_oldest {l : List Event} (h : s.col.raised = e :: l) : exec (.eventIngress none) s
    = .next (match ({ s with col := { s.col with raised := l } } : State).ingest e with | some x => x | none => s) := by
  refine next_congr ?_
  simp only [State.ingestNext, h] <;> rfl

/-- An event that finds no entry to merge with enters the reserved part, the general part, or neither. -/
theorem State.ingest_unmerged (hm : mergeQueued s.col.queue e = none) :
    s.ingest e = if 3 ≤ e.severity ∧ reservedUsed s.col.queue < 256 then some (s.setIngress (s.col.queue ++ [{ ev := e, reserved := true }]))
      else if generalUsed s.col.queue < 3840 then some (s.setIngress (s.col.queue ++ [{ ev := e, reserved := false }]))
      else match lowestBelow s.col.queue e.severity with
        | some v => some ((s.noteDropped v (((s.col.queue.reverse.find? fun e => e.ev.severity == v).map (·.ev.count)).getD 1)).setIngress
            (removeLast (fun e => e.ev.severity == v) s.col.queue ++ [{ ev := e, reserved := false }]))
        | none => if 3 ≤ e.severity then none else some (s.noteDropped e.severity e.count) := by
  simp only [State.ingest, hm] <;> rfl

theorem exec_eventIngress_unmerged {l : List Event} (h : s.col.raised = e :: l) (hm : mergeQueued s.col.queue e = none) {u : State}
    (hu : u = { s with col := { s.col with raised := l } }) :
    (3 ≤ e.severity → reservedUsed s.col.queue < 256 → exec (.eventIngress none) s
        = .next (u.setIngress (s.col.queue ++ [{ ev := e, reserved := true }])))
    ∧ (e.severity < 3 ∨ 256 ≤ reservedUsed s.col.queue → generalUsed s.col.queue < 3840 → exec (.eventIngress none) s
        = .next (u.setIngress (s.col.queue ++ [{ ev := e, reserved := false }])))
    ∧ (generalUsed s.col.queue ≥ 3840 → lowestBelow s.col.queue e.severity = none →
        (e.severity < 3 → exec (.eventIngress none) s = .next (u.noteDropped e.severity e.count))
        ∧ (3 ≤ e.severity → 256 ≤ reservedUsed s.col.queue → exec (.eventIngress none) s = .next s)) := by
  have hq : u.col.queue = s.col.queue := by rw [hu]
  rw [exec_eventIngress_oldest h, ← hu, State.ingest_unmerged (by rw [hq]; exact hm), hq]
  refine ⟨fun h3 hr => ?_, fun h3 hg => ?_, fun hg hl => ⟨fun h3 => ?_, fun h3 hr => ?_⟩⟩
  · rw [if_pos ⟨h3, hr⟩]
  · rw [if_neg (by omega), if_pos hg]
  · rw [if_neg (by omega), if_neg (by omega), hl]
    simp only [if_neg (show ¬3 ≤ e.severity by omega)]
  · rw [if_neg (by omega), if_neg (by omega), hl]
    simp only [if_pos h3]

theorem State.setIngress_used (l : List QEntry) : (s.setIngress l).fld FLT_STATUS_QUEUE_USED = l.length % 2 ^ 13 := by
  have hfits : FLT_STATUS_QUEUE_USED.fits := by unfold Field.fits; decide
  exact (State.fld_setFld_apart _ (by unfold Field.fits; decide) hfits (by unfold Field.apart; decide) _).trans (State.fld_setFld_self _ hfits _)

/-! ## Service (R373) -/

theorem exec_eventServe_none_waits (hw : s.col.lre0Wait = []) : exec .eventServe s = match nextServed s.col.queue with
    | none => .next s
    | some q =>
      if s.col.accountNs < 250 ∨ 65536 ≤ s.led.buffer.length ∨ s.pausing then .next s
      else .next ((({ s with col := { s.col with accountNs := if (removeFirst (· == q) s.col.queue).isEmpty then 0 else s.col.accountNs - 250 } } : State).setIngress
          (removeFirst (· == q) s.col.queue)).serve q.ev q.lastNs) := by
  simp only [exec, execEventServe, State.flushLre0, hw] <;> rfl

/-- The entry served next is in the queue, and of severity 3 or 4 where one is. -/
theorem nextServed_spec {l : List QEntry} {q : QEntry} (h : nextServed l = some q) :
    q ∈ l ∧ (q.ev.severity < 3 → ∀ x ∈ l, x.ev.severity < 3) := by
  unfold nextServed at h
  split at h
  · next u hu =>
    cases h
    have hsev := List.find?_some hu
    simp only [decide_eq_true_eq] at hsev
    exact ⟨List.mem_of_find?_eq_some hu, fun hlow => by omega⟩
  · next hnone =>
    refine ⟨List.mem_of_head? h, fun _ x hx => ?_⟩
    simpa using List.find?_eq_none.1 hnone x hx

/-! ## Registers of a source (R364, R365) -/

theorem State.reg_violation_ne (lvl : Level) (off : Nat) (h : off ≠ FLT_VIOL) : (s.violation lvl).reg off = s.reg off := by
  cases lvl <;> exact State.reg_setFld_off s h _

/-- A forced event on a source that is not masked joins those on their way, with detail 0xFFFF. -/
theorem State.forceSource_raised {n : Nat} (hm : s.fld (FLT_SRCn_MASK.at (fltSrc n)) ≠ 1) :
    ∃ x l r, (s.forceSource n).col.raised = l ++ x :: r ∧ l ++ r = s.col.raised ∧ x.forced = true ∧ x.detail = 0xFFFF ∧ x.source = n := by
  unfold State.forceSource
  simp only [if_neg hm]
  exact ⟨_, _, _, rfl, List.takeWhile_append_dropWhile, rfl, rfl, rfl⟩

theorem State.writeSource_raised {n : Nat} (hforce : FLT_SRCn_FORCE.of v = 1)
    (hmask : FLT_SRCn_MASK.of (srcWrite (defaultSev n) (s.reg (fltSrc n)) v).1 = 0) : ∃ x l r,
    (s.writeSource lvl n v).col.raised = l ++ x :: r ∧ l ++ r = s.col.raised ∧ x.forced = true ∧ x.detail = 0xFFFF ∧ x.source = n := by
  have hviol : fltSrc n ≠ FLT_VIOL := by simp only [fltSrc, FLT_SRCn, FLT_VIOL]; omega
  unfold State.writeSource
  simp only [if_pos hforce]
  generalize srcWrite (defaultSev n) (s.reg (fltSrc n)) v = w at hmask ⊢
  have hreg : (if w.2 = true then (s.setReg (fltSrc n) w.1).violation lvl else s.setReg (fltSrc n) w.1).reg (fltSrc n) = w.1 := by
    split
    · rw [State.reg_violation_ne lvl _ hviol, State.reg_setReg_self]
    · exact State.reg_setReg_self ..
  have hraised : (if w.2 = true then (s.setReg (fltSrc n) w.1).violation lvl else s.setReg (fltSrc n) w.1).col.raised = s.col.raised := by
    split <;> simp
  generalize (if w.2 = true then (s.setReg (fltSrc n) w.1).violation lvl else s.setReg (fltSrc n) w.1) = u at hreg hraised ⊢
  have hzero : (FLT_SRCn_MASK.at (fltSrc n)).of (u.reg (fltSrc n)) ≠ 1 := by
    rw [hreg]
    exact fun h => absurd (hmask.symm.trans h) (by decide)
  rw [← hraised]
  split
  · exact State.forceSource_raised (s := { u with col := { u.col with captures := u.col.captures.erase n } }) hzero
  · exact State.forceSource_raised hzero

/-! ## FAULT_N (R382) -/

/-- FLT_CFG with FORCE_SAFE and an admitted FAULTN_SEV of a write. -/
def State.cfgWritten (s : State) (v : Word64) : State :=
  let s := s.setFld FLT_CFG_FORCE_SAFE (FLT_CFG_FORCE_SAFE.of v)
  if 1 ≤ FLT_CFG_FAULTN_SEV.of v ∧ FLT_CFG_FAULTN_SEV.of v ≤ 4 then s.setFld FLT_CFG_FAULTN_SEV (FLT_CFG_FAULTN_SEV.of v) else s

/-- A block of at least FAULTN_SEV is out of service. -/
def State.badBlock (s : State) : Bool :=
  (List.range 64).any fun b => s.blk FLT_BLKn_STATE b != 0 && decide (s.fld FLT_CFG_FAULTN_SEV ≤ s.blk FLT_BLKn_WORST b)

theorem State.writeFltCfg_eq (s : State) (v : Word64) : s.writeFltCfg v = if FLT_CFG_FAULTN_CLR.of v = 1 ∧ (s.cfgWritten v).badBlock = false
    then ({ s.cfgWritten v with pwr := { (s.cfgWritten v).pwr with faultN := true } } : State).setFld FLT_STATUS_FAULTN 0
    else s.cfgWritten v := rfl

theorem State.cfgWritten_reg {off : Nat} (h : off ≠ FLT_CFG) : (s.cfgWritten v).reg off = s.reg off := by
  unfold State.cfgWritten
  dsimp only
  split
  · exact (State.reg_setFld_off _ h _).trans (State.reg_setFld_off _ h _)
  · exact State.reg_setFld_off _ h _

theorem State.cfgWritten_blk (f : Field) (b : Nat) : (s.cfgWritten v).blk f b = s.blk f b := by
  refine congrArg f.of (State.cfgWritten_reg ?_)
  simp only [Field.at, fltBlk, FLT_BLKn, FLT_CFG]
  omega

theorem State.cfgWritten_pwr : (s.cfgWritten v).pwr = s.pwr := by unfold State.cfgWritten; dsimp only; split <;> rfl

theorem State.cfgWritten_out : (s.cfgWritten v).out = s.out := by unfold State.cfgWritten; dsimp only; split <;> rfl

theorem State.cfgWritten_sev (h1 : 1 ≤ FLT_CFG_FAULTN_SEV.of v) (h4 : FLT_CFG_FAULTN_SEV.of v ≤ 4) :
    (s.cfgWritten v).fld FLT_CFG_FAULTN_SEV = FLT_CFG_FAULTN_SEV.of v := by
  unfold State.cfgWritten
  rw [if_pos ⟨h1, h4⟩, State.fld_setFld_self _ (by unfold Field.fits; decide)]
  refine Nat.mod_eq_of_lt (lt_of_le_of_lt h4 ?_)
  decide

theorem State.badBlock_cfgWritten_of_service (h : ∀ b < 64, s.blk FLT_BLKn_STATE b = 0) : (s.cfgWritten v).badBlock = false := by
  rw [State.badBlock, List.any_eq_false]
  intro b hb
  rw [State.cfgWritten_blk, h b (List.mem_range.1 hb)]
  simp

theorem State.badBlock_cfgWritten {b : Nat} (h1 : 1 ≤ FLT_CFG_FAULTN_SEV.of v) (h4 : FLT_CFG_FAULTN_SEV.of v ≤ 4) (hb : b < 64)
    (hst : s.blk FLT_BLKn_STATE b ≠ 0) (hw : FLT_CFG_FAULTN_SEV.of v ≤ s.blk FLT_BLKn_WORST b) : (s.cfgWritten v).badBlock = true := by
  rw [State.badBlock, List.any_eq_true]
  refine ⟨b, List.mem_range.2 hb, ?_⟩
  rw [State.cfgWritten_blk, State.cfgWritten_blk, State.cfgWritten_sev h1 h4]
  simp [hst, hw]

theorem exec_faultnClr_operator (hl : lvl ≠ .tenant) : exec (.faultnClr lvl v) s = .next (s.writeFltCfg v) := by
  cases lvl
  case tenant => exact absurd rfl hl
  all_goals rfl

/-- A level above the tenant's reaches the source's register. -/
theorem exec_sourceWrite_operator {n : Nat} (hl : lvl ≠ .tenant) :
    exec (.severityWrite lvl n v) s = (if n < 8192 then .next (s.writeSource lvl n v) else .next s)
    ∧ exec (.fltForce lvl n v) s = (if n < 8192 ∧ FLT_SRCn_FORCE.of v = 1 then .next (s.writeSource lvl n v) else .next s) := by
  cases lvl
  case tenant => exact absurd rfl hl
  all_goals exact ⟨rfl, rfl⟩

/-- Settles O34: arrival by the queue's parts, service by its order, and the registers' writes by the fields they reach. -/
theorem collectorResults : Obligations.CollectorResults := by
  intro s e n lvl v
  refine ⟨rfl, fun h => ?_, fun l m h hm => ?_, fun l h hm u hu => exec_eventIngress_unmerged h hm hu, fun l => ⟨rfl, State.setIngress_used l⟩,
    fun hw => ⟨fun hno => ?_, fun q hq hns hroom hp l hl => ?_⟩, fun l q h => nextServed_spec h, rfl, rfl, rfl,
    fun hl hn => ⟨?_, fun hf => ?_, fun hf => ⟨?_, State.writeSource_raised hf⟩⟩, fun hl hclr hserv => ?_, fun hl b k hk h1 h4 hb hst hw => ?_⟩
  · refine next_congr ?_
    simp only [State.ingestNext, h]
  · rw [exec_eventIngress_oldest h, State.ingest, hm]
  · rw [exec_eventServe_none_waits hw]
    split
    · rfl
    · next q hq =>
      refine if_pos (hno.resolve_left fun hempty => ?_)
      rw [hempty] at hq
      simp [nextServed] at hq
  · rw [exec_eventServe_none_waits hw, hq]
    subst hl
    exact if_neg (by rw [hp]; simp; omega)
  · rw [(exec_sourceWrite_operator hl).1, if_pos hn]
  · rw [(exec_sourceWrite_operator hl).2, if_neg (by omega)]
  · rw [(exec_sourceWrite_operator hl).2, if_pos ⟨hn, hf⟩]
  · refine ⟨_, (exec_faultnClr_operator hl).trans (next_congr ((s.writeFltCfg_eq v).trans
      (if_pos ⟨hclr, State.badBlock_cfgWritten_of_service hserv⟩))), ?_, ?_, State.cfgWritten_out⟩
    · exact State.fld_setFld_self _ (by unfold Field.fits; decide) 0
    · exact congrArg (fun x : PowerSt => { x with faultN := true }) State.cfgWritten_pwr
  · subst hk
    have hbad : ¬(FLT_CFG_FAULTN_CLR.of v = 1 ∧ (s.cfgWritten v).badBlock = false) := by
      rw [State.badBlock_cfgWritten h1 h4 hb hst hw]
      simp
    refine ⟨_, (exec_faultnClr_operator hl).trans (next_congr ((s.writeFltCfg_eq v).trans (if_neg hbad))), ?_, State.cfgWritten_pwr,
      State.cfgWritten_sev h1 h4, State.cfgWritten_out⟩
    exact congrArg FLT_STATUS_FAULTN.of (State.cfgWritten_reg (by decide))

end Sys2Proof.Machine
end

section
/-! The tables of an agent: an install into the shadow bank, its commit, the end of a copy and the staging slots. -/

namespace Sys2Proof.Machine

variable {s : State} {a : AgentRef} {p : Packet}

/-! ## INSTALL (R155) -/

theorem exec_install_owner (h : s.ownerPacket a p) {v : BitVec 32} (hv : v = BitVec.ofNat 32 (bitsAt p.hdr.addr.toNat 0 32)) :
    exec (.install a p) s = .next (match s.takeInstall a v p.payload with
      | (t, none) => t.acked (.agent a) p
      | (t, some r) => t.nakPkt (.agent a) p.hdr r) := by
  subst hv
  exact next_congr (State.fromOwner_accept h _)

theorem exec_install_refused (h : s.ownerPacket a p) {v : BitVec 32} (hv : v = BitVec.ofNat 32 (bitsAt p.hdr.addr.toNat 0 32))
    (hno : (s.agent a).play ≠ none ∨ v = s.version a) : exec (.install a p) s = .next (s.nakPkt (.agent a) p.hdr 0x09) := by
  have hrefuse : (s.agent a).play.isSome ∨ v = s.version a := hno.imp_left Option.isSome_iff_ne_none.2
  rw [exec_install_owner h hv, State.takeInstall]
  dsimp only
  rw [if_pos hrefuse]

/-- The agent with an INSTALL's payload, in its shadow bank or deferred behind a copy. -/
def Agent.installed (g : Agent) (x : Variant) (v : BitVec 32) (l : List Byte) : Agent :=
  { (if g.copying then { g with deferred := g.deferred ++ [l] } else g.writeShadow x l) with shadowHolds := some v }

theorem exec_install_taken (h : s.ownerPacket a p) {v : BitVec 32} (hv : v = BitVec.ofNat 32 (bitsAt p.hdr.addr.toNat 0 32))
    (hplay : (s.agent a).play = none) (hnew : v ≠ s.version a) (hbank : (s.agent a).shadowHolds = none ∨ (s.agent a).shadowHolds = some v) :
    exec (.install a p) s = .next ((s.updAgent a fun g => g.installed a.variant v p.payload).acked (.agent a) p) := by
  have hgo : ¬((s.agent a).play.isSome ∨ v = s.version a) := by simp [hplay, hnew]
  rw [exec_install_owner h hv, State.takeInstall]
  dsimp only
  rw [if_neg hgo, if_pos hbank]
  rfl

theorem Agent.installed_active (g : Agent) (x : Variant) (v : BitVec 32) (l : List Byte) : (g.installed x v l).active = g.active := by
  unfold Agent.installed Agent.writeShadow
  dsimp only
  split
  · rfl
  · split <;> rfl

theorem Agent.installed_copying {g : Agent} (h : g.copying = true) (x : Variant) (v : BitVec 32) (l : List Byte) :
    (g.installed x v l).deferred = g.deferred ++ [l] ∧ (g.installed x v l).shadow = g.shadow := by
  unfold Agent.installed
  rw [if_pos h]
  exact ⟨rfl, rfl⟩

theorem Agent.installed_patches {g : Agent} (h : g.copying = false) {x : Variant} {l : List Byte} {k : List Patch}
    (hk : parsePatches x l.length l = some k) (v : BitVec 32) : (g.installed x v l).shadow = g.shadow.patches k := by
  unfold Agent.installed Agent.writeShadow
  rw [if_neg (by simp [h]), hk]

theorem Agent.installed_broken {g : Agent} (h : g.copying = false) {x : Variant} {l : List Byte} (hk : parsePatches x l.length l = none)
    (v : BitVec 32) : (g.installed x v l).shadow = g.shadow ∧ (g.installed x v l).shadowBad = some 36 := by
  unfold Agent.installed Agent.writeShadow
  rw [if_neg (by simp [h]), hk]
  exact ⟨rfl, rfl⟩

/-! ## COMMIT (R155) -/

theorem exec_commit_owner (h : s.ownerPacket a p) {v e : BitVec 32} (hv : v = BitVec.ofNat 32 (bitsAt p.hdr.addr.toNat 0 32))
    (he : e = BitVec.ofNat 32 (leAt p.payload 0 4)) : exec (.commit a p) s = .next (match s.takeCommit a v e with
      | (t, none) => t.acked (.agent a) p
      | (t, some r) => t.nakPkt (.agent a) p.hdr r) := by
  subst hv he
  exact next_congr (State.fromOwner_accept h _)

/-- Slots of the geometry the next bank runs under. -/
def Agent.commitSlots (f : Agent) : Nat := match f.pendingGeometry with | some (k, _, _) => k | none => f.geometry.1

/-- The first fault of the bank a COMMIT names. -/
def Agent.commitFault (f : Agent) (x : Variant) : Option Nat :=
  match f.shadowBad with
  | some k => some k
  | none => f.shadow.fault x f.commitSlots

section
variable {v e : BitVec 32}

theorem State.takeCommit_late (h : s.epochBegun a e = true) : s.takeCommit a v e = (s.raiseAgent a 33 2 (low16 v), some 0x09) := by
  rw [State.takeCommit]
  exact if_pos h

theorem State.takeCommit_play (he : s.epochBegun a e = false) (h : (s.agent a).play ≠ none) : s.takeCommit a v e = (s, some 0x09) := by
  have hsome : (s.agent a).play.isSome = true := Option.isSome_iff_ne_none.2 h
  rw [State.takeCommit]
  exact (if_neg (by simp [he])).trans (if_pos hsome)

/-- A commit in time, while no play is pending. -/
theorem State.takeCommit_open (he : s.epochBegun a e = false) (h : (s.agent a).play = none) :
    s.takeCommit a v e = if (s.agent a).shadowHolds = none ∧ v = s.version a then (s, none)
      else if (s.agent a).shadowHolds = none ∨ (s.agent a).shadowHolds = some v then
        match ((s.agent a).finishCopy a.variant).commitFault a.variant with
        | some k => (s.raiseAgent a k 2 (low16 v), some 0x09)
        | none => (s.updAgent a fun g => { g with commitAt := some (v, e) }, none)
      else (s, some 0x09) := by
  rw [State.takeCommit]
  exact (if_neg (by simp [he])).trans (if_neg (by simp [h]))

theorem State.takeCommit_checked (he : s.epochBegun a e = false) (h : (s.agent a).play = none)
    (hbank : (s.agent a).shadowHolds = some v ∨ ((s.agent a).shadowHolds = none ∧ v ≠ s.version a)) :
    s.takeCommit a v e = match ((s.agent a).finishCopy a.variant).commitFault a.variant with
      | some k => (s.raiseAgent a k 2 (low16 v), some 0x09)
      | none => (s.updAgent a fun g => { g with commitAt := some (v, e) }, none) := by
  rw [State.takeCommit_open he h]
  rcases hbank with hb | ⟨hb, hv⟩
  · rw [if_neg (by simp [hb]), if_pos (.inr hb)]
  · rw [if_neg (by simp [hv]), if_pos (.inl hb)]

end

/-- Settles O37: what an INSTALL leaves of the agent, and a COMMIT by the check that decides it. -/
theorem installResults : Obligations.InstallResults := by
  rintro s a p n g f v e rfl rfl rfl h hv he
  have hcommit := exec_commit_owner h hv he
  refine ⟨fun hplay => ⟨exec_install_refused h hv (.inl hplay), fun hb => ?_⟩, fun hver => exec_install_refused h hv (.inr hver),
    fun hplay hnew hbank => ?_, fun hc => ?_, fun hb => ?_, fun hplay hb => ⟨fun hnone hver => ?_, fun w hw hne => ?_, fun hbank slots hslots => ?_⟩⟩
  · rw [hcommit, State.takeCommit_play hb hplay]
  · refine ⟨_, exec_install_taken h hv hplay hnew hbank, ?_⟩
    generalize hu : (s.updAgent a fun g => g.installed a.variant v p.payload) = u
    have hag : u.agent a = (s.agent a).installed a.variant v p.payload := by rw [← hu, State.agent_updAgent_self]
    have hlink := link_acked u (.agent a) p
    have hget {α : Type} (f : Agent → α) (hf : ∀ g : Agent, f g.core = f g) := (hlink.get a f hf).trans (congrArg f hag)
    have honly := linkOnly_trans (hu ▸ linkOnly_updAgent s a _) hlink.linkOnly
    refine ⟨hget Agent.shadowHolds fun _ => rfl, (hget Agent.active fun _ => rfl).trans (Agent.installed_active ..),
      LinkOnly_regs honly, LinkOnly_engines honly, fun hc => ⟨(hget Agent.deferred fun _ => rfl).trans (Agent.installed_copying hc _ _ _).1,
        (hget Agent.shadow fun _ => rfl).trans (Agent.installed_copying hc _ _ _).2⟩,
      fun l hc hl => (hget Agent.shadow fun _ => rfl).trans (Agent.installed_patches hc hl v),
      fun hc hl => ⟨(hget Agent.shadow fun _ => rfl).trans (Agent.installed_broken hc hl v).1,
        (hget Agent.shadowBad fun _ => rfl).trans (Agent.installed_broken hc hl v).2⟩, fun b hb => ?_⟩
    · refine (hlink.agent_ne fun hn => hb (Node.agent.inj hn).symm).trans ?_
      rw [← hu, State.agent_updAgent_ne _ _ hb]
  · rw [Agent.finishCopy, if_neg (by simp [hc])]
  · rw [hcommit, State.takeCommit_late hb]
  · rw [hcommit, State.takeCommit_open hb hplay, if_pos ⟨hnone, hver⟩]
  · rw [hcommit, State.takeCommit_open hb hplay, if_neg (by simp [hw]), if_neg (by simp [hw, hne])]
  · rw [hcommit, State.takeCommit_checked hb hplay hbank, Agent.commitFault]
    have hs : ((s.agent a).finishCopy a.variant).commitSlots = slots := hslots.symm
    refine ⟨fun k hk => ?_, fun k hk hf => ?_, fun hk hf => ?_⟩
    · rw [hk]
    · rw [hk, hs]
      dsimp only
      rw [hf]
    · rw [hk, hs]
      dsimp only
      rw [hf]

end Sys2Proof.Machine
end

section
/-! The staging slots of an agent, and the end of a copy. -/

namespace Sys2Proof.Machine

variable {s : State} {a : AgentRef} {p : Packet}

/-! ## A staging slot -/

theorem State.setStaged_eq (s : State) (a : AgentRef) (slot : Nat) (x : Staged) : ∃ w, s.setStaged a slot x
    = (s.updAgent a fun g => { g with staged := g.staged.set slot x }).setJx a JX_GAMBIT_STAGED w := ⟨_, rfl⟩

theorem State.agent_setJx (s : State) (a : AgentRef) (off : Nat) (w : Word64) :
    (s.setJx a off w).agent a = { s.agent a with jx := (s.agent a).jx.set off w } := State.agent_updAgent_self ..

theorem State.staged_setStaged_self (s : State) (a : AgentRef) (slot : Nat) (x : Staged) : (s.setStaged a slot x).staged a slot = x := by
  obtain ⟨j, hj⟩ := s.setStaged_eq a slot x
  rw [hj, State.staged, State.agent_setJx, State.agent_updAgent_self]
  exact NMap.getD_set_self ..

theorem State.staged_setStaged_ne (s : State) (a : AgentRef) {slot i : Nat} (x : Staged) (h : i ≠ slot) :
    (s.setStaged a slot x).staged a i = s.staged a i := by
  obtain ⟨j, hj⟩ := s.setStaged_eq a slot x
  rw [hj, State.staged, State.agent_setJx, State.agent_updAgent_self]
  exact NMap.getD_set_ne _ _ _ h

theorem State.setStaged_regs (s : State) (a : AgentRef) (slot : Nat) (x : Staged) : (s.setStaged a slot x).regs = s.regs := rfl

theorem State.setStaged_engines (s : State) (a : AgentRef) (slot : Nat) (x : Staged) : (s.setStaged a slot x).engines = s.engines := rfl

/-- The bit of JX_GAMBIT_STAGED says whether the slot is valid. -/
theorem State.stagedBit_setStaged (s : State) (a : AgentRef) {slot : Nat} (hs : slot < 64) (x : Staged) :
    ((s.setStaged a slot x).jx a JX_GAMBIT_STAGED).getLsbD slot = x.valid := by
  unfold State.setStaged State.setValid
  rw [State.jx_setJx_self]
  have hbit : (BitVec.ofNat 64 (2 ^ slot)).getLsbD slot = true := by
    rw [BitVec.getLsbD_ofNat, Nat.testBit_two_pow_self, decide_eq_true hs, Bool.and_self]
  cases x.valid
  · rw [if_neg Bool.false_ne_true, BitVec.getLsbD_and, BitVec.getLsbD_not, hbit]
    simp
  · rw [if_pos rfl, BitVec.getLsbD_or, hbit, Bool.or_true]

theorem stageSlot_lt (h : Header) : stageSlot h < 64 := Nat.mod_lt _ (by decide)

/-- What an acknowledgement leaves of the slots. -/
theorem State.staged_acked (u : State) (i : Nat) : (u.acked (.agent a) p).staged a i = u.staged a i :=
  congrArg (fun m : NMap Staged => m.getD i {}) ((link_acked u (.agent a) p).get a Agent.staged fun _ => rfl)

theorem State.stagedBits_acked (u : State) : (u.acked (.agent a) p).jx a JX_GAMBIT_STAGED = u.jx a JX_GAMBIT_STAGED :=
  (link_acked u (.agent a) p).jx a (by decide) (by decide) (by decide)

/-! ## STAGE messages -/

theorem exec_stageWrite_owner (h : s.ownerPacket a p) : exec (.stageWrite a p) s = .next (match s.takeStage a p.hdr p.payload with
      | (t, none) => t.acked (.agent a) p
      | (t, some r) => t.nakPkt (.agent a) p.hdr r) := next_congr (State.fromOwner_accept h _)

/-- A slot with one more write in it. -/
def Staged.written (x : Staged) (v : Variant) (off : Nat) (l : List Byte) : Staged :=
  let m := x.bytes.writeBytes off l
  let tag := if off = 0 then some (sectionGambit m) else x.tag
  let arrived := x.arrived ++ [(off, l.length)]
  let ok := tag.isSome && sectionOk m arrived (slotBytes v)
  { tag := tag, valid := ok, base := if ok then sectionBase m else x.base, bytes := m, arrived := arrived }

theorem State.takeStage_eq (s : State) (a : AgentRef) (h : Header) (l : List Byte) : s.takeStage a h l =
    if (s.staged a (stageSlot h)).valid = true ∨ slotBytes a.variant < bitsAt h.addr.toNat 0 18 + l.length ∨ stageOp h = 3 then (s, some 0x09)
    else (s.setStaged a (stageSlot h) ((s.staged a (stageSlot h)).written a.variant (bitsAt h.addr.toNat 0 18) l), none) := rfl

theorem exec_stageInvalidate_owner (h : s.ownerPacket a p) :
    exec (.stageInvalidate a p) s = .next ((s.setStaged a (stageSlot p.hdr) {}).acked (.agent a) p) := next_congr (State.fromOwner_accept h _)

/-- A tagged slot on a new base version. -/
def State.rebase (s : State) (a : AgentRef) (v : BitVec 32) (i : Nat) : State :=
  if (s.staged a i).tag.isSome then s.setStaged a i { s.staged a i with base := v } else s

theorem exec_stageRebase_owner (h : s.ownerPacket a p) : exec (.stageRebase a p) s
    = .next ((s.forEach ((List.range 64).filter fun i => bitsAt (leAt p.payload 0 8) i 1 == 1) fun s i =>
        s.rebase a (BitVec.ofNat 32 (bitsAt p.hdr.addr.toNat 0 32)) i).acked (.agent a) p) := next_congr (State.fromOwner_accept h _)

theorem State.rebase_regs (s : State) (a : AgentRef) (v : BitVec 32) (i : Nat) : (s.rebase a v i).regs = s.regs := by
  unfold State.rebase
  split <;> rfl

theorem State.staged_rebase_self (s : State) (a : AgentRef) (v : BitVec 32) (i : Nat) :
    (s.rebase a v i).staged a i = if (s.staged a i).tag.isSome = true then { s.staged a i with base := v } else s.staged a i := by
  unfold State.rebase
  split
  · exact State.staged_setStaged_self ..
  · rfl

theorem State.staged_rebase_ne (s : State) (a : AgentRef) (v : BitVec 32) {i k : Nat} (h : k ≠ i) : (s.rebase a v i).staged a k = s.staged a k := by
  unfold State.rebase
  split
  · exact State.staged_setStaged_ne _ _ _ h
  · rfl

/-- Over a list of slots, those of the list that are tagged stand on the new base. -/
theorem State.forEach_rebase (a : AgentRef) (v : BitVec 32) (l : List Nat) (hl : l.Nodup) (s : State) :
    (s.forEach l fun s i => s.rebase a v i).regs = s.regs ∧ ∀ i, (s.forEach l fun s i => s.rebase a v i).staged a i
      = if i ∈ l ∧ (s.staged a i).tag.isSome = true then { s.staged a i with base := v } else s.staged a i := by
  induction l generalizing s with
  | nil => exact ⟨rfl, fun i => by simp [State.forEach]⟩
  | cons k l ih =>
    obtain ⟨hk, hl⟩ := List.nodup_cons.1 hl
    obtain ⟨hregs, hstaged⟩ := ih hl (s.rebase a v k)
    refine ⟨hregs.trans (s.rebase_regs a v k), fun i => (hstaged i).trans ?_⟩
    by_cases hi : i = k
    · subst hi
      rw [if_neg (by simp [hk]), State.staged_rebase_self]
      simp
    · rw [State.staged_rebase_ne _ _ _ hi]
      simp [hi]

/-! ## The end of a copy (R45) -/

/-- Deferred patches reach the shadow bank alone. -/
theorem Agent.writeShadow_keeps (g : Agent) (v : Variant) (l : List Byte) :
    (g.writeShadow v l).active = g.active ∧ (g.writeShadow v l).deferred = g.deferred ∧ (g.writeShadow v l).copying = g.copying := by
  unfold Agent.writeShadow
  split <;> exact ⟨rfl, rfl, rfl⟩

theorem Agent.foldl_writeShadow_keeps (v : Variant) (l : List (List Byte)) (g : Agent) :
    (l.foldl (fun g p => g.writeShadow v p) g).active = g.active ∧ (l.foldl (fun g p => g.writeShadow v p) g).deferred = g.deferred
      ∧ (l.foldl (fun g p => g.writeShadow v p) g).copying = g.copying := by
  induction l generalizing g with
  | nil => exact ⟨rfl, rfl, rfl⟩
  | cons x l ih =>
    obtain ⟨h1, h2, h3⟩ := ih (g.writeShadow v x)
    obtain ⟨k1, k2, k3⟩ := g.writeShadow_keeps v x
    exact ⟨h1.trans k1, h2.trans k2, h3.trans k3⟩

theorem Agent.finishCopy_copying {g : Agent} (h : g.copying = true) (v : Variant) :
    (g.finishCopy v).active = g.active ∧ (g.finishCopy v).deferred = [] ∧ (g.finishCopy v).copying = false
      ∧ (g.deferred = [] → (g.finishCopy v).shadow = g.shadow) := by
  unfold Agent.finishCopy
  rw [if_pos h]
  obtain ⟨h1, h2, h3⟩ := Agent.foldl_writeShadow_keeps v g.deferred { g with copying := false, deferred := [] }
  exact ⟨h1, h2, h3, fun hd => by rw [hd]; rfl⟩

/-- Settles O38: each operation by what it leaves of its slot; the acknowledgement leaves the slots. -/
theorem stagingResults : Obligations.StagingResults := by
  rintro s a p n slot off x rfl rfl rfl rfl
  refine ⟨fun h hno => ?_, fun h hv hlen hop => ?_, fun h => ?_, fun h => ?_, fun k => ?_, fun hc => ?_, fun hc => ?_⟩
  · rw [exec_stageWrite_owner h, State.takeStage_eq, if_pos hno]
  · have hgo : ¬((s.staged a (stageSlot p.hdr)).valid = true ∨ slotBytes a.variant < bitsAt p.hdr.addr.toNat 0 18 + p.payload.length ∨ stageOp p.hdr = 3) := by
      simp [hv, hop, hlen]
    refine ⟨_, (exec_stageWrite_owner h).trans (by rw [State.takeStage_eq, if_neg hgo]), ?_⟩
    rw [State.staged_acked, State.staged_setStaged_self, State.stagedBits_acked, State.stagedBit_setStaged _ _ (stageSlot_lt _)]
    exact ⟨rfl, rfl, rfl, rfl, rfl, fun i hi => (State.staged_acked _ i).trans (State.staged_setStaged_ne _ _ _ hi),
      (LinkOnly_regs (link_acked _ _ _).linkOnly).trans (State.setStaged_regs ..),
      (LinkOnly_engines (link_acked _ _ _).linkOnly).trans (State.setStaged_engines ..)⟩
  · refine ⟨_, exec_stageInvalidate_owner h, ?_⟩
    rw [State.staged_acked, State.staged_setStaged_self, State.stagedBits_acked, State.stagedBit_setStaged _ _ (stageSlot_lt _)]
    exact ⟨rfl, rfl, rfl, fun i hi => (State.staged_acked _ i).trans (State.staged_setStaged_ne _ _ _ hi),
      (LinkOnly_regs (link_acked _ _ _).linkOnly).trans (State.setStaged_regs ..)⟩
  · obtain ⟨hregs, hstaged⟩ := State.forEach_rebase a (BitVec.ofNat 32 (bitsAt p.hdr.addr.toNat 0 32))
      ((List.range 64).filter fun i => bitsAt (leAt p.payload 0 8) i 1 == 1) (List.nodup_range.filter _) s
    refine ⟨_, exec_stageRebase_owner h, (LinkOnly_regs (link_acked _ _ _).linkOnly).trans hregs, fun i hi => ?_⟩
    rw [State.staged_acked, hstaged]
    simp [hi]
  · exact ⟨_, rfl, State.staged_setStaged_self .., State.stagedBit_setStaged _ _ k.isLt _, fun i hi => State.staged_setStaged_ne _ _ _ hi, rfl⟩
  · refine ⟨_, rfl, rfl, fun b => ?_⟩
    by_cases hb : b = a
    · subst hb
      rw [State.agent_updAgent_self, Agent.finishCopy, if_neg (by simp [hc])]
    · exact State.agent_updAgent_ne _ _ hb
  · obtain ⟨h1, h2, h3, h4⟩ := Agent.finishCopy_copying hc a.variant
    refine ⟨_, rfl, rfl, ?_⟩
    rw [State.agent_updAgent_self]
    exact ⟨h1, h2, h3, h4, fun b hb => State.agent_updAgent_ne _ _ hb⟩

end Sys2Proof.Machine
end

section
/-! A PLAY at an agent: the copies of one, the ones that come too late, and the gambit that becomes pending. -/

namespace Sys2Proof.Machine

variable {s : State} {a : AgentRef} {p : Packet}

/-! ## What a PLAY writes before its slots are judged -/

/-- The registers and the record of an accepted PLAY; an earlier one goes. -/
def State.playRecorded (s : State) (a : AgentRef) (p : Packet) : State :=
  let swap : BitVec 32 := BitVec.ofNat 32 (bitsAt p.hdr.addr.toNat 1 32)
  let s := ((s.setJfld a JX_GAMBIT_PLAY_SEQ (BitVec.ofNat 16 (bitsAt p.hdr.aux.toNat 0 16)).toNat).setJfld a JX_GAMBIT_SWAP_EPOCH swap.toNat).setJfld a
    JX_GAMBIT_PLAY_SLOT (bitsAt p.hdr.aux.toNat 18 6)
  ((s.updAgent a fun g => { g with playSeqSeen := true }).suspendAttempts a swap).cancelPlay a

/-- The gambits of a PLAY that are tagged here, and those of them that are not valid or of another version. -/
def State.playMine (s : State) (a : AgentRef) (p : Packet) : List (BitVec 24 × Nat) := (playList p).filter fun x => (s.staged a x.2).tag == some x.1

def State.playBad (s : State) (a : AgentRef) (p : Packet) : List (BitVec 24 × Nat) :=
  (s.playMine a p).filter fun x => !(s.staged a x.2).valid || (s.staged a x.2).base != s.version a

/-- The pending play of a PLAY. -/
def State.playOf (s : State) (a : AgentRef) (p : Packet) : PendingPlay :=
  { seq := BitVec.ofNat 16 (bitsAt p.hdr.aux.toNat 0 16), swapEpoch := BitVec.ofNat 32 (bitsAt p.hdr.addr.toNat 1 32)
    resultVersion := BitVec.ofNat 32 (leAt p.payload 0 4), slots := (s.playMine a p).map (·.2) }

theorem State.takePlay_eq (s : State) (a : AgentRef) (p : Packet) : s.takePlay a p =
    if (s.playMine a p).isEmpty then (s.playRecorded a p, false)
    else if (s.playBad a p).isEmpty then
      ((((s.playRecorded a p).discardInstall a).updAgent a fun g => { g with play := some (s.playOf a p) }).setJfld a JX_STATUS_PLAY_PENDING 1, true)
    else ((s.playRecorded a p).forEach (s.playBad a p) fun s x => s.raiseAgent a 97 3 (BitVec.ofNat 16 x.2), true) := rfl

theorem State.agent_cancelPlay (s : State) (a : AgentRef) : ((s.cancelPlay a).agent a).play = none ∧ ((s.cancelPlay a).agent a).active = (s.agent a).active := by
  unfold State.cancelPlay
  split
  · next h => exact ⟨Option.isNone_iff_eq_none.1 h, rfl⟩
  · obtain ⟨j, hj⟩ := State.agent_setJfld (s.updAgent a fun g => { g.recopy with play := none }) a JX_STATUS_PLAY_PENDING 0
    rw [hj, State.agent_updAgent_self]
    exact ⟨rfl, rfl⟩

theorem State.cancelPlay_keeps (s : State) (a : AgentRef) :
    (s.cancelPlay a).regs = s.regs ∧ (s.cancelPlay a).out = s.out ∧ (s.cancelPlay a).jx a JX_GAMBIT = s.jx a JX_GAMBIT := by
  unfold State.cancelPlay
  split
  · exact ⟨rfl, rfl, rfl⟩
  · refine ⟨rfl, rfl, (State.jx_setJx_ne _ a _ (by decide)).trans ?_⟩
    rw [State.jx, State.agent_updAgent_self]
    rfl

theorem State.suspendAttempts_keeps (s : State) (a : AgentRef) (w : BitVec 32) : (s.suspendAttempts a w).regs = s.regs
    ∧ (s.suspendAttempts a w).out = s.out ∧ (s.suspendAttempts a w).jx a JX_GAMBIT = s.jx a JX_GAMBIT
    ∧ ((s.suspendAttempts a w).agent a).active = (s.agent a).active := by
  unfold State.suspendAttempts
  split
  · exact ⟨rfl, rfl, rfl, rfl⟩
  · refine ⟨rfl, rfl, ?_, ?_⟩
    · rw [State.jx, State.agent_updAgent_self]
      rfl
    · rw [State.agent_updAgent_self]

theorem State.playRecorded_keeps (s : State) (a : AgentRef) (p : Packet) : (s.playRecorded a p).regs = s.regs ∧ (s.playRecorded a p).out = s.out
    ∧ ((s.playRecorded a p).agent a).play = none ∧ ((s.playRecorded a p).agent a).active = (s.agent a).active := by
  unfold State.playRecorded
  extract_lets swap u
  have hu : u.regs = s.regs ∧ u.out = s.out := ⟨rfl, rfl⟩
  have hactive : ((u.updAgent a fun g => { g with playSeqSeen := true }).agent a).active = (s.agent a).active := by
    rw [State.agent_updAgent_self]
    obtain ⟨j, hj⟩ := State.agent_setJfld ((s.setJfld a JX_GAMBIT_PLAY_SEQ (BitVec.ofNat 16 (bitsAt p.hdr.aux.toNat 0 16)).toNat).setJfld a
      JX_GAMBIT_SWAP_EPOCH swap.toNat) a JX_GAMBIT_PLAY_SLOT (bitsAt p.hdr.aux.toNat 18 6)
    obtain ⟨k, hk⟩ := State.agent_setJfld (s.setJfld a JX_GAMBIT_PLAY_SEQ (BitVec.ofNat 16 (bitsAt p.hdr.aux.toNat 0 16)).toNat) a
      JX_GAMBIT_SWAP_EPOCH swap.toNat
    obtain ⟨l, hl⟩ := State.agent_setJfld s a JX_GAMBIT_PLAY_SEQ (BitVec.ofNat 16 (bitsAt p.hdr.aux.toNat 0 16)).toNat
    rw [hj, hk, hl]
  obtain ⟨hregs, hout, -, hact⟩ := (u.updAgent a fun g => { g with playSeqSeen := true }).suspendAttempts_keeps a swap
  obtain ⟨hregs', hout', -⟩ := ((u.updAgent a fun g => { g with playSeqSeen := true }).suspendAttempts a swap).cancelPlay_keeps a
  obtain ⟨hplay, hact'⟩ := ((u.updAgent a fun g => { g with playSeqSeen := true }).suspendAttempts a swap).agent_cancelPlay a
  exact ⟨hregs'.trans (hregs.trans hu.1), hout'.trans (hout.trans hu.2), hplay, hact'.trans (hact.trans hactive)⟩

theorem State.playRecorded_seq (s : State) (a : AgentRef) (p : Packet) :
    (s.playRecorded a p).jfld a JX_GAMBIT_PLAY_SEQ = (BitVec.ofNat 16 (bitsAt p.hdr.aux.toNat 0 16)).toNat := by
  unfold State.playRecorded
  extract_lets swap u
  have hfits : JX_GAMBIT_PLAY_SEQ.fits := by unfold Field.fits; decide
  have hu : u.jfld a JX_GAMBIT_PLAY_SEQ = (BitVec.ofNat 16 (bitsAt p.hdr.aux.toNat 0 16)).toNat := by
    refine (State.jfld_setJfld_apart _ a (by unfold Field.fits; decide) hfits (by unfold Field.apart; decide) _).trans ?_
    refine (State.jfld_setJfld_apart _ a (by unfold Field.fits; decide) hfits (by unfold Field.apart; decide) _).trans ?_
    exact (State.jfld_setJfld_self _ a hfits _).trans (Nat.mod_eq_of_lt (BitVec.isLt _))
  obtain ⟨-, -, hjx, -⟩ := (u.updAgent a fun g => { g with playSeqSeen := true }).suspendAttempts_keeps a swap
  obtain ⟨-, -, hjx'⟩ := ((u.updAgent a fun g => { g with playSeqSeen := true }).suspendAttempts a swap).cancelPlay_keeps a
  refine Eq.trans (congrArg JX_GAMBIT_PLAY_SEQ.of (hjx'.trans hjx)) ?_
  exact (State.jfld_updAgent (f := fun g => { g with playSeqSeen := true }) rfl JX_GAMBIT_PLAY_SEQ).trans hu

/-- An install in the shadow bank that is discarded leaves the active bank. -/
theorem State.discardInstall_keeps (s : State) (a : AgentRef) :
    (s.discardInstall a).regs = s.regs ∧ ((s.discardInstall a).agent a).active = (s.agent a).active := by
  have hraise (u : State) (d : BitVec 16) : (u.raiseAgent a 34 2 d).regs = u.regs ∧ ((u.raiseAgent a 34 2 d).agent a).active = (u.agent a).active :=
    ⟨LinkOnly_regs (link_raiseAgent u a 34 2 d _ _).linkOnly, (link_raiseAgent u a 34 2 d _ _).get a Agent.active fun _ => rfl⟩
  unfold State.discardInstall
  dsimp only
  split
  · exact ⟨(hraise _ _).1, (hraise _ _).2.trans (by rw [State.agent_updAgent_self]; rfl)⟩
  · exact ⟨(hraise _ _).1, (hraise _ _).2.trans (by rw [State.agent_updAgent_self])⟩
  · exact ⟨rfl, rfl⟩

/-! ## The PLAY as a whole -/

/-- A PLAY of the owner that arrives whole and for the first time. -/
theorem exec_play_fresh (h : s.ownerPacket a p) : exec (.play a p) s =
    if (s.agent a).playSeqSeen = true ∧ (!playHigher (BitVec.ofNat 16 (bitsAt p.hdr.aux.toNat 0 16)) (BitVec.ofNat 16 (s.jfld a JX_GAMBIT_PLAY_SEQ))) = true then
      .next (s.raiseAgent a 98 1 (BitVec.ofNat 16 (bitsAt p.hdr.aux.toNat 0 16)))
    else .next (if (s.takePlay a p).2 then (s.takePlay a p).1.complete (.agent a) p.hdr else (s.takePlay a p).1.recordSeq (.agent a) p.hdr) := by
  obtain ⟨hcrc, hdup, hord⟩ := h.fresh
  rw [← apply_ite]
  refine next_congr ((State.fromOwner_owner h _).trans ?_)
  rw [if_neg (by simp [hcrc]), if_neg (by simp [hdup]), if_neg (by simp [hord])]

theorem exec_play_copy (hcrc : p.crcOk = true) (horphan : s.orphan a = false) (hsrc : p.hdr.src = s.owner a) (hown : s.owner a ≠ noFid)
    (hdup : s.isDup (.agent a) p.hdr = true) :
    exec (.play a p) s = .next (if s.playConcerned a p then s.again (.agent a) p.hdr else s) := by
  have hsent : s.ownerSent a p.hdr = true := by simp [State.ownerSent, hsrc, hown]
  refine next_congr ?_
  rw [State.fromOwner, if_neg (by simp [hsent]), if_neg (by simp [horphan]), if_neg (by simp [hcrc]), if_pos hdup]

theorem State.playConcerned_iff (s : State) (a : AgentRef) (p : Packet) : s.playConcerned a p = true ↔ s.playMine a p ≠ [] := by
  rw [State.playMine, ne_eq, List.filter_eq_nil_iff]
  simp [State.playConcerned]

/-- The PLAY of an agent that is not concerned leaves its number and no pending play. -/
theorem exec_play_notConcerned (h : s.ownerPacket a p) (hnew : ¬((s.agent a).playSeqSeen = true ∧
      (!playHigher (BitVec.ofNat 16 (bitsAt p.hdr.aux.toNat 0 16)) (BitVec.ofNat 16 (s.jfld a JX_GAMBIT_PLAY_SEQ))) = true))
    (hmine : s.playMine a p = []) : exec (.play a p) s = .next ((s.playRecorded a p).recordSeq (.agent a) p.hdr) := by
  rw [exec_play_fresh h, if_neg hnew, State.takePlay_eq, hmine]
  rfl

/-- The PLAY of an agent all of whose slots serve becomes pending. -/
theorem exec_play_pending (h : s.ownerPacket a p) (hnew : ¬((s.agent a).playSeqSeen = true ∧
      (!playHigher (BitVec.ofNat 16 (bitsAt p.hdr.aux.toNat 0 16)) (BitVec.ofNat 16 (s.jfld a JX_GAMBIT_PLAY_SEQ))) = true))
    (hmine : s.playMine a p ≠ []) (hbad : s.playBad a p = []) : exec (.play a p) s
      = .next (((((s.playRecorded a p).discardInstall a).updAgent a fun g => { g with play := some (s.playOf a p) }).setJfld a
          JX_STATUS_PLAY_PENDING 1).complete (.agent a) p.hdr) := by
  have htake : s.takePlay a p = ((((s.playRecorded a p).discardInstall a).updAgent a fun g => { g with play := some (s.playOf a p) }).setJfld a
      JX_STATUS_PLAY_PENDING 1, true) := by
    have hsome : ¬(s.playMine a p).isEmpty = true := fun h => hmine (List.isEmpty_iff.1 h)
    exact (s.takePlay_eq a p).trans ((if_neg hsome).trans (if_pos (List.isEmpty_iff.2 hbad)))
  rw [exec_play_fresh h, if_neg hnew, htake, if_pos rfl]

/-- Settles O39: the checks of a PLAY decide between its outcomes, and the registers it writes are apart. -/
theorem playResults : Obligations.PlayResults := by
  rintro s a p seq mine rfl rfl
  refine ⟨fun hcrc horphan hsrc hown hdup => ?_, fun h hseen hlow => ?_, fun h hhigh => ?_, fun hnone => ?_, fun q hq happ => ?_,
    fun q b hq happ hb => ?_, fun q hq happ hb => ?_⟩
  · rw [exec_play_copy hcrc horphan hsrc hown hdup]
    refine ⟨fun hmine => ?_, fun hmine => ?_⟩
    · rw [if_pos ((s.playConcerned_iff a p).2 hmine)]
    · rw [if_neg fun hc => (s.playConcerned_iff a p).1 hc hmine]
  · rw [exec_play_fresh h, if_pos ⟨hseen, by simp [hlow]⟩]
  · have hnew : ¬((s.agent a).playSeqSeen = true ∧
        (!playHigher (BitVec.ofNat 16 (bitsAt p.hdr.aux.toNat 0 16)) (BitVec.ofNat 16 (s.jfld a JX_GAMBIT_PLAY_SEQ))) = true) := by
      rintro ⟨hseen, hlow⟩
      rcases hhigh with hno | hhigh
      · simp [hno] at hseen
      · simp [hhigh] at hlow
    obtain ⟨hregs, hout, hplay, hact⟩ := s.playRecorded_keeps a p
    refine ⟨fun hmine => ⟨_, exec_play_notConcerned h hnew hmine, ?_⟩, fun hmine hok => ?_⟩
    · have hlink := link_recordSeq (s.playRecorded a p) (.agent a) p.hdr
      exact ⟨(hlink.jfld a (by unfold keptField Field.fits Field.apart; decide)).trans (s.playRecorded_seq a p),
        (hlink.get a Agent.play fun _ => rfl).trans hplay, (hlink.get a Agent.active fun _ => rfl).trans hact, hout, hregs⟩
    · have hbad : s.playBad a p = [] := by
        rw [State.playBad, List.filter_eq_nil_iff]
        intro x hx
        obtain ⟨hv, hb⟩ := hok x hx
        simp [hv, hb]
      refine ⟨_, exec_play_pending h hnew hmine hbad, ?_⟩
      obtain ⟨hregs', hact'⟩ := (s.playRecorded a p).discardInstall_keeps a
      generalize hu : ((s.playRecorded a p).discardInstall a).updAgent a (fun g => { g with play := some (s.playOf a p) }) = u
      have hagent : (u.agent a).play = some (s.playOf a p) ∧ (u.agent a).active = (s.agent a).active := by
        rw [← hu, State.agent_updAgent_self]
        exact ⟨rfl, hact'.trans hact⟩
      have hur : u.regs = s.regs := by
        rw [← hu]
        exact hregs'.trans hregs
      obtain ⟨j, hj⟩ := State.agent_setJfld u a JX_STATUS_PLAY_PENDING 1
      have hlink := link_complete (u.setJfld a JX_STATUS_PLAY_PENDING 1) (.agent a) p.hdr
      refine ⟨(hlink.get a Agent.play fun _ => rfl).trans (by rw [hj]; exact hagent.1), ?_,
        (hlink.get a Agent.active fun _ => rfl).trans (by rw [hj]; exact hagent.2), (LinkOnly_regs hlink.linkOnly).trans hur⟩
      exact (hlink.jfld a (by unfold keptField Field.fits Field.apart; decide)).trans
        (State.jfld_setJfld_self u a (by unfold Field.fits; decide) 1)
  · simp only [exec, execPlayApplyDone, hnone]
  · simp only [exec, execPlayApplyDone, hq, happ, if_true]
  · simp only [exec, execPlayApplyDone, hq, happ, hb, Bool.false_eq_true, if_false]
  · simp only [exec, execPlayApplyDone, hq, happ, hb, Bool.false_eq_true, if_false]

end Sys2Proof.Machine
end

section
/-! Packets at an endpoint: what each check of arrival, of the partition, of the window and of the ring comes to. -/

namespace Sys2Proof.Machine

variable {s : State} {n : Node} {a : AgentRef} {p : Packet}

/-! ## The packets that have their effect at an endpoint -/

/-- The effect of a WRITE in a window. -/
def State.memWritten (s : State) (a : AgentRef) (p : Packet) : State :=
  s.updAgent a fun g => { g with mem := g.mem.writeBytes p.hdr.addr.toNat (slice p.payload 0 p.hdr.length.toNat) }

/-- What a WRITE does that the endpoint takes. -/
def State.writeBody (p : Packet) (a : AgentRef) (s : State) : State × Option Nat :=
  if p.hdr.partition ≠ (s.agent a).partition then (s, some 0x03)
  else if (s.agent a).inWindow p.hdr.partition p.hdr.addr.toNat p.hdr.length.toNat = false then (s, some 0x04)
  else (s.memWritten a p, none)

/-- What a READ_REQ does that the endpoint takes. -/
def State.readBody (p : Packet) (a : AgentRef) (s : State) : State × Option Nat :=
  if p.hdr.partition ≠ (s.agent a).partition then (s, some 0x03)
  else if (s.agent a).inWindow p.hdr.partition p.hdr.addr.toNat (bitsAt p.hdr.aux.toNat 0 13) = false then (s, some 0x04) else (s, none)

theorem exec_write_agent : exec (.write (.agent a) p) s = .next (s.deliverTo a p (State.writeBody p a)) := rfl

theorem exec_readReq_agent (b : Bool) : exec (.readReq (.agent a) p b) s = .next (s.deliverTo a p (State.readBody p a)) := rfl

theorem exec_sendPacket_agent : exec (.sendPacket (.agent a) p) s = .next (s.deliverTo a p fun s => s.fillRing a p) := rfl

theorem exec_dispatchCopy : exec (.dispatchCopy a p) s = .next (s.deliverTo a p fun s => s.fillRing a p) := rfl

theorem exec_readResp_agent : exec (.readResp (.agent a) p) s = .next (s.deliverTo a p fun s => s.takeReadResp (.agent a) p) := rfl

/-- Each of these packets is delivered to the endpoint with an effect of its own. -/
theorem exec_delivers {b : Bool} {c : Instr}
    (hc : c ∈ [Instr.write (.agent a) p, .readReq (.agent a) p b, .sendPacket (.agent a) p, .dispatchCopy a p, .readResp (.agent a) p]) :
    ∃ body, exec c s = .next (s.deliverTo a p body) := by
  simp only [List.mem_cons, List.not_mem_nil, or_false] at hc
  rcases hc with rfl | rfl | rfl | rfl | rfl
  · exact ⟨_, exec_write_agent⟩
  · exact ⟨_, exec_readReq_agent b⟩
  · exact ⟨_, exec_sendPacket_agent⟩
  · exact ⟨_, exec_dispatchCopy⟩
  · exact ⟨_, exec_readResp_agent⟩

theorem exec_fills {c : Instr} (hc : c ∈ [Instr.sendPacket (.agent a) p, .dispatchCopy a p]) :
    exec c s = .next (s.deliverTo a p fun s => s.fillRing a p) := by
  simp only [List.mem_cons, List.not_mem_nil, or_false] at hc
  rcases hc with rfl | rfl
  · exact exec_sendPacket_agent
  · exact exec_dispatchCopy

/-! ## Refusals before the effect -/

section
variable {body : State → State × Option Nat}

theorem State.deliverTo_down_express (hv : a.variant = .e) (h : s.computeUp a = false) (hc : p.hdr.cls = .express) (hl : (s.agent a).lowPower ≠ 2) :
    s.deliverTo a p body = (s.raiseAgent a 200 0).nakPkt (.agent a) p.hdr 0x02 := by
  unfold State.deliverTo
  rw [if_pos ⟨hv, .inl h⟩, if_pos ⟨hc, by simpa using hl⟩]

theorem State.deliverTo_badCrc (hup : a.variant = .e → s.computeUp a = true ∧ (s.agent a).lowPower ≠ 2) (h : p.crcOk = false) :
    s.deliverTo a p body = (s.wokenAt a).nakPkt (.agent a) p.hdr 0x01 := (State.deliverTo_up hup body).trans (State.accept_bad h _)

/-- An agent of no partition refuses a tenant packet. -/
theorem State.deliverTo_noPartition (hup : a.variant = .e → s.computeUp a = true ∧ (s.agent a).lowPower ≠ 2) (hf : s.freshPacket (.agent a) p)
    (h0 : (s.agent a).partition = 0) (hp : p.hdr.partition ≠ 0) : s.deliverTo a p body = (s.wokenAt a).nakPkt (.agent a) p.hdr 0x03 := by
  refine (State.deliverTo_up hup body).trans (State.accept_refused (State.freshPacket_of_streams hf (s.wokenAt_streams a)) ?_)
  refine if_pos ⟨?_, hp⟩
  exact (congrArg Agent.partition (s.wokenAt_agent a)).trans h0

theorem State.deliverTo_refused (hup : a.variant = .e → s.computeUp a = true ∧ (s.agent a).lowPower ≠ 2) (hf : s.freshPacket (.agent a) p)
    (hp : (s.agent a).partition = 0 → p.hdr.partition = 0) {t : State} {r : Nat} (h : body (s.wokenAt a) = (t, some r)) :
    s.deliverTo a p body = t.nakPkt (.agent a) p.hdr r := by rw [State.deliverTo_fresh hup hf hp, h]

theorem State.deliverTo_taken (hup : a.variant = .e → s.computeUp a = true ∧ (s.agent a).lowPower ≠ 2) (hf : s.freshPacket (.agent a) p)
    (hp : (s.agent a).partition = 0 → p.hdr.partition = 0) {t : State} (h : body (s.wokenAt a) = (t, none)) :
    s.deliverTo a p body = t.acked (.agent a) p := by rw [State.deliverTo_fresh hup hf hp, h]

/-- A flagged packet that finds no completion left is refused before its effect (R111). -/
theorem State.deliverTo_full (hup : a.variant = .e → s.computeUp a = true ∧ (s.agent a).lowPower ≠ 2) (hcrc : p.crcOk = true)
    (hdup : s.isDup (.agent a) p.hdr = false) (hfull : s.orderFull (.agent a) p.hdr = true) :
    s.deliverTo a p body = (s.wokenAt a).nakPkt (.agent a) p.hdr 0x07 := by
  refine (State.deliverTo_up hup body).trans (State.accept_full hcrc ?_ ?_ _)
  · exact (congrArg (fun x : Streams => (x.rx.getD (streamKey p.hdr.src p.hdr.stream) {}).delivered.contains p.hdr.seq) (s.wokenAt_streams a)).trans hdup
  · exact (congrArg (fun x : Streams => p.hdr.ord && p.hdr.prec != 0xFFFF && decide (4096 ≤ x.heldCount)) (s.wokenAt_streams a)).trans hfull

end

/-! ## Partition, window and ring at the woken endpoint -/

section
variable (s a p)

theorem State.writeBody_other (h : p.hdr.partition ≠ (s.agent a).partition) : State.writeBody p a (s.wokenAt a) = (s.wokenAt a, some 0x03) := by
  rw [State.writeBody, State.wokenAt_agent, if_pos h]

theorem State.readBody_other (h : p.hdr.partition ≠ (s.agent a).partition) : State.readBody p a (s.wokenAt a) = (s.wokenAt a, some 0x03) := by
  rw [State.readBody, State.wokenAt_agent, if_pos h]

theorem State.writeBody_outside (h : p.hdr.partition = (s.agent a).partition)
    (hw : (s.agent a).inWindow p.hdr.partition p.hdr.addr.toNat p.hdr.length.toNat = false) :
    State.writeBody p a (s.wokenAt a) = (s.wokenAt a, some 0x04) := by
  rw [State.writeBody, State.wokenAt_agent, if_neg (not_not_intro h)]
  exact if_pos hw

theorem State.writeBody_inside (h : p.hdr.partition = (s.agent a).partition)
    (hw : (s.agent a).inWindow p.hdr.partition p.hdr.addr.toNat p.hdr.length.toNat = true) :
    State.writeBody p a (s.wokenAt a) = ((s.wokenAt a).memWritten a p, none) := by
  rw [State.writeBody, State.wokenAt_agent, if_neg (not_not_intro h)]
  exact if_neg (by rw [Bool.not_eq_false]; exact hw)

theorem State.readBody_inside (h : p.hdr.partition = (s.agent a).partition)
    (hw : (s.agent a).inWindow p.hdr.partition p.hdr.addr.toNat (bitsAt p.hdr.aux.toNat 0 13) = true) :
    State.readBody p a (s.wokenAt a) = (s.wokenAt a, none) := by
  rw [State.readBody, State.wokenAt_agent, if_neg (not_not_intro h)]
  exact if_neg (by rw [Bool.not_eq_false]; exact hw)

/-- A packet as a slot of the ring holds it. -/
def State.ringSlot (s : State) (a : AgentRef) (p : Packet) : List Byte :=
  slice (p.hdr.bytes ++ leBytes 8 (s.agentNow a) ++ zeros 24 ++ slice p.payload 0 p.hdr.length.toNat) 0 4160

/-- An agent whose ring holds one more packet. -/
def Agent.ringFilled (g : Agent) (r : RxRing) (slot : List Byte) : Agent :=
  { g with mem := g.mem.writeBytes (r.base + 4160 * r.fill) slot, rxRing := some { r with fill := (r.fill + 1) % 2 ^ r.log2 } }

theorem Agent.ringFilled_mem (g : Agent) (r : RxRing) (slot : List Byte) :
    (g.ringFilled r slot).mem = g.mem.writeBytes (r.base + 4160 * r.fill) slot := rfl

variable {s a p}

theorem State.fillRing_none (h : (s.agent a).rxRing = none) : (s.wokenAt a).fillRing a p = (s.wokenAt a, some 0x04) := by
  rw [State.fillRing, State.wokenAt_agent]
  simp only [h]

variable {r : RxRing} (h : (s.agent a).rxRing = some r)
include h

theorem State.fillRing_other (hp : r.partition ≠ p.hdr.partition) : (s.wokenAt a).fillRing a p = (s.wokenAt a, some 0x04) := by
  rw [State.fillRing, State.wokenAt_agent]
  simp only [h, if_pos hp]

theorem State.fillRing_full (hp : r.partition = p.hdr.partition) (hr : 2 ^ r.log2 - 1 ≤ r.filled) :
    (s.wokenAt a).fillRing a p = (s.wokenAt a, some 0x05) := by
  rw [State.fillRing, State.wokenAt_agent]
  simp only [h, if_neg (not_not_intro hp), if_pos hr]

theorem State.fillRing_room (hp : r.partition = p.hdr.partition) (hr : r.filled < 2 ^ r.log2 - 1) :
    (s.wokenAt a).fillRing a p = ((s.wokenAt a).updAgent a fun g => g.ringFilled r (s.ringSlot a p), none) := by
  have hnow : (s.wokenAt a).agentNow a = s.agentNow a := by
    rw [State.agentNow, State.wokenAt_agent]
    rfl
  have hfull : ¬2 ^ r.log2 - 1 ≤ r.filled := by omega
  rw [State.fillRing, State.wokenAt_agent]
  simp only [h, if_neg (not_not_intro hp), if_neg hfull, hnow]
  rfl

end

/-- What an acknowledged change of the endpoint leaves. -/
theorem State.acked_updAgent_keeps (s : State) (a : AgentRef) (p : Packet) (f : Agent → Agent) :
    (((s.wokenAt a).updAgent a f).acked (.agent a) p).regs = s.regs ∧ (((s.wokenAt a).updAgent a f).acked (.agent a) p).engines = s.engines
      ∧ ∀ b, b ≠ a → (((s.wokenAt a).updAgent a f).acked (.agent a) p).agent b = s.agent b := by
  have hlink := link_acked ((s.wokenAt a).updAgent a f) (.agent a) p
  refine ⟨(LinkOnly_regs hlink.linkOnly).trans rfl, (LinkOnly_engines hlink.linkOnly).trans rfl, fun b hb => ?_⟩
  refine (hlink.agent_ne fun hn => hb (Node.agent.inj hn).symm).trans ((State.agent_updAgent_ne _ _ hb).trans ?_)
  exact State.agent_updAgent_ne _ _ hb

/-! ## The answer to a READ_REQ -/

theorem State.rx_recordSeq (s : State) (n : Node) (h : Header) : (s.recordSeq n h).rx n h.src h.stream = (s.rx n h.src h.stream).record h.seq := by
  have hset (x : Streams) : (s.setStreams n x).nodeStreams n = x := by
    cases n with
    | ctl => rfl
    | agent a => simp only [State.nodeStreams, State.setStreams, State.agent_updAgent_self]
  rw [State.recordSeq, State.setRx, State.rx, hset]
  exact NMap.getD_set_self ..

theorem State.rx_of_streams {s u : State} {n : Node} (h : u.nodeStreams n = s.nodeStreams n) (d : Fid) (k : BitVec 16) : u.rx n d k = s.rx n d k := by
  rw [State.rx, h, State.rx]

theorem StreamRx.held_record (x : StreamRx) (q : BitVec 32) : (x.record q).held = x.held := by
  unfold StreamRx.record
  dsimp only
  split <;> rfl

/-- A READ_REQ that is not flagged, on a stream that holds nothing, is answered at once. -/
theorem State.acked_readReq (s : State) (n : Node) {p : Packet} (ho : p.hdr.ord = false) (hheld : (s.rx n p.hdr.src p.hdr.stream).held = [])
    (ht : p.hdr.typ = 0x03) : s.acked n p = (s.recordSeq n p.hdr).readAnswer n p.hdr := by
  have hrec : ((s.recordSeq n p.hdr).rx n p.hdr.src p.hdr.stream).held = [] := 
    (congrArg StreamRx.held (s.rx_recordSeq n p.hdr)).trans ((StreamRx.held_record _ _).trans hheld)
  have hord : ¬(p.hdr.ord = true ∧ p.hdr.prec ≠ 0xFFFF) := by simp [ho]
  rw [State.acked, State.complete]
  dsimp only
  rw [if_neg hord, hrec, State.finish, if_pos ht]
  rfl

/-! ## The obligation -/

theorem exec_packetPost_up (h : ¬(s.computeUp a = false ∨ (s.agent a).lowPower = 2)) : exec (.packetPost a p) s =
    if p.hdr.cls = .express ∧ (s.agent a).hasHead (s.localOf a) p.hdr.stream.toNat = false then
      .next (s.emit (.packetDone (.agent a) p.hdr.dest p.hdr.stream 0 0xE0))
    else .next (s.sendPkt (.agent a) { p with hdr := { p.hdr with resend := false, length := lenOf p.payload } }) := if_neg h

theorem mem_delivers {c : Instr} (b : Bool)
    (hc : c ∈ [Instr.write (.agent a) p, .readReq (.agent a) p b, .sendPacket (.agent a) p, .dispatchCopy a p]) :
    c ∈ [Instr.write (.agent a) p, .readReq (.agent a) p b, .sendPacket (.agent a) p, .dispatchCopy a p, .readResp (.agent a) p] := by
  simp only [List.mem_cons, List.not_mem_nil, or_false] at hc ⊢
  rcases hc with h | h | h | h <;> simp [h]

/-- A packet that passes the partition's check but finds no place in the ring, or fills a slot of it. -/
theorem exec_fills_refused (hup : a.variant = .e → s.computeUp a = true ∧ (s.agent a).lowPower ≠ 2) (hf : s.freshPacket (.agent a) p)
    (hp : (s.agent a).partition = 0 → p.hdr.partition = 0) {r : Nat} (h : (s.wokenAt a).fillRing a p = (s.wokenAt a, some r)) :
    ∀ c ∈ [Instr.sendPacket (.agent a) p, .dispatchCopy a p], exec c s = .next ((s.wokenAt a).nakPkt (.agent a) p.hdr r) := fun _ hc =>
  (exec_fills hc).trans (next_congr (State.deliverTo_refused hup hf hp h))

theorem exec_fills_room (hup : a.variant = .e → s.computeUp a = true ∧ (s.agent a).lowPower ≠ 2) (hf : s.freshPacket (.agent a) p)
    (hp : (s.agent a).partition = 0 → p.hdr.partition = 0) {r : RxRing} (hr : (s.agent a).rxRing = some r) (hpart : r.partition = p.hdr.partition)
    (hroom : r.filled < 2 ^ r.log2 - 1) {c : Instr} (hc : c ∈ [Instr.sendPacket (.agent a) p, .dispatchCopy a p]) :
    ∃ t, exec c s = .next t ∧ (t.agent a).rxRing = some { r with fill := (r.fill + 1) % 2 ^ r.log2 }
      ∧ (t.agent a).mem = (s.agent a).mem.writeBytes (r.base + 4160 * r.fill) (s.ringSlot a p)
      ∧ t.regs = s.regs ∧ t.engines = s.engines ∧ ∀ b, b ≠ a → t.agent b = s.agent b := by
  have htaken := State.deliverTo_taken (body := fun s => s.fillRing a p) hup hf hp (State.fillRing_room hr hpart hroom)
  refine ⟨_, (exec_fills hc).trans (next_congr htaken), ?_, ?_, s.acked_updAgent_keeps a p fun g => g.ringFilled r (s.ringSlot a p)⟩
  · exact ((link_acked _ _ _).get a Agent.rxRing fun _ => rfl).trans (by rw [State.agent_updAgent_self]; rfl)
  · exact ((link_acked _ _ _).get a Agent.mem fun _ => rfl).trans (by rw [State.agent_updAgent_self, State.wokenAt_agent, Agent.ringFilled_mem])

/-- A WRITE in a window. -/
theorem exec_write_inside (hup : a.variant = .e → s.computeUp a = true ∧ (s.agent a).lowPower ≠ 2) (hf : s.freshPacket (.agent a) p)
    (hp : p.hdr.partition = (s.agent a).partition) (hw : (s.agent a).inWindow p.hdr.partition p.hdr.addr.toNat p.hdr.length.toNat = true) :
    exec (.write (.agent a) p) s = .next (((s.wokenAt a).memWritten a p).acked (.agent a) p) :=
  next_congr (State.deliverTo_taken hup hf (fun h => hp.trans h) (State.writeBody_inside s a p hp hw))

/-- Settles O30: the checks in their order, each with its answer, and the effect of what passes them. -/
theorem endpointPacketResults : Obligations.EndpointPacketResults := by
  refine ⟨?_, ?_⟩
  · rintro s a p n g u len rfl rfl rfl rfl
    refine ⟨fun h => if_pos h, fun hup hlow hc hh => ?_, fun hup hlow hh => ?_, fun c hc => ⟨fun hv hd hx => ?_, fun hv hd hx hl => ?_,
      fun hup => ⟨fun hcrc => ?_, fun hf h0 hp => ?_⟩⟩, fun hup hf hp => ⟨fun c hc => ?_, fun h0 r hr hpart => ?_⟩,
      fun hup hp hf ho => ⟨fun hw => ?_, fun hw => ?_, fun hw hheld ht => ?_, fun hr => ?_, fun r hr hpart hfull => ?_, fun r hr hpart hroom c hc =>
        exec_fills_room hup hf (fun h => hp.trans h) hr hpart hroom hc⟩, fun v r hr => ?_, fun hr v => ?_⟩
    · exact (exec_packetPost_up (by simp [hup, hlow])).trans (if_pos ⟨hc, hh⟩)
    · exact (exec_packetPost_up (by simp [hup, hlow])).trans (if_neg fun ⟨hc, hno⟩ => by simp [hh hc] at hno)
    · obtain ⟨body, hbody⟩ := exec_delivers (s := s) (mem_delivers true hc)
      exact hbody.trans (next_congr (State.deliverTo_down hv (.inl hd) hx _))
    · obtain ⟨body, hbody⟩ := exec_delivers (s := s) (mem_delivers true hc)
      exact hbody.trans (next_congr (State.deliverTo_down_express hv hd hx hl))
    · obtain ⟨body, hbody⟩ := exec_delivers (s := s) (mem_delivers true hc)
      exact hbody.trans (next_congr (State.deliverTo_badCrc hup hcrc))
    · obtain ⟨body, hbody⟩ := exec_delivers (s := s) (mem_delivers true hc)
      exact hbody.trans (next_congr (State.deliverTo_noPartition hup hf h0 hp))
    · by_cases h0 : (s.agent a).partition = 0
      · have hne : p.hdr.partition ≠ 0 := fun h => hp (h.trans h0.symm)
        obtain ⟨body, hbody⟩ := exec_delivers (s := s) (mem_delivers (a := a) (p := p) true (List.mem_append_left [.sendPacket (.agent a) p, .dispatchCopy a p] hc))
        exact hbody.trans (next_congr (State.deliverTo_noPartition hup hf h0 hne))
      · simp only [List.mem_cons, List.not_mem_nil, or_false] at hc
        rcases hc with rfl | rfl
        · exact next_congr (State.deliverTo_refused hup hf (fun h => absurd h h0) (State.writeBody_other s a p hp))
        · exact next_congr (State.deliverTo_refused hup hf (fun h => absurd h h0) (State.readBody_other s a p hp))
    · exact exec_fills_refused hup hf (fun h => absurd h h0) (State.fillRing_other hr hpart)
    · exact next_congr (State.deliverTo_refused hup hf (fun h => hp.trans h) (State.writeBody_outside s a p hp hw))
    · refine ⟨_, exec_write_inside hup hf hp hw, ?_, ?_, State.acked_updAgent_keeps ..⟩
      · exact ((link_acked _ _ _).get a Agent.mem fun _ => rfl).trans (by rw [State.memWritten, State.agent_updAgent_self, State.wokenAt_agent])
      · exact ((link_acked _ _ _).get a Agent.rxRing fun _ => rfl).trans (by rw [State.memWritten, State.agent_updAgent_self, State.wokenAt_agent])
    · refine next_congr ((State.deliverTo_taken hup hf (fun h => hp.trans h) (State.readBody_inside s a p hp hw)).trans ?_)
      exact State.acked_readReq _ _ ho ((congrArg StreamRx.held (State.rx_of_streams (s.wokenAt_streams a) _ _)).trans hheld) ht
    · exact exec_fills_refused hup hf (fun h => hp.trans h) (State.fillRing_none hr)
    · exact exec_fills_refused hup hf (fun h => hp.trans h) (State.fillRing_full hr hpart hfull)
    · exact next_congr (congrArg (s.setAgent a) (congrArg (fun x => { s.agent a with rxRing := x }) (by rw [hr]; rfl)))
    · refine ⟨_, rfl, rfl, fun b => ?_⟩
      by_cases hb : b = a
      · subst hb
        rw [State.agent_updAgent_self, hr, Option.map_none, ← hr]
      · exact State.agent_updAgent_ne _ _ hb
  · rintro s a p tagOk hcomp hlow hcrc hdup hp ho hprec u rfl
    have hup : a.variant = .e → s.computeUp a = true ∧ (s.agent a).lowPower ≠ 2 := fun _ => ⟨hcomp, hlow⟩
    refine ⟨fun hmany i hi => ?_, fun hfew => ?_⟩
    · have hfull : s.orderFull (.agent a) p.hdr = true := by
        rw [State.orderFull, ho, decide_eq_true hmany, Bool.and_true, Bool.true_and]
        exact bne_iff_ne.2 hprec
      obtain ⟨body, hbody⟩ := exec_delivers (s := s) hi
      have hlink := portLink_nakPkt (s.wokenAt a) (.agent a) p.hdr 0x07
      refine ⟨_, hbody.trans (next_congr (State.deliverTo_full hup hcrc hdup hfull)), rfl, ?_, ?_⟩
      · exact (hlink.1.get a Agent.mem fun _ => rfl).trans ((congrArg Agent.mem (s.wokenAt_agent a)).trans rfl)
      · exact congrArg Streams.rx (hlink.2.trans (s.wokenAt_streams a))
    · have hf : s.freshPacket (.agent a) p := ⟨hcrc, hdup, by simp [State.orderFull, hfew]⟩
      refine ⟨fun i hi => ⟨fun t ht => ?_, fun t r ht => ?_⟩, fun hw => exec_write_inside hup hf hp hw⟩
      · exact (exec_fills hi).trans (next_congr (State.deliverTo_taken hup hf (fun h => hp.trans h) ht))
      · exact (exec_fills hi).trans (next_congr (State.deliverTo_refused hup hf (fun h => hp.trans h) ht))

end Sys2Proof.Machine
end

section
/-! Packets at the controller: the spill pools, the engines' inboxes and the timer of missing precedents. -/

namespace Sys2Proof.Machine

variable {s : State} {n : Node} {p : Packet}

/-! ## The spill pools (R320) -/

/-- The effect of a WRITE at the controller. -/
def State.spillWritten (s : State) (p : Packet) : State :=
  { s with spill := s.spill.set p.hdr.partition.toNat ((s.spill.getD p.hdr.partition.toNat []).writeBytes p.hdr.addr.toNat
      (slice p.payload 0 p.hdr.length.toNat)) }

theorem exec_write_ctl_notAllowed (hf : s.freshPacket .ctl p) (h : s.spillAllowed p.hdr = false) :
    exec (.write .ctl p) s = .next (s.nakPkt .ctl p.hdr 0x03) := next_congr (State.accept_refused hf (if_pos h))

theorem exec_write_ctl_outside (hf : s.freshPacket .ctl p) (h : s.spillAllowed p.hdr = true)
    (hr : s.spillRange p.hdr.partition.toNat p.hdr.addr.toNat p.hdr.length.toNat = false) :
    exec (.write .ctl p) s = .next (s.nakPkt .ctl p.hdr 0x04) :=
  next_congr (State.accept_refused hf ((if_neg (by simp [h])).trans (if_pos hr)))

theorem exec_write_ctl_inside (hf : s.freshPacket .ctl p) (h : s.spillAllowed p.hdr = true)
    (hr : s.spillRange p.hdr.partition.toNat p.hdr.addr.toNat p.hdr.length.toNat = true) :
    exec (.write .ctl p) s = .next ((s.spillWritten p).acked .ctl p) :=
  next_congr (State.accept_taken hf ((if_neg (by simp [h])).trans (if_neg (by simp [hr]))))

theorem exec_readReq_ctl_notAllowed (hf : s.freshPacket .ctl p) (h : s.spillAllowed p.hdr = false) (b : Bool) :
    exec (.readReq .ctl p b) s = .next (s.nakPkt .ctl p.hdr 0x03) :=
  (if_neg (by simp [h])).trans (next_congr (State.accept_refused hf (if_pos h)))

theorem exec_readReq_ctl_badTag (hf : s.freshPacket .ctl p) (h : s.spillAllowed p.hdr = true)
    (hr : s.spillRange p.hdr.partition.toNat p.hdr.addr.toNat (bitsAt p.hdr.aux.toNat 0 13) = true) :
    exec (.readReq .ctl p false) s = .next (s.raise (0x1802 + 0x20 * s.spillStack p.hdr) 3) := if_pos ⟨hf.1, h, hr, rfl⟩

theorem exec_readReq_ctl_answered (hf : s.freshPacket .ctl p) (h : s.spillAllowed p.hdr = true)
    (hr : s.spillRange p.hdr.partition.toNat p.hdr.addr.toNat (bitsAt p.hdr.aux.toNat 0 13) = true) :
    exec (.readReq .ctl p true) s = .next (s.acked .ctl p) :=
  (if_neg (by simp)).trans (next_congr (State.accept_taken hf ((if_neg (by simp [h])).trans (if_neg (by simp [hr])))))

/-! ## The engines' inboxes (R228) -/

/-- A SEND that binds no uplink and is not for the broker. -/
theorem exec_sendPacket_ctl (hf : s.freshPacket .ctl p) (he : bitsAt p.hdr.aux.toNat 0 5 ≠ 2) (hu : s.isUplink p = false) :
    exec (.sendPacket .ctl p) s = .next (match s.sendToEngine p with
      | (t, none) => t.acked .ctl p
      | (t, some r) => t.nakPkt .ctl p.hdr r) := by
  refine (if_neg he).trans (next_congr ((State.accept_fresh hf _).trans ?_))
  rw [if_neg (by simp [hu])] <;> rfl

theorem State.sendToEngine_noRoom (h : (s.engine (bitsAt p.hdr.aux.toNat 0 5)).running = false
      ∨ (s.engine (bitsAt p.hdr.aux.toNat 0 5)).inboxRoom (bitsAt p.hdr.aux.toNat 0 5) 0 = false) : s.sendToEngine p = (s, some 0x05) := if_pos h

theorem State.sendToEngine_room (hrun : (s.engine (bitsAt p.hdr.aux.toNat 0 5)).running = true)
    (hroom : (s.engine (bitsAt p.hdr.aux.toNat 0 5)).inboxRoom (bitsAt p.hdr.aux.toNat 0 5) 0 = true) : s.sendToEngine p =
      if (s.engine (bitsAt p.hdr.aux.toNat 0 5)).level = .tenant ∧ p.hdr.partition ≠ (s.engine (bitsAt p.hdr.aux.toNat 0 5)).partition then (s, some 0x03)
      else (s.setEngine (bitsAt p.hdr.aux.toNat 0 5) ((s.engine (bitsAt p.hdr.aux.toNat 0 5)).receive 0
        (p.hdr.bytes ++ slice p.payload 0 p.hdr.length.toNat)), none) := if_neg (by simp [hrun, hroom])

/-! ## Missing precedents (R110) -/

section
variable {src : Fid} {stream : BitVec 16} {seq : BitVec 32}

theorem exec_precedentTimer_none (h : (s.rx n src stream).held.find? (fun f => f.seq == seq) = none) :
    exec (.precedentTimer n src stream seq) s = .next s := by simp only [exec, execPrecedentTimer, h]

/-- The port that the event of a lost precedent names: at the controller the one its source is reached over. -/
def State.precedentPort (s : State) (n : Node) (h : Header) : Nat :=
  match n with
  | .ctl => s.originPort .ctl h
  | .agent _ => 0xFFFF

/-- A held completion asks for what is missing, or ends with the error. -/
theorem exec_precedentTimer_held {f : HeldFlag} (h : (s.rx n src stream).held.find? (fun f => f.seq == seq) = some f) :
    exec (.precedentTimer n src stream seq) s =
      if ((s.rx n src stream).missing f.seq f.prec).isEmpty = true ∨ s.nodeNow n < f.arrivedNs + 50000 * (f.requests + 1) then .next s
      else if f.requests < 3 then .next ((s.setRx n src stream { s.rx n src stream with held := (s.rx n src stream).held.map fun (y : HeldFlag) =>
          if y.seq = seq then { y with requests := y.requests + 1 } else y }).forEach
        (resendGroups ((s.rx n src stream).missing f.seq f.prec).length ((s.rx n src stream).missing f.seq f.prec))
          fun s g => s.answer n f.hdr 0x0A g.1 g.2)
      else .next (State.settle n src stream (s.rx n src stream).held.length ((s.endHeld n f true).raiseAt n 194 18 2
        (s.precedentPort n { f.hdr with dest := src }) 0)) := by
  simp only [exec, execPrecedentTimer, h]
  cases n <;> rfl

end

/-- Settles O31: the pools by their owner and range, the inboxes by their engine, the timer by what is missing. -/
theorem controllerPacketResults : Obligations.ControllerPacketResults := by
  rintro s p k len e rfl rfl hf ho
  refine ⟨fun h => ⟨exec_write_ctl_notAllowed hf h, exec_readReq_ctl_notAllowed hf h true⟩, fun h => ⟨exec_write_ctl_outside hf h, fun hr => ?_,
    fun hr => ⟨exec_readReq_ctl_badTag hf h hr, fun ht hheld => ?_⟩⟩, ?_, ?_⟩
  · have hlink := link_acked (s.spillWritten p) .ctl p
    have honly := hlink.linkOnly
    exact ⟨_, exec_write_ctl_inside hf h hr, by unfold State.LinkOnly at honly; rw [honly]; rfl, (LinkOnly_regs honly).trans rfl,
      (LinkOnly_engines honly).trans rfl, by unfold State.LinkOnly at honly; rw [honly]; rfl, hlink.agents_ctl.trans rfl⟩
  · rw [exec_readReq_ctl_answered hf h hr, State.acked_readReq s .ctl ho hheld ht]
  · rintro rfl he hu
    have hexec := exec_sendPacket_ctl hf he hu
    refine ⟨fun hno => ?_, fun hrun hroom hlvl hpart => ?_, fun hrun hroom hpart => ?_⟩
    · rw [hexec, State.sendToEngine_noRoom hno]
    · rw [hexec, State.sendToEngine_room hrun hroom, if_pos ⟨hlvl, hpart⟩]
    · rw [State.sendToEngine_room hrun hroom, if_neg fun h => h.2 (hpart h.1)] at hexec
      generalize hx : (s.engine (bitsAt p.hdr.aux.toNat 0 5)).receive 0 (p.hdr.bytes ++ slice p.payload 0 p.hdr.length.toNat) = x at hexec
      have hlink := link_acked (s.setEngine (bitsAt p.hdr.aux.toNat 0 5) x) .ctl p
      have hengines := LinkOnly_engines hlink.linkOnly
      refine ⟨_, hexec, (State.engine_of_engines hengines _).trans (State.engine_setEngine_self ..), fun i hi =>
        (State.engine_of_engines hengines _).trans (State.engine_setEngine_ne _ _ hi), (LinkOnly_regs hlink.linkOnly).trans rfl,
        hlink.agents_ctl.trans rfl⟩
  · rintro n src stream seq x rfl
    refine ⟨exec_precedentTimer_none, fun f hfind => ⟨fun hno => ?_, fun hdue hmiss hreq => ⟨_, ?_, rfl⟩, fun hdue hmiss hreq => ?_⟩⟩
    · rw [exec_precedentTimer_held hfind, if_pos (hno.imp_left List.isEmpty_iff.2)]
    · rw [exec_precedentTimer_held hfind, if_neg (not_or_intro (fun h => hmiss (List.isEmpty_iff.1 h)) (Nat.not_lt.2 hdue)), if_pos hreq]
    · rw [exec_precedentTimer_held hfind, if_neg (not_or_intro (fun h => hmiss (List.isEmpty_iff.1 h)) (Nat.not_lt.2 hdue)), if_neg (by omega)]
      refine ⟨?_, ?_⟩
      · rintro rfl
        rfl
      · rintro a rfl
        rfl

end Sys2Proof.Machine
end

section
/-! Chunks, results and acknowledgements at a node, and the contexts that reservations write and free. -/

namespace Sys2Proof.Machine

variable {s : State} {a : AgentRef} {p : Packet} {c : Ctx} {h : BitVec 128} {kids : List (BitVec 128)}

/-! ## What the account of a node does not touch (R462) -/

theorem State.charge_agent_keeps (s : State) (a : AgentRef) (x : Header) {α : Type} (f : Agent → α)
    (hf : ∀ (g : Agent) (n : Int), f { g with account := n } = f g) : f ((s.charge (.agent a) x).agent a) = f (s.agent a) := by
  unfold State.charge
  dsimp only
  split
  · rw [State.agent_updAgent_self, hf]
  · rfl

theorem State.charge_dom (s : State) (a : AgentRef) (x : Header) : (s.charge (.agent a) x).dom = s.dom := by
  unfold State.charge
  dsimp only
  split <;> rfl

theorem State.charge_ctx (s : State) (a : AgentRef) (x : Header) (t : BitVec 24) (g : Nat) :
    (s.charge (.agent a) x).ctx (.agent a) t g = s.ctx (.agent a) t g :=
  congrArg (fun l : List Ctx => l.find? fun c : Ctx => c.treeId == t && c.group == g) (s.charge_agent_keeps a x Agent.ctxs fun _ _ => rfl)

theorem State.nodeHead_congr {s u : State} (hu : (u.agent a).active = (s.agent a).active) (t : BitVec 24) :
    u.nodeHead (.agent a) t = s.nodeHead (.agent a) t := by rw [State.nodeHead, hu, State.nodeHead]

theorem State.inputOf_congr {s u : State} (hactive : (u.agent a).active = (s.agent a).active) (hjx : (u.agent a).jx = (s.agent a).jx)
    (hdom : u.dom = s.dom) (src : Fid) :
    u.inputOf (.agent a) h kids src = s.inputOf (.agent a) h kids src := by
  have hid : u.nodeFid (.agent a) = s.nodeFid (.agent a) := by
    rw [State.nodeFid, State.jfld, State.jx, hjx, State.nodeFid, State.jfld, State.jx]
  have hroute : u.routeLocal a src = s.routeLocal a src := by
    rw [State.routeLocal, hid, hactive, hdom, State.routeLocal]
  have hchild (x : Fid) : u.childIs (.agent a) x src = s.childIs (.agent a) x src := by rw [State.childIs, hid, hroute, State.childIs]
  rw [State.inputOf, hid, State.inputOf]
  simp only [hchild]

/-! ## Collective packets (R255, R267, R287) -/

theorem exec_collective_badCrc (hcrc : p.crcOk = false) (n : Node) :
    ∀ k ∈ [Instr.chunk n p, .chunkResult n p, .chunkAck n p], exec k s = .next (s.discard n 0 0x0108) := by
  intro k hk
  simp only [List.mem_cons, List.not_mem_nil, or_false] at hk
  rcases hk with rfl | rfl | rfl <;> exact next_congr (if_neg (by simp [hcrc]))

/-- A chunk whose context and tree the node holds. -/
def State.chunkHeld (s : State) (n : Node) (p : Packet) (h : BitVec 128) (kids : List (BitVec 128)) (c : Ctx) : State :=
  if p.hdr.partition ≠ c.partition then s.collDiscard n (pktTree p.hdr)
  else if pktGen p.hdr ≠ c.generation then s.nodeGenDiscard n (pktGen p.hdr) c.generation
  else match s.inputOf n h kids p.hdr.src with
    | some i => s.nodeChunk n h kids c i p
    | none => s.collDiscard n (pktTree p.hdr)

/-- A result whose context and tree the node holds. -/
def State.resultHeld (s : State) (n : Node) (p : Packet) (h : BitVec 128) (kids : List (BitVec 128)) (c : Ctx) : State :=
  if p.hdr.partition ≠ c.partition then s.collDiscard n (pktTree p.hdr)
  else if pktGen p.hdr ≠ c.generation then s.nodeGenDiscard n (pktGen p.hdr) c.generation
  else s.nodeResult n h kids c p

/-- An acknowledgement whose context and tree the node holds. -/
def State.ackHeld (s : State) (n : Node) (p : Packet) (h : BitVec 128) (kids : List (BitVec 128)) (c : Ctx) : State :=
  if p.hdr.partition ≠ c.partition then s.collDiscard n (pktTree p.hdr)
  else if pktGen p.hdr ≠ c.generation then s.nodeGenDiscard n (pktGen p.hdr) c.generation
  else match s.inputOf n h kids p.hdr.src with
    | some i => s.nodeChildAck n h kids c i p
    | none =>
      if p.hdr.src = headParent h ∧ s.isRoot n h c.group = false then s.nodeParentAck n h kids c p
      else s.collDiscard n (pktTree p.hdr)

theorem exec_chunk_ring (hcrc : p.crcOk = true) (ht : pktTree p.hdr = 0) (hup : s.computeUp a = true) :
    exec (.chunk (.agent a) p) s = .next (s.ringChunk a p) ∧ exec (.chunkAck (.agent a) p) s = .next (s.ringAck a p.hdr) :=
  ⟨next_congr ((if_pos hcrc).trans ((if_pos ht).trans (if_pos hup))), next_congr ((if_pos hcrc).trans ((if_pos ht).trans (if_pos hup)))⟩

section
variable (hcrc : p.crcOk = true) (ht : pktTree p.hdr ≠ 0)
include hcrc ht

theorem exec_chunk_noCtx (hc : s.ctx (.agent a) (pktTree p.hdr) (pktGroup p.hdr) = none) :
    exec (.chunk (.agent a) p) s = .next ((s.charge (.agent a) p.hdr).collDiscard (.agent a) (pktTree p.hdr)) := by
  refine next_congr ((if_pos hcrc).trans ((if_neg ht).trans ?_))
  simp only [State.charge_ctx, hc]

theorem exec_member_noCtx (hc : s.ctx (.agent a) (pktTree p.hdr) (pktGroup p.hdr) = none) (hh : s.nodeHead (.agent a) (pktTree p.hdr) = none) :
    exec (.chunkResult (.agent a) p) s = .next (if s.computeUp a = true then s.memberResult a p else s)
    ∧ exec (.chunkAck (.agent a) p) s = .next (if s.computeUp a = true then s.memberRootAck a p.hdr else s) := by
  refine ⟨next_congr ((if_pos hcrc).trans ?_), next_congr ((if_pos hcrc).trans ((if_neg ht).trans ?_))⟩ <;> simp only [hc, hh]

variable (hc : s.ctx (.agent a) (pktTree p.hdr) (pktGroup p.hdr) = some c) (hh : s.nodeHead (.agent a) (pktTree p.hdr) = some (h, kids))
include hc hh

theorem exec_chunk_held : exec (.chunk (.agent a) p) s = .next ((s.charge (.agent a) p.hdr).chunkHeld (.agent a) p h kids c) := by
  refine next_congr ((if_pos hcrc).trans ((if_neg ht).trans ?_))
  simp only [State.charge_ctx, State.nodeHead_congr (s.charge_agent_keeps a p.hdr Agent.active fun _ _ => rfl), hc, hh] <;> rfl

omit ht in
theorem exec_chunkResult_held : exec (.chunkResult (.agent a) p) s = .next ((s.charge (.agent a) p.hdr).resultHeld (.agent a) p h kids c) := by
  refine next_congr ((if_pos hcrc).trans ?_)
  simp only [hc, hh] <;> rfl

theorem exec_chunkAck_held : exec (.chunkAck (.agent a) p) s = .next (s.ackHeld (.agent a) p h kids c) := by
  refine next_congr ((if_pos hcrc).trans ((if_neg ht).trans ?_))
  simp only [hc, hh] <;> rfl

end

/-- The input of a sender reads nothing of the account. -/
theorem State.charge_inputOf (s : State) (a : AgentRef) (x : Header) (src : Fid) :
    (s.charge (.agent a) x).inputOf (.agent a) h kids src = s.inputOf (.agent a) h kids src :=
  State.inputOf_congr (s.charge_agent_keeps a x Agent.active fun _ _ => rfl) (s.charge_agent_keeps a x Agent.jx fun _ _ => rfl)
    (s.charge_dom a x) src

section
variable {n : Node}

theorem State.held_otherPartition (hp : p.hdr.partition ≠ c.partition) :
    s.chunkHeld n p h kids c = s.collDiscard n (pktTree p.hdr) ∧ s.resultHeld n p h kids c = s.collDiscard n (pktTree p.hdr)
      ∧ s.ackHeld n p h kids c = s.collDiscard n (pktTree p.hdr) := ⟨if_pos hp, if_pos hp, if_pos hp⟩

variable (hp : p.hdr.partition = c.partition)
include hp

theorem State.held_otherGeneration (hg : pktGen p.hdr ≠ c.generation) :
    s.chunkHeld n p h kids c = s.nodeGenDiscard n (pktGen p.hdr) c.generation
      ∧ s.ackHeld n p h kids c = s.nodeGenDiscard n (pktGen p.hdr) c.generation :=
  ⟨(if_neg (not_not_intro hp)).trans (if_pos hg), (if_neg (not_not_intro hp)).trans (if_pos hg)⟩

variable (hg : pktGen p.hdr = c.generation)
include hg

theorem State.resultHeld_own : s.resultHeld n p h kids c = s.nodeResult n h kids c p :=
  (if_neg (not_not_intro hp)).trans (if_neg (not_not_intro hg))

theorem State.held_input {i : Nat} (hi : s.inputOf n h kids p.hdr.src = some i) :
    s.chunkHeld n p h kids c = s.nodeChunk n h kids c i p ∧ s.ackHeld n p h kids c = s.nodeChildAck n h kids c i p := by
  rw [State.chunkHeld, State.ackHeld, if_neg (not_not_intro hp), if_neg (not_not_intro hg), if_neg (not_not_intro hp), if_neg (not_not_intro hg), hi]
  exact ⟨rfl, rfl⟩

theorem State.held_noInput (hi : s.inputOf n h kids p.hdr.src = none) : s.chunkHeld n p h kids c = s.collDiscard n (pktTree p.hdr)
    ∧ s.ackHeld n p h kids c = if p.hdr.src = headParent h ∧ s.isRoot n h c.group = false then s.nodeParentAck n h kids c p
      else s.collDiscard n (pktTree p.hdr) := by
  rw [State.chunkHeld, State.ackHeld, if_neg (not_not_intro hp), if_neg (not_not_intro hg), if_neg (not_not_intro hp), if_neg (not_not_intro hg), hi]
  exact ⟨rfl, rfl⟩

end

/-- A copy of a part that stands in an open set changes nothing. -/
theorem State.nodeChunk_copy {n : Node} {i : Nat} {x : ChunkSet} (hk : pktKind p.hdr ≠ 3) (hab : c.abortOf p.hdr.seq = none)
    (hx : c.find p.hdr.seq (pktIndex p.hdr) = some x) (hopen : x.phase = .open_)
    (hpart : ∃ y ∈ x.ofInput i, y.part = (contribution p i).part) (hwhole : x.whole (inputsOf h) = false) : s.nodeChunk n h kids c i p = s := by
  have hany : (x.ofInput i).any (fun y => y.part == (contribution p i).part) = true := by
    obtain ⟨y, hy, hpart⟩ := hpart
    exact List.any_eq_true.2 ⟨y, hy, by simpa using hpart⟩
  have hclosed : ¬x.whole (inputsOf h) = true := by simp [hwhole]
  simp only [State.nodeChunk, if_neg hk, hab, hx, hopen, if_pos hany, if_neg hclosed]

/-! ## Reservations (R51, R52, R270) -/

/-- What a RESERVE_WRITE may not do. -/
def State.ctxRefused (s : State) (a : AgentRef) (c : Ctx) : Prop :=
  (s.ctx (.agent a) c.treeId c.group).isSome = true ∨ c.blockCount < max 1 (ctxBlocks c.inputs c.window c.chunkLog2)
    ∨ ctxTotal a.variant ≤ (s.agent a).ctxs.length ∨ blocksTotal a.variant < ((s.agent a).ctxs.map (·.blockCount)).sum + c.blockCount

theorem exec_reserveWrite_refused (ho : s.ownerPacket a p) (hr : s.ctxRefused a (ctxOf p.payload)) :
    exec (.reserveWrite a p) s = .next ((s.satJfld a JX_RCTX_RESERVE_FAILS 1).nakPkt (.agent a) p.hdr 0x09) :=
  next_congr ((State.fromOwner_owner ho _).trans (State.accept_refused ho.fresh (if_pos hr)))

theorem exec_reserveWrite_taken (ho : s.ownerPacket a p) (hr : ¬s.ctxRefused a (ctxOf p.payload)) :
    exec (.reserveWrite a p) s = .next (((s.updAgent a fun g => { g with ctxs := g.ctxs ++ [ctxOf p.payload] }).showCtx a).acked (.agent a) p) :=
  next_congr ((State.fromOwner_owner ho _).trans (State.accept_taken ho.fresh (if_neg hr)))

theorem exec_reserveFree_none (ho : s.ownerPacket a p) (hc : s.ctx (.agent a) (ctxOf p.payload).treeId (ctxOf p.payload).group = none) :
    exec (.reserveFree a p) s = .next (s.nakPkt (.agent a) p.hdr 0x09) :=
  next_congr ((State.fromOwner_owner ho _).trans (State.accept_refused ho.fresh (if_neg (by simp [hc]))))

theorem exec_reserveFree_freed (ho : s.ownerPacket a p) (hc : s.ctx (.agent a) (ctxOf p.payload).treeId (ctxOf p.payload).group ≠ none) :
    exec (.reserveFree a p) s = .next (((s.updAgent a fun g => { g with ctxs := g.ctxs.filter fun x =>
      !(x.treeId == (ctxOf p.payload).treeId && x.group == (ctxOf p.payload).group) }).showCtx a).acked (.agent a) p) :=
  next_congr ((State.fromOwner_owner ho _).trans (State.accept_taken ho.fresh (if_pos (Option.isSome_iff_ne_none.2 hc))))

/-- An agent but for its contexts after they change and are shown, and the packet is acknowledged. -/
theorem State.ctxs_shown (s : State) (a : AgentRef) (p : Packet) (f : List Ctx → List Ctx) {t : State}
    (ht : t = ((s.updAgent a fun g => { g with ctxs := f g.ctxs }).showCtx a).acked (.agent a) p) :
    (t.agent a).ctxs = f (s.agent a).ctxs ∧ t.regs = s.regs ∧ t.engines = s.engines ∧ ∀ b, b ≠ a → t.agent b = s.agent b := by
  have hshow (u : State) : ∃ j, (u.showCtx a).agent a = { u.agent a with jx := j } := by
    obtain ⟨j, hj⟩ := State.agent_setJfld u a JX_RCTX_CTX_FREE (ctxTotal a.variant - (u.agent a).ctxs.length)
    obtain ⟨k, hk⟩ := State.agent_setJfld (u.setJfld a JX_RCTX_CTX_FREE (ctxTotal a.variant - (u.agent a).ctxs.length)) a JX_RMEM_BLOCKS_FREE
      (blocksTotal a.variant - ((u.agent a).ctxs.map (·.blockCount)).sum)
    exact ⟨k, hk.trans (by rw [hj])⟩
  have hother (u : State) {b : AgentRef} (hb : b ≠ a) : (u.showCtx a).agent b = u.agent b :=
    (State.agent_updAgent_ne _ _ hb).trans (State.agent_updAgent_ne _ _ hb)
  subst ht
  have hlink := link_acked ((s.updAgent a fun g => { g with ctxs := f g.ctxs }).showCtx a) (.agent a) p
  obtain ⟨j, hj⟩ := hshow (s.updAgent a fun g => { g with ctxs := f g.ctxs })
  refine ⟨(hlink.get a Agent.ctxs fun _ => rfl).trans ?_, (LinkOnly_regs hlink.linkOnly).trans rfl, (LinkOnly_engines hlink.linkOnly).trans rfl,
    fun b hb => ?_⟩
  · rw [hj, State.agent_updAgent_self]
  · refine (hlink.agent_ne fun hn => hb (Node.agent.inj hn).symm).trans ((hother _ hb).trans ?_)
    exact State.agent_updAgent_ne _ _ hb

/-- Settles O41: the checks of a packet at its node, in their order, and the contexts by what a reservation does to the list. -/
theorem reductionNodeResults : Obligations.ReductionNodeResults := by
  rintro s a n p c h kids u rfl rfl
  refine ⟨fun hcrc m => exec_collective_badCrc hcrc m, fun hcrc ht hup => exec_chunk_ring hcrc ht hup, fun hcrc ht hc => ⟨exec_chunk_noCtx hcrc ht hc,
    exec_member_noCtx hcrc ht hc⟩, fun hcrc ht hc hh => ?_, fun i x hk hab hx hopen hpart hwhole => State.nodeChunk_copy hk hab hx hopen hpart hwhole, ?_⟩
  · rw [exec_chunk_held hcrc ht hc hh, exec_chunkResult_held hcrc hc hh, exec_chunkAck_held hcrc ht hc hh]
    refine ⟨fun hp => ?_, fun hp hg => ?_, fun hp hg => ⟨next_congr (State.resultHeld_own hp hg), fun hi => ?_, fun i hi => ?_, fun hi hsrc hroot => ?_⟩⟩
    · exact ⟨next_congr (State.held_otherPartition hp).1, next_congr (State.held_otherPartition hp).2.1, next_congr (State.held_otherPartition hp).2.2⟩
    · exact ⟨next_congr (State.held_otherGeneration hp hg).1, next_congr (State.held_otherGeneration hp hg).2⟩
    · exact next_congr (State.held_noInput hp hg ((s.charge_inputOf a p.hdr _).trans hi)).1
    · exact ⟨next_congr (State.held_input hp hg ((s.charge_inputOf a p.hdr _).trans hi)).1, next_congr (State.held_input hp hg hi).2⟩
    · exact next_congr ((State.held_noInput hp hg hi).2.trans (if_pos ⟨hsrc, hroot⟩))
  · rintro ho rfl
    refine ⟨fun hr => exec_reserveWrite_refused ho ?_, fun hnew hblocks hroom htotal => ⟨_, exec_reserveWrite_taken ho ?_, State.ctxs_shown s a p (· ++ [ctxOf p.payload]) rfl⟩,
      exec_reserveFree_none ho, fun hc => ⟨_, exec_reserveFree_freed ho hc, State.ctxs_shown s a p (List.filter fun x =>
        !(x.treeId == (ctxOf p.payload).treeId && x.group == (ctxOf p.payload).group)) rfl⟩⟩
    · rcases hr with hr | hr | hr | hr
      · exact .inl (Option.isSome_iff_ne_none.2 hr)
      · exact .inr (.inr (.inl hr))
      · exact .inr (.inl hr)
      · exact .inr (.inr (.inr hr))
    · rintro (hr | hr | hr | hr)
      · simp [hnew] at hr
      · omega
      · omega
      · omega

end Sys2Proof.Machine
end

section
/-! Launch notices, idle reports and tickets: which group is served, and what its state decides. -/

namespace Sys2Proof.Machine

variable {s : State} {p : Packet} {op : BitVec 32} {sparse : Bool} {g : Group} {k : Nat}

/-! ## Launch notices (R274, R280, R281) -/

theorem exec_groupNotice_badCrc (h : p.crcOk = false) (k : Nat) (op : BitVec 32) (sparse : Bool) :
    ∀ i ∈ [Instr.launchNotice p k op sparse, Instr.idleReport p], exec i s = .next (s.nakPkt .ctl p.hdr 0x01) := by
  intro i hi
  simp only [List.mem_cons, List.not_mem_nil, or_false] at hi
  rcases hi with rfl | rfl <;> exact next_congr (State.accept_bad h _)

theorem exec_launchNotice_noGroup (hf : s.freshPacket .ctl p) (h : s.group k = none) :
    exec (.launchNotice p k op sparse) s = .next (s.acked .ctl p) := by
  refine next_congr (State.accept_taken hf ?_)
  simp only [h]

/-- A notice of a group counts where its source is a member. -/
theorem exec_launchNotice_group (hf : s.freshPacket .ctl p) (h : s.group k = some g) : exec (.launchNotice p k op sparse) s
    = .next ((if g.rec_.members.any (fun m => m.fid == p.hdr.src) then s.launchNotice k op sparse else s).acked .ctl p) := by
  refine next_congr (State.accept_taken hf ?_)
  simp only [h]
  split <;> rfl

theorem Group.member_any {src : Fid} : (g.rec_.members.any fun m => m.fid == src) = true ↔ ∃ m ∈ g.rec_.members, m.fid = src := by
  simp [List.any_eq_true]

theorem State.launchNotice_library (h : s.group k = some g) (hl : g.rec_.library = true) : s.launchNotice k op sparse = s := by
  simp only [State.launchNotice, h, if_pos hl]

/-- The group after a launch notice: no member is known as idle. -/
def Group.noticed (g : Group) : Group := { g with idle := [], idleSinceNs := none }

/-- The group with one more operation decided. -/
def Group.decidedOp (g : Group) (op : BitVec 32) : Group :=
  { g with decided := (op :: g.decided).take 1024, lastOp := if seqLater g.lastOp op then g.lastOp else op }

theorem State.launchNotice_queue (h : s.group k = some g) (hl : g.rec_.library = false) :
    s.launchNotice k op sparse = if g.decided.contains op then s.setGroup g.noticed else s.decideLaunch g.noticed op sparse := by
  have hlib : ¬g.rec_.library = true := by simp [hl]
  simp only [State.launchNotice, h, if_neg hlib]
  rfl

/-- A launch that waits for its group's reservation. -/
def State.waitLaunch (s : State) (v : Group) : State :=
  if v.resv ≠ 0 then s
  else if s.grp.tickets.any (fun t => t.group == v.rec_.groupId) then if s.fits v then s else s.satFld GRP_FALLBACK_WAITED 1
  else if (s.grp.groups.any fun h => s.groupActive h && s.overlapping v h) = false ∧ s.fits v ∧ !(s.grp.groups.any fun h => h.resv == 3) then
    s.startReservation v { number := 0, group := v.rec_.groupId, goal := .launch, sinceNs := s.now }
  else ((if s.fits v then s else s.satFld GRP_FALLBACK_WAITED 1).drawTicket v.rec_.groupId .launch).freeIdle

theorem State.decideLaunch_eq (s : State) (g : Group) (op : BitVec 32) (sparse : Bool) : s.decideLaunch g op sparse =
    if g.resv = 2 then (s.setGroup (g.decidedOp op)).sendGo (g.decidedOp op) op false false
    else if g.resv = 0 ∧ g.rec_.policyRing ∧ sparse = false ∧ s.fits (g.decidedOp op) = false then
      ((s.setGroup (g.decidedOp op)).satFld GRP_FALLBACK_RING 1).sendGo (g.decidedOp op) op true false
    else (s.setGroup { g.decidedOp op with waiting := g.waiting ++ [op] }).waitLaunch { g.decidedOp op with waiting := g.waiting ++ [op] } := rfl

section
variable {y : State} {v : Group}

theorem State.waitLaunch_reserved (h : v.resv ≠ 0) : y.waitLaunch v = y := if_pos h

/-- No group's rollback is in progress. -/
theorem no_rollback_iff (l : List Group) : (!(l.any fun h => h.resv == 3)) = true ↔ ∀ h ∈ l, h.resv ≠ 3 := by simp

/-- A launch of a group without a reservation joins its ticket, starts the reservation, or draws a ticket. -/
theorem State.waitLaunch_cases (h : v.resv = 0) :
    ((∃ x ∈ y.grp.tickets, x.group = v.rec_.groupId) → y.waitLaunch v = if y.fits v = true then y else y.satFld GRP_FALLBACK_WAITED 1)
    ∧ ((∀ x ∈ y.grp.tickets, x.group ≠ v.rec_.groupId) →
      ((y.grp.groups.any fun h => y.groupActive h && y.overlapping v h) = false → y.fits v = true → (∀ h ∈ y.grp.groups, h.resv ≠ 3) →
        y.waitLaunch v = y.startReservation v { number := 0, group := v.rec_.groupId, goal := .launch, sinceNs := y.now })
      ∧ ((y.grp.groups.any fun h => y.groupActive h && y.overlapping v h) = true ∨ y.fits v = false ∨ (∃ h ∈ y.grp.groups, h.resv = 3) →
        y.waitLaunch v = ((if y.fits v = true then y else y.satFld GRP_FALLBACK_WAITED 1).drawTicket v.rec_.groupId .launch).freeIdle)) := by
  refine ⟨fun ht => ?_, fun ht => ?_⟩
  · have hany : y.grp.tickets.any (fun t => t.group == v.rec_.groupId) = true := by simpa [List.any_eq_true] using ht
    exact (if_neg (not_not_intro h)).trans (if_pos hany)
  · have hany : ¬y.grp.tickets.any (fun t => t.group == v.rec_.groupId) = true := by simpa [List.any_eq_true] using ht
    refine ⟨fun hbusy hfit hroll => ?_, fun hor => ?_⟩
    · exact (if_neg (not_not_intro h)).trans ((if_neg hany).trans (if_pos ⟨hbusy, hfit, (no_rollback_iff _).2 hroll⟩))
    · refine (if_neg (not_not_intro h)).trans ((if_neg hany).trans (if_neg ?_))
      rintro ⟨hbusy, hfit, hroll⟩
      rcases hor with h | h | ⟨x, hx, hr⟩
      · exact Bool.false_ne_true (hbusy.symm.trans h)
      · exact Bool.false_ne_true (h.symm.trans hfit)
      · exact (no_rollback_iff _).1 hroll x hx hr

end

/-! ## Idle reports (R277) -/

/-- A member's idle report. -/
def State.memberIdle (s : State) (g : Group) (src : Fid) : State :=
  let u := { g with idle := g.idle ++ [src] }
  (s.setGroup { u with idleSinceNs := if u.resv == 2 && (agentMembers u.rec_).all fun m => u.idle.contains m.fid then some s.now else none }).freeIdle

theorem exec_idleReport_noGroup (hf : s.freshPacket .ctl p) (h : s.group (leAt p.payload 0 2) = none) :
    exec (.idleReport p) s = .next (s.acked .ctl p) := by
  refine next_congr (State.accept_taken hf ?_)
  simp only [h]

theorem exec_idleReport_group (hf : s.freshPacket .ctl p) (h : s.group (leAt p.payload 0 2) = some g) : exec (.idleReport p) s
    = .next ((if g.rec_.library ∨ !(g.rec_.members.any fun m => m.fid == p.hdr.src) ∨ g.idle.contains p.hdr.src then s
        else s.memberIdle g p.hdr.src).acked .ctl p) := by
  refine next_congr (State.accept_taken hf ?_)
  simp only [h]
  split <;> rfl

/-! ## Release and cross-order timers (R277, R279) -/

theorem exec_releaseTimer_group (h : s.group k = some g) : exec (.reservationReleaseTimer k) s = match g.idleSinceNs with
    | some t =>
      if g.rec_.library = false ∧ g.resv = 2 ∧ t + s.fld GRP_RESV_CFG_RELEASE_US * 1000 ≤ s.now then .next (s.freeReservation g) else .next s
    | none => .next s := by
  simp only [exec, execReservationReleaseTimer, h] <;> rfl

/-- The report of one stalled holder. -/
def State.reportHolder (t : Ticket) (s : State) (h : Group) : State :=
  (((s.satFld GRP_XORDER_REPORTS 1).setFld GRP_XORDER_WAITING_GROUP t.group).setFld GRP_XORDER_HOLDING_GROUP h.rec_.groupId).raise srcGRP 2
    (BitVec.ofNat 16 t.group)

/-- The holders a waiting ticket reports. -/
def State.stalledHolders (s : State) (g : Group) (t : Ticket) : List Group :=
  s.grp.groups.filter fun h => h.resv == 2 && decide (h.heldNs + 10000000 ≤ s.now) && s.overlapping g h && s.holderStalled h
    && !t.reported.contains h.rec_.groupId

/-- The tickets after a report. -/
def reportedTickets (l : List Ticket) (n : Nat) (hs : List Group) : List Ticket :=
  l.map fun u => if u.number = n then { u with reported := u.reported ++ hs.map fun h => h.rec_.groupId } else u

theorem State.reportHolder_keeps (t : Ticket) (l : List Group) (s : State) :
    (s.forEach l fun s h => s.reportHolder t h).grp = s.grp ∧ (s.forEach l fun s h => s.reportHolder t h).agents = s.agents
      ∧ (s.forEach l fun s h => s.reportHolder t h).engines = s.engines := by
  induction l generalizing s with
  | nil => exact ⟨rfl, rfl, rfl⟩
  | cons h l ih =>
    obtain ⟨h1, h2, h3⟩ := ih (s.reportHolder t h)
    exact ⟨h1.trans (by simp [State.reportHolder]), h2.trans (by simp [State.reportHolder]), h3.trans (by simp [State.reportHolder])⟩

theorem exec_crossOrderTimer_library {t : Ticket} {n e : Nat} (ht : s.grp.tickets.find? (fun x => x.number == n) = some t)
    (hgoal : t.goal = .library e) (hg : s.group t.group = some g) (hdue : t.sinceNs + 10000000 ≤ s.now) : exec (.crossOrderTimer n) s
      = .next ((s.forEach (s.stalledHolders g t) fun s h => s.reportHolder t h).setTickets
          (reportedTickets (s.forEach (s.stalledHolders g t) fun s h => s.reportHolder t h).grp.tickets n (s.stalledHolders g t))) := by
  simp only [exec, execCrossOrderTimer, ht, hgoal, hg]
  exact if_neg (by omega)

/-- A ticket that is not a library group's reports nothing, nor does one that has not waited 10 ms. -/
theorem exec_crossOrderTimer_idle {n : Nat} {t : Ticket} (ht : s.grp.tickets.find? (fun x => x.number == n) = some t)
    (hno : (∀ e, t.goal = .library e → s.now < t.sinceNs + 10000000)) : exec (.crossOrderTimer n) s = .next s := by
  simp only [exec, execCrossOrderTimer, ht]
  split
  · next e g hgoal hg => exact if_pos (hno e hgoal)
  · rfl

theorem exec_crossOrderTimer_none {n : Nat} (h : ∀ x ∈ s.grp.tickets, x.number ≠ n) : exec (.crossOrderTimer n) s = .next s := by
  have hfind : s.grp.tickets.find? (fun t => t.number == n) = none := by simpa using h
  simp only [exec, execCrossOrderTimer, hfind]

/-- The ticket of a report names every holder it reported, and nothing else changes. -/
theorem exec_crossOrderTimer_reports {t : Ticket} {n e : Nat} {h : Group} (ht : s.grp.tickets.find? (fun x => x.number == n) = some t)
    (hgoal : t.goal = .library e) (hg : s.group t.group = some g) (hdue : t.sinceNs + 10000000 ≤ s.now)
    (hmem : h ∈ s.stalledHolders g t) : ∃ u, exec (.crossOrderTimer n) s = .next u
      ∧ (∀ x ∈ u.grp.tickets, x.number = n → h.rec_.groupId ∈ x.reported) ∧ u.grp.groups = s.grp.groups
      ∧ u.grp.tickets.length = s.grp.tickets.length ∧ u.agents = s.agents ∧ u.engines = s.engines := by
  obtain ⟨hgrp, hagents, hengines⟩ := State.reportHolder_keeps t (s.stalledHolders g t) s
  refine ⟨_, exec_crossOrderTimer_library ht hgoal hg hdue, ?_⟩
  generalize s.forEach (s.stalledHolders g t) (fun s h => s.reportHolder t h) = y at hgrp hagents hengines
  refine ⟨fun x hx hn => ?_, Eq.trans (b := y.grp.groups) rfl (congrArg GroupSt.groups hgrp), ?_, hagents, hengines⟩
  · obtain ⟨z, -, rfl⟩ := List.mem_map.1 (show x ∈ reportedTickets y.grp.tickets n (s.stalledHolders g t) from hx)
    by_cases hz : z.number = n
    · rw [if_pos hz]
      exact List.mem_append_right _ (List.mem_map_of_mem hmem)
    · rw [if_neg hz] at hn
      exact absurd hn hz
  · rw [← congrArg GroupSt.tickets hgrp]
    exact List.length_map _

/-- A launch of a queue group, its notice counted and its operation not decided yet. -/
theorem exec_launchNotice_undecided (hf : s.freshPacket .ctl p) (h : s.group k = some g) {m : Member} (hm : m ∈ g.rec_.members)
    (hsrc : m.fid = p.hdr.src) (hl : g.rec_.library = false) (hop : op ∉ g.decided) :
    exec (.launchNotice p k op sparse) s = .next ((s.decideLaunch g.noticed op sparse).acked .ctl p) := by
  rw [exec_launchNotice_group hf h, if_pos (Group.member_any.2 ⟨m, hm, hsrc⟩), State.launchNotice_queue h hl, if_neg (by simpa using hop)]

/-- Settles O45: the notice's group, its members and the group's reservation decide what becomes of it. -/
theorem groupRequestResults : Obligations.GroupRequestResults := by
  intro s p op sparse g k n t
  refine ⟨fun h => exec_groupNotice_badCrc h k op sparse, exec_launchNotice_noGroup, exec_idleReport_noGroup, fun hf hg => ⟨fun hno => ?_, ?_⟩,
    fun hf hg => ⟨fun hno => ?_, ?_⟩, fun h => ?_, fun hg => ⟨fun x hx hl hr hdue => ?_, fun hno => ?_⟩, fun h => ?_, fun h hg => ?_,
    exec_crossOrderTimer_none, fun ht => ⟨fun e he hwait => ?_, fun hgoal => ?_, fun e h hgoal hdue hg hh hres hheld hover hstall hrep => ?_⟩⟩
  · rw [exec_launchNotice_group hf hg]
    rcases hno with hno | hl
    · rw [if_neg fun h => by obtain ⟨m, hm, hsrc⟩ := Group.member_any.1 h; exact hno m hm hsrc]
    · rw [State.launchNotice_library hg hl, ite_self]
  · rintro m u hm hsrc hl rfl
    refine ⟨fun hop => ?_, ?_⟩
    · rw [exec_launchNotice_group hf hg, if_pos (Group.member_any.2 ⟨m, hm, hsrc⟩), State.launchNotice_queue hg hl, if_pos (by simpa using hop)]
      rfl
    · rintro w hop rfl
      have hexec := exec_launchNotice_undecided (sparse := sparse) hf hg hm hsrc hl hop
      have hdecide := s.decideLaunch_eq g.noticed op sparse
      refine ⟨fun h2 => ?_, fun h0 hring hsp hfit => ?_, fun h2 hother => ⟨hexec, ?_⟩⟩
      · exact hexec.trans (next_congr (congrArg (State.acked · .ctl p) (hdecide.trans (if_pos h2))))
      · exact hexec.trans (next_congr (congrArg (State.acked · .ctl p) (hdecide.trans ((if_neg (by simp [Group.noticed, h0])).trans
          (if_pos ⟨h0, hring, hsp, hfit⟩)))))
      · have hring : ¬(g.noticed.resv = 0 ∧ g.noticed.rec_.policyRing ∧ sparse = false ∧ s.fits (g.noticed.decidedOp op) = false) := by
          rintro ⟨h0, hring, hsp, hfit⟩
          rcases hother with h | h | h | h
          · exact h h0
          · exact Bool.false_ne_true (h.symm.trans hring)
          · exact Bool.false_ne_true (hsp.symm.trans h)
          · exact Bool.false_ne_true (hfit.symm.trans h)
        have hwait := hexec.trans (next_congr (congrArg (State.acked · .ctl p) (hdecide.trans ((if_neg h2).trans (if_neg hring)))))
        refine ⟨fun h0 => hwait.trans (next_congr (congrArg (State.acked · .ctl p) (State.waitLaunch_reserved h0))), ?_⟩
        rintro v y h0 hv hy busy rfl
        have hyv : exec (.launchNotice p k op sparse) s = .next ((y.waitLaunch v).acked .ctl p) := by
          rw [hy, hv]
          exact hwait
        have hv0 : v.resv = 0 := by rw [hv]; exact h0
        have hid : v.rec_.groupId = g.rec_.groupId := by rw [hv]
        have hnow : y.now = s.now := by rw [hy]; rfl
        rw [← hid, ← hnow]
        obtain ⟨hticket, hno⟩ := State.waitLaunch_cases (y := y) hv0
        exact ⟨fun ht => hyv.trans (next_congr (congrArg (State.acked · .ctl p) (hticket ht))), fun ht =>
          ⟨fun hbusy hfit hroll => hyv.trans (next_congr (congrArg (State.acked · .ctl p) ((hno ht).1 hbusy hfit hroll))),
            fun hor => hyv.trans (next_congr (congrArg (State.acked · .ctl p) ((hno ht).2 hor)))⟩⟩
  · rw [exec_idleReport_group hf hg, if_pos]
    rcases hno with hl | hno | hin
    · exact .inl hl
    · exact .inr (.inl (by simpa using hno))
    · exact .inr (.inr (by simpa using hin))
  · rintro m u hm hsrc hl hin rfl
    have hgo : ¬(g.rec_.library = true ∨ (!(g.rec_.members.any fun m => m.fid == p.hdr.src)) = true ∨ g.idle.contains p.hdr.src = true) := by
      rintro (h | h | h)
      · simp [hl] at h
      · rw [Group.member_any.2 ⟨m, hm, hsrc⟩] at h
        exact absurd h (by decide)
      · exact hin (by simpa using h)
    rw [exec_idleReport_group hf hg, if_neg hgo, State.memberIdle]
    refine ⟨fun h2 hall => ?_, fun hno => ?_⟩
    · dsimp only
      rw [if_pos]
      simpa [h2] using hall
    · dsimp only
      rw [if_neg]
      rcases hno with h2 | ⟨x, hx, hni⟩
      · simp [h2]
      · intro h
        rw [Bool.and_eq_true, List.all_eq_true] at h
        exact hni (by simpa using h.2 x hx)
  · simp only [exec, execReservationReleaseTimer, h]
  · rw [exec_releaseTimer_group hg, hx]
    exact if_pos ⟨hl, hr, hdue⟩
  · rw [exec_releaseTimer_group hg]
    split
    · next x hx =>
      refine if_neg fun ⟨hl, hr, hdue⟩ => ?_
      rcases hno with h | h | h | h
      · simp [h] at hx
      · simp [hl] at h
      · exact h hr
      · exact absurd hdue (Nat.not_le.2 (h x hx))
    · rfl
  · simp only [exec, execTicketGrant, h]
  · simp only [exec, execTicketGrant, h, hg]
  · exact exec_crossOrderTimer_idle ht fun e' he' => hwait
  · refine exec_crossOrderTimer_idle ht fun e he => ?_
    rcases hgoal with h | h <;> simp [h] at he
  · refine exec_crossOrderTimer_reports ht hgoal hg hdue (List.mem_filter.2 ⟨hh, ?_⟩)
    simp [hres, hheld, hover, hstall, hrep]

end Sys2Proof.Machine
end

section
/-! Requests to the KV directory: the checks of a request, the end of a sequence, the moves and the grace. -/

namespace Sys2Proof.Machine

variable {s : State} {p : Packet}

/-! ## Requests and their answers (R228, R316, R317) -/

/-- The requests with their OP and what serves them. -/
def kvRequests (p : Packet) : List (Nat × Instr × (State → Packet → State × KvReply)) :=
  [(1, .kvOpen p, State.kvOpen), (2, .kvGrow p, State.kvGrow), (3, .kvClose p, State.kvClose), (4, .kvPrefetch p, State.kvPrefetch),
    (5, .kvRenew p, State.kvRenew)]

theorem exec_kvRequest {k : Nat} {i : Instr} {f : State → Packet → State × KvReply} (h : (k, i, f) ∈ kvRequests p) :
    exec i s = .next (if leAt p.payload 0 1 = k then s.kvTake p f else s) := by
  have hop (n : Nat) (t : State) : (if kvOp p n then t else s) = if leAt p.payload 0 1 = n then t else s := by simp [kvOp]
  simp only [kvRequests, List.mem_cons, Prod.mk.injEq, List.not_mem_nil, or_false] at h
  rcases h with ⟨rfl, rfl, rfl⟩ | ⟨rfl, rfl, rfl⟩ | ⟨rfl, rfl, rfl⟩ | ⟨rfl, rfl, rfl⟩ | ⟨rfl, rfl, rfl⟩ <;> exact next_congr (hop _ _)

theorem State.kvTake_stopped (hf : s.freshPacket .ctl p) (h : (s.engine 2).running = false) (f : State → Packet → State × KvReply) :
    s.kvTake p f = s.nakPkt .ctl p.hdr 0x05 := State.accept_refused hf (if_pos h)

theorem State.kvTake_served (hf : s.freshPacket .ctl p) (h : (s.engine 2).running = true) (f : State → Packet → State × KvReply) :
    s.kvTake p f = ((f s p).1.kvAnswer p.hdr (leAt p.payload 0 1) (leAt p.payload 4 4) (f s p).2).acked .ctl p :=
  State.accept_taken hf (if_neg (by simp [h]))

/-- A request of another length than 64 bytes is malformed. -/
theorem kvRequest_malformed {k : Nat} {i : Instr} {f : State → Packet → State × KvReply} (h : (k, i, f) ∈ kvRequests p)
    (hl : p.payload.length ≠ 64) : (f s p).1 = s ∧ (f s p).2.status = 1 := by
  simp only [kvRequests, List.mem_cons, Prod.mk.injEq, List.not_mem_nil, or_false] at h
  rcases h with ⟨rfl, rfl, rfl⟩ | ⟨rfl, rfl, rfl⟩ | ⟨rfl, rfl, rfl⟩ | ⟨rfl, rfl, rfl⟩ | ⟨rfl, rfl, rfl⟩
  · simp [State.kvOpen, hl]
  · simp [State.kvGrow, hl]
  · simp [State.kvClose, hl]
  · simp [State.kvPrefetch, hl]
  · simp [State.kvRenew, hl]

/-- The bytes behind a list count as zero. -/
theorem allZero_eq (l : List Byte) (a n : Nat) : allZero l a n = ((l.drop a).take n).all fun b => b == 0 := by
  rw [allZero, slice, List.all_append]
  simp

/-- Two runs of zero bytes, one behind the other, are one run. -/
theorem allZero_append {l : List Byte} {a m n : Nat} (h1 : allZero l a m = true) (h2 : allZero l (a + m) n = true) : allZero l a (m + n) = true := by
  rw [allZero_eq] at *
  rw [List.take_add, List.all_append, List.drop_drop, Bool.and_eq_true]
  exact ⟨h1, h2⟩

/-- A request on a sequence that its partition does not have open. -/
theorem kvRequest_unknown {k : Nat} {i : Instr} {f : State → Packet → State × KvReply} (h : (k, i, f) ∈ kvRequests p) (hk : k ≠ 1)
    (hl : p.payload.length = 64) (h1 : allZero p.payload 1 3 = true) (h20 : allZero p.payload 20 44 = true)
    (h3 : k = 3 → allZero p.payload 12 8 = true) (h2 : k = 2 → allZero p.payload 16 4 = true)
    (hq : s.seqOf (BitVec.ofNat 32 (leAt p.payload 8 4)) p.hdr.partition = none) :
    (f s p).1 = s ∧ (f s p).2.status = 2 ∧ (f s p).2.seqId = BitVec.ofNat 32 (leAt p.payload 8 4) := by
  simp only [kvRequests, List.mem_cons, Prod.mk.injEq, List.not_mem_nil, or_false] at h
  rcases h with ⟨rfl, rfl, rfl⟩ | ⟨rfl, rfl, rfl⟩ | ⟨rfl, rfl, rfl⟩ | ⟨rfl, rfl, rfl⟩ | ⟨rfl, rfl, rfl⟩
  · exact absurd rfl hk
  · have h16 : allZero p.payload 16 48 = true := allZero_append (h2 rfl) h20
    simp [State.kvGrow, hl, h1, h16, hq]
  · have h12 : allZero p.payload 12 52 = true := allZero_append (h3 rfl) h20
    simp [State.kvClose, hl, h1, h12, hq]
  · simp [State.kvPrefetch, hl, h1, h20, hq]
  · simp [State.kvRenew, hl, h1, h20, hq]

/-! ## The end of a sequence (R314, R326) -/

theorem updateFirst_mem {α : Type} {f : α → Bool} {g : α → α} {y : α} {l : List α} (h : ∃ x ∈ l, f x = true) (hg : ∀ x, g x = y) :
    y ∈ updateFirst f g l := by
  induction l with
  | nil => simp at h
  | cons x l ih =>
    unfold updateFirst
    split
    · rw [hg]
      exact List.mem_cons_self ..
    · next hx =>
      obtain ⟨z, hz, hfz⟩ := h
      rcases List.mem_cons.1 hz with rfl | hz
      · exact absurd hfz hx
      · exact List.mem_cons_of_mem _ (ih ⟨z, hz, hfz⟩)

/-- The state after the end of a sequence. -/
def State.seqClosed (s : State) (id : BitVec 32) (q : Seq) : State :=
  let s := s.cancelMoves fun x => x.seqId == id
  let g : Grace := { atNs := s.graceNs, endpoint := 0, slot := 0, partition := q.partition, seq := some id }
  (({ s with plc := { s.plc with grace := s.plc.grace ++ [g] } } : State).setSeq { q with closedNs := some s.now }).showPlc

theorem State.kvClose_open {q : Seq} (hl : p.payload.length = 64) (h1 : allZero p.payload 1 3 = true) (h12 : allZero p.payload 12 52 = true)
    (hq : s.seqOf (BitVec.ofNat 32 (leAt p.payload 8 4)) p.hdr.partition = some q) :
    s.kvClose p = (s.seqClosed (BitVec.ofNat 32 (leAt p.payload 8 4)) q, { seqId := BitVec.ofNat 32 (leAt p.payload 8 4) }) := by
  have hok : ¬(p.payload.length ≠ 64 ∨ (!allZero p.payload 1 3) = true ∨ (!allZero p.payload 12 52) = true) := by simp [hl, h1, h12]
  unfold State.kvClose
  simp only [if_neg hok, hq]
  rfl

theorem State.seqClosed_spec {id : BitVec 32} {part : BitVec 12} {q : Seq} (hq : s.seqOf id part = some q) :
    (∃ x ∈ (s.seqClosed id q).plc.seqs, x = { q with closedNs := some s.now })
    ∧ (s.seqClosed id q).plc.grace = s.plc.grace ++ [{ atNs := s.graceNs, endpoint := 0, slot := 0, partition := q.partition, seq := some id }]
    ∧ (∀ m ∈ (s.seqClosed id q).plc.moves, m ∈ s.plc.moves) ∧ (s.seqClosed id q).hbm = s.hbm ∧ (s.seqClosed id q).agents = s.agents := by
  refine ⟨⟨_, ?_, rfl⟩, rfl, fun m hm => List.mem_of_mem_filter hm, rfl, rfl⟩
  exact updateFirst_mem ⟨q, List.mem_of_find?_eq_some hq, beq_self_eq_true _⟩ fun _ => rfl

/-! ## Moves and the grace (R314, R319, R326) -/

theorem exec_kvMoveStart_none (h : ∀ e ∈ s.moveOrder, s.homeSlot e = none) : exec .kvMoveStart s = .next s := by
  have hfind : s.moveOrder.find? (fun e => (s.homeSlot e).isSome) = none := by
    rw [List.find?_eq_none]
    intro e he
    rw [h e he]
    exact Bool.false_ne_true
  simp only [exec, execKvMoveStart, hfind, ite_self]

/-- The state after the start of a move. -/
def State.moveStarted (s : State) (e d i : Nat) : State :=
  let x := s.engine 2
  let s := (s.setEngine 2 { x with tags := x.tags.set x.nextTag { kind := .kvmove e }, nextTag := x.nextTag + 1 }).startMove e d i (some (2, x.nextTag))
  { s with plc := { s.plc with movedInWindow := s.plc.movedInWindow + 1 } }

theorem exec_kvMoveStart_starts {e d i : Nat} (hrun : (s.engine 2).running = true) (hmax : s.plc.movedInWindow < s.fld PLC_KV_CFG_MAX_MOVES)
    (hfind : s.moveOrder.find? (fun e => (s.homeSlot e).isSome) = some e) (hslot : s.homeSlot e = some (d, i)) :
    exec .kvMoveStart s = .next (s.moveStarted e d i) := by
  have hgo : ¬((s.engine 2).running = false ∨ s.fld PLC_KV_CFG_MAX_MOVES ≤ s.plc.movedInWindow) := by simp [hrun]; omega
  simp only [exec, execKvMoveStart, if_neg hgo, hfind, hslot]
  rfl

theorem State.startMove_page {u : State} {e d i : Nat} {x : Page} {t : Option (Nat × Nat)} (h : u.plc.pages.get e = some x) :
    (u.startMove e d i t).plc = { u.plc with pages := u.plc.pages.set e { x with state := 2 }, moves := u.plc.moves ++ [{ entry := e, endpoint := d, slot := i, tag := t }]
                                             prefetch := u.plc.prefetch.filter (· != e) }
      ∧ (u.startMove e d i t).hbm = u.hbm ∧ (u.startMove e d i t).agents = u.agents := by
  unfold State.startMove
  simp only [h]
  exact ⟨rfl, rfl, rfl⟩

theorem State.moveStarted_spec {e d i : Nat} {x : Page} (h : s.plc.pages.get e = some x) :
    (s.moveStarted e d i).plc.pages.get e = some { x with state := 2 }
    ∧ (s.moveStarted e d i).plc.movedInWindow = s.plc.movedInWindow + 1
    ∧ (s.moveStarted e d i).plc.moves = s.plc.moves ++ [{ entry := e, endpoint := d, slot := i, tag := some (2, (s.engine 2).nextTag) }]
    ∧ (s.moveStarted e d i).plc.seqs = s.plc.seqs ∧ (s.moveStarted e d i).hbm = s.hbm ∧ (s.moveStarted e d i).agents = s.agents := by
  obtain ⟨hplc, hhbm, hagents⟩ := State.startMove_page (d := d) (i := i) (t := some (2, (s.engine 2).nextTag))
    (u := s.setEngine 2 { s.engine 2 with tags := (s.engine 2).tags.set (s.engine 2).nextTag { kind := .kvmove e }, nextTag := (s.engine 2).nextTag + 1 }) h
  unfold State.moveStarted
  dsimp only
  rw [hplc]
  exact ⟨NMap.get_set_self .., rfl, rfl, rfl, hhbm, hagents⟩

/-- A page that is kept is one that satisfies the test. -/
theorem NMap.get_keep {α : Type} {m : NMap α} {f : Nat → α → Bool} {i : Nat} {x : α} (h : (m.keep f).get i = some x) : f i x = true := by
  induction m with
  | nil => simp [NMap.keep] at h
  | cons y m ih =>
    unfold NMap.keep at h ih
    rw [List.filter_cons] at h
    split at h
    · next hy =>
      obtain ⟨k, v⟩ := y
      unfold NMap.get at h
      split at h
      · next hk =>
        subst hk
        cases h
        exact hy
      · exact ih h
    · exact ih h

section
variable {g : Grace} {l : List Grace} (h : s.plc.grace = g :: l) (hdue : g.atNs ≤ s.now) (hm : s.mirrorBlocks (some 6) = false)
include h hdue hm

theorem exec_kvGraceTimer_slot (hs : g.seq = none) :
    exec .kvGraceTimer s = .next ({ s with plc := { s.plc with grace := l } } : State).showPlc := by
  have hgo : ¬(s.now < g.atNs ∨ s.mirrorBlocks (some 6) = true) := by simp [hm]; omega
  simp only [exec, execKvGraceTimer, h, if_neg hgo, hs]

theorem exec_kvGraceTimer_seq {id : BitVec 32} (hs : g.seq = some id) : exec .kvGraceTimer s =
    if g.slot = 0 then .next ({ s with plc := { s.plc with pages := s.plc.pages.keep (fun _ x => x.seqId != id)
                                                           grace := l ++ [{ g with atNs := s.graceNs, slot := 1 }] } } : State).showPlc
    else .next ({ s with plc := { s.plc with grace := l, seqs := s.plc.seqs.filter fun q => q.seqId != id } } : State).showPlc := by
  have hgo : ¬(s.now < g.atNs ∨ s.mirrorBlocks (some 6) = true) := by simp [hm]; omega
  simp only [exec, execKvGraceTimer, h, if_neg hgo, hs]
  rfl

end

/-- Settles O47: each request by its checks, and the timers by the head of what waits. -/
theorem kvResults : Obligations.KvResults := by
  rintro s p id q g l rfl
  refine ⟨fun k i f hi => ⟨fun hk => ?_, fun hk hcrc => ?_, fun hk hf => ⟨fun hrun => ?_, fun hrun => ?_, kvRequest_malformed hi,
      fun h1 hl hz hz' h3 h2 hq => kvRequest_unknown hi h1 hl hz hz' h3 h2 hq⟩⟩, fun hl h1 h12 hq => ⟨_, State.kvClose_open hl h1 h12 hq, State.seqClosed_spec hq⟩,
    fun h => ?_, exec_kvMoveStart_none, fun e d i x hrun hmax hfind hslot hx => ⟨_, exec_kvMoveStart_starts hrun hmax hfind hslot, State.moveStarted_spec hx⟩,
    fun h => ?_, fun h hno => ?_, fun h hdue hm => ⟨fun hs => ?_, fun k hs hslot => ?_, fun k hs hslot => ?_⟩⟩
  · rw [exec_kvRequest hi, if_neg hk]
  · rw [exec_kvRequest hi, if_pos hk]
    exact next_congr (State.accept_bad hcrc _)
  · rw [exec_kvRequest hi, if_pos hk, State.kvTake_stopped hf hrun]
  · rw [exec_kvRequest hi, if_pos hk, State.kvTake_served hf hrun, hk]
  · exact if_pos h
  · simp only [exec, execKvGraceTimer, h]
  · simp only [exec, execKvGraceTimer, h, if_pos hno]
  · exact exec_kvGraceTimer_slot h hdue hm hs
  · refine ⟨_, (exec_kvGraceTimer_seq h hdue hm hs).trans (if_pos hslot), rfl, fun e x hx => ?_, rfl⟩
    simpa using NMap.get_keep (f := fun _ (x : Page) => x.seqId != k) hx
  · exact ⟨_, (exec_kvGraceTimer_seq h hdue hm hs).trans (if_neg hslot), rfl, rfl, rfl⟩

end Sys2Proof.Machine
end

section
/-! Command queues: doorbells, turns of reading, what was read, enabling and disabling. -/

namespace Sys2Proof.Machine

variable {s : State} {q : Nat}

/-! ## The fields of a queue's registers -/

/-- Two fields of a queue's registers share no bit. -/
def Field.separate (f g : Field) : Prop := f.fits ∧ g.fits ∧ (g.off ≠ f.off ∨ f.apart g)

theorem State.cq_setCq_self (s : State) (q : Nat) {f : Field} (hf : f.fits) (v : Nat) : (s.setCq q f v).cq q f = v % 2 ^ (f.hi - f.lo + 1) :=
  State.fld_setFld_self s (f := f.at (cqOff q f.off)) hf v

theorem State.cq_setCq_separate (s : State) (q : Nat) {f g : Field} (h : f.separate g) (v : Nat) : (s.setCq q f v).cq q g = s.cq q g := by
  obtain ⟨hf, hg, hoff | hapart⟩ := h
  · refine State.fld_setFld_off s ?_ v
    simp only [Field.at, cqOff]
    omega
  · exact State.fld_setFld_apart s (f := f.at (cqOff q f.off)) (g := g.at (cqOff q g.off)) hf hg hapart v

theorem State.cq_setQueue (s : State) (n : Nat) (x : QueueSt) (f : Field) : (s.setQueue n x).cq q f = s.cq q f := rfl

theorem State.cq_act (s : State) (o : Out) (f : Field) : (s.act o).cq q f = s.cq q f := by
  unfold State.act
  split <;> rfl

theorem State.queue_act (s : State) (o : Out) : (s.act o).queue q = s.queue q := by
  unfold State.act
  split <;> rfl

/-! ## Doorbells (R200) -/

theorem exec_doorbell_ready (h : s.ready = true) (v : BitVec 32) :
    exec (.sqDoorbell q v) s = .next (if s.doorbellOk q v then (s.setQueue q { s.queue q with tail := v.toNat }).showStalled q else s.doorbellBad q)
    ∧ exec (.cqHeadDoorbell q v) s
      = .next (if s.doorbellOk q v then (s.setCq q CTL_CQn_STATUS_CQ_HEAD v.toNat).showStalled q else s.doorbellBad q) := by
  have hr : ¬s.ready = false := by simp [h]
  exact ⟨(if_neg hr).trans (apply_ite Host.Outcome.next _ _ _).symm, (if_neg hr).trans (apply_ite Host.Outcome.next _ _ _).symm⟩

/-! ## Turns of reading (R201) -/

theorem State.fetchable_open (he : s.cq q CTL_CQn_CFG_ENABLE = 1) (hd : (s.queue q).disabling = false) (hg : s.gatesOpen = true)
    (hh : s.hubDown (s.cq q CTL_CQn_CFG_HUB) = false) : s.fetchable q
      = min 8 (min (((s.queue q).tail + s.ringSize q - s.cq q CTL_CQn_STATUS_SQ_HEAD) % s.ringSize q)
          (min (s.freeRecords q) (s.ringSize q - s.cq q CTL_CQn_STATUS_SQ_HEAD))) := if_neg (by simp [he, hd, hg, hh])

/-- The queues that have entries to read, in ascending order. -/
def State.canFetch (s : State) : List Nat := (List.range 64).filter fun k => decide (0 < s.fetchable k)

theorem State.mem_canFetch {k : Nat} : k ∈ s.canFetch ↔ k < 64 ∧ 0 < s.fetchable k := by simp [State.canFetch]

theorem State.fetchRound_eq (s : State) : s.fetchRound
    = if (s.canFetch.filter fun k => !s.turn.served.contains k).isEmpty then s.canFetch else s.canFetch.filter fun k => !s.turn.served.contains k := rfl

theorem State.canFetch_sorted (s : State) : s.canFetch.Pairwise (· < ·) := List.pairwise_lt_range.filter _

/-- The first of an ascending list is a member below which none lies. -/
theorem head?_eq_some_iff_of_sorted {l : List Nat} (hl : l.Pairwise (· < ·)) {n : Nat} : l.head? = some n ↔ n ∈ l ∧ ∀ k ∈ l, n ≤ k := by
  cases l with
  | nil => simp
  | cons x l =>
    obtain ⟨hx, -⟩ := List.pairwise_cons.1 hl
    rw [List.head?_cons, Option.some.injEq]
    refine ⟨?_, fun ⟨hn, hmin⟩ => ?_⟩
    · rintro rfl
      refine ⟨List.mem_cons_self .., fun k hk => ?_⟩
      rcases List.mem_cons.1 hk with rfl | hk
      · exact le_refl _
      · exact (hx k hk).le
    · rcases List.mem_cons.1 hn with rfl | hn
      · rfl
      · exact absurd (hmin x (List.mem_cons_self ..)) (Nat.not_le.2 (hx n hn))

theorem State.fetchTurn_iff (s : State) (q : Nat) : s.fetchTurn q = true ↔ q ∈ s.fetchRound ∧ ∀ k ∈ s.fetchRound, q ≤ k := by
  have hsorted : s.fetchRound.Pairwise (· < ·) := by
    rw [State.fetchRound_eq]
    split
    · exact s.canFetch_sorted
    · exact s.canFetch_sorted.filter _
  rw [← head?_eq_some_iff_of_sorted hsorted, State.fetchTurn, beq_iff_eq]

/-- Members of the round while a queue is left that it has not served. -/
theorem State.mem_fetchRound_rest (h : ∃ k, k < 64 ∧ 0 < s.fetchable k ∧ k ∉ s.turn.served) {k : Nat} :
    k ∈ s.fetchRound ↔ k < 64 ∧ 0 < s.fetchable k ∧ k ∉ s.turn.served := by
  have hrest (k : Nat) : k ∈ (s.canFetch.filter fun k => !s.turn.served.contains k) ↔ k < 64 ∧ 0 < s.fetchable k ∧ k ∉ s.turn.served := by
    rw [List.mem_filter, State.mem_canFetch, and_assoc]
    simp
  obtain ⟨j, hj⟩ := h
  rw [State.fetchRound_eq, if_neg, hrest]
  intro hempty
  rw [List.isEmpty_iff] at hempty
  have hmem := (hrest j).2 hj
  rw [hempty] at hmem
  exact List.not_mem_nil hmem

/-- Members of the round that begins when none is left. -/
theorem State.mem_fetchRound_all (h : ∀ k, k < 64 → 0 < s.fetchable k → k ∈ s.turn.served) {k : Nat} :
    k ∈ s.fetchRound ↔ k < 64 ∧ 0 < s.fetchable k := by
  rw [State.fetchRound_eq, if_pos, State.mem_canFetch]
  rw [List.isEmpty_iff, List.filter_eq_nil_iff]
  intro j hj
  obtain ⟨hj, hf⟩ := State.mem_canFetch.1 hj
  simpa using h j hj hf

/-- A queue's turn, with the round it leaves. -/
def State.fetchTaken (s : State) (q n : Nat) : State :=
  (((s.act (.hostFetch (s.cq q CTL_CQn_CFG_HUB) (s.cq q CTL_CQn_SQ_BASE_ADDR * 64 + 64 * s.cq q CTL_CQn_STATUS_SQ_HEAD) (64 * n))).setCq q
    CTL_CQn_STATUS_SQ_HEAD ((s.cq q CTL_CQn_STATUS_SQ_HEAD + n) % s.ringSize q)).setQueue q
      { s.queue q with inFlight := (s.queue q).inFlight + n }).showStalled q

theorem exec_queueFetch_eq (q : Nat) (s : State) : exec (.queueFetch q) s =
    if s.fetchable q = 0 then .next (s.showStalled q) else if s.fetchTurn q = false then .next s
    else .next ((s.fetchServed q).fetchTaken q (s.fetchable q)) := rfl

theorem exec_queueFetch_later (hn : 0 < s.fetchable q) (h : ¬s.fetchTurn q = true) : exec (.queueFetch q) s = .next s := by
  rw [exec_queueFetch_eq, if_neg (by omega), if_pos (by simpa using h)]

theorem exec_queueFetch_turn (hn : 0 < s.fetchable q) (h : s.fetchTurn q = true) :
    exec (.queueFetch q) s = .next ((s.fetchServed q).fetchTaken q (s.fetchable q)) := by
  rw [exec_queueFetch_eq, if_neg (by omega), if_neg (by simp [h])]

/-- A queue that the round has served waits while another is left. -/
theorem State.fetchTurn_served (hq : q ∈ s.turn.served) (h : ∃ k, k < 64 ∧ 0 < s.fetchable k ∧ k ∉ s.turn.served) : ¬s.fetchTurn q = true := fun ht =>
  ((State.mem_fetchRound_rest h).1 ((s.fetchTurn_iff q).1 ht).1).2.2 hq

/-- A queue waits for the lower ones that the round has still to serve. -/
theorem State.fetchTurn_lower (hq : q < 64) (h : ∃ k, k < q ∧ 0 < s.fetchable k ∧ k ∉ s.turn.served) : ¬s.fetchTurn q = true := by
  obtain ⟨k, hk, hf, hs⟩ := h
  intro ht
  have hk64 : k < 64 := by omega
  have hmem := (State.mem_fetchRound_rest ⟨k, hk64, hf, hs⟩).2 ⟨hk64, hf, hs⟩
  have hle := ((s.fetchTurn_iff q).1 ht).2 k hmem
  omega

/-- The turn of a queue that the round has still to serve. -/
theorem State.fetchTurn_next (hq : q < 64) (hn : 0 < s.fetchable q) (hs : q ∉ s.turn.served)
    (hlow : ∀ k, k < q → 0 < s.fetchable k → k ∈ s.turn.served) :
    s.fetchTurn q = true ∧ s.fetchServed q = { s with turn := { s.turn with served := s.turn.served ++ [q] } } := by
  have hround {k : Nat} := State.mem_fetchRound_rest (s := s) ⟨q, hq, hn, hs⟩ (k := k)
  refine ⟨(s.fetchTurn_iff q).2 ⟨hround.2 ⟨hq, hn, hs⟩, fun k hk => ?_⟩, ?_⟩
  · obtain ⟨-, hf, hns⟩ := hround.1 hk
    exact Nat.not_lt.1 fun hlt => hns (hlow k hlt hf)
  · have hany : (s.fetchRound.any fun k => s.turn.served.contains k) = false := by
      rw [List.any_eq_false]
      intro k hk
      simpa using (hround.1 hk).2.2
    simp only [State.fetchServed, hany, Bool.false_eq_true, if_false]

/-- The turn of the first queue of a new round. -/
theorem State.fetchTurn_first (hq : q < 64) (hn : 0 < s.fetchable q) (hall : ∀ k, k < 64 → 0 < s.fetchable k → k ∈ s.turn.served)
    (hlow : ∀ k, k < q → s.fetchable k = 0) : s.fetchTurn q = true ∧ s.fetchServed q = { s with turn := { s.turn with served := [q] } } := by
  have hround {k : Nat} := State.mem_fetchRound_all (s := s) hall (k := k)
  refine ⟨(s.fetchTurn_iff q).2 ⟨hround.2 ⟨hq, hn⟩, fun k hk => ?_⟩, ?_⟩
  · obtain ⟨-, hf⟩ := hround.1 hk
    exact Nat.not_lt.1 fun hlt => by
      have := hlow k hlt
      omega
  · have hany : (s.fetchRound.any fun k => s.turn.served.contains k) = true :=
      List.any_eq_true.2 ⟨q, hround.2 ⟨hq, hn⟩, by simpa using hall q hq hn⟩
    simp only [State.fetchServed, hany, if_true]

/-! ## Enabling and disabling (R199, R216) -/

theorem State.cq_showStalled (s : State) (q : Nat) {g : Field} (h : CTL_CQn_STATUS_STALLED.separate g) : (s.showStalled q).cq q g = s.cq q g :=
  State.cq_setCq_separate s q h _

/-- Writes of fields of a queue, one after another. -/
def State.setCqs (s : State) (q : Nat) (l : List (Field × Nat)) : State := l.foldl (fun s x => s.setCq q x.1 x.2) s

theorem State.setCqs_append (s : State) (q : Nat) (l k : List (Field × Nat)) : s.setCqs q (l ++ k) = (s.setCqs q l).setCqs q k := List.foldl_append

theorem State.cq_setCqs_separate {g : Field} (l : List (Field × Nat)) (h : ∀ x ∈ l, x.1.separate g) (s : State) : (s.setCqs q l).cq q g = s.cq q g := by
  induction l generalizing s with
  | nil => rfl
  | cons x l ih =>
    exact (ih (fun y hy => h y (List.mem_cons_of_mem _ hy)) (s.setCq q x.1 x.2)).trans
      (State.cq_setCq_separate s q (h x (List.mem_cons_self ..)) x.2)

theorem State.setCqs_keeps (l : List (Field × Nat)) (s : State) : (s.setCqs q l).queues = s.queues ∧ (s.setCqs q l).engines = s.engines
    ∧ (s.setCqs q l).agents = s.agents := by
  induction l generalizing s with
  | nil => exact ⟨rfl, rfl, rfl⟩
  | cons x l ih => exact ih (s.setCq q x.1 x.2)

/-- The fields that a write of CFG changes while the queue is off, in their order. -/
def cfgWrites (q : Nat) (w : Word64) : List (Field × Nat) :=
  (if q = 0 then [] else [(CTL_CQn_CFG_LEVEL, CTL_CQn_CFG_LEVEL.of w)]) ++ ((CTL_CQn_CFG_HUB, CTL_CQn_CFG_HUB.of w) ::
    ((if 4 ≤ CTL_CQn_CFG_SIZE_LOG2.of w ∧ CTL_CQn_CFG_SIZE_LOG2.of w ≤ 15 then [(CTL_CQn_CFG_SIZE_LOG2, CTL_CQn_CFG_SIZE_LOG2.of w)] else [])
      ++ ((if CTL_CQn_CFG_MAX_ENGINES.of w ≤ 28 then [(CTL_CQn_CFG_MAX_ENGINES, CTL_CQn_CFG_MAX_ENGINES.of w)] else [])
        ++ ((CTL_CQn_CFG_MSIX_VECTOR, CTL_CQn_CFG_MSIX_VECTOR.of w) :: (CTL_CQn_CFG_PARTITION, CTL_CQn_CFG_PARTITION.of w)
          :: if 1 ≤ CTL_CQn_CFG_MAX_TIME_MS.of w ∧ CTL_CQn_CFG_MAX_TIME_MS.of w ≤ 1000000 then
              [(CTL_CQn_CFG_MAX_TIME_MS, CTL_CQn_CFG_MAX_TIME_MS.of w)] else []))))

theorem State.setCqs_ite (s : State) (q : Nat) {c : Prop} [Decidable c] (l k : List (Field × Nat)) :
    s.setCqs q (if c then l else k) = if c then s.setCqs q l else s.setCqs q k := apply_ite (s.setCqs q) c l k

theorem State.writeCfg_eq (s : State) (q : Nat) (w : Word64) : s.writeCfg q w = s.setCqs q (cfgWrites q w) := by
  have hcons (u : State) (x : Field × Nat) (l : List (Field × Nat)) : u.setCqs q (x :: l) = (u.setCq q x.1 x.2).setCqs q l := rfl
  have hnil (u : State) : u.setCqs q [] = u := rfl
  simp only [cfgWrites, State.setCqs_append, State.setCqs_ite, hcons, hnil]
  rfl

/-- The fields a write of CFG may change. -/
def cfgFields : List Field :=
  [CTL_CQn_CFG_LEVEL, CTL_CQn_CFG_HUB, CTL_CQn_CFG_SIZE_LOG2, CTL_CQn_CFG_MAX_ENGINES, CTL_CQn_CFG_MSIX_VECTOR, CTL_CQn_CFG_PARTITION,
    CTL_CQn_CFG_MAX_TIME_MS]

theorem mem_ite_nil {α : Type} {c : Prop} [Decidable c] {x : α} {l : List α} (h : x ∈ if c then l else []) : x ∈ l := by
  split at h
  · exact h
  · exact absurd h List.not_mem_nil

theorem cfgWrites_fields (q : Nat) (w : Word64) : ∀ x ∈ cfgWrites q w, x.1 ∈ cfgFields := by
  intro x hx
  simp only [cfgWrites, List.mem_append, List.mem_cons] at hx
  rcases hx with hx | rfl | hx | hx | rfl | rfl | hx
  · split at hx
    · exact absurd hx List.not_mem_nil
    · obtain rfl := List.mem_singleton.1 hx
      simp [cfgFields]
  · simp [cfgFields]
  · obtain rfl := List.mem_singleton.1 (mem_ite_nil hx)
    simp [cfgFields]
  · obtain rfl := List.mem_singleton.1 (mem_ite_nil hx)
    simp [cfgFields]
  · simp [cfgFields]
  · simp [cfgFields]
  · obtain rfl := List.mem_singleton.1 (mem_ite_nil hx)
    simp [cfgFields]

theorem State.cq_writeCfg (s : State) (q : Nat) (w : Word64) {g : Field} (h : ∀ f ∈ cfgFields, f.separate g) : (s.writeCfg q w).cq q g = s.cq q g := by
  rw [State.writeCfg_eq]
  exact State.cq_setCqs_separate _ (fun x hx => h x.1 (cfgWrites_fields q w x hx)) s

/-- A field that is written once reads as written. -/
theorem State.cq_setCqs_mem {l : List (Field × Nat)} (hl : (l.map Prod.fst).Pairwise fun f g => g.separate f) {g : Field} {v : Nat} (hg : g.fits)
    (h : (g, v) ∈ l) (s : State) : (s.setCqs q l).cq q g = v % 2 ^ (g.hi - g.lo + 1) := by
  induction l generalizing s with
  | nil => exact absurd h List.not_mem_nil
  | cons x l ih =>
    obtain ⟨hx, hrest⟩ := List.pairwise_cons.1 hl
    rcases List.mem_cons.1 h with rfl | h
    · refine (State.cq_setCqs_separate l (fun y hy => hx y.1 (List.mem_map_of_mem hy)) _).trans ?_
      exact State.cq_setCq_self s q hg v
    · exact ih hrest h _

theorem ite_nil_sublist {α : Type} {c : Prop} [Decidable c] (l : List α) : List.Sublist (if c then l else []) l := by
  split
  · exact List.Sublist.refl l
  · exact List.nil_sublist l

theorem cfgWrites_sublist (q : Nat) (w : Word64) : List.Sublist ((cfgWrites q w).map Prod.fst) cfgFields := by
  have hall : List.Sublist (cfgWrites q w) ([(CTL_CQn_CFG_LEVEL, CTL_CQn_CFG_LEVEL.of w)] ++ ((CTL_CQn_CFG_HUB, CTL_CQn_CFG_HUB.of w) ::
      ([(CTL_CQn_CFG_SIZE_LOG2, CTL_CQn_CFG_SIZE_LOG2.of w)] ++ ([(CTL_CQn_CFG_MAX_ENGINES, CTL_CQn_CFG_MAX_ENGINES.of w)] ++
        ((CTL_CQn_CFG_MSIX_VECTOR, CTL_CQn_CFG_MSIX_VECTOR.of w) :: (CTL_CQn_CFG_PARTITION, CTL_CQn_CFG_PARTITION.of w) ::
          [(CTL_CQn_CFG_MAX_TIME_MS, CTL_CQn_CFG_MAX_TIME_MS.of w)]))))) := by
    refine List.Sublist.append ?_ (.cons_cons _ (.append (ite_nil_sublist _) (.append (ite_nil_sublist _) (.cons_cons _ (.cons_cons _ (ite_nil_sublist _))))))
    split
    · exact List.nil_sublist _
    · exact List.Sublist.refl _
  exact hall.map Prod.fst

theorem cfgWrites_separate (q : Nat) (w : Word64) : ((cfgWrites q w).map Prod.fst).Pairwise fun f g => g.separate f := by
  refine List.Pairwise.sublist (cfgWrites_sublist q w) ?_
  unfold Field.separate Field.fits Field.apart
  decide

theorem State.cq_writeCfg_level (s : State) (q : Nat) (w : Word64) :
    (q ≠ 0 → (s.writeCfg q w).cq q CTL_CQn_CFG_LEVEL = CTL_CQn_CFG_LEVEL.of w)
    ∧ (q = 0 → (s.writeCfg q w).cq q CTL_CQn_CFG_LEVEL = s.cq q CTL_CQn_CFG_LEVEL) := by
  rw [State.writeCfg_eq]
  refine ⟨fun hq => ?_, ?_⟩
  · refine (State.cq_setCqs_mem (cfgWrites_separate q w) (by unfold Field.fits; decide) ?_ s).trans (Nat.mod_mod _ _)
    exact List.mem_append_left _ (by rw [if_neg hq]; exact List.mem_singleton_self _)
  · rintro rfl
    refine State.cq_setCqs_separate _ (fun x hx => ?_) s
    have hfields : x.1 ∈ cfgFields.tail := by
      have hsub : List.Sublist ((cfgWrites 0 w).map Prod.fst) cfgFields.tail := by
        refine List.Sublist.map Prod.fst (l₂ := [(CTL_CQn_CFG_HUB, CTL_CQn_CFG_HUB.of w), (CTL_CQn_CFG_SIZE_LOG2, CTL_CQn_CFG_SIZE_LOG2.of w),
          (CTL_CQn_CFG_MAX_ENGINES, CTL_CQn_CFG_MAX_ENGINES.of w), (CTL_CQn_CFG_MSIX_VECTOR, CTL_CQn_CFG_MSIX_VECTOR.of w),
          (CTL_CQn_CFG_PARTITION, CTL_CQn_CFG_PARTITION.of w), (CTL_CQn_CFG_MAX_TIME_MS, CTL_CQn_CFG_MAX_TIME_MS.of w)]) ?_
        exact .cons_cons _ (.append (l₂ := [_]) (ite_nil_sublist _) (.append (l₂ := [_]) (ite_nil_sublist _) (.cons_cons _ (.cons_cons _ (ite_nil_sublist _)))))
      exact hsub.subset (List.mem_map_of_mem hx)
    have hall : ∀ f ∈ cfgFields.tail, f.separate CTL_CQn_CFG_LEVEL := by
      unfold Field.separate Field.fits Field.apart
      decide
    exact hall x.1 hfields

theorem State.cq_writeCfg_size (s : State) (q : Nat) {w : Word64} (h4 : 4 ≤ CTL_CQn_CFG_SIZE_LOG2.of w) (h15 : CTL_CQn_CFG_SIZE_LOG2.of w ≤ 15) :
    (s.writeCfg q w).cq q CTL_CQn_CFG_SIZE_LOG2 = CTL_CQn_CFG_SIZE_LOG2.of w := by
  rw [State.writeCfg_eq]
  refine (State.cq_setCqs_mem (cfgWrites_separate q w) (by unfold Field.fits; decide) ?_ s).trans (Nat.mod_mod _ _)
  refine List.mem_append_right _ (List.mem_cons_of_mem _ (List.mem_append_left _ ?_))
  rw [if_pos ⟨h4, h15⟩]
  exact List.mem_singleton_self _

/-- What the records of a journal leave: all of the queue but its tail and what is written. -/
def State.JournalKeeps (q : Nat) (s t : State) : Prop :=
  (∀ g, CTL_CQn_STATUS_CQ_TAIL.separate g → t.cq q g = s.cq q g) ∧ t.engines = s.engines ∧ t.agents = s.agents
    ∧ (∀ r, r ≠ q → t.queue r = s.queue r) ∧ (∃ n, t.queue q = { s.queue q with written := n })

theorem State.JournalKeeps.refl (q : Nat) (s : State) : s.JournalKeeps q s := ⟨fun _ _ => rfl, rfl, rfl, fun _ _ => rfl, _, rfl⟩

theorem State.JournalKeeps.trans {s t u : State} (h : s.JournalKeeps q t) (g : t.JournalKeeps q u) : s.JournalKeeps q u := by
  obtain ⟨h1, h2, h3, h4, n, h5⟩ := h
  obtain ⟨g1, g2, g3, g4, m, g5⟩ := g
  exact ⟨fun f hf => (g1 f hf).trans (h1 f hf), g2.trans h2, g3.trans h3, fun r hr => (g4 r hr).trans (h4 r hr), m, by rw [g5, h5]⟩

theorem State.journalKeeps_act (s : State) (o : Out) : s.JournalKeeps q (s.act o) :=
  ⟨fun _ _ => State.cq_act s o _, by simp, by simp, fun _ _ => State.queue_act s o, _, State.queue_act s o⟩

theorem State.journalKeeps_setTail (s : State) (v n : Nat) :
    s.JournalKeeps q ((s.setCq q CTL_CQn_STATUS_CQ_TAIL v).setQueue q { s.queue q with written := n }) :=
  ⟨fun _ hg => State.cq_setCq_separate s q hg v, rfl, rfl, fun _ hr => State.queue_setQueue_ne _ _ hr, n, State.queue_setQueue_self _ _ _⟩

theorem State.journalKeeps_writeRecord (s : State) (r : Record) (irq : Bool) : s.JournalKeeps q (s.writeRecord q r irq) := by
  unfold State.writeRecord
  split
  · exact ⟨fun _ _ => rfl, rfl, rfl, fun _ _ => rfl, _, rfl⟩
  · have hput (o : Out) (v n : Nat) : s.JournalKeeps q (((s.act o).setCq q CTL_CQn_STATUS_CQ_TAIL v).setQueue q { s.queue q with written := n }) := by
      rw [← State.queue_act s o]
      exact (State.journalKeeps_act s o).trans (State.journalKeeps_setTail (s.act o) v n)
    unfold State.putRecord
    dsimp only
    split
    · exact (hput _ _ _).trans (State.journalKeeps_act _ _)
    · exact hput _ _ _

theorem State.journalKeeps_forEach {α : Type} {f : State → α → State} (h : ∀ s x, State.JournalKeeps q s (f s x)) (l : List α) (s : State) :
    s.JournalKeeps q (s.forEach l f) := by
  induction l generalizing s with
  | nil => exact .refl q s
  | cons x l ih => exact (h s x).trans (ih (f s x))

/-! ## The clauses -/

/-- What a write of CFG and the reset of the heads leave of a queue that is enabled. -/
def State.enabledAt (s : State) (q : Nat) (w : Word64) : State :=
  (((((s.writeCfg q w).setQueue q { (s.writeCfg q w).queue q with tail := 0, cmds := [], inFlight := 0, written := 0, disabling := false }).setCq q
    CTL_CQn_STATUS_SQ_HEAD 0).setCq q CTL_CQn_STATUS_CQ_TAIL 0).setCq q CTL_CQn_STATUS_CQ_HEAD 0).setCq q CTL_CQn_CFG_ENABLE 1

theorem State.enableQueue_off (h : s.cq q CTL_CQn_CFG_ENABLE = 0) (w : Word64) :
    s.enableQueue q w = ((s.enabledAt q w).writeJournal q).showStalled q := if_neg (by simp [h])

theorem State.writeCfg_keeps (s : State) (q : Nat) (w : Word64) : (s.writeCfg q w).queues = s.queues ∧ (s.writeCfg q w).engines = s.engines
    ∧ (s.writeCfg q w).agents = s.agents := by
  rw [State.writeCfg_eq]
  exact State.setCqs_keeps _ s

theorem State.queue_writeCfg (s : State) (q : Nat) (w : Word64) (r : Nat) : (s.writeCfg q w).queue r = s.queue r := by
  obtain ⟨hq, -, -⟩ := s.writeCfg_keeps q w
  simp only [State.queue, hq]

theorem State.queue_enabledAt (s : State) (q : Nat) (w : Word64) : (s.enabledAt q w).queue q
    = { s.queue q with tail := 0, cmds := [], inFlight := 0, written := 0, disabling := false } := by
  refine (State.queue_setQueue_self (s.writeCfg q w) q _).trans ?_
  rw [s.queue_writeCfg q w q]

theorem State.queue_enabledAt_ne (s : State) (q : Nat) (w : Word64) {r : Nat} (h : r ≠ q) : (s.enabledAt q w).queue r = s.queue r :=
  (State.queue_setQueue_ne (s.writeCfg q w) _ h).trans (s.queue_writeCfg q w r)

theorem State.enabledAt_keeps (s : State) (q : Nat) (w : Word64) : (s.enabledAt q w).engines = s.engines ∧ (s.enabledAt q w).agents = s.agents :=
  (s.writeCfg_keeps q w).2

/-- A field apart from the heads and the enable bit is what the write of CFG leaves. -/
theorem State.cq_enabledAt (s : State) (q : Nat) (w : Word64) {g : Field} (h : ∀ f ∈ [CTL_CQn_STATUS_SQ_HEAD, CTL_CQn_STATUS_CQ_TAIL,
    CTL_CQn_STATUS_CQ_HEAD, CTL_CQn_CFG_ENABLE], f.separate g) : (s.enabledAt q w).cq q g = (s.writeCfg q w).cq q g := by
  simp only [List.forall_mem_cons] at h
  obtain ⟨h1, h2, h3, h4, -⟩ := h
  unfold State.enabledAt
  rw [State.cq_setCq_separate _ q h4, State.cq_setCq_separate _ q h3, State.cq_setCq_separate _ q h2, State.cq_setCq_separate _ q h1, State.cq_setQueue]

/-- The heads start at 0 and the queue is on. -/
theorem State.cq_enabledAt_heads (s : State) (q : Nat) (w : Word64) : (s.enabledAt q w).cq q CTL_CQn_CFG_ENABLE = 1
    ∧ (s.enabledAt q w).cq q CTL_CQn_STATUS_SQ_HEAD = 0 ∧ (s.enabledAt q w).cq q CTL_CQn_STATUS_CQ_HEAD = 0
    ∧ (s.enabledAt q w).cq q CTL_CQn_STATUS_CQ_TAIL = 0 := by
  have hsep : CTL_CQn_CFG_ENABLE.separate CTL_CQn_STATUS_SQ_HEAD ∧ CTL_CQn_CFG_ENABLE.separate CTL_CQn_STATUS_CQ_HEAD
      ∧ CTL_CQn_CFG_ENABLE.separate CTL_CQn_STATUS_CQ_TAIL ∧ CTL_CQn_STATUS_CQ_HEAD.separate CTL_CQn_STATUS_SQ_HEAD
      ∧ CTL_CQn_STATUS_CQ_HEAD.separate CTL_CQn_STATUS_CQ_TAIL ∧ CTL_CQn_STATUS_CQ_TAIL.separate CTL_CQn_STATUS_SQ_HEAD := by
    unfold Field.separate Field.fits Field.apart
    decide
  obtain ⟨h1, h2, h3, h4, h5, h6⟩ := hsep
  unfold State.enabledAt
  refine ⟨State.cq_setCq_self _ q (by unfold Field.fits; decide) 1, ?_, ?_, ?_⟩
  · rw [State.cq_setCq_separate _ q h1, State.cq_setCq_separate _ q h4, State.cq_setCq_separate _ q h6,
      State.cq_setCq_self _ q (by unfold Field.fits; decide)]
    rfl
  · rw [State.cq_setCq_separate _ q h2, State.cq_setCq_self _ q (by unfold Field.fits; decide)]
    rfl
  · rw [State.cq_setCq_separate _ q h3, State.cq_setCq_separate _ q h5, State.cq_setCq_self _ q (by unfold Field.fits; decide)]
    rfl

/-- The journal is written and forgotten; of the queue's registers only CQ_TAIL moves. -/
theorem State.writeJournal_keeps (s : State) (q : Nat) : (∀ g, CTL_CQn_STATUS_CQ_TAIL.separate g → (s.writeJournal q).cq q g = s.cq q g)
    ∧ (s.writeJournal q).engines = s.engines ∧ (s.writeJournal q).agents = s.agents ∧ (∀ r, r ≠ q → (s.writeJournal q).queue r = s.queue r)
    ∧ ∃ n, (s.writeJournal q).queue q = { s.queue q with journal := [], written := n } := by
  have hkeeps : (s.setQueue q { s.queue q with journal := [] }).JournalKeeps q (s.writeJournal q) :=
    State.journalKeeps_forEach (fun _ _ => State.journalKeeps_writeRecord _ _ _) _ _
  obtain ⟨hcq, heng, hag, hne, n, hself⟩ := hkeeps
  refine ⟨fun g hg => (hcq g hg).trans (s.cq_setQueue q _ g), heng.trans (by simp), hag.trans (by simp),
    fun r hr => (hne r hr).trans (State.queue_setQueue_ne _ _ hr), n, hself.trans ?_⟩
  rw [State.queue_setQueue_self]

theorem State.writeJournal_nil (h : (s.queue q).journal = []) : s.writeJournal q = s.setQueue q { s.queue q with journal := [] } := by
  unfold State.writeJournal
  rw [h]
  rfl

theorem State.showStalled_keeps (s : State) (q : Nat) : (s.showStalled q).queues = s.queues ∧ (s.showStalled q).engines = s.engines
    ∧ (s.showStalled q).agents = s.agents ∧ (s.showStalled q).out = s.out := ⟨rfl, rfl, rfl, rfl⟩

theorem State.queue_showStalled (s : State) (q r : Nat) : (s.showStalled q).queue r = s.queue r := rfl

theorem exec_queueEnable_tenant (q : Nat) (w : Word64) (s : State) : exec (.queueEnable .tenant q w) s = .next (s.satFld FLT_VIOL_TENANT 1) := rfl

theorem exec_queueDisable_tenant (q : Nat) (w : Word64) (s : State) : exec (.queueDisable .tenant q w) s = .next (s.satFld FLT_VIOL_TENANT 1) := rfl

theorem exec_queueEnable_eq {lvl : Level} {w : Word64} (hl : lvl ≠ .tenant) (hw : CTL_CQn_CFG_ENABLE.of w = 1) (s : State) :
    exec (.queueEnable lvl q w) s = .next (s.enableQueue q w) := (if_neg hl).trans (if_neg (by simp [hw]))

/-- What enabling a queue that is off leaves (R199, R216). -/
theorem State.enableQueue_leaves (h : s.cq q CTL_CQn_CFG_ENABLE = 0) (w : Word64) {t : State} (ht : s.enableQueue q w = t) :
        t.cq q CTL_CQn_CFG_ENABLE = 1 ∧ t.cq q CTL_CQn_STATUS_SQ_HEAD = 0 ∧ t.cq q CTL_CQn_STATUS_CQ_HEAD = 0
        ∧ ((s.queue q).journal = [] → t.cq q CTL_CQn_STATUS_CQ_TAIL = 0) ∧ (t.queue q).cmds = [] ∧ (t.queue q).tail = 0 ∧ (t.queue q).journal = []
        ∧ (q ≠ 0 → t.cq q CTL_CQn_CFG_LEVEL = CTL_CQn_CFG_LEVEL.of w) ∧ (q = 0 → t.cq q CTL_CQn_CFG_LEVEL = s.cq q CTL_CQn_CFG_LEVEL)
        ∧ (4 ≤ CTL_CQn_CFG_SIZE_LOG2.of w → CTL_CQn_CFG_SIZE_LOG2.of w ≤ 15 → t.cq q CTL_CQn_CFG_SIZE_LOG2 = CTL_CQn_CFG_SIZE_LOG2.of w)
        ∧ t.engines = s.engines ∧ t.agents = s.agents ∧ ∀ r, r ≠ q → t.queue r = s.queue r := by
  obtain ⟨hcq, heng, hag, hne, n, hself⟩ := (s.enabledAt q w).writeJournal_keeps q
  obtain ⟨hen, hsq, hch, hct⟩ := s.cq_enabledAt_heads q w
  obtain ⟨hkeng, hkag⟩ := s.enabledAt_keeps q w
  rw [State.enableQueue_off h] at ht
  -- a field that neither the journal nor the stall bit touches stands as enabling left it
  have hfld {g : Field} (h1 : CTL_CQn_STATUS_STALLED.separate g) (h2 : CTL_CQn_STATUS_CQ_TAIL.separate g) :
      t.cq q g = (s.enabledAt q w).cq q g := by
    rw [← ht, State.cq_showStalled _ q h1]
    exact hcq g h2
  have hcfg {g : Field} (h1 : CTL_CQn_STATUS_STALLED.separate g) (h2 : ∀ f ∈ [CTL_CQn_STATUS_SQ_HEAD, CTL_CQn_STATUS_CQ_TAIL,
      CTL_CQn_STATUS_CQ_HEAD, CTL_CQn_CFG_ENABLE], f.separate g) :
      t.cq q g = (s.writeCfg q w).cq q g :=
    (hfld h1 (h2 _ (by simp))).trans (s.cq_enabledAt q w h2)
  have hlevel := hcfg (g := CTL_CQn_CFG_LEVEL) (by unfold Field.separate Field.fits Field.apart; decide)
    (by unfold Field.separate Field.fits Field.apart; decide)
  have hsize := hcfg (g := CTL_CQn_CFG_SIZE_LOG2) (by unfold Field.separate Field.fits Field.apart; decide)
    (by unfold Field.separate Field.fits Field.apart; decide)
  have hqueue : t.queue q
      = { s.queue q with tail := 0, cmds := [], inFlight := 0, disabling := false, journal := [], written := n } := by
    rw [← ht, State.queue_showStalled, hself, s.queue_enabledAt q w]
  refine ⟨?_, ?_, ?_, fun hj => ?_, ?_, ?_, ?_, fun hq => ?_, fun hq => ?_, fun h4 h15 => ?_, ?_, ?_, fun r hr => ?_⟩
  · exact (hfld (by unfold Field.separate Field.fits Field.apart; decide) (by unfold Field.separate Field.fits Field.apart; decide)).trans hen
  · exact (hfld (by unfold Field.separate Field.fits Field.apart; decide) (by unfold Field.separate Field.fits Field.apart; decide)).trans hsq
  · exact (hfld (by unfold Field.separate Field.fits Field.apart; decide) (by unfold Field.separate Field.fits Field.apart; decide)).trans hch
  · rw [← ht, State.cq_showStalled _ q (by unfold Field.separate Field.fits Field.apart; decide),
      State.writeJournal_nil (by rw [s.queue_enabledAt q w]; exact hj), State.cq_setQueue]
    exact hct
  · rw [hqueue]
  · rw [hqueue]
  · rw [hqueue]
  · exact hlevel.trans ((s.cq_writeCfg_level q w).1 hq)
  · exact hlevel.trans ((s.cq_writeCfg_level q w).2 hq)
  · exact hsize.trans (s.cq_writeCfg_size q h4 h15)
  · rw [← ht, (State.showStalled_keeps _ q).2.1]
    exact heng.trans hkeng
  · rw [← ht, (State.showStalled_keeps _ q).2.2.1]
    exact hag.trans hkag
  · rw [← ht, State.queue_showStalled]
    exact (hne r hr).trans (s.queue_enabledAt_ne q w hr)

theorem State.disableQueue_on (h : s.cq q CTL_CQn_CFG_ENABLE = 1) (hc : (s.queue q).cmds = []) (w : Word64) :
    s.disableQueue q w = ((s.setQueue q { s.queue q with disabling := true }).endDisable q).showStalled q := by
  refine (if_neg (by simp [h])).trans ?_
  dsimp only
  rw [State.queue_setQueue_self]
  rw [hc]
  rfl

/-- Disabling a queue without commands: at once, or when what was asked for has come (R216). -/
theorem exec_queueDisable_idle {lvl : Level} {w : Word64} (hl : lvl ≠ .tenant) (hw : CTL_CQn_CFG_ENABLE.of w = 0)
    (h : s.cq q CTL_CQn_CFG_ENABLE = 1) (hc : (s.queue q).cmds = []) : ∃ t, exec (.queueDisable lvl q w) s = .next t
          ∧ t.engines = s.engines ∧ t.out = s.out
          ∧ ((s.queue q).inFlight = 0 → s.heldRecords q = 0 → t.cq q CTL_CQn_CFG_ENABLE = 0 ∧ (t.queue q).disabling = false)
          ∧ ((s.queue q).inFlight ≠ 0 → t.cq q CTL_CQn_CFG_ENABLE = 1 ∧ (t.queue q).disabling = true) := by
  have hexec : exec (.queueDisable lvl q w) s = .next (((s.setQueue q { s.queue q with disabling := true }).endDisable q).showStalled q) := by
    refine ((if_neg hl).trans (if_neg (by simp [hw]))).trans ?_
    rw [State.disableQueue_on h hc]
  have hstall : CTL_CQn_STATUS_STALLED.separate CTL_CQn_CFG_ENABLE := by
    unfold Field.separate Field.fits Field.apart
    decide
  have hkeeps (u : State) : (u.endDisable q).out = u.out := by
    unfold State.endDisable
    dsimp only
    split <;> rfl
  refine ⟨_, hexec, (State.endDisable_engines _ q).trans rfl, (hkeeps _).trans rfl, fun hi hh => ?_, fun hi => ?_⟩
  · have hend : (s.setQueue q { s.queue q with disabling := true }).endDisable q
        = ((s.setQueue q { s.queue q with disabling := true }).setQueue q { s.queue q with disabling := false }).setCq q CTL_CQn_CFG_ENABLE 0 := by
      unfold State.endDisable
      dsimp only
      rw [State.queue_setQueue_self, if_pos ⟨rfl, by rw [hc]; rfl, hi, hh⟩]
    rw [hend]
    refine ⟨(State.cq_showStalled _ q hstall).trans (State.cq_setCq_self _ q (by unfold Field.fits; decide) 0), ?_⟩
    refine (congrArg QueueSt.disabling (State.queue_setQueue_self (s.setQueue q { s.queue q with disabling := true }) q _)).trans rfl
  · have hend : (s.setQueue q { s.queue q with disabling := true }).endDisable q = s.setQueue q { s.queue q with disabling := true } := by
      unfold State.endDisable
      dsimp only
      rw [State.queue_setQueue_self, if_neg fun hall => hi hall.2.2.1]
    rw [hend]
    exact ⟨(State.cq_showStalled _ q hstall).trans h, congrArg QueueSt.disabling (State.queue_setQueue_self s q _)⟩

theorem cutEntries_one {data : List Byte} (h : data.length = 64) : cutEntries 1 data = [{ bytes := data }] := by
  rw [cutEntries, slice_zero_of_length h]
  rfl

theorem State.forEach_singleton {α : Type} (s : State) (x : α) (f : State → α → State) : s.forEach [x] f = f s x := rfl

/-- An entry that was read, or one whose read failed, at a queue that is not being disabled (R201). -/
theorem State.takeRingBytes_one {x : QueueSt} (hx : s.queue q = x) (hi : 0 < x.inFlight) (hd : x.disabling = false) {u : State}
    (hu : u = s.setQueue q { x with inFlight := x.inFlight - 1 }) (data : List Byte) :
    (data.length = 64 → s.takeRingBytes q true data = (u.takeEntry q { bytes := data }).endDisable q)
    ∧ s.takeRingBytes q false data = (u.writeRecord q (({ bytes := zeros 64, readFailed := true } : Cmd).record 2 4) false).endDisable q := by
  have hone : min x.inFlight 1 = 1 := by omega
  refine ⟨fun hl => ?_, ?_⟩
  · unfold State.takeRingBytes
    simp only [hx, hl, hd, if_true, Bool.false_eq_true, if_false]
    rw [show min x.inFlight (64 / 64) = 1 from hone, cutEntries_one hl, State.forEach_singleton, if_neg (by exact Bool.false_ne_true), hu, hd]
  · unfold State.takeRingBytes
    simp only [hx, hd, Bool.false_eq_true, if_false]
    rw [hone, List.replicate_one, State.forEach_singleton, if_pos (by exact rfl), hu, hd]

theorem exec_wallTimeLimit_running {e : Nat} {r : RunInfo} (h : (s.engine e).run = some r) : exec (.wallTimeLimit e) s
    = if (s.engine e).running ∧ r.deadlineNs ≤ s.now then .next (s.endProgram e 3 2 0 0) else .next s := by
  change execWallTimeLimit e s = _
  unfold execWallTimeLimit
  rw [h]

end Sys2Proof.Machine

namespace Sys2Proof
open Machine

/-- Settles O43: doorbells, turns of reading, enabling and disabling, what was read, and the time limit, each by the rule of its part above. -/
theorem queueResults : Obligations.QueueResults := by
  rintro s q x v w lvl ok data size head n e rfl rfl rfl hn
  refine ⟨fun hr i hi => ?_, fun hr he hv => ?_, fun hr hbad i hi => ?_, fun hoff => ?_, fun he hd hg hh hq => ?_, fun i hi => ?_, fun hl hw he => ?_,
    fun hl hw he => ⟨_, exec_queueEnable_eq hl hw s, s.enableQueue_leaves he w rfl⟩, fun hl hw => ⟨?_, fun he => ?_, fun he hc => exec_queueDisable_idle hl hw he hc⟩, fun hl hw => ?_,
    fun k l hk hl => ?_, fun hi u hu => ⟨fun hd hl => ?_, fun hd => ?_⟩, fun hr => ?_, fun r hr hrun hdl => ?_, fun r hr hdl => ?_⟩
  · rcases List.mem_pair.1 hi with rfl | rfl
    · exact if_pos hr
    · exact if_pos hr
  · have hok : s.doorbellOk q v = true := by simp [State.doorbellOk, he, hv]
    obtain ⟨h1, h2⟩ := exec_doorbell_ready (q := q) hr v
    rw [if_pos hok] at h1 h2
    exact ⟨h1, h2⟩
  · have hok : ¬s.doorbellOk q v = true := by
      rcases hbad with hbad | hbad <;> simp [State.doorbellOk, hbad]
    obtain ⟨h1, h2⟩ := exec_doorbell_ready (q := q) hr v
    rw [if_neg hok] at h1 h2
    rcases List.mem_pair.1 hi with rfl | rfl
    · exact h1
    · exact h2
  · rw [exec_queueFetch_eq, if_pos]
    unfold State.fetchable
    refine if_pos ?_
    rcases hoff with h | h | h | h <;> simp [h]
  · have hfetch := (State.fetchable_open he hd hg hh).trans hn.symm
    refine ⟨fun h0 => ?_, fun h0 hs hex => ?_, fun h0 hex => ?_, fun u h0 hu => ?_⟩
    · rw [exec_queueFetch_eq, if_pos (hfetch.trans h0)]
    · exact exec_queueFetch_later (by omega) (State.fetchTurn_served hs hex)
    · exact exec_queueFetch_later (by omega) (State.fetchTurn_lower hq hex)
    · have hturn : s.fetchTurn q = true ∧ s.fetchServed q = u := by
        rcases hu with ⟨hs, hlow, rfl⟩ | ⟨hall, hlow, rfl⟩
        · exact State.fetchTurn_next hq (by omega) hs hlow
        · exact State.fetchTurn_first hq (by omega) hall hlow
      have hkeep : u.queue q = s.queue q ∧ (∀ f, u.cq q f = s.cq q f) ∧ u.ringSize q = s.ringSize q := by
        rcases hu with ⟨-, -, rfl⟩ | ⟨-, -, rfl⟩ <;> exact ⟨rfl, fun _ => rfl, rfl⟩
      obtain ⟨hqueue, hcq, hsize⟩ := hkeep
      rw [exec_queueFetch_turn (by omega) hturn.1, hturn.2, hfetch, State.fetchTaken, hqueue, hsize, hcq, hcq, hcq]
  · rcases List.mem_pair.1 hi with rfl | rfl
    · exact exec_queueEnable_tenant q w s
    · exact exec_queueDisable_tenant q w s
  · rw [exec_queueEnable_eq hl hw, State.enableQueue, if_pos he]
  · exact (if_neg hl).trans (if_pos hw)
  · refine ((if_neg hl).trans (if_neg (by simp [hw]))).trans ?_
    rw [State.disableQueue, if_pos he]
  · exact (if_neg hl).trans (if_pos hw)
  · subst hl
    cases k with
    | ring => exact absurd rfl hk
    | _ => rfl
  · exact congrArg Host.Outcome.next ((State.takeRingBytes_one rfl hi hd hu data).1 hl)
  · exact congrArg Host.Outcome.next (State.takeRingBytes_one rfl hi hd hu data).2
  · change execWallTimeLimit e s = _
    unfold execWallTimeLimit
    rw [hr]
  · exact (exec_wallTimeLimit_running hr).trans (if_pos ⟨hrun, hdl⟩)
  · exact (exec_wallTimeLimit_running hr).trans (if_neg fun h => absurd h.2 (Nat.not_le.2 hdl))

end Sys2Proof
end

section
/-! What the mail of the controller can change: messages with hooks, broadcasts and the records to the standby. -/

namespace Sys2Proof.Machine

/-- `t` differs from `s` in agents, ports, streams, hooks, what leaves and the standby's records alone; of the registers only in
TRI_STANDBY_STATUS. -/
structure State.MailOnly (s t : State) : Prop where
  only : t = { s with agents := t.agents, ports := t.ports, streams := t.streams, out := t.out, hooks := t.hooks, tri := t.tri, regs := t.regs }
  reg : ∀ off, off ≠ TRI_STANDBY_STATUS → t.reg off = s.reg off

variable {s t u : State}

theorem State.MailOnly.refl (s : State) : s.MailOnly s := ⟨rfl, fun _ _ => rfl⟩

theorem State.MailOnly.trans (h : s.MailOnly t) (g : t.MailOnly u) : s.MailOnly u := by
  refine ⟨?_, fun off ho => (g.reg off ho).trans (h.reg off ho)⟩
  have hg := g.only
  rw [h.only] at hg
  exact hg

theorem State.LinkOnly.mailOnly (h : s.LinkOnly t) : s.MailOnly t := by
  refine ⟨?_, fun off _ => LinkOnly_reg h off⟩
  unfold State.LinkOnly at h
  rw [h]

theorem State.MailOnly.ite {c : Prop} [Decidable c] (h : s.MailOnly t) (g : s.MailOnly u) : s.MailOnly (if c then t else u) := by
  split
  · exact h
  · exact g

theorem State.MailOnly.forEach {α : Type} {f : State → α → State} (h : ∀ (s : State) x, s.MailOnly (f s x)) (l : List α) (s : State) :
    s.MailOnly (s.forEach l f) := by
  induction l generalizing s with
  | nil => exact .refl s
  | cons x l ih => exact (h s x).trans (ih (f s x))

section
variable (h : s.MailOnly t)
include h

theorem State.MailOnly.fld {f : Field} (hf : f.off ≠ TRI_STANDBY_STATUS) : t.fld f = s.fld f := by
  rw [State.fld, State.fld, h.reg f.off hf]

theorem State.MailOnly.now : t.now = s.now := congrArg BitVec.toNat (h.reg TIM_NOW (by decide))
theorem State.MailOnly.plc : t.plc = s.plc := by rw [h.only]
theorem State.MailOnly.sec : t.sec = s.sec := by rw [h.only]
theorem State.MailOnly.rte : t.rte = s.rte := by rw [h.only]
theorem State.MailOnly.sch : t.sch = s.sch := by rw [h.only]
theorem State.MailOnly.grp : t.grp = s.grp := by rw [h.only]
theorem State.MailOnly.dom : t.dom = s.dom := by rw [h.only]
theorem State.MailOnly.led : t.led = s.led := by rw [h.only]
theorem State.MailOnly.col : t.col = s.col := by rw [h.only]
theorem State.MailOnly.pwr : t.pwr = s.pwr := by rw [h.only]
theorem State.MailOnly.time : t.time = s.time := by rw [h.only]
theorem State.MailOnly.hbm : t.hbm = s.hbm := by rw [h.only]
theorem State.MailOnly.spill : t.spill = s.spill := by rw [h.only]
theorem State.MailOnly.engines : t.engines = s.engines := by rw [h.only]
theorem State.MailOnly.queues : t.queues = s.queues := by rw [h.only]
theorem State.MailOnly.programs : t.programs = s.programs := by rw [h.only]
theorem State.MailOnly.pending : t.pending = s.pending := by rw [h.only]

end

theorem mailOnly_hook (s : State) (k : AckHook) : s.MailOnly { s with hooks := s.hooks ++ [k] } := ⟨rfl, fun _ _ => rfl⟩

theorem mailOnly_sendMgmt (s : State) (n : Node) (d : Fid) (typ : BitVec 8) (l : List Byte) (x : BitVec 24) (k : Bool) :
    s.MailOnly (s.sendMgmt n d typ l x k) := (linkOnly_sendMgmt s n d typ l x k).mailOnly

theorem mailOnly_sendHooked (s : State) (d : Fid) (typ : BitVec 8) (l : List Byte) (k : AckKind) (addr : BitVec 57) (aux : BitVec 24) :
    s.MailOnly (s.sendHooked d typ l k addr aux) := by
  unfold State.sendHooked
  extract_lets seq hook t
  exact (mailOnly_hook s hook).trans (linkOnly_sendPkt t _ _).mailOnly

theorem mailOnly_broadcast (s : State) (typ : BitVec 8) (l : List Byte) (kind : Option AckKind) (addr : BitVec 57) (aux : BitVec 24) :
    s.MailOnly (s.broadcast typ l kind addr aux) := by
  refine State.MailOnly.forEach (fun s x => ?_) _ s
  cases kind with
  | none => exact (linkOnly_sendPkt s _ _ _).mailOnly
  | some k => exact (mailOnly_hook s _).trans (linkOnly_sendPkt _ _ _ _).mailOnly

theorem mailOnly_mirrorOut (s : State) (item : Nat) : s.MailOnly (s.mirrorOut item) := by
  unfold State.mirrorOut
  split
  · exact .refl s
  · extract_lets seq dest tri w
    have htri : s.MailOnly w := ⟨rfl, fun _ _ => rfl⟩
    have hlag (u : State) (v : Nat) : u.MailOnly (u.setFld TRI_STANDBY_STATUS_MIRROR_LAG v) := ⟨rfl, fun off ho => u.reg_setFld_off ho v⟩
    exact (htri.trans (hlag w _)).trans (mailOnly_sendMgmt _ _ _ _ _ _ _)

end Sys2Proof.Machine
end

section
/-! Expert dispatch: tokens at a switch, the counts of a window, and the end of a window at the broker. -/

namespace Sys2Proof.Machine

variable {s : State} {a : AgentRef}

/-! ## Tokens at a switch (R298, R303, R305) -/

theorem exec_dispatch_crc {p : Packet} (h : p.crcOk = false) (port : Nat) : exec (.dispatch a port p) s = .next (s.nakPkt (.agent a) p.hdr 0x01) :=
  if_pos h

theorem exec_dispatch_pending {p : Packet} (h : p.crcOk = true) (port : Nat) {r : DispRecord}
    (hr : (s.agent a).disp.pending.find? (fun r => r.hasKey p.hdr.src p.hdr.stream p.hdr.seq) = some r) :
    exec (.dispatch a port p) s = .next (s.resendToken a r p) := by
  refine (if_neg (by simp [h])).trans ?_
  rw [hr]

theorem exec_dispatch_done {p : Packet} (h : p.crcOk = true) (port : Nat)
    (hr : (s.agent a).disp.pending.find? (fun r => r.hasKey p.hdr.src p.hdr.stream p.hdr.seq) = none)
    (hd : (p.hdr.src, p.hdr.stream, p.hdr.seq) ∈ (s.agent a).disp.done) :
    exec (.dispatch a port p) s = .next (s.ackPkt (.agent a) p.hdr) := by
  refine (if_neg (by simp [h])).trans ?_
  rw [hr]
  exact if_pos (by simpa using hd)

/-- A token that the switch has not seen: its layer and the child it came from decide. -/
theorem exec_dispatch_new {p : Packet} (h : p.crcOk = true) (port : Nat)
    (hr : (s.agent a).disp.pending.find? (fun r => r.hasKey p.hdr.src p.hdr.stream p.hdr.seq) = none)
    (hd : (p.hdr.src, p.hdr.stream, p.hdr.seq) ∉ (s.agent a).disp.done) : exec (.dispatch a port p) s
      = match (s.agent a).active.layerOf p.hdr.partition (flitLayer p.payload) with
        | some (i, e) =>
          if ((s.agent a).active.children.any fun c => c.1 == port && c.2 == p.hdr.src) = true ∧ a.variant = .s then .next (s.placeToken a p i e)
          else .next (s.nakPkt (.agent a) p.hdr 0x06)
        | none => .next (s.nakPkt (.agent a) p.hdr 0x06) := by
  refine (if_neg (by simp [h])).trans ?_
  rw [hr]
  exact if_neg (by simpa using hd)

theorem State.placeToken_store {p : Packet} (h : 65536 ≤ (s.agent a).disp.pending.length) (i : Nat) (e : BitVec 512) :
    s.placeToken a p i e = s.nakPkt (.agent a) p.hdr 0x05 := if_pos h

theorem State.placeToken_bad {p : Packet} (h : (s.agent a).disp.pending.length < 65536) {e : BitVec 512}
    (hb : flitBad (slice p.payload 0 64) p.hdr e = true) (i : Nat) : s.placeToken a p i e
      = (s.raiseAgent a 194 1).openToken a p (List.replicate (min 8 (flitK (slice p.payload 0 64))) 0xD) [] :=
  (if_neg (by omega)).trans (if_pos hb)

/-- A later part of a token goes where the record of its part 0 says. -/
theorem State.placeToken_part {p : Packet} (h : (s.agent a).disp.pending.length < 65536) {e : BitVec 512}
    (hb : flitBad (slice p.payload 0 64) p.hdr e = false) (hp : flitPart (slice p.payload 0 64) ≠ 0) (i : Nat) : s.placeToken a p i e
      = match (s.agent a).disp.parts.find? fun x => x.src == p.hdr.src && x.stream == p.hdr.stream && x.tag == flitTag (slice p.payload 0 64) with
        | none => s.nakPkt (.agent a) p.hdr 0x05
        | some x => s.openToken a p x.outcomes ((x.copies.filter fun c => !c.failed).map fun c => { c with acked := false }) :=
  (if_neg (by omega)).trans ((if_neg (by simp [hb])).trans (if_pos hp))

/-! ## Records and windows of a switch (R303, R306, R308) -/

theorem exec_pendingRecordTimeout_eq (src : Fid) (stream : BitVec 16) (seq : BitVec 32) : exec (.pendingRecordTimeout a src stream seq) s
    = match (s.agent a).disp.pending.find? fun r => r.hasKey src stream seq with
      | some r =>
        if r.createdNs + 1000000 ≤ s.agentNow a then
          .next ((s.updDisp a fun d => { d with pending := d.pending.filter fun x => !x.hasKey src stream seq }).raiseAgent a 195 1)
        else .next s
      | none => .next s := rfl

theorem link_sendReport (s : State) (a : AgentRef) (typ : BitVec 8) (l : List Byte) (form : Nat) : s.Link (.agent a) (s.sendReport a typ l form) := by
  unfold State.sendReport
  refine .ite (link_sendMgmt _ _ _ _ _ _ _) ?_
  exact link_updAgent _ a _ rfl rfl

/-- The parts of the report that leaves at the end of a window. -/
def State.windowParts (s : State) (a : AgentRef) : List (List Byte) :=
  packBlocks [] ((((s.agent a).active.places.filter fun x => decide (x.1 < 1024) && layerValid x.2).filter fun x =>
    (List.range (layerExperts x.2)).any fun j => ((s.agent a).disp.counts.get (layerBase x.2 + j)).isSome).flatMap fun x =>
      layerBlocks x.1 x.2 ((s.agent a).disp.layers.getD x.1 {}) (s.agent a).disp.counts)

theorem State.windowParts_nil (h : (s.agent a).disp.counts = []) : s.windowParts a = [] := by
  have hany (x : Nat × BitVec 512) : ((List.range (layerExperts x.2)).any fun j => ((s.agent a).disp.counts.get (layerBase x.2 + j)).isSome) = false := by
    rw [List.any_eq_false, h]
    intro j _
    exact Bool.false_ne_true
  unfold State.windowParts
  rw [List.filter_congr fun x _ => hany x, List.filter_false]
  rfl

/-- The reports of a window leave. -/
def State.sendWindow (s : State) (a : AgentRef) : State :=
  s.forEach ((List.range (s.windowParts a).length).zip (s.windowParts a)) fun u x =>
    u.sendReport a 0x36 (leBytes 4 u.plc.window ++ leBytes 2 x.1 ++ leBytes 2 (s.windowParts a).length ++ zeros 8 ++ x.2) 1

/-- The counts of a switch start again. -/
def State.clearCounts (s : State) (a : AgentRef) : State := s.updDisp a fun d =>
  { d with counts := [], layers := d.layers.mapVals fun _ y => { y with stepsSeen := [] } }

theorem State.clearCounts_leaves (s : State) (a : AgentRef) : ((s.clearCounts a).agent a).disp.counts = []
    ∧ ((s.clearCounts a).agent a).disp.pending = (s.agent a).disp.pending ∧ ((s.clearCounts a).agent a).active = (s.agent a).active
    ∧ (s.clearCounts a).regs = s.regs ∧ (s.clearCounts a).out = s.out := by
  have hself : (s.clearCounts a).agent a = { s.agent a with disp := { (s.agent a).disp with
      counts := [], layers := (s.agent a).disp.layers.mapVals fun _ y => { y with stepsSeen := [] } } } := State.agent_updAgent_self s a _
  rw [hself]
  exact ⟨rfl, rfl, rfl, rfl, rfl⟩

theorem exec_switchWindowEnd_s (h : a.variant = .s) : exec (.switchWindowEnd a) s = .next ((s.sendWindow a).clearCounts a) :=
  (if_neg (by simp [h])).trans rfl

theorem State.link_sendWindow (s : State) (a : AgentRef) : s.Link (.agent a) (s.sendWindow a) :=
  State.Link.forEach (fun u _ => link_sendReport u a _ _ _) _ s

theorem State.sendWindow_idle (h : (s.agent a).disp.counts = []) : s.sendWindow a = s := by
  rw [State.sendWindow, State.windowParts_nil h]
  rfl

/-! ## The end of a window at the broker (R309) -/

/-- The window's number and the time stand. -/
def State.KeepsWindow (s t : State) : Prop := t.plc.window = s.plc.window ∧ t.now = s.now

theorem State.KeepsWindow.trans {s t u : State} (h : s.KeepsWindow t) (g : t.KeepsWindow u) : s.KeepsWindow u :=
  ⟨g.1.trans h.1, g.2.trans h.2⟩

theorem State.KeepsWindow.forEach {α : Type} {f : State → α → State} (h : ∀ (s : State) x, s.KeepsWindow (f s x)) (l : List α) (s : State) :
    s.KeepsWindow (s.forEach l f) := by
  induction l generalizing s with
  | nil => exact ⟨rfl, rfl⟩
  | cons x l ih => exact (h s x).trans (ih (f s x))

theorem State.MailOnly.keepsWindow {s t : State} (h : s.MailOnly t) : s.KeepsWindow t := ⟨congrArg BrokerSt.window h.plc, h.now⟩

theorem keepsWindow_setFld (s : State) {f : Field} (hf : TIM_NOW ≠ f.off) (v : Nat) : s.KeepsWindow (s.setFld f v) :=
  ⟨rfl, congrArg BitVec.toNat (s.reg_setFld_off hf v)⟩

theorem keepsWindow_writeEndpoint (s : State) (e n : Nat) (l : List Byte) : s.KeepsWindow (s.writeEndpoint e n l) := by
  unfold State.writeEndpoint
  split <;> exact ⟨rfl, rfl⟩

theorem keepsWindow_clearSlots (s : State) : s.KeepsWindow s.clearSlots := by
  unfold State.clearSlots
  split
  · exact ⟨rfl, rfl⟩
  · extract_lets due t l
    have hdue : s.KeepsWindow t := .forEach (fun s c => keepsWindow_writeEndpoint s _ _ _) due s
    exact hdue.trans ⟨rfl, rfl⟩

theorem keepsWindow_removeReplica (s : State) (x : Expert) (r : Replica) : s.KeepsWindow (s.removeReplica x r) := by
  unfold State.removeReplica
  extract_lets addr t p u
  have hset : s.KeepsWindow u := ⟨rfl, rfl⟩
  exact hset.trans (keepsWindow_setFld u (by decide) _)

theorem keepsWindow_removeCold (s : State) (x : Expert) : s.KeepsWindow (s.removeCold x) := by
  unfold State.removeCold
  dsimp only
  split
  · exact keepsWindow_removeReplica _ _ _
  · exact ⟨rfl, rfl⟩

theorem keepsWindow_copyWeights (s : State) (x : Expert) (src : Replica) (d : DevFootprint) (slot : Nat) : s.KeepsWindow (s.copyWeights x src d slot) := by
  unfold State.copyWeights
  extract_lets t desc
  have hcopy : s.KeepsWindow t := by
    unfold t
    split <;> exact ⟨rfl, rfl⟩
  exact hcopy.trans (State.KeepsWindow.trans ⟨rfl, rfl⟩ (keepsWindow_writeEndpoint t.useFree _ _ _))

theorem keepsWindow_addTo (s : State) (x : Expert) : s.KeepsWindow (s.addTo x).1 := by
  unfold State.addTo
  split
  · exact keepsWindow_setFld s (by decide) _
  · split
    · exact keepsWindow_setFld s (by decide) _
    · split
      · exact keepsWindow_setFld s (by decide) _
      · extract_lets t r
        have hcopy : s.KeepsWindow t := keepsWindow_copyWeights s _ _ _ _
        exact (hcopy.trans ⟨rfl, rfl⟩).trans (keepsWindow_setFld (t.setExpert { x with replicas := x.replicas ++ [r] }) (by decide) _)

theorem keepsWindow_addAll (l : List Expert) (n : Nat) (s : State) : s.KeepsWindow (s.addAll l n) := by
  induction l generalizing n s with
  | nil => exact ⟨rfl, rfl⟩
  | cons x l ih =>
    cases n with
    | zero => exact ⟨rfl, rfl⟩
    | succ n => exact (keepsWindow_addTo s x).trans (ih _ _)

theorem keepsWindow_noteFull (s : State) (sets : List (Fid × List Byte)) : s.KeepsWindow (s.noteFull sets) := by
  unfold State.noteFull
  split <;> exact ⟨rfl, rfl⟩

theorem mailOnly_sendInstalls (v : BitVec 32) (f : Fid) (l : List (List Byte)) (s : State) : s.MailOnly (s.sendInstalls v f l).1 := by
  induction l generalizing s with
  | nil => exact .refl s
  | cons x l ih => exact (mailOnly_sendHooked s _ _ _ _ _ _).trans (ih _)

theorem mailOnly_sendSets (v : BitVec 32) (l : List (Fid × List Byte)) (s : State) : s.MailOnly (s.sendSets v l).1 := by
  induction l generalizing s with
  | nil => exact .refl s
  | cons x l ih => exact (mailOnly_sendInstalls v x.1 _ s).trans (ih _)

theorem keepsWindow_commitInstall (s : State) (i : InstallSt) : s.KeepsWindow (s.commitInstall i) := by
  unfold State.commitInstall
  extract_lets first e held u j
  split
  · exact ⟨rfl, rfl⟩
  · have hmirror : s.KeepsWindow u := (mailOnly_mirrorOut s 1).keepsWindow
    refine hmirror.trans (State.KeepsWindow.trans (t := { u with rte := { u.rte with install := some j } }) ⟨rfl, rfl⟩ ?_)
    exact (keepsWindow_setFld _ (by decide) _).trans (mailOnly_broadcast _ _ _ _ _ _).keepsWindow

/-- An install of the broker starts, waits or is refused: the window's number and the time stand. -/
theorem keepsWindow_submitInstall (s : State) (sets : List (Fid × List Byte)) : s.KeepsWindow (s.submitInstall sets .broker) := by
  unfold State.submitInstall
  split
  · unfold State.startInstall
    extract_lets full m v known shadow t r i
    split
    · exact ⟨rfl, rfl⟩
    · have hfull : s.KeepsWindow t := (keepsWindow_noteFull s full).trans ⟨rfl, rfl⟩
      have hsets : t.KeepsWindow r.1 := (mailOnly_sendSets v full t).keepsWindow
      split
      · exact (hfull.trans hsets).trans (keepsWindow_commitInstall r.1 i)
      · exact (hfull.trans hsets).trans ⟨rfl, rfl⟩
  · exact ⟨rfl, rfl⟩

theorem keepsWindow_brokerInstall (s : State) (l : List Expert) : s.KeepsWindow (s.brokerInstall l) := by
  unfold State.brokerInstall
  dsimp only
  split
  · exact ⟨rfl, rfl⟩
  · exact keepsWindow_submitInstall s _

/-- The counts of a window start again. -/
def Expert.nextWindow (x : Expert) : Expert := { x with lastWindow := x.window, window := 0, full := 0, steps := 0, bySwitch := [] }

theorem State.closeWindow_plc (s : State) : s.closeWindow.plc = { s.plc with
    experts := s.plc.experts.map Expert.nextWindow, reported := [], window := s.plc.window + 1, windowNs := s.now, movedInWindow := 0 } :=
  (mailOnly_mirrorOut _ 9).plc

theorem State.closeWindow_rte (s : State) : s.closeWindow.rte = s.rte := (mailOnly_mirrorOut _ 9).rte

/-- The state in which a window closes, with the steps of each layer made even. -/
def State.levelled (s : State) : State := { s with plc := { s.plc with experts := levelSteps s.plc.experts } }

/-- What the broker does of its own before a window closes (R309). -/
def State.brokerActs (s : State) : State :=
  let t := s.clearSlots
  let t := t.forEach t.plc.experts State.removeCold
  let t := t.addAll ((t.plc.experts.filter fun x => x.hot (t.fld PLC_BROKER_CFG_HOT_PCT)).mergeSort Expert.hotter) (t.fld PLC_BROKER_CFG_MAX_ADDS)
  t.brokerInstall t.plc.experts

theorem exec_brokerWindowEnd_eq (s : State) : exec .brokerWindowEnd s =
    if s.now < s.plc.windowNs + s.fld PLC_BROKER_CFG_WINDOW_MS * 1000000 then .next s
    else if s.fld PLC_BROKER_CFG_ENABLE = 0 then .next s.levelled.closeWindow
    else if s.rte.play.isSome then .next s else .next s.levelled.brokerActs.closeWindow := rfl

theorem keepsWindow_brokerActs (s : State) : s.KeepsWindow s.brokerActs := by
  unfold State.brokerActs
  extract_lets t1 t2 t3
  have h1 : s.KeepsWindow t1 := keepsWindow_clearSlots s
  have h2 : t1.KeepsWindow t2 := .forEach keepsWindow_removeCold _ t1
  have h3 : t2.KeepsWindow t3 := keepsWindow_addAll _ _ t2
  exact ((h1.trans h2).trans h3).trans (keepsWindow_brokerInstall t3 _)

/-- What a closed window leaves of the placement's record, after steps that keep its number and the time. -/
theorem State.closeWindow_after {t : State} (h : s.KeepsWindow t) : t.closeWindow.plc.window = s.plc.window + 1 ∧ t.closeWindow.plc.windowNs = s.now
    ∧ t.closeWindow.plc.reported = [] ∧ t.closeWindow.plc.movedInWindow = 0
    ∧ ∀ x ∈ t.closeWindow.plc.experts, x.window = 0 ∧ x.bySwitch = [] := by
  rw [State.closeWindow_plc]
  refine ⟨congrArg (· + 1) h.1, h.2, rfl, rfl, fun x hx => ?_⟩
  obtain ⟨y, -, rfl⟩ := List.mem_map.1 hx
  exact ⟨rfl, rfl⟩

/-- A window that is over closes, whether the broker acts or not. -/
theorem exec_brokerWindowEnd_closes (hw : ¬s.now < s.plc.windowNs + s.fld PLC_BROKER_CFG_WINDOW_MS * 1000000)
    (hb : s.fld PLC_BROKER_CFG_ENABLE = 0 ∨ s.rte.play = none) : ∃ t, exec .brokerWindowEnd s = .next t ∧ t.plc.window = s.plc.window + 1
        ∧ t.plc.windowNs = s.now ∧ t.plc.reported = [] ∧ t.plc.movedInWindow = 0 ∧ (∀ x ∈ t.plc.experts, x.window = 0 ∧ x.bySwitch = [])
        ∧ (s.fld PLC_BROKER_CFG_ENABLE = 0 → t.plc.experts = (levelSteps s.plc.experts).map Expert.nextWindow ∧ t.rte = s.rte) := by
  have hlevel : s.KeepsWindow s.levelled := ⟨rfl, rfl⟩
  rw [exec_brokerWindowEnd_eq, if_neg hw]
  by_cases hen : s.fld PLC_BROKER_CFG_ENABLE = 0
  · obtain ⟨h1, h2, h3, h4, h5⟩ := State.closeWindow_after hlevel
    rw [if_pos hen]
    refine ⟨s.levelled.closeWindow, rfl, h1, h2, h3, h4, h5, fun _ => ⟨?_, s.levelled.closeWindow_rte⟩⟩
    rw [State.closeWindow_plc, State.levelled]
  · obtain ⟨h1, h2, h3, h4, h5⟩ := State.closeWindow_after (hlevel.trans (keepsWindow_brokerActs s.levelled))
    have hplay := hb.resolve_left hen
    rw [if_neg hen, if_neg (by simp [hplay])]
    exact ⟨_, rfl, h1, h2, h3, h4, h5, fun h => absurd h hen⟩

end Sys2Proof.Machine

namespace Sys2Proof
open Machine

/-- Settles O46: tokens by the checks of a switch, its window by the link layer, the broker's by what its acts keep. -/
theorem dispatchResults : Obligations.DispatchResults := by
  rintro s a port i p e d r src stream seq tag rfl
  refine ⟨fun h => exec_dispatch_crc h port, fun h hr => exec_dispatch_pending h port hr, fun h hr => ?_, fun hr => ?_, fun hr => ⟨fun ht => ?_, fun ht => ?_⟩,
    ⟨_, rfl, rfl, ?_, fun b hb => State.agent_updAgent_ne s _ hb⟩, fun hv => if_pos hv, fun hv => ⟨_, exec_switchWindowEnd_s hv, ?_⟩,
    fun hf => ⟨fun hw => ?_, fun hw => ?_⟩, fun hw => ?_, fun hw hb => ?_⟩
  · have hnone : (s.agent a).disp.pending.find? (fun r => r.hasKey p.hdr.src p.hdr.stream p.hdr.seq) = none :=
      List.find?_eq_none.2 fun x hx => by simp [hr x hx]
    refine ⟨exec_dispatch_done h port hnone, fun hd => ?_⟩
    have hnew := exec_dispatch_new (a := a) h port hnone hd
    refine ⟨fun hbad => ?_, fun c hc hport hsrc hv hl l hl0 => ?_⟩
    · rw [hnew]
      rcases hbad with hbad | hbad | hbad
      · rw [hbad]
      · split
        · refine if_neg fun hand => ?_
          obtain ⟨c, hc, heq⟩ := List.any_eq_true.1 hand.1
          rcases hbad c hc with h1 | h1 <;> simp [h1] at heq
        · rfl
      · split
        · exact if_neg (by simp [hbad])
        · rfl
    · have hplace : exec (.dispatch a port p) s = .next (s.placeToken a p i e) := by
        rw [hnew, hl]
        exact if_pos ⟨List.any_eq_true.2 ⟨c, hc, by simp [hport, hsrc]⟩, hv⟩
      subst hl0
      rw [hplace]
      refine ⟨fun hlen => ?_, fun hlen hbad => ?_, fun hlen hbad hp => ⟨fun hf => ?_, fun x hf => ?_⟩, fun _ _ _ => rfl⟩
      · rw [State.placeToken_store hlen]
      · rw [State.placeToken_bad hlen hbad]
      · rw [State.placeToken_part hlen hbad hp, hf]
      · rw [State.placeToken_part hlen hbad hp, hf]
  · rw [exec_pendingRecordTimeout_eq, hr]
  · rw [exec_pendingRecordTimeout_eq, hr]
    exact if_neg (by omega)
  · rw [exec_pendingRecordTimeout_eq, hr]
    exact if_pos ht
  · exact congrArg Agent.disp (State.agent_updAgent_self s a _)
  · have hlink := s.link_sendWindow a
    obtain ⟨hcounts, hpending, hactive, hregs, hout⟩ := (s.sendWindow a).clearCounts_leaves a
    refine ⟨hcounts, hpending.trans (hlink.get a (fun g => g.disp.pending) fun _ => rfl), hactive.trans (hlink.get a Agent.active fun _ => rfl),
      hregs.trans (LinkOnly_regs hlink.linkOnly), fun hc => hout.trans ?_⟩
    rw [State.sendWindow_idle hc]
  · refine next_congr ((State.accept_fresh hf _).trans ?_)
    rw [if_pos hw]
  · refine next_congr ((State.accept_fresh hf _).trans ?_)
    rw [if_neg (not_not_intro hw)]
  · rw [exec_brokerWindowEnd_eq]
    by_cases hnow : s.now < s.plc.windowNs + s.fld PLC_BROKER_CFG_WINDOW_MS * 1000000
    · exact if_pos hnow
    · obtain ⟨hen, hplay⟩ := hw.resolve_left hnow
      rw [if_neg hnow, if_neg hen, if_pos (Option.isSome_iff_ne_none.2 hplay)]
  · exact exec_brokerWindowEnd_closes (by omega) hb

end Sys2Proof
end

section
/-! Orders on tenant partitions and their devices. -/

namespace Sys2Proof.Machine

variable {s : State}

/-! ## Partitions and devices -/

theorem State.part_setPart_self (s : State) (p : Nat) (x : PartSt) : (s.setPart p x).part p = x := NMap.getD_set_self _ _ _ _

theorem State.part_setPart_ne (s : State) {p j : Nat} (x : PartSt) (h : j ≠ p) : (s.setPart p x).part j = s.part j := NMap.getD_set_ne _ _ _ h

theorem State.dev_setDev_self (s : State) (e : Nat) (x : DevSt) : (s.setDev e x).dev e = x := NMap.getD_set_self _ _ _ _

theorem State.dev_setDev_ne (s : State) {e d : Nat} (x : DevSt) (h : d ≠ e) : (s.setDev e x).dev d = s.dev d := NMap.getD_set_ne _ _ _ h

/-! ## What keeps the partitions, the devices and the sequences -/

/-- The partitions, the devices and the sequences of the KV directory stand. -/
def State.KeepsTenants (s t : State) : Prop := t.sec.parts = s.sec.parts ∧ t.sec.devs = s.sec.devs ∧ t.plc.seqs = s.plc.seqs

theorem State.KeepsTenants.refl (s : State) : s.KeepsTenants s := ⟨rfl, rfl, rfl⟩

theorem State.KeepsTenants.trans {s t u : State} (h : s.KeepsTenants t) (g : t.KeepsTenants u) : s.KeepsTenants u :=
  ⟨g.1.trans h.1, g.2.1.trans h.2.1, g.2.2.trans h.2.2⟩

theorem State.KeepsTenants.ite {s t u : State} {c : Prop} [Decidable c] (h : s.KeepsTenants t) (g : s.KeepsTenants u) :
    s.KeepsTenants (if c then t else u) := by
  split
  · exact h
  · exact g

theorem State.KeepsTenants.forEach {α : Type} {f : State → α → State} (h : ∀ (s : State) x, s.KeepsTenants (f s x)) (l : List α) (s : State) :
    s.KeepsTenants (s.forEach l f) := by
  induction l generalizing s with
  | nil => exact .refl s
  | cons x l ih => exact (h s x).trans (ih (f s x))

theorem State.MailOnly.keepsTenants {s t : State} (h : s.MailOnly t) : s.KeepsTenants t := by
  refine ⟨?_, ?_, ?_⟩
  · rw [h.sec]
  · rw [h.sec]
  · rw [h.plc]

/-- The security state and the placement's stand whole. -/
theorem keepsTenants_of_eq {s t : State} (hsec : t.sec = s.sec) (hplc : t.plc = s.plc) : s.KeepsTenants t := by
  refine ⟨?_, ?_, ?_⟩
  · rw [hsec]
  · rw [hsec]
  · rw [hplc]

theorem State.KeepsTenants.part {s t : State} (h : s.KeepsTenants t) (p : Nat) : t.part p = s.part p := by rw [State.part, State.part, h.1]

theorem State.KeepsTenants.dev {s t : State} (h : s.KeepsTenants t) (e : Nat) : t.dev e = s.dev e := by rw [State.dev, State.dev, h.2.1]

theorem keepsTenants_setFld (s : State) (f : Field) (v : Nat) : s.KeepsTenants (s.setFld f v) := ⟨rfl, rfl, rfl⟩

/-! ### Programs that end -/

theorem keepsTenants_putRecord (s : State) (n : Nat) (l : List Byte) (irq : Bool) : s.KeepsTenants (s.putRecord n l irq) := by
  refine keepsTenants_of_eq ?_ ?_
  · unfold State.putRecord
    dsimp only
    split <;> simp
  · unfold State.putRecord
    dsimp only
    split <;> simp

theorem keepsTenants_endDisable (s : State) (n : Nat) : s.KeepsTenants (s.endDisable n) := .ite ⟨rfl, rfl, rfl⟩ (.refl s)

theorem keepsTenants_completeCmd (s : State) (n : Nat) (c : Cmd) (r : Record) : s.KeepsTenants (s.completeCmd n c r) := by
  unfold State.completeCmd
  extract_lets t q
  have hrecord : s.KeepsTenants t := .ite ⟨rfl, rfl, rfl⟩ (keepsTenants_putRecord s _ _ _)
  exact (hrecord.trans ⟨rfl, rfl, rfl⟩).trans (keepsTenants_endDisable _ n)

/-- The tags of an engine are forgotten where they stand; sequences, partitions and devices name none. -/
theorem keepsTenants_forgetTags (s : State) (e : Nat) : s.KeepsTenants (s.forgetTags e) := ⟨rfl, rfl, rfl⟩

theorem keepsTenants_quitGate (s : State) (e : Nat) : s.KeepsTenants (s.quitGate e) := .ite ⟨rfl, rfl, rfl⟩ (.refl s)

theorem keepsTenants_endProgram (s : State) (e status detail : Nat) (result : Word64) (pc : Nat) :
    s.KeepsTenants (s.endProgram e status detail result pc) := by
  unfold State.endProgram
  extract_lets x t
  have hgone : s.KeepsTenants t := ((keepsTenants_forgetTags s e).trans (keepsTenants_quitGate _ e)).trans ⟨rfl, rfl, rfl⟩
  refine .ite (.refl s) ?_
  split
  · exact hgone
  · extract_lets rep u q w
    have hrep : t.KeepsTenants u := .ite (.refl t) (keepsTenants_of_eq (by simp) (by simp))
    have hq : u.KeepsTenants w := ⟨rfl, rfl, rfl⟩
    split
    · exact (hgone.trans hrep).trans hq
    · have hfree : w.KeepsTenants (if status = 1 then w else w.useFree) := .ite (.refl w) ⟨rfl, rfl, rfl⟩
      exact (((hgone.trans hrep).trans hq).trans hfree).trans (keepsTenants_completeCmd _ _ _ _)

theorem keepsTenants_faultPartition (s : State) (p : Nat) : s.KeepsTenants (s.faultPartition p) := by
  refine State.KeepsTenants.forEach (fun s e => ?_) _ s
  unfold State.faultProgram
  exact (keepsTenants_endProgram s e 1 9 0 _).trans (keepsTenants_of_eq (State.raise_sec ..) (State.raise_plc ..))

/-! ### Groups, keys and the pool that a partition leaves -/

theorem keepsTenants_showGroups (s : State) : s.KeepsTenants s.showGroups := by
  unfold State.showGroups
  exact ⟨rfl, rfl, rfl⟩

theorem keepsTenants_freeAt (s : State) (g : Group) (f : Fid) : s.KeepsTenants (s.freeAt g f) := by
  unfold State.freeAt
  split
  · extract_lets t
    have hctxs : s.KeepsTenants t := ⟨rfl, rfl, rfl⟩
    refine (hctxs.trans ?_).trans (keepsTenants_showGroups _)
    unfold State.mapFree
    dsimp only
    split <;> exact ⟨rfl, rfl, rfl⟩
  · exact (mailOnly_sendHooked s _ _ _ _ _ _).keepsTenants

theorem keepsTenants_freeReservation (s : State) (g : Group) : s.KeepsTenants (s.freeReservation g) :=
  (State.KeepsTenants.forEach (fun s f => keepsTenants_freeAt s g f) g.written s).trans ⟨rfl, rfl, rfl⟩

theorem keepsTenants_sendWithdrawn (s : State) (g : Group) (op : BitVec 32) (reason : Nat) : s.KeepsTenants (s.sendWithdrawn g op reason) :=
  State.KeepsTenants.forEach (fun s _ => (mailOnly_sendMgmt s _ _ _ _ _ _).keepsTenants) _ s

theorem keepsTenants_endGroups (s : State) (p : Nat) : s.KeepsTenants (s.endGroups p) := by
  refine State.KeepsTenants.forEach (fun s g => ?_) _ s
  extract_lets t u w
  have htickets : s.KeepsTenants t := ⟨rfl, rfl, rfl⟩
  have hgone : t.KeepsTenants u := .forEach (fun s op => keepsTenants_sendWithdrawn s g op 6) _ t
  have hfree : u.KeepsTenants w := .forEach (fun s f => keepsTenants_freeAt s g f) _ u
  exact (((htickets.trans hgone).trans hfree).trans ⟨rfl, rfl, rfl⟩).trans (keepsTenants_freeReservation _ _)

theorem keepsTenants_clearTarget (s : State) (x : Nat × Nat × Nat) : s.KeepsTenants (s.clearTarget x) := by
  unfold State.clearTarget
  split
  · exact ⟨rfl, rfl, rfl⟩
  · split <;> exact ⟨rfl, rfl, rfl⟩
  · split <;> exact ⟨rfl, rfl, rfl⟩

theorem keepsTenants_zeroKey (s : State) (n : Nat) : s.KeepsTenants (s.zeroKey n) := by
  unfold State.zeroKey
  split
  · exact .refl s
  · exact (State.KeepsTenants.forEach keepsTenants_clearTarget _ s).trans ⟨rfl, rfl, rfl⟩

theorem keepsTenants_zeroPartition (s : State) (p : Nat) : s.KeepsTenants (s.zeroPartition p) := .forEach keepsTenants_zeroKey _ s

theorem keepsTenants_countSource (s : State) (src n : Nat) (d : BitVec 16) (c : Option Capture) : s.KeepsTenants (s.countSource src n d c) :=
  keepsTenants_of_eq (State.countSource_sec ..) (State.countSource_plc ..)

theorem keepsTenants_present (s : State) (e : Event) : s.KeepsTenants (s.present e) :=
  keepsTenants_of_eq (State.present_sec ..) (State.present_plc ..)

theorem keepsTenants_securityRecord (s : State) (src : Nat) (d : BitVec 16) : s.KeepsTenants (s.securityRecord src d) := by
  unfold State.securityRecord
  refine .ite (.refl s) ?_
  extract_lets sev r led t masked ev u
  have hled : s.KeepsTenants t := ⟨rfl, rfl, rfl⟩
  have hcount : t.KeepsTenants u := keepsTenants_countSource t _ _ _ _
  exact hled.trans (hcount.trans (.ite (.refl u) (keepsTenants_present u ev)))

theorem keepsTenants_scrubRecords (s : State) (l : List (List Byte)) : s.KeepsTenants { s with sec := { s.sec with scrubRecords := l } } :=
  ⟨rfl, rfl, rfl⟩

theorem keepsTenants_keepRecord (s : State) (l : List Byte) : s.KeepsTenants (s.keepRecord l) := by
  unfold State.keepRecord
  exact (keepsTenants_scrubRecords s _).trans (keepsTenants_securityRecord _ _ _)

/-- What is found under a key is one of the entries. -/
theorem NMap.mem_of_get {α : Type} {m : NMap α} {i : Nat} {x : α} (h : m.get i = some x) : (i, x) ∈ m := by
  induction m with
  | nil => exact absurd h (by simp [NMap.get])
  | cons y m ih =>
    rw [NMap.get] at h
    split at h
    · next hy =>
      rw [← hy, ← Option.some.inj h]
      exact List.mem_cons_self
    · exact List.mem_cons_of_mem _ (ih h)

theorem State.releasePlacement_sec (s : State) (p : Nat) : (s.releasePlacement p).sec = s.sec := rfl

theorem State.releasePlacement_seqs (s : State) (p : Nat) : (s.releasePlacement p).plc.seqs = s.plc.seqs.filter fun x => !(x.partition.toNat == p) := rfl

/-- Another partition keeps its state, the scrubbed one has no spill key and has its record. -/
theorem State.scrubSpill_leaves (s : State) (p bytes : Nat) :
    (s.scrubSpill p bytes).part p = { s.part p with spillKey := none, spillScrub := false, spillRecord := true }
    ∧ (s.scrubSpill p bytes).sec.devs = s.sec.devs ∧ (s.scrubSpill p bytes).plc.seqs = s.plc.seqs := by
  unfold State.scrubSpill
  extract_lets seqNo sec t part u w
  have hpart : u.part p = { s.part p with spillKey := none, spillScrub := false, spillRecord := true } := State.part_setPart_self t p _
  have hkeep : u.KeepsTenants w := keepsTenants_keepRecord u _
  have hdone := hkeep.trans (keepsTenants_setFld w SEC_SCRUB_DONE (min (w.fld SEC_SCRUB_DONE + 1) SEC_SCRUB_DONE.max))
  exact ⟨(hdone.part p).trans hpart, hdone.2.1, hdone.2.2⟩

/-! ## Orders on devices (R328 to R330) -/

theorem State.setPartition_agents (s : State) (e : Nat) (p : BitVec 12) : s.setPartition e p = { s with agents := (s.setPartition e p).agents } := by
  unfold State.setPartition
  split
  · rfl
  · dsimp only
    split <;> rfl

theorem keepsTenants_setPartition (s : State) (e : Nat) (p : BitVec 12) : s.KeepsTenants (s.setPartition e p) := by
  rw [s.setPartition_agents e p]
  exact ⟨rfl, rfl, rfl⟩

theorem State.agent_setPartition (s : State) {e : Nat} {a : AgentRef} (h : s.devAgent e = some a) (p : BitVec 12) :
    ((s.setPartition e p).agent a).partition = p := by
  unfold State.setPartition
  rw [h]
  dsimp only
  split
  · rw [State.agent_updAgent_self, State.agent_updAgent_self]
  · unfold State.registerEndpoint
    rw [State.agent_updAgent_self, State.agent_updAgent_self]

/-- The device while its scrub waits. -/
def State.scrubbing (s : State) (e : Nat) : DevSt := { s.dev e with
  state := 2, former := if (s.dev e).state = 3 then (s.dev e).former else (s.dev e).partition, partition := 0, scrubWaiting := true
  scrubStartMs := s.operMs }

theorem State.orderScrub_dev_self (s : State) (e : Nat) : (s.orderScrub e).dev e = s.scrubbing e :=
  ((keepsTenants_setPartition _ e 0).dev e).trans (State.dev_setDev_self s e _)

theorem State.orderScrub_dev_ne (s : State) {e d : Nat} (h : d ≠ e) : (s.orderScrub e).dev d = s.dev d :=
  ((keepsTenants_setPartition _ e 0).dev d).trans (State.dev_setDev_ne s _ h)

theorem State.orderScrub_keeps (s : State) (e : Nat) : (s.orderScrub e).sec.parts = s.sec.parts ∧ (s.orderScrub e).plc.seqs = s.plc.seqs :=
  ⟨(keepsTenants_setPartition _ e 0).1, (keepsTenants_setPartition _ e 0).2.2⟩

/-- Scrubs that are ordered: partitions and sequences stand, and each device of the list is scrubbing, as is one that was. -/
theorem State.forEach_orderScrub (l : List Nat) (s : State) : (s.forEach l State.orderScrub).sec.parts = s.sec.parts
    ∧ (s.forEach l State.orderScrub).plc.seqs = s.plc.seqs
    ∧ ∀ d, d ∈ l ∨ (s.dev d).state = 2 → ((s.forEach l State.orderScrub).dev d).state = 2 := by
  induction l generalizing s with
  | nil => exact ⟨rfl, rfl, fun d hd => hd.resolve_left List.not_mem_nil⟩
  | cons e l ih =>
    obtain ⟨hparts, hseqs, hdevs⟩ := ih (s.orderScrub e)
    obtain ⟨kparts, kseqs⟩ := s.orderScrub_keeps e
    refine ⟨hparts.trans kparts, hseqs.trans kseqs, fun d hd => hdevs d ?_⟩
    by_cases hde : d = e
    · rw [hde, s.orderScrub_dev_self e]
      exact .inr rfl
    · rw [s.orderScrub_dev_ne hde]
      exact hd.imp_left fun h => (List.mem_cons.1 h).resolve_left hde

theorem State.mem_partDevs (s : State) {d p : Nat} (hst : (s.dev d).state = 1) (hp : (s.dev d).partition.toNat = p) : d ∈ s.partDevs p := by
  unfold State.partDevs
  cases hget : s.sec.devs.get d with
  | none =>
    have hdev : s.dev d = {} := by rw [State.dev, NMap.getD, hget]; rfl
    rw [hdev] at hst
    exact absurd hst (by decide)
  | some x =>
    have hdev : s.dev d = x := by rw [State.dev, NMap.getD, hget]; rfl
    refine List.mem_map.2 ⟨(d, x), List.mem_filter.2 ⟨NMap.mem_of_get hget, ?_⟩, rfl⟩
    rw [← hdev]
    simp [hst, hp]

/-- A partition that ends (R330): its devices are scrubbed, its spill key is gone and its sequences with it. -/
theorem State.endPartition_leaves (s : State) (p : Nat) : ((s.endPartition p).part p).state = 2 ∧ ((s.endPartition p).part p).spillKey = none
    ∧ ((s.endPartition p).part p).spillRecord = true ∧ (∀ q ∈ (s.endPartition p).plc.seqs, q.partition.toNat ≠ p)
    ∧ ∀ d, (s.dev d).state = 1 → (s.dev d).partition.toNat = p → ((s.endPartition p).dev d).state = 2 := by
  unfold State.endPartition
  extract_lets bytes part t u w
  have hclosed := State.part_setPart_self s p { s.part p with state := 2, spillScrub := true, spillRecord := false }
  have ht : (s.setPart p { s.part p with state := 2, spillScrub := true, spillRecord := false }).KeepsTenants t := keepsTenants_faultPartition _ p
  have hgroups : t.KeepsTenants (t.endGroups p) := keepsTenants_endGroups t p
  have hzero : ((t.endGroups p).releasePlacement p).KeepsTenants u := keepsTenants_zeroPartition _ p
  obtain ⟨hpart, hdevs, hseqs⟩ := u.scrubSpill_leaves p bytes
  obtain ⟨kparts, kseqs, kdevs⟩ := State.forEach_orderScrub (w.partDevs p) w
  have hu : u.part p = { s.part p with state := 2, spillScrub := true, spillRecord := false } :=
    (hzero.part p).trans ((hgroups.part p).trans ((ht.part p).trans hclosed))
  have hfinal : (w.forEach (w.partDevs p) State.orderScrub).part p = { s.part p with
      state := 2, spillScrub := false, spillRecord := true, spillKey := none } := by
    rw [State.part, kparts]
    exact hpart.trans (by rw [hu])
  have hdev (d : Nat) : w.dev d = s.dev d := by
    have hd : w.sec.devs = s.sec.devs := hdevs.trans (hzero.2.1.trans (hgroups.2.1.trans ht.2.1))
    rw [State.dev, hd, State.dev]
  refine ⟨by rw [hfinal], by rw [hfinal], by rw [hfinal], fun q hq => ?_, fun d hst hp => ?_⟩
  · rw [kseqs, hseqs, hzero.2.2, State.releasePlacement_seqs] at hq
    simpa using (List.mem_filter.1 hq).2
  · exact kdevs d (.inl (w.mem_partDevs (by rw [hdev d]; exact hst) (by rw [hdev d]; exact hp)))

/-! ## The orders of the operator -/

section
variable {lvl : Level} {v : Word64} (hl : lvl ≠ .tenant)
include hl

theorem exec_partOpen_eq : exec (.partOpen lvl v) s
    = if SEC_PART_ACTION.of v = 1 then .next (s.openPart (s.fld SEC_PART_SEL_PARTITION)) else .next s := by
  cases lvl with
  | tenant => exact absurd rfl hl
  | _ => rfl

theorem exec_partEnd_eq : exec (.partEnd lvl v) s = if SEC_PART_ACTION.of v ≠ 2 then .next s
    else if (s.part (s.fld SEC_PART_SEL_PARTITION)).state = 1 then .next (s.endPartition (s.fld SEC_PART_SEL_PARTITION)) else .next s.refuseAction := by
  cases lvl with
  | tenant => exact absurd rfl hl
  | _ => rfl

theorem exec_devAssign_eq : exec (.devAssign lvl v) s
    = if SEC_DEV_ACTION.of v = 1 then .next (s.assignDev (s.fld SEC_DEV_SEL_ENDPOINT) (SEC_DEV_PARTITION.of v)) else .next s := by
  cases lvl with
  | tenant => exact absurd rfl hl
  | _ => rfl

theorem exec_devRelease_eq : exec (.devRelease lvl v) s
    = if SEC_DEV_ACTION.of v = 2 then .next (s.releaseDev (s.fld SEC_DEV_SEL_ENDPOINT)) else .next s := by
  cases lvl with
  | tenant => exact absurd rfl hl
  | _ => rfl

theorem exec_devRescrub_eq : exec (.devRescrub lvl v) s
    = if SEC_DEV_ACTION.of v = 3 then .next (s.rescrubDev (s.fld SEC_DEV_SEL_ENDPOINT)) else .next s := by
  cases lvl with
  | tenant => exact absurd rfl hl
  | _ => rfl

end

/-- Messages of the controller to the standby leave every agent. -/
theorem State.mirrorOut_agents (s : State) (item : Nat) : (s.mirrorOut item).agents = s.agents := by
  unfold State.mirrorOut
  split
  · rfl
  · exact (link_sendMgmt _ .ctl _ _ _ _ _).agents_ctl

theorem State.openPart_free {p : Nat} (hp : p ≠ 0) (h0 : (s.part p).state = 0) (hlc : s.sec.lifeCycle = 1) {t : State} (ht : s.openPart p = t) :
    t.part p = { state := 1, spillKey := some s.sec.nextKey } ∧ t.sec.nextKey = s.sec.nextKey + 1
    ∧ (∀ j, j ≠ p → t.part j = s.part j) ∧ t.engines = s.engines := by
  have hopen : (({ s with sec := { s.sec with nextKey := s.sec.nextKey + 1 } } : State).setPart p
      { state := 1, spillKey := some s.sec.nextKey }).mirrorOut 7 = t := by
    rw [← ht, State.openPart, if_pos ⟨hp, h0, hlc⟩]
  have hmail := mailOnly_mirrorOut (({ s with sec := { s.sec with nextKey := s.sec.nextKey + 1 } } : State).setPart p
    { state := 1, spillKey := some s.sec.nextKey }) 7
  rw [hopen] at hmail
  exact ⟨(hmail.keepsTenants.part p).trans (State.part_setPart_self _ p _), (congrArg SecSt.nextKey hmail.sec).trans rfl,
    fun j hj => (hmail.keepsTenants.part j).trans (State.part_setPart_ne _ _ hj), hmail.engines.trans rfl⟩

theorem State.assignDev_free {e p : Nat} (h0 : (s.dev e).state = 0) (hp : (s.part p).state = 1) {t : State} (ht : s.assignDev e p = t) :
    t.dev e = { s.dev e with state := 1, partition := BitVec.ofNat 12 p } ∧ (∀ a, s.devAgent e = some a → (t.agent a).partition = BitVec.ofNat 12 p)
    ∧ (∀ d, d ≠ e → t.dev d = s.dev d) ∧ t.engines = s.engines := by
  have hassign : ((s.setDev e { s.dev e with state := 1, partition := BitVec.ofNat 12 p }).setPartition e (BitVec.ofNat 12 p)).mirrorOut 7 = t := by
    rw [← ht]
    exact (if_pos ⟨h0, hp⟩).symm
  have hkeeps := keepsTenants_setPartition (s.setDev e { s.dev e with state := 1, partition := BitVec.ofNat 12 p }) e (BitVec.ofNat 12 p)
  have hagents := ((s.setDev e { s.dev e with state := 1, partition := BitVec.ofNat 12 p }).setPartition e (BitVec.ofNat 12 p)).mirrorOut_agents 7
  have hmail := mailOnly_mirrorOut ((s.setDev e { s.dev e with state := 1, partition := BitVec.ofNat 12 p }).setPartition e (BitVec.ofNat 12 p)) 7
  rw [hassign] at hmail hagents
  have hall := hkeeps.trans hmail.keepsTenants
  refine ⟨(hall.dev e).trans (State.dev_setDev_self s e _), fun a ha => ?_, fun d hd => (hall.dev d).trans (State.dev_setDev_ne s _ hd), ?_⟩
  · have hset := State.agent_setPartition (s.setDev e { s.dev e with state := 1, partition := BitVec.ofNat 12 p }) (e := e) (a := a) ha (BitVec.ofNat 12 p)
    rw [State.agent, hagents]
    exact hset
  · rw [hmail.engines, State.setPartition_agents]
    rfl

end Sys2Proof.Machine

namespace Sys2Proof
open Machine

/-- Settles O48: each order by its branch, the end of a partition by what faulting, zeroing and scrubbing keep. -/
theorem partitionResults : Obligations.PartitionResults := by
  rintro s lvl v p e k rfl rfl
  refine ⟨fun i hi => ?_, fun hl => ?_, fun hbusy => ?_, fun hst hrec hdevs => ?_⟩
  · simp only [List.mem_cons, List.not_mem_nil, or_false] at hi
    rcases hi with rfl | rfl | rfl | rfl | rfl <;> rfl
  · rw [exec_partOpen_eq hl, exec_partEnd_eq hl, exec_devRelease_eq hl, exec_devRescrub_eq hl]
    refine ⟨fun h => if_neg h, fun h => if_pos h, fun h => ?_, fun h => if_neg h, fun h => if_neg h, fun h hbad => ?_, fun h hp h0 hlc => ?_,
      fun h hst => ?_, fun h hst => ?_, fun h hbad => ?_, fun q h hq h0 hp => ?_, fun h hbad => ?_, fun h hst huse => ⟨?_, ?_⟩, fun h hst => ?_,
      fun h hst => ⟨?_, ?_⟩⟩
    · rw [exec_devAssign_eq hl]
      exact if_neg h
    · rw [if_pos h, State.openPart, if_neg]
      rintro ⟨h1, h2, h3⟩
      rcases hbad with hbad | hbad | hbad
      · exact h1 hbad
      · exact hbad h2
      · exact hbad h3
    · rw [if_pos h]
      exact ⟨_, rfl, State.openPart_free hp h0 hlc rfl⟩
    · rw [if_neg (not_not_intro h), if_neg hst]
    · rw [if_neg (not_not_intro h), if_pos hst]
      exact ⟨_, rfl, s.endPartition_leaves _⟩
    · rw [exec_devAssign_eq hl, if_pos h]
      refine congrArg Host.Outcome.next (if_neg ?_)
      rintro ⟨h1, h2⟩
      exact hbad.elim (· h1) (· h2)
    · rw [exec_devAssign_eq hl, if_pos h, hq]
      exact ⟨_, rfl, State.assignDev_free h0 hp rfl⟩
    · rw [if_pos h, State.releaseDev, if_neg]
      rintro ⟨h1, h2⟩
      rcases hbad with hbad | hbad
      · exact hbad h1
      · rw [hbad] at h2
        exact absurd h2 (by decide)
    · rw [if_pos h, State.releaseDev, if_pos ⟨hst, huse⟩]
    · rw [s.orderScrub_dev_self, State.scrubbing, if_neg (by omega)]
    · rw [if_pos h, State.rescrubDev, if_neg hst]
    · rw [if_pos h, State.rescrubDev, if_pos hst]
    · rw [s.orderScrub_dev_self, State.scrubbing, if_pos hst]
  · refine if_neg ?_
    rintro ⟨h1, h2, h3⟩
    rcases hbusy with hbusy | hbusy | ⟨d, hd, hst, hf⟩
    · exact hbusy h1
    · exact absurd (hbusy.symm.trans h2) (by decide)
    · have hany := List.any_eq_false.1 h3 d hd
      simp [hst, hf] at hany
  · refine if_pos ⟨hst, hrec, List.any_eq_false.2 fun d hd => ?_⟩
    rcases hdevs d hd with h | h <;> simp [h]

end Sys2Proof
end

section
/-! Scrubs of endpoints: their start, their end and their reports. -/

namespace Sys2Proof.Machine

variable {s t u : State} {e g : Nat} {a : AgentRef}

/-! ## What new link keys leave (R346) -/

/-- The devices, the scrubs' count, the engines and every agent but for its links stand. -/
structure State.KeepsScrubs (s t : State) : Prop where
  devs : t.sec.devs = s.sec.devs
  seq : t.sec.scrubSeq = s.sec.scrubSeq
  engines : t.engines = s.engines
  core : ∀ b, (t.agent b).core = (s.agent b).core
  jx : ∀ b, (t.agent b).jx = (s.agent b).jx

theorem State.KeepsScrubs.refl (s : State) : s.KeepsScrubs s := ⟨rfl, rfl, rfl, fun _ => rfl, fun _ => rfl⟩

theorem State.KeepsScrubs.trans (h : s.KeepsScrubs t) (g : t.KeepsScrubs u) : s.KeepsScrubs u :=
  ⟨g.devs.trans h.devs, g.seq.trans h.seq, g.engines.trans h.engines, fun b => (g.core b).trans (h.core b), fun b => (g.jx b).trans (h.jx b)⟩

theorem State.KeepsScrubs.forEach {α : Type} {f : State → α → State} (h : ∀ (s : State) x, s.KeepsScrubs (f s x)) (l : List α) (s : State) :
    s.KeepsScrubs (s.forEach l f) := by
  induction l generalizing s with
  | nil => exact .refl s
  | cons x l ih => exact (h s x).trans (ih (f s x))

theorem keepsScrubs_setPort (s : State) (n : Node) (p : Nat) (x : PortSt) : s.KeepsScrubs (s.setPort n p x) := by
  cases n with
  | ctl => exact ⟨rfl, rfl, rfl, fun _ => rfl, fun _ => rfl⟩
  | agent a =>
    have hagent (b : AgentRef) : ∃ l, (s.setPort (.agent a) p x).agent b = { s.agent b with ports := l } := by
      by_cases hb : b = a
      · rw [hb]
        exact ⟨_, State.agent_updAgent_self s a _⟩
      · exact ⟨_, State.agent_updAgent_ne s _ hb⟩
    refine ⟨rfl, rfl, rfl, fun b => ?_, fun b => ?_⟩
    · obtain ⟨l, hl⟩ := hagent b
      rw [hl]
      rfl
    · obtain ⟨l, hl⟩ := hagent b
      rw [hl]

theorem keepsScrubs_scrubAgain (s : State) (n m : Node) (p : Nat) : s.KeepsScrubs (s.scrubAgain n m p) := by
  unfold State.scrubAgain
  split
  · exact .refl s
  · dsimp only
    split
    · exact keepsScrubs_setPort s _ _ _
    · exact .refl s

theorem keepsScrubs_keyPort (s : State) (n : Node) (p : Nat) (receive : Bool) (act : Nat) (k : LinkKey) :
    s.KeepsScrubs (s.keyPort n p receive act k).1 := by
  unfold State.keyPort
  dsimp only
  split
  · exact keepsScrubs_setPort s _ _ _
  · split
    · exact .refl s
    · exact keepsScrubs_setPort s _ _ _

theorem keepsScrubs_rekeyOneWay (s : State) (n : Node) (fp : Nat) (m : Node) (tp act : Nat) : s.KeepsScrubs (s.rekeyOneWay n fp m tp act) := by
  unfold State.rekeyOneWay
  split
  · exact .refl s
  · extract_lets x later r
    have hkey : s.KeepsScrubs r.1 := ⟨rfl, rfl, rfl, fun _ => rfl, fun _ => rfl⟩
    exact (hkey.trans (keepsScrubs_keyPort r.1 _ _ _ _ _)).trans (keepsScrubs_keyPort _ _ _ _ _ _)

theorem keepsScrubs_rekeyLink (s : State) (n : Node) (p ahead : Nat) : s.KeepsScrubs (s.rekeyLink n p ahead) := by
  unfold State.rekeyLink
  split
  · exact .refl s
  · extract_lets t
    have hscrub : s.KeepsScrubs t := (keepsScrubs_scrubAgain s _ _ _).trans (keepsScrubs_scrubAgain _ _ _ _)
    exact hscrub.trans ((keepsScrubs_rekeyOneWay t _ _ _ _ _).trans (keepsScrubs_rekeyOneWay _ _ _ _ _ _))

theorem keepsScrubs_scrubMode (s : State) (a : AgentRef) (f : Fid) (on : Bool) : s.KeepsScrubs (s.scrubMode a f on) :=
  .forEach (fun s _ => keepsScrubs_setPort s _ _ _) _ s

/-! ## What a compute reset leaves -/

/-- The security state, the engines and the size of the agent's memory stand. -/
def State.KeepsMemory (a : AgentRef) (s t : State) : Prop :=
  t.sec = s.sec ∧ t.engines = s.engines ∧ (t.agent a).memBytes = (s.agent a).memBytes ∧ (t.agent a).scrub = (s.agent a).scrub

theorem State.KeepsMemory.trans (h : s.KeepsMemory a t) (g : t.KeepsMemory a u) : s.KeepsMemory a u :=
  ⟨g.1.trans h.1, g.2.1.trans h.2.1, g.2.2.1.trans h.2.2.1, g.2.2.2.trans h.2.2.2⟩

theorem LinkOnly_sec (h : s.LinkOnly t) : t.sec = s.sec := h.mailOnly.sec

theorem State.Link.keepsMemory {n : Node} (h : s.Link n t) : s.KeepsMemory a t :=
  ⟨LinkOnly_sec h.linkOnly, LinkOnly_engines h.linkOnly, h.get a Agent.memBytes fun _ => rfl, h.get a Agent.scrub fun _ => rfl⟩

theorem keepsMemory_updAgent (s : State) (a : AgentRef) {f : Agent → Agent} (hf : ∀ g, (f g).memBytes = g.memBytes ∧ (f g).scrub = g.scrub) :
    s.KeepsMemory a (s.updAgent a f) := by
  refine ⟨rfl, rfl, ?_, ?_⟩
  · rw [State.agent_updAgent_self, (hf _).1]
  · rw [State.agent_updAgent_self, (hf _).2]

theorem keepsMemory_setJfld (s : State) (a : AgentRef) (f : Field) (v : Nat) : s.KeepsMemory a (s.setJfld a f v) := by
  obtain ⟨j, hj⟩ := State.agent_setJfld s a f v
  exact ⟨rfl, rfl, by rw [hj], by rw [hj]⟩

theorem keepsMemory_memberSend (s : State) (a : AgentRef) (c : CollFields) : s.KeepsMemory a (s.memberSend a c) := by
  unfold State.memberSend
  split
  · unfold State.sendColl
    dsimp only
    split
    · exact (link_emit s .ctl _).keepsMemory
    · rw [if_neg (by simp)]
      exact ((link_emit s (.agent a) _).trans (link_portSend _ _ _ _ _)).keepsMemory
  · exact ⟨rfl, rfl, rfl, rfl⟩

/-- An operation that ends without a record. -/
theorem keepsMemory_memberAbort (s : State) (a : AgentRef) (o : MemberOp) (reason : Nat) : s.KeepsMemory a (s.memberAbort a o reason false) := by
  have hend (u : State) (st d : Nat) : u.KeepsMemory a (u.endOp a o st d false) := keepsMemory_updAgent u a fun _ => ⟨rfl, rfl⟩
  unfold State.memberAbort
  split
  · extract_lets u
    have hsend : s.KeepsMemory a u := by
      unfold u
      split
      · split
        · exact ⟨rfl, rfl, rfl, rfl⟩
        · exact keepsMemory_memberSend s a _
      · exact ⟨rfl, rfl, rfl, rfl⟩
    exact hsend.trans (hend u 2 reason)
  · exact hend s 4 reason

theorem State.KeepsMemory.forEach {α : Type} {f : State → α → State} (h : ∀ (s : State) x, s.KeepsMemory a (f s x)) (l : List α) (s : State) :
    s.KeepsMemory a (s.forEach l f) := by
  induction l generalizing s with
  | nil => exact ⟨rfl, rfl, rfl, rfl⟩
  | cons x l ih => exact (h s x).trans (ih (f s x))

theorem keepsMemory_beginComputeReset (s : State) (a : AgentRef) : s.KeepsMemory a (s.beginComputeReset a) := by
  unfold State.beginComputeReset
  split
  · exact ⟨rfl, rfl, rfl, rfl⟩
  · extract_lets t1 f dom t2 shadow col t3 t4 t5
    have h1 : s.KeepsMemory a t1 := (link_raiseAgent s a _ _ _ _ _).keepsMemory
    have h2 : t1.KeepsMemory a t2 := ⟨rfl, rfl, rfl, rfl⟩
    have h3 : t2.KeepsMemory a t3 := ⟨rfl, rfl, rfl, rfl⟩
    have h4 : t3.KeepsMemory a t4 := .forEach (fun s o => keepsMemory_memberAbort s a o 2) _ t3
    have h5 : t4.KeepsMemory a t5 := keepsMemory_updAgent t4 a fun _ => ⟨rfl, rfl⟩
    have h6 := (keepsMemory_setJfld t5 a JX_STATUS_COMPUTE_IN_RESET 1).trans (keepsMemory_setJfld _ a JX_STATUS_REJOINED 0)
    exact ((((h1.trans h2).trans h3).trans h4).trans h5).trans h6

theorem keepsMemory_endComputeReset (s : State) (a : AgentRef) : s.KeepsMemory a (s.endComputeReset a) := by
  unfold State.endComputeReset
  split
  · exact ⟨rfl, rfl, rfl, rfl⟩
  · extract_lets origin l col t
    have hcol : s.KeepsMemory a t := ⟨rfl, rfl, rfl, rfl⟩
    exact (hcol.trans (keepsMemory_setJfld t a _ _)).trans (link_raiseAgent _ a _ _ _ _ _).keepsMemory

/-- The compute domain of an agent without key slots is in reset, and none has come. -/
theorem State.beginComputeReset_leaves (h : (s.agent a).keySlots = []) (hbit : s.jfld a JX_STATUS_COMPUTE_IN_RESET < 2) :
    ((s.beginComputeReset a).agent a).keySlots = [] ∧ (s.beginComputeReset a).jfld a JX_STATUS_COMPUTE_IN_RESET = 1 := by
  by_cases h1 : s.jfld a JX_STATUS_COMPUTE_IN_RESET = 1
  · rw [State.beginComputeReset, if_pos h1]
    exact ⟨h, h1⟩
  · obtain ⟨hin, -, -, -, hkeys⟩ := State.beginComputeReset_clears (s := s) (a := a) (by omega)
    exact ⟨hkeys, hin⟩

/-! ## The end of a scrub (R346 to R348) -/

theorem keepsTenants_raise (s : State) (src st : Nat) (d : BitVec 16) (p : Nat) (c : Option Capture) : s.KeepsTenants (s.raise src st d p c) :=
  keepsTenants_of_eq (State.raise_sec ..) (State.raise_plc ..)

theorem keepsTenants_scrubMode (s : State) (a : AgentRef) (f : Fid) (on : Bool) : s.KeepsTenants (s.scrubMode a f on) :=
  .forEach (fun _ _ => keepsTenants_of_eq (State.setPort_sec ..) (State.setPort_plc ..)) _ s

theorem keepsTenants_endComputeReset (s : State) (a : AgentRef) : s.KeepsTenants (s.endComputeReset a) := by
  unfold State.endComputeReset
  refine .ite (.refl s) ?_
  extract_lets origin l col t
  have hcol : s.KeepsTenants t := ⟨rfl, rfl, rfl⟩
  exact (hcol.trans (keepsTenants_of_eq (State.setJfld_sec ..) (State.setJfld_plc ..))).trans (link_raiseAgent _ a _ _ _ _ _).linkOnly.mailOnly.keepsTenants

theorem State.securityRecord_dom (s : State) (src : Nat) (d : BitVec 16) : (s.securityRecord src d).dom = s.dom := by
  unfold State.securityRecord
  split
  · rfl
  · extract_lets sev r led t masked ev u
    have hcount : u.dom = s.dom := State.countSource_dom t _ _ _ _
    split
    · exact hcount
    · exact (State.present_dom u ev).trans hcount

theorem State.keepRecord_dom (s : State) (l : List Byte) : (s.keepRecord l).dom = s.dom := by
  unfold State.keepRecord
  rw [State.securityRecord_dom]

/-- The device after its scrub: free when it was clean, quarantined otherwise. -/
def State.scrubbed (s : State) (e : Nat) (clean : Bool) : DevSt := { s.dev e with
  state := if clean then 0 else 3, engine := none, scrubWaiting := false, former := if clean then 0 else (s.dev e).former }

/-- The record and the status of a scrub that ends, before its agent is let go. -/
def State.scrubResult (s : State) (e result zeroed verified mem : Nat) : State :=
  let d := s.dev e
  let s := s.keepRecord (s.scrubRecord 0 result (s.fidOf e) d.former.toNat d.seqNo d.scrubStartMs zeroed verified d.dropped mem)
  let s := match d.engine with | some g => s.setEngine g {} | none => s
  let s := (s.setDev e { d with state := if result == 0 then 0 else 3, engine := none, scrubWaiting := false
                                former := if result == 0 then 0 else d.former }).showScrubs
  if result == 0 then s.satFld SEC_SCRUB_DONE 1 else (s.satFld SEC_SCRUB_FAILED 1).raise srcSEC 2

/-- The agent of a device is let go when its scrub is over. -/
def State.scrubRelease (s : State) (e : Nat) (clean : Bool) (a : AgentRef) : State :=
  let s := if clean then s.scrubMode a (s.fidOf e) false else s
  let s := s.updAgent a fun g => { g with scrub := none }
  if (s.agent a).crstN then s.endComputeReset a else s

theorem State.endScrub_eq (s : State) (e result zeroed verified mem : Nat) : s.endScrub e result zeroed verified mem
    = match (s.scrubResult e result zeroed verified mem).devAgent e with
      | none => s.scrubResult e result zeroed verified mem
      | some a => (s.scrubResult e result zeroed verified mem).scrubRelease e (result == 0) a := rfl

theorem State.showScrubs_leaves (s : State) (e : Nat) : s.showScrubs.dev e = s.dev e ∧ s.showScrubs.dom = s.dom := ⟨rfl, rfl⟩

theorem State.satFld_leaves (s : State) (f : Field) (e : Nat) : (s.satFld f 1).dev e = s.dev e ∧ (s.satFld f 1).dom = s.dom := ⟨rfl, rfl⟩

theorem State.setEngine_leaves (s : State) (d : DevSt) (e : Nat) (x : DevSt) :
    ((match d.engine with | some g => s.setEngine g {} | none => s).setDev e x).dev e = x
    ∧ ((match d.engine with | some g => s.setEngine g {} | none => s).setDev e x).dom = s.dom := by
  refine ⟨State.dev_setDev_self _ e x, ?_⟩
  split <;> rfl

theorem State.scrubResult_leaves (s : State) (e result zeroed verified mem : Nat) :
    (s.scrubResult e result zeroed verified mem).dev e = s.scrubbed e (result == 0) ∧ (s.scrubResult e result zeroed verified mem).dom = s.dom := by
  unfold State.scrubResult
  extract_lets d t u w
  have ht : t.dom = s.dom := s.keepRecord_dom _
  obtain ⟨hset, hdom⟩ := t.setEngine_leaves d e (s.scrubbed e (result == 0))
  have hw : w.dev e = s.scrubbed e (result == 0) := (State.showScrubs_leaves _ e).1.trans hset
  have hwdom : w.dom = s.dom := (State.showScrubs_leaves _ e).2.trans (hdom.trans ht)
  have hsat (f : Field) := State.satFld_leaves w f e
  split
  · exact ⟨(hsat _).1.trans hw, (hsat _).2.trans hwdom⟩
  · exact ⟨((keepsTenants_raise (w.satFld SEC_SCRUB_FAILED 1) srcSEC 2 0 0xFFFF none).dev e).trans ((hsat _).1.trans hw),
      (State.raise_dom ..).trans ((hsat _).2.trans hwdom)⟩

theorem State.scrubRelease_leaves (s : State) (e : Nat) (clean : Bool) (a : AgentRef) :
    (s.scrubRelease e clean a).dev e = s.dev e ∧ ((s.scrubRelease e clean a).agent a).scrub = none := by
  unfold State.scrubRelease
  extract_lets t u
  have ht : s.KeepsTenants t := .ite (keepsTenants_scrubMode s a _ _) (.refl s)
  have hu : s.KeepsTenants u := ht.trans ⟨rfl, rfl, rfl⟩
  have hnone : (u.agent a).scrub = none := congrArg Agent.scrub (State.agent_updAgent_self t a _)
  split
  · exact ⟨((hu.trans (keepsTenants_endComputeReset u a)).dev e), (keepsMemory_endComputeReset u a).2.2.2.trans hnone⟩
  · exact ⟨hu.dev e, hnone⟩

/-- What the end of a scrub leaves of its device, and of its agent. -/
theorem State.endScrub_leaves (s : State) (e result zeroed verified mem : Nat) :
    (s.endScrub e result zeroed verified mem).dev e = s.scrubbed e (result == 0)
    ∧ ∀ a, s.devAgent e = some a → ((s.endScrub e result zeroed verified mem).agent a).scrub = none := by
  obtain ⟨hdev, hdom⟩ := s.scrubResult_leaves e result zeroed verified mem
  have hagent : (s.scrubResult e result zeroed verified mem).devAgent e = s.devAgent e := by
    unfold State.devAgent State.refOf State.fidOf
    rw [hdom]
  rw [State.endScrub_eq, hagent]
  cases hd : s.devAgent e with
  | none => exact ⟨hdev, fun a ha => absurd ha (by simp)⟩
  | some b =>
    obtain ⟨kdev, kscrub⟩ := (s.scrubResult e result zeroed verified mem).scrubRelease_leaves e (result == 0) b
    exact ⟨kdev.trans hdev, fun a ha => by rw [← Option.some.inj ha]; exact kscrub⟩

/-! ## The start of a scrub (R345, R346) -/

/-- A scrub has its engine and its number. -/
def State.scrubStarted (s : State) (e g : Nat) : State :=
  ((({ s with sec := { s.sec with scrubSeq := s.sec.scrubSeq + 1 } } : State).setDev e { s.dev e with
    scrubWaiting := false, seqNo := s.sec.scrubSeq + 1, engine := some g, lastStatusNs := s.now, statusRaised := false, scrubStartMs := s.operMs
    dropped := 0 }).setEngine g { running := true, level := .vendor, scrubDev := some e }).showScrubs

/-- The links of a device have new keys, its key slots are empty and its compute domain is in reset. -/
def State.scrubIsolated (s : State) (e : Nat) (a : AgentRef) : State :=
  let keys := s.sec.keys.mapVals fun _ k => { k with targets := k.targets.filter fun t => !(t.1 == 2 && t.2.1 == (s.fidOf e).toNat) }
  let s : State := { s with sec := { s.sec with keys := keys } }
  let s := s.updAgent a fun x => { x with keySlots := [] }
  let s := s.forEach ((s.agent a).ports.map (·.1)) fun s p => s.rekeyLink (.agent a) p 1
  (s.scrubMode a (s.fidOf e) true).beginComputeReset a

theorem State.beginScrub_eq (s : State) (e g : Nat) : s.beginScrub e g = match (s.scrubStarted e g).devAgent e with
    | none => (s.scrubStarted e g).endScrub e 2 0 0 0
    | some a =>
      if (((s.scrubStarted e g).scrubIsolated e a).agent a).memBytes = 0 then ((s.scrubStarted e g).scrubIsolated e a).endScrub e 2 0 0 0
      else ((s.scrubStarted e g).scrubIsolated e a).updAgent a fun x =>
        { x with scrub := some { phase := 2, former := (s.dev e).former, seqNo := s.sec.scrubSeq + 1 } } := rfl

theorem State.scrubIsolated_leaves (s : State) (e : Nat) (a : AgentRef) : (s.scrubIsolated e a).dev e = s.dev e
    ∧ (s.scrubIsolated e a).sec.scrubSeq = s.sec.scrubSeq ∧ (s.scrubIsolated e a).engines = s.engines
    ∧ ((s.scrubIsolated e a).agent a).memBytes = (s.agent a).memBytes ∧ ((s.scrubIsolated e a).agent a).keySlots = []
    ∧ (s.scrubIsolated e a).jfld a JX_STATUS_COMPUTE_IN_RESET = 1 := by
  unfold State.scrubIsolated
  extract_lets keys sec t u w
  have hself : u.agent a = { s.agent a with keySlots := [] } := State.agent_updAgent_self t a _
  have hw : u.KeepsScrubs (w.scrubMode a (w.fidOf e) true) :=
    (State.KeepsScrubs.forEach (fun s p => keepsScrubs_rekeyLink s (.agent a) p 1) _ u).trans (keepsScrubs_scrubMode w a _ true)
  generalize w.scrubMode a (w.fidOf e) true = x at hw ⊢
  obtain ⟨hsec, heng, hmem, -⟩ := keepsMemory_beginComputeReset x a
  have hcore : (x.agent a).core = (u.agent a).core := hw.core a
  rw [hself] at hcore
  have hkeys : (x.agent a).keySlots = [] := (congrArg Agent.keySlots hcore).trans rfl
  have hbytes : (x.agent a).memBytes = (s.agent a).memBytes := (congrArg Agent.memBytes hcore).trans rfl
  obtain ⟨kkeys, kbit⟩ := State.beginComputeReset_leaves hkeys (Nat.mod_lt _ (by decide))
  refine ⟨?_, ?_, heng.trans hw.engines, hmem.trans hbytes, kkeys, kbit⟩
  · rw [State.dev, hsec, hw.devs]
    rfl
  · rw [hsec]
    exact hw.seq

/-- A scrub starts at an agent with memory (R346). -/
theorem State.beginScrub_agent (ha : s.devAgent e = some a) (hm : (s.agent a).memBytes ≠ 0) {t : State} (ht : s.beginScrub e g = t) :
    (t.agent a).scrub = some { phase := 2, former := (s.dev e).former, seqNo := s.sec.scrubSeq + 1 }
    ∧ (t.agent a).keySlots = [] ∧ t.jfld a JX_STATUS_COMPUTE_IN_RESET = 1 ∧ (t.dev e).scrubWaiting = false
    ∧ (t.dev e).engine = some g ∧ t.sec.scrubSeq = s.sec.scrubSeq + 1 ∧ (t.engine g).running = true ∧ (t.engine g).scrubDev = some e := by
  have hagent : (s.scrubStarted e g).devAgent e = some a := ha
  obtain ⟨hdev, hseq, heng, hmem, hkeys, hbit⟩ := (s.scrubStarted e g).scrubIsolated_leaves e a
  rw [State.beginScrub_eq, hagent] at ht
  have hne : ¬(((s.scrubStarted e g).scrubIsolated e a).agent a).memBytes = 0 := fun h0 => hm (hmem.symm.trans h0)
  have ht := (if_neg hne).symm.trans ht
  have hstart : (s.scrubStarted e g).dev e = { s.dev e with
      scrubWaiting := false, seqNo := s.sec.scrubSeq + 1, engine := some g, lastStatusNs := s.now, statusRaised := false, scrubStartMs := s.operMs
      dropped := 0 } := State.dev_setDev_self _ e _
  have hengine : (s.scrubStarted e g).engine g = { running := true, level := .vendor, scrubDev := some e } := State.engine_setEngine_self _ g _
  have hseq0 : (s.scrubStarted e g).sec.scrubSeq = s.sec.scrubSeq + 1 := rfl
  generalize (s.scrubStarted e g).scrubIsolated e a = u at ht hdev hseq heng hkeys hbit
  have hself := State.agent_updAgent_self u a fun x =>
    { x with scrub := some { phase := 2, former := (s.dev e).former, seqNo := s.sec.scrubSeq + 1 } }
  have hfinal : (u.engine g) = { running := true, level := .vendor, scrubDev := some e } := (State.engine_of_engines heng g).trans hengine
  subst ht
  refine ⟨by rw [hself], by rw [hself]; exact hkeys, ?_, ?_, ?_, hseq.trans hseq0, ?_, ?_⟩
  · exact (State.jfld_updAgent rfl _).trans hbit
  · exact (congrArg DevSt.scrubWaiting hdev).trans (by rw [hstart])
  · exact (congrArg DevSt.engine hdev).trans (by rw [hstart])
  · exact (congrArg Engine.running hfinal)
  · exact (congrArg Engine.scrubDev hfinal)

/-! ## Reports of a scrub (R347) -/

theorem execScrubStatusTimer_link (s : State) (a : AgentRef) : ∃ t, execScrubStatusTimer a s = .next t ∧ s.Link (.agent a) t := by
  unfold execScrubStatusTimer
  split
  · exact ⟨s, rfl, .refl s⟩
  · refine ⟨_, rfl, State.Link.forEach (fun u y => ?_) _ s⟩
    exact .ite (((link_setTx u _ _ _ _).trans (link_emit _ _ _)).trans (link_portSend _ _ _ _ _)) (.refl u)

theorem exec_scrubVerifyDone_some {x : AgentScrub} (h : (s.agent a).scrub = some x) (z w : Nat) {t : State}
    (ht : execScrubStatusTimer a (s.updAgent a fun g => { g with scrub := some { x with
      phase := if z == (s.agent a).memBytes && w == (s.agent a).memBytes then 4 else 5, done := w } }) = .next t) :
    exec (.scrubVerifyDone a z w) s = if (t.dev (t.nodeFid (.agent a)).localId).state = 2 then
        .next (t.endScrub (t.nodeFid (.agent a)).localId (if z == (s.agent a).memBytes && w == (s.agent a).memBytes then 0 else 1) z w
          (s.agent a).memBytes)
      else .next (t.updAgent a fun g => { g with scrub := none }) := by
  change execScrubVerifyDone a z w s = _
  unfold execScrubVerifyDone
  rw [h]
  dsimp only
  rw [ht]

theorem exec_scrubStatusMissing_eq (s : State) (e : Nat) : exec (.scrubStatusMissing e) s =
    if (s.dev e).state = 2 ∧ (s.dev e).scrubWaiting = false ∧ (s.dev e).statusRaised = false ∧ (s.dev e).lastStatusNs + 5000000 ≤ s.now then
      .next ((s.setDev e { s.dev e with statusRaised := true }).raise srcSEC 2)
    else .next s := rfl

/-- The read-back of a scrub is complete: its agent is let go, and the device is free or in quarantine. -/
theorem exec_scrubVerifyDone_results {x : AgentScrub} (h : (s.agent a).scrub = some x) (he : e = (s.nodeFid (.agent a)).localId) (z w : Nat) :
    ((s.dev e).state ≠ 2 → ∃ t, exec (.scrubVerifyDone a z w) s = .next t ∧ (t.agent a).scrub = none ∧ t.sec = s.sec)
    ∧ ((s.dev e).state = 2 → s.devAgent e = some a → ∃ t, exec (.scrubVerifyDone a z w) s = .next t ∧ (t.agent a).scrub = none
      ∧ (z = (s.agent a).memBytes → w = (s.agent a).memBytes → (t.dev e).state = 0)
      ∧ (z ≠ (s.agent a).memBytes ∨ w ≠ (s.agent a).memBytes → (t.dev e).state = 3) ∧ (t.dev e).engine = none) := by
  obtain ⟨t, ht, hlink⟩ := execScrubStatusTimer_link (s.updAgent a fun g => { g with scrub := some { x with
    phase := if z == (s.agent a).memBytes && w == (s.agent a).memBytes then 4 else 5, done := w } }) a
  have hexec := exec_scrubVerifyDone_some h z w ht
  have hsec : t.sec = s.sec := LinkOnly_sec hlink.linkOnly
  have hdom : t.dom = s.dom := hlink.linkOnly.mailOnly.dom
  have hid : (t.nodeFid (.agent a)).localId = e := by
    rw [he, State.nodeFid, State.nodeFid, hlink.jfld a (by unfold keptField Field.fits Field.apart; decide), State.jfld_updAgent rfl]
  have hdev : t.dev e = s.dev e := by rw [State.dev, hsec, State.dev]
  rw [hid] at hexec
  refine ⟨fun hst => ?_, fun hst hag => ?_⟩
  · rw [if_neg (by rw [hdev]; exact hst)] at hexec
    exact ⟨_, hexec, congrArg Agent.scrub (State.agent_updAgent_self t a _), hsec⟩
  · rw [if_pos (by rw [hdev]; exact hst)] at hexec
    obtain ⟨kdev, kscrub⟩ := t.endScrub_leaves e (if z == (s.agent a).memBytes && w == (s.agent a).memBytes then 0 else 1) z w (s.agent a).memBytes
    have hagent : t.devAgent e = some a := by
      rw [← hag]
      unfold State.devAgent State.refOf State.fidOf
      rw [hdom]
    refine ⟨_, hexec, kscrub a hagent, fun hz hw => ?_, fun hbad => ?_, ?_⟩
    · rw [kdev, State.scrubbed, if_pos (by simp [hz, hw])]
    · have hbad : ¬((if z == (s.agent a).memBytes && w == (s.agent a).memBytes then 0 else 1) == 0) = true := by
        rw [if_neg (by simpa [Classical.or_iff_not_imp_left] using hbad)]
        decide
      rw [kdev, State.scrubbed, if_neg hbad]
    · rw [kdev, State.scrubbed]

end Sys2Proof.Machine

namespace Sys2Proof
open Machine

/-- Settles O49: a scrub's start by what isolates its device, its end by the record's status, its reports by their branch. -/
theorem scrubResults : Obligations.ScrubResults := by
  intro s e g z w a p x
  refine ⟨fun h => ?_, fun hst hwait hg ha hm => ?_, fun hst hwait hg ha => ?_, fun h => ?_, fun h he => exec_scrubVerifyDone_results h he z w,
    fun h => next_congr (if_pos h), fun h he => ⟨fun hst => ?_, fun hst => ?_⟩, fun h => ?_, fun h1 h2 h3 h4 => ?_⟩
  · change execScrubStart e s = _
    unfold execScrubStart
    rcases h with h | h | h
    · exact if_neg fun hand => h hand.1
    · exact if_neg (by simp [h])
    · rw [h]
      split <;> rfl
  · refine ⟨_, ?_, State.beginScrub_agent (g := g) ha hm rfl⟩
    refine (if_pos ⟨hst, hwait⟩).trans ?_
    rw [hg]
  · refine ⟨s.beginScrub e g, ?_, ?_⟩
    · refine (if_pos ⟨hst, hwait⟩).trans ?_
      rw [hg]
    · have hagent : (s.scrubStarted e g).devAgent e = none := ha
      rw [State.beginScrub_eq, hagent]
      exact (congrArg DevSt.state ((s.scrubStarted e g).endScrub_leaves e 2 0 0 0).1).trans rfl
  · change execScrubVerifyDone a z w s = _
    unfold execScrubVerifyDone
    rw [h]
  · refine next_congr ((if_neg (by simp [h])).trans ?_)
    rw [← he]
    exact if_neg hst
  · refine next_congr ((if_neg (by simp [h])).trans ?_)
    rw [← he]
    exact if_pos hst
  · rw [exec_scrubStatusMissing_eq, if_neg]
    rintro ⟨h1, h2, h3, h4⟩
    rcases h with h | h | h | h
    · exact h h1
    · exact absurd (h.symm.trans h2) (by decide)
    · exact absurd (h.symm.trans h3) (by decide)
    · omega
  · rw [exec_scrubStatusMissing_eq, if_pos ⟨h1, h2, h3, h4⟩]

end Sys2Proof
end

section
/-! Deadlines of installs and plays, the classification of failures, and drains. -/

namespace Sys2Proof.Machine

variable {s t u : State}

/-! ## A commit that agents have not acknowledged (R155) -/

theorem exec_commitDeadline_some {i : InstallSt} (h : s.rte.install = some i) : exec .commitDeadline s =
    if i.committed = false ∨ (s.commitMissing i).isEmpty ∨ 100000 < s.nsToEpoch i.epoch then .next s
    else if i.postponements < 3 then .next (({ s with rte := { s.rte with install := some { i with
      epoch := i.epoch + 4, postponements := i.postponements + 1, commitAcks := [], unicast := [], commitNs := s.now } } } : State).sendCommit
        i.version (i.epoch + 4))
    else .next (s.commitWithout i (s.commitMissing i)) := by
  change execCommitDeadline s = _
  unfold execCommitDeadline
  rw [h]

/-- The agent counts as failed and is not admitted. -/
def State.countsFailed (s : State) (f : Fid) : Prop := (f, none) ∈ s.rte.failed ∧ ∀ k ∈ s.dom.known, k.fid = f → k.admitted = false

theorem State.treatFailed_failed (s : State) (f : Fid) : (s.treatFailed f).rte.failed
    = if s.rte.failed.contains (f, none) then s.rte.failed else s.rte.failed ++ [(f, none)] := rfl

theorem State.treatFailed_self (s : State) (f : Fid) : (s.treatFailed f).countsFailed f := by
  refine ⟨?_, fun k hk hf => ?_⟩
  · rw [s.treatFailed_failed f]
    split
    · next h => simpa using h
    · exact List.mem_append_right _ (List.mem_singleton_self _)
  · obtain ⟨x, -, rfl⟩ := List.mem_map.1 hk
    by_cases hx : x.fid = f
    · rw [if_pos hx]
    · rw [if_neg hx] at hf
      exact absurd hf hx

theorem State.treatFailed_keeps (s : State) (f : Fid) {g : Fid} (h : s.countsFailed g) : (s.treatFailed f).countsFailed g := by
  obtain ⟨hmem, hknown⟩ := h
  refine ⟨?_, fun k hk hf => ?_⟩
  · rw [s.treatFailed_failed f]
    split
    · exact hmem
    · exact List.mem_append_left _ hmem
  · obtain ⟨x, hx, rfl⟩ := List.mem_map.1 hk
    by_cases hxf : x.fid = f
    · rw [if_pos hxf]
    · rw [if_neg hxf] at hf ⊢
      exact hknown x hx hf

theorem State.countsFailed_raise {f : Fid} (h : s.countsFailed f) (src st : Nat) : (s.raise src st).countsFailed f := by
  unfold State.countsFailed
  rw [State.raise_rte, State.raise_dom]
  exact h

/-- Agents that are left out of a commit. -/
theorem State.forEach_treatFailed (l : List Fid) (s : State) {t : State} (ht : (s.forEach l fun s f => (s.treatFailed f).raise srcRTE 3) = t) :
    (∀ f, f ∈ l ∨ s.countsFailed f → t.countsFailed f) ∧ t.rte.install = s.rte.install ∧ t.engines = s.engines := by
  subst ht
  induction l generalizing s with
  | nil => exact ⟨fun f hf => hf.resolve_left List.not_mem_nil, rfl, rfl⟩
  | cons g l ih =>
    obtain ⟨hall, hinst, heng⟩ := ih ((s.treatFailed g).raise srcRTE 3)
    refine ⟨fun f hf => hall f ?_, hinst.trans ?_, heng.trans (State.raise_engines ..)⟩
    · by_cases hfg : f = g
      · rw [hfg]
        exact .inr (State.countsFailed_raise (s.treatFailed_self g) _ _)
      · exact hf.imp (fun h => (List.mem_cons.1 h).resolve_left hfg) fun h => State.countsFailed_raise (s.treatFailed_keeps g h) _ _
    · rw [State.raise_rte]
      rfl

/-! ## A play that agents have not acknowledged (R165) -/

/-- The agents a play still waits for. -/
def State.playMissing (s : State) (p : CtlPlay) : List Fid := (s.playAgents p.gambits).filter fun f => !p.acks.contains f

/-- The play goes to these agents again. -/
def State.resendPlayTo (s : State) (x : List Byte × BitVec 57 × BitVec 24) (seq : BitVec 16) (l : List Fid) : State :=
  s.forEach l fun s f => s.sendHooked f 0x25 x.1 (.play seq) x.2.1 x.2.2

/-- The play counts one resend more. -/
def State.countResend (s : State) (p : CtlPlay) : State := { s with rte := { s.rte with play := some { p with resends := p.resends + 1 } } }

theorem exec_playResendTimer_some {p : CtlPlay} (h : s.rte.play = some p) : exec .playResendTimer s =
    if 2 ≤ p.resends ∨ s.now < p.emittedNs + 100000 * (p.resends + 1) then .next s
    else .next ((s.countResend p).resendPlayTo (s.playParts p.gambits p.result p.swapEpoch p.seq) p.seq (s.playMissing p)) := by
  change execPlayResendTimer s = _
  unfold execPlayResendTimer
  rw [h]
  rfl

theorem State.sendHooked_regs (s : State) (d : Fid) (typ : BitVec 8) (l : List Byte) (k : AckKind) (addr : BitVec 57) (aux : BitVec 24) :
    (s.sendHooked d typ l k addr aux).regs = s.regs := by
  unfold State.sendHooked
  exact (LinkOnly_regs (linkOnly_sendPkt _ _ _)).trans rfl

theorem State.resendPlayTo_leaves (x : List Byte × BitVec 57 × BitVec 24) (seq : BitVec 16) (l : List Fid) (s : State) :
    (s.resendPlayTo x seq l).rte = s.rte ∧ (s.resendPlayTo x seq l).regs = s.regs ∧ (s.resendPlayTo x seq l).engines = s.engines := by
  have hmail : s.MailOnly (s.resendPlayTo x seq l) := .forEach (fun s f => mailOnly_sendHooked s f _ _ _ _ _) l s
  refine ⟨hmail.rte, ?_, hmail.engines⟩
  clear hmail
  induction l generalizing s with
  | nil => rfl
  | cons f l ih => exact (ih (s.sendHooked f 0x25 x.1 (.play seq) x.2.1 x.2.2)).trans (s.sendHooked_regs _ _ _ _ _ _)

/-! ## The classification of failures (R163) -/

/-- The reports, their time and the failed elements stand. -/
def State.KeepsFaults (s t : State) : Prop := t.rte.classNs = s.rte.classNs ∧ t.rte.reports = s.rte.reports ∧ t.rte.failed = s.rte.failed

theorem State.KeepsFaults.refl (s : State) : s.KeepsFaults s := ⟨rfl, rfl, rfl⟩

theorem State.KeepsFaults.trans (h : s.KeepsFaults t) (g : t.KeepsFaults u) : s.KeepsFaults u :=
  ⟨g.1.trans h.1, g.2.1.trans h.2.1, g.2.2.trans h.2.2⟩

theorem keepsFaults_of_rte (h : t.rte = s.rte) : s.KeepsFaults t := by
  refine ⟨?_, ?_, ?_⟩
  · rw [h]
  · rw [h]
  · rw [h]

theorem State.KeepsFaults.forEach {α : Type} {f : State → α → State} (h : ∀ (s : State) x, s.KeepsFaults (f s x)) (l : List α) (s : State) :
    s.KeepsFaults (s.forEach l f) := by
  induction l generalizing s with
  | nil => exact .refl s
  | cons x l ih => exact (h s x).trans (ih (f s x))

theorem State.inboxPut_rte (s : State) (e sev : Nat) (m : List Byte) : (s.inboxPut e sev m).rte = s.rte := by
  unfold State.inboxPut
  dsimp only
  split <;> rfl

theorem State.completeTag_rte (s : State) (e tag status : Nat) (r : Word64) : (s.completeTag e tag status r).rte = s.rte := by
  unfold State.completeTag
  split
  · exact State.inboxPut_rte _ _ _ _
  · rfl

theorem keepsFaults_finishTag (s : State) (e n i status : Nat) (r : Word64) : s.KeepsFaults (s.finishInstall (.tag e n i) status r) := by
  unfold State.finishInstall
  dsimp only
  split
  · exact keepsFaults_of_rte (State.completeTag_rte _ _ _ _ _)
  · exact keepsFaults_of_rte (State.completeTag_rte _ _ _ _ _)

theorem keepsFaults_withdrawInstall (s : State) : s.KeepsFaults s.withdrawInstall := by
  unfold State.withdrawInstall
  split
  · exact .refl s
  · next i _ =>
    have hdrop : s.KeepsFaults s.dropInstall := ⟨rfl, rfl, rfl⟩
    dsimp only
    split
    · exact hdrop.trans (keepsFaults_finishTag _ _ _ _ _ _)
    · exact hdrop.trans ⟨rfl, rfl, rfl⟩

theorem keepsFaults_emitPlay (s : State) (l : List (BitVec 24)) (firstNs want : Nat) : s.KeepsFaults (s.emitPlay l firstNs want) := by
  have hmail (v : State) (typ : BitVec 8) (b : List Byte) (k : Option AckKind) (addr : BitVec 57) (aux : BitVec 24) :
      v.KeepsFaults ((v.mirrorOut 9).broadcast typ b k addr aux) :=
    keepsFaults_of_rte ((mailOnly_mirrorOut v 9).trans (mailOnly_broadcast _ _ _ _ _ _)).rte
  unfold State.emitPlay
  extract_lets v old ids swap swap' seq result p x rte w y
  have hv : s.KeepsFaults v := keepsFaults_withdrawInstall s
  have hw : v.KeepsFaults w := ⟨rfl, rfl, rfl⟩
  have hy : w.KeepsFaults y := ⟨rfl, rfl, rfl⟩
  exact ((hv.trans hw).trans hy).trans (hmail y _ _ _ _ _)

/-- What was reported is classified and no longer reported. -/
def State.classifiedAll (s : State) : State :=
  { s with rte := { s.rte with classNs := none, reports := [], failed := s.rte.failed ++ s.classified.filter fun x => !s.rte.failed.contains x } }

theorem State.classifiedAll_failed (s : State) {y : Fid × Option Nat} (h : y ∈ s.classified) : y ∈ s.classifiedAll.rte.failed := by
  by_cases hy : y ∈ s.rte.failed
  · exact List.mem_append_left _ hy
  · exact List.mem_append_right _ (List.mem_filter.2 ⟨h, by simpa using hy⟩)

/-- The figures of the footprints that failures touch lapse. -/
def State.lapseFootprints (s : State) (l : List (Fid × Option Nat)) : State := s.forEach l fun s x =>
  if (s.sch.admitted.any fun a => s.inFootprint a x) || s.grp.trees.any fun t => s.onTree t x then s.lapse 0x000C x.1.toNat else s

/-- Jobs that are left without a gambit are reported. -/
def State.reportUnarmed (s : State) (l : List Nat) : State := s.forEach l fun s j =>
  ((s.raise srcRTE 3 (BitVec.ofNat 16 j)).satFld RTE_FAILOVER_NO_GAMBIT 1).lapse 0x0005 j

/-- The gambits that were selected are played, or wait for a manual play. -/
def State.playSelected (s : State) (l : List (BitVec 24)) (first : Nat) : State :=
  if l.isEmpty then s
  else if s.fld RTE_FAILOVER_AUTO_PLAY = 1 then s.emitPlay l first
  else { s with rte := { s.rte with selected := s.rte.selected ++ l, selectedNs := some (s.rte.selectedNs.getD first) } }

theorem State.closeClassification_some {x : Nat} (h : s.rte.classNs = some x) : s.closeClassification
    = ((s.classifiedAll.lapseFootprints s.classified).reportUnarmed
        ((s.classifiedAll.lapseFootprints s.classified).selection s.classified).2).playSelected
          ((s.classifiedAll.lapseFootprints s.classified).selection s.classified).1 x := by
  unfold State.closeClassification
  rw [h]
  rfl

theorem keepsFaults_lapseFootprints (s : State) (l : List (Fid × Option Nat)) : s.KeepsFaults (s.lapseFootprints l) := by
  refine State.KeepsFaults.forEach (fun s x => ?_) _ _
  split
  · exact keepsFaults_of_rte (State.lapse_rte ..)
  · exact .refl s

theorem keepsFaults_reportUnarmed (s : State) (l : List Nat) : s.KeepsFaults (s.reportUnarmed l) := by
  refine State.KeepsFaults.forEach (fun s j => keepsFaults_of_rte ?_) _ _
  rw [State.lapse_rte, State.satFld_rte, State.raise_rte]

theorem keepsFaults_playSelected (s : State) (l : List (BitVec 24)) (first : Nat) : s.KeepsFaults (s.playSelected l first) := by
  unfold State.playSelected
  split
  · exact .refl s
  · split
    · exact keepsFaults_emitPlay s l first 0
    · exact ⟨rfl, rfl, rfl⟩

/-- Lapses, events, and a play or a selection: the classification stands. -/
theorem keepsFaults_closeClassification {x : Nat} (h : s.rte.classNs = some x) : s.classifiedAll.KeepsFaults s.closeClassification := by
  rw [State.closeClassification_some h]
  exact ((keepsFaults_lapseFootprints _ _).trans (keepsFaults_reportUnarmed _ _)).trans (keepsFaults_playSelected _ _ _)

theorem exec_classificationClose_some {x : Nat} (h : s.rte.classNs = some x) : exec .classificationClose s =
    if s.now < x + 20000 then .next s else .next s.closeClassification := by
  change execClassificationClose s = _
  unfold execClassificationClose
  rw [h]

/-! ## AUTO_PLAY (R166) -/

/-- A field is what its bits say. -/
theorem Field.of_congr {f : Field} {w v : Word64} (h : ∀ i, f.lo ≤ i → i ≤ f.hi → w.getLsbD i = v.getLsbD i) (hf : f.lo ≤ f.hi) : f.of w = f.of v := by
  refine Nat.eq_of_testBit_eq fun j => ?_
  unfold Field.of
  rw [Nat.testBit_mod_two_pow, Nat.testBit_mod_two_pow, Nat.testBit_div_two_pow, Nat.testBit_div_two_pow]
  by_cases hj : j < f.hi - f.lo + 1
  · have hbit := h (j + f.lo) (by omega) (by omega)
    rw [BitVec.getLsbD, BitVec.getLsbD] at hbit
    rw [hbit]
  · simp [hj]

theorem Field.bit_of_zero {f : Field} {w : Word64} (h : f.of w = 0) {i : Nat} (hlo : f.lo ≤ i) (hhi : i ≤ f.hi) : w.getLsbD i = false := by
  have hbit : (f.of w).testBit (i - f.lo) = w.getLsbD i := by
    unfold Field.of
    rw [Nat.testBit_mod_two_pow, Nat.testBit_div_two_pow, BitVec.getLsbD, Nat.sub_add_cancel hlo]
    simp [show i - f.lo < f.hi - f.lo + 1 by omega]
  rw [← hbit, h, Nat.zero_testBit]

/-- The description of RTE_FAILOVER: AUTO_PLAY is written, NO_GAMBIT is cleared by ones. -/
def failoverDesc : RegDesc := ⟨RTE_FAILOVER, 1, 0xFFFF00000000, 1⟩

theorem regDesc_failover : regDesc RTE_FAILOVER = some failoverDesc := rfl

theorem noGambit_writeWord {v : Word64} (h : RTE_FAILOVER_NO_GAMBIT.of v = 0) (old : Word64) :
    RTE_FAILOVER_NO_GAMBIT.of (writeWord failoverDesc old v) = RTE_FAILOVER_NO_GAMBIT.of old := by
  refine Field.of_congr (fun i hlo hhi => ?_) (by decide)
  have hlo : 32 ≤ i := hlo
  have hhi : i ≤ 47 := hhi
  have hrw : failoverDesc.rw.testBit i = false := Nat.testBit_lt_two_pow (Nat.lt_of_lt_of_le (by decide) (Nat.pow_le_pow_right (by decide) hlo))
  rw [getLsbD_writeWord failoverDesc old v (by omega), hrw, Field.bit_of_zero h hlo hhi]
  simp

/-- The state with the word of RTE_FAILOVER written. -/
def State.writeFailover (s : State) (v : Word64) : State := s.setReg RTE_FAILOVER (writeWord failoverDesc (s.reg RTE_FAILOVER) v)

theorem exec_autoPlayWrite_eq {lvl : Level} (hl : lvl ≠ .tenant) (v : Word64) :
    exec (.autoPlayWrite lvl v) s = .next ((s.writeFailover v).writeAutoPlay (RTE_FAILOVER_AUTO_PLAY.of v)) := by
  cases lvl with
  | tenant => exact absurd rfl hl
  | _ => rfl

/-- AUTO_PLAY is set, and with 0 its figure has lapsed. -/
theorem State.writeAutoPlay_leaves (s : State) (n : Nat) : (s.writeAutoPlay n).fld RTE_FAILOVER_AUTO_PLAY = n % 2
    ∧ (s.writeAutoPlay n).fld RTE_FAILOVER_NO_GAMBIT = s.fld RTE_FAILOVER_NO_GAMBIT ∧ (n = 0 → (0x0004, 0) ∈ (s.writeAutoPlay n).lapses)
    ∧ (s.writeAutoPlay n).rte = s.rte ∧ (s.writeAutoPlay n).engines = s.engines := by
  have hreg : (s.writeAutoPlay n).reg RTE_FAILOVER = (s.setFld RTE_FAILOVER_AUTO_PLAY n).reg RTE_FAILOVER := by
    unfold State.writeAutoPlay
    dsimp only
    split
    · exact State.reg_lapse_ne _ _ _ (by decide)
    · exact State.reg_restore_ne _ _ _ (by decide)
  refine ⟨?_, ?_, fun h0 => ?_, ?_, ?_⟩
  · rw [State.fld, show RTE_FAILOVER_AUTO_PLAY.off = RTE_FAILOVER from rfl, hreg]
    exact State.fld_setFld_self s (f := RTE_FAILOVER_AUTO_PLAY) (by unfold Field.fits; decide) n
  · rw [State.fld, show RTE_FAILOVER_NO_GAMBIT.off = RTE_FAILOVER from rfl, hreg]
    exact State.fld_setFld_apart s (f := RTE_FAILOVER_AUTO_PLAY) (g := RTE_FAILOVER_NO_GAMBIT) (by unfold Field.fits; decide)
      (by unfold Field.fits; decide) (by unfold Field.apart; decide) n
  · rw [State.writeAutoPlay, if_pos h0, State.lapse]
    split
    · next h => simpa using h
    · rw [State.lapseRecord_lapses]
      exact List.mem_append_right _ (List.mem_singleton_self _)
  · unfold State.writeAutoPlay
    dsimp only
    split
    · exact State.lapse_rte ..
    · exact State.restore_rte ..
  · unfold State.writeAutoPlay
    dsimp only
    split
    · exact State.lapse_engines ..
    · exact State.restore_engines ..

/-! ## Drains (R7, R156) -/

theorem exec_drainQuiet_none {d : DrainElem} (h : s.drainOf d = none) : exec (.drainQuiet d) s = .next (s.startDrain d) := by
  change execDrainQuiet d s = _
  unfold execDrainQuiet
  rw [h]

theorem exec_drainQuiet_some {d : DrainElem} {x : Drain} (h : s.drainOf d = some x) : exec (.drainQuiet d) s =
    if x.startNs.isSome ∧ s.drained d ∧ s.elemQuiet d then .next (s.setDrain { x with permitted := true }) else .next s := by
  change execDrainQuiet d s = _
  unfold execDrainQuiet
  rw [h]

theorem exec_drainTimeout_none {d : DrainElem} (h : ∀ x, s.drainOf d = some x → x.startNs = none) : exec (.drainTimeout d) s = .next s := by
  change execDrainTimeout d s = _
  unfold execDrainTimeout
  cases hd : s.drainOf d with
  | none => rfl
  | some x =>
    dsimp only
    rw [h x hd]

theorem exec_drainTimeout_started {d : DrainElem} {x : Drain} {b : Nat} (h : s.drainOf d = some x) (hb : x.startNs = some b) :
    exec (.drainTimeout d) s = if x.permitted ∨ x.late ∨ s.now < b + 100000000 then .next s
      else .next ((s.setDrain { x with late := true }).raise srcRTE 2) := by
  change execDrainTimeout d s = _
  unfold execDrainTimeout
  rw [h]
  dsimp only
  rw [hb]

theorem State.mayDrain_iff (s : State) (d : DrainElem) : s.mayDrain d = true ↔ ∀ a ∈ s.sch.admitted, s.usesElem a.sched d = true → s.replaced a d = true := by
  rw [State.mayDrain, List.all_eq_true]
  refine forall₂_congr fun a _ => ?_
  cases s.usesElem a.sched d <;> simp

end Sys2Proof.Machine

namespace Sys2Proof
open Machine

/-- Settles O42: each deadline by its branch, the classification by what keeps it. -/
theorem failoverResults : Obligations.FailoverResults := by
  intro s i p lvl v d
  refine ⟨fun h => ?_, fun h => ?_, fun h => ?_, fun h => ?_, fun h => ?_, fun x h hnow => ?_, fun x h hnow => ?_, rfl, fun hl => ?_, fun h => ?_, fun x h => ?_⟩
  · change execCommitDeadline s = _
    unfold execCommitDeadline
    rw [h]
  · rw [exec_commitDeadline_some h]
    refine ⟨fun hw => if_pos ?_, fun hc hm hns hp => ?_, fun hc hm hns hp => ?_⟩
    · exact hw.imp_right fun hw => hw.imp_left List.isEmpty_iff.2
    · rw [if_neg (by simp [hc, hm]; omega), if_pos hp]
    · rw [if_neg (by simp [hc, hm]; omega), if_neg (by omega)]
      obtain ⟨hall, hinst, heng⟩ := State.forEach_treatFailed (s.commitMissing i)
        { s with rte := { s.rte with install := some { i with silent := i.silent ++ s.commitMissing i } } } rfl
      exact ⟨_, rfl, fun f hf => hall f (.inl hf), hinst, heng⟩
  · change execPlayResendTimer s = _
    unfold execPlayResendTimer
    rw [h]
  · rw [exec_playResendTimer_some h]
    refine ⟨fun hw => if_pos hw, fun hr hnow => ?_⟩
    rw [if_neg (by omega)]
    obtain ⟨hrte, hregs, heng⟩ := State.resendPlayTo_leaves (s.playParts p.gambits p.result p.swapEpoch p.seq) p.seq (s.playMissing p) (s.countResend p)
    refine ⟨_, rfl, hrte, hregs, heng, fun hall => ?_⟩
    have hnil : s.playMissing p = [] := List.filter_eq_nil_iff.2 fun f hf => by simpa using hall f hf
    rw [hnil]
    rfl
  · change execClassificationClose s = _
    unfold execClassificationClose
    rw [h]
  · rw [exec_classificationClose_some h, if_pos hnow]
  · rw [exec_classificationClose_some h, if_neg (by omega)]
    obtain ⟨h1, h2, h3⟩ := keepsFaults_closeClassification h
    exact ⟨_, rfl, h1, h2, fun y hy => by rw [h3]; exact s.classifiedAll_failed hy⟩
  · obtain ⟨h1, h2, h3, h4, h5⟩ := (s.writeFailover v).writeAutoPlay_leaves (RTE_FAILOVER_AUTO_PLAY.of v)
    refine ⟨_, exec_autoPlayWrite_eq hl v, h1.trans (Nat.mod_mod _ _), fun h0 => h2.trans ?_, h3, h4, h5⟩
    have hreg : (s.writeFailover v).reg RTE_FAILOVER = writeWord failoverDesc (s.reg RTE_FAILOVER) v := State.reg_setReg_self s RTE_FAILOVER _
    rw [State.fld, State.fld, show RTE_FAILOVER_NO_GAMBIT.off = RTE_FAILOVER from rfl, hreg]
    exact noGambit_writeWord h0 _
  · rw [exec_drainQuiet_none h, State.startDrain]
    refine ⟨exec_drainTimeout_none fun x hx => by rw [h] at hx; exact absurd hx (by simp), fun a ha hu hr => ?_, fun hall => ⟨fun hn => ?_, fun hn => ?_⟩⟩
    · rw [if_neg]
      intro hmay
      have hrep := (s.mayDrain_iff d).1 hmay a ha hu
      rw [hr] at hrep
      exact absurd hrep (by decide)
    · rw [if_pos ((s.mayDrain_iff d).2 hall), if_pos (List.isEmpty_iff.2 hn)]
    · rw [if_pos ((s.mayDrain_iff d).2 hall), if_neg (by simpa using hn)]
  · rw [exec_drainQuiet_some h]
    refine ⟨fun hb => ⟨if_neg (by simp [hb]), exec_drainTimeout_none fun y hy => ?_⟩, fun hq => if_neg ?_, fun hb hd hq => if_pos ⟨Option.isSome_iff_ne_none.2 hb, hd, hq⟩, fun b hb => ?_⟩
    · rw [h] at hy
      rw [← Option.some.inj hy]
      exact hb
    · rintro ⟨-, h1, h2⟩
      rcases hq with hq | hq
      · exact absurd (hq.symm.trans h1) (by decide)
      · exact absurd (hq.symm.trans h2) (by decide)
    · rw [exec_drainTimeout_started h hb]
      exact ⟨fun hw => if_pos hw, fun h1 h2 h3 => if_neg (by simp [h1, h2]; omega)⟩

end Sys2Proof
end

section
/-! Port sleep, lane wakes and their grants. -/

namespace Sys2Proof.Machine

variable {s t u : State} {n : Node} {port : Nat}

/-! ## What frames leave of the state of ports -/

/-- Every port of the node is in the state it was in. -/
def State.KeepsPorts (n : Node) (s t : State) : Prop := ∀ q, (t.port n q).state = (s.port n q).state

theorem State.KeepsPorts.refl (s : State) : s.KeepsPorts n s := fun _ => rfl

theorem State.KeepsPorts.trans (h : s.KeepsPorts n t) (g : t.KeepsPorts n u) : s.KeepsPorts n u := fun q => (g q).trans (h q)

theorem State.KeepsPorts.forEach {α : Type} {f : State → α → State} (h : ∀ (s : State) x, s.KeepsPorts n (f s x)) (l : List α) (s : State) :
    s.KeepsPorts n (s.forEach l f) := by
  induction l generalizing s with
  | nil => exact .refl s
  | cons x l ih => exact (h s x).trans (ih (f s x))

theorem keepsPorts_setPort (s : State) (n : Node) (p : Nat) {x : PortSt} (hx : x.state = (s.port n p).state) : s.KeepsPorts n (s.setPort n p x) := by
  intro q
  by_cases h : q = p
  · rw [h, State.port_setPort_self, hx]
  · rw [State.port_setPort_ne s n x h]

theorem State.port_emit (s : State) (o : Out) (n : Node) (p : Nat) : (s.emit o).port n p = s.port n p := by cases n <;> rfl

theorem State.port_outs (s : State) (l : List Out) (n : Node) (p : Nat) : ({ s with out := l } : State).port n p = s.port n p := by cases n <;> rfl

theorem PortSt.start_state (x : PortSt) (now : Nat) (h : Header) : (x.start now h).state = x.state := by
  unfold PortSt.start
  dsimp only
  split
  · split <;> rfl
  · rfl

theorem PortSt.free_state (x : PortSt) (h : Header) (w : Bool) : (x.free h w).state = x.state := by
  unfold PortSt.free
  split
  · rfl
  · split
    · rfl
    · split <;> rfl

theorem PortSt.pump_state (now : Nat) (o : Option Nat) (k : Nat) (x : PortSt) : (PortSt.pump now o k x).1.state = x.state := by
  induction k generalizing x with
  | zero => rfl
  | succ k ih =>
    unfold PortSt.pump
    split
    · rfl
    · next q _ => exact (ih _).trans (x.start_state now q.pkt.hdr)

theorem keepsPorts_startFrame (s : State) (n : Node) (p : Nat) (k : Packet) : s.KeepsPorts n (s.startFrame n p k) := by
  intro q
  refine (congrArg PortSt.state (State.port_emit _ _ n q)).trans ?_
  exact keepsPorts_setPort s n p (PortSt.start_state _ _ _) q

theorem keepsPorts_sendCredit (s : State) (n : Node) (p : Nat) : s.KeepsPorts n (s.sendCredit n p) := by
  unfold State.sendCredit
  dsimp only
  split
  · exact .refl s
  · split
    · have hset := keepsPorts_setPort s n p (x := { s.port n p with lastCreditNs := s.nodeNow n }) rfl
      exact hset.trans (keepsPorts_startFrame _ n p _)
    · exact keepsPorts_setPort s n p rfl

theorem keepsPorts_freeUnits (s : State) (n : Node) (p : Nat) (h : Header) : s.KeepsPorts n (s.freeUnits n p h) := by
  have hfree := keepsPorts_setPort s n p (PortSt.free_state (s.port n p) h (s.pacing n))
  have hreturn (u : State) : u.KeepsPorts n (u.returnCredit n p) := by
    unfold State.returnCredit
    dsimp only
    split
    · exact keepsPorts_sendCredit u n p
    · exact .refl u
  exact hfree.trans (hreturn _)

theorem keepsPorts_recordSent (s : State) (n : Node) (p : Nat) (l : List Sent) : s.KeepsPorts n (s.recordSent n p l) := by
  have hout (v : List Out) : s.KeepsPorts n { s with out := v } := fun q => congrArg PortSt.state (s.port_outs v n q)
  refine (hout _).trans (State.KeepsPorts.forEach (fun s t => ?_) l _)
  split
  · exact keepsPorts_freeUnits s n _ _
  · exact .refl s

theorem keepsPorts_pumpPort (s : State) (n : Node) (p : Nat) : s.KeepsPorts n (s.pumpPort n p) :=
  (keepsPorts_setPort s n p (PortSt.pump_state _ _ _ _)).trans (keepsPorts_recordSent _ n p _)

theorem State.port_showNodePorts (s : State) (n : Node) (p : Nat) : (s.showNodePorts n).port n p = s.port n p := by
  cases n with
  | ctl => rfl
  | agent a =>
    obtain ⟨j, hj⟩ := State.agent_setJfld s a JX_STATUS_PORTS_UP ((s.agent a).ports.countIf fun _ x => x.state == 2 || x.state == 3)
    exact congrArg (fun g => g.ports.getD p {}) hj

theorem State.sleepPort_state (s : State) (n : Node) (p : Nat) : ((s.sleepPort n p).port n p).state = 6 := by
  rw [State.sleepPort, State.port_showNodePorts, State.port_setPort_self]

theorem State.sleepPort_engines (s : State) (n : Node) (p : Nat) : (s.sleepPort n p).engines = s.engines := by
  cases n <;> rfl

/-- The answer to a request to sleep leaves on the port it came over. -/
def State.answerSleep (s : State) (n : Node) (port : Nat) (p : Packet) (typ : BitVec 8) (aux : BitVec 24) : State :=
  s.originateOn n port (answerPkt (s.nodeFid n) p.hdr typ p.hdr.seq aux)

theorem exec_sleep_eq (s : State) (n : Node) (port : Nat) (p : Packet) : exec (.sleep n port p) s =
    if p.crcOk = false then .next (s.answerSleep n port p 0x09 0x01)
    else if s.maySleep n port then .next (((s.recordSeq n p.hdr).answerSleep n port p 0x08 0).sleepPort n port)
    else .next ((s.recordSeq n p.hdr).answerSleep n port p 0x09 0x09) := rfl

theorem State.answerSleep_recordSeq (s : State) (n : Node) (port : Nat) (p : Packet) (typ : BitVec 8) (aux : BitVec 24) :
    (s.recordSeq n p.hdr).answerSleep n port p typ aux
      = (s.recordSeq n p.hdr).originateOn n port (answerPkt (s.nodeFid n) p.hdr typ p.hdr.seq aux) := by
  have hid : (s.recordSeq n p.hdr).nodeFid n = s.nodeFid n := by
    cases n with
    | ctl => rfl
    | agent a => exact congrArg (fun x => BitVec.ofNat 32 x) ((link_recordSeq s (.agent a) p.hdr).jfld a
        (by unfold keptField Field.fits Field.apart; decide))
  rw [State.answerSleep, hid]

/-! ## Wakes (R431, R432) -/

/-- The request a port queues. -/
def State.newWake (s : State) (port c : Nat) : WakeReq :=
  { port := port, cls := c, order := s.pwr.wakeOrder
    lanes := if (s.port .ctl port).state = 6 then (s.port .ctl port).lanes else (s.port .ctl port).planned }

theorem State.queueWake_new (hr : ∀ r ∈ s.pwr.resets, r.1 ≠ 15 + port / 3) (hw : ∀ x ∈ s.pwr.wakeQ, x.port ≠ port) (c : Nat) :
    s.queueWake port c = ({ s with pwr := { s.pwr with wakeOrder := s.pwr.wakeOrder + 1, wakeQ := s.pwr.wakeQ ++ [s.newWake port c] } } : State).showWakes := by
  unfold State.queueWake
  have h1 : (s.pwr.resets.any fun x => x.1 == 15 + port / 3) = false := List.any_eq_false.2 fun x hx => by simpa using hr x hx
  have h2 : (s.pwr.wakeQ.any fun w => w.port == port) = false := List.any_eq_false.2 fun x hx => by simpa using hw x hx
  simp only [h1, h2, Bool.false_eq_true, if_false]
  rfl

theorem nextWake_single {w : WakeReq} (h : w.port = port) : nextWake [w] (railGroup port) = some w := by
  subst h
  simp [nextWake]

/-- A request that is granted. -/
def State.grantWake (s : State) (group : Nat) (w : WakeReq) : State :=
  ({ s with pwr := { s.pwr with
    wakeQ := s.pwr.wakeQ.filter fun x => x.port != w.port
    grants := (s.pwr.grants.filter fun g => decide (s.tick < g.2.1 + 391)) ++ [(group, s.tick, w.lanes)]
    waking := s.pwr.waking ++ [w.port] } } : State).showWakes.satFld PWR_WAKE_STATUS_GRANTED 1

theorem State.grantWakes_next {group : Nat} {w : WakeReq} (h : nextWake s.pwr.wakeQ group = some w) (k : Nat) : s.grantWakes group (k + 1) =
    if s.fld PWR_WAKE_CFG_WAKE_LANES < s.lanesGranted group + w.lanes then
      if w.deferred then s
      else ({ s with pwr := { s.pwr with wakeQ := s.pwr.wakeQ.map fun (x : WakeReq) => if x.port = w.port then { x with deferred := true } else x } } :
        State).satFld PWR_WAKE_STATUS_DEFERRED 1
    else (s.grantWake group w).grantWakes group k := by
  rw [State.grantWakes, h]
  rfl

theorem State.grantWakes_none {group : Nat} (h : s.pwr.wakeQ = []) (k : Nat) : s.grantWakes group k = s := by
  cases k with
  | zero => rfl
  | succ k =>
    rw [State.grantWakes, h]
    rfl

theorem State.grantWake_leaves (s : State) (group : Nat) (w : WakeReq) : (s.grantWake group w).pwr.wakeQ = s.pwr.wakeQ.filter (fun x => x.port != w.port)
    ∧ w.port ∈ (s.grantWake group w).pwr.waking ∧ (group, s.tick, w.lanes) ∈ (s.grantWake group w).pwr.grants
    ∧ (s.grantWake group w).ports = s.ports ∧ (s.grantWake group w).out = s.out :=
  ⟨rfl, List.mem_append_right _ (List.mem_singleton_self _), List.mem_append_right _ (List.mem_singleton_self _), rfl, rfl⟩

theorem exec_wakeGrant_eq (s : State) (g : Nat) : exec (.wakeGrant g) s = .next (s.grantWakes g (s.pwr.wakeQ.length + 1)) := rfl

/-- The port whose lanes are awake. -/
def State.wokenCtl (s : State) (port : Nat) : State :=
  let s : State := { s with pwr := { s.pwr with waking := s.pwr.waking.filter (· != port) } }
  (s.setPort .ctl port (s.port .ctl port).wake).showPorts

theorem exec_wakeComplete_eq (s : State) (port : Nat) : exec (.wakeComplete port) s =
    if s.pwr.waking.contains port = false then .next s else .next ((s.wokenCtl port).pumpPort .ctl port) := rfl

theorem State.wokenCtl_leaves (s : State) (port : Nat) : (s.wokenCtl port).port .ctl port = (s.port .ctl port).wake
    ∧ (s.wokenCtl port).pwr.waking = s.pwr.waking.filter (· != port) := by
  refine ⟨?_, rfl⟩
  exact State.port_setPort_self { s with pwr := { s.pwr with waking := s.pwr.waking.filter (· != port) } } .ctl port _

end Sys2Proof.Machine

namespace Sys2Proof
open Machine

/-- Settles O36: sleep by the branches of its frames, wakes by the queue's, a woken port by what frames leave of its state. -/
theorem sleepAndWakeResults : Obligations.SleepAndWakeResults := by
  intro s n port p cls w
  refine ⟨fun h => if_pos h, fun hm ha u hu => ⟨?_, ?_, ?_⟩, fun st ha hq => ?_, fun h => ?_, fun h hm => ?_, fun h hm => ?_, fun h => if_pos h,
    fun h hr hw => ?_, fun h => ?_, fun h hp hl => ?_, fun h hp hd hl => ?_, fun h => ?_, fun h => ?_⟩
  · subst hu
    exact if_neg (by simp [hm, ha])
  · rw [hu]
    exact LinkOnly_regs (linkOnly_sendPkt s n _ _ _)
  · rw [hu]
    exact LinkOnly_engines (linkOnly_sendPkt s n _ _ _)
  · by_cases h0 : st = 0
    · rw [if_pos h0]
      exact if_pos ⟨h0, ha, by rw [hq]; rfl⟩
    · rw [if_neg h0]
      exact if_neg fun hand => h0 hand.1
  · rw [exec_sleep_eq, if_pos h, State.answerSleep]
  · rw [exec_sleep_eq, if_neg (by simp [h]), if_neg (by simp [hm]), State.answerSleep_recordSeq]
  · rw [exec_sleep_eq, if_neg (by simp [h]), if_pos hm, State.answerSleep_recordSeq]
    refine ⟨_, rfl, State.sleepPort_state _ n port, rfl, ?_⟩
    rw [State.sleepPort_engines]
    exact LinkOnly_engines (linkOnly_trans (linkOnly_recordSeq s n p.hdr) (linkOnly_originateOn _ n port _))
  · refine ⟨_, s.newWake port (wakeCode cls), (if_neg (by simp [h])).trans (congrArg Host.Outcome.next (State.queueWake_new hr hw (wakeCode cls))), rfl, rfl, rfl, rfl, rfl, rfl⟩
  · rw [exec_wakeGrant_eq, State.grantWakes_none h]
  · have hnext : nextWake s.pwr.wakeQ (railGroup port) = some w := by rw [h, nextWake_single hp]
    obtain ⟨hq, hwaking, hgrants, hports, hout⟩ := s.grantWake_leaves (railGroup port) w
    have hempty : (s.grantWake (railGroup port) w).pwr.wakeQ = [] := by
      rw [hq, h]
      simp
    rw [exec_wakeGrant_eq, State.grantWakes_next hnext, if_neg (by omega), State.grantWakes_none hempty]
    exact ⟨_, rfl, hempty, hp ▸ hwaking, hgrants, hports, hout⟩
  · have hnext : nextWake s.pwr.wakeQ (railGroup port) = some w := by rw [h, nextWake_single hp]
    rw [exec_wakeGrant_eq, State.grantWakes_next hnext, if_pos hl, if_neg (by simp [hd])]
    refine ⟨_, rfl, ?_, rfl, rfl⟩
    rw [State.satFld_pwr, h]
    simp
  · rw [exec_wakeComplete_eq, if_pos (by simpa using h)]
  · rw [exec_wakeComplete_eq, if_neg (by simpa using h)]
    obtain ⟨hport, hwaking⟩ := s.wokenCtl_leaves port
    refine ⟨_, rfl, ?_, fun h6 => ?_⟩
    · rw [LinkOnly_pwr (linkOnly_pumpPort _ .ctl port), hwaking]
      simp
    · rw [keepsPorts_pumpPort, hport, PortSt.wake, if_pos h6]

end Sys2Proof
end

section
/-! The ledger's writer and its flash copies, and what agents report to the controller. -/

namespace Sys2Proof.Machine

variable {s t u : State}

/-! ## What flash copies leave (R389) -/

/-- The ring, the records that wait, what leaves, and every register but LED_FLASH stand. -/
structure State.KeepsRing (s t : State) : Prop where
  ring : t.led.ring = s.led.ring
  buffer : t.led.buffer = s.led.buffer
  out : t.out = s.out
  reg : ∀ off, off ≠ LED_FLASH → t.reg off = s.reg off

theorem State.KeepsRing.refl (s : State) : s.KeepsRing s := ⟨rfl, rfl, rfl, fun _ _ => rfl⟩

theorem State.KeepsRing.trans (h : s.KeepsRing t) (g : t.KeepsRing u) : s.KeepsRing u :=
  ⟨g.ring.trans h.ring, g.buffer.trans h.buffer, g.out.trans h.out, fun off ho => (g.reg off ho).trans (h.reg off ho)⟩

theorem State.KeepsRing.fld (h : s.KeepsRing t) {f : Field} (hf : f.off ≠ LED_FLASH) : t.fld f = s.fld f := by
  rw [State.fld, State.fld, h.reg f.off hf]

theorem keepsRing_showLag (s : State) : s.KeepsRing s.showLag := ⟨rfl, rfl, rfl, fun _ ho => s.reg_setFld_off ho _⟩

theorem keepsRing_queueFlash (s : State) (r : LedgerRec) : s.KeepsRing (s.queueFlash r) := by
  unfold State.queueFlash
  split
  · exact .refl s
  · have hq : s.KeepsRing { s with led := { s.led with flashQ := s.led.flashQ ++ [r.seq] } } := ⟨rfl, rfl, rfl, fun _ _ => rfl⟩
    exact hq.trans (keepsRing_showLag _)

theorem keepsRing_closeRecord (s : State) (r : LedgerRec) : s.KeepsRing (s.closeRecord r) := by
  unfold State.closeRecord
  extract_lets led t
  have ht : s.KeepsRing t := ⟨rfl, rfl, rfl, fun _ _ => rfl⟩
  split
  · exact ht.trans (keepsRing_queueFlash t r)
  · exact ht

theorem keepsRing_overwrite (s : State) (i : Nat) : s.KeepsRing (s.overwrite i) := by
  unfold State.overwrite
  split
  · exact .refl s
  · extract_lets led t
    have ht : s.KeepsRing t := ⟨rfl, rfl, rfl, fun _ _ => rfl⟩
    split
    · next r _ _ _ =>
      have hq : t.KeepsRing { t with led := { t.led with flashQ := t.led.flashQ.filter (· != r.seq) } } := ⟨rfl, rfl, rfl, fun _ _ => rfl⟩
      have hmissed (v : State) : v.KeepsRing (v.satFld LED_FLASH_MISSED 1) := ⟨rfl, rfl, rfl, fun _ ho => v.reg_setFld_off ho _⟩
      exact ((ht.trans hq).trans (hmissed _)).trans (keepsRing_showLag _)
    · exact ht

/-! ## Records that are written (R384 to R387, R393) -/

theorem State.fld_setFld_seq (s : State) (n : Nat) : (s.setFld LED_SEQ_NEXT_SEQ n).fld LED_SEQ_NEXT_SEQ = n % 2 ^ 64 :=
  State.fld_setFld_self s (f := LED_SEQ_NEXT_SEQ) (by unfold Field.fits; decide) n

/-- What is closed and overwritten before a new record. -/
def State.roomFor (s : State) (r : LedgerRec) : State :=
  (match s.newestRec r.origin r.source with
    | some o => if (s.led.mergedNs.get o.seq).isSome then s.closeRecord o else s
    | none => s).overwrite (s.fld LED_SEQ_NEXT_SEQ % 1048576)

theorem keepsRing_roomFor (s : State) (r : LedgerRec) : s.KeepsRing (s.roomFor r) := by
  unfold State.roomFor
  split
  · split
    · exact (keepsRing_closeRecord s _).trans (keepsRing_overwrite _ _)
    · exact keepsRing_overwrite s _
  · exact keepsRing_overwrite s _

/-- The record as it is numbered. -/
def State.numbered (s : State) (r : LedgerRec) : LedgerRec := { r with seq := s.fld LED_SEQ_NEXT_SEQ, pips := s.pipsOf r }

/-- A record joins the ring under its number. -/
def State.putRing (s : State) (n : Nat) (r : LedgerRec) : State :=
  { s with led := { s.led with ring := s.led.ring.set (n % 1048576) r, mergedNs := s.led.mergedNs.set n s.now } }

theorem State.writeNew_eq (s : State) (r : LedgerRec) : s.writeNew r = ((((s.roomFor (s.numbered r)).putRing (s.fld LED_SEQ_NEXT_SEQ)
    (s.numbered r)).setFld LED_SEQ_NEXT_SEQ (s.fld LED_SEQ_NEXT_SEQ + 1)).satFld LED_COUNT_RECORDS 1).queueFlash (s.numbered r) := rfl

theorem State.putRing_setFlds (s : State) (n v : Nat) (r : LedgerRec) {w : State}
    (hw : ((s.putRing n r).setFld LED_SEQ_NEXT_SEQ v).satFld LED_COUNT_RECORDS 1 = w) : w.led.ring = s.led.ring.set (n % 1048576) r
    ∧ w.led.buffer = s.led.buffer ∧ w.out = s.out ∧ w.fld LED_SEQ_NEXT_SEQ = v % 2 ^ 64 := by
  subst hw
  refine ⟨rfl, rfl, rfl, ?_⟩
  refine (State.fld_setFld_off ((s.putRing n r).setFld LED_SEQ_NEXT_SEQ v) (f := LED_COUNT_RECORDS) (g := LED_SEQ_NEXT_SEQ) (by decide) _).trans ?_
  exact State.fld_setFld_seq _ v

/-- A new record stands in the ring at the index of its number. -/
theorem State.writeNew_leaves (s : State) (r : LedgerRec) {n : Nat} (hn : n = s.fld LED_SEQ_NEXT_SEQ) {t : State} (ht : s.writeNew r = t) :
    (∃ x, t.led.ring.get (n % 1048576) = some x ∧ x = { r with seq := n, pips := x.pips }) ∧ t.fld LED_SEQ_NEXT_SEQ = (n + 1) % 2 ^ 64
    ∧ t.led.buffer = s.led.buffer ∧ (∀ i, i ≠ n % 1048576 → t.led.ring.get i = s.led.ring.get i) ∧ t.out = s.out := by
  have hroom := keepsRing_roomFor s (s.numbered r)
  obtain ⟨hring, hbuf, hout, hseq⟩ := (s.roomFor (s.numbered r)).putRing_setFlds n (n + 1) (s.numbered r) rfl
  have hflash := keepsRing_queueFlash ((((s.roomFor (s.numbered r)).putRing n (s.numbered r)).setFld LED_SEQ_NEXT_SEQ (n + 1)).satFld
    LED_COUNT_RECORDS 1) (s.numbered r)
  rw [State.writeNew_eq, ← hn] at ht
  rw [ht] at hflash
  have hfinal : t.led.ring = s.led.ring.set (n % 1048576) (s.numbered r) := by rw [hflash.ring, hring, hroom.ring]
  refine ⟨⟨s.numbered r, ?_, ?_⟩, ?_, hflash.buffer.trans (hbuf.trans hroom.buffer), fun i hi => ?_, hflash.out.trans (hout.trans hroom.out)⟩
  · rw [hfinal, NMap.get_set_self]
  · rw [State.numbered, ← hn]
  · exact (hflash.fld (by decide)).trans hseq
  · rw [hfinal, NMap.get_set_ne _ _ hi]

/-- A record whose place is the ring's merges into the newest of its kind. -/
theorem State.writeMerge_leaves (s : State) (o r : LedgerRec) : (∃ x, (s.writeMerge o r).led.ring.get (o.seq % 1048576) = some x
      ∧ x.tally = o.tally + r.tally ∧ x.lastMs = r.lastMs ∧ x.seq = o.seq)
    ∧ (s.writeMerge o r).fld LED_SEQ_NEXT_SEQ = s.fld LED_SEQ_NEXT_SEQ ∧ (s.writeMerge o r).led.buffer = s.led.buffer
    ∧ (s.writeMerge o r).out = s.out :=
  ⟨⟨_, NMap.get_set_self s.led.ring _ _, rfl, rfl, rfl⟩, State.fld_setFld_off _ (by decide) _, rfl, rfl⟩

/-- A record while the ring has no copy goes to flash, or is missed (R393). -/
theorem State.writeFlash_leaves (s : State) (r : LedgerRec) : (s.writeFlash r).led.ring = s.led.ring ∧ (s.writeFlash r).led.buffer = s.led.buffer
    ∧ (s.writeFlash r).fld LED_SEQ_NEXT_SEQ = (s.fld LED_SEQ_NEXT_SEQ + 1) % 2 ^ 64
    ∧ (s.writeFlash r).led.flash = if 2 ≤ r.severity ∧ s.fld LED_FLASH_FLASH_OK = 1 then flashPush s.led.flash (s.numbered r).bytes else s.led.flash := by
  have hok : (s.setFld LED_SEQ_NEXT_SEQ (s.fld LED_SEQ_NEXT_SEQ + 1)).fld LED_FLASH_FLASH_OK = s.fld LED_FLASH_FLASH_OK :=
    State.fld_setFld_off s (by decide) _
  have hseq := s.fld_setFld_seq (s.fld LED_SEQ_NEXT_SEQ + 1)
  unfold State.writeFlash
  dsimp only
  rw [hok]
  by_cases h : 2 ≤ r.severity ∧ s.fld LED_FLASH_FLASH_OK = 1
  · rw [if_pos h, if_pos h]
    refine ⟨by rw [State.act_led]; rfl, by rw [State.act_led]; rfl, ?_, by rw [State.act_led]; rfl⟩
    rw [State.fld, State.reg, State.act_regs]
    exact hseq
  · rw [if_neg h, if_neg h]
    refine ⟨rfl, rfl, ?_, rfl⟩
    exact (State.fld_setFld_off (s.setFld LED_SEQ_NEXT_SEQ (s.fld LED_SEQ_NEXT_SEQ + 1)) (f := LED_FLASH_MISSED) (g := LED_SEQ_NEXT_SEQ) (by decide) _).trans hseq

/-- The oldest record leaves the writer's queue for its cost. -/
def State.popRecord (s : State) (l : List LedgerRec) (cost : Nat) : State :=
  ({ s with led := { s.led with buffer := l, writerNs := if l.isEmpty then 0 else s.led.writerNs - cost } } : State).showBacklog

theorem State.popRecord_leaves (s : State) (l : List LedgerRec) (cost : Nat) : (s.popRecord l cost).led.buffer = l
    ∧ (s.popRecord l cost).led.ring = s.led.ring ∧ (s.popRecord l cost).led.flash = s.led.flash ∧ (s.popRecord l cost).out = s.out
    ∧ (s.popRecord l cost).fld LED_SEQ_NEXT_SEQ = s.fld LED_SEQ_NEXT_SEQ ∧ (s.popRecord l cost).ringLost = s.ringLost
    ∧ (s.popRecord l cost).fld LED_FLASH_FLASH_OK = s.fld LED_FLASH_FLASH_OK
    ∧ ∀ r, (s.popRecord l cost).mergeTarget r = s.mergeTarget r := by
  have hapart (f : Field) (hf : f.fits) (ha : LED_STATUS_BACKLOG.apart f) : (s.popRecord l cost).fld f = s.fld f :=
    State.fld_setFld_apart { s with led := { s.led with buffer := l, writerNs := if l.isEmpty then 0 else s.led.writerNs - cost } }
      (f := LED_STATUS_BACKLOG) (by unfold Field.fits; decide) hf ha _
  have hoff (f : Field) (hf : f.off ≠ LED_STATUS_BACKLOG.off) : (s.popRecord l cost).fld f = s.fld f :=
    State.fld_setFld_off { s with led := { s.led with buffer := l, writerNs := if l.isEmpty then 0 else s.led.writerNs - cost } } hf _
  refine ⟨rfl, rfl, rfl, rfl, hoff _ (by decide), ?_, hoff _ (by decide), fun _ => rfl⟩
  rw [State.ringLost, State.ringLost, hapart LED_STATUS_COPY_A_OK (by unfold Field.fits; decide) (by unfold Field.apart; decide),
    hapart LED_STATUS_COPY_B_OK (by unfold Field.fits; decide) (by unfold Field.apart; decide)]

/-- The account time a record takes. -/
def State.recordCost (s : State) (r : LedgerRec) : Nat := if (s.mergeTarget r).isSome then 250 else 500

theorem exec_ledgerWrite_cons {r : LedgerRec} {l : List LedgerRec} (h : s.led.buffer = r :: l) : exec .ledgerWrite s =
    if s.led.writerNs < s.recordCost r ∨ s.gatesOpen = false then .next s
    else if s.ringLost then .next ((s.popRecord l (s.recordCost r)).writeFlash r)
    else match s.mergeTarget r with
      | some o => .next ((s.popRecord l (s.recordCost r)).writeMerge o r)
      | none => .next ((s.popRecord l (s.recordCost r)).writeNew r) := by
  obtain ⟨-, -, -, -, -, hlost, -, htarget⟩ := s.popRecord_leaves l (s.recordCost r)
  rw [← hlost, ← htarget r]
  change execLedgerWrite s = _
  unfold execLedgerWrite
  rw [h]
  rfl

/-! ## Drops of a millisecond (R388) -/

theorem State.toWriter_leaves (s : State) (r : LedgerRec) : (s.toWriter r).led.buffer = s.led.buffer ++ [r] ∧ (s.toWriter r).led.ring = s.led.ring
    ∧ (s.toWriter r).out = s.out := ⟨rfl, rfl, rfl⟩

theorem State.forEach_toWriter {α : Type} (f : State → α → LedgerRec) (l : List α) (s : State) {t : State}
    (ht : (s.forEach l fun s x => s.toWriter (f s x)) = t) :
    t.led.buffer.length = s.led.buffer.length + l.length ∧ t.led.ring = s.led.ring ∧ t.out = s.out := by
  subst ht
  induction l generalizing s with
  | nil => exact ⟨rfl, rfl, rfl⟩
  | cons x l ih =>
    obtain ⟨hbuf, hring, hout⟩ := ih (s.toWriter (f s x))
    obtain ⟨kbuf, kring, kout⟩ := s.toWriter_leaves (f s x)
    refine ⟨hbuf.trans ?_, hring.trans kring, hout.trans kout⟩
    rw [kbuf, List.length_append, List.length_cons, List.length_cons, List.length_nil]
    omega

/-- The drops of the millisecond that ended join the writer's queue. -/
def State.sumDrops (s : State) : State := s.forEach ((List.range 3).filter fun v => decide (0 < s.led.drops.getD v 0)) fun u v =>
  u.toWriter (u.ownRecord 0x0010 1 (u.led.drops.getD v 0) (BitVec.ofNat 16 v) (s.operMs - 1) 0)

theorem exec_msBoundary_eq (s : State) : exec .msBoundary s = if s.operMs ≤ s.led.summedMs then .next s
    else .next { s.sumDrops with led := { s.sumDrops.led with drops := [0, 0, 0], summedMs := s.operMs - 1 + 1 } } := rfl

/-! ## Flash copies (R389) -/

/-- The state without a copy that waited. -/
def State.popFlash (s : State) (q : Nat) : State := ({ s with led := { s.led with flashQ := s.led.flashQ.filter (· != q) } } : State).showLag

/-- The copy that is taken next: severity 3 and 4 first. -/
def State.nextFlash (s : State) : Option Nat :=
  match s.led.flashQ.find? (fun (q : Nat) => match s.recWith q with | some r => decide (3 ≤ r.severity) | none => false) with
  | some q => some q
  | none => s.led.flashQ.head?

/-- A record is copied to flash. -/
def State.pushFlash (s : State) (q : Nat) (r : LedgerRec) : State :=
  ({ s with led := { s.led with flash := flashPush s.led.flash r.bytes, flashTally := s.led.flashTally.set q r.tally } } : State).act
    (.flashRecord r.bytes)

/-- The gates read of the registers only the arbiters' votes. -/
theorem State.gatesOpen_setFld (s : State) {f : Field} (hf : TRI_STATUS_VOTING.off ≠ f.off) (v : Nat) : (s.setFld f v).gatesOpen = s.gatesOpen := by
  have hvoters : (s.setFld f v).voters = s.voters := by rw [State.voters, State.fld_setFld_off s hf, State.voters]
  rw [State.gatesOpen, hvoters, State.gatesOpen]
  rfl

theorem State.popFlash_gatesOpen (s : State) (q : Nat) : (s.popFlash q).gatesOpen = s.gatesOpen :=
  (State.gatesOpen_setFld { s with led := { s.led with flashQ := s.led.flashQ.filter (· != q) } } (f := LED_FLASH_LAG) (by decide) _).trans rfl

theorem exec_flashCopy_eq (s : State) : exec .flashCopy s = match s.nextFlash with
    | none => .next s
    | some q =>
      if s.fld LED_FLASH_FLASH_OK = 0 ∨ s.gatesOpen = false then .next s
      else match (s.popFlash q).recWith q with
        | none => .next (s.popFlash q)
        | some r => .next ((s.popFlash q).pushFlash q r) := rfl

theorem State.nextFlash_single {q : Nat} (h : s.led.flashQ = [q]) : s.nextFlash = some q := by
  unfold State.nextFlash
  rw [h]
  generalize (fun (q : Nat) => match s.recWith q with | some r => decide (3 ≤ r.severity) | none => false) = urgent
  cases hq : urgent q <;> simp [hq]

theorem State.nextFlash_nil (h : s.led.flashQ = []) : s.nextFlash = none := by
  unfold State.nextFlash
  rw [h]
  rfl

theorem State.pushFlash_leaves (s : State) (q : Nat) (r : LedgerRec) (hg : s.gatesOpen = true) :
    (s.pushFlash q r).led.flash = flashPush s.led.flash r.bytes ∧ (s.pushFlash q r).led.flashQ = s.led.flashQ
    ∧ (s.pushFlash q r).led.flashTally.get q = some r.tally ∧ (s.pushFlash q r).out = s.out ++ [.flashRecord r.bytes] := by
  have hact : s.pushFlash q r = ({ s with led := { s.led with
      flash := flashPush s.led.flash r.bytes, flashTally := s.led.flashTally.set q r.tally } } : State).emit (.flashRecord r.bytes) := if_pos hg
  rw [hact]
  exact ⟨rfl, rfl, NMap.get_set_self _ _ _, rfl⟩

/-! ## Reports of agents (R57, R26, R102) -/

theorem State.again_plain {n : Node} {h : Header} (ht : h.typ ≠ 0x03) (hheld : (s.rx n h.src h.stream).held = [])
    (hbad : (s.rx n h.src h.stream).flagsBad = []) : s.again n h = s.ackPkt n h := by
  unfold State.again
  dsimp only
  rw [hheld, hbad]
  exact if_neg ht

/-- The power of endpoints goes to the telemetry of their agents. -/
def State.notePowers (s : State) (l : List (Nat × Nat)) : State := s.forEach l fun s x => match s.devAgent x.1 with
  | some a => s.updAgent a fun g => { g with powerW := x.2 }
  | none => s

theorem State.notePowers_agents (l : List (Nat × Nat)) (s : State) : s.notePowers l = { s with agents := (s.notePowers l).agents } := by
  induction l generalizing s with
  | nil => rfl
  | cons x l ih =>
    refine (ih _).trans ?_
    cases h : s.devAgent x.1 with
    | none => simp only [State.notePowers, State.forEach, List.foldl_cons, h]
    | some a =>
      simp only [State.notePowers, State.forEach, List.foldl_cons, h]
      rfl

/-- The power of each partition joins its record. -/
def State.notePartitions (s : State) (l : List (Nat × Nat)) (start : Nat) : State :=
  { s with pwr := { s.pwr with partPower := ((s.sec.parts.filter fun p => p.2.state != 0).map (·.1)).foldl (fun m p => m.set p (start % 2 ^ 32,
    min (((l.filter fun x => (s.dev x.1).state == 1 && (s.dev x.1).partition.toNat == p).map (·.2)).sum) (2 ^ 32 - 1))) s.pwr.partPower } }

theorem exec_powerInterval_eq (s : State) (w : Nat) (l : List (Nat × Nat)) : exec (.powerInterval w l) s
    = .next (((s.setFld PWR_STATUS_PKG_POWER_W (min w 65535)).notePowers l).notePartitions l (s.operMs / 10 * 10 - 10)) := rfl

theorem State.notePartitions_single (s : State) (l : List (Nat × Nat)) (start : Nat) {k : Nat} {x : PartSt} (h : s.sec.parts = [(k, x)]) (hx : x.state ≠ 0) :
    ∃ y, (s.notePartitions l start).pwr.partPower.get k = some (start % 2 ^ 32, y) := by
  have hparts : (s.sec.parts.filter fun p => p.2.state != 0).map (·.1) = [k] := by simp [h, hx]
  unfold State.notePartitions
  rw [hparts]
  exact ⟨_, NMap.get_set_self _ _ _⟩

end Sys2Proof.Machine

namespace Sys2Proof
open Machine

/-- Settles O35: the ledger's writer by what each record leaves, the reports of agents by their packets' branches. -/
theorem ledgerAndReportResults : Obligations.LedgerAndReportResults := by
  refine ⟨fun s r rest n origin source hn => ⟨fun h => ?_, fun h hw => ?_, fun h hm hw => ?_, fun h hm hw hg hr => ?_, fun o h hm hw hg hr => ?_,
    fun h hw hg hr => ?_, fun h => if_pos h, fun h => ?_, fun h => ?_, fun q x hok hg hq hx => ?_, fun h => ?_, fun x k hx hk => ?_⟩,
    fun s p w l ph u hph => ⟨fun hf => ?_, fun hc hd => ⟨?_, fun ht hheld hbad => ?_⟩, fun hc c hmem => ?_, fun hc hg => ?_, fun hc hg hlen => ?_,
      fun hc hu => ?_, ?_⟩⟩
  · change execLedgerWrite s = _
    unfold execLedgerWrite
    rw [h]
  · rw [exec_ledgerWrite_cons h, if_pos]
    refine hw.imp_left fun hw => Nat.lt_of_lt_of_le hw ?_
    unfold State.recordCost
    split <;> omega
  · rw [exec_ledgerWrite_cons h, if_pos]
    rw [State.recordCost, hm]
    exact .inl hw
  · have hcost : s.recordCost r = 500 := by rw [State.recordCost, hm]; rfl
    obtain ⟨hbuf, hring, -, hout, hseq, -, -, -⟩ := s.popRecord_leaves rest (s.recordCost r)
    obtain ⟨hnew, kseq, kbuf, kring, kout⟩ := (s.popRecord rest (s.recordCost r)).writeNew_leaves r (hn.trans hseq.symm) rfl
    rw [exec_ledgerWrite_cons h, if_neg (by rw [hcost, hg]; simp; omega), if_neg (by simp [hr]), hm]
    exact ⟨_, rfl, hnew, kseq, kbuf.trans hbuf, fun i hi => (kring i hi).trans (by rw [hring]), kout.trans hout⟩
  · have hcost : s.recordCost r = 250 := by rw [State.recordCost, hm]; rfl
    obtain ⟨hbuf, -, -, hout, hseq, -, -, -⟩ := s.popRecord_leaves rest (s.recordCost r)
    obtain ⟨hmerge, kseq, kbuf, kout⟩ := (s.popRecord rest (s.recordCost r)).writeMerge_leaves o r
    rw [exec_ledgerWrite_cons h, if_neg (by rw [hcost, hg]; simp; omega), if_neg (by simp [hr]), hm]
    exact ⟨_, rfl, hmerge, kseq.trans (hseq.trans hn.symm), kbuf.trans hbuf, kout.trans hout⟩
  · have hcost : s.recordCost r ≤ 500 := by
      unfold State.recordCost
      split <;> omega
    obtain ⟨hbuf, hring, hflash, -, hseq, -, hok, -⟩ := s.popRecord_leaves rest (s.recordCost r)
    obtain ⟨kring, kbuf, kseq, kflash⟩ := (s.popRecord rest (s.recordCost r)).writeFlash_leaves r
    rw [exec_ledgerWrite_cons h, if_neg (by rw [hg]; simp; omega), if_pos hr]
    refine ⟨_, rfl, kring.trans hring, kbuf.trans hbuf, by rw [kseq, hseq, hn], (s.popRecord rest (s.recordCost r)).numbered r, ?_, ?_⟩
    · rw [State.numbered, hseq, hn]
    · rw [kflash, hok, hflash]
  · rw [exec_msBoundary_eq, if_neg (by omega)]
    obtain ⟨hlen, hring, hout⟩ := State.forEach_toWriter (fun (u : State) v => u.ownRecord 0x0010 1 (u.led.drops.getD v 0) (BitVec.ofNat 16 v)
      (s.operMs - 1) 0) ((List.range 3).filter fun v => decide (0 < s.led.drops.getD v 0)) s (t := s.sumDrops) rfl
    exact ⟨_, rfl, by dsimp only; omega, rfl, hring, hout, hlen⟩
  · rcases h with h | h
    · rw [exec_flashCopy_eq, State.nextFlash_nil h]
    · rw [exec_flashCopy_eq]
      split
      · rfl
      · exact if_pos h
  · have hrec : (s.popFlash q).recWith q = some x := hx
    obtain ⟨h1, h2, h3, h4⟩ := (s.popFlash q).pushFlash_leaves q x ((s.popFlash_gatesOpen q).trans hg)
    rw [exec_flashCopy_eq, State.nextFlash_single hq]
    dsimp only
    rw [if_neg (by rw [hok, hg]; simp), hrec]
    refine ⟨_, rfl, h1, h2.trans ?_, h3, h4⟩
    exact (congrArg (List.filter (· != q)) hq).trans (by simp)
  · change execRecordCloseTimer origin source s = _
    unfold execRecordCloseTimer
    rw [h]
  · change execRecordCloseTimer origin source s = _
    unfold execRecordCloseTimer
    rw [hx]
    dsimp only
    rw [hk]
    exact (apply_ite Host.Outcome.next _ _ _).symm
  · refine next_congr (State.accept_taken hf ?_)
    subst hph
    rfl
  · exact next_congr (State.accept_copy hc hd _)
  · exact next_congr ((State.accept_copy hc hd _).trans (State.again_plain ht hheld hbad))
  · simp only [List.mem_cons, List.not_mem_nil, or_false] at hmem
    rcases hmem with rfl | rfl | rfl
    · exact next_congr (State.accept_bad hc _)
    · exact next_congr (if_pos hc)
    · exact next_congr (if_pos hc)
  · exact next_congr ((if_neg (by simp [hc])).trans (if_pos hg))
  · refine ⟨_, next_congr ((if_neg (by simp [hc])).trans (if_neg (by simp [hg]))), ?_, ?_, rfl⟩
    · rw [if_neg (by omega)]
    · rw [if_neg (by omega)]
  · subst hu
    exact next_congr (if_neg (by simp [hc]))
  · have hpow := State.notePowers_agents l (s.setFld PWR_STATUS_PKG_POWER_W (min w 65535))
    generalize ((s.setFld PWR_STATUS_PKG_POWER_W (min w 65535)).notePowers l).agents = ag at hpow
    rw [exec_powerInterval_eq, hpow]
    refine ⟨_, rfl, ?_, rfl, rfl, rfl, fun k x hk hx => ?_⟩
    · exact State.fld_setFld_self s (f := PWR_STATUS_PKG_POWER_W) (by unfold Field.fits; decide) _
    · exact State.notePartitions_single _ l _ hk hx

end Sys2Proof
end

section
/-! Lost dies, block resets, quiet periods and retirement. -/

namespace Sys2Proof.Machine

variable {s t u : State} {b : Nat}

/-! ## The registers of blocks (R391) -/

/-- A register that is none of a block's. -/
theorem off_ne_fltBlk (hb : b < 64) {off : Nat} (h : off < FLT_BLKn ∨ FLT_BLKn + 0x200 ≤ off) : fltBlk b ≠ off := by
  unfold fltBlk
  unfold FLT_BLKn at *
  omega

theorem State.blk_setFld (s : State) (hb : b < 64) {f : Field} (h : f.off < FLT_BLKn ∨ FLT_BLKn + 0x200 ≤ f.off) (g : Field) (v : Nat) :
    (s.setFld f v).blk g b = s.blk g b := State.fld_setFld_off s (off_ne_fltBlk hb h) v

theorem State.blk_setBlk_self (s : State) {f : Field} (hf : f.fits) (b v : Nat) : (s.setBlk f b v).blk f b = v % 2 ^ (f.hi - f.lo + 1) :=
  State.fld_setFld_self s (f := f.at (fltBlk b)) hf v

theorem State.blk_setBlk_apart (s : State) {f g : Field} (hf : f.fits) (hg : g.fits) (ha : f.apart g) (b v : Nat) :
    (s.setBlk f b v).blk g b = s.blk g b := State.fld_setFld_apart s (f := f.at (fltBlk b)) (g := g.at (fltBlk b)) hf hg ha v

theorem State.blk_of_regs {s t : State} (h : t.regs = s.regs) (f : Field) (b : Nat) : t.blk f b = s.blk f b := by
  rw [State.blk, State.fld, State.reg, h, State.blk, State.fld, State.reg]

theorem state_fits : FLT_BLKn_STATE.fits := by unfold Field.fits; decide

theorem State.showBlocks_blk (s : State) (hb : b < 64) (f : Field) : s.showBlocks.blk f b = s.blk f b := by
  unfold State.showBlocks
  rw [State.blk_setFld _ hb (by decide), State.blk_setFld _ hb (by decide)]

theorem State.showQuote_blk (s : State) (hb : b < 64) (f : Field) : s.showQuote.blk f b = s.blk f b := State.blk_setFld _ hb (by decide) _ _

/-- The state before the register shows it. -/
def State.markBlock (s : State) (b st : Nat) : State :=
  { s with pwr := { s.pwr with deadBlocks := if 2 ≤ st then s.pwr.deadBlocks.filter (· != b) ++ [b] else s.pwr.deadBlocks.filter (· != b)
                               pipsCleared := s.pwr.pipsCleared.filter (· != b) } }

theorem State.setBlockState_eq (s : State) (b st : Nat) : s.setBlockState b st = ((s.markBlock b st).setBlk FLT_BLKn_STATE b st).showBlocks := rfl

theorem State.setBlockState_leaves (s : State) (hb : b < 64) (st : Nat) : (s.setBlockState b st).pwr = (s.markBlock b st).pwr
    ∧ (s.setBlockState b st).col = s.col ∧ (s.setBlockState b st).out = s.out ∧ (s.setBlockState b st).now = (s.markBlock b st).now := by
  refine ⟨rfl, rfl, rfl, ?_⟩
  have hreg : (s.setBlockState b st).reg TIM_NOW = (s.markBlock b st).reg TIM_NOW := by
    rw [State.setBlockState_eq, State.showBlocks, State.reg_setFld_off _ (by decide), State.reg_setFld_off _ (by decide)]
    refine State.reg_setFld_off _ (f := FLT_BLKn_STATE.at (fltBlk b)) ?_ _
    exact (off_ne_fltBlk hb (by decide)).symm
  rw [State.now, hreg, State.now]

theorem State.setBlockState_state (s : State) (hb : b < 64) (st : Nat) : (s.setBlockState b st).blk FLT_BLKn_STATE b = st % 4 := by
  rw [State.setBlockState_eq, State.showBlocks_blk _ hb, State.blk_setBlk_self _ state_fits]
  rfl

theorem State.setBlockState_apart (s : State) (hb : b < 64) {f : Field} (hf : f.fits) (ha : FLT_BLKn_STATE.apart f) (st : Nat) :
    (s.setBlockState b st).blk f b = s.blk f b := by
  rw [State.setBlockState_eq, State.showBlocks_blk _ hb, State.blk_setBlk_apart _ state_fits hf ha]
  rfl

/-! ## What bringing a block back leaves (R36) -/

/-- A block in probation stays so, and the dead blocks, the resets and the quiet periods stand. -/
structure State.KeepsProbation (b : Nat) (s t : State) : Prop where
  state : s.blk FLT_BLKn_STATE b = 1 → t.blk FLT_BLKn_STATE b = 1
  dead : t.pwr.deadBlocks = s.pwr.deadBlocks
  resets : t.pwr.resets = s.pwr.resets
  quiet : t.col.quietUntil = s.col.quietUntil

theorem State.KeepsProbation.refl (s : State) : s.KeepsProbation b s := ⟨fun h => h, rfl, rfl, rfl⟩

theorem State.KeepsProbation.trans (h : s.KeepsProbation b t) (g : t.KeepsProbation b u) : s.KeepsProbation b u :=
  ⟨fun h1 => g.state (h.state h1), g.dead.trans h.dead, g.resets.trans h.resets, g.quiet.trans h.quiet⟩

theorem State.KeepsProbation.ite {c : Prop} [Decidable c] (h : s.KeepsProbation b t) (g : s.KeepsProbation b u) :
    s.KeepsProbation b (if c then t else u) := by
  split
  · exact h
  · exact g

theorem State.KeepsProbation.forEach {α : Type} {f : State → α → State} (h : ∀ (s : State) x, s.KeepsProbation b (f s x)) (l : List α) (s : State) :
    s.KeepsProbation b (s.forEach l f) := by
  induction l generalizing s with
  | nil => exact .refl s
  | cons x l ih => exact (h s x).trans (ih (f s x))

/-- Registers, and of the power state and the collector what the block's probation does not name, may change. -/
theorem keepsProbation_of_regs (hr : t.regs = s.regs) (hp : t.pwr = s.pwr) (hc : t.col = s.col) : s.KeepsProbation b t := by
  refine ⟨fun h => (State.blk_of_regs hr _ b).trans h, ?_, ?_, ?_⟩
  · rw [hp]
  · rw [hp]
  · rw [hc]

theorem keepsProbation_setFld (s : State) (hb : b < 64) {f : Field} (h : f.off < FLT_BLKn ∨ FLT_BLKn + 0x200 ≤ f.off) (v : Nat) :
    s.KeepsProbation b (s.setFld f v) := ⟨fun h1 => (s.blk_setFld hb h _ v).trans h1, rfl, rfl, rfl⟩

theorem keepsProbation_raise (s : State) (hb : b < 64) (src st : Nat) (d : BitVec 16) (p : Nat) (c : Option Capture) :
    s.KeepsProbation b (s.raise src st d p c) := by
  have hreg : (s.raise src st d p c).reg (fltBlk b) = s.reg (fltBlk b) := by
    refine s.reg_raise_ne st d p c ?_
    unfold fltBlk fltSrc FLT_BLKn FLT_SRCn
    omega
  have hcount (v : State) (n k : Nat) (d : BitVec 16) (c : Option Capture) : (v.countSource n k d c).col.quietUntil = v.col.quietUntil := by
    unfold State.countSource
    dsimp only
    split
    · split <;> rfl
    · rfl
  refine ⟨fun h => ?_, by rw [State.raise_pwr], by rw [State.raise_pwr], ?_⟩
  · rw [State.blk, State.fld, show (FLT_BLKn_STATE.at (fltBlk b)).off = fltBlk b from rfl, hreg]
    exact h
  · unfold State.raise
    dsimp only
    split
    · exact hcount s _ _ _ _
    · exact hcount s _ _ _ _

/-! ### Held reads and writes that go (R453) -/

/-- Clearing a bit that is 0 changes nothing. -/
theorem Field.put_zero {f : Field} {w : Word64} (h : f.of w = 0) : f.put w 0 = w := by
  rw [Field.put, h]
  simp

/-- A queue's register may be a block's only where its number is none of a queue; it then leaves a block in probation. -/
theorem keepsProbation_setCqTail (s : State) (n v : Nat) : s.KeepsProbation b (s.setCq n CTL_CQn_STATUS_CQ_TAIL v) := by
  refine ⟨fun h => ?_, rfl, rfl, rfl⟩
  rw [← h]
  have htail : CTL_CQn_STATUS_CQ_TAIL.fits := by unfold Field.fits; decide
  have hapart : CTL_CQn_STATUS_CQ_TAIL.apart FLT_BLKn_STATE := by unfold Field.apart; decide
  by_cases ho : fltBlk b = cqOff n CTL_CQn_STATUS_CQ_TAIL.off
  · exact State.fld_setFld_apart s (f := CTL_CQn_STATUS_CQ_TAIL.at (cqOff n CTL_CQn_STATUS_CQ_TAIL.off)) (g := FLT_BLKn_STATE.at (fltBlk b))
      htail state_fits hapart v
  · exact State.fld_setFld_off s (f := CTL_CQn_STATUS_CQ_TAIL.at (cqOff n CTL_CQn_STATUS_CQ_TAIL.off)) ho v

theorem keepsProbation_setCqEnable (s : State) (n : Nat) : s.KeepsProbation b (s.setCq n CTL_CQn_CFG_ENABLE 0) := by
  refine ⟨fun h => ?_, rfl, rfl, rfl⟩
  by_cases ho : fltBlk b = cqOff n CTL_CQn_CFG_ENABLE.off
  · have hstate : (s.reg (fltBlk b)).toNat / 2 ^ 62 % 2 ^ 2 = 1 := h
    have hzero : (CTL_CQn_CFG_ENABLE.at (fltBlk b)).of (s.reg (fltBlk b)) = 0 := by
      change (s.reg (fltBlk b)).toNat / 2 ^ 63 % 2 ^ 1 = 0
      omega
    have hset : (s.setCq n CTL_CQn_CFG_ENABLE 0).reg (fltBlk b) = s.reg (fltBlk b) := by
      rw [State.setCq, ← ho, State.setFld, show (CTL_CQn_CFG_ENABLE.at (fltBlk b)).off = fltBlk b from rfl, State.reg_setReg_self, Field.put_zero hzero]
    rw [State.blk, State.fld, show (FLT_BLKn_STATE.at (fltBlk b)).off = fltBlk b from rfl, hset]
    exact h
  · exact (State.fld_setFld_off s (f := CTL_CQn_CFG_ENABLE.at (cqOff n CTL_CQn_CFG_ENABLE.off)) ho 0).trans h

theorem keepsProbation_act (s : State) (o : Out) : s.KeepsProbation b (s.act o) :=
  keepsProbation_of_regs (State.act_regs s o) (State.act_pwr s o) (State.act_col s o)

theorem keepsProbation_setQueue (s : State) (n : Nat) (x : QueueSt) : s.KeepsProbation b (s.setQueue n x) := keepsProbation_of_regs rfl rfl rfl

theorem keepsProbation_endDisable (s : State) (n : Nat) : s.KeepsProbation b (s.endDisable n) :=
  .ite ((keepsProbation_setQueue s n _).trans (keepsProbation_setCqEnable _ n)) (.refl s)

theorem keepsProbation_releaseIo (s : State) (x : HeldIo) : s.KeepsProbation b (s.releaseIo x) := by
  cases x with
  | out h o => exact keepsProbation_act s o
  | record n l irq =>
    have hput : s.KeepsProbation b (s.putRecord n l irq) := by
      unfold State.putRecord
      dsimp only
      have hrec (o : Out) (v : Nat) (x : QueueSt) : s.KeepsProbation b (((s.act o).setCq n CTL_CQn_STATUS_CQ_TAIL v).setQueue n x) :=
        ((keepsProbation_act s o).trans (keepsProbation_setCqTail _ n v)).trans (keepsProbation_setQueue _ n x)
      exact .ite ((hrec _ _ _).trans (keepsProbation_act _ _)) (hrec _ _ _)
    exact hput.trans (keepsProbation_endDisable _ n)

theorem keepsProbation_releaseHub (s : State) (hub : Nat) : s.KeepsProbation b (s.releaseHub hub) := by
  unfold State.releaseHub
  refine .ite (.refl s) ?_
  extract_lets go pwr t
  have hgo : s.KeepsProbation b t := ⟨fun h => h, rfl, rfl, rfl⟩
  exact hgo.trans (.forEach keepsProbation_releaseIo _ t)

/-! ### Routers, ports and stores that come back (R35, R36) -/

theorem keepsProbation_setQuarter (s : State) (hb : b < 64) (q : Nat) (x : QuarterState) : s.KeepsProbation b (s.setQuarter q x) := by
  have hset : s.KeepsProbation b { s with sq := { s.sq with quarters := s.sq.quarters.set q x } } := keepsProbation_of_regs rfl rfl rfl
  exact hset.trans (keepsProbation_setFld _ hb (by decide) _)

theorem keepsProbation_startRamp (s : State) (hb : b < 64) : s.KeepsProbation b s.startRamp := by
  unfold State.startRamp
  refine .ite (.refl s) ?_
  split
  · exact .refl s
  · next x _ =>
    have hset : s.KeepsProbation b { s with sq := { s.sq with ungate := s.sq.ungate.filter fun y => y.2 != x.2 } } := keepsProbation_of_regs rfl rfl rfl
    exact hset.trans (keepsProbation_setQuarter _ hb _ _)

theorem keepsProbation_ungateReq (s : State) (hb : b < 64) (cls q : Nat) : s.KeepsProbation b (s.ungateReq cls q) := by
  have hput : s.KeepsProbation b { s with sq := { s.sq with ungate := s.sq.ungate ++ [(cls, q)] } } := keepsProbation_of_regs rfl rfl rfl
  unfold State.ungateReq
  dsimp only
  split
  · exact (hput.trans (keepsProbation_setQuarter _ hb _ _)).trans (keepsProbation_startRamp _ hb)
  · exact .ite (.refl s) (hput.trans (keepsProbation_startRamp _ hb))
  · exact .refl s

theorem keepsProbation_showCfb (s : State) (hb : b < 64) : s.KeepsProbation b s.showCfb :=
  ((keepsProbation_setFld s hb (by decide) _).trans (keepsProbation_setFld _ hb (by decide) _)).trans (keepsProbation_setFld _ hb (by decide) _)

theorem keepsProbation_tryReload (s : State) (hb : b < 64) (r : Reload) : s.KeepsProbation b (s.tryReload r) := by
  have hset (q : SquareSt) : s.KeepsProbation b { s with sq := q } := keepsProbation_of_regs rfl rfl rfl
  unfold State.tryReload
  dsimp only
  split
  · exact (hset _).trans (keepsProbation_raise _ hb _ _ _ _ _)
  · refine .ite ((hset _).trans (keepsProbation_showCfb _ hb)) ?_
    exact (hset _).trans (.forEach (fun s q => keepsProbation_ungateReq s hb 0 q) _ _)

theorem keepsProbation_queueWake (s : State) (hb : b < 64) (port cls : Nat) : s.KeepsProbation b (s.queueWake port cls) := by
  unfold State.queueWake
  refine .ite (.refl s) ?_
  have hq (l : List WakeReq) (n : Nat) : s.KeepsProbation b { s with pwr := { s.pwr with wakeQ := l, wakeOrder := n } } := ⟨fun h => h, rfl, rfl, rfl⟩
  exact (hq _ _).trans (keepsProbation_setFld _ hb (by decide) _)

theorem keepsProbation_showPorts (s : State) (hb : b < 64) : s.KeepsProbation b s.showPorts :=
  (((keepsProbation_setFld s hb (by decide) _).trans (keepsProbation_setFld _ hb (by decide) _)).trans
    (keepsProbation_setFld _ hb (by decide) _)).trans (keepsProbation_setFld _ hb (by decide) _)

theorem keepsProbation_tsBack (s : State) (n : Nat) : s.KeepsProbation b (s.tsBack n) := by
  unfold State.tsBack
  extract_lets r twin kept pwr t
  have ht : s.KeepsProbation b t := ⟨fun h => h, rfl, rfl, rfl⟩
  exact .ite ht (ht.trans (keepsProbation_of_regs rfl rfl rfl))

/-- A block that is back stays in probation. -/
theorem keepsProbation_blockBack (s : State) (hb : b < 64) (n : Nat) : s.KeepsProbation b (s.blockBack n) := by
  have hnoc (x : NocSt) : s.KeepsProbation b { s with noc := x } := keepsProbation_of_regs rfl rfl rfl
  have hport (s : State) (p : Nat) (x : PortSt) : s.KeepsProbation b (s.setPort .ctl p x) := keepsProbation_of_regs rfl rfl rfl
  unfold State.blockBack
  refine .ite ?_ (.ite ?_ (.ite (keepsProbation_tsBack s _) (.ite (keepsProbation_releaseHub s _) (.ite ?_ (.ite ?_ (.ite ?_ (.refl s)))))))
  · exact ((hnoc _).trans (keepsProbation_showCfb _ hb)).trans (.forEach (fun s r => keepsProbation_tryReload s hb r) _ _)
  · refine State.KeepsProbation.trans (.forEach (fun s p => ?_) _ s) (keepsProbation_showPorts _ hb)
    exact (hport s p _).trans (keepsProbation_queueWake _ hb p 0)
  · exact .ite (.refl s) (keepsProbation_setFld s hb (by decide) _)
  · exact .ite (.refl s) (keepsProbation_setFld s hb (by decide) _)
  · exact keepsProbation_setFld s hb (by decide) _

/-! ## Dies that are lost (R374, R401) -/

theorem exec_dieLost_eq (s : State) (b : Nat) : exec (.dieLost b) s =
    if 64 ≤ b ∨ s.pwr.deadBlocks.contains b then .next s
    else if b < 3 then .next ((s.raise (blockSource b) 3).orderFence b 0)
    else
      let u := s.raise (blockSource b) (if lastCopy s.pwr.deadBlocks s.pwr.rebuilt b then 4 else lossSeverity b)
      let w := ({ u with pwr := { u.pwr with deadBlocks := u.pwr.deadBlocks ++ [b] } } : State).blockOut b
      .next (if lastCopy s.pwr.deadBlocks s.pwr.rebuilt b then w.requestTakeover else w) := rfl

/-! ### The ports of a lost port die -/

/-- The port is out of use and holds no key. -/
def State.portClosed (s : State) (p : Nat) : Prop := (s.port .ctl p).state = 0 ∧ (s.port .ctl p).key = 0

theorem PortSt.free_key (x : PortSt) (h : Header) (w : Bool) : (x.free h w).key = x.key := by
  unfold PortSt.free
  split
  · rfl
  · split
    · rfl
    · split <;> rfl

theorem State.port_startFrame_ne (s : State) {q p : Nat} (hp : p ≠ q) (k : Packet) : (s.startFrame .ctl q k).port .ctl p = s.port .ctl p := by
  unfold State.startFrame
  dsimp only
  rw [State.port_emit, State.port_setPort_ne s .ctl _ hp]

theorem State.port_sendCredit_ne (s : State) {q p : Nat} (hp : p ≠ q) : (s.sendCredit .ctl q).port .ctl p = s.port .ctl p := by
  unfold State.sendCredit
  dsimp only
  split
  · rfl
  · split
    · rw [State.port_startFrame_ne _ hp, State.port_setPort_ne s .ctl _ hp]
    · rw [State.port_setPort_ne s .ctl _ hp]

theorem State.portClosed_freeUnits {p : Nat} (h : s.portClosed p) (q : Nat) (k : Header) : (s.freeUnits .ctl q k).portClosed p := by
  obtain ⟨hst, hkey⟩ := h
  unfold State.freeUnits State.returnCredit
  dsimp only
  by_cases hp : p = q
  · subst hp
    have hstate : ((s.port .ctl p).free k (s.pacing .ctl)).state = 0 := (PortSt.free_state _ _ _).trans hst
    rw [State.port_setPort_self, if_neg (by simp [hstate])]
    unfold State.portClosed
    rw [State.port_setPort_self]
    exact ⟨hstate, (PortSt.free_key _ _ _).trans hkey⟩
  · have hset : ((s.setPort .ctl q ((s.port .ctl q).free k (s.pacing .ctl))).port .ctl p) = s.port .ctl p := State.port_setPort_ne s .ctl _ hp
    unfold State.portClosed
    split
    · rw [State.port_sendCredit_ne _ hp, hset]
      exact ⟨hst, hkey⟩
    · rw [hset]
      exact ⟨hst, hkey⟩

theorem State.portClosed_forEach {α : Type} {p : Nat} {f : State → α → State} (h : ∀ (s : State) x, s.portClosed p → (f s x).portClosed p) (l : List α)
    {s : State} (hs : s.portClosed p) : (s.forEach l f).portClosed p := by
  induction l generalizing s with
  | nil => exact hs
  | cons x l ih => exact ih (h s x hs)

theorem State.portClosed_resetPort {p q : Nat} (hp : p ≠ q) (h : s.portClosed p) : (s.resetPort .ctl q).portClosed p := by
  unfold State.resetPort
  refine State.portClosed_forEach (fun s x hs => ?_) _ ?_
  · unfold State.freeSource
    split
    · exact State.portClosed_freeUnits hs _ _
    · exact hs
  · unfold State.portClosed
    rw [State.port_setPort_ne s .ctl _ hp]
    exact h

/-- One port of a lost die goes out of use. -/
def State.closePort (s : State) (p : Nat) : State :=
  (s.resetPort .ctl p).setPort .ctl p { (s.resetPort .ctl p).port .ctl p with
    state := 0, key := 0, txCtr := 0, txFrames := 0, rxFrames := 0, lastRx := none, txAct := none, rxAct := none, txKey := {}, rxKey := {}
    txNext := {}, rxNext := {} }

theorem State.portClosed_closePort_self (s : State) (p : Nat) : (s.closePort p).portClosed p := by
  unfold State.portClosed State.closePort
  rw [State.port_setPort_self]
  exact ⟨rfl, rfl⟩

theorem State.portClosed_closePort {p : Nat} (h : s.portClosed p) (q : Nat) : (s.closePort q).portClosed p := by
  by_cases hp : p = q
  · rw [hp]
    exact s.portClosed_closePort_self q
  · unfold State.closePort State.portClosed
    rw [State.port_setPort_ne _ .ctl _ hp]
    exact State.portClosed_resetPort hp h

theorem State.portClosed_closePorts {p : Nat} (l : List Nat) (s : State) (h : p ∈ l ∨ s.portClosed p) : (s.forEach l State.closePort).portClosed p := by
  induction l generalizing s with
  | nil => exact h.resolve_left List.not_mem_nil
  | cons q l ih =>
    refine ih (s.closePort q) ?_
    by_cases hq : p = q
    · rw [hq]
      exact .inr (s.portClosed_closePort_self q)
    · exact h.imp (fun h => (List.mem_cons.1 h).resolve_left hq) fun h => State.portClosed_closePort h q

theorem State.portClosed_showPorts {p : Nat} (h : s.portClosed p) : s.showPorts.portClosed p := h

theorem State.pdOut_eq (s : State) (pd : Nat) : s.pdOut pd = (s.forEach ((List.range 3).map (3 * pd + ·)) State.closePort).showPorts := rfl

theorem State.pdOut_closed (s : State) (p : Nat) : (s.pdOut (p / 3)).portClosed p := by
  rw [State.pdOut_eq]
  exact State.portClosed_showPorts (State.portClosed_closePorts _ s (.inl (List.mem_map.2 ⟨p % 3, List.mem_range.2 (Nat.mod_lt _ (by decide)), by omega⟩)))

/-! ## Resets of blocks (R377, R378, R381, R427) -/

theorem exec_blockReset_eq {lvl : Level} (hl : lvl ≠ .tenant) (v : Word64) : exec (.blockReset lvl v) s = .next (s.orderBlockReset lvl v) := by
  cases lvl with
  | tenant => exact absurd rfl hl
  | _ => rfl

/-- What an order of a reset does with the block it names. -/
theorem State.orderBlockReset_eq (s : State) (lvl : Level) (v : Word64) {u : State} (hu : u = s.setFld PWR_CTRL_BLOCK (PWR_CTRL_BLOCK.of v)) :
    s.orderBlockReset lvl v = if PWR_CTRL_BLOCK_RESET.of v = 0 then u
      else if PWR_CTRL_BLOCK.of v < 3 ∨ PWR_CTRL_BLOCK.of v = 63 then u.violation lvl
      else if s.blk FLT_BLKn_STATE (PWR_CTRL_BLOCK.of v) = 3 ∧ !s.pwr.pipsCleared.contains (PWR_CTRL_BLOCK.of v) then u
      else if s.ownShadowOpen (PWR_CTRL_BLOCK.of v) ∨ s.blk FLT_BLKn_STATE (PWR_CTRL_BLOCK.of v) = 2 then
        u.present { origin := s.fid, source := blockSource (PWR_CTRL_BLOCK.of v), severity := 4, timeNs := s.now, escalated := true }
      else u.startReset (PWR_CTRL_BLOCK.of v) := by
  have hb : PWR_CTRL_BLOCK.of v < 64 := Nat.mod_lt _ (by decide)
  have hblk : u.blk FLT_BLKn_STATE (PWR_CTRL_BLOCK.of v) = s.blk FLT_BLKn_STATE (PWR_CTRL_BLOCK.of v) := by
    rw [hu]
    exact s.blk_setFld hb (by decide) _ _
  have hnow : u.now = s.now := by
    rw [hu, State.now, State.reg_setFld_off s (by decide), State.now]
  have hopen : u.ownShadowOpen (PWR_CTRL_BLOCK.of v) = s.ownShadowOpen (PWR_CTRL_BLOCK.of v) := by
    rw [State.ownShadowOpen, hnow, State.ownShadowOpen, hu]
    rfl
  have hrest : u.pwr = s.pwr ∧ u.fid = s.fid := by
    rw [hu]
    exact ⟨rfl, rfl⟩
  unfold State.orderBlockReset
  dsimp only
  rw [← hu, hblk, hopen, hnow, hrest.1, hrest.2]

theorem State.noteLastCopy_dead (h : b ∈ s.pwr.deadBlocks) : s.noteLastCopy b = s := if_neg (by simp [h])

theorem State.openShadow_leaves (s : State) (hb : b < 64) (n : Nat) : (s.openShadow b n).pwr = s.pwr
    ∧ (s.openShadow b n).col.shadows = s.col.shadows ++ [{ kind := b, origin := s.fid, openNs := n }]
    ∧ (s.openShadow b n).col.quietUntil = s.col.quietUntil ∧ (s.openShadow b n).now = s.now
    ∧ (∀ f : Field, f.fits → FLT_BLKn_SHADOW.apart f → (s.openShadow b n).blk f b = s.blk f b)
    ∧ ∀ f : Field, f.off < FLT_BLKn ∨ FLT_BLKn + 0x200 ≤ f.off → (s.openShadow b n).fld f = s.fld f := by
  have hshadow : FLT_BLKn_SHADOW.fits := by unfold Field.fits; decide
  have hoff (off : Nat) (ho : off < FLT_BLKn ∨ FLT_BLKn + 0x200 ≤ off) : (s.openShadow b n).reg off = s.reg off :=
    State.reg_setFld_off { s with col := { s.col with shadows := s.col.shadows ++ [{ kind := b, origin := s.fid, openNs := n }] } }
      (f := FLT_BLKn_SHADOW.at (fltBlk b)) (off_ne_fltBlk hb ho).symm 1
  refine ⟨rfl, rfl, rfl, ?_, fun f hf ha => ?_, fun f hf => ?_⟩
  · rw [State.now, hoff _ (by decide), State.now]
  · exact State.blk_setBlk_apart { s with col := { s.col with shadows := s.col.shadows ++ [{ kind := b, origin := s.fid, openNs := n }] } } hshadow hf ha b 1
  · rw [State.fld, hoff _ hf, State.fld]

theorem State.shadow_apart_state : FLT_BLKn_SHADOW.apart FLT_BLKn_STATE := by unfold Field.apart; decide

/-- The reset is noted with its time, and no quiet period runs. -/
def State.noteReset (s : State) (b : Nat) : State :=
  ({ s with
    pwr := { s.pwr with resets := (s.pwr.resets.filter fun x => x.1 != b) ++ [(b, s.now)] }
    col := { s.col with resetStart := s.col.resetStart.set b s.now, quietUntil := s.col.quietUntil.erase b } } : State).showQuote

theorem State.noteReset_leaves (s : State) (hb : b < 64) : (∀ f, (s.noteReset b).blk f b = s.blk f b)
    ∧ (s.noteReset b).pwr.deadBlocks = s.pwr.deadBlocks ∧ (b, s.now) ∈ (s.noteReset b).pwr.resets ∧ (s.noteReset b).col.shadows = s.col.shadows :=
  ⟨fun f => State.showQuote_blk _ hb f, rfl, List.mem_append_right _ (List.mem_singleton_self _), rfl⟩

theorem State.startReset_dead (h : b ∈ s.pwr.deadBlocks) : s.startReset b = ((s.setBlockState b 2).openShadow b s.now).noteReset b := by
  unfold State.startReset
  rw [State.noteLastCopy_dead h]
  exact if_pos (by simpa using h)

theorem State.markBlock_dead (s : State) (b : Nat) : b ∈ (s.markBlock b 2).pwr.deadBlocks := List.mem_append_right _ (List.mem_singleton_self _)

theorem State.markBlock_now (s : State) (b st : Nat) : (s.markBlock b st).now = s.now := rfl

theorem State.setBlockState_fid (s : State) (b st : Nat) : (s.setBlockState b st).fid = s.fid := rfl

/-- A reset of a block that is lost: its shadow opens and it stays out of service. -/
theorem State.startReset_leaves (hb : b < 64) (h : b ∈ s.pwr.deadBlocks) : (s.startReset b).blk FLT_BLKn_STATE b = 2
    ∧ b ∈ (s.startReset b).pwr.deadBlocks ∧ (b, s.now) ∈ (s.startReset b).pwr.resets
    ∧ { kind := b, origin := s.fid, openNs := s.now } ∈ (s.startReset b).col.shadows := by
  obtain ⟨kpwr, -, -, know⟩ := s.setBlockState_leaves hb 2
  obtain ⟨hpwr, hshadows, -, hnow, hblk, -⟩ := (s.setBlockState b 2).openShadow_leaves hb s.now
  obtain ⟨nblk, ndead, nresets, nshadows⟩ := ((s.setBlockState b 2).openShadow b s.now).noteReset_leaves hb
  rw [hnow, know, s.markBlock_now] at nresets
  rw [State.startReset_dead h]
  refine ⟨?_, ?_, nresets, ?_⟩
  · exact (nblk _).trans ((hblk _ state_fits State.shadow_apart_state).trans (s.setBlockState_state hb 2))
  · rw [ndead, hpwr, kpwr]
    exact s.markBlock_dead b
  · rw [nshadows, hshadows, s.setBlockState_fid]
    exact List.mem_append_right _ (List.mem_singleton_self _)

/-! ### The end of a reset (R375, R379, R398) -/

/-- No reset of the block is noted. -/
def State.dropReset (s : State) (b : Nat) : State := { s with pwr := { s.pwr with resets := s.pwr.resets.filter fun x => x.1 != b } }

/-- The reset of a block is over; one that was not ordered has its shadow from its start on. -/
def State.resetEnded (s : State) (b start : Nat) : State :=
  (if s.pwr.resets.any fun x => x.1 == b then s else s.openShadow b start).dropReset b

theorem exec_blockResetDone_arbiter (hb : b < 3) (start : Nat) : exec (.blockResetDone b true start) s =
    if (s.resetEnded b start).fld TRI_CFG_AUTO_RESYNC = 1 then
      .next ((((s.resetEnded b start).setFld TRI_STATUS_PHASE 3).setFld TRI_STATUS_RESYNC_DIE b).showQuote)
    else .next (((s.resetEnded b start).setFld TRI_STATUS_PHASE 0).showQuote) :=
  ((if_neg (by omega)).trans (if_pos hb)).trans (if_neg (by simp))

/-- The shadow of the block closes 20 µs after its reset. -/
def State.resetClosing (s : State) (b start : Nat) : State :=
  (s.resetEnded b start).closeShadows (fun x => x.kind == b) ((s.resetEnded b start).now + 20000)

theorem exec_blockResetDone_block (h3 : 3 ≤ b) (hb : b < 64) (k : Bool) (start : Nat) : exec (.blockResetDone b k start) s =
    if (s.resetClosing b start).blk FLT_BLKn_STATE b = 3 then .next (s.resetClosing b start).showQuote
    else if k then .next ((((s.resetClosing b start).setBlockState b 1).restartQuiet b).blockBack b).showQuote
    else .next ((s.resetClosing b start).retire b) :=
  (if_neg (by omega)).trans (if_neg (by omega))

theorem State.resetEnded_leaves (s : State) (hb : b < 64) (start : Nat) : (s.resetEnded b start).pwr.deadBlocks = s.pwr.deadBlocks
    ∧ (∀ x, (b, x) ∉ (s.resetEnded b start).pwr.resets) ∧ (s.resetEnded b start).col.quietUntil = s.col.quietUntil
    ∧ (s.resetEnded b start).now = s.now
    ∧ (∀ f : Field, f.fits → FLT_BLKn_SHADOW.apart f → (s.resetEnded b start).blk f b = s.blk f b)
    ∧ ∀ f : Field, f.off < FLT_BLKn ∨ FLT_BLKn + 0x200 ≤ f.off → (s.resetEnded b start).fld f = s.fld f := by
  obtain ⟨hpwr, -, hquiet, hnow, hblk, hfld⟩ := s.openShadow_leaves hb start
  have hnot (u : State) (x : Nat) : (b, x) ∉ (u.dropReset b).pwr.resets := by simp [State.dropReset]
  have hdead (u : State) : (u.dropReset b).pwr.deadBlocks = u.pwr.deadBlocks := rfl
  have hkeep (u : State) : (u.dropReset b).col = u.col ∧ (u.dropReset b).now = u.now ∧ (∀ f, (u.dropReset b).blk f b = u.blk f b)
    ∧ ∀ f, (u.dropReset b).fld f = u.fld f := ⟨rfl, rfl, fun _ => rfl, fun _ => rfl⟩
  unfold State.resetEnded
  split
  · exact ⟨rfl, fun x => hnot s x, rfl, rfl, fun _ _ _ => rfl, fun _ _ => rfl⟩
  · obtain ⟨k1, k2, k3, k4⟩ := hkeep (s.openShadow b start)
    exact ⟨(hdead _).trans (congrArg PowerSt.deadBlocks hpwr), fun x => hnot _ x, (congrArg CollectorSt.quietUntil k1).trans hquiet, k2.trans hnow,
      fun f hf ha => (k3 f).trans (hblk f hf ha), fun f hf => (k4 f).trans (hfld f hf)⟩

theorem keepsProbation_showQuote (s : State) (hb : b < 64) : s.KeepsProbation b s.showQuote := keepsProbation_setFld s hb (by decide) _

theorem State.restartQuiet_leaves (s : State) (b : Nat) : (s.restartQuiet b).pwr.deadBlocks = s.pwr.deadBlocks
    ∧ (s.restartQuiet b).pwr.resets = s.pwr.resets
    ∧ (s.restartQuiet b).col.quietUntil.get b = some (s.now + s.blk FLT_BLKn_QUIET_MS b * 1000000)
    ∧ ∀ f, (s.restartQuiet b).blk f b = s.blk f b := ⟨rfl, rfl, NMap.get_set_self _ _ _, fun _ => rfl⟩

theorem State.markBlock_alive (s : State) (b : Nat) : b ∉ (s.markBlock b 1).pwr.deadBlocks ∧ (s.markBlock b 1).pwr.resets = s.pwr.resets := by
  refine ⟨?_, rfl⟩
  change b ∉ s.pwr.deadBlocks.filter (· != b)
  simp

/-- A block whose test passed is in probation (R379). -/
theorem State.backInProbation_leaves (s : State) (hb : b < 64) {t : State} (ht : (((s.setBlockState b 1).restartQuiet b).blockBack b).showQuote = t) :
    t.blk FLT_BLKn_STATE b = 1 ∧ b ∉ t.pwr.deadBlocks ∧ t.pwr.resets = s.pwr.resets
    ∧ t.col.quietUntil.get b = some (s.now + s.blk FLT_BLKn_QUIET_MS b * 1000000) := by
  obtain ⟨kpwr, -, -, know⟩ := s.setBlockState_leaves hb 1
  have hstate := s.setBlockState_state hb 1
  have hquiet := s.setBlockState_apart hb (f := FLT_BLKn_QUIET_MS) (by unfold Field.fits; decide) (by unfold Field.apart; decide) 1
  have hback := (keepsProbation_blockBack ((s.setBlockState b 1).restartQuiet b) hb b).trans (keepsProbation_showQuote _ hb)
  rw [ht] at hback
  obtain ⟨rdead, rresets, rquiet, rblk⟩ := (s.setBlockState b 1).restartQuiet_leaves b
  obtain ⟨mdead, mresets⟩ := s.markBlock_alive b
  refine ⟨hback.state ((rblk _).trans hstate), ?_, ?_, ?_⟩
  · rw [hback.dead, rdead, kpwr]
    exact mdead
  · rw [hback.resets, rresets, kpwr, mresets]
  · rw [hback.quiet, rquiet, know, hquiet, s.markBlock_now]

/-- A block that is retired has no reset and no quiet period. -/
def State.retiring (s : State) (b : Nat) : State :=
  { s with pwr := { s.pwr with resets := s.pwr.resets.filter fun x => x.1 != b }, col := { s.col with quietUntil := s.col.quietUntil.erase b } }

theorem State.retire_dead (h : b ∈ s.pwr.deadBlocks) : ∃ q, s.retire b = { ((s.retiring b).setBlockState b 3).showQuote with sq := q } := by
  unfold State.retire
  rw [State.noteLastCopy_dead h]
  exact ⟨_, if_pos (by simpa using h)⟩

/-- A block that was lost is retired (R380). -/
theorem State.retire_leaves (s : State) (hb : b < 64) (h : b ∈ s.pwr.deadBlocks) : (s.retire b).blk FLT_BLKn_STATE b = 3
    ∧ (s.retire b).pwr.resets = s.pwr.resets.filter (fun x => x.1 != b) ∧ (s.retire b).col.quietUntil = s.col.quietUntil.erase b := by
  obtain ⟨q, hq⟩ := State.retire_dead h
  obtain ⟨kpwr, kcol, -, -⟩ := (s.retiring b).setBlockState_leaves hb 3
  have hkeep (u : State) (q : SquareSt) : ({ u.showQuote with sq := q } : State).pwr = u.pwr ∧ ({ u.showQuote with sq := q } : State).col = u.col
    ∧ ({ u.showQuote with sq := q } : State).blk FLT_BLKn_STATE b = u.showQuote.blk FLT_BLKn_STATE b := ⟨rfl, rfl, rfl⟩
  obtain ⟨h1, h2, h3⟩ := hkeep ((s.retiring b).setBlockState b 3) q
  rw [hq, h1, h2, h3, kpwr, kcol]
  exact ⟨(State.showQuote_blk _ hb _).trans (State.setBlockState_state _ hb 3), rfl, rfl⟩

/-! ## Shadows that close and quiet periods that pass (R373, R379) -/

/-- The shadows that are not over. -/
def State.shadowsLeft (s : State) (b : Nat) : List Shadow :=
  s.col.shadows.filter fun x => !(x.kind == b && (match x.closeNs with | some c => decide (c < s.now) | none => false))

def State.keepShadows (s : State) (l : List Shadow) : State := { s with col := { s.col with shadows := l } }

theorem exec_shadowClose_eq (s : State) (b : Nat) : exec (.shadowClose b) s =
    .next (if b < 64 ∧ !((s.shadowsLeft b).any fun x => x.kind == b) then (s.keepShadows (s.shadowsLeft b)).setBlk FLT_BLKn_SHADOW b 0
      else s.keepShadows (s.shadowsLeft b)) := rfl

theorem State.mem_shadowsLeft {x : Shadow} : x ∈ s.shadowsLeft b ↔ x ∈ s.col.shadows ∧ ¬ (x.kind = b ∧ ∃ c, x.closeNs = some c ∧ c < s.now) := by
  unfold State.shadowsLeft
  rw [List.mem_filter]
  cases x.closeNs with
  | none => simp
  | some c => simp [imp_iff_not_or]

theorem State.shadowsLeft_kept (s : State) (b : Nat) (l : List Shadow) : ((s.keepShadows l).setBlk FLT_BLKn_SHADOW b 0).col.shadows = l
    ∧ (s.keepShadows l).col.shadows = l ∧ ((s.keepShadows l).setBlk FLT_BLKn_SHADOW b 0).out = s.out ∧ (s.keepShadows l).out = s.out := ⟨rfl, rfl, rfl, rfl⟩

/-- The shadows of a kind that are over go, and the register of a block shows that none is left. -/
theorem exec_shadowClose_leaves (s : State) (b : Nat) : ∃ t, exec (.shadowClose b) s = .next t ∧ t.col.shadows = s.shadowsLeft b ∧ t.out = s.out
    ∧ (b < 64 → (∀ x ∈ s.shadowsLeft b, x.kind ≠ b) → t.blk FLT_BLKn_SHADOW b = 0) := by
  obtain ⟨hset, hkeep, hout, hkout⟩ := s.shadowsLeft_kept b (s.shadowsLeft b)
  refine ⟨_, exec_shadowClose_eq s b, ?_⟩
  split
  · exact ⟨hset, hout, fun _ _ => State.blk_setBlk_self _ (by unfold Field.fits; decide) b 0⟩
  · next h => exact ⟨hkeep, hkout, fun hb hx => absurd ⟨hb, by simpa using hx⟩ h⟩

/-- No quiet period of the block runs. -/
def State.endQuiet (s : State) (b : Nat) : State := { s with col := { s.col with quietUntil := s.col.quietUntil.erase b } }

theorem exec_quietExpire_due {x : Nat} (h : s.col.quietUntil.get b = some x) (hx : x ≤ s.now) (hst : s.blk FLT_BLKn_STATE b = 1) :
    exec (.quietExpire b) s = .next (((s.endQuiet b).satFld (FLT_BLKn_PIPS.at (fltBlk b)) 1).setBlockState b 0) := by
  change execQuietExpire b s = _
  unfold execQuietExpire
  rw [h]
  exact if_pos ⟨hx, hst⟩

theorem State.blk_pips_counted (s : State) (b : Nat) :
    (s.satFld (FLT_BLKn_PIPS.at (fltBlk b)) 1).blk FLT_BLKn_PIPS b = min (s.blk FLT_BLKn_PIPS b + 1) 255 := by
  have hfits : FLT_BLKn_PIPS.fits := by unfold Field.fits; decide
  have hself := State.fld_setFld_self s (f := FLT_BLKn_PIPS.at (fltBlk b)) hfits (min (s.blk FLT_BLKn_PIPS b + 1) FLT_BLKn_PIPS.max)
  exact hself.trans (Nat.mod_eq_of_lt (Nat.lt_of_le_of_lt (Nat.min_le_right _ _) (show FLT_BLKn_PIPS.max < 2 ^ (FLT_BLKn_PIPS.hi - FLT_BLKn_PIPS.lo + 1) by decide)))

theorem State.endQuiet_leaves (s : State) (b : Nat) {t : State} (ht : t = (s.endQuiet b).satFld (FLT_BLKn_PIPS.at (fltBlk b)) 1) :
    t.col.quietUntil = s.col.quietUntil.erase b ∧ t.out = s.out ∧ t.blk FLT_BLKn_PIPS b = min (s.blk FLT_BLKn_PIPS b + 1) 255
    ∧ b ∉ (t.markBlock b 0).pwr.deadBlocks := by
  subst ht
  refine ⟨rfl, rfl, (s.endQuiet b).blk_pips_counted b, ?_⟩
  change b ∉ (s.pwr.deadBlocks.filter (· != b))
  simp

/-- A block whose quiet period has passed is in service, with a pip more. -/
theorem State.quietPassed_leaves (s : State) (hb : b < 64) {t : State} (ht : t = (s.endQuiet b).satFld (FLT_BLKn_PIPS.at (fltBlk b)) 1) :
    (t.setBlockState b 0).blk FLT_BLKn_STATE b = 0 ∧ (t.setBlockState b 0).blk FLT_BLKn_PIPS b = min (s.blk FLT_BLKn_PIPS b + 1) 255
    ∧ (t.setBlockState b 0).col.quietUntil = s.col.quietUntil.erase b ∧ b ∉ (t.setBlockState b 0).pwr.deadBlocks ∧ (t.setBlockState b 0).out = s.out := by
  obtain ⟨hquiet, hout, hpips, hdead⟩ := s.endQuiet_leaves b ht
  obtain ⟨kpwr, kcol, kout, -⟩ := t.setBlockState_leaves hb 0
  refine ⟨t.setBlockState_state hb 0, ?_, ?_, ?_, kout.trans hout⟩
  · rw [t.setBlockState_apart hb (by unfold Field.fits; decide) (by unfold Field.apart; decide)]
    exact hpips
  · rw [kcol]
    exact hquiet
  · rw [kpwr]
    exact hdead

end Sys2Proof.Machine

namespace Sys2Proof
open Machine

/-- Settles O33: losses and resets by their branches, a block that comes back by what keeps its probation. -/
theorem blockResults : Obligations.BlockResults := by
  intro s b start lvl v
  refine ⟨fun h => ?_, fun hb hd => ?_, fun h3 hb hd u hu w hw => ?_, fun p _ => s.pdOut_closed p, rfl, fun hl hbv u hu => ?_, fun h3 hb hd => ?_,
    fun hb k => if_pos hb, fun h3 hb hst => ?_, fun h3 hb hst hd => ?_, fun hb hauto => ?_, fun h => ?_, fun x hx => ⟨fun hnow => ?_, fun hnow => ?_⟩,
    ?_, fun h => ?_, fun x hb hx hle hst => ?_⟩
  · rw [exec_dieLost_eq, if_pos (by simpa using h)]
  · rw [exec_dieLost_eq, if_neg (by simp [hd]; omega), if_pos hb]
  · rw [exec_dieLost_eq, if_neg (by simp [hd]; omega), if_neg (by omega), hw, hu]
  · subst hbv
    rw [exec_blockReset_eq hl, s.orderBlockReset_eq lvl v hu]
    refine ⟨fun h => ?_, fun h hb => ?_, fun h h3 h63 hst hopen => ?_, fun h h3 h63 hst => ⟨fun hp => ?_, fun hp hopen => ?_⟩, fun h h3 h63 hst => ?_⟩
    · rw [if_pos h]
    · rw [if_neg (by omega), if_pos hb]
      cases lvl with
      | tenant => exact absurd rfl hl
      | _ => rfl
    · rw [if_neg (by omega), if_neg (by omega), if_neg (by omega), if_neg (by simp [hopen]; omega)]
    · rw [if_neg (by omega), if_neg (by omega), if_pos ⟨hst, by simpa using hp⟩]
    · rw [if_neg (by omega), if_neg (by omega), if_neg (by simp [hp]), if_neg (by simp [hopen]; omega)]
    · rw [if_neg (by omega), if_neg (by omega), if_neg (by omega), if_pos (.inr hst)]
  · exact ⟨_, rfl, State.startReset_leaves hb hd⟩
  · obtain ⟨-, hresets, -, hnow, hblk, -⟩ := s.resetEnded_leaves hb start
    have hclose : (s.resetClosing b start).blk FLT_BLKn_STATE b = s.blk FLT_BLKn_STATE b := hblk _ state_fits State.shadow_apart_state
    obtain ⟨h1, h2, h4, h5⟩ := (s.resetClosing b start).backInProbation_leaves hb rfl
    rw [exec_blockResetDone_block h3 hb, if_neg (by rw [hclose]; exact hst), if_pos rfl]
    refine ⟨_, rfl, h1, h2, fun x => ?_, h5.trans ?_⟩
    · rw [h4]
      exact hresets x
    · have hquiet : (s.resetClosing b start).blk FLT_BLKn_QUIET_MS b = s.blk FLT_BLKn_QUIET_MS b :=
        hblk _ (by unfold Field.fits; decide) (by unfold Field.apart; decide)
      have hn : (s.resetClosing b start).now = s.now := hnow
      rw [hquiet, hn]
  · obtain ⟨hdead, hresets, hq, -, hblk, -⟩ := s.resetEnded_leaves hb start
    have hclose : (s.resetClosing b start).blk FLT_BLKn_STATE b = s.blk FLT_BLKn_STATE b := hblk _ state_fits State.shadow_apart_state
    have hmem : b ∈ (s.resetClosing b start).pwr.deadBlocks := by
      change b ∈ (s.resetEnded b start).pwr.deadBlocks
      rw [hdead]
      exact hd
    obtain ⟨h1, h2, h4⟩ := (s.resetClosing b start).retire_leaves hb hmem
    rw [exec_blockResetDone_block h3 hb, if_neg (by rw [hclose]; exact hst), if_neg (by simp)]
    refine ⟨_, rfl, h1, fun x => ?_, h4.trans ?_⟩
    · rw [h2]
      simp
    · exact congrArg (NMap.erase · b) hq
  · obtain ⟨-, -, -, -, -, hfld⟩ := s.resetEnded_leaves (b := b) (by omega) start
    rw [exec_blockResetDone_arbiter hb, if_pos ((hfld _ (by decide)).trans hauto)]
    refine ⟨_, rfl, ?_, ?_⟩
    · rw [State.showQuote, State.fld_setFld_off _ (by decide), State.fld_setFld_apart _ (by unfold Field.fits; decide) (by unfold Field.fits; decide)
        (by unfold Field.apart; decide), State.fld_setFld_self _ (by unfold Field.fits; decide)]
      rfl
    · rw [State.showQuote, State.fld_setFld_off _ (by decide), State.fld_setFld_self _ (by unfold Field.fits; decide)]
      exact Nat.mod_eq_of_lt (Nat.lt_trans hb (by decide))
  · change execResetTimeout b s = _
    unfold execResetTimeout
    rw [h]
    rfl
  · change execResetTimeout b s = _
    unfold execResetTimeout
    rw [hx]
    exact if_pos hnow
  · change execResetTimeout b s = _
    unfold execResetTimeout
    rw [hx]
    exact if_neg (by omega)
  · obtain ⟨t, ht, hleft, hout, hshadow⟩ := exec_shadowClose_leaves s b
    refine ⟨t, ht, fun x hx => ?_, fun x hx h => ?_, fun x hx c hk hc => ?_, fun hb h => ?_, hout⟩
    · rw [hleft] at hx
      exact (State.mem_shadowsLeft.1 hx).1
    · rw [hleft]
      refine State.mem_shadowsLeft.2 ⟨hx, fun ⟨hk, c, hc, _⟩ => ?_⟩
      obtain h | h := h
      · exact h hk
      · rw [h] at hc
        cases hc
    · rw [hleft] at hx
      exact Nat.not_lt.1 fun hlt => (State.mem_shadowsLeft.1 hx).2 ⟨hk, c, hc, hlt⟩
    · rw [hleft] at h
      exact hshadow hb h
  · change execQuietExpire b s = _
    unfold execQuietExpire
    rw [h]
  · exact ⟨_, exec_quietExpire_due hx hle hst, s.quietPassed_leaves hb rfl⟩

end Sys2Proof
end

section
/-! Steering of epochs, the SYNC and PPS edges, PTP and ARP. -/

namespace Sys2Proof.Machine

variable {s t u : State}

/-! ## The geometry of the epochs (R114, R115) -/

theorem exec_epochCfgWrite_eq {lvl : Level} (hl : lvl ≠ .tenant) (v : Word64) : exec (.epochCfgWrite lvl v) s = .next (s.writeEpochCfg v) := by
  cases lvl with
  | tenant => exact absurd rfl hl
  | _ => rfl

theorem State.mirrorOut_unpaired (h : s.tri.paired = false) (item : Nat) : s.mirrorOut item = s := if_pos (.inl h)

/-- A geometry is to be taken at an epoch boundary. -/
def State.announceGeometry (s : State) (slots ticks : Nat) : State :=
  ({ s with time := { s.time with pendingGeom := some (slots, ticks, BitVec.ofNat 32 (s.epochAfter 3000000)) } } : State).setFld
    SCH_EPOCH_CFG_PENDING 1

theorem State.writeEpochCfg_eq (s : State) (v : Word64) : s.writeEpochCfg v =
    if s.geometryOk (SCH_EPOCH_CFG_SLOTS.of v) (SCH_EPOCH_CFG_SLOT_TICKS.of v + 1) then
      (s.announceGeometry (SCH_EPOCH_CFG_SLOTS.of v) (SCH_EPOCH_CFG_SLOT_TICKS.of v + 1)).mirrorOut 7
    else s.raise 0x0060 1 := rfl

theorem State.announceGeometry_plain (s : State) (slots ticks : Nat) : (s.announceGeometry slots ticks).tri = s.tri
    ∧ (s.announceGeometry slots ticks).time.pendingGeom = some (slots, ticks, BitVec.ofNat 32 (s.epochAfter 3000000))
    ∧ (s.announceGeometry slots ticks).out = s.out := ⟨rfl, rfl, rfl⟩

theorem State.announceGeometry_fld (s : State) (slots ticks : Nat) {f : Field} (hf : f.fits)
    (h : f.off ≠ SCH_EPOCH_CFG ∨ SCH_EPOCH_CFG_PENDING.apart f) : (s.announceGeometry slots ticks).fld f = s.fld f := by
  obtain h | h := h
  · exact State.fld_setFld_off _ h 1
  · exact State.fld_setFld_apart _ (by unfold Field.fits; decide) hf h 1

theorem State.announceGeometry_leaves (s : State) (slots ticks : Nat) : (s.announceGeometry slots ticks).fld SCH_EPOCH_CFG_PENDING = 1
    ∧ (s.announceGeometry slots ticks).geometry = s.geometry
    ∧ (s.announceGeometry slots ticks).fld SCH_EPOCH_NOW_EPOCH_NUM = s.fld SCH_EPOCH_NOW_EPOCH_NUM := by
  refine ⟨State.fld_setFld_self _ (by unfold Field.fits; decide) 1, ?_, s.announceGeometry_fld slots ticks (by unfold Field.fits; decide) (.inl (by decide))⟩
  rw [State.geometry, s.announceGeometry_fld slots ticks (by unfold Field.fits; decide) (.inr (by unfold Field.apart; decide)),
    s.announceGeometry_fld slots ticks (by unfold Field.fits; decide) (.inr (by unfold Field.apart; decide)), State.geometry]

/-! ## SYNC_IN: arming and acquiring (R142, R143) -/

theorem State.acquire_leaves (s : State) : s.acquire.fld SCH_SYNC_STATUS_STATE = 1 ∧ s.acquire.fld SCH_SYNC_CFG_SYNC_EN = s.fld SCH_SYNC_CFG_SYNC_EN
    ∧ s.acquire.time.edge = none ∧ s.acquire.time.missing = 0 ∧ s.acquire.out = s.out ∧ s.acquire.agents = s.agents := by
  refine ⟨State.fld_setFld_self _ (by unfold Field.fits; decide) 1, ?_, rfl, rfl, rfl, rfl⟩
  exact State.fld_setFld_off _ (by decide) 1

/-- The fields stored while no standby is paired. -/
theorem State.storeSyncCfg_unpaired (h : s.tri.paired = false) (v : Word64) : s.storeSyncCfg v =
    if SCH_SYNC_CFG_SYNC_EN.of v = 0 then (s.setReg SCH_SYNC_CFG (writeWord descSyncCfg (s.reg SCH_SYNC_CFG) v)).setFld SCH_SYNC_STATUS_STATE 0
    else s.setReg SCH_SYNC_CFG (writeWord descSyncCfg (s.reg SCH_SYNC_CFG) v) := by
  have hen : (s.setReg SCH_SYNC_CFG (writeWord descSyncCfg (s.reg SCH_SYNC_CFG) v)).fld SCH_SYNC_CFG_SYNC_EN = SCH_SYNC_CFG_SYNC_EN.of v :=
    (congrArg _ (State.reg_setReg_self s SCH_SYNC_CFG _)).trans (syncEn_writeWord _ _)
  unfold State.storeSyncCfg
  rw [State.mirrorOut_unpaired (s := s.setReg SCH_SYNC_CFG (writeWord descSyncCfg (s.reg SCH_SYNC_CFG) v)) h]
  dsimp only
  rw [hen]

theorem State.storeSyncCfg_rest (h : s.tri.paired = false) (v : Word64) : (s.storeSyncCfg v).time = s.time ∧ (s.storeSyncCfg v).out = s.out
    ∧ (s.storeSyncCfg v).agents = s.agents := by
  rw [State.storeSyncCfg_unpaired h]
  split
  · exact ⟨rfl, rfl, rfl⟩
  · exact ⟨rfl, rfl, rfl⟩

/-- STATE is off with SYNC_EN, and stands otherwise. -/
theorem State.storeSyncCfg_state (h : s.tri.paired = false) (v : Word64) : (s.storeSyncCfg v).fld SCH_SYNC_STATUS_STATE =
    if SCH_SYNC_CFG_SYNC_EN.of v = 0 then 0 else s.fld SCH_SYNC_STATUS_STATE := by
  rw [State.storeSyncCfg_unpaired h]
  split
  · exact State.fld_setFld_self _ (by unfold Field.fits; decide) 0
  · rw [State.fld, State.reg_setReg_ne _ _ (by decide), State.fld]

theorem exec_syncArm_eq {lvl : Level} (hl : lvl ≠ .tenant) (v : Word64) : exec (.syncArm lvl v) s = .next (s.writeSyncCfg v) := by
  rw [exec_syncArm, if_neg hl]

theorem exec_syncRearmTimer_due {x : Nat} (hx : s.time.lostNs = some x) (h : s.fld SCH_SYNC_CFG_AUTO_REARM = 1 ∧ s.fld SCH_SYNC_CFG_SYNC_EN = 1
    ∧ s.fld SCH_SYNC_STATUS_STATE = 3 ∧ x + 1000000000 ≤ s.now ∧ 20 ≤ s.epochTicks) : exec .syncRearmTimer s = .next s.acquire := by
  change execSyncRearmTimer s = _
  unfold execSyncRearmTimer
  rw [hx]
  exact if_pos h

/-! ## Edges (R138, R141, R145) -/

/-- The edge of SYNC_IN is stamped. -/
def State.stampSync (s : State) (ns : Nat) : State :=
  ({ s with time := { s.time with lastSyncNs := some ns } } : State).setReg TIM_SYNC_EDGE (BitVec.ofNat 64 ns)

theorem exec_syncInEdge_eq (s : State) (falling : Bool) (ns : Nat) : exec (.syncInEdge falling ns) s =
    if s.pwr.pwrgd = false ∨ s.fld TIM_TICK_SOURCE = 1 ∨ bit falling ≠ s.fld SCH_SYNC_CFG_EDGE ∨ tooSoon s.time.lastSyncNs ns then .next s
    else if (s.stampSync ns).steering = false then .next (s.stampSync ns)
    else match (s.stampSync ns).matchEdge ((ns / 128 : Nat) : Int) with
      | none => .next (s.stampSync ns)
      | some b => .next { s.stampSync ns with
        time := { (s.stampSync ns).time with edge := some (((ns / 128 : Nat) : Int), b + (s.stampSync ns).pendingAdj b), lastMatch := some b, missing := 0 } } := rfl

theorem exec_syncInEdge_taken {falling : Bool} {ns : Nat} (hp : s.pwr.pwrgd = true) (hsrc : s.fld TIM_TICK_SOURCE = 0)
    (hs : tooSoon s.time.lastSyncNs ns = false) (he : bit falling = s.fld SCH_SYNC_CFG_EDGE) :
    ((s.stampSync ns).steering = false ∨ (s.stampSync ns).matchEdge ((ns / 128 : Nat) : Int) = none →
      exec (.syncInEdge falling ns) s = .next (s.stampSync ns))
    ∧ ∀ b, (s.stampSync ns).steering = true → (s.stampSync ns).matchEdge ((ns / 128 : Nat) : Int) = some b →
      exec (.syncInEdge falling ns) s = .next { s.stampSync ns with
        time := { (s.stampSync ns).time with edge := some (((ns / 128 : Nat) : Int), b + (s.stampSync ns).pendingAdj b), lastMatch := some b, missing := 0 } } := by
  rw [exec_syncInEdge_eq, if_neg (by simp [hp, hsrc, hs, he])]
  refine ⟨fun h => ?_, fun b hst hm => ?_⟩
  · split
    · rfl
    · next hst => rw [h.resolve_left hst]
  · rw [if_neg (by simp [hst]), hm]

/-- The edge of PPS_IN is stamped. -/
def State.stampPps (s : State) (ns : Nat) : State :=
  (({ s with time := { s.time with lastPpsNs := some ns } } : State).setReg TIM_PPS_EDGE (BitVec.ofNat 64 ns)).setFld TIM_STATUS_PPS 1

theorem exec_ppsInEdge_eq (s : State) (ns : Nat) : exec (.ppsInEdge ns) s =
    if s.pwr.pwrgd = false ∨ s.fld TIM_TICK_SOURCE = 1 ∨ tooSoon s.time.lastPpsNs ns then .next s
    else .next ((s.stampPps ns).setReg TIM_CAL (BitVec.ofNat 64
      (nearestSecond (((s.stampPps ns).reg TIM_CAL).toNat - ((s.stampPps ns).now - ns)) + ((s.stampPps ns).now - ns)))) := rfl

theorem State.stampPps_reg (s : State) (ns : Nat) {off : Nat} (h : off ≠ TIM_STATUS) (h' : off ≠ TIM_PPS_EDGE) : (s.stampPps ns).reg off = s.reg off := by
  refine (State.reg_setFld_off _ (f := TIM_STATUS_PPS) h 1).trans ?_
  exact State.reg_setReg_ne { s with time := { s.time with lastPpsNs := some ns } } _ h'

theorem State.stampPps_edge (s : State) (ns : Nat) : (s.stampPps ns).reg TIM_PPS_EDGE = BitVec.ofNat 64 ns := by
  refine (State.reg_setFld_off _ (f := TIM_STATUS_PPS) (by decide) 1).trans ?_
  exact State.reg_setReg_self { s with time := { s.time with lastPpsNs := some ns } } _ _

theorem State.stampPps_pps (s : State) (ns : Nat) : (s.stampPps ns).fld TIM_STATUS_PPS = 1 :=
  State.fld_setFld_self _ (by unfold Field.fits; decide) 1

theorem State.setCal_leaves (s : State) (w : Word64) : (s.setReg TIM_CAL w).reg TIM_CAL = w ∧ (s.setReg TIM_CAL w).now = s.now
    ∧ (s.setReg TIM_CAL w).out = s.out ∧ (s.setReg TIM_CAL w).time = s.time ∧ (∀ f : Field, f.off ≠ TIM_CAL → (s.setReg TIM_CAL w).fld f = s.fld f)
    ∧ ∀ off, off ≠ TIM_CAL → (s.setReg TIM_CAL w).reg off = s.reg off := by
  refine ⟨State.reg_setReg_self s _ w, ?_, rfl, rfl, fun f hf => ?_, fun off h => State.reg_setReg_ne s w h⟩
  · rw [State.now, State.reg_setReg_ne s w (by decide), State.now]
  · rw [State.fld, State.reg_setReg_ne s w hf, State.fld]

/-- An edge of PPS_IN sets the calendar to the nearest second. -/
theorem exec_ppsInEdge_taken {ns : Nat} (hp : s.pwr.pwrgd = true) (hsrc : s.fld TIM_TICK_SOURCE = 0) (hs : tooSoon s.time.lastPpsNs ns = false) :
    ∃ t, exec (.ppsInEdge ns) s = .next t ∧ t.fld TIM_STATUS_PPS = 1 ∧ t.reg TIM_PPS_EDGE = BitVec.ofNat 64 ns ∧ t.time.lastPpsNs = some ns
      ∧ t.reg TIM_CAL = BitVec.ofNat 64 (nearestSecond ((s.reg TIM_CAL).toNat - (s.now - ns)) + (s.now - ns)) ∧ t.out = s.out ∧ t.now = s.now := by
  have hnow : (s.stampPps ns).now = s.now := by
    rw [State.now, s.stampPps_reg ns (by decide) (by decide), State.now]
  have hplain : (s.stampPps ns).time.lastPpsNs = some ns ∧ (s.stampPps ns).out = s.out := ⟨rfl, rfl⟩
  rw [exec_ppsInEdge_eq, if_neg (by simp [hp, hsrc, hs]), hnow, s.stampPps_reg ns (by decide) (by decide)]
  refine ⟨_, rfl, ?_⟩
  generalize BitVec.ofNat 64 (nearestSecond ((s.reg TIM_CAL).toNat - (s.now - ns)) + (s.now - ns)) = w
  obtain ⟨hcal, hn, hout, htime, hfld, hreg⟩ := (s.stampPps ns).setCal_leaves w
  refine ⟨?_, ?_, ?_, hcal, hout.trans hplain.2, hn.trans hnow⟩
  · rw [hfld _ (by decide), s.stampPps_pps]
  · rw [hreg _ (by decide), s.stampPps_edge]
  · rw [htime]
    exact hplain.1

/-! ## PTP and ARP (R441, R454) -/

/-- What a frame of the master says of the path and the offset. -/
def State.notePtp (s : State) (f : PtpFrame) : State :=
  ((s.setFld TIM_STATUS_PTP (if 2 ≤ s.fld TIM_STATUS_PTP then 3 else 2)).setFld TIM_PTP_OFFSET_NS f.offsetNs.toNat).setFld TIM_PTP_MPD_NS
    f.meanPathDelayNs.toNat

/-- The calendar after a frame of the master. -/
def State.calFrom (s : State) (f : PtpFrame) : Nat :=
  if s.fld TIM_STATUS_PPS = 1 then nearestSecond (f.timeOfDayNs - (s.reg TIM_CAL).toNat % 1000000000) + (s.reg TIM_CAL).toNat % 1000000000
  else f.timeOfDayNs

theorem exec_ptpFrame_eq (s : State) (f : PtpFrame) : exec (.ptpFrame f) s =
    if s.pwr.pwrgd = false ∨ s.fld TIM_TICK_SOURCE = 1 then .next s
    else if s.fld TIM_PTP_CFG_ENABLE = 0 ∨ f.domain.toNat ≠ s.fld TIM_PTP_CFG_DOMAIN ∨ f.fromMaster = false then .next (s.raise 0x1980 0)
    else .next ((s.notePtp f).setReg TIM_CAL (BitVec.ofNat 64 ((s.notePtp f).calFrom f))) := rfl

theorem State.notePtp_leaves (s : State) (f : PtpFrame) : 2 ≤ (s.notePtp f).fld TIM_STATUS_PTP ∧ (s.notePtp f).fld TIM_PTP_OFFSET_NS = f.offsetNs.toNat
    ∧ (s.notePtp f).fld TIM_PTP_MPD_NS = f.meanPathDelayNs.toNat ∧ (s.notePtp f).fld TIM_STATUS_PPS = s.fld TIM_STATUS_PPS
    ∧ (s.notePtp f).now = s.now ∧ (s.notePtp f).out = s.out := by
  have hptp : TIM_STATUS_PTP.fits := by unfold Field.fits; decide
  have hoff : TIM_PTP_OFFSET_NS.fits := by unfold Field.fits; decide
  have hmpd : TIM_PTP_MPD_NS.fits := by unfold Field.fits; decide
  unfold State.notePtp
  refine ⟨?_, ?_, ?_, ?_, ?_, rfl⟩
  · rw [State.fld_setFld_off _ (by decide), State.fld_setFld_off _ (by decide), State.fld_setFld_self _ hptp]
    split <;> decide
  · rw [State.fld_setFld_apart _ hmpd hoff (by unfold Field.apart; decide), State.fld_setFld_self _ hoff]
    exact Nat.mod_eq_of_lt f.offsetNs.isLt
  · rw [State.fld_setFld_self _ hmpd]
    exact Nat.mod_eq_of_lt f.meanPathDelayNs.isLt
  · rw [State.fld_setFld_off _ (by decide), State.fld_setFld_off _ (by decide),
      State.fld_setFld_apart _ hptp (by unfold Field.fits; decide) (by unfold Field.apart; decide)]
  · rw [State.now, State.reg_setFld_off _ (by decide), State.reg_setFld_off _ (by decide), State.reg_setFld_off _ (by decide), State.now]

/-- A frame of the master of the configured domain is taken. -/
theorem exec_ptpFrame_taken {f : PtpFrame} (hp : s.pwr.pwrgd = true) (hsrc : s.fld TIM_TICK_SOURCE = 0) (hen : s.fld TIM_PTP_CFG_ENABLE = 1)
    (hdom : f.domain.toNat = s.fld TIM_PTP_CFG_DOMAIN) (hm : f.fromMaster = true) : ∃ t, exec (.ptpFrame f) s = .next t ∧ 2 ≤ t.fld TIM_STATUS_PTP
      ∧ t.fld TIM_PTP_OFFSET_NS = f.offsetNs.toNat ∧ t.fld TIM_PTP_MPD_NS = f.meanPathDelayNs.toNat
      ∧ (s.fld TIM_STATUS_PPS ≠ 1 → t.reg TIM_CAL = BitVec.ofNat 64 f.timeOfDayNs) ∧ t.now = s.now ∧ t.out = s.out := by
  obtain ⟨hptp, hoff, hmpd, hpps, hnow, hout⟩ := s.notePtp_leaves f
  have hcal (h : s.fld TIM_STATUS_PPS ≠ 1) : (s.notePtp f).calFrom f = f.timeOfDayNs := if_neg (by rw [hpps]; exact h)
  rw [exec_ptpFrame_eq, if_neg (by simp [hp, hsrc]), if_neg (by simp [hen, hdom, hm])]
  refine ⟨_, rfl, ?_⟩
  generalize (s.notePtp f).calFrom f = n at hcal
  obtain ⟨hset, hn, ho, -, hfld, -⟩ := (s.notePtp f).setCal_leaves (BitVec.ofNat 64 n)
  refine ⟨?_, ?_, ?_, fun h => by rw [hset, hcal h], hn.trans hnow, ho.trans hout⟩
  · rw [hfld _ (by decide)]
    exact hptp
  · rw [hfld _ (by decide), hoff]
  · rw [hfld _ (by decide), hmpd]

theorem exec_arpRequest_eq (s : State) (isArp : Bool) (ip : BitVec 32) : exec (.arpRequest isArp ip) s =
    if s.pwr.pwrgd = false ∨ s.fld TIM_TICK_SOURCE = 1 then .next s
    else if isArp ∧ ip = s.dom.ip then .next (s.emit (.arpReply s.dom.mac s.dom.ip)) else .next (s.raise 0x1980 0) := rfl

end Sys2Proof.Machine

namespace Sys2Proof
open Machine

/-- Settles O23: each input by its branches, what it changes by a lemma over the state it acts on. -/
theorem steeringAndEdgeResults : Obligations.SteeringAndEdgeResults := by
  refine ⟨fun s v lvl slots ticks => ⟨fun h => if_pos h, fun hr hrole u hu => ?_, rfl, rfl, fun hl hslots hticks => ⟨fun h => ?_, fun h hp => ?_⟩,
    fun hl hp hen harm ht => ?_, fun hl hp hen => ?_, fun hl hp hen harm => ?_, fun h => ?_, fun x hx ha he hst hn ht => ?_⟩,
    fun s falling isArp ns f ip => ⟨fun h => ?_, fun hp hsrc => ⟨fun h => ?_, fun hs he u hu => ?_, fun h => ?_, fun h => exec_ppsInEdge_taken hp hsrc h,
      fun h => ?_, fun hen hdom hm => exec_ptpFrame_taken hp hsrc hen hdom hm, fun ha hip => ?_, fun h => ?_⟩⟩⟩
  · rw [hu]
    exact if_neg (by simp [hr, hrole])
  · rw [exec_epochCfgWrite_eq hl, s.writeEpochCfg_eq, ← hslots, ← hticks, if_neg (by simp [h])]
  · obtain ⟨htri, hgeom, hout⟩ := s.announceGeometry_plain slots ticks
    obtain ⟨hpend, hg, hn⟩ := s.announceGeometry_leaves slots ticks
    rw [exec_epochCfgWrite_eq hl, s.writeEpochCfg_eq, ← hslots, ← hticks, if_pos h, State.mirrorOut_unpaired (by rw [htri]; exact hp)]
    exact ⟨_, rfl, hgeom, hpend, hg, hn, hout⟩
  · obtain ⟨hstate, hsync, hedge, hmiss, hout, hagents⟩ := (s.storeSyncCfg v).acquire_leaves
    obtain ⟨-, ho, ha⟩ := State.storeSyncCfg_rest hp v
    rw [exec_syncArm_eq hl, State.writeSyncCfg_eq, State.syncEn_storeSyncCfg, State.epochTicks_storeSyncCfg, if_pos ⟨harm, hen, ht⟩]
    exact ⟨_, rfl, hstate, hsync.trans ((s.syncEn_storeSyncCfg v).trans hen), hedge, hmiss, hout.trans ho, hagents.trans ha⟩
  · obtain ⟨htime, ho, -⟩ := State.storeSyncCfg_rest hp v
    rw [exec_syncArm_eq hl, State.writeSyncCfg_of_unarmed (.inr (.inl hen))]
    exact ⟨_, rfl, (State.storeSyncCfg_state hp v).trans (if_pos hen), htime, ho⟩
  · obtain ⟨htime, ho, -⟩ := State.storeSyncCfg_rest hp v
    rw [exec_syncArm_eq hl, State.writeSyncCfg_of_unarmed (.inl (by omega))]
    exact ⟨_, rfl, (State.storeSyncCfg_state hp v).trans (if_neg (by omega)), htime, ho⟩
  · change execSyncRearmTimer s = _
    unfold execSyncRearmTimer
    rw [h]
  · exact exec_syncRearmTimer_due hx ⟨ha, he, hst, hn, ht⟩
  · exact ⟨if_pos (h.imp id .inl), if_pos (h.imp id .inl), if_pos h, if_pos h⟩
  · rw [exec_syncInEdge_eq, if_pos (by tauto)]
  · subst hu
    exact exec_syncInEdge_taken hp hsrc hs he
  · rw [exec_ppsInEdge_eq, if_pos (.inr (.inr h))]
  · rw [exec_ptpFrame_eq, if_neg (by simp [hp, hsrc]), if_pos h]
  · rw [exec_arpRequest_eq, if_neg (by simp [hp, hsrc]), if_pos ⟨ha, hip⟩]
  · rw [exec_arpRequest_eq, if_neg (by simp [hp, hsrc]), if_neg (by rintro ⟨ha, hip⟩; simp [ha, hip] at h)]

end Sys2Proof
end

section
/-! Controller resets, power, PERST and internal scans. -/

namespace Sys2Proof.Machine

variable {s t u : State}

/-! ## What a reset leaves (R426, R434) -/

theorem State.packageReset_leaves (s : State) (lost : Bool) (kind : Nat) : (s.packageReset lost kind).engines = [] ∧ (s.packageReset lost kind).queues = []
    ∧ (s.packageReset lost kind).programs = [] ∧ (s.packageReset lost kind).sec.keys = []
    ∧ (s.packageReset lost kind).sec.lifeCycle = s.sec.lifeCycle ∧ (s.packageReset lost kind).led = s.led.afterReset lost
    ∧ (s.packageReset lost kind).pwr = s.pwr.afterReset kind ∧ (s.packageReset lost kind).out = s.out
    ∧ (s.packageReset lost kind).pending = s.pending
    ∧ (s.packageReset lost kind).agents = s.agents.mapVals fun _ g => { g with phaseNs := g.phaseNs + (s.now : Int) } :=
  ⟨rfl, rfl, rfl, rfl, rfl, rfl, rfl, rfl, rfl, rfl⟩

theorem State.packageReset_regs (s : State) (lost : Bool) (kind : Nat) : (s.packageReset lost kind).regs = s.keptRegs lost := rfl

theorem State.packageReset_pcycle (s : State) (lost : Bool) (kind : Nat) : (s.packageReset lost kind).reg LED_PCYCLE = s.reg LED_PCYCLE := by
  rw [State.reg, State.packageReset_regs, State.keptRegs]
  cases lost with
  | true => exact NMap.getD_set_self _ _ _ _
  | false =>
    have hne : LED_PCYCLE ≠ LED_TIME := by decide
    exact (NMap.getD_set_ne _ _ _ hne).trans (NMap.getD_set_self _ _ _ _)

theorem State.packageReset_time (s : State) (kind : Nat) : (s.packageReset false kind).reg LED_TIME = s.reg LED_TIME := by
  rw [State.reg, State.packageReset_regs, State.keptRegs]
  exact NMap.getD_set_self _ _ _ _

/-- The other registers are at their reset value. -/
theorem State.packageReset_fresh (s : State) (lost : Bool) (kind : Nat) {off : Nat} (h : off ≠ LED_PCYCLE) (h' : off ≠ LED_TIME) :
    (s.packageReset lost kind).reg off = regReset off := by
  have hnil : (NMap.set [] LED_PCYCLE (s.reg LED_PCYCLE)).getD off (regReset off) = regReset off := by
    rw [NMap.getD_set_ne _ _ _ h]
    rfl
  rw [State.reg, State.packageReset_regs, State.keptRegs]
  cases lost with
  | true => exact hnil
  | false => exact (NMap.getD_set_ne _ _ _ h').trans hnil

theorem lastReset_fits : PWR_STATUS_LAST_RESET.fits := by unfold Field.fits; decide
theorem phase_fits : PWR_STATUS_PHASE.fits := by unfold Field.fits; decide
theorem railsOut_fits : PWR_STATUS_RAILS_OUT.fits := by unfold Field.fits; decide
theorem ready_fits : PWR_STATUS_READY.fits := by unfold Field.fits; decide

/-- The kind of the reset and the rails are shown. -/
def State.showReset (s : State) (kind : Nat) : State := (s.setFld PWR_STATUS_LAST_RESET kind).showRails

theorem State.controllerReset_eq (h : s.pwr.tripped = false) (h' : s.pwr.pwrgd = true) (kind : Nat) :
    s.controllerReset kind = ((s.packageReset false kind).showReset kind).startBringup := if_neg (by simp [h, h'])

theorem State.controllerReset_off (h : s.pwr.tripped = true ∨ s.pwr.pwrgd = false) (kind : Nat) : s.controllerReset kind = s := if_pos h

theorem State.showReset_leaves (s : State) {kind : Nat} (hk : kind < 8) : (s.showReset kind).fld PWR_STATUS_LAST_RESET = kind
    ∧ (s.showReset kind).fld PWR_STATUS_READY = s.fld PWR_STATUS_READY ∧ ∀ off, off ≠ PWR_STATUS → (s.showReset kind).reg off = s.reg off := by
  unfold State.showReset State.showRails
  refine ⟨?_, ?_, fun off h => ?_⟩
  · rw [State.fld_setFld_apart _ railsOut_fits lastReset_fits (by unfold Field.apart; decide), State.fld_setFld_self _ lastReset_fits]
    exact Nat.mod_eq_of_lt hk
  · rw [State.fld_setFld_apart _ railsOut_fits ready_fits (by unfold Field.apart; decide),
      State.fld_setFld_apart _ lastReset_fits ready_fits (by unfold Field.apart; decide)]
  · rw [State.reg_setFld_off _ h, State.reg_setFld_off _ h]

theorem State.startBringup_reg (s : State) {off : Nat} (h : off ≠ PWR_STATUS) : s.startBringup.reg off = s.reg off := by
  unfold State.startBringup
  split
  · exact State.reg_setFld_off _ h 1
  · rfl

theorem State.startBringup_fld (s : State) {f : Field} (hf : f.fits) (h : PWR_STATUS_PHASE.apart f) : s.startBringup.fld f = s.fld f := by
  unfold State.startBringup
  split
  · exact State.fld_setFld_apart _ phase_fits hf h 1
  · rfl

theorem State.startBringup_phase (h : s.pwr.pwrgd = true) (h' : s.pwr.resetN = true) : s.startBringup.fld PWR_STATUS_PHASE = 1 := by
  rw [State.startBringup, if_pos ⟨h, h'⟩]
  exact State.fld_setFld_self _ phase_fits 1

/-- The start of bring-up changes registers only. -/
theorem State.startBringup_eq (s : State) : ∃ m, s.startBringup = { s with regs := m } := by
  unfold State.startBringup
  split
  · exact ⟨_, rfl⟩
  · exact ⟨_, rfl⟩

theorem State.showReset_eq (s : State) (kind : Nat) : ∃ m, s.showReset kind = { s with regs := m } := ⟨_, rfl⟩

/-- A controller reset changes, beside what it empties, registers only. -/
theorem State.controllerReset_regs (h : s.pwr.tripped = false) (h' : s.pwr.pwrgd = true) (kind : Nat) :
    ∃ m, s.controllerReset kind = { s.packageReset false kind with regs := m } := by
  obtain ⟨m, hm⟩ := (s.packageReset false kind).showReset_eq kind
  obtain ⟨m', hm'⟩ := ((s.packageReset false kind).showReset kind).startBringup_eq
  rw [State.controllerReset_eq h h', hm']
  exact ⟨m', by rw [hm]⟩

/-- The registers after a controller reset. -/
theorem State.controllerReset_shown (h : s.pwr.tripped = false) (h' : s.pwr.pwrgd = true) {kind : Nat} (hk : kind < 8) :
    (s.controllerReset kind).fld PWR_STATUS_LAST_RESET = kind ∧ (s.controllerReset kind).fld PWR_STATUS_READY = 0
    ∧ (s.controllerReset kind).reg LED_PCYCLE = s.reg LED_PCYCLE ∧ (s.controllerReset kind).reg LED_TIME = s.reg LED_TIME
    ∧ (s.pwr.resetN = true → (s.controllerReset kind).fld PWR_STATUS_PHASE = 1) := by
  obtain ⟨hlast, hready, hreg⟩ := (s.packageReset false kind).showReset_leaves hk
  have hfresh : (s.packageReset false kind).fld PWR_STATUS_READY = 0 := by
    rw [State.fld, State.packageReset_fresh _ _ _ (by decide) (by decide)]
    decide +kernel
  have hpins : ((s.packageReset false kind).showReset kind).pwr.pwrgd = s.pwr.pwrgd ∧ ((s.packageReset false kind).showReset kind).pwr.resetN = s.pwr.resetN :=
    ⟨rfl, rfl⟩
  rw [State.controllerReset_eq h h']
  refine ⟨?_, ?_, ?_, ?_, fun hr => State.startBringup_phase (hpins.1.trans h') (hpins.2.trans hr)⟩
  · rw [State.startBringup_fld _ lastReset_fits (by unfold Field.apart; decide), hlast]
  · rw [State.startBringup_fld _ ready_fits (by unfold Field.apart; decide), hready, hfresh]
  · rw [State.startBringup_reg _ (by decide), hreg _ (by decide), State.packageReset_pcycle]
  · rw [State.startBringup_reg _ (by decide), hreg _ (by decide), State.packageReset_time]

/-! ## Pins and power (R434, R447, R448) -/

/-- RESET_N is not asserted. -/
def State.liftReset (s : State) : State := { s with pwr := { s.pwr with resetN := true } }

theorem State.liftReset_self (h : s.pwr.resetN = true) : s.liftReset = s := by
  unfold State.liftReset
  rw [← h]

theorem exec_resetNDeassert_eq (s : State) : exec .resetNDeassert s = .next (if s.pwr.resetN then s.liftReset else s.liftReset.startBringup) := rfl

theorem exec_ctrlReset_eq {lvl : Level} (hl : lvl ≠ .tenant) (v : Word64) :
    exec (.ctrlReset lvl v) s = .next (if PWR_CTRL_CTRL_RESET.of v = 1 then s.controllerReset 2 else s) := by
  have hite : (if PWR_CTRL_CTRL_RESET.of v = 1 then (.next (s.controllerReset 2) : Answer) else .next s)
      = .next (if PWR_CTRL_CTRL_RESET.of v = 1 then s.controllerReset 2 else s) := by
    split
    · rfl
    · rfl
  cases lvl with
  | tenant => exact absurd rfl hl
  | _ => exact hite

theorem exec_brownOutRecovery_due {x : Nat} (hx : s.pwr.brownBackNs = some x) (hh : s.pwr.held = true) (hs : s.hasStandby = false)
    (hn : x + 10000000 ≤ s.now) (hr : s.pwr.brownRails = []) : exec .brownOutRecovery s = .next (s.controllerReset 3) := by
  change execBrownOutRecovery s = _
  unfold execBrownOutRecovery
  rw [hx]
  exact if_neg (by simp [hh, hs, hr]; omega)

theorem exec_brownOutRecovery_none (h : s.pwr.brownBackNs = none ∨ s.pwr.held = false ∨ s.hasStandby = true) : exec .brownOutRecovery s = .next s := by
  change execBrownOutRecovery s = _
  unfold execBrownOutRecovery
  split
  · rfl
  · next hx =>
    rw [hx] at h
    exact if_pos ((h.resolve_left nofun).imp id .inl)

/-- The supply is gone. -/
def State.unpower (s : State) : State := { s with pwr := { s.pwr with pwrgd := false, tripped := false, thermtripN := true } }

theorem State.unpower_leaves (s : State) : s.unpower.pwr.pwrgd = false ∧ s.unpower.pwr.tripped = false ∧ s.unpower.gatesOpen = false
    ∧ s.unpower.engines = s.engines ∧ s.unpower.queues = s.queues ∧ s.unpower.hbm = s.hbm ∧ s.unpower.led = s.led ∧ s.unpower.sec = s.sec
    ∧ s.unpower.reg LED_PCYCLE = s.reg LED_PCYCLE ∧ s.unpower.out = s.out := ⟨rfl, rfl, rfl, rfl, rfl, rfl, rfl, rfl, rfl, rfl⟩

/-- A power cycle loses the ledger ring beside, not the flash. -/
theorem exec_powerLoss_leaves (s : State) : ∃ t, exec .powerLoss s = .next t ∧ t.pwr.pwrgd = false ∧ t.pwr.tripped = false ∧ t.gatesOpen = false
    ∧ t.engines = [] ∧ t.queues = [] ∧ t.hbm = [] ∧ t.led.ring = [] ∧ t.led.flash = s.led.flash ∧ t.led.security = s.led.security ∧ t.sec.keys = []
    ∧ t.reg LED_PCYCLE = s.reg LED_PCYCLE ∧ t.out = s.out := by
  obtain ⟨hp, ht, hg, he, hq, hh, hl, hs, hr, ho⟩ := (s.packageReset true 0).unpower_leaves
  have hled : (s.packageReset true 0).led.ring = [] ∧ (s.packageReset true 0).led.flash = s.led.flash
    ∧ (s.packageReset true 0).led.security = s.led.security := ⟨rfl, rfl, rfl⟩
  have hempty : (s.packageReset true 0).engines = [] ∧ (s.packageReset true 0).queues = [] ∧ (s.packageReset true 0).hbm = []
    ∧ (s.packageReset true 0).sec.keys = [] ∧ (s.packageReset true 0).out = s.out := ⟨rfl, rfl, rfl, rfl, rfl⟩
  obtain ⟨h1, h2, h3, h4, h5⟩ := hempty
  refine ⟨(s.packageReset true 0).unpower, rfl, hp, ht, hg, he.trans h1, hq.trans h2, hh.trans h3, ?_⟩
  rw [hl, hs]
  exact ⟨hled.1, hled.2.1, hled.2.2, h4, hr.trans (s.packageReset_pcycle true 0), ho.trans h5⟩

/-- The supply is there, and the rails are shown. -/
def State.powerUp (s : State) : State := ({ s with pwr := { s.pwr with pwrgd := true } } : State).showRails

theorem State.powerUp_leaves (s : State) : s.powerUp.pwr = { s.pwr with pwrgd := true } ∧ s.powerUp.led = s.led ∧ s.powerUp.agents = s.agents
    ∧ s.powerUp.out = s.out := ⟨rfl, rfl, rfl, rfl⟩

theorem State.powerUp_phase (s : State) : s.powerUp.fld PWR_STATUS_PHASE = s.fld PWR_STATUS_PHASE :=
  State.fld_setFld_apart { s with pwr := { s.pwr with pwrgd := true } } railsOut_fits phase_fits (by unfold Field.apart; decide) _

theorem State.startBringup_shown (h : s.pwr.pwrgd = true) :
    s.startBringup.fld PWR_STATUS_PHASE = if s.pwr.resetN = true then 1 else s.fld PWR_STATUS_PHASE := by
  split
  · next hr => exact State.startBringup_phase h hr
  · next hr => rw [State.startBringup, if_neg (by simp [hr])]

theorem exec_powerGood_leaves (h : s.pwr.pwrgd = false) : ∃ t, exec .powerGood s = .next t ∧ t.pwr = { s.pwr with pwrgd := true }
    ∧ t.fld PWR_STATUS_PHASE = (if s.pwr.resetN = true then 1 else s.fld PWR_STATUS_PHASE) ∧ t.led = s.led ∧ t.agents = s.agents ∧ t.out = s.out := by
  have hexec : exec .powerGood s = .next s.powerUp.startBringup := if_neg (by simp [h])
  obtain ⟨hpwr, hled, hag, hout⟩ := s.powerUp_leaves
  have hphase : s.powerUp.startBringup.fld PWR_STATUS_PHASE = if s.pwr.resetN = true then 1 else s.fld PWR_STATUS_PHASE := by
    rw [State.startBringup_shown (by rw [hpwr]), hpwr, State.powerUp_phase]
  obtain ⟨m, hm⟩ := s.powerUp.startBringup_eq
  refine ⟨_, hexec, ?_, hphase, ?_⟩
  · rw [hm]
    exact hpwr
  · rw [hm]
    exact ⟨hled, hag, hout⟩

/-! ## PERST (R453) -/

theorem exec_perstAssert_eq (s : State) (hub : Nat) : exec (.perstAssert hub) s =
    .next { s with pwr := { s.pwr with perst := if s.pwr.perst.contains hub then s.pwr.perst else s.pwr.perst ++ [hub] } } := rfl

theorem mem_perst_asserted (l : List Nat) (hub h : Nat) : h ∈ (if l.contains hub then l else l ++ [hub]) ↔ h = hub ∨ h ∈ l := by
  split
  · next hc => exact ⟨.inr, fun hh => hh.elim (fun hh => hh ▸ by simpa using hc) id⟩
  · simp [or_comm]

/-- The PCIe link of the hub is out of reset. -/
def State.liftPerst (s : State) (hub : Nat) : State := { s with pwr := { s.pwr with perst := s.pwr.perst.filter (· != hub) } }

theorem State.liftPerst_hubDown (s : State) (hub : Nat) : (s.liftPerst hub).hubDown hub = s.pwr.deadBlocks.contains (59 + hub) := by
  have hnot : (s.pwr.perst.filter (· != hub)).contains hub = false := by simp
  have heq : (s.liftPerst hub).hubDown hub = ((s.pwr.perst.filter (· != hub)).contains hub || s.pwr.deadBlocks.contains (59 + hub)) := rfl
  rw [heq, hnot, Bool.false_or]

theorem exec_perstDeassert_eq (s : State) (hub : Nat) : exec (.perstDeassert hub) s = .next (if s.pwr.deadBlocks.contains (59 + hub) then s.liftPerst hub
    else ({ s with pwr := { s.pwr with perst := s.pwr.perst.filter (· != hub), heldIo := s.pwr.heldIo.filter fun x => !s.heldAt hub x } } : State).forEach
      (s.pwr.heldIo.filter (s.heldAt hub)) fun s x => s.releaseIo x) := by
  change Host.Outcome.next ((s.liftPerst hub).releaseHub hub) = _
  rw [State.releaseHub, State.liftPerst_hubDown]
  rfl

end Sys2Proof.Machine

namespace Sys2Proof
open Machine

/-- Settles O24: a reset leaves what `packageReset` keeps, and a few registers show it. -/
theorem resetAndPowerResults : Obligations.ResetAndPowerResults := by
  refine ⟨fun s lvl v kind => ⟨fun ht hp hk => ?_, fun h => State.controllerReset_off h kind, fun u hu => by rw [hu]; rfl, fun h => ?_, fun h u hu => ?_, rfl,
    fun hl => exec_ctrlReset_eq hl v, fun x hx hh hs hn hr => exec_brownOutRecovery_due hx hh hs hn hr, exec_brownOutRecovery_none,
    exec_powerLoss_leaves s, fun h => if_pos h, exec_powerGood_leaves⟩, fun s hub d => ⟨?_, fun u hu => ⟨?_, fun hd => ?_⟩, fun hd => ?_, fun h => if_pos h,
    fun h0 h2 => if_neg (by omega)⟩⟩
  · obtain ⟨hlast, hready, hpc, htime, hphase⟩ := State.controllerReset_shown ht hp hk
    obtain ⟨m, hm⟩ := State.controllerReset_regs ht hp kind
    refine ⟨_, rfl, ?_⟩
    rw [hm] at hlast hready hpc htime hphase ⊢
    exact ⟨rfl, rfl, rfl, rfl, rfl, rfl, rfl, rfl, hlast, hready, hpc, htime, hphase, rfl, rfl, rfl⟩
  · rw [exec_resetNDeassert_eq, if_pos h, State.liftReset_self h]
  · rw [exec_resetNDeassert_eq, if_neg (by simp [h]), hu]
    have hbring : s.liftReset.startBringup = if s.pwr.pwrgd = true then s.liftReset.setFld PWR_STATUS_PHASE 1 else s.liftReset := by
      have hpins : s.liftReset.pwr.pwrgd = s.pwr.pwrgd ∧ s.liftReset.pwr.resetN = true := ⟨rfl, rfl⟩
      rw [State.startBringup, hpins.1, hpins.2]
      simp only [and_true]
    rw [hbring, State.liftReset]
  · refine ⟨_, exec_perstAssert_eq s hub, (mem_perst_asserted _ _ _).2 (.inl rfl), fun h hh => (mem_perst_asserted _ _ _).trans ?_, rfl, rfl⟩
    simp [hh]
  · rw [hu]
    simp
  · rw [exec_perstDeassert_eq, if_neg (by simp [hd]), hu]
  · rw [exec_perstDeassert_eq, if_pos (by simp [hd]), State.liftPerst]

end Sys2Proof
end

section
/-! The phases of bring-up. -/

namespace Sys2Proof.Machine

variable {s t u : State}

/-! ## What the steps of a phase keep -/

/-- The registers of bring-up, the ports, the agents, what has left, the ledger and the memories of the system area stand. -/
structure State.KeepsBringup (s t : State) : Prop where
  status : t.reg PWR_STATUS = s.reg PWR_STATUS
  flash : t.reg LED_FLASH = s.reg LED_FLASH
  ports : t.ports = s.ports
  agents : t.agents = s.agents
  out : t.out = s.out
  led : t.led = s.led
  hbm : t.hbm = s.hbm
  spill : t.spill = s.spill

theorem State.KeepsBringup.refl (s : State) : s.KeepsBringup s := ⟨rfl, rfl, rfl, rfl, rfl, rfl, rfl, rfl⟩

theorem State.KeepsBringup.trans (h : s.KeepsBringup t) (g : t.KeepsBringup u) : s.KeepsBringup u :=
  ⟨g.status.trans h.status, g.flash.trans h.flash, g.ports.trans h.ports, g.agents.trans h.agents, g.out.trans h.out, g.led.trans h.led,
    g.hbm.trans h.hbm, g.spill.trans h.spill⟩

theorem State.KeepsBringup.ite {c : Prop} [Decidable c] (h : s.KeepsBringup t) (g : s.KeepsBringup u) : s.KeepsBringup (if c then t else u) := by
  split
  · exact h
  · exact g

theorem State.KeepsBringup.forEach {α : Type} {f : State → α → State} (h : ∀ (s : State) x, s.KeepsBringup (f s x)) (l : List α) (s : State) :
    s.KeepsBringup (s.forEach l f) := by
  induction l generalizing s with
  | nil => exact .refl s
  | cons x l ih => exact (h s x).trans (ih (f s x))

theorem State.KeepsBringup.fld (h : s.KeepsBringup t) {f : Field} (hf : f.off = PWR_STATUS) : t.fld f = s.fld f := by
  rw [State.fld, State.fld, hf, h.status]

theorem keepsBringup_setFld (s : State) {f : Field} (h : PWR_STATUS ≠ f.off) (h' : LED_FLASH ≠ f.off) (v : Nat) : s.KeepsBringup (s.setFld f v) :=
  ⟨State.reg_setFld_off s h v, State.reg_setFld_off s h' v, rfl, rfl, rfl, rfl, rfl, rfl⟩

theorem keepsBringup_squares (s : State) (q : SquareSt) : s.KeepsBringup { s with sq := q } := ⟨rfl, rfl, rfl, rfl, rfl, rfl, rfl, rfl⟩

theorem keepsBringup_security (s : State) (x : SecSt) : s.KeepsBringup { s with sec := x } := ⟨rfl, rfl, rfl, rfl, rfl, rfl, rfl, rfl⟩

theorem keepsBringup_setQuarter (s : State) (q : Nat) (x : QuarterState) : s.KeepsBringup (s.setQuarter q x) :=
  (keepsBringup_squares s _).trans (keepsBringup_setFld _ (by decide) (by decide) _)

theorem keepsBringup_startRamp (s : State) : s.KeepsBringup s.startRamp := by
  unfold State.startRamp
  refine .ite (.refl s) ?_
  split
  · exact .refl s
  · exact (keepsBringup_squares s _).trans (keepsBringup_setQuarter _ _ _)

theorem keepsBringup_ungateReq (s : State) (cls q : Nat) : s.KeepsBringup (s.ungateReq cls q) := by
  unfold State.ungateReq
  dsimp only
  split
  · exact ((keepsBringup_squares s _).trans (keepsBringup_setQuarter _ _ _)).trans (keepsBringup_startRamp _)
  · exact .ite (.refl s) ((keepsBringup_squares s _).trans (keepsBringup_startRamp _))
  · exact .refl s

theorem keepsBringup_queueWake (s : State) (p cls : Nat) : s.KeepsBringup (s.queueWake p cls) := by
  have hq (l : List WakeReq) (n : Nat) : s.KeepsBringup { s with pwr := { s.pwr with wakeQ := l, wakeOrder := n } } := ⟨rfl, rfl, rfl, rfl, rfl, rfl, rfl, rfl⟩
  unfold State.queueWake
  exact .ite (.refl s) ((hq _ _).trans (keepsBringup_setFld _ (by decide) (by decide) _))

theorem keepsBringup_showPorts (s : State) : s.KeepsBringup s.showPorts :=
  (((keepsBringup_setFld s (by decide) (by decide) _).trans (keepsBringup_setFld _ (by decide) (by decide) _)).trans
    (keepsBringup_setFld _ (by decide) (by decide) _)).trans (keepsBringup_setFld _ (by decide) (by decide) _)

theorem keepsBringup_showCfb (s : State) : s.KeepsBringup s.showCfb :=
  ((keepsBringup_setFld s (by decide) (by decide) _).trans (keepsBringup_setFld _ (by decide) (by decide) _)).trans
    (keepsBringup_setFld _ (by decide) (by decide) _)

theorem keepsBringup_extendMeas (s : State) (i : Nat) (d : BitVec 384) : s.KeepsBringup (s.extendMeas i d) := keepsBringup_security s _

theorem State.nextPhase_phase (s : State) {n : Nat} (h : n < 16) : (s.nextPhase n).fld PWR_STATUS_PHASE = n :=
  (State.fld_setFld_self s phase_fits n).trans (Nat.mod_eq_of_lt h)

/-! ## The ends of the phases -/

theorem State.stopBringup_leaves (s : State) : s.stopBringup.pwr.stuck = true ∧ s.stopBringup.fld PWR_STATUS_PHASE = s.fld PWR_STATUS_PHASE
    ∧ s.stopBringup.fld PWR_STATUS_READY = s.fld PWR_STATUS_READY :=
  ⟨rfl, State.fld_setFld_off { s with pwr := { s.pwr with stuck := true, faultN := false } } (by decide) 1,
    State.fld_setFld_off { s with pwr := { s.pwr with stuck := true, faultN := false } } (by decide) 1⟩

/-! ### Phase 1 (R384, R417) -/

/-- The power cycle is counted where power had been lost. -/
def State.countPower (s : State) : State :=
  if s.pwr.resetKind = 0 then
    ({ s with sec := { s.sec with wipePending := false, powerCycles := s.sec.powerCycles + 1 } } : State).satFld LED_PCYCLE_COUNT 1
  else { s with sec := { s.sec with wipePending := false } }

theorem State.phase1_eq (s : State) : s.phase1 = s.countPower.nextPhase 2 := rfl

theorem State.countPower_leaves (s : State) : s.countPower.led = s.led ∧ s.countPower.out = s.out := by
  unfold State.countPower
  split
  · exact ⟨rfl, rfl⟩
  · exact ⟨rfl, rfl⟩

theorem State.countPower_counted (h : s.pwr.resetKind = 0) : s.countPower.fld LED_PCYCLE_COUNT = min (s.fld LED_PCYCLE_COUNT + 1) (2 ^ 32 - 1) := by
  rw [State.countPower, if_pos h]
  refine (State.fld_setFld_self _ (f := LED_PCYCLE_COUNT) (by unfold Field.fits; decide) _).trans ?_
  exact Nat.mod_eq_of_lt (Nat.lt_of_le_of_lt (Nat.min_le_right _ _) (by decide))

theorem State.phase1_leaves (s : State) : s.phase1.fld PWR_STATUS_PHASE = 2
    ∧ (s.pwr.resetKind = 0 → s.phase1.fld LED_PCYCLE_COUNT = min (s.fld LED_PCYCLE_COUNT + 1) (2 ^ 32 - 1)) ∧ s.phase1.led = s.led ∧ s.phase1.out = s.out := by
  have hrest (v : State) : (v.nextPhase 2).led = v.led ∧ (v.nextPhase 2).out = v.out := ⟨rfl, rfl⟩
  rw [State.phase1_eq]
  refine ⟨State.nextPhase_phase _ (by decide), fun h => ?_, (hrest _).1.trans s.countPower_leaves.1, (hrest _).2.trans s.countPower_leaves.2⟩
  exact (State.fld_setFld_off _ (by decide) 2).trans (State.countPower_counted h)

/-! ### Phase 2 (R351, R418): the ports train -/

/-- A port of the controller starts its training. -/
def State.trainPort (s : State) (p : Nat) : State :=
  (s.setPort .ctl p { s.port .ctl p with state := 1, trainNs := s.now }).queueWake p 4

/-- What a phase that trains ports keeps. -/
structure State.KeepsTraining (s t : State) : Prop where
  flash : t.reg LED_FLASH = s.reg LED_FLASH
  agents : t.agents = s.agents
  out : t.out = s.out
  port : ∀ p, (s.port .ctl p).state = 1 → (t.port .ctl p).state = 1

theorem State.KeepsTraining.trans (h : s.KeepsTraining t) (g : t.KeepsTraining u) : s.KeepsTraining u :=
  ⟨g.flash.trans h.flash, g.agents.trans h.agents, g.out.trans h.out, fun p hp => g.port p (h.port p hp)⟩

theorem State.KeepsBringup.port (h : s.KeepsBringup t) (p : Nat) : t.port .ctl p = s.port .ctl p :=
  congrArg (fun m : NMap PortSt => m.getD p {}) h.ports

theorem State.KeepsBringup.training (h : s.KeepsBringup t) : s.KeepsTraining t :=
  ⟨h.flash, h.agents, h.out, fun p hp => (congrArg PortSt.state (h.port p)).trans hp⟩

theorem keepsTraining_setPort (s : State) (p : Nat) {x : PortSt} (hx : x.state = 1) : s.KeepsTraining (s.setPort .ctl p x) := by
  refine ⟨rfl, rfl, rfl, fun q hq => ?_⟩
  by_cases hqp : q = p
  · rw [hqp, State.port_setPort_self]
    exact hx
  · rw [State.port_setPort_ne s .ctl _ hqp]
    exact hq

theorem keepsTraining_trainPort (s : State) (p : Nat) : s.KeepsTraining (s.trainPort p) :=
  (keepsTraining_setPort s p rfl).trans (keepsBringup_queueWake _ p 4).training

theorem State.trainPort_state (s : State) (p : Nat) : ((s.trainPort p).port .ctl p).state = 1 := by
  unfold State.trainPort
  rw [(keepsBringup_queueWake _ p 4).port, State.port_setPort_self]

theorem keepsTraining_trainPorts (l : List Nat) (s : State) : s.KeepsTraining (s.forEach l State.trainPort) := by
  induction l generalizing s with
  | nil => exact (State.KeepsBringup.refl s).training
  | cons p l ih => exact (keepsTraining_trainPort s p).trans (ih (s.trainPort p))

theorem State.trainPorts_state {p : Nat} {l : List Nat} (h : p ∈ l) (s : State) : ((s.forEach l State.trainPort).port .ctl p).state = 1 := by
  induction l generalizing s with
  | nil => exact absurd h List.not_mem_nil
  | cons q l ih =>
    obtain rfl | h := List.mem_cons.1 h
    · exact (keepsTraining_trainPorts l (s.trainPort p)).port p (s.trainPort_state p)
    · exact ih h (s.trainPort q)

/-- The boot image is measured. -/
def State.measureBoot (s : State) (r : PhaseResult) : State :=
  let s := (s.extendMeas 0 Config.romIdentity).extendMeas 1 r.bootDigest
  (s.extendMeas 4 (sha384 [BitVec.ofNat 8 s.sec.lifeCycle])).setFld LED_FLASH_FLASH_OK 1

theorem State.phase2_eq {r : PhaseResult} (h : r.bootOk = true) (s : State) :
    s.phase2 r = (((s.measureBoot r).forEach (List.range 72) State.trainPort).showPorts).nextPhase 3 := if_neg (by simp [h])

theorem State.measureBoot_leaves (s : State) (r : PhaseResult) : (s.measureBoot r).fld LED_FLASH_FLASH_OK = 1 ∧ (s.measureBoot r).agents = s.agents
    ∧ (s.measureBoot r).out = s.out := ⟨State.fld_setFld_self _ (by unfold Field.fits; decide) 1, rfl, rfl⟩

theorem State.phase2_leaves {r : PhaseResult} (h : r.bootOk = true) (s : State) : (s.phase2 r).fld PWR_STATUS_PHASE = 3
    ∧ (s.phase2 r).fld LED_FLASH_FLASH_OK = 1 ∧ (∀ p < 72, ((s.phase2 r).port .ctl p).state = 1) ∧ (s.phase2 r).agents = s.agents
    ∧ (s.phase2 r).out = s.out := by
  obtain ⟨hok, hag, hout⟩ := s.measureBoot_leaves r
  have hports (p : Nat) (hp : p < 72) := State.trainPorts_state (p := p) (List.mem_range.2 hp) (s.measureBoot r)
  have htrain := keepsTraining_trainPorts (List.range 72) (s.measureBoot r)
  have hnext (v : State) : v.KeepsTraining (v.nextPhase 3) := ⟨State.reg_setFld_off v (by decide) 3, rfl, rfl, fun _ h => h⟩
  have hend := (keepsBringup_showPorts ((s.measureBoot r).forEach (List.range 72) State.trainPort)).training.trans (hnext _)
  have hall := htrain.trans hend
  rw [State.phase2_eq h]
  refine ⟨State.nextPhase_phase _ (by decide), ?_, fun p hp => hend.port p (hports p hp), hall.agents.trans hag, hall.out.trans hout⟩
  exact (congrArg LED_FLASH_FLASH_OK.of hall.flash).trans hok

/-! ### The known-answer runs (R419) -/

theorem State.voters_eq (s : State) : s.voters = (List.range 3).countP s.votes := by
  have hbit (n : Nat) : n % 2 = if n % 2 = 1 then 1 else 0 := by split <;> omega
  unfold State.voters State.votes
  dsimp only
  generalize s.fld TRI_STATUS_VOTING = v
  rw [hbit v, hbit (v / 2), hbit (v / 4)]
  simp [List.range_succ, List.countP_cons]
  ac_rfl

/-- The arbiters that are out of the vote or have failed. -/
def State.missingArbiters (s : State) (r : PhaseResult) : Nat := (List.range 3).countP fun b => !s.votes b || r.failedBlocks.contains b

theorem State.bringFailures_eq (s : State) (r : PhaseResult) : s.bringFailures r =
    if 2 ≤ s.missingArbiters r ∨ r.failedBlocks.contains 63 ∨ r.gatesOk = false then none
    else some (s.forEach r.failedBlocks fun s b => if b < 3 then s.fence b 0 else s.retire b) := by
  rw [State.missingArbiters, List.countP_eq_length_filter]
  rfl

theorem State.votes_count (s : State) : s.voters + (List.range 3).countP (fun b => !s.votes b) = 3 := by
  rw [State.voters_eq]
  have h := List.length_eq_countP_add_countP s.votes (l := List.range 3)
  simpa using h.symm

/-- With fewer than two arbiters in the vote two are missing. -/
theorem State.missingArbiters_many (r : PhaseResult) (h : s.voters < 2) : 2 ≤ s.missingArbiters r := by
  have hcount := s.votes_count
  have hle : (List.range 3).countP (fun b => !s.votes b) ≤ s.missingArbiters r := List.countP_mono_left fun b _ hb => by simp [hb]
  omega

/-- Where no block failed the missing arbiters are those out of the vote. -/
theorem State.missingArbiters_few {r : PhaseResult} (hr : r.failedBlocks = []) (h : 2 ≤ s.voters) : s.missingArbiters r < 2 := by
  have hcount := s.votes_count
  have heq : s.missingArbiters r = (List.range 3).countP (fun b => !s.votes b) := by
    rw [State.missingArbiters, hr]
    simp
  omega

theorem State.bringFailures_none {r : PhaseResult} (h : r.gatesOk = false ∨ 63 ∈ r.failedBlocks ∨ s.voters < 2) : s.bringFailures r = none := by
  rw [State.bringFailures_eq]
  refine if_pos ?_
  obtain h | h | h := h
  · exact .inr (.inr h)
  · exact .inr (.inl (by simpa using h))
  · exact .inl (State.missingArbiters_many r h)

theorem State.bringFailures_passed {r : PhaseResult} (hr : r.failedBlocks = []) (hg : r.gatesOk = true) (h : 2 ≤ s.voters) : s.bringFailures r = some s := by
  have hfew := State.missingArbiters_few hr h
  rw [State.bringFailures_eq, if_neg (by simp [hr, hg]; omega), hr]
  rfl

/-! ### The phases from 4 on (R21, R35, R384, R417) -/

/-- The memories are empty, and the ledger's sequence goes on. -/
def State.zeroFill (s : State) : State :=
  let next := s.led.ring.foldl (fun m x => max m (x.2.seq + 1)) 0
  let s : State := { s with hbm := [], spill := [] }
  s.setFld LED_SEQ_NEXT_SEQ (if s.pwr.resetKind = 0 then 0 else next)

theorem State.phase4_eq (s : State) : s.phase4 = (s.zeroFill.nextPhase 5).forEach (List.range 48) fun s q => s.ungateReq 4 q := rfl

theorem State.phase4_leaves (s : State) : s.phase4.fld PWR_STATUS_PHASE = 5 ∧ s.phase4.hbm = [] ∧ s.phase4.spill = [] ∧ s.phase4.led = s.led
    ∧ s.phase4.out = s.out := by
  have hkeep : (s.zeroFill.nextPhase 5).KeepsBringup s.phase4 := by
    rw [State.phase4_eq]
    exact .forEach (fun s q => keepsBringup_ungateReq s 4 q) _ _
  have hplain : (s.zeroFill.nextPhase 5).hbm = [] ∧ (s.zeroFill.nextPhase 5).spill = [] ∧ (s.zeroFill.nextPhase 5).led = s.led
    ∧ (s.zeroFill.nextPhase 5).out = s.out := ⟨rfl, rfl, rfl, rfl⟩
  obtain ⟨h1, h2, h3, h4⟩ := hplain
  exact ⟨(hkeep.fld rfl).trans (State.nextPhase_phase _ (by decide)), hkeep.hbm.trans h1, hkeep.spill.trans h2, hkeep.led.trans h3, hkeep.out.trans h4⟩

/-- The squares that failed are excluded, and no quarter is on. -/
def State.gateQuarters (s : State) (r : PhaseResult) : State :=
  { s with sq := { s.sq with excluded := (s.sq.excluded ++ r.failedSquares).dedup, quarters := [], tested := [], ungate := [] } }

theorem State.phase5_eq (s : State) (r : PhaseResult) : s.phase5 r = (s.gateQuarters r).showCfb.showGated.nextPhase 6 := rfl

theorem State.phase5_leaves (s : State) (r : PhaseResult) : (s.phase5 r).fld PWR_STATUS_PHASE = 6 ∧ (∀ x ∈ r.failedSquares, x ∈ (s.phase5 r).sq.excluded)
    ∧ (∀ q, (s.phase5 r).quarter q = .gated) ∧ (s.phase5 r).out = s.out := by
  have hsq : (s.phase5 r).sq = (s.gateQuarters r).sq ∧ (s.phase5 r).out = s.out := ⟨rfl, rfl⟩
  refine ⟨State.nextPhase_phase _ (by decide), fun x hx => ?_, fun q => ?_, hsq.2⟩
  · rw [hsq.1]
    exact List.mem_dedup.2 (List.mem_append_right _ hx)
  · rw [State.quarter, hsq.1]
    rfl

theorem keepsBringup_loadSlot (s : State) (slot : Nat) (ok : Bool) (l : List Byte) : s.KeepsBringup (s.loadSlot slot ok l) := by
  unfold State.loadSlot
  extract_lets p
  have hprog (m : NMap Program) : s.KeepsBringup { s with programs := m } := ⟨rfl, rfl, rfl, rfl, rfl, rfl, rfl, rfl⟩
  exact .ite ((hprog _).trans (keepsBringup_extendMeas _ _ _)) (.refl s)

/-- What has left stands. -/
theorem State.takeInventory_out (s : State) (r : PhaseResult) : (s.takeInventory r).out = s.out := by
  have hraise (l : List Nat) (v : State) : (v.forEach l fun s _ => s.raise 0x0000 1).out = v.out := by
    induction l generalizing v with
    | nil => rfl
    | cons x l ih => exact (ih (v.raise 0x0000 1)).trans (State.raise_out v _ _ _ _ _)
  unfold State.takeInventory
  dsimp only
  split
  · rfl
  · exact hraise _ _

theorem State.startResident_out (s : State) (e : Nat) : (s.startResident e).out = s.out := by
  unfold State.startResident
  split
  · rfl
  · rfl

theorem State.forEach_out {α : Type} {f : State → α → State} (h : ∀ (s : State) x, (f s x).out = s.out) (l : List α) (s : State) :
    (s.forEach l f).out = s.out := by
  induction l generalizing s with
  | nil => rfl
  | cons x l ih => exact (ih (f s x)).trans (h s x)

theorem State.phase6_leaves (s : State) (r : PhaseResult) : (s.phase6 r).fld PWR_STATUS_PHASE = 7 ∧ (s.phase6 r).out = s.out := by
  refine ⟨State.nextPhase_phase _ (by decide), ?_⟩
  refine (State.forEach_out State.startResident_out _ _).trans ((State.takeInventory_out _ r).trans ?_)
  exact State.forEach_out (fun s x => (keepsBringup_loadSlot s _ _ _).out) _ s

/-- READY with its marker in the ledger and the registers that the resident program writes. -/
def State.showReady (s : State) : State :=
  let s := (s.setFld PWR_STATUS_READY 1).nextPhase 0
  let s := s.toWriter (s.ownRecord 0x0018 2 1 (BitVec.ofNat 16 s.pwr.resetKind) s.operMs s.operTick)
  let s := s.setFld TRI_STANDBY_CFG_PARTNER_ID s.dom.partnerId.toNat
  (s.setFld TIM_PTP_CFG_DOMAIN s.dom.ptpDomain.toNat).setFld TIM_PTP_CFG_TRANSPORT (bit s.dom.ptpUdp)

theorem State.becomeReady_eq (s : State) : s.becomeReady = s.showReady.forEach (List.range 72) State.askDiscovery := rfl

theorem State.showReady_status (s : State) : s.showReady.reg PWR_STATUS = ((s.setFld PWR_STATUS_READY 1).nextPhase 0).reg PWR_STATUS := by
  have hwriter (v : State) (r : LedgerRec) : (v.toWriter r).reg PWR_STATUS = v.reg PWR_STATUS :=
    State.reg_setFld_off { v with led := { v.led with buffer := v.led.buffer ++ [r] } } (f := LED_STATUS_BACKLOG) (by decide) _
  unfold State.showReady
  dsimp only
  rw [State.reg_setFld_off _ (by decide), State.reg_setFld_off _ (by decide), State.reg_setFld_off _ (by decide), hwriter]

theorem linkOnly_askDiscovery (s : State) (p : Nat) : s.LinkOnly (s.askDiscovery p) := by
  unfold State.askDiscovery
  exact linkOnly_ite (linkOnly_sendPkt s _ _ _ _) (linkOnly_refl s)

/-- The controller is ready (R417). -/
theorem State.becomeReady_leaves (s : State) : s.becomeReady.fld PWR_STATUS_PHASE = 0 ∧ s.becomeReady.fld PWR_STATUS_READY = 1 := by
  have hreg : s.becomeReady.reg PWR_STATUS = ((s.setFld PWR_STATUS_READY 1).nextPhase 0).reg PWR_STATUS := by
    rw [State.becomeReady_eq, LinkOnly_reg (linkOnly_forEach linkOnly_askDiscovery _ s.showReady), State.showReady_status]
  refine ⟨(congrArg PWR_STATUS_PHASE.of hreg).trans (State.nextPhase_phase _ (by decide)), (congrArg PWR_STATUS_READY.of hreg).trans ?_⟩
  exact (State.fld_setFld_apart _ phase_fits ready_fits (by unfold Field.apart; decide) 0).trans (State.fld_setFld_self s ready_fits 1)

/-! ## The command -/

theorem exec_bringupPhaseDone_off {r : PhaseResult} (h : s.pwr.pwrgd = false ∨ s.pwr.tripped = true ∨ s.pwr.stuck = true ∨ s.fld PWR_STATUS_PHASE = 0) :
    exec (.bringupPhaseDone r) s = .next s := by
  change execBringupPhaseDone r s = _
  unfold execBringupPhaseDone
  split
  · rfl
  · exact if_pos (by tauto)

/-- A phase of the powered controller ends. -/
theorem exec_bringupPhaseDone_on {r : PhaseResult} (hp : s.pwr.pwrgd = true) (ht : s.pwr.tripped = false) (hs : s.pwr.stuck = false) :
    (s.fld PWR_STATUS_PHASE = 1 → exec (.bringupPhaseDone r) s = .next s.phase1)
    ∧ (s.fld PWR_STATUS_PHASE = 2 → exec (.bringupPhaseDone r) s = .next (s.phase2 r))
    ∧ (3 ≤ s.fld PWR_STATUS_PHASE → exec (.bringupPhaseDone r) s = match s.bringFailures r with
      | none => .next s.stopBringup
      | some t => if s.fld PWR_STATUS_PHASE = 3 then .next (t.nextPhase 4) else if s.fld PWR_STATUS_PHASE = 4 then .next t.phase4
        else if s.fld PWR_STATUS_PHASE = 5 then .next (t.phase5 r) else if s.fld PWR_STATUS_PHASE = 6 then .next (t.phase6 r) else .next t.becomeReady) := by
  have hexec : exec (.bringupPhaseDone r) s = execBringupPhaseDone r s := rfl
  rw [hexec]
  unfold execBringupPhaseDone
  rw [if_neg (by simp [hp, ht, hs])]
  refine ⟨fun h => ?_, fun h => ?_, fun h => ?_⟩
  · exact (if_neg (by omega)).trans (if_pos h)
  · exact (if_neg (by omega)).trans ((if_neg (by omega)).trans (if_pos h))
  · exact (if_neg (by omega)).trans ((if_neg (by omega)).trans (if_neg (by omega)))

end Sys2Proof.Machine

namespace Sys2Proof
open Machine

/-- Settles O25: phase by phase, from what each phase leaves. -/
theorem bringupResults : Obligations.BringupResults := by
  refine fun s r => ⟨exec_bringupPhaseDone_off, s.stopBringup_leaves, fun hp ht hs => ?_⟩
  obtain ⟨hone, htwo, hmore⟩ := exec_bringupPhaseDone_on (r := r) hp ht hs
  refine ⟨fun h => ⟨_, hone h, s.phase1_leaves⟩, fun h hb => ?_, fun h hb => ⟨_, htwo h, State.phase2_leaves hb s⟩, fun h hf => ?_,
    fun h hr hg hv => ?_, fun h hr hg hv => ⟨_, ?_, s.phase4_leaves⟩, fun h hr hg hv => ⟨_, ?_, s.phase5_leaves r⟩, fun h hr hg hv => ⟨_, ?_, s.phase6_leaves r⟩,
    fun h hr hg hv => ⟨_, ?_, s.becomeReady_leaves⟩⟩
  · exact (htwo h).trans (congrArg _ (if_pos hb))
  · rw [hmore h, State.bringFailures_none hf]
  all_goals
    rw [hmore (by omega), State.bringFailures_passed hr hg hv, h]
    rfl

end Sys2Proof
end

section
/-! Link training and retraining. -/

namespace Sys2Proof.Machine

variable {s t u : State}

/-! ## What the end of a training records (R421) -/

theorem PortSt.trained_state (x : PortSt) (lanes : Nat) :
    (x.trained lanes).state = if lanes = 0 then 5 else if 2 * lanes < x.planned then 4 else if lanes < x.planned then 3 else 2 := by
  have hstate : (x.trained lanes).state = if lanes = 0 then 5 else if lanes < (x.planned + 1) / 2 then 4 else if lanes < x.planned then 3 else 2 := rfl
  have hhalf : lanes < (x.planned + 1) / 2 ↔ 2 * lanes < x.planned := by omega
  rw [hstate, if_congr hhalf rfl rfl]

theorem PortSt.trained_lanes (x : PortSt) (lanes : Nat) :
    (x.trained lanes).lanes = if (x.trained lanes).state = 2 ∨ (x.trained lanes).state = 3 then lanes else 0 := by
  have hlanes : (x.trained lanes).lanes = if ((x.trained lanes).state == 2 || (x.trained lanes).state == 3) = true then lanes else 0 := rfl
  rw [hlanes]
  exact if_congr (by simp) rfl rfl

theorem PortSt.trained_far (x : PortSt) (lanes : Nat) : (x.trained lanes).farId = x.farId ∧ (x.trained lanes).farPort = x.farPort := ⟨rfl, rfl⟩

/-- Of the registers those that show ports and links may change. -/
def State.PortsShown (s t : State) : Prop := ∀ off, off ≠ PWR_PORTS → off ≠ PWR_DOMAIN → t.reg off = s.reg off

theorem State.PortsShown.refl (s : State) : s.PortsShown s := fun _ _ _ => rfl

theorem State.PortsShown.trans (h : s.PortsShown t) (g : t.PortsShown u) : s.PortsShown u := fun off h1 h2 => (g off h1 h2).trans (h off h1 h2)

theorem State.PortsShown.now (h : s.PortsShown t) : t.now = s.now := congrArg BitVec.toNat (h TIM_NOW (by decide) (by decide))

theorem State.PortsShown.ready (h : s.PortsShown t) : t.ready = s.ready :=
  congrArg (fun w => PWR_STATUS_READY.of w == 1) (h PWR_STATUS (by decide) (by decide))

theorem State.showDomain_leaves (s : State) : s.showDomain.ports = s.ports ∧ s.showDomain.agents = s.agents ∧ s.showDomain.out = s.out
    ∧ s.showDomain.engines = s.engines ∧ s.PortsShown s.showDomain := by
  refine ⟨rfl, rfl, rfl, rfl, fun off h h' => ?_⟩
  unfold State.showDomain
  dsimp only
  rw [State.reg_setFld_off _ h', State.reg_setFld_off _ h', State.reg_setFld_off _ h', State.reg_setFld_off _ h']

theorem State.learnLink_leaves (s : State) (f : Fid) (p : Nat) (x : PortSt) (lanes : Nat) : (s.learnLink f p x lanes).ports = s.ports
    ∧ (s.learnLink f p x lanes).agents = s.agents ∧ (s.learnLink f p x lanes).out = s.out ∧ (s.learnLink f p x lanes).engines = s.engines
    ∧ s.PortsShown (s.learnLink f p x lanes) := by
  unfold State.learnLink
  dsimp only
  split
  · exact ⟨rfl, rfl, rfl, rfl, .refl s⟩
  · exact State.showDomain_leaves _

theorem State.port_of_nodes {s t : State} (hp : t.ports = s.ports) (ha : t.agents = s.agents) (n : Node) (p : Nat) : t.port n p = s.port n p := by
  cases n with
  | ctl => exact congrArg (fun m : NMap PortSt => m.getD p {}) hp
  | agent a => exact congrArg (fun m : NMap Agent => (m.getD (agentKey a) {}).ports.getD p {}) ha

theorem State.showNodePorts_leaves (s : State) (n : Node) : (s.showNodePorts n).out = s.out ∧ (s.showNodePorts n).engines = s.engines
    ∧ s.PortsShown (s.showNodePorts n) := by
  cases n with
  | ctl =>
    refine ⟨rfl, rfl, fun off h _ => ?_⟩
    change s.showPorts.reg off = s.reg off
    unfold State.showPorts
    dsimp only
    rw [State.reg_setFld_off _ h, State.reg_setFld_off _ h, State.reg_setFld_off _ h, State.reg_setFld_off _ h]
  | agent a => exact ⟨rfl, rfl, fun _ _ _ => rfl⟩

theorem State.setPort_leaves (s : State) (n : Node) (p : Nat) (x : PortSt) : (s.setPort n p x).out = s.out ∧ (s.setPort n p x).engines = s.engines
    ∧ s.PortsShown (s.setPort n p x) := by
  cases n with
  | ctl => exact ⟨rfl, rfl, fun _ _ _ => rfl⟩
  | agent a => exact ⟨rfl, rfl, fun _ _ _ => rfl⟩

/-- The port, its node's registers and the shadow of the retrain after a training. -/
def State.endTraining (s : State) (n : Node) (p : Nat) (x : PortSt) : State := ((s.setPort n p x).showNodePorts n).closeTrainShadow n p

theorem State.closeTrainShadow_leaves (s : State) (n : Node) (p : Nat) : (s.closeTrainShadow n p).ports = s.ports
    ∧ (s.closeTrainShadow n p).agents = s.agents ∧ (s.closeTrainShadow n p).out = s.out ∧ (s.closeTrainShadow n p).engines = s.engines
    ∧ s.PortsShown (s.closeTrainShadow n p) := ⟨rfl, rfl, rfl, rfl, fun _ _ _ => rfl⟩

/-- What the end of a training leaves, once the controller knows of it. -/
theorem State.endTraining_leaves (s : State) (n : Node) (p : Nat) (x : PortSt) (f : Fid) (lanes : Nat) {t : State}
    (ht : (s.endTraining n p x).learnLink f p x lanes = t) : t.port n p = x ∧ s.PortsShown t ∧ t.out = s.out ∧ t.engines = s.engines := by
  obtain ⟨lports, lagents, lout, lengines, lnow⟩ := (s.endTraining n p x).learnLink_leaves f p x lanes
  obtain ⟨cports, cagents, cout, cengines, cnow⟩ := ((s.setPort n p x).showNodePorts n).closeTrainShadow_leaves n p
  obtain ⟨nout, nengines, nnow⟩ := (s.setPort n p x).showNodePorts_leaves n
  obtain ⟨pout, pengines, pnow⟩ := s.setPort_leaves n p x
  rw [ht] at lports lagents lout lengines lnow
  refine ⟨?_, pnow.trans (nnow.trans (cnow.trans lnow)), lout.trans (cout.trans (nout.trans pout)),
    lengines.trans (cengines.trans (nengines.trans pengines))⟩
  refine (State.port_of_nodes lports lagents n p).trans ((State.port_of_nodes cports cagents n p).trans ?_)
  rw [State.port_showNodePorts, State.port_setPort_self]

/-- The port after its training ended with `lanes` lanes. -/
def State.trainedPort (s : State) (n : Node) (p width delayPs : Nat) (far : Fid) (farPort lanes : Nat) : PortSt :=
  ({ s.port n p with planned := width, delayPs := delayPs, farId := far, farPort := farPort } : PortSt).trained lanes

/-- The lanes a training ended with: none where it took too long. -/
def State.trainedLanes (s : State) (n : Node) (p lanes : Nat) : Nat :=
  if (s.port n p).state = 1 ∧ (s.port n p).trainNs + 4000000000 < s.now then 0 else lanes

/-- A training of the controller's port. -/
theorem exec_linkTrainDone_ctl (s : State) (port lanes planned delayPs : Nat) (far : Fid) (farPort : Nat) {x : PortSt}
    (hx : x = s.trainedPort .ctl port 4 delayPs far farPort (s.trainedLanes .ctl port lanes)) {u : State}
    (hu : u = (s.endTraining .ctl port x).learnLink ((s.endTraining .ctl port x).nodeFid .ctl) port x (s.trainedLanes .ctl port lanes)) :
    exec (.linkTrainDone .ctl port lanes planned delayPs far farPort) s = .next (if u.ready then u.keyLinks.askDiscovery port else u) := by
  rw [hu, hx]
  rfl

theorem exec_linkTrainDone_agent (s : State) (a : AgentRef) (port lanes planned delayPs : Nat) (far : Fid) (farPort : Nat) {x : PortSt}
    (hx : x = s.trainedPort (.agent a) port planned delayPs far farPort (s.trainedLanes (.agent a) port lanes)) {u : State}
    (hu : u = (s.endTraining (.agent a) port x).learnLink ((s.endTraining (.agent a) port x).nodeFid (.agent a)) port x
      (s.trainedLanes (.agent a) port lanes)) :
    exec (.linkTrainDone (.agent a) port lanes planned delayPs far farPort) s = .next u.keyLinks := by
  rw [hu, hx]
  rfl

theorem exec_trainTimeout_off {n : Node} {port : Nat} (h : (s.port n port).state ≠ 1 ∨ s.now < (s.port n port).trainNs + 4000000000) :
    exec (.trainTimeout n port) s = .next s := if_pos h

theorem exec_trainTimeout_due {n : Node} {port : Nat} (h : ¬ ((s.port n port).state ≠ 1 ∨ s.now < (s.port n port).trainNs + 4000000000))
    {x : PortSt} (hx : x = (s.port n port).trained 0) :
    exec (.trainTimeout n port) s = .next ((s.endTraining n port x).learnLink (s.nodeFid n) port x 0) := by
  rw [hx]
  exact if_neg h

theorem exec_retrainComplete_eq (s : State) (n : Node) (port lanes : Nat) {x : PortSt} (hx : x = (s.port n port).trained lanes) {u : State}
    (hu : u = (s.endTraining n port x).learnLink (s.nodeFid n) port x lanes) : exec (.retrainComplete n port lanes) s =
      .next ((if x.state = 2 ∨ x.state = 3 then u.keyLinks.recheckLink (s.nodeFid n) port else u.reportDown (s.nodeFid n) port).checkBounds) := by
  rw [hu, hx]
  rfl

/-! ## A retrain that the operator orders (R91, R136) -/

theorem exec_portRetrain_eq {lvl : Level} (hl : lvl ≠ .tenant) (v : Word64) :
    exec (.portRetrain lvl v) s = if LNK_CTRL_RETRAIN.of v = 1 then .next (s.retrainPort (s.fld LNK_SEL_PORT)) else .next s := by
  cases lvl with
  | tenant => exact absurd rfl hl
  | _ => rfl

/-- The links of the port are down, and its shadow opens. -/
def State.openRetrain (s : State) (p : Nat) : State :=
  let links := s.dom.links.map fun (y : Machine.Link) => if y.hasEnd s.fid p then { y with up := false } else y
  let s : State := { s with dom := { s.dom with links := links } }
  let shadow : Shadow := { kind := 64, origin := s.fid, port := p, openNs := s.now }
  { s with col := { s.col with shadows := s.col.shadows ++ [shadow] } }

theorem State.retrainPort_eq (s : State) (p : Nat) : s.retrainPort p = (((s.resetPort .ctl p).showPorts).openRetrain p).queueWake p 4 := rfl

theorem State.openRetrain_leaves (s : State) (p : Nat) : (s.openRetrain p).ports = s.ports ∧ (s.openRetrain p).out = s.out
    ∧ { kind := 64, origin := s.fid, port := p, openNs := s.now, closeNs := none } ∈ (s.openRetrain p).col.shadows :=
  ⟨rfl, rfl, List.mem_append_right _ (List.mem_singleton_self _)⟩

theorem State.queueWake_col (s : State) (p cls : Nat) : (s.queueWake p cls).col = s.col := by
  unfold State.queueWake
  split
  · rfl
  · rfl

theorem linkOnly_freeSource (s : State) (n : Node) (source : Option Nat) (h : Header) : s.LinkOnly (s.freeSource n source h) := by
  unfold State.freeSource
  split
  · exact linkOnly_freeUnits s n _ h
  · exact linkOnly_refl s

theorem linkOnly_resetPort (s : State) (n : Node) (p : Nat) : s.LinkOnly (s.resetPort n p) :=
  linkOnly_trans (linkOnly_setPort s n p _) (linkOnly_forEach (fun s (q : QFrame) => linkOnly_freeSource s n q.source q.pkt.hdr) _ _)

/-- Where no frame of the queue came from another port, nothing leaves. -/
theorem State.resetPort_local {p : Nat} (h : ∀ q ∈ (s.port .ctl p).queue, q.source = none) :
    s.resetPort .ctl p = s.setPort .ctl p { (s.port .ctl p).retrain with trainNs := s.now } := by
  have hnone (l : List QFrame) (hl : ∀ q ∈ l, q.source = none) (v : State) : v.forEach l (fun s q => s.freeSource .ctl q.source q.pkt.hdr) = v := by
    induction l with
    | nil => rfl
    | cons q l ih =>
      have hfree : v.freeSource .ctl q.source q.pkt.hdr = v := by
        rw [hl q List.mem_cons_self]
        rfl
      refine Eq.trans ?_ (ih fun x hx => hl x (List.mem_cons_of_mem _ hx))
      exact congrArg (fun w : State => w.forEach l fun s q => s.freeSource .ctl q.source q.pkt.hdr) hfree
  exact hnone _ h _

theorem PortSt.retrain_state (x : PortSt) : x.retrain.state = 1 ∧ x.retrain.queue = [] := ⟨rfl, rfl⟩

theorem State.retrainPort_leaves (s : State) (p : Nat) : ((∀ q ∈ (s.port .ctl p).queue, q.source = none) → (s.retrainPort p).out = s.out
      ∧ (s.retrainPort p).port .ctl p = { (s.port .ctl p).retrain with trainNs := s.now })
    ∧ { kind := 64, origin := s.fid, port := p, openNs := s.now, closeNs := none } ∈ (s.retrainPort p).col.shadows := by
  obtain ⟨oports, oout, oshadow⟩ := ((s.resetPort .ctl p).showPorts).openRetrain_leaves p
  have hreset := linkOnly_resetPort s .ctl p
  have hshow := (s.resetPort .ctl p).showNodePorts_leaves .ctl
  have hwake := keepsBringup_queueWake (((s.resetPort .ctl p).showPorts).openRetrain p) p 4
  rw [State.retrainPort_eq]
  refine ⟨fun h => ⟨?_, ?_⟩, ?_⟩
  · have hset : (s.resetPort .ctl p).out = s.out := by rw [State.resetPort_local h]; rfl
    exact hwake.out.trans (oout.trans hset)
  · have hports : ((s.resetPort .ctl p).showPorts).port .ctl p = { (s.port .ctl p).retrain with trainNs := s.now } := by
      refine (State.port_showNodePorts (s.resetPort .ctl p) .ctl p).trans ?_
      rw [State.resetPort_local h, State.port_setPort_self]
    exact (hwake.port p).trans ((congrArg (fun m : NMap PortSt => m.getD p {}) oports).trans hports)
  · have hfid : ((s.resetPort .ctl p).showPorts).fid = s.fid := congrArg (fun d : DomainSt => BitVec.ofNat 32 (d.domain * 65536 + d.localId)) (State.LinkOnly.mailOnly hreset).dom
    have hnow : ((s.resetPort .ctl p).showPorts).now = s.now := hshow.2.2.now.trans (LinkOnly_now hreset)
    rw [State.queueWake_col, ← hfid, ← hnow]
    exact oshadow

end Sys2Proof.Machine

namespace Sys2Proof
open Machine

/-- Settles O26: the end of a training changes the port, the registers that show it and the controller's links. -/
theorem linkTrainingResults : Obligations.LinkTrainingResults := by
  intro s n port lanes planned got width delayPs farPort far lvl v x
  refine ⟨fun hw hg hx => ⟨⟨?_, ?_, ?_, ?_⟩, ?_⟩, fun h => ?_, fun hst hn => ?_, fun hx => ?_, rfl, fun hl hv => ?_, fun hl hv p hp => ?_⟩
  · rw [hx]
    exact PortSt.trained_state _ got
  · rw [hx]
    exact PortSt.trained_lanes _ got
  · rw [hx]
    exact (PortSt.trained_far _ got).1
  · rw [hx]
    exact (PortSt.trained_far _ got).2
  · have hlanes : got = s.trainedLanes n port lanes := hg
    obtain ⟨hport, hshown, hout, heng⟩ := s.endTraining_leaves n port x ((s.endTraining n port x).nodeFid n) got rfl
    refine ⟨_, hport, hshown.now, hout, heng, ?_⟩
    rw [hlanes] at hx hshown ⊢
    cases n with
    | ctl =>
      rw [if_pos rfl] at hw
      rw [hw] at hx
      rw [exec_linkTrainDone_ctl s port lanes planned delayPs far farPort hx rfl, if_pos rfl, hshown.ready]
    | agent a =>
      rw [if_neg nofun] at hw
      rw [hw] at hx
      rw [exec_linkTrainDone_agent s a port lanes planned delayPs far farPort hx rfl, if_neg nofun]
  · exact exec_trainTimeout_off h
  · obtain ⟨hport, -, hout, heng⟩ := s.endTraining_leaves n port ((s.port n port).trained 0) (s.nodeFid n) 0 rfl
    refine ⟨_, exec_trainTimeout_due (by omega) rfl, ?_, ?_, hout, heng⟩
    · rw [hport, PortSt.trained_state]
      rfl
    · rw [hport, PortSt.trained_lanes, PortSt.trained_state]
      rfl
  · obtain ⟨hport, hshown, hout, -⟩ := s.endTraining_leaves n port x (s.nodeFid n) lanes rfl
    exact ⟨_, hport, hout, hshown.now, exec_retrainComplete_eq s n port lanes hx rfl⟩
  · rw [exec_portRetrain_eq hl, if_neg (by omega)]
  · obtain ⟨hlocal, hshadow⟩ := s.retrainPort_leaves p
    rw [exec_portRetrain_eq hl, if_pos hv, ← hp]
    refine ⟨_, rfl, fun h => ?_, hshadow⟩
    obtain ⟨hout, hport⟩ := hlocal h
    rw [hport]
    exact ⟨hout, rfl, rfl, rfl⟩

end Sys2Proof
end

section
/-! What the steps after an answer to discovery keep: an agent that is known, not claimed and not admitted yet, stays so. -/

namespace Sys2Proof.Machine

variable {s t u : State}

/-- The agent is known under its ID, not admitted yet and its claim not acknowledged. -/
def State.Unclaimed (s : State) (a : AgentRef) (f : Fid) (p q : Nat) : Prop :=
  ∃ k ∈ s.dom.known, k.ref = a ∧ k.fid = f ∧ k.admitted = false ∧ k.claimAcked = false ∧ k.port = p ∧ k.agentPort = q

/-- Every agent that is known and unclaimed stays so. -/
structure State.Remembers (s t : State) : Prop where
  unclaimed : ∀ {a f p q}, s.Unclaimed a f p q → t.Unclaimed a f p q

theorem State.Remembers.refl (s : State) : s.Remembers s := ⟨id⟩

theorem State.Remembers.trans (h : s.Remembers t) (g : t.Remembers u) : s.Remembers u := ⟨g.unclaimed ∘ h.unclaimed⟩

/-- A step that remembers, after one that does. -/
theorem State.Remembers.after (g : t.Remembers u) (h : s.Remembers t) : s.Remembers u := h.trans g

theorem State.Remembers.of (h : t.dom.known = s.dom.known) : s.Remembers t := ⟨fun hk => by rwa [State.Unclaimed, h]⟩

theorem State.Remembers.ite {c : Prop} [Decidable c] (h : s.Remembers t) (g : s.Remembers u) : s.Remembers (if c then t else u) := by
  split
  · exact h
  · exact g

theorem State.Remembers.ite_fst {α : Type} {c : Prop} [Decidable c] {x y : State × α} (h : s.Remembers x.1) (g : s.Remembers y.1) :
    s.Remembers (if c then x else y).1 := by
  split
  · exact h
  · exact g

/-- Every part of the state but the known agents may change. -/
theorem remembers_update
    {regs : NMap Word64} {time : TimeSt} {noc : NocSt} {sq : SquareSt} {pwr : PowerSt} {col : CollectorSt} {led : LedgerSt} {tri : TriadSt}
    {dom : DomainSt} {rte : RouteSt} {sch : SchedSt} {grp : GroupSt} {plc : BrokerSt} {sec : SecSt} {engines : NMap Engine} {programs : NMap
    Program} {queues : NMap QueueSt} {turn : TurnSt} {sets : NMap InstallSet} {store : NMap Memory} {hbm : Memory} {spill : NMap Memory}
    {ports : NMap PortSt} {streams : Streams} {hooks : List AckHook} {agents : NMap Agent} {lapses : List (Nat × Nat)} {out : List Out}
    {fresh : Nat} {pending : List Instr}
    (h : dom.known = s.dom.known) : s.Remembers
      { regs := regs, time, noc, sq, pwr, col, led, tri, dom, rte, sch, grp, plc, sec, engines, programs, queues, turn, sets, store, hbm,
        spill, ports, streams, hooks, agents, lapses, out, fresh, pending } := .of h

theorem State.LinkOnly.remembers (h : s.LinkOnly t) : s.Remembers t := by
  unfold State.LinkOnly at h
  rw [h]
  exact .of rfl

theorem remembers_forEach {α : Type} {f : State → α → State} (h : ∀ (s : State) x, s.Remembers (f s x)) (s : State) (l : List α) :
    s.Remembers (s.forEach l f) := by
  induction l generalizing s with
  | nil => exact .refl s
  | cons x l ih => exact (h s x).trans (ih (f s x))

theorem remembers_foldl {α : Type} {f : State → α → State} (h : ∀ (s : State) x, s.Remembers (f s x)) (s : State) (l : List α) :
    s.Remembers (l.foldl f s) := remembers_forEach h s l

/-- A change of the known agents that leaves who they are, and none of them claimed or admitted. -/
theorem State.Remembers.of_map {g : Known → Known} (h : t.dom.known = s.dom.known.map g) (href : ∀ k, (g k).ref = k.ref) (hfid : ∀ k, (g k).fid =
    k.fid)
    (hadm : ∀ k, k.admitted = false → (g k).admitted = false) (hclaim : ∀ k, (g k).claimAcked = k.claimAcked) (hport : ∀ k, (g k).port = k.port)
    (hagent : ∀ k, (g k).agentPort = k.agentPort) : s.Remembers t := by
  refine ⟨fun ⟨k, hk, h1, h2, h3, h4, h5, h6⟩ => ⟨g k, h ▸ List.mem_map_of_mem hk, ?_⟩⟩
  exact ⟨(href k).trans h1, (hfid k).trans h2, hadm k h3, (hclaim k).trans h4, (hport k).trans h5, (hagent k).trans h6⟩

end Sys2Proof.Machine
end

section
/-! One lemma per state function that an answer to discovery can reach: its own steps one after the other, the outermost first. -/

namespace Sys2Proof.Machine

theorem remembers_setReg (s : State) (off : Nat) (w : Word64) : s.Remembers (s.setReg off w) := .of rfl

theorem remembers_setFld (s : State) (f : Field) (v : Nat) : s.Remembers (s.setFld f v) := remembers_setReg ..

theorem remembers_satFld (s : State) (f : Field) (n : Nat) : s.Remembers (s.satFld f n) := remembers_setFld ..

theorem remembers_setAgent (s : State) (a : AgentRef) (x : Agent) : s.Remembers (s.setAgent a x) := .of rfl

theorem remembers_updAgent (s : State) (a : AgentRef) (f : Agent → Agent) : s.Remembers (s.updAgent a f) := remembers_setAgent ..

theorem remembers_setJx (s : State) (a : AgentRef) (off : Nat) (w : Word64) : s.Remembers (s.setJx a off w) := remembers_updAgent ..

theorem remembers_setJfld (s : State) (a : AgentRef) (f : Field) (v : Nat) : s.Remembers (s.setJfld a f v) := remembers_setJx ..

theorem remembers_useFree (s : State) : s.Remembers s.useFree := .of rfl

theorem remembers_emit (s : State) (o : Out) : s.Remembers (s.emit o) := .of rfl

theorem remembers_act (s : State) (o : Out) : s.Remembers (s.act o) := .ite (remembers_emit ..) (.refl _)

theorem remembers_setPort (s : State) (n : Node) (p : Nat) (x : PortSt) : s.Remembers (s.setPort n p x) := by
  unfold State.setPort
  split; exacts [.of rfl, remembers_updAgent ..]

theorem remembers_startFrame (s : State) (n : Node) (p : Nat) (k : Packet) : s.Remembers (s.startFrame n p k) :=
  (remembers_emit ..).after (remembers_setPort ..)

theorem remembers_sendCredit (s : State) (n : Node) (p : Nat) : s.Remembers (s.sendCredit n p) :=
  .ite (.refl _) (.ite ((remembers_startFrame ..).after (remembers_setPort ..)) (remembers_setPort ..))

theorem remembers_returnCredit (s : State) (n : Node) (p : Nat) : s.Remembers (s.returnCredit n p) := .ite (remembers_sendCredit ..) (.refl _)

theorem remembers_freeUnits (s : State) (n : Node) (p : Nat) (h : Header) : s.Remembers (s.freeUnits n p h) :=
  (remembers_returnCredit ..).after (remembers_setPort ..)

theorem remembers_recordSent (s : State) (n : Node) (p : Nat) (l : List Sent) : s.Remembers (s.recordSent n p l) := by
  refine (remembers_forEach (fun _ _ => ?_) ..).after (.of rfl)
  split
  · exact remembers_freeUnits ..
  · exact .refl _

theorem remembers_pumpPort (s : State) (n : Node) (p : Nat) : s.Remembers (s.pumpPort n p) := (remembers_recordSent ..).after (remembers_setPort ..)

theorem remembers_noteTraffic (s : State) (n : Node) (port : Nat) (h : Header) : s.Remembers (s.noteTraffic n port h) := by
  unfold State.noteTraffic
  split
  · exact .refl _
  · split
    · exact remembers_setPort ..
    · exact (remembers_setJfld ..).after ((remembers_updAgent ..).after (remembers_setPort ..))

theorem remembers_wakeAgentPort (s : State) (n : Node) (p : Nat) : s.Remembers (s.wakeAgentPort n p) := by
  unfold State.wakeAgentPort
  split; exacts [.refl _, .ite (remembers_setPort ..) (.refl _)]

theorem remembers_wakeFor (s : State) (f : Fid) (p : Nat) : s.Remembers (s.wakeFor f p) := by
  unfold State.wakeFor
  split; exacts [remembers_wakeAgentPort .., .refl _]

theorem remembers_portSend (s : State) (n : Node) (p : Nat) (k : Packet) (source : Option Nat) : s.Remembers (s.portSend n p k source) :=
  .after (.ite (.ite ((remembers_startFrame ..).after (remembers_setPort ..)) (remembers_setPort ..)) ((remembers_pumpPort ..).after
    (remembers_setPort ..))) ((remembers_wakeAgentPort ..).after (remembers_noteTraffic ..))

theorem remembers_setStreams (s : State) (n : Node) (x : Streams) : s.Remembers (s.setStreams n x) := by
  unfold State.setStreams
  split; exacts [.of rfl, remembers_updAgent ..]

theorem remembers_setTx (s : State) (n : Node) (dest : Fid) (stream : BitVec 16) (x : StreamTx) : s.Remembers (s.setTx n dest stream x) :=
  remembers_setStreams ..

theorem remembers_originateOn (s : State) (n : Node) (port : Nat) (p : Packet) : s.Remembers (s.originateOn n port p) :=
  .ite (.refl _) (.ite (.of rfl) ((remembers_portSend ..).after (remembers_emit ..)))

theorem remembers_originate (s : State) (n : Node) (p : Packet) : s.Remembers (s.originate n p) := remembers_originateOn ..

theorem remembers_emitTx (s : State) (n : Node) (t : TxPkt) : s.Remembers (s.emitTx n t) := by
  unfold State.emitTx
  split; exacts [remembers_originateOn .., remembers_originate ..]

theorem remembers_sendPkt (s : State) (n : Node) (p : Packet) (kept : Bool) (port : Option Nat) : s.Remembers (s.sendPkt n p kept port) :=
  .ite (.after (.ite (.refl _) (remembers_emitTx ..)) (remembers_setTx ..)) ((remembers_emitTx ..).after (remembers_setTx ..))

theorem remembers_sendMgmt (s : State) (n : Node) (dest : Fid) (typ : BitVec 8) (payload : List Byte) (aux : BitVec 24) (kept : Bool) :
    s.Remembers (s.sendMgmt n dest typ payload aux kept) :=
  remembers_sendPkt ..

theorem remembers_sendHooked (s : State) (dest : Fid) (typ : BitVec 8) (payload : List Byte) (kind : AckKind) (addr : BitVec 57) (aux : BitVec
    24) : s.Remembers (s.sendHooked dest typ payload kind addr aux) := by
  unfold State.sendHooked
  exact (remembers_sendPkt ..).after (.of rfl)

theorem remembers_mirrorOut (s : State) (item : Nat) : s.Remembers (s.mirrorOut item) :=
  .ite (.refl _) ((remembers_sendMgmt ..).after ((remembers_setFld ..).after (.of rfl)))

theorem remembers_broadcast (s : State) (typ : BitVec 8) (payload : List Byte) (kind : Option AckKind) (addr : BitVec 57) (aux : BitVec 24) :
    s.Remembers (s.broadcast typ payload kind addr aux) := by
  refine remembers_forEach (fun _ _ => (remembers_sendPkt ..).after ?_) ..
  split
  · exact .of rfl
  · exact .refl _

theorem remembers_countSource (s : State) (src : Nat) (n : Nat) (detail : BitVec 16) (cap : Option Capture) : s.Remembers (s.countSource src n
    detail cap) := by
  unfold State.countSource
  split
  · exact .after (.ite ((remembers_update rfl).after (remembers_setFld ..)) (.refl _)) ((remembers_setFld ..).after (remembers_satFld ..))
  · exact (remembers_setFld ..).after (remembers_satFld ..)

theorem remembers_present (s : State) (ev : Event) : s.Remembers (s.present ev) := .of rfl

theorem remembers_raise (s : State) (src : Nat) (stated : Nat) (detail : BitVec 16) (port : Nat) (cap : Option Capture) : s.Remembers (s.raise
    src stated detail port cap) :=
  .after (.ite (.refl _) (remembers_present ..)) (remembers_countSource ..)

theorem remembers_lapseRecord (s : State) (detail : BitVec 16) (object : Nat) : s.Remembers (s.lapseRecord detail object) :=
  .after (.ite (.refl _) (remembers_present ..)) (remembers_countSource ..)

theorem remembers_lapse (s : State) (code : Nat) (object : Nat) : s.Remembers (s.lapse code object) :=
  .ite (.refl _) ((remembers_lapseRecord ..).after (.of rfl))

theorem remembers_restore (s : State) (code : Nat) (object : Nat) : s.Remembers (s.restore code object) :=
  .ite ((remembers_lapseRecord ..).after (.of rfl)) (.refl _)

theorem remembers_setEngine (s : State) (e : Nat) (x : Engine) : s.Remembers (s.setEngine e x) := .of rfl

theorem remembers_inboxPut (s : State) (e : Nat) (sev : Nat) (m : List Byte) : s.Remembers (s.inboxPut e sev m) :=
  .ite (remembers_setEngine ..) (remembers_setEngine ..)

theorem remembers_completeTag (s : State) (e : Nat) (tag : Nat) (status : Nat) (result : Word64) : s.Remembers (s.completeTag e tag status
    result) :=
  .ite ((remembers_inboxPut ..).after (remembers_setEngine ..)) (.refl _)

theorem remembers_completeOpt (s : State) (tag : Option (Nat × Nat)) (status : Nat) (result : Word64) : s.Remembers (s.completeOpt tag status
    result) := by
  unfold State.completeOpt
  split; exacts [remembers_completeTag .., .refl _]

theorem remembers_setCq (s : State) (n : Nat) (f : Field) (v : Nat) : s.Remembers (s.setCq n f v) := remembers_setFld ..

theorem remembers_setQueue (s : State) (n : Nat) (x : QueueSt) : s.Remembers (s.setQueue n x) := .of rfl

theorem remembers_hold (s : State) (x : HeldIo) : s.Remembers (s.hold x) := .of rfl

theorem remembers_putRecord (s : State) (n : Nat) (l : List Byte) (irq : Bool) : s.Remembers (s.putRecord n l irq) :=
  .after (.ite (remembers_act ..) (.refl _)) ((remembers_setQueue ..).after ((remembers_setCq ..).after (remembers_act ..)))

theorem remembers_writeRecord (s : State) (n : Nat) (r : Record) (irq : Bool) : s.Remembers (s.writeRecord n r irq) :=
  .ite (remembers_hold ..) (remembers_putRecord ..)

theorem remembers_endDisable (s : State) (n : Nat) : s.Remembers (s.endDisable n) :=
  .ite ((remembers_setCq ..).after (remembers_setQueue ..)) (.refl _)

theorem remembers_completeCmd (s : State) (n : Nat) (c : Cmd) (r : Record) : s.Remembers (s.completeCmd n c r) :=
  (remembers_endDisable ..).after ((remembers_setQueue ..).after (remembers_writeRecord ..))

theorem remembers_showAdmit (s : State) : s.Remembers s.showAdmit := (remembers_setFld ..).after (remembers_setFld ..)

theorem remembers_treatFailed (s : State) (f : Fid) : s.Remembers (s.treatFailed f) := by
  refine .of_map (g := fun k => if k.fid = f then { k with admitted := false } else k) rfl ?_ ?_ ?_ ?_ ?_ ?_
  all_goals
    intro k
    split
  all_goals simp

theorem remembers_restoreFaults (s : State) : s.Remembers s.restoreFaults :=
  (remembers_forEach (fun _ _ => remembers_restore ..) ..).after (remembers_forEach (fun _ _ => remembers_restore ..) ..)

theorem remembers_setDrain (s : State) (x : Drain) : s.Remembers (s.setDrain x) := .of rfl

theorem remembers_drainInForce (s : State) (d : DrainElem) : s.Remembers (s.drainInForce d) :=
  (remembers_setDrain ..).after ((remembers_restoreFaults ..).after ((remembers_showAdmit ..).after ((remembers_forEach (fun _ _ =>
    (remembers_restore ..).after (remembers_restore ..)) ..).after (.of rfl))))

theorem remembers_finishInstall (s : State) (p : InstallFor) (status : Nat) (result : Word64) : s.Remembers (s.finishInstall p status result) := by
  unfold State.finishInstall
  split
  · split
    · exact (remembers_completeTag ..).after (.of rfl)
    · exact remembers_completeTag ..
  · exact .ite (remembers_drainInForce ..) (.of rfl)
  · split
    · exact .of rfl
    · split
      · exact .ite (remembers_completeCmd ..) (remembers_completeCmd ..)
      · exact .refl _
  · exact .refl _

theorem remembers_dropInstall (s : State) : s.Remembers s.dropInstall := (remembers_setFld ..).after (.of rfl)

theorem remembers_sendCommit (s : State) (v : BitVec 32) (e : BitVec 32) : s.Remembers (s.sendCommit v e) := remembers_broadcast ..

theorem remembers_commitInstall (s : State) (i : InstallSt) : s.Remembers (s.commitInstall i) :=
  .ite (.of rfl) ((remembers_sendCommit ..).after ((remembers_setFld ..).after ((remembers_update rfl).after (remembers_mirrorOut ..))))

theorem remembers_sendInstalls (s : State) (v : BitVec 32) (f : Fid) (l : List (List Byte)) : s.Remembers (s.sendInstalls v f l).1 := by
  induction l generalizing s with
  | nil => exact .refl _
  | cons x l ih => exact (ih _).after (remembers_sendHooked ..)

theorem remembers_sendSets (s : State) (v : BitVec 32) (l : List (Fid × List Byte)) : s.Remembers (s.sendSets v l).1 := by
  induction l generalizing s with
  | nil => exact .refl _
  | cons x l ih => exact (ih _).after (remembers_sendInstalls ..)

theorem remembers_noteFull (s : State) (sets : List (Fid × List Byte)) : s.Remembers (s.noteFull sets) := by
  have h (t : State) (ht : t.dom.known = s.dom.known.map fun k => if sets.any (fun x => x.1 == k.fid) then { k with full := true } else k) :
      s.Remembers t := by
    refine .of_map ht ?_ ?_ ?_ ?_ ?_ ?_
    all_goals
      intro k
      split
    all_goals simp
  exact .ite (.refl _) ((remembers_useFree _).after (h _ rfl))

theorem remembers_startInstall (s : State) (sets : List (Fid × List Byte)) (p : InstallFor) : s.Remembers (s.startInstall sets p) :=
  .ite (remembers_finishInstall ..) (.after (.ite (remembers_commitInstall ..) (.of rfl)) ((remembers_sendSets ..).after
    ((remembers_update rfl).after (remembers_noteFull ..))))

theorem remembers_submitInstall (s : State) (sets : List (Fid × List Byte)) (p : InstallFor) : s.Remembers (s.submitInstall sets p) :=
  .ite (remembers_startInstall ..) (.of rfl)

theorem remembers_nextInstall (s : State) : s.Remembers s.nextInstall := by
  refine .ite ?_ (.refl _)
  split
  · exact .refl _
  · exact (remembers_startInstall ..).after (.of rfl)

theorem remembers_installFailed (s : State) (v : BitVec 32) (status : Nat) : s.Remembers (s.installFailed v status) := by
  unfold State.installFailed
  split; exacts [.ite ((remembers_nextInstall ..).after ((remembers_finishInstall ..).after (remembers_dropInstall ..))) (.refl _), .refl _]

theorem remembers_commitWithout (s : State) (i : InstallSt) (l : List Fid) : s.Remembers (s.commitWithout i l) :=
  (remembers_forEach (fun _ _ => (remembers_raise ..).after (remembers_treatFailed ..)) ..).after (.of rfl)

theorem remembers_commitRefused (s : State) (v : BitVec 32) (f : Fid) : s.Remembers (s.commitRefused v f) := by
  unfold State.commitRefused
  split; exacts [.ite (remembers_commitWithout ..) (.refl _), .refl _]

theorem remembers_notePiece (s : State) (id : BitVec 24) (f : Fid) (seq : BitVec 32) : s.Remembers (s.notePiece id f seq) := .of rfl

theorem remembers_sendStage (s : State) (id : BitVec 24) (f : Fid) (slot : BitVec 6) (off : Nat) (l : List (List Byte)) :
    s.Remembers (s.sendStage id f slot off l) := by
  induction l generalizing s off with
  | nil => exact .refl _
  | cons x l ih => exact (ih ..).after ((remembers_sendHooked ..).after (remembers_notePiece ..))

theorem remembers_sendInvalidate (s : State) (f : Fid) (slot : BitVec 6) : s.Remembers (s.sendInvalidate f slot) := remembers_sendHooked ..

theorem remembers_sendRebase (s : State) (f : Fid) (mask : Nat) (base : BitVec 32) : s.Remembers (s.sendRebase f mask base) := remembers_sendHooked ..

theorem remembers_showUnarmed (s : State) : s.Remembers s.showUnarmed :=
  (remembers_restoreFaults ..).after ((remembers_forEach (fun _ _ => remembers_restore ..) ..).after ((remembers_forEach (fun _ _ =>
    remembers_lapse ..) ..).after (remembers_setFld ..)))

theorem remembers_setGambit (s : State) (g : Gambit) : s.Remembers (s.setGambit g) := .of rfl

theorem remembers_stageGambit (s : State) (g : Gambit) (again : Bool) : s.Remembers (s.stageGambit g again) := by
  refine .after (.ite (.refl _) ((remembers_forEach (fun _ _ => (remembers_sendStage ..).after (.after (.ite (remembers_sendInvalidate ..)
      (.refl _)) ?_)) ..).after (remembers_mirrorOut ..))) (remembers_setGambit ..)
  split
  · exact remembers_forEach (fun _ _ => remembers_wakeFor ..) ..
  · exact .refl _

theorem remembers_stageFailed (s : State) (id : BitVec 24) (status : Nat) : s.Remembers (s.stageFailed id status) := by
  unfold State.stageFailed
  split; exacts [.refl _, (remembers_completeOpt ..).after ((remembers_showUnarmed ..).after (remembers_setGambit ..))]

theorem remembers_rebaseAgents (s : State) (v : BitVec 32) (agents : List Fid) : s.Remembers (s.rebaseAgents v agents) :=
  remembers_forEach (fun _ _ => .ite (.refl _) (remembers_sendRebase ..)) ..

theorem remembers_applyGambit (s : State) (g : Gambit) : s.Remembers (s.applyGambit g) := .of rfl

theorem remembers_setCtxs (s : State) (n : Node) (l : List Ctx) : s.Remembers (s.setCtxs n l) := by
  unfold State.setCtxs
  split; exacts [.of rfl, remembers_updAgent ..]

theorem remembers_setPart (s : State) (p : Nat) (x : PartSt) : s.Remembers (s.setPart p x) := .of rfl

theorem remembers_setDev (s : State) (e : Nat) (x : DevSt) : s.Remembers (s.setDev e x) := .of rfl

theorem remembers_keyPort (s : State) (n : Node) (port : Nat) (receive : Bool) (act : Nat) (k : LinkKey) : s.Remembers (s.keyPort n port receive
    act k).1 :=
  .ite_fst (remembers_setPort ..) (.ite_fst (.refl _) (remembers_setPort ..))

theorem remembers_drawLinkKey (s : State) : s.Remembers s.drawLinkKey.1 := (remembers_useFree ..).after (.of rfl)

theorem remembers_rekeyOneWay (s : State) (from_ : Node) (fp : Nat) (dst : Node) (tp : Nat) (act : Nat) : s.Remembers (s.rekeyOneWay from_ fp
    dst tp act) :=
  .ite (.refl _) ((remembers_keyPort ..).after ((remembers_keyPort ..).after (remembers_drawLinkKey ..)))

theorem remembers_scrubAgain (s : State) (device : Node) (facing : Node) (p : Nat) : s.Remembers (s.scrubAgain device facing p) := by
  unfold State.scrubAgain
  split; exacts [.refl _, .ite (remembers_setPort ..) (.refl _)]

theorem remembers_rekeyLink (s : State) (n : Node) (p : Nat) (ahead : Nat) : s.Remembers (s.rekeyLink n p ahead) := by
  unfold State.rekeyLink
  split
  · exact .refl _
  · exact (remembers_rekeyOneWay ..).after ((remembers_rekeyOneWay ..).after ((remembers_scrubAgain ..).after (remembers_scrubAgain ..)))

theorem remembers_registerEndpoint (s : State) (a : AgentRef) (p : BitVec 12) (e : Nat) : s.Remembers (s.registerEndpoint a p e) := by
  unfold State.registerEndpoint
  exact remembers_updAgent ..

theorem remembers_setPartition (s : State) (e : Nat) (p : BitVec 12) : s.Remembers (s.setPartition e p) := by
  unfold State.setPartition
  split; exacts [.refl _, .after (.ite (remembers_updAgent ..) (remembers_registerEndpoint ..)) (remembers_updAgent ..)]

theorem remembers_orderScrub (s : State) (e : Nat) : s.Remembers (s.orderScrub e) := (remembers_setPartition ..).after (remembers_setDev ..)

theorem remembers_showGroups (s : State) : s.Remembers s.showGroups :=
  (remembers_setFld ..).after ((remembers_setFld ..).after ((remembers_setFld ..).after ((remembers_setFld ..).after
    ((remembers_setFld ..).after (remembers_setFld ..)))))

theorem remembers_setGroup (s : State) (g : Group) : s.Remembers (s.setGroup g) := .of rfl

theorem remembers_setNodeMap (s : State) (f : Fid) (m : NodeMap) : s.Remembers (s.setNodeMap f m) := .of rfl

theorem remembers_mapFree (s : State) (f : Fid) (tree : BitVec 24) (group : Nat) : s.Remembers (s.mapFree f tree group) := by
  unfold State.mapFree
  dsimp only
  split; exacts [remembers_setNodeMap .., .refl _]

theorem remembers_showTickets (s : State) : s.Remembers s.showTickets := (remembers_setFld ..).after (remembers_setFld ..)

theorem remembers_setTickets (s : State) (l : List Ticket) : s.Remembers (s.setTickets l) := (remembers_showTickets ..).after (.of rfl)

theorem remembers_drawTicket (s : State) (group : Nat) (goal : ResvFor) : s.Remembers (s.drawTicket group goal) :=
  (remembers_setTickets ..).after (remembers_setFld ..)

theorem remembers_freeAt (s : State) (g : Group) (f : Fid) : s.Remembers (s.freeAt g f) :=
  .ite ((remembers_showGroups ..).after ((remembers_mapFree ..).after (remembers_setCtxs ..))) (remembers_sendHooked ..)

theorem remembers_endRollback (s : State) (g : Group) : s.Remembers (s.endRollback g) := .ite (remembers_setGroup ..) (remembers_setGroup ..)

theorem remembers_reserveRefused (s : State) (group : Nat) (f : Fid) : s.Remembers (s.reserveRefused group f) := by
  unfold State.reserveRefused
  split
  · exact .refl _
  · split
    · exact .refl _
    · dsimp only
      split
      · exact (remembers_endRollback ..).after (.ite ((remembers_drawTicket ..).after ((remembers_forEach (fun _ _ =>
            remembers_sendPkt ..) ..).after (.ite ((remembers_forEach (fun _ _ => remembers_freeAt ..) ..).after ((remembers_setGroup ..).after
            (remembers_mapFree ..))) ((remembers_setGroup ..).after (remembers_mapFree ..))))) ((remembers_setTickets ..).after
            ((remembers_forEach (fun _ _ => remembers_sendPkt ..) ..).after (.ite ((remembers_forEach (fun _ _ => remembers_freeAt ..) ..).after
            ((remembers_setGroup ..).after (remembers_mapFree ..))) ((remembers_setGroup ..).after (remembers_mapFree ..))))))
      · exact (remembers_endRollback ..).after ((remembers_forEach (fun _ _ => remembers_sendPkt ..) ..).after (.ite ((remembers_forEach
            (fun _ _ => remembers_freeAt ..) ..).after ((remembers_setGroup ..).after (remembers_mapFree ..))) ((remembers_setGroup ..).after
            (remembers_mapFree ..))))

theorem remembers_freeAnswered (s : State) (group : Nat) (f : Fid) : s.Remembers (s.freeAnswered group f) := by
  unfold State.freeAnswered
  split
  · dsimp only
    split
    · exact remembers_mapFree ..
    · exact .ite ((remembers_endRollback ..).after (remembers_mapFree ..)) (remembers_mapFree ..)
  · dsimp only
    split
    · exact .refl _
    · exact .ite (remembers_endRollback ..) (.refl _)

theorem remembers_deriveVersion (s : State) (f : Fid) (v : BitVec 32) : s.Remembers (s.deriveVersion f v) := by
  unfold State.deriveVersion
  split
  · split
    · split
      · exact .ite (.refl _) ((remembers_setFld ..).after (remembers_applyGambit ..))
      · exact .ite (.refl _) ((remembers_useFree ..).after (remembers_submitInstall ..))
    · split
      · exact .ite (.refl _) ((remembers_setFld ..).after (remembers_applyGambit ..))
      · exact .ite (.refl _) ((remembers_useFree ..).after (remembers_submitInstall ..))
  · split
    · split
      · exact .ite (.refl _) ((remembers_setFld ..).after (remembers_applyGambit ..))
      · exact .ite (.refl _) ((remembers_useFree ..).after (remembers_submitInstall ..))
    · split
      · exact .ite (.refl _) ((remembers_setFld ..).after (remembers_applyGambit ..))
      · exact .ite (.refl _) ((remembers_useFree ..).after (remembers_submitInstall ..))

theorem remembers_resumeReservation (s : State) (g : Group) : s.Remembers (s.resumeReservation g) := by
  unfold State.resumeReservation
  split
  · exact .refl _
  · split
    · exact (remembers_endRollback ..).after ((remembers_forEach (fun _ _ => remembers_freeAt ..) ..).after (.after (.ite
          (remembers_drawTicket ..) (remembers_setTickets ..)) (remembers_setGroup ..)))
    · exact (remembers_endRollback ..).after ((remembers_forEach (fun _ _ => remembers_freeAt ..) ..).after (remembers_setGroup ..))

theorem remembers_takeoverEnd (s : State) : s.Remembers s.takeoverEnd :=
  .ite (.refl _) ((remembers_restore ..).after ((remembers_raise ..).after ((remembers_setFld ..).after ((remembers_setFld ..).after
    ((remembers_forEach (fun _ _ => remembers_rekeyLink ..) ..).after ((remembers_forEach (fun _ _ =>
    remembers_resumeReservation ..) ..).after ((remembers_rebaseAgents ..).after ((remembers_forEach (fun _ _ =>
    remembers_stageGambit ..) ..).after (.of rfl)))))))))

theorem remembers_takeoverDone (s : State) : s.Remembers s.takeoverDone :=
  .ite ((remembers_takeoverEnd ..).after ((remembers_forEach (fun _ _ => remembers_sendHooked ..) ..).after (.of rfl))) (.refl _)

theorem remembers_takeoverRead (s : State) (f : Fid) (reg : Nat) (v : Option Word64) : s.Remembers (s.takeoverRead f reg v) := by
  unfold State.takeoverRead
  split
  · exact .refl _
  · split
    · exact (remembers_takeoverEnd ..).after (.of rfl)
    · exact (remembers_takeoverEnd ..).after (.after (.ite (remembers_deriveVersion ..) (.of rfl)) (.of rfl))

theorem remembers_claimFailed (s : State) (f : Fid) : s.Remembers (s.claimFailed f) :=
  .ite ((remembers_takeoverDone ..).after (remembers_treatFailed ..)) (.refl _)

theorem remembers_showDomain (s : State) : s.Remembers s.showDomain :=
  (remembers_setFld ..).after ((remembers_setFld ..).after ((remembers_setFld ..).after (remembers_setFld ..)))

theorem remembers_discoveryAnswered (s : State) (p : Nat) : s.Remembers (s.discoveryAnswered p) := remembers_setTx ..

theorem remembers_failLinks (s : State) (f : Fid) : s.Remembers (s.failLinks f) := (remembers_showDomain ..).after (.of rfl)

theorem remembers_rejoinFailed (s : State) (f : Fid) (step : Nat) : s.Remembers (s.rejoinFailed f step) := (remembers_present ..).after (.of rfl)

theorem remembers_katFailed (s : State) (f : Fid) : s.Remembers (s.katFailed f) := by
  unfold State.katFailed
  split; exacts [.ite ((remembers_sendHooked ..).after (.of rfl)) (remembers_rejoinFailed ..), .ite (remembers_failLinks ..) (.refl _)]

theorem remembers_hookFailed (s : State) (k : AckKind) (f : Fid) (status : Nat) (value : Word64) : s.Remembers (s.hookFailed k f status value) := by
  unfold State.hookFailed
  split
  · exact remembers_installFailed ..
  · exact .ite (remembers_commitRefused ..) (.refl _)
  · exact remembers_stageFailed ..
  · exact remembers_reserveRefused ..
  · exact remembers_freeAnswered ..
  · exact remembers_completeTag ..
  · exact remembers_setEngine ..
  · exact .refl _
  · exact remembers_claimFailed ..
  · exact .refl _
  · exact remembers_katFailed ..
  · exact remembers_takeoverRead ..
  · exact .refl _

theorem remembers_restartOwn (s : State) (far : Fid) : s.Remembers (s.restartOwn far) :=
  (remembers_forEach (fun _ _ => remembers_hookFailed ..) ..).after ((remembers_forEach (fun _ _ => remembers_emit ..) ..).after (.of rfl))

theorem remembers_joinEnds (s : State) (a : AgentRef) (f : Fid) (p : Nat) : s.Remembers (s.joinEnds a f p) := by
  unfold State.joinEnds
  dsimp only
  split; exacts [remembers_setPort .., .refl _]

theorem remembers_raiseGeneration (s : State) (found : Nat) : s.Remembers (s.raiseGeneration found) := .ite (remembers_setFld ..) (.refl _)

theorem remembers_claimOne (s : State) (f : Fid) (digest : BitVec 384) : s.Remembers (s.claimOne f digest) :=
  (remembers_sendHooked ..).after (remembers_mirrorOut ..)

theorem remembers_reclaim (s : State) : s.Remembers s.reclaim := remembers_forEach (fun _ _ => remembers_sendHooked ..) ..

theorem remembers_adoptDevice (s : State) (f : Fid) (r : DiscoverInfo) : s.Remembers (s.adoptDevice f r) :=
  .after (.ite ((remembers_orderScrub ..).after (remembers_setDev ..)) (.ite (remembers_setPartition ..) (.ite (.refl _)
    (remembers_setDev ..)))) (.ite (.refl _) ((remembers_setPart ..).after (.of rfl)))

theorem remembers_adoptEpoch (s : State) (port : Nat) (r : DiscoverInfo) : s.Remembers (s.adoptEpoch port r) := by
  unfold State.adoptEpoch
  extract_lets slot delay s1
  have h1 : s.Remembers s1 := (remembers_setFld ..).after (remembers_setFld ..)
  exact .ite (.refl _) (.after (t := s1) (.of rfl) h1)

end Sys2Proof.Machine
end

section
/-! The agent that has answered discovery, and its claim. -/

namespace Sys2Proof.Machine

variable {s : State}

theorem State.sendPkt_hooks (s : State) (n : Node) (p : Packet) (kept : Bool) (port : Option Nat) : (s.sendPkt n p kept port).hooks = s.hooks := by
  have h := linkOnly_sendPkt s n p kept port
  unfold State.LinkOnly at h
  rw [h]

theorem State.sendHooked_hooks (s : State) (dest : Fid) (typ : BitVec 8) (payload : List Byte) (kind : AckKind) (addr : BitVec 57) (aux : BitVec 24) :
    (s.sendHooked dest typ payload kind addr aux).hooks
      = s.hooks ++ [{ dest := some dest, stream := Config.ownStream, seq := (s.tx .ctl dest Config.ownStream).nextSeq, kind := kind }] :=
  State.sendPkt_hooks ..

/-- The claim of an agent leaves with a hook of its own. -/
def State.Claimed (s : State) (f : Fid) : Prop := ∃ h ∈ s.hooks, h.dest = some f ∧ h.kind = .claim

theorem State.claimed_claimOne (s : State) (f : Fid) (digest : BitVec 384) : (s.claimOne f digest).Claimed f := by
  unfold State.Claimed State.claimOne
  rw [State.sendHooked_hooks]
  exact ⟨_, List.mem_append_right _ (List.mem_singleton_self _), rfl, rfl⟩

theorem State.Claimed.reclaim {f : Fid} (h : s.Claimed f) : s.reclaim.Claimed f := by
  unfold State.reclaim
  generalize s.dom.known = l
  induction l generalizing s with
  | nil => exact h
  | cons k l ih =>
    refine ih ?_
    obtain ⟨x, hx, hd, hk⟩ := h
    refine ⟨x, ?_, hd, hk⟩
    rw [State.sendHooked_hooks]
    exact List.mem_append_left _ hx

theorem State.unclaimed_enterKnown (s : State) (k : Known) (hadm : k.admitted = false) (hclaim : k.claimAcked = false) :
    (s.enterKnown k).Unclaimed k.ref k.fid k.port k.agentPort :=
  ⟨k, List.mem_append_right _ (List.mem_singleton_self _), rfl, rfl, hadm, hclaim, rfl, rfl⟩

theorem State.discover_leaves (s : State) (port : Nat) (r : DiscoverInfo) (f : Fid) (other : Bool) :
    (s.discover port r f other).Unclaimed r.agent f port r.agentPort ∧ (s.discover port r f other).Claimed f := by
  unfold State.discover
  extract_lets old s1 gen s2 k s3 s4 s5 s6 s7 s8 s9
  have h3 : s3.Unclaimed r.agent f port r.agentPort :=
    (remembers_discoveryAnswered ..).unclaimed (State.unclaimed_enterKnown s2 k rfl rfl)
  have h4 : s3.Remembers s4 := .ite (remembers_restartOwn ..) (.refl _)
  have h6 : s4.Remembers s6 := (remembers_rekeyLink ..).after ((remembers_joinEnds ..).after (remembers_updAgent ..))
  have h9 : s6.Remembers s9 :=
    (remembers_claimOne ..).after ((remembers_adoptDevice ..).after ((remembers_adoptEpoch ..).after (remembers_setFld ..)))
  have hk : s9.Unclaimed r.agent f port r.agentPort := (h9.after (h6.after h4)).unclaimed h3
  have hc : s9.Claimed f := State.claimed_claimOne ..
  clear_value s9
  split
  · exact ⟨(remembers_reclaim s9).unclaimed hk, hc.reclaim⟩
  · exact ⟨hk, hc⟩

end Sys2Proof.Machine
end

section
/-! Discovery, claims, known-answer tests and rejoins. -/

namespace Sys2Proof.Machine

variable {s t u : State}

/-! ## Time-outs of claims and restarts (R412, R471) -/

/-- The time of the claim of an agent is set. -/
def State.stampClaim (s : State) (dest : Fid) : State :=
  { s with dom := { s.dom with known := s.dom.known.map fun (y : Known) => if y.fid = dest then { y with claimSentNs := s.now } else y } }

theorem exec_claimAckTimeout_unknown {dest : Fid} (h : s.dom.known.find? (fun k => k.fid == dest) = none) :
    exec (.claimAckTimeout dest) s = .next s := by
  change execClaimAckTimeout dest s = _
  unfold execClaimAckTimeout
  rw [h]

theorem exec_claimAckTimeout_known {dest : Fid} {k : Known} (h : s.dom.known.find? (fun k => k.fid == dest) = some k) :
    exec (.claimAckTimeout dest) s =
    if k.claimAcked ∨ s.now < k.claimSentNs + 100000 then .next s
    else .next ((s.stampClaim dest).sendHooked dest 0x33 (s.claimBytes dest noFid 0) .claim) := by
  change execClaimAckTimeout dest s = _
  unfold execClaimAckTimeout
  rw [h]
  rfl

/-- The restarts that wait for an acknowledgement of the agent too long. -/
def State.lateRestarts (s : State) (dest : Fid) : List (Fid × List Fid × Nat) :=
  s.dom.restarts.filter fun x => x.2.1.contains dest && decide (x.2.2 + 100000 ≤ s.now)

/-- The time of a restart is set. -/
def State.stampRestart (s : State) (target : Fid) : State :=
  { s with dom := { s.dom with restarts := s.dom.restarts.map fun y => if y.1 = target then (y.1, y.2.1, s.now) else y } }

theorem exec_streamsResetTimeout_eq (s : State) (dest : Fid) : exec (.streamsResetTimeout dest) s =
    .next (s.forEach (s.lateRestarts dest) fun s x =>
      (s.stampRestart x.1).sendHooked dest 0x38 (leBytes 4 x.1.toNat ++ zeros 12) (.streamsReset x.1)) := rfl

theorem State.lateRestarts_none {dest : Fid} (h : ∀ x ∈ s.dom.restarts, dest ∉ x.2.1 ∨ s.now < x.2.2 + 100000) : s.lateRestarts dest = [] := by
  refine List.filter_eq_nil_iff.2 fun x hx => ?_
  have hx := h x hx
  simp only [List.contains_eq_mem, Bool.and_eq_true, decide_eq_true_eq]
  rintro ⟨h1, h2⟩
  exact hx.elim (fun hx => hx h1) fun hx => by omega

theorem State.lateRestarts_one {dest target : Fid} {l : List Fid} {x : Nat} (h : s.dom.restarts = [(target, l, x)]) (hd : dest ∈ l)
    (hx : x + 100000 ≤ s.now) : s.lateRestarts dest = [(target, l, x)] := by
  rw [State.lateRestarts, h]
  simp [hd, hx]

/-! ## The close of discovery (R424, R428) -/

def State.closeDiscovery (s : State) : State := { s with dom := { s.dom with closed := true } }

/-- The agents in service without tables. -/
def State.bareAgents (s : State) : List Fid := (s.dom.known.filter fun k => k.admitted && k.version == 0).map (·.fid)

theorem exec_discoveryClose_eq (s : State) : exec .discoveryClose s = if s.dom.closed ∨ s.ready = false then .next s
    else .next (if (s.bareAgents.map fun f => (f, Config.baseTables s.fresh f.toNat)).isEmpty then s.closeDiscovery.keyLinks.setFld PWR_STATUS_DOMAIN_READY 1
      else (s.closeDiscovery.keyLinks.submitInstall (s.bareAgents.map fun f => (f, Config.baseTables s.fresh f.toNat)) .nobody).useFree) := rfl

/-! ## Known-answer runs (R42, R102, R422, R473) -/

theorem State.katPassed_none {f : Fid} (hr : s.dom.rejoins.find? (fun x => x.fid == f) = none) : s.katPassed f =
    match s.dom.known.find? fun k => k.fid == f && k.katAsked && !k.admitted with
    | some k => s.admitAgent k
    | none => s := by
  unfold State.katPassed
  rw [hr] <;> rfl

theorem State.katPassed_rejoin {f : Fid} {r : Rejoin} {a : AgentRef} (hr : s.dom.rejoins.find? (fun x => x.fid == f) = some r)
    (ha : s.refOf f = some a) : s.katPassed f = s.rejoinRest a r := by
  unfold State.katPassed
  rw [hr, ha]

theorem State.katFailed_none {f : Fid} (hr : s.dom.rejoins.find? (fun x => x.fid == f) = none) :
    s.katFailed f = if s.dom.known.any fun k => k.fid == f && k.katAsked && !k.admitted then s.failLinks f else s := by
  unfold State.katFailed
  rw [hr]

/-- The step of a rejoin is to be tried once more. -/
def State.retryRejoin (s : State) (f : Fid) : State :=
  { s with dom := { s.dom with rejoins := s.dom.rejoins.map fun (x : Rejoin) => if x.fid = f then { x with tries := 1 } else x } }

theorem State.katFailed_rejoin {f : Fid} {r : Rejoin} (hr : s.dom.rejoins.find? (fun x => x.fid == f) = some r) :
    s.katFailed f = if r.tries = 0 then (s.retryRejoin f).sendHooked f 0x21 [] .kat else s.rejoinFailed f 2 := by
  unfold State.katFailed
  rw [hr]
  rfl

theorem exec_katResult_fresh {p : Packet} (h : s.freshPacket .ctl p) :
    exec (.katResult p) s = .next ((if leAt p.payload 4 4 = 0 then s.katPassed p.hdr.src else s.katFailed p.hdr.src).acked .ctl p) :=
  congrArg Host.Outcome.next (State.accept_taken h rfl)

/-! ## Rejoins (R42) -/

/-- The endpoint's rejoin runs no longer. -/
def State.dropRejoin (s : State) (f : Fid) : State :=
  { s with dom := { s.dom with rejoins := s.dom.rejoins.filter fun x => x.fid != f } }

theorem State.forEach_four {α : Type} (s : State) (f : State → α → State) (a b c d : α) : s.forEach [a, b, c, d] f = f (f (f (f s a) b) c) d := rfl

theorem State.rejoinRest_whole {a : AgentRef} {r : Rejoin} (h : r.failsAt = none) : s.rejoinRest a r =
    ((((s.dropRejoin r.fid).rejoinStep a r.fid 3).rejoinStep a r.fid 4).rejoinStep a r.fid 5).rejoinStep a r.fid 6 := by
  unfold State.rejoinRest
  rw [h]
  exact State.forEach_four (s.dropRejoin r.fid) (fun s n => s.rejoinStep a r.fid n) 3 4 5 6

theorem State.rejoinRest_third {a : AgentRef} {r : Rejoin} (h : r.failsAt = some 3) : s.rejoinRest a r = (s.dropRejoin r.fid).rejoinFailed r.fid 3
    := by
  have hnone : [3, 4, 5, 6].filter (fun n => decide (n < 3)) = [] := by decide
  unfold State.rejoinRest
  rw [h]
  dsimp only
  rw [hnone]
  rfl

theorem State.rejoinFailed_leaves (s : State) (f : Fid) (n : Nat) : f ∈ (s.rejoinFailed f n).dom.rejoinOut
    ∧ (∀ x ∈ (s.rejoinFailed f n).dom.rejoins, x.fid ≠ f)
    ∧ { origin := f, source := 192, severity := 2, detail := BitVec.ofNat 16 (0x10 + n), timeNs := s.now, agentOrigin := true }
      ∈ (s.rejoinFailed f n).col.raised := by
  have hdom : (s.rejoinFailed f n).dom.rejoinOut = (s.dom.rejoinOut ++ [f]).dedup
    ∧ (s.rejoinFailed f n).dom.rejoins = s.dom.rejoins.filter fun x => x.fid != f := ⟨rfl, rfl⟩
  refine ⟨?_, fun x hx => ?_, List.mem_append_right _ List.mem_cons_self⟩
  · rw [hdom.1]
    simp
  · rw [hdom.2] at hx
    simpa using (List.mem_filter.1 hx).2

/-- The rejoin of the endpoint begins. -/
def State.beginRejoin (s : State) (f : Fid) (step : Option Nat) : State :=
  { s with dom := { s.dom with rejoins := (s.dom.rejoins.filter fun x => x.fid != f) ++ [{ fid := f, failsAt := step }] } }

theorem exec_rejoinStart_eq (s : State) (a : AgentRef) (step : Option Nat) : exec (.rejoinStart a step) s = if s.mayRejoin a = false then .next s
    else .next ((s.beginRejoin (s.nodeFid (.agent a)) step).sendHooked (s.nodeFid (.agent a)) 0x21 [] .kat) := rfl

theorem State.mayRejoin_iff (s : State) (a : AgentRef) : s.mayRejoin a = true ↔ a.variant = .e ∧ s.nodeFid (.agent a) ≠ noFid
    ∧ s.jfld a JX_STATUS_COMPUTE_IN_RESET = 0 ∧ s.jfld a JX_STATUS_REJOINED = 0 ∧ s.nodeFid (.agent a) ∉ s.dom.rejoinOut := by
  unfold State.mayRejoin
  simp [and_assoc]

end Sys2Proof.Machine

namespace Sys2Proof
open Machine

/-- Settles O27. -/
theorem discoveryResults : Obligations.DiscoveryResults := by
  refine ⟨fun s port r dest f other => ⟨fun h => ⟨if_pos h, if_pos (.inr h)⟩, fun h hc => ?_, fun h hc ha => ?_, fun h hc ha => ?_,
      exec_claimAckTimeout_unknown, fun k hk => ⟨fun h => ?_, fun hc hn => ?_⟩, fun h => ?_, fun target l x h hd hx => ?_, fun h => if_pos (.inl h),
      fun hc h hk => ?_, fun hc h l hl hne => ?_⟩,
    fun s p a k f r step => ⟨fun h hr hk => ?_, fun h hr hk => ⟨fun h0 => ?_, fun h0 => ?_⟩, fun h hr ha => ⟨fun h0 => ?_, fun h0 ht => ?_, fun h0 ht => ?_⟩,
      fun u hu => ⟨fun h => ?_, fun h => ?_⟩, s.rejoinFailed_leaves f 2, fun hf => ⟨fun h => ?_, fun h1 h2 h3 h4 h5 => ?_⟩⟩⟩
  · exact (if_neg (by simp [h])).trans (if_pos hc)
  · change execDiscoverResp port r s = _
    unfold execDiscoverResp
    rw [if_neg (by simp [h]), if_neg (by simp [hc]), ha]
  · refine ⟨s.discover port r f other, ?_, s.discover_leaves port r f other⟩
    change execDiscoverResp port r s = _
    unfold execDiscoverResp
    rw [if_neg (by simp [h]), if_neg (by simp [hc]), ha]
  · rw [exec_claimAckTimeout_known hk, if_pos h]
  · rw [exec_claimAckTimeout_known hk, if_neg (by simp [hc]; omega)]
    exact ⟨s.stampClaim dest, rfl, rfl, rfl⟩
  · rw [exec_streamsResetTimeout_eq, State.lateRestarts_none h]
    rfl
  · rw [exec_streamsResetTimeout_eq, State.lateRestarts_one h hd hx]
    refine ⟨s.stampRestart target, rfl, ?_, rfl⟩
    have hstamp : (s.stampRestart target).dom.restarts = s.dom.restarts.map fun y => if y.1 = target then (y.1, y.2.1, s.now) else y := rfl
    rw [hstamp, h]
    simp
  · have hbare : s.bareAgents = [] := by
      simp only [State.bareAgents, List.map_eq_nil_iff, List.filter_eq_nil_iff]
      intro k hk'
      have := hk k hk'
      cases hadm : k.admitted <;> simp_all
    rw [exec_discoveryClose_eq, if_neg (by simp [hc, h]), hbare]
    rfl
  · have hbare : l = s.bareAgents := hl
    rw [exec_discoveryClose_eq, if_neg (by simp [hc, h]), if_neg (by simpa [← hbare] using hne), hbare]
    rfl
  · rw [exec_katResult_fresh h, State.katPassed_none hr, State.katFailed_none hr, hk]
    have hany : (s.dom.known.any fun k => k.fid == p.hdr.src && k.katAsked && !k.admitted) = false := by
      rw [List.find?_eq_none] at hk
      rw [List.any_eq_false]
      exact hk
    rw [hany]
    simp
  · rw [exec_katResult_fresh h, if_pos h0, State.katPassed_none hr, hk]
  · have hfound := List.find?_some hk
    have hfid : k.fid = p.hdr.src := by
      simp only [Bool.and_eq_true, beq_iff_eq] at hfound
      exact hfound.1.1
    rw [exec_katResult_fresh h, if_neg h0, State.katFailed_none hr, if_pos (List.any_eq_true.2 ⟨k, List.mem_of_find?_eq_some hk, hfound⟩), hfid]
  · rw [exec_katResult_fresh h, if_pos h0, State.katPassed_rejoin hr ha]
  · rw [exec_katResult_fresh h, if_neg h0, State.katFailed_rejoin hr, if_neg ht]
  · rw [exec_katResult_fresh h, if_neg h0, State.katFailed_rejoin hr, if_pos ht]
    exact ⟨s.retryRejoin p.hdr.src, rfl, rfl, rfl⟩
  · rw [State.rejoinRest_whole h, hu, State.dropRejoin]
  · rw [State.rejoinRest_third h, hu, State.dropRejoin]
  · have hnot : s.mayRejoin a = false := by
      rw [Bool.eq_false_iff, Ne, State.mayRejoin_iff, ← hf]
      rintro ⟨h1, h2, h3, h4, h5⟩
      obtain h | h | h | h | h := h
      · rw [h] at h1
        cases h1
      · exact h2 h
      · exact h h3
      · exact h h4
      · exact h5 h
    rw [exec_rejoinStart_eq, if_pos hnot]
  · have hmay : s.mayRejoin a = true := (s.mayRejoin_iff a).2 ⟨h1, hf ▸ h2, h3, h4, hf ▸ h5⟩
    rw [exec_rejoinStart_eq, if_neg (by simp [hmay]), ← hf]
    exact ⟨s.beginRejoin f step, rfl, List.mem_append_right _ (List.mem_singleton_self _), rfl⟩

end Sys2Proof
end

section
/-! The end of a resync beside a queue that no controller has (R200, R401): its registers would lie where TRI_STATUS stands. -/

namespace Sys2Proof.Machine

/-- TRI_STATUS: arbiters 0 and 1 in the vote, arbiter 2 in the pause of its resync. -/
def statusOfPause : Word64 := TRI_STATUS_RESYNC_DIE.put (TRI_STATUS_PHASE.put (TRI_STATUS_VOTING.put 0 3) 4) 2

/-- An ADMIT that has started. -/
def startedAdmit : Cmd := { bytes := 7 :: List.replicate 63 0, state := .started }

/-- A paired primary that has lost both paths, with the result of an ADMIT that waits for the standby; its queue is number 3,968,
whose CTL_CQn_CFG would be at the offset of TRI_STATUS, and is being disabled. -/
def stateWithQueueAtStatus : State :=
  { regs := [(TRI_STATUS, statusOfPause), (TRI_STANDBY_STATUS, 0)], tri := { paired := true, behind := [.admission 3968 0 0 0 false] }
    queues := [(3968, { cmds := [startedAdmit], disabling := true })] }

/-- The end of the pause begins the hold, which ends the ADMIT; its queue is then disabled, and the bit that goes is that of arbiter 2. -/
theorem stateWithQueueAtStatus_loses_vote :
    (match exec (.resyncPauseDone true) stateWithQueueAtStatus with | .next t => t.votes 2 | _ => true) = false := by decide +kernel

/-- Refutes O51: with equal digests the die need not come back into the vote, where a queue of a number above 63 is there. -/
theorem not_voteResults : ¬ Obligations.VoteResults := by
  intro h
  obtain ⟨-, -, -, -, -, -, -, -, -, -, -, -, -, hpause, -⟩ :=
    h stateWithQueueAtStatus 0 2 0 0 0 0 [] [] ⟨0, 0, 0, [], 0, false, 0, []⟩ .operator 0
  obtain ⟨⟨t, hexec, -, hvotes, -⟩, -⟩ := hpause (by decide +kernel) (by decide +kernel) (by decide)
  have hlost := stateWithQueueAtStatus_loses_vote
  rw [hexec] at hlost
  have hlost : t.votes 2 = false := hlost
  rw [hvotes] at hlost
  cases hlost

end Sys2Proof.Machine
end

section
/-! The standby pair. -/

namespace Sys2Proof.Machine

variable {s t u : State}

/-! ## What commands that end leave of the pair -/

/-- The role, the pair's configuration, whether it is paired and copied, and what has lapsed. -/
structure State.KeepsPair (s t : State) : Prop where
  role : t.fld TRI_STATUS_ROLE = s.fld TRI_STATUS_ROLE
  cfg : t.reg TRI_STANDBY_CFG = s.reg TRI_STANDBY_CFG
  paired : t.tri.paired = s.tri.paired
  copied : t.tri.fullCopy = s.tri.fullCopy
  lapses : t.lapses = s.lapses

theorem State.KeepsPair.refl (s : State) : s.KeepsPair s := ⟨rfl, rfl, rfl, rfl, rfl⟩

theorem State.KeepsPair.trans (h : s.KeepsPair t) (g : t.KeepsPair u) : s.KeepsPair u :=
  ⟨g.role.trans h.role, g.cfg.trans h.cfg, g.paired.trans h.paired, g.copied.trans h.copied, g.lapses.trans h.lapses⟩

theorem State.KeepsPair.ite {c : Prop} [Decidable c] (h : s.KeepsPair t) (g : s.KeepsPair u) : s.KeepsPair (if c then t else u) := by
  split
  · exact h
  · exact g

theorem State.KeepsPair.forEach {α : Type} {f : State → α → State} (h : ∀ (s : State) x, s.KeepsPair (f s x)) (l : List α) (s : State) :
    s.KeepsPair (s.forEach l f) := by
  induction l generalizing s with
  | nil => exact .refl s
  | cons x l ih => exact (h s x).trans (ih (f s x))

theorem keepsPair_of_eq (hr : t.regs = s.regs) (ht : t.tri = s.tri) (hl : t.lapses = s.lapses) : s.KeepsPair t := by
  refine ⟨?_, ?_, by rw [ht], by rw [ht], hl⟩
  · rw [State.fld, State.fld, State.reg, State.reg, hr]
  · rw [State.reg, State.reg, hr]

/-- The registers of a queue of any number: its status and its bit ENABLE lie where neither the role nor the pair's configuration is. -/
theorem keepsPair_setCq (s : State) (n : Nat) {f : Field} (h : f.off = CTL_CQn_STATUS ∨ f = CTL_CQn_CFG_ENABLE) (v : Nat) : s.KeepsPair (s.setCq n f v) := by
  have hreg (off : Nat) (ho : off ≠ cqOff n f.off) : (s.setCq n f v).reg off = s.reg off := State.reg_setFld_off s (f := f.at (cqOff n f.off)) ho v
  obtain h | h := h
  · have hstatus : TRI_STATUS ≠ cqOff n f.off := by
      rw [h]
      unfold cqOff TRI_STATUS CTL_CQn_STATUS
      omega
    have hcfg : TRI_STANDBY_CFG ≠ cqOff n f.off := by
      rw [h]
      unfold cqOff TRI_STANDBY_CFG CTL_CQn_STATUS
      omega
    exact ⟨congrArg TRI_STATUS_ROLE.of (hreg _ hstatus), hreg _ hcfg, rfl, rfl, rfl⟩
  · have hcfg : TRI_STANDBY_CFG ≠ cqOff n f.off := by
      rw [h]
      unfold cqOff TRI_STANDBY_CFG CTL_CQn_CFG_ENABLE CTL_CQn_CFG
      dsimp only
      omega
    refine ⟨?_, hreg _ hcfg, rfl, rfl, rfl⟩
    by_cases hc : TRI_STATUS = cqOff n f.off
    · have hrole : TRI_STATUS_ROLE.at (cqOff n f.off) = TRI_STATUS_ROLE := by rw [← hc]; rfl
      have hen : CTL_CQn_CFG_ENABLE.fits := by unfold Field.fits; decide
      have hro : TRI_STATUS_ROLE.fits := by unfold Field.fits; decide
      have ha : CTL_CQn_CFG_ENABLE.apart TRI_STATUS_ROLE := by unfold Field.apart; decide
      have hset := State.fld_setFld_apart s (f := CTL_CQn_CFG_ENABLE.at (cqOff n f.off)) (g := TRI_STATUS_ROLE.at (cqOff n f.off)) hen hro ha v
      rw [hrole] at hset
      rw [State.setCq, h] at *
      exact hset
    · exact congrArg TRI_STATUS_ROLE.of (hreg _ hc)

theorem keepsPair_putRecord (s : State) (n : Nat) (l : List Byte) (irq : Bool) : s.KeepsPair (s.putRecord n l irq) := by
  have hact (v : State) (o : Out) : v.KeepsPair (v.act o) := keepsPair_of_eq (State.act_regs v o) (State.act_tri v o) (State.act_lapses v o)
  have hq (v : State) (x : QueueSt) : v.KeepsPair (v.setQueue n x) := ⟨rfl, rfl, rfl, rfl, rfl⟩
  unfold State.putRecord
  extract_lets q size tail phase a b
  have hb : s.KeepsPair b := ((hact s _).trans (keepsPair_setCq a n (.inl rfl) _)).trans (hq _ _)
  exact .ite (hb.trans (hact _ _)) hb

theorem keepsPair_endDisable (s : State) (n : Nat) : s.KeepsPair (s.endDisable n) := by
  have hq (v : State) (x : QueueSt) : v.KeepsPair (v.setQueue n x) := ⟨rfl, rfl, rfl, rfl, rfl⟩
  exact .ite ((hq s _).trans (keepsPair_setCq _ n (.inr rfl) 0)) (.refl s)

theorem keepsPair_completeCmd (s : State) (n : Nat) (c : Cmd) (r : Record) : s.KeepsPair (s.completeCmd n c r) := by
  unfold State.completeCmd
  extract_lets v q
  have hrecord : s.KeepsPair v := .ite ⟨rfl, rfl, rfl, rfl, rfl⟩ (keepsPair_putRecord s _ _ _)
  have hq : v.KeepsPair (v.setQueue n { q with cmds := removeFirst (· == c) q.cmds }) := ⟨rfl, rfl, rfl, rfl, rfl⟩
  exact (hrecord.trans hq).trans (keepsPair_endDisable _ n)

theorem keepsPair_endProgram (s : State) (e status detail : Nat) (result : Word64) (pc : Nat) : s.KeepsPair (s.endProgram e status detail result pc) := by
  have hquit (v : State) : v.KeepsPair (v.quitGate e) := .ite ⟨rfl, rfl, rfl, rfl, rfl⟩ (.refl v)
  have hforget : s.KeepsPair (s.forgetTags e) := ⟨rfl, rfl, rfl, rfl, rfl⟩
  have hhub (v : State) (h : Nat) (o : Out) : v.KeepsPair (v.hubAct h o) :=
    keepsPair_of_eq (State.hubAct_regs v h o) (State.hubAct_tri v h o) (State.hubAct_lapses v h o)
  have hset (v : State) (x : Engine) : v.KeepsPair (v.setEngine e x) := ⟨rfl, rfl, rfl, rfl, rfl⟩
  unfold State.endProgram
  extract_lets x v
  have hgone : s.KeepsPair v := (hforget.trans (hquit _)).trans (hset _ _)
  refine .ite (.refl s) ?_
  split
  · exact hgone
  · extract_lets rep w q z
    have hrep : v.KeepsPair w := .ite (.refl v) (hhub _ _ _)
    have hq : w.KeepsPair z := ⟨rfl, rfl, rfl, rfl, rfl⟩
    split
    · exact (hgone.trans hrep).trans hq
    · have hfree : z.KeepsPair (if status = 1 then z else z.useFree) := .ite (.refl z) ⟨rfl, rfl, rfl, rfl, rfl⟩
      exact (((hgone.trans hrep).trans hq).trans hfree).trans (keepsPair_completeCmd _ _ _ _)

theorem keepsPair_showStalled (s : State) (n : Nat) : s.KeepsPair (s.showStalled n) := keepsPair_setCq s n (.inl rfl) _

theorem keepsPair_cancelCmd (s : State) (n : Nat) (c : Cmd) (d : Nat) : s.KeepsPair (s.cancelCmd n c d) := by
  unfold State.cancelCmd
  split
  · exact (keepsPair_completeCmd s n c _).trans (keepsPair_showStalled _ n)
  · refine .ite ?_ (.refl s)
    split
    · exact keepsPair_endProgram s _ _ _ _ _
    · exact .refl s

theorem keepsPair_disableQueue (h : s.cq n CTL_CQn_CFG_ENABLE = 1) (w : Word64) : s.KeepsPair (s.disableQueue n w) := by
  unfold State.disableQueue
  rw [if_neg (by simp [h])]
  extract_lets q v z
  have hv : s.KeepsPair v := ⟨rfl, rfl, rfl, rfl, rfl⟩
  have hz : v.KeepsPair z := .forEach (fun s c => keepsPair_cancelCmd s n c 3) _ v
  exact ((hv.trans hz).trans (keepsPair_endDisable z n)).trans (keepsPair_showStalled _ n)

/-! ## Packets that leave by a port -/

theorem State.startFrame_tri (s : State) (n : Node) (p : Nat) (k : Packet) : (s.startFrame n p k).tri = s.tri := State.setPort_tri s n p _

theorem State.sendCredit_tri (s : State) (n : Node) (p : Nat) : (s.sendCredit n p).tri = s.tri := by
  unfold State.sendCredit
  dsimp only
  split
  · rfl
  · split
    · rw [State.startFrame_tri, State.setPort_tri]
    · exact State.setPort_tri s n p _

theorem State.freeUnits_tri (s : State) (n : Node) (p : Nat) (h : Header) : (s.freeUnits n p h).tri = s.tri := by
  unfold State.freeUnits State.returnCredit
  dsimp only
  split
  · rw [State.sendCredit_tri, State.setPort_tri]
  · exact State.setPort_tri s n p _

theorem State.forEach_tri {α : Type} {f : State → α → State} (h : ∀ (s : State) x, (f s x).tri = s.tri) (l : List α) (s : State) :
    (s.forEach l f).tri = s.tri := by
  induction l generalizing s with
  | nil => rfl
  | cons x l ih => exact (ih (f s x)).trans (h s x)

theorem State.pumpPort_tri (s : State) (n : Node) (p : Nat) : (s.pumpPort n p).tri = s.tri := by
  unfold State.pumpPort State.recordSent
  refine (State.forEach_tri (fun s x => ?_) _ _).trans (State.setPort_tri s n p _)
  split
  · exact State.freeUnits_tri s n _ _
  · rfl

theorem State.portSend_tri (s : State) (n : Node) (p : Nat) (k : Packet) (source : Option Nat) : (s.portSend n p k source).tri = s.tri := by
  have htraffic : (s.noteTraffic n p k.hdr).tri = s.tri := by
    unfold State.noteTraffic
    split
    · rfl
    · cases n with
      | ctl => rfl
      | agent a => rfl
  have hwake (v : State) : (v.wakeAgentPort n p).tri = v.tri := by
    unfold State.wakeAgentPort
    split
    · rfl
    · split
      · exact State.setPort_tri v _ p _
      · rfl
  have hfirst : ((s.noteTraffic n p k.hdr).wakeAgentPort n p).tri = s.tri := (hwake _).trans htraffic
  unfold State.portSend
  extract_lets v x y z
  split
  · split
    · exact (State.startFrame_tri _ n p k).trans ((State.setPort_tri v n p _).trans hfirst)
    · exact (State.setPort_tri v n p _).trans hfirst
  · exact (State.pumpPort_tri _ n p).trans ((State.setPort_tri v n p _).trans hfirst)

/-- A packet that need not wait for the standby. -/
theorem State.originateOn_tri (s : State) (n : Node) (port : Nat) {p : Packet} (h : p.hdr.behindMirror = false) : (s.originateOn n port p).tri = s.tri := by
  unfold State.originateOn
  split
  · rfl
  · rw [if_neg (by simp [h])]
    exact State.portSend_tri _ n port p none

theorem State.sendMgmt_tri (s : State) (n : Node) (d : Fid) {typ : BitVec 8} (l : List Byte) (h : [0x23, 0x24, 0x2B, 0x2D, 0x33].contains typ.toNat = false) :
    (s.sendMgmt n d typ l).tri = s.tri := by
  have hbehind (k : Packet) (hk : k.hdr.typ = typ) : k.hdr.behindMirror = false := by
    rw [Header.behindMirror, hk, h, Bool.and_false]
  have hemit (v : State) (t : TxPkt) (ht : t.pkt.hdr.typ = typ) : (v.emitTx n t).tri = v.tri := by
    unfold State.emitTx State.originate
    split
    · exact State.originateOn_tri v n _ (hbehind _ ht)
    · exact State.originateOn_tri v n _ (hbehind _ ht)
  unfold State.sendMgmt State.sendPkt
  extract_lets x q y x1 wait t v
  rw [if_pos rfl]
  split
  · exact State.setTx_tri s n _ _ _
  · exact (hemit v t rfl).trans (State.setTx_tri s n _ _ _)

/-! ## Pairing (R404, R416) -/

theorem exec_pairEnable_eq {lvl : Level} (hl : lvl ≠ .tenant) (v : Word64) : exec (.pairEnable lvl v) s = .next (s.writeStandbyCfg v) := by
  cases lvl with
  | tenant => exact absurd rfl hl
  | _ => rfl

/-- The fields a write of TRI_STANDBY_CFG stores. -/
def State.storeStandby (s : State) (v : Word64) : State :=
  let s := (s.setFld TRI_STANDBY_CFG_PARTNER_ID (TRI_STANDBY_CFG_PARTNER_ID.of v)).setFld TRI_STANDBY_CFG_PAIR_EN (TRI_STANDBY_CFG_PAIR_EN.of v)
  let s := if 5 ≤ TRI_STANDBY_CFG_HB_MISS.of v then s.setFld TRI_STANDBY_CFG_HB_MISS (TRI_STANDBY_CFG_HB_MISS.of v) else s
  if 5 ≤ TRI_STANDBY_CFG_HOLD_MS.of v then s.setFld TRI_STANDBY_CFG_HOLD_MS (TRI_STANDBY_CFG_HOLD_MS.of v) else s

/-- A full copy goes to the partner. -/
def State.sendCopy (s : State) : State :=
  ({ s with tri := { s.tri with mirrorSeq := s.tri.mirrorSeq + 1, mirrorOpen := s.tri.mirrorOpen ++ [(s.tri.mirrorSeq + 1, s.now, 0)] } } : State).sendMgmt
    .ctl s.partner 0x2E (mirrorPayload (s.tri.mirrorSeq + 1) 0)

/-- The pair is no more. -/
def State.unpair (s : State) : State :=
  (({ s with tri := { s.tri with paired := false, fullCopy := false } } : State).lapse 0x0007 noFid.toNat).releaseBehind

theorem State.writeStandbyCfg_eq (s : State) (v : Word64) : s.writeStandbyCfg v =
    if s.fld TRI_STANDBY_CFG_PAIR_EN = 0 ∧ TRI_STANDBY_CFG_PAIR_EN.of v = 1 then
      let t := (s.storeStandby v).extendMeas 6 (sha384 (leBytes 4 (s.storeStandby v).partner.toNat))
      if t.fld TRI_STATUS_ROLE = 1 ∨ t.partner = noFid then t else t.sendCopy
    else if s.fld TRI_STANDBY_CFG_PAIR_EN = 1 ∧ TRI_STANDBY_CFG_PAIR_EN.of v = 0 then (s.storeStandby v).unpair
    else s.storeStandby v := rfl

theorem Field.of_mod (f : Field) (w : Word64) : f.of w % 2 ^ (f.hi - f.lo + 1) = f.of w := Nat.mod_mod _ _

/-- A field of the pair's configuration that a write stores only where it is 5 or more. -/
theorem State.fld_storeMin (s : State) {f : Field} (hf : f.fits) (v : Word64) :
    (if 5 ≤ f.of v then s.setFld f (f.of v) else s).fld f = if 5 ≤ f.of v then f.of v else s.fld f := by
  split
  · exact (State.fld_setFld_self s hf _).trans (Field.of_mod f v)
  · rfl

theorem State.fld_storeMin_apart (s : State) {f g : Field} (hf : f.fits) (hg : g.fits) (ha : f.apart g) (v : Word64) :
    (if 5 ≤ f.of v then s.setFld f (f.of v) else s).fld g = s.fld g := by
  split
  · exact State.fld_setFld_apart s hf hg ha _
  · rfl

theorem partnerId_fits : TRI_STANDBY_CFG_PARTNER_ID.fits := by unfold Field.fits; decide
theorem pairEn_fits : TRI_STANDBY_CFG_PAIR_EN.fits := by unfold Field.fits; decide
theorem hbMiss_fits : TRI_STANDBY_CFG_HB_MISS.fits := by unfold Field.fits; decide
theorem holdMs_fits : TRI_STANDBY_CFG_HOLD_MS.fits := by unfold Field.fits; decide

/-- The fields stored. -/
theorem State.storeStandby_fields (s : State) (v : Word64) :
    (s.storeStandby v).fld TRI_STANDBY_CFG_PAIR_EN = TRI_STANDBY_CFG_PAIR_EN.of v
    ∧ (s.storeStandby v).fld TRI_STANDBY_CFG_PARTNER_ID = TRI_STANDBY_CFG_PARTNER_ID.of v
    ∧ (s.storeStandby v).fld TRI_STANDBY_CFG_HB_MISS = (if 5 ≤ TRI_STANDBY_CFG_HB_MISS.of v then TRI_STANDBY_CFG_HB_MISS.of v
        else s.fld TRI_STANDBY_CFG_HB_MISS)
    ∧ (s.storeStandby v).fld TRI_STANDBY_CFG_HOLD_MS = (if 5 ≤ TRI_STANDBY_CFG_HOLD_MS.of v then TRI_STANDBY_CFG_HOLD_MS.of v
        else s.fld TRI_STANDBY_CFG_HOLD_MS) := by
  unfold State.storeStandby
  dsimp only
  refine ⟨?_, ?_, ?_, ?_⟩
  · rw [State.fld_storeMin_apart _ holdMs_fits pairEn_fits (by unfold Field.apart; decide),
      State.fld_storeMin_apart _ hbMiss_fits pairEn_fits (by unfold Field.apart; decide), State.fld_setFld_self _ pairEn_fits, Field.of_mod]
  · rw [State.fld_storeMin_apart _ holdMs_fits partnerId_fits (by unfold Field.apart; decide),
      State.fld_storeMin_apart _ hbMiss_fits partnerId_fits (by unfold Field.apart; decide),
      State.fld_setFld_apart _ pairEn_fits partnerId_fits (by unfold Field.apart; decide), State.fld_setFld_self _ partnerId_fits, Field.of_mod]
  · rw [State.fld_storeMin_apart _ holdMs_fits hbMiss_fits (by unfold Field.apart; decide), State.fld_storeMin _ hbMiss_fits,
      State.fld_setFld_apart _ pairEn_fits hbMiss_fits (by unfold Field.apart; decide),
      State.fld_setFld_apart _ partnerId_fits hbMiss_fits (by unfold Field.apart; decide)]
  · rw [State.fld_storeMin _ holdMs_fits, State.fld_storeMin_apart _ hbMiss_fits holdMs_fits (by unfold Field.apart; decide),
      State.fld_setFld_apart _ pairEn_fits holdMs_fits (by unfold Field.apart; decide),
      State.fld_setFld_apart _ partnerId_fits holdMs_fits (by unfold Field.apart; decide)]

/-- The rest of the state stands. -/
theorem State.storeStandby_rest (s : State) (v : Word64) : (s.storeStandby v).tri = s.tri ∧ (s.storeStandby v).sec = s.sec
    ∧ (s.storeStandby v).engines = s.engines ∧ ∀ off, off ≠ TRI_STANDBY_CFG → (s.storeStandby v).reg off = s.reg off := by
  have hmin (u : State) (f : Field) (hf : f.off = TRI_STANDBY_CFG) (c : Prop) [Decidable c] (n : Nat) :
      (if c then u.setFld f n else u).tri = u.tri ∧ (if c then u.setFld f n else u).sec = u.sec ∧ (if c then u.setFld f n else u).engines = u.engines
      ∧ ∀ off, off ≠ TRI_STANDBY_CFG → (if c then u.setFld f n else u).reg off = u.reg off := by
    split
    · exact ⟨rfl, rfl, rfl, fun off h => State.reg_setFld_off u (by rw [hf]; exact h) n⟩
    · exact ⟨rfl, rfl, rfl, fun _ _ => rfl⟩
  obtain ⟨h1, h2, h3, h4⟩ := hmin ((s.setFld TRI_STANDBY_CFG_PARTNER_ID (TRI_STANDBY_CFG_PARTNER_ID.of v)).setFld TRI_STANDBY_CFG_PAIR_EN
    (TRI_STANDBY_CFG_PAIR_EN.of v)) TRI_STANDBY_CFG_HB_MISS rfl (5 ≤ TRI_STANDBY_CFG_HB_MISS.of v) (TRI_STANDBY_CFG_HB_MISS.of v)
  obtain ⟨k1, k2, k3, k4⟩ := hmin _ TRI_STANDBY_CFG_HOLD_MS rfl (5 ≤ TRI_STANDBY_CFG_HOLD_MS.of v) (TRI_STANDBY_CFG_HOLD_MS.of v)
  refine ⟨k1.trans h1, k2.trans h2, k3.trans h3, fun off h => (k4 off h).trans ((h4 off h).trans ?_)⟩
  rw [State.reg_setFld_off _ h, State.reg_setFld_off _ h]

theorem State.originateOn_engines (s : State) (n : Node) (port : Nat) (p : Packet) : (s.originateOn n port p).engines = s.engines :=
  LinkOnly_engines (linkOnly_originateOn s n port p)

theorem State.LinkOnly.keepsPair (h : s.LinkOnly t) : s.KeepsPair t := by
  refine ⟨LinkOnly_fld h _, LinkOnly_reg h _, ?_, ?_, ?_⟩ <;>
  · unfold State.LinkOnly at h
    rw [h]

/-- The pair and the engines stay as they are. -/
def State.KeepsPairOn (s t : State) : Prop := s.KeepsPair t ∧ t.engines = s.engines

theorem State.KeepsPairOn.refl (s : State) : s.KeepsPairOn s := ⟨.refl s, rfl⟩

theorem State.KeepsPairOn.trans (h : s.KeepsPairOn t) (g : t.KeepsPairOn u) : s.KeepsPairOn u := ⟨h.1.trans g.1, g.2.trans h.2⟩

theorem keepsPairOn_completeCmd (s : State) (n : Nat) (c : Cmd) (r : Record) : s.KeepsPairOn (s.completeCmd n c r) :=
  ⟨keepsPair_completeCmd s n c r, State.completeCmd_engines s n c r⟩

theorem keepsPairOn_finishAdmission (h : s.mirrorBlocks = false) (q id n status : Nat) (irq : Bool) :
    s.KeepsPairOn (s.finishInstall (.admission q id n irq) status 0) := by
  unfold State.finishInstall
  dsimp only
  rw [if_neg (by simp [h])]
  split
  · split
    · exact keepsPairOn_completeCmd s q _ _
    · exact keepsPairOn_completeCmd s q _ _
  · exact .refl s

/-- An act that waited for the standby goes. -/
def State.release (s : State) (b : Behind) : State :=
  match b with
  | .packet port p => s.originateOn .ctl port p
  | .admission q id n status irq => s.finishInstall (.admission q id n irq) status 0

theorem keepsPairOn_release (h : s.tri.paired = false) (b : Behind) : s.KeepsPairOn (s.release b) := by
  cases b with
  | packet port p => exact ⟨(linkOnly_originateOn s .ctl port p).keepsPair, s.originateOn_engines .ctl port p⟩
  | admission q id n status irq => exact keepsPairOn_finishAdmission (by simp [State.mirrorBlocks, h]) q id n status irq

theorem keepsPairOn_releases (l : List Behind) (h : s.tri.paired = false) : s.KeepsPairOn (s.forEach l State.release) := by
  induction l generalizing s with
  | nil => exact .refl s
  | cons b l ih =>
    have hone := keepsPairOn_release h b
    exact hone.trans (ih (hone.1.paired.trans h))

/-- What waited for the standby goes; the pair stays as it is, and so do the engines. -/
theorem keepsPairOn_releaseBehind (h : s.tri.paired = false) : s.KeepsPairOn s.releaseBehind := by
  have hclear : s.KeepsPairOn { s with tri := { s.tri with behind := [] } } := ⟨⟨rfl, rfl, rfl, rfl, rfl⟩, rfl⟩
  have heq : s.releaseBehind = if s.mirrorBlocks then s
    else ({ s with tri := { s.tri with behind := [] } } : State).forEach s.tri.behind State.release := rfl
  rw [heq]
  split
  · exact .refl s
  · exact hclear.trans (keepsPairOn_releases _ h)

theorem keepsPairOn_lapsed (s : State) (c n : Nat) : (s.lapse c n).tri = s.tri ∧ (s.lapse c n).engines = s.engines
    ∧ (s.lapse c n).reg TRI_STANDBY_CFG = s.reg TRI_STANDBY_CFG ∧ (c, n) ∈ (s.lapse c n).lapses :=
  ⟨State.lapse_tri s c n, State.lapse_engines s c n, s.reg_lapse_ne c n (by decide), State.mem_lapses_lapse s c n⟩

/-- Unpairing lapses the bound of the standby (R404). -/
theorem State.unpair_leaves (s : State) : s.unpair.tri.paired = false ∧ s.unpair.tri.fullCopy = false ∧ (0x0007, noFid.toNat) ∈ s.unpair.lapses
    ∧ s.unpair.engines = s.engines ∧ s.unpair.reg TRI_STANDBY_CFG = s.reg TRI_STANDBY_CFG := by
  obtain ⟨htri, heng, hreg, hmem⟩ := keepsPairOn_lapsed { s with tri := { s.tri with paired := false, fullCopy := false } } 0x0007 noFid.toNat
  have hout : (({ s with tri := { s.tri with paired := false, fullCopy := false } } : State).lapse 0x0007 noFid.toNat).tri.paired = false := by rw [htri]
  obtain ⟨hkeep, hkeng⟩ := keepsPairOn_releaseBehind hout
  refine ⟨hkeep.paired.trans hout, hkeep.copied.trans (by rw [htri]), ?_, hkeng.trans heng, hkeep.cfg.trans hreg⟩
  have hl : s.unpair.lapses = _ := hkeep.lapses
  rw [hl]
  exact hmem

theorem State.sendCopy_leaves (s : State) : s.sendCopy.tri = { s.tri with mirrorSeq := s.tri.mirrorSeq + 1, mirrorOpen := s.tri.mirrorOpen ++ [(s.tri.mirrorSeq + 1, s.now, 0)] }
    ∧ s.sendCopy.sec = s.sec ∧ s.sendCopy.engines = s.engines ∧ s.sendCopy.reg TRI_STANDBY_CFG = s.reg TRI_STANDBY_CFG := by
  have hkeep (u : State) (d : Fid) (l : List Byte) : (u.sendMgmt .ctl d 0x2E l).tri = u.tri ∧ (u.sendMgmt .ctl d 0x2E l).sec = u.sec
      ∧ (u.sendMgmt .ctl d 0x2E l).engines = u.engines ∧ (u.sendMgmt .ctl d 0x2E l).reg TRI_STANDBY_CFG = u.reg TRI_STANDBY_CFG := by
    have hlink := linkOnly_sendMgmt u .ctl d 0x2E l 0 true
    exact ⟨State.sendMgmt_tri u .ctl d l (by decide), LinkOnly_sec hlink, LinkOnly_engines hlink, LinkOnly_reg hlink _⟩
  exact hkeep _ _ _

/-- The fields of the pair's configuration stand in its register. -/
theorem State.standby_of_reg (h : t.reg TRI_STANDBY_CFG = s.reg TRI_STANDBY_CFG) (f : Field) (hf : f.off = TRI_STANDBY_CFG) : t.fld f = s.fld f := by
  rw [State.fld, State.fld, hf, h]

/-- What every write of TRI_STANDBY_CFG leaves, and what it adds to the fields it stores. -/
theorem State.writeStandbyCfg_leaves (s : State) (v : Word64) : (s.writeStandbyCfg v).reg TRI_STANDBY_CFG = (s.storeStandby v).reg TRI_STANDBY_CFG
    ∧ (s.writeStandbyCfg v).engines = s.engines
    ∧ (s.fld TRI_STANDBY_CFG_PAIR_EN = TRI_STANDBY_CFG_PAIR_EN.of v → (s.writeStandbyCfg v).tri = s.tri ∧ (s.writeStandbyCfg v).sec = s.sec)
    ∧ (s.fld TRI_STANDBY_CFG_PAIR_EN = 1 → TRI_STANDBY_CFG_PAIR_EN.of v = 0 → (s.writeStandbyCfg v).tri.paired = false
      ∧ (s.writeStandbyCfg v).tri.fullCopy = false ∧ (0x0007, noFid.toNat) ∈ (s.writeStandbyCfg v).lapses)
    ∧ (s.fld TRI_STANDBY_CFG_PAIR_EN = 0 → TRI_STANDBY_CFG_PAIR_EN.of v = 1 →
      (s.writeStandbyCfg v).sec = (s.extendMeas 6 (sha384 (leBytes 4 (BitVec.ofNat 32 (TRI_STANDBY_CFG_PARTNER_ID.of v)).toNat))).sec
      ∧ (s.fld TRI_STATUS_ROLE ≠ 1 → BitVec.ofNat 32 (TRI_STANDBY_CFG_PARTNER_ID.of v) ≠ noFid → (s.writeStandbyCfg v).tri =
        { s.tri with mirrorSeq := s.tri.mirrorSeq + 1, mirrorOpen := s.tri.mirrorOpen ++ [(s.tri.mirrorSeq + 1, s.now, 0)] })) := by
  obtain ⟨htri, hsec, heng, hreg⟩ := s.storeStandby_rest v
  obtain ⟨-, hpartner, -, -⟩ := s.storeStandby_fields v
  have hid : (s.storeStandby v).partner = BitVec.ofNat 32 (TRI_STANDBY_CFG_PARTNER_ID.of v) := by rw [State.partner, hpartner]
  have hrole : (s.storeStandby v).fld TRI_STATUS_ROLE = s.fld TRI_STATUS_ROLE := congrArg TRI_STATUS_ROLE.of (hreg _ (by decide))
  have hnow : (s.storeStandby v).now = s.now := congrArg BitVec.toNat (hreg _ (by decide))
  rw [State.writeStandbyCfg_eq]
  generalize s.storeStandby v = u at *
  have hext (u : State) (d : BitVec 384) : (u.extendMeas 6 d).reg TRI_STANDBY_CFG = u.reg TRI_STANDBY_CFG ∧ (u.extendMeas 6 d).engines = u.engines
      ∧ (u.extendMeas 6 d).tri = u.tri ∧ (u.extendMeas 6 d).fld TRI_STATUS_ROLE = u.fld TRI_STATUS_ROLE ∧ (u.extendMeas 6 d).partner = u.partner
      ∧ (u.extendMeas 6 d).now = u.now ∧ (u.sec = s.sec → (u.extendMeas 6 d).sec = (s.extendMeas 6 d).sec) := by
    refine ⟨rfl, rfl, rfl, rfl, rfl, rfl, fun h => ?_⟩
    rw [State.extendMeas, h]
    rfl
  obtain ⟨ereg, eeng, etri, erole, epartner, enow, esec⟩ := hext u (sha384 (leBytes 4 u.partner.toNat))
  split
  · next h =>
    dsimp only
    rw [hid] at *
    generalize u.extendMeas 6 (sha384 (leBytes 4 (BitVec.ofNat 32 (TRI_STANDBY_CFG_PARTNER_ID.of v)).toNat)) = w at *
    obtain ⟨ctri, csec, ceng, creg⟩ := w.sendCopy_leaves
    split
    · next hno =>
      refine ⟨ereg, eeng.trans heng, fun hh => by omega, fun hh => by omega, fun _ _ => ⟨esec hsec, fun hr hp => ?_⟩⟩
      rw [erole, hrole, epartner] at hno
      exact absurd hno (by simp [hr, hp])
    · refine ⟨creg.trans ereg, ceng.trans (eeng.trans heng), fun hh => by omega, fun hh => by omega, fun _ _ => ⟨csec.trans (esec hsec), fun hr hp => ?_⟩⟩
      rw [ctri, etri, htri, enow, hnow]
  · next h =>
    split
    · next h' =>
      obtain ⟨h1, h2, h3, h4, h5⟩ := u.unpair_leaves
      exact ⟨h5, h4.trans heng, fun hh => by omega, fun _ _ => ⟨h1, h2, h3⟩, fun hh => by omega⟩
    · next h' => exact ⟨rfl, heng, fun _ => ⟨htri, hsec⟩, fun h1 h2 => absurd ⟨h1, h2⟩ h', fun h1 h2 => absurd ⟨h1, h2⟩ h⟩

/-! ## Mirror records (R405, R406) -/

/-- The record that a MIRROR packet carries. -/
def mirrorRecord (p : Packet) : Nat × Nat × List Byte := (leAt p.payload 0 8, leAt p.payload 8 2, slice p.payload 16 (leAt p.payload 12 4))

/-- The standby's view of the mirror before a record: a first record is the full copy. -/
def State.mirrorBase (s : State) (p : Packet) : TriadSt :=
  if s.tri.fullCopy then s.tri else { s.tri with mirrorApplied := leAt p.payload 0 8 - 1, mirrorHeld := [] }

/-- The records applied in sequence after one more. -/
def State.mirrorDrained (s : State) (p : Packet) : TriadSt :=
  TriadSt.drain ((s.mirrorBase p).mirrorHeld.length + 1) { s.mirrorBase p with mirrorHeld := (s.mirrorBase p).mirrorHeld ++ [mirrorRecord p] }

/-- The standby takes a record. -/
def State.takeMirror (s : State) (t : TriadSt) : State :=
  (({ s with tri := { t with paired := true } } : State).setFld TRI_STATUS_ROLE 1).setFld TRI_STANDBY_STATUS_PARTNER_ROLE 0

/-- What a MIRROR packet does where it is taken. -/
def State.mirrorBody (s : State) (p : Packet) : State × Option Nat :=
  if p.hdr.src ≠ s.partner ∨ s.fld TRI_STANDBY_CFG_PAIR_EN = 0 then (s, some 3)
  else if leAt p.payload 0 8 ≤ (s.mirrorBase p).mirrorApplied then (s, none)
  else (s.takeMirror (s.mirrorDrained p), none)

theorem exec_mirror_eq (s : State) (p : Packet) : exec (.mirror p) s = .next (s.accept .ctl p fun s => s.mirrorBody p) := rfl

theorem exec_mirror_refused {p : Packet} (h : s.freshPacket .ctl p) (hp : p.hdr.src ≠ s.partner ∨ s.fld TRI_STANDBY_CFG_PAIR_EN = 0) :
    exec (.mirror p) s = .next (s.nakPkt .ctl p.hdr 0x03) :=
  congrArg Host.Outcome.next (State.accept_refused h (if_pos hp))

theorem exec_mirror_old {p : Packet} (h : s.freshPacket .ctl p) (hs : p.hdr.src = s.partner) (he : s.fld TRI_STANDBY_CFG_PAIR_EN = 1)
    (hn : leAt p.payload 0 8 ≤ (s.mirrorBase p).mirrorApplied) : exec (.mirror p) s = .next (s.acked .ctl p) :=
  congrArg Host.Outcome.next (State.accept_taken h ((if_neg (by simp [hs, he])).trans (if_pos hn)))

theorem exec_mirror_new {p : Packet} (h : s.freshPacket .ctl p) (hs : p.hdr.src = s.partner) (he : s.fld TRI_STANDBY_CFG_PAIR_EN = 1)
    (hn : (s.mirrorBase p).mirrorApplied < leAt p.payload 0 8) : exec (.mirror p) s = .next ((s.takeMirror (s.mirrorDrained p)).acked .ctl p) := by
  have hbody : s.mirrorBody p = (s.takeMirror (s.mirrorDrained p), none) := by
    rw [State.mirrorBody, if_neg (by simp [hs, he]), if_neg (by omega)]
  rw [exec_mirror_eq, State.accept_taken h hbody]

/-- A record in sequence is applied, and none other is held. -/
theorem TriadSt.drain_next (t : TriadSt) (n k : Nat) (l : List Byte) (hn : n = t.mirrorApplied + 1) :
    TriadSt.drain 1 { t with mirrorHeld := [(n, k, l)] }
      = { t with mirrorHeld := [], mirrorApplied := n, mirrorItems := t.mirrorItems.set k (n, l), fullCopy := true } := by
  simp [TriadSt.drain, ← hn]

/-- A record ahead of its turn is held. -/
theorem TriadSt.drain_ahead (t : TriadSt) (n k : Nat) (l : List Byte) (hn : t.mirrorApplied + 1 < n) :
    TriadSt.drain 1 { t with mirrorHeld := [(n, k, l)] } = { t with mirrorHeld := [(n, k, l)] } := by
  have hne : ¬ n = t.mirrorApplied + 1 := by omega
  simp [TriadSt.drain, hne]

theorem State.takeMirror_leaves (s : State) (t : TriadSt) : (s.takeMirror t).tri = { t with paired := true } ∧ (s.takeMirror t).fld TRI_STATUS_ROLE = 1
    ∧ (s.takeMirror t).engines = s.engines ∧ (s.takeMirror t).agents = s.agents := by
  refine ⟨rfl, ?_, rfl, rfl⟩
  exact (State.fld_setFld_off _ (by decide) 0).trans (State.fld_setFld_self _ (by unfold Field.fits; decide) 1)

/-- The acknowledgement changes none of what the standby holds. -/
theorem State.acked_tri (s : State) (p : Packet) : ∃ l, (s.acked .ctl p).tri = { s.tri with behind := l } := by
  have h := linkOnly_complete s .ctl p.hdr
  unfold State.LinkOnly at h
  exact ⟨(s.acked .ctl p).tri.behind, congrArg State.tri h⟩

/-- What an acknowledged record leaves. -/
theorem exec_mirror_leaves {p : Packet} {x : TriadSt} (h : s.freshPacket .ctl p) (hs : p.hdr.src = s.partner) (he : s.fld TRI_STANDBY_CFG_PAIR_EN = 1)
    (hn : (s.mirrorBase p).mirrorApplied < leAt p.payload 0 8) (hx : s.mirrorDrained p = x) : ∃ t, exec (.mirror p) s = .next t
      ∧ t.tri.mirrorApplied = x.mirrorApplied ∧ t.tri.mirrorHeld = x.mirrorHeld ∧ t.tri.fullCopy = x.fullCopy ∧ t.tri.paired = true
      ∧ t.fld TRI_STATUS_ROLE = 1 ∧ t.tri.mirrorItems = x.mirrorItems ∧ t.engines = s.engines ∧ t.agents = s.agents := by
  obtain ⟨htri, hrole, heng, hag⟩ := s.takeMirror_leaves x
  obtain ⟨l, hl⟩ := (s.takeMirror x).acked_tri p
  have hlink := linkOnly_complete (s.takeMirror x) .ctl p.hdr
  rw [exec_mirror_new h hs he hn, hx]
  refine ⟨_, rfl, ?_⟩
  rw [hl, htri]
  exact ⟨rfl, rfl, rfl, rfl, (LinkOnly_fld hlink _).trans hrole, rfl, (LinkOnly_engines hlink).trans heng, (link_acked (s.takeMirror x) .ctl p).agents_ctl.trans hag⟩

theorem State.mirrorBase_copied (h : s.tri.fullCopy = true) (p : Packet) : s.mirrorBase p = s.tri := if_pos h

theorem State.mirrorBase_first (h : s.tri.fullCopy = false) (p : Packet) :
    s.mirrorBase p = { s.tri with mirrorApplied := leAt p.payload 0 8 - 1, mirrorHeld := [] } := if_neg (by simp [h])

theorem State.mirrorDrained_eq {p : Packet} {x : TriadSt} (hb : s.mirrorBase p = x) (hx : x.mirrorHeld = []) :
    s.mirrorDrained p = TriadSt.drain 1 { x with mirrorHeld := [mirrorRecord p] } := by
  rw [State.mirrorDrained, hb, hx]
  rfl

theorem exec_mirrorLagTimeout_none (h : s.tri.mirrorOpen = []) : exec .mirrorLagTimeout s = .next s := by
  change execMirrorLagTimeout s = _
  unfold execMirrorLagTimeout
  rw [h]

theorem exec_mirrorLagTimeout_open {x : Nat × Nat × Nat} {r : List (Nat × Nat × Nat)} (h : s.tri.mirrorOpen = x :: r) : exec .mirrorLagTimeout s =
    if s.now < x.2.1 + 10000000 ∨ s.tri.lagRaised ∨ s.inHold then .next s
    else .next ((({ s with tri := { s.tri with lagRaised := true } } : State).raise 0x000B 2).lapse 0x0007 s.partner.toNat) := by
  change execMirrorLagTimeout s = _
  unfold execMirrorLagTimeout
  rw [h]
  dsimp only
  rfl

/-! ## Heartbeats (R407 to R410) -/

/-- The heartbeats of the two paths leave. -/
def State.sendHeartbeat (s : State) : State :=
  let l := s.heartbeatBytes
  let s : State := { s with tri := { s.tri with hbSeq := s.tri.hbSeq + 1 } }
  let s := if s.pwr.deadBlocks.contains 62 then s else s.emit (.heartbeat .pair l)
  let k := s.number .ctl { hdr := ownHdr s.partner 0x37 l, payload := l }
  let t := s.tx .ctl s.partner Config.ownStream
  let s := (s.setTx .ctl s.partner Config.ownStream { t with nextSeq := t.nextSeq + 1 }).emit (.heartbeat .inband l)
  s.portSend .ctl (s.originPort .ctl k.hdr) k

theorem exec_heartbeatTimer_eq (s : State) : exec .heartbeatTimer s =
    if s.fld TRI_STANDBY_CFG_PAIR_EN = 0 ∨ s.pwr.pwrgd = false ∨ s.pwr.tripped then .next s else .next s.sendHeartbeat := rfl

theorem State.sendHeartbeat_leaves (s : State) : s.sendHeartbeat.tri = { s.tri with hbSeq := s.tri.hbSeq + 1 }
    ∧ Out.heartbeat .inband s.heartbeatBytes ∈ s.sendHeartbeat.out
    ∧ (62 ∉ s.pwr.deadBlocks → Out.heartbeat .pair s.heartbeatBytes ∈ s.sendHeartbeat.out)
    ∧ s.sendHeartbeat.regs = s.regs ∧ s.sendHeartbeat.engines = s.engines := by
  have hlast (u : State) (x : StreamTx) (d : Fid) (o : Out) (p : Nat) (k : Packet) :
      (((u.setTx .ctl d Config.ownStream x).emit o).portSend .ctl p k).tri = u.tri
      ∧ u.out ++ [o] <+: (((u.setTx .ctl d Config.ownStream x).emit o).portSend .ctl p k).out
      ∧ (((u.setTx .ctl d Config.ownStream x).emit o).portSend .ctl p k).regs = u.regs
      ∧ (((u.setTx .ctl d Config.ownStream x).emit o).portSend .ctl p k).engines = u.engines := by
    have hlink := link_portSend ((u.setTx .ctl d Config.ownStream x).emit o) .ctl p k
    exact ⟨State.portSend_tri _ .ctl p k none, hlink.out_prefix, LinkOnly_regs hlink.linkOnly, LinkOnly_engines hlink.linkOnly⟩
  unfold State.sendHeartbeat
  extract_lets l x u w k t v
  have hw : w.tri = { s.tri with hbSeq := s.tri.hbSeq + 1 } ∧ w.regs = s.regs ∧ w.engines = s.engines
      ∧ (62 ∉ s.pwr.deadBlocks → Out.heartbeat .pair l ∈ w.out) := by
    have hsplit (c : Prop) [Decidable c] (hc : 62 ∉ s.pwr.deadBlocks → ¬ c) :
        (if c then u else u.emit (.heartbeat .pair l)).tri = u.tri ∧ (if c then u else u.emit (.heartbeat .pair l)).regs = u.regs
        ∧ (if c then u else u.emit (.heartbeat .pair l)).engines = u.engines
        ∧ (62 ∉ s.pwr.deadBlocks → Out.heartbeat .pair l ∈ (if c then u else u.emit (.heartbeat .pair l)).out) := by
      split
      · next h => exact ⟨rfl, rfl, rfl, fun hd => absurd h (hc hd)⟩
      · exact ⟨rfl, rfl, rfl, fun _ => List.mem_append_right _ (List.mem_singleton_self _)⟩
    exact hsplit _ fun hd => by simpa using hd
  obtain ⟨h1, h2, h3, h4⟩ := hlast w { t with nextSeq := t.nextSeq + 1 } w.partner (.heartbeat .inband l) (v.originPort .ctl k.hdr) k
  obtain ⟨k1, k2, k3, k4⟩ := hw
  exact ⟨h1.trans k1, h2.subset (List.mem_append_right _ (List.mem_singleton_self _)), fun hd => h2.subset (List.mem_append_left _ (k4 hd)),
    h3.trans k2, h4.trans k3⟩

/-- What a heartbeat of the partner says is noted. -/
def State.noteHeartbeat (s : State) (path : HbPath) (l : List Byte) : TriadSt :=
  { (match path with | .pair => { s.tri with lastPairNs := s.now } | .inband => { s.tri with lastInbandNs := s.now } : TriadSt) with
    partnerVoting := leAt l 9 1, partnerGeneration := BitVec.ofNat 32 (leAt l 4 4), partnerReq := leAt l 10 1 % 2 == 1 }

/-- What a heartbeat of the partner asks for, once it is noted. -/
def State.answerHeartbeat (s : State) (l : List Byte) : Answer :=
  if (s.fld TRI_STATUS_ROLE = 0 ∨ s.fld TRI_STATUS_ROLE = 3) ∧ leAt l 8 1 ≠ 1 ∧ s.fld TRI_STANDBY_STATUS_GENERATION < leAt l 4 4 then .next s.stepDown
  else if (leAt l 10 1 % 2 == 1) ∧ s.fld TRI_STATUS_ROLE = 1 then
    if s.mayTakeOver then .next s.takeOver else .next (s.raise 0x000C 3)
  else .next s

theorem exec_heartbeat_taken {path : HbPath} {l : List Byte} (h : s.heartbeatOk l = true)
    (hu : u = (({ s with tri := s.noteHeartbeat path l } : State).setFld (pathField path) 1).setFld TRI_STANDBY_STATUS_PARTNER_ROLE (leAt l 8 1)) :
    exec (.heartbeat path l) s = (if u.inHold then u.endHold else u).answerHeartbeat l := by
  rw [hu]
  exact if_neg (by simp [h])

theorem exec_hbPathLost_pair (s : State) : exec (.hbPathLost .pair) s =
    if s.fld TRI_STANDBY_STATUS_PATH_PAIR = 0 ∨ s.now < s.tri.lastPairNs + s.fld TRI_STANDBY_CFG_HB_MISS * 100000 then .next s
    else .next ((((s.setFld TRI_STANDBY_STATUS_PATH_PAIR 0).satFld TRI_EVENTS_PAIR_LOSSES 1).raise 0x0009 2).beginHold) := by
  change execHbPathLost .pair s = _
  unfold execHbPathLost pathField
  rfl

theorem exec_hbPathLost_inband (s : State) : exec (.hbPathLost .inband) s =
    if s.fld TRI_STANDBY_STATUS_PATH_INBAND = 0 ∨ s.now < s.tri.lastInbandNs + s.fld TRI_STANDBY_CFG_HB_MISS * 100000 then .next s
    else .next ((((s.setFld TRI_STANDBY_STATUS_PATH_INBAND 0).satFld TRI_EVENTS_INBAND_LOSSES 1).raise 0x000A 2).beginHold) := by
  change execHbPathLost .inband s = _
  unfold execHbPathLost pathField
  rfl

/-! ## Stepping down (R410) -/

/-- Nobody stands by, and no hold runs. -/
def State.dropPair (s : State) : State :=
  ({ s with tri := { s.tri with paired := false, fullCopy := false, holdEndNs := none, behind := [] } } : State).setFld TRI_STANDBY_STATUS_HOLD 0

theorem State.dropPair_leaves (s : State) : s.dropPair.fld TRI_STATUS_ROLE = s.fld TRI_STATUS_ROLE ∧ s.dropPair.tri.paired = false
    ∧ s.dropPair.tri.fullCopy = false := ⟨State.fld_setFld_off _ (by decide) 0, rfl, rfl⟩

/-- The controller is the standby of nobody yet. -/
def State.becomeStandby (s : State) : State := ((s.setFld TRI_STATUS_ROLE 1).satFld TRI_EVENTS_STEPDOWNS 1).dropPair

theorem State.stepDown_eq (s : State) : s.stepDown = s.becomeStandby.forEach (s.becomeStandby.queues.map (·.1)) fun s q =>
    if s.cq q CTL_CQn_CFG_ENABLE = 1 then s.disableQueue q 0 else s := rfl

theorem State.becomeStandby_leaves (s : State) : s.becomeStandby.fld TRI_STATUS_ROLE = 1 ∧ s.becomeStandby.tri.paired = false
    ∧ s.becomeStandby.tri.fullCopy = false := by
  obtain ⟨hrole, hpaired, hcopied⟩ := ((s.setFld TRI_STATUS_ROLE 1).satFld TRI_EVENTS_STEPDOWNS 1).dropPair_leaves
  refine ⟨hrole.trans ?_, hpaired, hcopied⟩
  exact (State.fld_setFld_off (s.setFld TRI_STATUS_ROLE 1) (by decide) _).trans (State.fld_setFld_self s (by unfold Field.fits; decide) 1)

theorem State.stepDown_leaves (s : State) : s.stepDown.fld TRI_STATUS_ROLE = 1 ∧ s.stepDown.tri.paired = false ∧ s.stepDown.tri.fullCopy = false := by
  have hkeep : s.becomeStandby.KeepsPair s.stepDown := by
    rw [State.stepDown_eq]
    refine .forEach (fun s q => ?_) _ _
    split
    · next h => exact keepsPair_disableQueue h 0
    · exact .refl s
  obtain ⟨h1, h2, h3⟩ := s.becomeStandby_leaves
  exact ⟨hkeep.role.trans h1, hkeep.paired.trans h2, hkeep.copied.trans h3⟩

/-! ## The end of a hold (R411) -/

/-- The role, the hold, what is unpaired and what has lapsed, of a controller without a standby. -/
structure State.KeepsAlone (s t : State) : Prop where
  role : t.fld TRI_STATUS_ROLE = s.fld TRI_STATUS_ROLE
  hold : t.fld TRI_STANDBY_STATUS_HOLD = s.fld TRI_STANDBY_STATUS_HOLD
  tri : ∃ l, t.tri = { s.tri with behind := l }
  lapses : t.lapses = s.lapses

theorem State.KeepsAlone.refl (s : State) : s.KeepsAlone s := ⟨rfl, rfl, ⟨s.tri.behind, rfl⟩, rfl⟩

theorem State.KeepsAlone.trans (h : s.KeepsAlone t) (g : t.KeepsAlone u) : s.KeepsAlone u := by
  obtain ⟨l, hl⟩ := h.tri
  obtain ⟨k, hk⟩ := g.tri
  exact ⟨g.role.trans h.role, g.hold.trans h.hold, ⟨k, by rw [hk, hl]⟩, g.lapses.trans h.lapses⟩

theorem State.KeepsAlone.paired (h : s.KeepsAlone t) : t.tri.paired = s.tri.paired := by
  obtain ⟨l, hl⟩ := h.tri
  rw [hl]

theorem State.KeepsAlone.ite {c : Prop} [Decidable c] (h : s.KeepsAlone t) (g : s.KeepsAlone u) : s.KeepsAlone (if c then t else u) := by
  split
  · exact h
  · exact g

theorem State.KeepsAlone.forEach {α : Type} {f : State → α → State} (h : ∀ (s : State) x, s.KeepsAlone (f s x)) (l : List α) (s : State) :
    s.KeepsAlone (s.forEach l f) := by
  induction l generalizing s with
  | nil => exact .refl s
  | cons x l ih => exact (h s x).trans (ih (f s x))

theorem State.LinkOnly.keepsAlone (h : s.LinkOnly t) : s.KeepsAlone t := by
  refine ⟨LinkOnly_fld h _, LinkOnly_fld h _, ⟨t.tri.behind, ?_⟩, ?_⟩
  · unfold State.LinkOnly at h
    rw [h]
  · unfold State.LinkOnly at h
    rw [h]

theorem keepsAlone_setGambit (s : State) (g : Gambit) : s.KeepsAlone (s.setGambit g) := ⟨rfl, rfl, ⟨s.tri.behind, rfl⟩, rfl⟩

theorem keepsAlone_hook (s : State) (k : AckHook) : s.KeepsAlone { s with hooks := s.hooks ++ [k] } := ⟨rfl, rfl, ⟨s.tri.behind, rfl⟩, rfl⟩

theorem keepsAlone_sendHooked (s : State) (d : Fid) (typ : BitVec 8) (l : List Byte) (k : AckKind) (addr : BitVec 57) (aux : BitVec 24) :
    s.KeepsAlone (s.sendHooked d typ l k addr aux) := by
  unfold State.sendHooked
  extract_lets seq hook t
  exact (keepsAlone_hook s hook).trans (linkOnly_sendPkt t _ _).keepsAlone

theorem keepsAlone_broadcast (s : State) (typ : BitVec 8) (l : List Byte) (kind : AckKind) (addr : BitVec 57) (aux : BitVec 24) :
    s.KeepsAlone (s.broadcast typ l (some kind) addr aux) :=
  .forEach (fun s _ => (keepsAlone_hook s _).trans (linkOnly_sendPkt _ _ _ _).keepsAlone) _ s

theorem keepsAlone_sendStage (id : BitVec 24) (f : Fid) (slot : BitVec 6) (l : List (List Byte)) (off : Nat) (s : State) :
    s.KeepsAlone (s.sendStage id f slot off l) := by
  have hnote (v : State) (seq : BitVec 32) : v.KeepsAlone (v.notePiece id f seq) := ⟨rfl, rfl, ⟨v.tri.behind, rfl⟩, rfl⟩
  induction l generalizing s off with
  | nil => exact .refl s
  | cons x l ih => exact ((hnote s _).trans (keepsAlone_sendHooked _ _ _ _ _ _ _)).trans (ih _ _)

theorem keepsAlone_wakeFor (s : State) (f : Fid) (p : Nat) : s.KeepsAlone (s.wakeFor f p) := by
  unfold State.wakeFor
  split
  · exact (linkOnly_wakeAgentPort s _ p).keepsAlone
  · exact .refl s

/-- A gambit goes to its agents, where no standby has to hear of it first. -/
theorem keepsAlone_stageGambit (h : s.tri.paired = false) (g : Gambit) (again : Bool) : s.KeepsAlone (s.stageGambit g again) := by
  unfold State.stageGambit
  extract_lets waits t m
  have ht : s.KeepsAlone t := keepsAlone_setGambit s _
  have hmirror : m = t := State.mirrorOut_unpaired (ht.paired.trans h) 2
  refine .ite ht (ht.trans ?_)
  rw [hmirror]
  refine .forEach (fun s x => ?_) _ t
  extract_lets v b w
  have hv : s.KeepsAlone v := by
    change s.KeepsAlone (match parsePatches _ _ _ with | some l => _ | none => s)
    split
    · exact .forEach (fun s p => keepsAlone_wakeFor s _ _) _ s
    · exact .refl s
  have hw : v.KeepsAlone w := .ite (keepsAlone_sendHooked v _ _ _ _ _ _) (.refl v)
  exact (hv.trans hw).trans (keepsAlone_sendStage _ _ _ _ _ w)

theorem keepsAlone_stageDue (h : s.tri.paired = false) : s.KeepsAlone s.stageDue := by
  have hall (l : List Gambit) (v : State) (hv : v.tri.paired = false) : v.KeepsAlone (v.forEach l fun s g => s.stageGambit g true) := by
    induction l generalizing v with
    | nil => exact .refl v
    | cons g l ih =>
      have hone := keepsAlone_stageGambit hv g true
      exact hone.trans (ih _ (hone.paired.trans hv))
  exact hall _ s h

theorem keepsAlone_sendCommit (s : State) (v e : BitVec 32) : s.KeepsAlone (s.sendCommit v e) := keepsAlone_broadcast s _ _ _ _ _

theorem keepsAlone_commitInstall (h : s.tri.paired = false) (i : InstallSt) : s.KeepsAlone (s.commitInstall i) := by
  have hset (v : State) (x : Option InstallSt) : v.KeepsAlone { v with rte := { v.rte with install := x } } := ⟨rfl, rfl, ⟨v.tri.behind, rfl⟩, rfl⟩
  have hpending (v : State) (n : Nat) : v.KeepsAlone (v.setFld RTE_INSTALL_VERSION_PENDING n) :=
    ⟨State.fld_setFld_off v (by decide) n, State.fld_setFld_off v (by decide) n, ⟨v.tri.behind, rfl⟩, rfl⟩
  unfold State.commitInstall
  extract_lets first e r t j
  have ht : t = s := State.mirrorOut_unpaired h 1
  refine .ite (hset s _) ?_
  have hkeep : s.KeepsAlone t := by
    rw [ht]
    exact .refl s
  exact ((hkeep.trans (hset t _)).trans (hpending _ _)).trans (keepsAlone_sendCommit _ _ _)

/-- No hold runs. -/
def State.clearHold (s : State) : State := ({ s with tri := { s.tri with holdEndNs := none } } : State).setFld TRI_STANDBY_STATUS_HOLD 0

theorem State.endHold_eq (s : State) : s.endHold =
    let t := match s.clearHold.rte.install with
      | some i => if i.committed = false ∧ i.openMsgs.isEmpty then s.clearHold.commitInstall i else s.clearHold
      | none => s.clearHold
    if t.rte.play.isSome then t else t.stageDue := rfl

theorem keepsAlone_endHold (h : s.tri.paired = false) : s.clearHold.KeepsAlone s.endHold := by
  have hclear : s.clearHold.tri.paired = false := h
  rw [State.endHold_eq]
  extract_lets t
  have ht : s.clearHold.KeepsAlone t := by
    change s.clearHold.KeepsAlone (match s.clearHold.rte.install with | some i => _ | none => s.clearHold)
    split
    · exact .ite (keepsAlone_commitInstall hclear _) (.refl _)
    · exact .refl _
  exact .ite ht (ht.trans (keepsAlone_stageDue (ht.paired.trans hclear)))

/-- The controller goes on alone. -/
def State.goAlone (s : State) : State :=
  ((({ s with tri := { s.tri with paired := false, mirrorOpen := [] } } : State).setFld TRI_STATUS_ROLE 3).raise 0x000C 2).lapse 0x0007 noFid.toNat

theorem exec_holdExpire_none (h : s.tri.holdEndNs = none) : exec .holdExpire s = .next s := by
  change execHoldExpire s = _
  unfold execHoldExpire
  rw [h]

theorem exec_holdExpire_some {n : Nat} (h : s.tri.holdEndNs = some n) : exec .holdExpire s =
    if s.now < n ∨ s.bothLost = false then .next s else .next (s.goAlone.setFld TRI_STANDBY_STATUS_MIRROR_LAG 0).endHold := by
  change execHoldExpire s = _
  unfold execHoldExpire
  rw [h]
  rfl

theorem State.goAlone_leaves (s : State) : s.goAlone.fld TRI_STATUS_ROLE = 3 ∧ s.goAlone.tri = { s.tri with paired := false, mirrorOpen := [] }
    ∧ (0x0007, noFid.toNat) ∈ s.goAlone.lapses := by
  have hkeep (u : State) : ((u.raise 0x000C 2).lapse 0x0007 noFid.toNat).reg TRI_STATUS = u.reg TRI_STATUS :=
    (State.reg_lapse_ne _ _ _ (by decide)).trans (u.reg_raise_ne _ _ _ _ (by decide))
  refine ⟨?_, ?_, State.mem_lapses_lapse _ _ _⟩
  · exact (congrArg TRI_STATUS_ROLE.of (hkeep _)).trans (State.fld_setFld_self _ (by unfold Field.fits; decide) 3)
  · unfold State.goAlone
    rw [State.lapse_tri, State.raise_tri, State.setFld_tri]

theorem State.clearHold_leaves (s : State) : s.clearHold.tri = { s.tri with holdEndNs := none } ∧ s.clearHold.fld TRI_STANDBY_STATUS_HOLD = 0
    ∧ s.clearHold.fld TRI_STATUS_ROLE = s.fld TRI_STATUS_ROLE ∧ s.clearHold.lapses = s.lapses :=
  ⟨rfl, State.fld_setFld_self _ (by unfold Field.fits; decide) 0, State.fld_setFld_off _ (by decide) 0, rfl⟩

/-- A hold that ends without a path leaves an unpaired primary. -/
theorem State.expireHold_leaves (s : State) {t : State} (ht : (s.goAlone.setFld TRI_STANDBY_STATUS_MIRROR_LAG 0).endHold = t) :
    t.fld TRI_STATUS_ROLE = 3 ∧ t.tri.paired = false ∧ t.tri.holdEndNs = none ∧ t.fld TRI_STANDBY_STATUS_HOLD = 0 ∧ t.tri.mirrorOpen = []
    ∧ (0x0007, noFid.toNat) ∈ t.lapses := by
  obtain ⟨hrole, htri, hlapse⟩ := s.goAlone_leaves
  have hlag (u : State) : (u.setFld TRI_STANDBY_STATUS_MIRROR_LAG 0).tri = u.tri ∧ (u.setFld TRI_STANDBY_STATUS_MIRROR_LAG 0).lapses = u.lapses
    ∧ (u.setFld TRI_STANDBY_STATUS_MIRROR_LAG 0).fld TRI_STATUS_ROLE = u.fld TRI_STATUS_ROLE := ⟨rfl, rfl, State.fld_setFld_off u (by decide) 0⟩
  obtain ⟨l1, l2, l3⟩ := hlag s.goAlone
  generalize s.goAlone.setFld TRI_STANDBY_STATUS_MIRROR_LAG 0 = w at *
  have hpaired : w.tri.paired = false := by rw [l1, htri]
  obtain ⟨c1, c2, c3, c4⟩ := w.clearHold_leaves
  have hkeep := keepsAlone_endHold hpaired
  rw [ht] at hkeep
  obtain ⟨l, hl⟩ := hkeep.tri
  rw [hl, c1, l1, htri, hkeep.role, hkeep.hold, hkeep.lapses, c2, c3, c4, l2, l3]
  exact ⟨hrole, rfl, rfl, rfl, rfl, hlapse⟩

end Sys2Proof.Machine

namespace Sys2Proof
open Machine

/-- Settles O52: what ends with an acknowledgement or a command keeps the pair, the rest by its branches. -/
theorem pairResults : Obligations.PairResults := by
  intro s p lvl v l n path t0 u w
  refine ⟨rfl, fun hl => ?_, exec_mirror_refused, fun hf hs he hn => ⟨fun hc hle => ?_, fun hor hpos => ?_, fun hc hh hlt => ?_⟩,
    exec_mirrorLagTimeout_none, fun x r hx => ⟨fun h => ?_, fun h1 h2 h3 => ?_⟩, fun h => ?_, fun h1 h2 h3 => ?_, fun h => if_pos h,
    fun hok ht0 hu hw => ?_, ⟨_, rfl, s.stepDown_leaves⟩, fun h => ?_, fun h1 h2 => ?_, fun h => ?_, fun h1 h2 => ?_, fun h1 h2 => ?_, fun h => ?_,
    exec_holdExpire_none, fun h1 h2 => ?_, fun h1 h2 h3 => ?_, rfl⟩
  · obtain ⟨hreg, heng, hsame, hoff, hon⟩ := s.writeStandbyCfg_leaves v
    obtain ⟨f1, f2, f3, f4⟩ := s.storeStandby_fields v
    refine ⟨_, exec_pairEnable_eq hl v, ?_, ?_, heng, ?_, ?_, hsame, hoff, hon⟩
    · rw [State.standby_of_reg hreg _ rfl, f1]
    · rw [State.standby_of_reg hreg _ rfl, f2]
    · rw [State.standby_of_reg hreg _ rfl, f3]
    · rw [State.standby_of_reg hreg _ rfl, f4]
  · refine exec_mirror_old hf hs he ?_
    rw [State.mirrorBase_copied hc, ← hn]
    exact hle
  · have hnext (x : TriadSt) (hx : s.mirrorBase p = x) (hnone : x.mirrorHeld = []) (happ : n = x.mirrorApplied + 1)
        (hitems : x.mirrorItems = s.tri.mirrorItems) : ∃ t, exec (.mirror p) s = .next t ∧ t.tri.mirrorApplied = n ∧ t.tri.mirrorHeld = []
          ∧ t.tri.fullCopy = true ∧ t.tri.paired = true ∧ t.fld TRI_STATUS_ROLE = 1
          ∧ t.tri.mirrorItems = s.tri.mirrorItems.set (leAt p.payload 8 2) (n, slice p.payload 16 (leAt p.payload 12 4))
          ∧ t.engines = s.engines ∧ t.agents = s.agents := by
      have hdrain := State.mirrorDrained_eq hx hnone
      rw [mirrorRecord, ← hn, TriadSt.drain_next x n _ _ happ, hitems] at hdrain
      exact exec_mirror_leaves hf hs he (by rw [hx, ← hn]; omega) hdrain
    cases hcopy : s.tri.fullCopy with
    | false => exact hnext _ (State.mirrorBase_first hcopy p) rfl (by dsimp only; omega) rfl
    | true =>
      obtain ⟨hnone, happ⟩ := hor.resolve_left (by simp [hcopy])
      exact hnext s.tri (State.mirrorBase_copied hcopy p) hnone happ rfl
  · have hdrain := State.mirrorDrained_eq (State.mirrorBase_copied hc p) hh
    rw [mirrorRecord, ← hn, TriadSt.drain_ahead s.tri n _ _ hlt] at hdrain
    obtain ⟨t, ht, happ, hheld, -, -, -, hitems, -, -⟩ := exec_mirror_leaves hf hs he (by rw [State.mirrorBase_copied hc, ← hn]; omega) hdrain
    exact ⟨t, ht, happ, hitems, hheld⟩
  · rw [exec_mirrorLagTimeout_open hx, if_pos h]
  · rw [exec_mirrorLagTimeout_open hx, if_neg (by simp [h2, h3]; omega)]
  · rw [exec_heartbeatTimer_eq, if_pos h]
  · rw [exec_heartbeatTimer_eq, if_neg (by simp [h1, h2, h3])]
    exact ⟨_, rfl, s.sendHeartbeat_leaves⟩
  · have hhold : s.inHold = u.inHold := by
      rw [hu, ht0]
      cases path with
      | pair => rfl
      | inband => rfl
    have hexec : exec (.heartbeat path l) s = w.answerHeartbeat l := by
      rw [hw, hhold]
      refine exec_heartbeat_taken hok ?_
      rw [hu, ht0]
      rfl
    rw [hexec]
    refine ⟨fun h1 h2 h3 => if_pos ⟨h1, h2, h3⟩, fun h1 h2 => ?_, fun h1 h2 => ?_, fun h1 h2 => ?_⟩
    · rw [State.answerHeartbeat, if_neg (by omega), if_pos ⟨by simp [h2], h1⟩]
      split
      · rfl
      · rfl
    · rw [State.answerHeartbeat, if_neg (by omega), if_neg (by simp [h2])]
    · rw [State.answerHeartbeat, if_neg (by omega), if_neg (by simp [h1])]
  · rw [exec_hbPathLost_pair, if_pos h]
  · rw [exec_hbPathLost_pair, if_neg (by omega)]
  · rw [exec_hbPathLost_inband, if_pos h]
  · rw [exec_hbPathLost_inband, if_neg (by omega)]
  · exact if_pos ⟨h1, h2⟩
  · refine if_neg ?_
    rintro ⟨h1, h2⟩
    obtain h | ⟨h3, h4⟩ := h
    · simp [h] at h1
    · simp [h3, h4] at h2
  · rw [exec_holdExpire_some h1, if_pos h2]
  · rw [exec_holdExpire_some h1, if_neg (by simp [h3]; omega)]
    exact ⟨_, rfl, s.expireHold_leaves rfl⟩

end Sys2Proof
end

section
/-! Credit frames, link loss, rekeys and head slots. -/

namespace Sys2Proof.Machine

variable {s t u : State} {n : Node} {port : Nat}

/-! ## Credit frames (R86) -/

/-- Credit of some pool is out. -/
def creditOut (x : PortSt) : Prop := ∃ i < 4, x.credit.get i < poolSizes.get i

theorem creditOut_iff (x : PortSt) : [0, 1, 2, 3].any (fun i => decide (x.credit.get i < poolSizes.get i)) = true ↔ creditOut x := by
  have hmem (i : Nat) : i ∈ [0, 1, 2, 3] ↔ i < 4 := by
    simp
    omega
  unfold creditOut
  rw [List.any_eq_true]
  refine exists_congr fun i => ?_
  rw [hmem, decide_eq_true_iff]

theorem exec_creditFrameTimer_off (h : s.portUp n port = false ∨ ∀ i < 4, poolSizes.get i ≤ (s.port n port).credit.get i) :
    exec (.creditFrameTimer n port) s = .next s := by
  refine if_neg ?_
  rw [creditOut_iff]
  rintro ⟨hup, i, hi, hlt⟩
  obtain h | h := h
  · simp [h] at hup
  · exact absurd (h i hi) (by omega)

theorem exec_creditFrameTimer_due (h : s.portUp n port = true) (hc : creditOut (s.port n port)) :
    exec (.creditFrameTimer n port) s = .next (s.sendCredit n port) := if_pos ⟨h, (creditOut_iff _).2 hc⟩

/-- The port with the time of its credit frame. -/
def State.creditTimed (s : State) (n : Node) (port : Nat) : PortSt := { s.port n port with lastCreditNs := s.nodeNow n }

theorem State.sendCredit_queued (h : ∃ q ∈ (s.port n port).queue, q.pkt.hdr.isCredit = true) : s.sendCredit n port = s :=
  if_pos (List.any_eq_true.2 h)

theorem State.sendCredit_sent (h : ∀ q ∈ (s.port n port).queue, q.pkt.hdr.isCredit = false)
    (hf : (s.port n port).fits s.now (s.openPs n port) (creditPacket (s.port n port)).hdr = true) :
    s.sendCredit n port = (s.setPort n port (s.creditTimed n port)).startFrame n port (creditPacket (s.port n port)) := by
  unfold State.sendCredit
  dsimp only
  rw [if_neg (by simpa using h), if_pos hf]
  rfl

theorem State.sendCredit_waits (h : ∀ q ∈ (s.port n port).queue, q.pkt.hdr.isCredit = false)
    (hf : (s.port n port).fits s.now (s.openPs n port) (creditPacket (s.port n port)).hdr = false) : s.sendCredit n port =
      s.setPort n port { s.creditTimed n port with queue := { pkt := creditPacket (s.port n port) } :: (s.port n port).queue } := by
  unfold State.sendCredit
  dsimp only
  rw [if_neg (by simpa using h), if_neg (by simp [hf])]
  rfl

theorem PortSt.start_counted (x : PortSt) (now : Nat) (h : Header) : (x.start now h).txCtr = x.txCtr + 1 ∧ (x.start now h).lastCreditNs = x.lastCreditNs := by
  unfold PortSt.start
  dsimp only
  split
  · split
    · exact ⟨rfl, rfl⟩
    · exact ⟨rfl, rfl⟩
  · exact ⟨rfl, rfl⟩

/-- A credit frame shows the credit of the port whose time is set. -/
theorem PortSt.wire_credit (x : PortSt) (now : Nat) : ({ x with lastCreditNs := now } : PortSt).wire (creditPacket x) = creditPacket x := by
  have hsame : creditPacket { x with lastCreditNs := now } = creditPacket x := rfl
  unfold PortSt.wire
  split
  · exact hsame
  · rfl

/-- The frame that starts on a port whose time is set. -/
theorem State.startCredit_leaves (s : State) (n : Node) (port : Nat) {t : State}
    (ht : (s.setPort n port (s.creditTimed n port)).startFrame n port (creditPacket (s.port n port)) = t) :
    t.out = s.out ++ [.portFrame n port (s.port n port).txCtr (creditWord (s.port n port).freed) (creditPacket (s.port n port))]
    ∧ (t.port n port).txCtr = (s.port n port).txCtr + 1 ∧ (t.port n port).lastCreditNs = s.nodeNow n := by
  have hstart (v : State) (k : Packet) : (v.startFrame n port k).out = v.out ++ [.portFrame n port (v.port n port).txCtr
        (creditWord (v.port n port).freed) ((v.port n port).wire k)]
      ∧ (v.startFrame n port k).port n port = (v.port n port).start v.now k.hdr := by
    unfold State.startFrame
    dsimp only
    refine ⟨?_, ?_⟩
    · rw [State.emit, State.setPort_out]
    · rw [State.port_emit, State.port_setPort_self]
  obtain ⟨hout, hport⟩ := hstart (s.setPort n port (s.creditTimed n port)) (creditPacket (s.port n port))
  rw [ht, State.port_setPort_self, State.setPort_out] at hout
  rw [ht, State.port_setPort_self] at hport
  have htimed : (s.creditTimed n port).txCtr = (s.port n port).txCtr ∧ (s.creditTimed n port).freed = (s.port n port).freed
    ∧ (s.creditTimed n port).lastCreditNs = s.nodeNow n := ⟨rfl, rfl, rfl⟩
  refine ⟨?_, ?_, ?_⟩
  · rw [hout, htimed.1, htimed.2.1, State.creditTimed, PortSt.wire_credit]
  · rw [hport, (PortSt.start_counted _ _ _).1, htimed.1]
  · rw [hport, (PortSt.start_counted _ _ _).2, htimed.2.2]

/-! ## A link that is lost (R66, R124) -/

theorem exec_linkDown_eq (s : State) (n : Node) (port : Nat) (cause : LinkDownCause) : exec (.linkDown n port cause) s =
    if s.portUsable n port then .next (s.portDown n port (linkDownDetail cause)) else .next s := rfl

/-- The controller's port retrains. -/
def State.retrainDown (s : State) (port : Nat) : State := (s.resetPort .ctl port).showPorts.queueWake port 0

/-- The event of a port that is down. -/
def State.raiseDown (s : State) (port : Nat) (d : BitVec 16) : State := (s.retrainDown port).raise (portSource 12 port) 3 d port

theorem State.portDown_ctl (s : State) (port : Nat) (d : BitVec 16) : s.portDown .ctl port d = { s.raiseDown port d with
    col := { (s.raiseDown port d).col with shadows := (s.raiseDown port d).col.shadows ++
      [{ kind := 64, origin := (s.raiseDown port d).fid, port := port, openNs := (s.raiseDown port d).now + 1 }] } } := rfl

theorem timNow_ne_portSource (port : Nat) : TIM_NOW ≠ fltSrc (portSource 12 port) := by
  unfold TIM_NOW fltSrc FLT_SRCn portSource
  omega

theorem State.queueWake_now (s : State) (port cls : Nat) : (s.queueWake port cls).now = s.now := by
  unfold State.queueWake
  split
  · rfl
  · exact congrArg BitVec.toNat (State.reg_setFld_off _ (f := PWR_WAKE_STATUS_QUEUED) (by decide) _)

theorem State.raiseDown_leaves (s : State) (port : Nat) (d : BitVec 16) : (s.raiseDown port d).now = s.now ∧ (s.raiseDown port d).fid = s.fid
    ∧ (s.raiseDown port d).out = (s.resetPort .ctl port).out
    ∧ (s.raiseDown port d).port .ctl port = (s.resetPort .ctl port).port .ctl port := by
  have hreset := linkOnly_resetPort s .ctl port
  have hshow := (s.resetPort .ctl port).showNodePorts_leaves .ctl
  have hwake := keepsBringup_queueWake (s.resetPort .ctl port).showPorts port 0
  have hwakeDom : (s.retrainDown port).dom = s.dom := by
    have hq (u : State) : (u.queueWake port 0).dom = u.dom := by
      unfold State.queueWake
      split
      · rfl
      · rfl
    exact (hq _).trans (State.LinkOnly.mailOnly hreset).dom
  have hraise (u : State) (src : Nat) : (u.raise src 3 d port).out = u.out ∧ (u.raise src 3 d port).dom = u.dom ∧ (u.raise src 3 d port).ports = u.ports :=
    ⟨State.raise_out .., State.raise_dom .., State.raise_ports ..⟩
  obtain ⟨hout, hdom, hports⟩ := hraise (s.retrainDown port) (portSource 12 port)
  refine ⟨?_, ?_, ?_, ?_⟩
  · have hn : (s.raiseDown port d).now = (s.retrainDown port).now :=
      congrArg BitVec.toNat (State.reg_raise_ne _ _ _ _ _ (timNow_ne_portSource port))
    exact hn.trans ((State.queueWake_now _ port 0).trans (hshow.2.2.now.trans (LinkOnly_now hreset)))
  · exact congrArg (fun d : DomainSt => BitVec.ofNat 32 (d.domain * 65536 + d.localId)) (hdom.trans hwakeDom)
  · exact hout.trans hwake.out
  · refine (congrArg (fun m : NMap PortSt => m.getD port {}) hports).trans ((hwake.port port).trans ?_)
    exact State.port_showNodePorts (s.resetPort .ctl port) .ctl port

/-- A port of the controller that goes down: its shadow is open, and where nothing of other ports waits for it nothing leaves. -/
theorem State.portDown_leaves (s : State) (port : Nat) (d : BitVec 16) :
    ((∀ q ∈ (s.port .ctl port).queue, q.source = none) → (s.portDown .ctl port d).out = s.out
      ∧ (s.portDown .ctl port d).port .ctl port = { (s.port .ctl port).retrain with trainNs := s.now })
    ∧ { kind := 64, origin := s.fid, port := port, openNs := s.now + 1, closeNs := none } ∈ (s.portDown .ctl port d).col.shadows := by
  obtain ⟨hnow, hfid, hout, hport⟩ := s.raiseDown_leaves port d
  rw [State.portDown_ctl]
  generalize s.raiseDown port d = w at *
  have hrest (c : CollectorSt) : ({ w with col := c } : State).out = w.out ∧ ({ w with col := c } : State).port .ctl port = w.port .ctl port := ⟨rfl, rfl⟩
  refine ⟨fun h => ⟨(hrest _).1.trans (hout.trans ?_), (hrest _).2.trans (hport.trans ?_)⟩, ?_⟩
  · rw [State.resetPort_local h]
    rfl
  · rw [State.resetPort_local h, State.port_setPort_self]
  · rw [hnow, hfid]
    exact List.mem_append_right _ (List.mem_singleton_self _)

/-! ## Rekeys (R90, R337) -/

/-- A rekey of the port is asked for. -/
def State.askRekey (s : State) (n : Node) (port : Nat) : State := s.setPort n port { s.port n port with rekeyAsked := true }

/-- The report of a rekey that an orphan keeps. -/
def State.rekeyReport (s : State) (a : AgentRef) (port : Nat) : Packet :=
  let l := leBytes 2 port ++ zeros 6 ++ leBytes 8 (s.port (.agent a) port).txCtr
  { hdr := { ownHdr (s.owner a) 0x27 l with aux := BitVec.ofNat 24 0 }, payload := l }

theorem exec_rekeyThreshold_asked (h : (s.port n port).rekeyAsked = true) : exec (.rekeyThreshold n port) s = .next s := if_pos h

theorem exec_rekeyThreshold_ctl (h : (s.port .ctl port).rekeyAsked = false) : exec (.rekeyThreshold .ctl port) s =
    match (s.askRekey .ctl port).farNode .ctl port with
    | some (m, q) => .next ((s.askRekey .ctl port).rekeyOneWay .ctl port m q ((s.port .ctl port).txCtr + 2 ^ 32))
    | none => .next (s.askRekey .ctl port) := if_neg (by simp [h])

theorem exec_rekeyThreshold_agent {a : AgentRef} (h : (s.port (.agent a) port).rekeyAsked = false) : exec (.rekeyThreshold (.agent a) port) s =
    .next ((s.askRekey (.agent a) port).sendReport a 0x27 (leBytes 2 port ++ zeros 6 ++ leBytes 8 (s.port (.agent a) port).txCtr)) :=
  if_neg (by simp [h])

theorem State.askRekey_farNode (s : State) (port : Nat) : (s.askRekey .ctl port).farNode .ctl port = s.farNode .ctl port := by
  have hport : (s.askRekey .ctl port).port .ctl port = { s.port .ctl port with rekeyAsked := true } := State.port_setPort_self s .ctl port _
  have hdom : ∀ f, (s.askRekey .ctl port).nodeOf f = s.nodeOf f := fun _ => rfl
  unfold State.farNode
  rw [hport]
  dsimp only
  simp only [hdom]

theorem State.askRekey_agent (s : State) (a : AgentRef) (port : Nat) : (s.askRekey (.agent a) port).mayReport a = s.mayReport a
    ∧ (s.askRekey (.agent a) port).owner a = s.owner a ∧ ((s.askRekey (.agent a) port).agent a).reports = (s.agent a).reports
    ∧ (s.askRekey (.agent a) port).out = s.out := by
  have hag : (s.askRekey (.agent a) port).agent a
      = { s.agent a with ports := (s.agent a).ports.set port { s.port (.agent a) port with rekeyAsked := true } } := State.agent_updAgent_self s a _
  have hjx : ((s.askRekey (.agent a) port).agent a).jx = (s.agent a).jx := by rw [hag]
  have hfld (f : Field) : (s.askRekey (.agent a) port).jfld a f = s.jfld a f := by
    rw [State.jfld, State.jfld, State.jx, State.jx, hjx]
  have howner : (s.askRekey (.agent a) port).owner a = s.owner a := by rw [State.owner, State.owner, hfld]
  refine ⟨?_, howner, by rw [hag], rfl⟩
  rw [State.mayReport, State.mayReport, howner, State.orphan, State.orphan, hfld]

theorem exec_rekey_eq {lvl : Level} (hl : lvl ≠ .tenant) (v : Word64) :
    exec (.rekey lvl v) s = .next (if LNK_CTRL_REKEY.of v = 1 then s.rekeyLink .ctl (s.fld LNK_SEL_PORT) (2 ^ 32) else s) := by
  have hite : (if LNK_CTRL_REKEY.of v = 1 then (.next (s.rekeyLink .ctl (s.fld LNK_SEL_PORT) (2 ^ 32)) : Answer) else .next s)
      = .next (if LNK_CTRL_REKEY.of v = 1 then s.rekeyLink .ctl (s.fld LNK_SEL_PORT) (2 ^ 32) else s) := by
    split
    · rfl
    · rfl
  cases lvl with
  | tenant => exact absurd rfl hl
  | _ => exact hite

/-- What a request for a rekey does where it is taken. -/
def State.rekeyBody (s : State) (p : Packet) : State × Option Nat :=
  match s.refOf p.hdr.src with
  | none => (s, none)
  | some a =>
    match s.farNode (.agent a) (leAt p.payload 0 2) with
    | some (m, q) => (s.rekeyOneWay (.agent a) (leAt p.payload 0 2) m q (leAt p.payload 8 8 + 2 ^ 32), none)
    | none => (s, none)

theorem exec_rekeyReq_taken {p : Packet} (h : s.freshPacket .ctl p) (hb : s.rekeyBody p = (t, none)) : exec (.rekeyReq p) s = .next (t.acked .ctl p) :=
  congrArg Host.Outcome.next (State.accept_taken (body := fun s => s.rekeyBody p) h hb)

/-! ## Head slots (R124) -/

/-- A head slot sends no more than it holds. -/
theorem emitHead_le (a : AgentRef) (port : Nat) (l : List (Fid × TxPkt)) (flits : Nat) (s : State) : (State.emitHead a port flits l s).2 ≤ flits := by
  induction l generalizing flits s with
  | nil => exact Nat.zero_le _
  | cons x l ih =>
    unfold State.emitHead
    split
    · exact ih flits s
    · split
      · next hfit =>
        have hrest := ih (flits - x.2.pkt.hdr.units) (s.emitExpress a port x)
        dsimp only
        omega
      · exact Nat.zero_le _

theorem exec_expressHeadSlot_eq (s : State) (a : AgentRef) (port slot : Nat) : exec (.expressHeadSlot a port slot) s =
    if slotKind (s.slotEntry a port slot) ≠ 1 ∨ slotInPort (s.slotEntry a port slot) ≠ 0x1FF ∨ slotSrc (s.slotEntry a port slot) ≠ s.localOf a then .next s
    else
      let r := State.emitHead a port (slotFlits (s.slotEntry a port slot)) (s.headQueue a port (slotStream (s.slotEntry a port slot))) s
      .next (r.1.setPort (.agent a) port { r.1.port (.agent a) port with runPassed := some (r.1.jfld a JX_EPOCH_EPOCH_NUM * 4096 + slot, r.2) }) := rfl

end Sys2Proof.Machine

namespace Sys2Proof
open Machine

/-- Settles O29: each command by its branches. -/
theorem linkUpkeepResults : Obligations.LinkUpkeepResults := by
  intro s n port slot cause a lvl v x p hx
  subst hx
  refine ⟨exec_creditFrameTimer_off, fun hup hc => ⟨fun hq => ?_, fun hq => ?_⟩, fun h => ?_, fun h => ?_, s.portDown_leaves port,
    exec_rekeyThreshold_asked, fun hask u hu => ⟨fun hn => ?_, fun hn l hl => ?_⟩, ⟨_, _, rfl, rfl, ?_, rfl⟩, rfl, fun hl => exec_rekey_eq hl v,
    fun hf hr m q hfar => ?_, fun hf hr => ?_, fun w hw => ⟨fun h => ?_, fun h1 h2 h3 t k htk => ?_⟩⟩
  · rw [exec_creditFrameTimer_due hup hc, State.sendCredit_queued hq]
  · refine ⟨_, exec_creditFrameTimer_due hup hc, LinkOnly_regs (linkOnly_sendCredit s n port), LinkOnly_engines (linkOnly_sendCredit s n port), ?_⟩
    cases hfit : (s.port n port).fits s.now (s.openPs n port) (creditPacket (s.port n port)).hdr with
    | true =>
      obtain ⟨hout, hctr, hcred⟩ := s.startCredit_leaves n port rfl
      rw [State.sendCredit_sent hq hfit]
      exact ⟨hcred, fun _ => ⟨hout, hctr⟩, nofun⟩
    | false =>
      rw [State.sendCredit_waits hq hfit, State.port_setPort_self, State.setPort_out]
      exact ⟨rfl, nofun, fun _ => ⟨rfl, rfl⟩⟩
  · rw [exec_linkDown_eq, if_neg (by simp [h])]
  · rw [exec_linkDown_eq, if_pos h]
    cases cause with
    | blockLock => rfl
    | codewords => rfl
    | noCodeword => rfl
  · subst hn
    rw [hu]
    refine ⟨fun m q hfar => ?_, fun hfar => ?_⟩
    · rw [exec_rekeyThreshold_ctl hask, s.askRekey_farNode, hfar]
      rfl
    · rw [exec_rekeyThreshold_ctl hask, s.askRekey_farNode, hfar]
      rfl
  · subst hn hl
    obtain ⟨hmay, howner, hreports, hout⟩ := s.askRekey_agent a port
    rw [hu]
    refine ⟨fun h => ?_, fun h => ?_⟩
    · rw [exec_rekeyThreshold_agent hask, State.sendReport, if_pos (by rw [hmay]; exact h), howner]
      rfl
    · rw [exec_rekeyThreshold_agent hask, State.sendReport, if_neg (by rw [hmay]; simp [h])]
      refine ⟨_, s.rekeyReport a port, rfl, hout, ?_, rfl, rfl⟩
      rw [State.agent_updAgent_self, hreports, howner]
      rfl
  · rw [State.port_setPort_self]
  · refine exec_rekeyReq_taken hf ?_
    rw [State.rekeyBody, hr]
    dsimp only
    rw [hfar]
  · refine exec_rekeyReq_taken hf ?_
    rw [State.rekeyBody, hr]
  · rw [exec_expressHeadSlot_eq, ← hw, if_pos h]
  · have hle := emitHead_le a port (s.headQueue a port (slotStream w)) (slotFlits w) s
    rw [htk] at hle
    rw [exec_expressHeadSlot_eq, ← hw, if_neg (by simp [h1, h2, h3]), htk]
    exact ⟨hle, rfl⟩

end Sys2Proof
end

section
/-! Ticks, the switchover of the time base, epoch boundaries and bank swaps. -/

namespace Sys2Proof.Machine

variable {s t u : State} {a : AgentRef}

/-! ## What reports and figures leave -/

/-- Only events, figures and the admission changed: the registers but those of the event sources 7 and 0x60 and of the admission stand. -/
structure State.KeepsClock (s t : State) : Prop where
  rest : t = { s with regs := t.regs, col := t.col, lapses := t.lapses, sch := t.sch, out := t.out }
  due : t.col.resetDue = s.col.resetDue
  reg : ∀ off, off ≠ SCH_ADMIT → off ≠ fltSrc 7 → off ≠ fltSrc 0x60 → t.reg off = s.reg off

theorem State.KeepsClock.refl (s : State) : s.KeepsClock s := ⟨rfl, rfl, fun _ _ _ _ => rfl⟩

theorem State.KeepsClock.trans (h : s.KeepsClock t) (g : t.KeepsClock u) : s.KeepsClock u where
  rest := by
    have hu := g.rest
    rw [h.rest] at hu
    exact hu
  due := g.due.trans h.due
  reg off ha h7 h60 := (g.reg off ha h7 h60).trans (h.reg off ha h7 h60)

theorem State.KeepsClock.ite {c : Prop} [Decidable c] (h : s.KeepsClock t) (g : s.KeepsClock u) : s.KeepsClock (if c then t else u) := by
  split
  · exact h
  · exact g

theorem State.KeepsClock.forEach {α : Type} {f : State → α → State} (h : ∀ (s : State) x, s.KeepsClock (f s x)) (l : List α) (s : State) :
    s.KeepsClock (s.forEach l f) := by
  induction l generalizing s with
  | nil => exact .refl s
  | cons x l ih => exact (h s x).trans (ih (f s x))

theorem State.KeepsClock.time (h : s.KeepsClock t) : t.time = s.time := (congrArg State.time h.rest).trans rfl
theorem State.KeepsClock.agents (h : s.KeepsClock t) : t.agents = s.agents := (congrArg State.agents h.rest).trans rfl
theorem State.KeepsClock.dom (h : s.KeepsClock t) : t.dom = s.dom := (congrArg State.dom h.rest).trans rfl
theorem State.KeepsClock.rte (h : s.KeepsClock t) : t.rte = s.rte := (congrArg State.rte h.rest).trans rfl
theorem State.KeepsClock.pwr (h : s.KeepsClock t) : t.pwr = s.pwr := (congrArg State.pwr h.rest).trans rfl
theorem State.KeepsClock.grp (h : s.KeepsClock t) : t.grp = s.grp := (congrArg State.grp h.rest).trans rfl
theorem State.KeepsClock.sec (h : s.KeepsClock t) : t.sec = s.sec := (congrArg State.sec h.rest).trans rfl
theorem State.KeepsClock.sq (h : s.KeepsClock t) : t.sq = s.sq := (congrArg State.sq h.rest).trans rfl
theorem State.KeepsClock.engines (h : s.KeepsClock t) : t.engines = s.engines := (congrArg State.engines h.rest).trans rfl
theorem State.KeepsClock.queues (h : s.KeepsClock t) : t.queues = s.queues := (congrArg State.queues h.rest).trans rfl

theorem State.KeepsClock.fld (h : s.KeepsClock t) {f : Field} (ha : f.off ≠ SCH_ADMIT) (h7 : f.off ≠ fltSrc 7) (h60 : f.off ≠ fltSrc 0x60) :
    t.fld f = s.fld f := congrArg f.of (h.reg f.off ha h7 h60)

theorem State.resetDue_countSource (s : State) (src n : Nat) (d : BitVec 16) (c : Option Capture) :
    (s.countSource src n d c).col.resetDue = s.col.resetDue := by
  unfold State.countSource
  dsimp only
  split
  · split
    · rfl
    · rfl
  · rfl

theorem State.resetDue_present (s : State) (ev : Event) {c : Prop} [Decidable c] : (if c then s else s.present ev).col.resetDue = s.col.resetDue := by
  split
  · rfl
  · rfl

theorem State.resetDue_raise (s : State) (src stated : Nat) (d : BitVec 16) : (s.raise src stated d).col.resetDue = s.col.resetDue :=
  (State.resetDue_present _ _).trans (s.resetDue_countSource _ _ _ _)

theorem State.resetDue_lapse (s : State) (code object : Nat) : (s.lapse code object).col.resetDue = s.col.resetDue := by
  unfold State.lapse
  split
  · rfl
  · exact (State.resetDue_present _ _).trans (State.resetDue_countSource _ _ _ _ _)

theorem keepsClock_raise (s : State) (stated : Nat) (d : BitVec 16) : s.KeepsClock (s.raise 0x60 stated d) where
  rest := by
    obtain ⟨r, c, h⟩ := s.raise_eq 0x60 stated d 0xFFFF none
    rw [h]
  due := State.resetDue_raise s 0x60 stated d
  reg _ _ _ h60 := State.reg_raise_ne _ _ _ _ _ h60

theorem keepsClock_lapse (s : State) (code object : Nat) : s.KeepsClock (s.lapse code object) where
  rest := by
    obtain ⟨r, c, l, h⟩ := s.lapse_eq code object
    rw [h]
  due := State.resetDue_lapse s code object
  reg _ _ h7 _ := State.reg_lapse_ne _ _ _ h7

theorem keepsClock_setFld (s : State) {f : Field} (h : f.off = SCH_ADMIT) (v : Nat) : s.KeepsClock (s.setFld f v) :=
  ⟨rfl, rfl, fun _ ha _ _ => State.reg_setFld_off _ (h ▸ ha) _⟩

theorem keepsClock_showAdmit (s : State) : s.KeepsClock s.showAdmit := (keepsClock_setFld s rfl _).trans (keepsClock_setFld _ rfl _)

theorem keepsClock_act (s : State) (o : Out) : s.KeepsClock (s.act o) := by
  unfold State.act
  exact .ite ⟨rfl, rfl, fun _ _ _ _ => rfl⟩ (.refl s)

theorem keepsClock_setAdmitted (s : State) (x : Admitted) : s.KeepsClock (s.setAdmitted x) := ⟨rfl, rfl, fun _ _ _ _ => rfl⟩

theorem keepsClock_markUnfit (s : State) (x : Admitted) (l : List Byte) : s.KeepsClock (s.markUnfit x l) :=
  (((keepsClock_setAdmitted s _).trans (keepsClock_showAdmit _)).trans (keepsClock_act _ _)).trans (keepsClock_lapse _ _ _)

theorem keepsClock_unfitNested (s : State) : s.KeepsClock s.unfitNested := by
  have h := State.KeepsClock.forEach (fun s (x : Admitted) => keepsClock_markUnfit s x ((x.sched.flows.filter flowNested).flatMap fun f =>
    flowItem 0x09 f f.src 0xFFFF f.headSlot f.headSlot)) (s.sch.admitted.filter fun a => a.sched.nestedBudget.isSome && !a.unfit) s
  exact .ite h (h.trans (keepsClock_lapse _ _ _))

/-! ## Loss of sync and the switchover of the time base (R30, R142) -/

/-- The block with its loss of sync shown and timed. -/
def State.lostSync (s : State) (cause : Nat) : State :=
  let s := ((s.setFld SCH_SYNC_STATUS_STATE 3).setFld SCH_SYNC_STATUS_CAUSE cause).raise 0x60 2 (BitVec.ofNat 16 cause)
  { s with time := { s.time with lostNs := some s.now, edge := none } }

theorem keepsClock_loseSync (s : State) (cause : Nat) : (s.lostSync cause).KeepsClock (s.loseSync cause) :=
  .ite ((keepsClock_unfitNested _).trans (keepsClock_lapse _ _ _)) (.refl _)

theorem syncState_fits : SCH_SYNC_STATUS_STATE.fits := by unfold Field.fits; decide
theorem syncCause_fits : SCH_SYNC_STATUS_CAUSE.fits := by unfold Field.fits; decide
theorem syncCause_apart : SCH_SYNC_STATUS_CAUSE.apart SCH_SYNC_STATUS_STATE := by unfold Field.apart; decide

/-- What a loss of sync leaves: all but the registers of SYNC_STATUS, of the event and of the admission. -/
structure State.LosesSync (s t : State) (cause : Nat) : Prop where
  reg : ∀ off, off ≠ SCH_SYNC_STATUS → off ≠ SCH_ADMIT → off ≠ fltSrc 7 → off ≠ fltSrc 0x60 → t.reg off = s.reg off
  state : t.fld SCH_SYNC_STATUS_STATE = 3
  cause : t.fld SCH_SYNC_STATUS_CAUSE = cause % 8
  time : t.time = { s.time with lostNs := some s.now, edge := none }
  rest : t = { s with time := t.time, regs := t.regs, col := t.col, lapses := t.lapses, sch := t.sch, out := t.out }
  due : t.col.resetDue = s.col.resetDue

theorem State.lostSync_loses (s : State) (cause : Nat) : s.LosesSync (s.lostSync cause) cause := by
  have hr := keepsClock_raise ((s.setFld SCH_SYNC_STATUS_STATE 3).setFld SCH_SYNC_STATUS_CAUSE cause) 2 (BitVec.ofNat 16 cause)
  have hstate : ((s.setFld SCH_SYNC_STATUS_STATE 3).setFld SCH_SYNC_STATUS_CAUSE cause).fld SCH_SYNC_STATUS_STATE = 3 := by
    rw [State.fld_setFld_apart _ syncCause_fits syncState_fits syncCause_apart, State.fld_setFld_self _ syncState_fits]
    rfl
  have hcause : ((s.setFld SCH_SYNC_STATUS_STATE 3).setFld SCH_SYNC_STATUS_CAUSE cause).fld SCH_SYNC_STATUS_CAUSE = cause % 8 :=
    State.fld_setFld_self _ syncCause_fits cause
  have hreg (off : Nat) (hs : off ≠ SCH_SYNC_STATUS) : ((s.setFld SCH_SYNC_STATUS_STATE 3).setFld SCH_SYNC_STATUS_CAUSE cause).reg off = s.reg off :=
    (State.reg_setFld_off _ hs _).trans (State.reg_setFld_off _ hs _)
  have hset : ((s.setFld SCH_SYNC_STATUS_STATE 3).setFld SCH_SYNC_STATUS_CAUSE cause)
      = { s with regs := ((s.setFld SCH_SYNC_STATUS_STATE 3).setFld SCH_SYNC_STATUS_CAUSE cause).regs } := rfl
  unfold State.lostSync
  generalize (s.setFld SCH_SYNC_STATUS_STATE 3).setFld SCH_SYNC_STATUS_CAUSE cause = v at *
  generalize v.raise 0x60 2 (BitVec.ofNat 16 cause) = w at *
  have hw (off : Nat) (hs : off ≠ SCH_SYNC_STATUS) (ha : off ≠ SCH_ADMIT) (h7 : off ≠ fltSrc 7) (h60 : off ≠ fltSrc 0x60) : w.reg off = s.reg off :=
    (hr.reg off ha h7 h60).trans (hreg off hs)
  have hnow : w.now = s.now := congrArg BitVec.toNat (hw TIM_NOW (by decide) (by decide) (by decide) (by decide))
  refine ⟨hw, (hr.fld (by decide) (by decide) (by decide)).trans hstate, (hr.fld (by decide) (by decide) (by decide)).trans hcause, ?_, ?_,
    hr.due.trans ((congrArg (fun x : State => x.col.resetDue) hset).trans rfl)⟩
  · have ht : w.time = s.time := hr.time.trans ((congrArg State.time hset).trans rfl)
    dsimp only
    rw [hnow, ht]
  · have hv := hr.rest
    rw [hset] at hv
    dsimp only
    rw [hv]

theorem State.loseSync_loses (s : State) (cause : Nat) : s.LosesSync (s.loseSync cause) cause := by
  have h := s.lostSync_loses cause
  have g := keepsClock_loseSync s cause
  refine ⟨fun off hs ha h7 h60 => (g.reg off ha h7 h60).trans (h.reg off hs ha h7 h60),
    (g.fld (by decide) (by decide) (by decide)).trans h.state, (g.fld (by decide) (by decide) (by decide)).trans h.cause,
    g.time.trans h.time, ?_, g.due.trans h.due⟩
  have hg := g.rest
  rw [h.rest] at hg
  have ht : (s.loseSync cause).time = (s.lostSync cause).time := g.time
  rw [ht]
  exact hg

/-! ## An agent at a tick and at its boundary (R45, R139, R146) -/

/-- Only links, streams and agents changed, and the account of the agent stands. -/
structure State.KeepsAccount (a : AgentRef) (s t : State) : Prop where
  link : s.LinkOnly t
  account : (t.agent a).account = (s.agent a).account

theorem State.KeepsAccount.refl (s : State) : s.KeepsAccount a s := ⟨linkOnly_refl s, rfl⟩

theorem State.KeepsAccount.trans (h : s.KeepsAccount a t) (g : t.KeepsAccount a u) : s.KeepsAccount a u :=
  ⟨linkOnly_trans h.link g.link, g.account.trans h.account⟩

theorem State.KeepsAccount.ite {c : Prop} [Decidable c] (h : s.KeepsAccount a t) (g : s.KeepsAccount a u) : s.KeepsAccount a (if c then t else u) := by
  split
  · exact h
  · exact g

theorem State.KeepsAccount.forEach {α : Type} {f : State → α → State} (h : ∀ (s : State) x, s.KeepsAccount a (f s x)) (l : List α) (s : State) :
    s.KeepsAccount a (s.forEach l f) := by
  induction l generalizing s with
  | nil => exact .refl s
  | cons x l ih => exact (h s x).trans (ih (f s x))

theorem State.Link.keepsAccount {n : Node} (h : s.Link n t) : s.KeepsAccount a t := ⟨h.linkOnly, h.get a (·.account) fun _ => rfl⟩

theorem keepsAccount_updAgent (s : State) (a : AgentRef) (f : Agent → Agent) (h : (f (s.agent a)).account = (s.agent a).account) :
    s.KeepsAccount a (s.updAgent a f) := ⟨linkOnly_updAgent s a f, by rw [State.agent_updAgent_self, h]⟩

theorem keepsAccount_setJfld (s : State) (a : AgentRef) (f : Field) (v : Nat) : s.KeepsAccount a (s.setJfld a f v) := by
  rw [State.setJfld, State.setJx]
  exact keepsAccount_updAgent s a _ rfl

theorem keepsAccount_raiseAgent (s : State) (a : AgentRef) (src stated : Nat) (d : BitVec 16) : s.KeepsAccount a (s.raiseAgent a src stated d) :=
  (link_raiseAgent s a src stated d).keepsAccount

theorem keepsAccount_stepTime (s : State) (a : AgentRef) : s.KeepsAccount a (s.stepTime a) := by
  unfold State.stepTime
  split
  · exact .refl s
  · exact (keepsAccount_updAgent s a _ rfl).trans (keepsAccount_raiseAgent _ a _ _ _)

theorem keepsAccount_realignEpochs (s : State) (a : AgentRef) : s.KeepsAccount a (s.realignEpochs a) :=
  .ite (.refl s) ((keepsAccount_updAgent s a _ rfl).trans (keepsAccount_raiseAgent _ a _ _ _))

theorem keepsAccount_updateDrained (s : State) (a : AgentRef) : s.KeepsAccount a (s.updateDrained a) :=
  (keepsAccount_updAgent s a _ rfl).trans (keepsAccount_setJfld _ a _ _)

theorem keepsAccount_agentGeometry (s : State) (a : AgentRef) (n : BitVec 32) : s.KeepsAccount a (s.agentGeometry a n) := by
  refine keepsAccount_updAgent s a _ ?_
  dsimp only
  split
  · split
    · rfl
    · rfl
  · rfl

theorem Agent.writeShadow_account (g : Agent) (v : Variant) (l : List Byte) : (g.writeShadow v l).account = g.account := by
  unfold Agent.writeShadow
  split
  · rfl
  · rfl

theorem Agent.finishCopy_account (g : Agent) (v : Variant) : (g.finishCopy v).account = g.account := by
  have hfold (l : List (List Byte)) (g : Agent) : (l.foldl (fun g p => g.writeShadow v p) g).account = g.account := by
    induction l generalizing g with
    | nil => rfl
    | cons x l ih => exact (ih (g.writeShadow v x)).trans (g.writeShadow_account v x)
  unfold Agent.finishCopy
  split
  · exact hfold g.deferred _
  · rfl

/-- The agent's banks after a swap: the new active bank is copied. -/
def Agent.bankSwapped (g : Agent) (v : Variant) (now : Nat) : Agent :=
  { g.finishCopy v with active := (g.finishCopy v).shadow, shadow := (g.finishCopy v).shadow, copying := true, copyStartNs := now
                        shadowHolds := none, shadowBad := none, deferred := [], commitAt := none, play := none }

/-- The registers that show a swap. -/
def State.showSwap (s : State) (a : AgentRef) (v : BitVec 32) : State :=
  ((s.setJfld a JX_STATUS_BANK_ACTIVE (1 - s.jfld a JX_STATUS_BANK_ACTIVE)).setJfld a JX_STATUS_INSTALL_VERSION v.toNat).setJfld a
    JX_STATUS_PLAY_PENDING 0

theorem State.swapBanks_eq (s : State) (a : AgentRef) (v : BitVec 32) :
    s.swapBanks a v = (s.updAgent a fun g => g.bankSwapped a.variant (s.agentNow a)).showSwap a v := by
  unfold State.swapBanks State.showSwap
  rfl

theorem keepsAccount_showSwap (s : State) (a : AgentRef) (v : BitVec 32) : s.KeepsAccount a (s.showSwap a v) :=
  ((keepsAccount_setJfld s a _ _).trans (keepsAccount_setJfld _ a _ _)).trans (keepsAccount_setJfld _ a _ _)

theorem keepsAccount_swapBanks (s : State) (a : AgentRef) (v : BitVec 32) : s.KeepsAccount a (s.swapBanks a v) := by
  rw [State.swapBanks_eq]
  exact (keepsAccount_updAgent s a (fun g => g.bankSwapped a.variant (s.agentNow a)) (Agent.finishCopy_account _ _)).trans (keepsAccount_showSwap _ a v)

/-- The swap of an applied play. -/
def State.playSwap (s : State) (a : AgentRef) (q : PendingPlay) : State :=
  let s := match (s.agent a).commitAt with
    | some (v, _) => s.raiseAgent a 34 2 (low16 v)
    | none => s
  let s := s.swapBanks a q.resultVersion
  s.updAgent a fun g => { g with swapOpenedNs := some (s.agentNow a) }

theorem keepsAccount_playSwap (s : State) (a : AgentRef) (q : PendingPlay) : s.KeepsAccount a (s.playSwap a q) := by
  unfold State.playSwap
  split
  · exact ((keepsAccount_raiseAgent s a _ _ _).trans (keepsAccount_swapBanks _ a _)).trans (keepsAccount_updAgent _ a _ rfl)
  · exact (keepsAccount_swapBanks s a _).trans (keepsAccount_updAgent _ a _ rfl)

theorem State.agentSwap_eq (s : State) (a : AgentRef) (n : BitVec 32) : s.agentSwap a n =
    match (s.agent a).play with
    | some q =>
      if q.applied ∧ !seqLater q.swapEpoch n then
        if n = q.swapEpoch then s.playSwap a q else ((s.playSwap a q).satJfld a JX_GAMBIT_LATE_PLAYS 1).raiseAgent a 96 2 q.seq
      else s
    | none =>
      match (s.agent a).commitAt with
      | some (v, e) => if seqLater e n then s else s.swapBanks a v
      | none => s := rfl

theorem keepsAccount_agentSwap (s : State) (a : AgentRef) (n : BitVec 32) : s.KeepsAccount a (s.agentSwap a n) := by
  rw [State.agentSwap_eq]
  split
  · exact .ite (.ite (keepsAccount_playSwap s a _) (((keepsAccount_playSwap s a _).trans (keepsAccount_setJfld _ a _ _)).trans
      (keepsAccount_raiseAgent _ a _ _ _))) (.refl s)
  · split
    · exact .ite (.refl s) (keepsAccount_swapBanks s a _)
    · exact .refl s

theorem keepsAccount_clearDrained (s : State) (a : AgentRef) : s.KeepsAccount a (s.clearDrained a) :=
  .ite ((keepsAccount_updAgent s a _ rfl).trans (keepsAccount_setJfld _ a _ _)) (.refl s)

theorem keepsAccount_endSuspension (s : State) (a : AgentRef) (n : BitVec 32) : s.KeepsAccount a (s.endSuspension a n) := by
  unfold State.endSuspension
  dsimp only
  split
  · exact .ite (keepsAccount_updAgent s a _ rfl) (.refl s)
  · exact .refl s

theorem keepsAccount_agentBoundary (s : State) (a : AgentRef) : s.KeepsAccount a (s.agentBoundary a) := by
  have hopen := ((keepsAccount_stepTime s a).trans (keepsAccount_realignEpochs _ a)).trans (keepsAccount_updateDrained _ a)
  unfold State.agentBoundary
  dsimp only
  generalize ((s.stepTime a).realignEpochs a).updateDrained a = v at *
  exact hopen.trans ((((((keepsAccount_setJfld v a _ _).trans (keepsAccount_setJfld _ a _ _)).trans (keepsAccount_agentGeometry _ a _)).trans
    (keepsAccount_agentSwap _ a _)).trans (keepsAccount_clearDrained _ a)).trans (keepsAccount_endSuspension _ a _))

theorem keepsAccount_freeHeadless (s : State) (a : AgentRef) : s.KeepsAccount a (s.freeHeadless a) :=
  ((keepsAccount_updAgent s a _ rfl).trans (keepsAccount_setJfld _ a _ _)).trans (keepsAccount_setJfld _ a _ _)

theorem keepsAccount_boundaryAt (s : State) (a : AgentRef) : s.KeepsAccount a (s.boundaryAt a) := by
  have hdeep (s : State) : s.KeepsAccount a (s.deferredDeep a) := .ite (keepsAccount_updAgent s a _ rfl) (.refl s)
  exact ((keepsAccount_agentBoundary s a).trans
    (.ite (.refl _) ((keepsAccount_updAgent _ a _ rfl).trans (keepsAccount_freeHeadless _ a)))).trans (hdeep _)

theorem keepsAccount_countMissed (s : State) (a : AgentRef) : s.KeepsAccount a (s.countMissed a) := by
  unfold State.countMissed
  split
  · exact (keepsAccount_updAgent s a _ rfl).trans (keepsAccount_setJfld _ a _ _)
  · exact .refl s

theorem keepsAccount_ownBoundary (s : State) (a : AgentRef) : s.KeepsAccount a (s.ownBoundary a) := by
  unfold State.ownBoundary
  dsimp only
  split
  · exact .ite ((keepsAccount_updAgent s a _ rfl).trans (keepsAccount_boundaryAt _ a)) (keepsAccount_updAgent s a _ rfl)
  · exact .ite ((keepsAccount_updAgent s a _ rfl).trans (keepsAccount_boundaryAt _ a)) (.refl s)

theorem linkOnly_openAtAgent (s : State) (a : AgentRef) : s.LinkOnly (s.openAtAgent a) := by
  have hlast (s : State) (c : Prop) [Decidable c] (f : Agent → Agent) : s.LinkOnly (if c then s.updAgent a f else s.boundaryAt a) :=
    linkOnly_ite (linkOnly_updAgent s a _) (keepsAccount_boundaryAt s a).link
  refine linkOnly_ite (linkOnly_updAgent s a _) ?_
  refine linkOnly_trans (t := if (s.agent a).boundaryIn.isSome then (s.updAgent a fun g => { g with boundaryIn := none }).boundaryAt a else s) ?_ (hlast _ _ _)
  exact linkOnly_ite (linkOnly_trans (linkOnly_updAgent s a _) (keepsAccount_boundaryAt _ a).link) (linkOnly_refl s)

/-! ### Express frames that wait (R128) -/

theorem link_discard (s : State) (a : AgentRef) (p : Nat) (d : BitVec 16) (sev : Nat := 1) : s.Link (.agent a) (s.discard (.agent a) p d sev) :=
  (link_emit s (.agent a) _).trans (link_raiseAgent _ a _ _ _ _)

theorem link_expressOut (s : State) (a : AgentRef) (i o : Nat) (k : Packet) : s.Link (.agent a) (s.expressOut a i o k) := by
  unfold State.expressOut
  split
  · exact link_discard s a _ _
  · exact (link_setPort s _ _ _).trans (link_portSend _ _ _ _ _)

theorem link_forwardExpress (s : State) (a : AgentRef) (i o : Nat) (k : Packet) : s.Link (.agent a) (s.forwardExpress a i o k) :=
  .ite (link_expressOut s a i o k) (.ite (link_setPort s _ _ _) (link_discard s a _ _))

theorem link_serveIngress (s : State) (a : AgentRef) (i : Nat) : s.Link (.agent a) (s.serveIngress a i) := by
  unfold State.serveIngress
  dsimp only
  exact (link_setPort s (.agent a) i _).trans (State.Link.forEach (fun (s : State) (q : Nat × Packet) => link_forwardExpress s a i q.1 q.2) _ _)

theorem link_serveExpress (s : State) (a : AgentRef) : s.Link (.agent a) (s.serveExpress a) := by
  unfold State.serveExpress
  exact .forEach (fun s _ => link_serveIngress s a _) _ s

/-! ### A tick at an agent -/

/-- The agent with its time, its account and its ports credited for a tick, and its slot shown. -/
def State.tickedAgent (s : State) (a : AgentRef) (due : Bool) : State :=
  let g := s.agent a
  let t := g.epochTick + 1
  let s := s.setAgent a { (g.slew due) with account := min 2097152 (g.account + accountRate a.variant), epochTick := t
                                            ports := g.ports.mapVals fun _ x => x.tick }
  s.setJfld a JX_EPOCH_SLOT (currentSlot t g.geometry.1 g.geometry.2)

theorem State.tickAgent_eq (s : State) (a : AgentRef) (due : Bool) :
    s.tickAgent a due = ((((s.tickedAgent a due).countMissed a).ownBoundary a).serveExpress a).releaseWithheld (.agent a) := rfl

theorem State.tickedAgent_account (s : State) (a : AgentRef) (due : Bool) :
    ((s.tickedAgent a due).agent a).account = min 2097152 ((s.agent a).account + accountRate a.variant) := by
  refine (keepsAccount_setJfld _ a _ _).account.trans ?_
  rw [State.agent, State.setAgent, NMap.getD_set_self]

theorem keepsAccount_afterTick (s : State) (a : AgentRef) (due : Bool) : (s.tickedAgent a due).KeepsAccount a (s.tickAgent a due) := by
  rw [State.tickAgent_eq]
  exact (((keepsAccount_countMissed _ a).trans (keepsAccount_ownBoundary _ a)).trans (link_serveExpress _ a).keepsAccount).trans
    (link_releaseWithheld _ _).keepsAccount

theorem linkOnly_tickAgent (s : State) (a : AgentRef) (due : Bool) : s.LinkOnly (s.tickAgent a due) :=
  linkOnly_trans (linkOnly_trans (linkOnly_setAgent s a _) (linkOnly_setJfld _ a _ _)) (keepsAccount_afterTick s a due).link

/-! ## The banks after a swap (R45, R49) -/

/-- What a swap shows in the registers, and what it leaves. -/
theorem State.showSwap_leaves (s : State) (a : AgentRef) (v : BitVec 32) : (∃ x, (s.showSwap a v).agent a = { s.agent a with jx := x })
    ∧ (s.showSwap a v).version a = v ∧ (s.showSwap a v).jfld a JX_STATUS_BANK_ACTIVE = 1 - s.jfld a JX_STATUS_BANK_ACTIVE
    ∧ (s.showSwap a v).jfld a JX_STATUS_PLAY_PENDING = 0 ∧ (s.showSwap a v).out = s.out
    ∧ ∀ b, b ≠ a → (s.showSwap a v).agent b = s.agent b := by
  have hb : JX_STATUS_BANK_ACTIVE.fits := by unfold Field.fits; decide
  have hv : JX_STATUS_INSTALL_VERSION.fits := by unfold Field.fits; decide
  have hp : JX_STATUS_PLAY_PENDING.fits := by unfold Field.fits; decide
  have hout (u : State) (f : Field) (v : Nat) : (u.setJfld a f v).out = u.out := rfl
  obtain ⟨x, hx⟩ := s.agent_setJfld a JX_STATUS_BANK_ACTIVE (1 - s.jfld a JX_STATUS_BANK_ACTIVE)
  unfold State.showSwap State.version
  have hbank := State.jfld_setJfld_self s a hb (1 - s.jfld a JX_STATUS_BANK_ACTIVE)
  have hne (b : AgentRef) (hba : b ≠ a) := State.agent_setJfld_ne s hba JX_STATUS_BANK_ACTIVE (1 - s.jfld a JX_STATUS_BANK_ACTIVE)
  have ho := hout s JX_STATUS_BANK_ACTIVE (1 - s.jfld a JX_STATUS_BANK_ACTIVE)
  have hbit : (1 - s.jfld a JX_STATUS_BANK_ACTIVE) % 2 ^ (JX_STATUS_BANK_ACTIVE.hi - JX_STATUS_BANK_ACTIVE.lo + 1)
      = 1 - s.jfld a JX_STATUS_BANK_ACTIVE := Nat.mod_eq_of_lt (Nat.lt_of_le_of_lt (Nat.sub_le _ _) (by decide))
  generalize s.setJfld a JX_STATUS_BANK_ACTIVE (1 - s.jfld a JX_STATUS_BANK_ACTIVE) = w at *
  obtain ⟨y, hy⟩ := w.agent_setJfld a JX_STATUS_INSTALL_VERSION v.toNat
  obtain ⟨z, hz⟩ := (w.setJfld a JX_STATUS_INSTALL_VERSION v.toNat).agent_setJfld a JX_STATUS_PLAY_PENDING 0
  refine ⟨⟨z, by rw [hz, hy, hx]⟩, ?_, ?_, ?_, (hout _ _ _).trans ((hout _ _ _).trans ho), fun b hba => ?_⟩
  · rw [State.jfld_setJfld_apart _ _ hp hv (by unfold Field.apart; decide), State.jfld_setJfld_self _ _ hv]
    exact BitVec.eq_of_toNat_eq (by simp [JX_STATUS_INSTALL_VERSION]; omega)
  · rw [State.jfld_setJfld_apart _ _ hp hb (by unfold Field.apart; decide), State.jfld_setJfld_apart _ _ hv hb (by unfold Field.apart; decide),
      hbank, hbit]
  · rw [State.jfld_setJfld_self _ _ hp]
    rfl
  · rw [State.agent_setJfld_ne _ hba, State.agent_setJfld_ne _ hba, hne b hba]

/-- What a swap of the banks leaves at an agent that copies nothing. -/
theorem State.swapBanks_leaves (s : State) (a : AgentRef) (v : BitVec 32) (h : (s.agent a).copying = false) :
    (∃ x, (s.swapBanks a v).agent a = { (s.agent a).bankSwapped a.variant (s.agentNow a) with jx := x })
    ∧ (s.swapBanks a v).version a = v ∧ (s.swapBanks a v).jfld a JX_STATUS_BANK_ACTIVE = 1 - s.jfld a JX_STATUS_BANK_ACTIVE
    ∧ (s.swapBanks a v).jfld a JX_STATUS_PLAY_PENDING = 0 ∧ (s.swapBanks a v).out = s.out
    ∧ ∀ b, b ≠ a → (s.swapBanks a v).agent b = s.agent b := by
  have hf : (s.agent a).finishCopy a.variant = s.agent a := by rw [Agent.finishCopy, if_neg (by simp [h])]
  have hjx : ((s.agent a).bankSwapped a.variant (s.agentNow a)).jx = (s.agent a).jx := by rw [Agent.bankSwapped, hf]
  have hbank : (s.updAgent a fun g => g.bankSwapped a.variant (s.agentNow a)).jfld a JX_STATUS_BANK_ACTIVE = s.jfld a JX_STATUS_BANK_ACTIVE :=
    State.jfld_updAgent (f := fun g => g.bankSwapped a.variant (s.agentNow a)) hjx _
  have hself : (s.updAgent a fun g => g.bankSwapped a.variant (s.agentNow a)).agent a = (s.agent a).bankSwapped a.variant (s.agentNow a) :=
    State.agent_updAgent_self s a _
  have hne (b : AgentRef) (hba : b ≠ a) : (s.updAgent a fun g => g.bankSwapped a.variant (s.agentNow a)).agent b = s.agent b :=
    State.agent_updAgent_ne s _ hba
  have hout : (s.updAgent a fun g => g.bankSwapped a.variant (s.agentNow a)).out = s.out := rfl
  rw [State.swapBanks_eq, ← hbank, ← hout, ← hself]
  obtain ⟨h1, h2, h3, h4, h5, h6⟩ := (s.updAgent a fun g => g.bankSwapped a.variant (s.agentNow a)).showSwap_leaves a v
  exact ⟨h1, h2, h3, h4, h5, fun b hba => (h6 b hba).trans (hne b hba)⟩

theorem Agent.bankSwapped_leaves {g : Agent} (h : g.copying = false) (v : Variant) (now : Nat) : (g.bankSwapped v now).active = g.shadow
    ∧ (g.bankSwapped v now).shadow = g.shadow := by
  have hf : g.finishCopy v = g := by rw [Agent.finishCopy, if_neg (by simp [h])]
  unfold Agent.bankSwapped
  rw [hf]
  exact ⟨rfl, rfl⟩

theorem State.agentSwap_commit (hp : (s.agent a).play = none) {v e : BitVec 32} (hc : (s.agent a).commitAt = some (v, e)) (m : BitVec 32) :
    s.agentSwap a m = if seqLater e m then s else s.swapBanks a v := by
  rw [State.agentSwap_eq, hp]
  dsimp only
  rw [hc]

theorem seqLater_self (m : BitVec 32) : seqLater m m = false := by simp [seqLater]

theorem State.agentSwap_play {q : PendingPlay} (hp : (s.agent a).play = some q) (ha : q.applied = true) (hc : (s.agent a).commitAt = none) :
    s.agentSwap a q.swapEpoch = (s.swapBanks a q.resultVersion).updAgent a fun g => { g with swapOpenedNs := some ((s.swapBanks a q.resultVersion).agentNow a) } := by
  rw [State.agentSwap_eq, hp]
  dsimp only
  rw [if_pos (by simp [ha, seqLater_self]), if_pos rfl, State.playSwap, hc]

/-! ## A tick of the block (R28, R103, R115) -/

/-- The tick in the time and in the sequence. -/
def State.clockSeq (s : State) : State :=
  let s := s.setReg TIM_NOW (s.reg TIM_NOW + 128)
  s.setFld TIM_TICK_TICK_SEQ (s.fld TIM_TICK_TICK_SEQ + 1)

/-- The tick in the calibrated time, and the offset of the standby. -/
def State.clockCal (s : State) : State :=
  let s := s.setFld TIM_STATUS_B_OFFSET_PS (BitVec.ofInt 16 ((Config.standbyOffset s.now % 4001 : Nat) - 2000 : Int)).toNat
  s.setReg TIM_CAL (s.reg TIM_CAL + 128)

/-- The tick in the time of operation. -/
def State.clockOper (s : State) : State :=
  let s : State := { s with time := { s.time with operNs := s.time.operNs + 128 } }
  s.setFld LED_TIME_OPER_MS (s.time.operNs / 1000000)

/-- The tick in the epoch. -/
def State.clockEpoch (s : State) : State :=
  let s : State := { s with time := { s.time with epochTick := s.time.epochTick + 1 } }
  s.setFld SCH_EPOCH_NOW_SLOT (currentSlot s.time.epochTick s.geometry.1 s.geometry.2)

/-- The block with the tick counted in its registers, the sequence and the epoch. -/
def State.tickedClock (s : State) : State := s.countTick.clockEpoch

/-- The tick at the agents and at the ports of all nodes. -/
def State.tickNodes (s : State) : State :=
  let due := s.fld TIM_TICK_TICK_SEQ % 8 == 0
  let s := s.forEach (s.agents.map (·.1)) fun s k => s.tickAgent (refOfKey k) due
  let s : State := { s with ports := s.ports.mapVals fun _ x => x.tick }
  let s := s.forEach (s.agents.map (·.1)) fun s k => s.pumpAll (.agent (refOfKey k))
  s.pumpAll .ctl

/-- A tick of the block, before a reset that is due. -/
def State.ticked (s : State) : State := s.tickedClock.tickNodes.tickCollector.judgeEdges.settleRestarts

theorem exec_slotTick_eq (s : State) : exec .slotTick s = if s.pwr.pwrgd = false then .next s
    else .next (if s.ticked.col.resetDue && !s.ticked.pwr.held then s.ticked.controllerReset 3 else s.ticked) := by
  change execSlotTick s = _
  unfold execSlotTick
  rfl

theorem linkOnly_pumpAll (s : State) (n : Node) : s.LinkOnly (s.pumpAll n) := linkOnly_forEach (fun _ _ => linkOnly_pumpPort _ _ _) _ s

theorem linkOnly_tickNodes (s : State) : s.LinkOnly s.tickNodes := by
  have hports (s : State) (m : NMap PortSt) : s.LinkOnly { s with ports := m } := rfl
  exact linkOnly_trans (linkOnly_trans (linkOnly_trans (linkOnly_forEach (fun _ _ => linkOnly_tickAgent _ _ _) _ s) (hports _ _))
    (linkOnly_forEach (fun _ _ => linkOnly_pumpAll _ _) _ _)) (linkOnly_pumpAll _ _)

/-- What a tick adds in the controller's registers and time, and what it leaves. -/
structure State.Ticks (s t : State) : Prop where
  now : t.reg TIM_NOW = s.reg TIM_NOW + 128
  seq : t.fld TIM_TICK_TICK_SEQ = (s.fld TIM_TICK_TICK_SEQ + 1) % 2 ^ 32
  cal : t.reg TIM_CAL = s.reg TIM_CAL + 128
  oper : t.time.operNs = s.time.operNs + 128
  epoch : t.time.epochTick = s.time.epochTick + 1
  engines : t.engines = s.engines
  queues : t.queues = s.queues
  grp : t.grp = s.grp
  sec : t.sec = s.sec
  sq : t.sq = s.sq
  pwr : t.pwr = s.pwr

/-- The registers, the parts and the counts of time that a tick adds to, as they stood. -/
structure State.KeepsTick (s t : State) : Prop where
  now : t.reg TIM_NOW = s.reg TIM_NOW
  tick : t.reg TIM_TICK = s.reg TIM_TICK
  cal : t.reg TIM_CAL = s.reg TIM_CAL
  oper : t.time.operNs = s.time.operNs
  epoch : t.time.epochTick = s.time.epochTick
  engines : t.engines = s.engines
  queues : t.queues = s.queues
  grp : t.grp = s.grp
  sec : t.sec = s.sec
  sq : t.sq = s.sq
  pwr : t.pwr = s.pwr
  due : t.col.resetDue = s.col.resetDue
  restarts : t.dom.restarts = s.dom.restarts

theorem State.KeepsTick.refl (s : State) : s.KeepsTick s := ⟨rfl, rfl, rfl, rfl, rfl, rfl, rfl, rfl, rfl, rfl, rfl, rfl, rfl⟩

theorem State.KeepsTick.trans (h : s.KeepsTick t) (g : t.KeepsTick u) : s.KeepsTick u :=
  ⟨g.now.trans h.now, g.tick.trans h.tick, g.cal.trans h.cal, g.oper.trans h.oper, g.epoch.trans h.epoch, g.engines.trans h.engines,
    g.queues.trans h.queues, g.grp.trans h.grp, g.sec.trans h.sec, g.sq.trans h.sq, g.pwr.trans h.pwr, g.due.trans h.due, g.restarts.trans h.restarts⟩

theorem State.LinkOnly.keepsTick (h : s.LinkOnly t) : s.KeepsTick t := by
  unfold State.LinkOnly at h
  rw [h]
  exact ⟨rfl, rfl, rfl, rfl, rfl, rfl, rfl, rfl, rfl, rfl, rfl, rfl, rfl⟩

theorem State.LosesSync.keepsTick {cause : Nat} (h : s.LosesSync t cause) : s.KeepsTick t := by
  have hr (off : Nat) (h1 : off ≠ SCH_SYNC_STATUS) (h2 : off ≠ SCH_ADMIT) (h3 : off ≠ fltSrc 7) (h4 : off ≠ fltSrc 0x60) := h.reg off h1 h2 h3 h4
  refine ⟨hr _ (by decide) (by decide) (by decide) (by decide), hr _ (by decide) (by decide) (by decide) (by decide),
    hr _ (by decide) (by decide) (by decide) (by decide), ?_, ?_, ?_, ?_, ?_, ?_, ?_, ?_, h.due, ?_⟩
  · rw [h.time]
  · rw [h.time]
  · rw [h.rest]
  · rw [h.rest]
  · rw [h.rest]
  · rw [h.rest]
  · rw [h.rest]
  · rw [h.rest]
  · rw [h.rest]

theorem keepsTick_judgeEdges (s : State) : s.KeepsTick s.judgeEdges := by
  unfold State.judgeEdges
  split
  · exact (s.loseSync_loses 3).keepsTick
  · exact .refl s

theorem keepsTick_settleRestarts (s : State) (h : ∀ x ∈ s.dom.restarts, x.2.1 ≠ []) : s.KeepsTick s.settleRestarts := by
  have hnone : (s.dom.restarts.filter fun x => x.2.1.isEmpty) = [] := by
    rw [List.filter_eq_nil_iff]
    exact fun x hx he => h x hx (List.isEmpty_iff.1 he)
  have hall : (s.dom.restarts.filter fun x => !x.2.1.isEmpty) = s.dom.restarts := by
    rw [List.filter_eq_self]
    exact fun x hx => by simpa using h x hx
  unfold State.settleRestarts
  rw [hnone, hall]
  exact .refl s

theorem State.clockSeq_regs (s : State) : s.clockSeq.reg TIM_NOW = s.reg TIM_NOW + 128
    ∧ s.clockSeq.fld TIM_TICK_TICK_SEQ = (s.fld TIM_TICK_TICK_SEQ + 1) % 2 ^ 32 ∧ s.clockSeq.reg TIM_CAL = s.reg TIM_CAL := by
  have hseq : TIM_TICK_TICK_SEQ.fits := by unfold Field.fits; decide
  have hstep (u : State) (n : Nat) : (u.setFld TIM_TICK_TICK_SEQ n).fld TIM_TICK_TICK_SEQ = n % 2 ^ 32 := State.fld_setFld_self u hseq n
  have hfld : (s.setReg TIM_NOW (s.reg TIM_NOW + 128)).fld TIM_TICK_TICK_SEQ = s.fld TIM_TICK_TICK_SEQ :=
    congrArg TIM_TICK_TICK_SEQ.of (State.reg_setReg_ne s _ (by decide))
  exact ⟨(State.reg_setFld_off _ (by decide) _).trans (State.reg_setReg_self ..), (hstep _ _).trans (by rw [hfld]),
    (State.reg_setFld_off _ (by decide) _).trans (State.reg_setReg_ne s _ (by decide))⟩

theorem State.clockCal_regs (s : State) : s.clockCal.reg TIM_NOW = s.reg TIM_NOW ∧ s.clockCal.fld TIM_TICK_TICK_SEQ = s.fld TIM_TICK_TICK_SEQ
    ∧ s.clockCal.reg TIM_CAL = s.reg TIM_CAL + 128 := by
  have hset (u : State) (v : Nat) : (u.setFld TIM_STATUS_B_OFFSET_PS v).reg TIM_CAL = u.reg TIM_CAL := State.reg_setFld_off u (by decide) v
  unfold State.clockCal
  dsimp only
  rw [hset, State.reg_setReg_self, State.fld, State.reg_setReg_ne _ _ (show TIM_NOW ≠ TIM_CAL by decide),
    State.reg_setReg_ne _ _ (show TIM_TICK_TICK_SEQ.off ≠ TIM_CAL by decide), State.reg_setFld_off _ (by decide), State.reg_setFld_off _ (by decide)]
  exact ⟨rfl, rfl, rfl⟩

theorem State.clockOper_regs (s : State) {off : Nat} (h : off ≠ LED_TIME) : s.clockOper.reg off = s.reg off := State.reg_setFld_off _ h _

theorem State.clockEpoch_regs (s : State) {off : Nat} (h : off ≠ SCH_EPOCH_NOW) : s.clockEpoch.reg off = s.reg off := State.reg_setFld_off _ h _

theorem State.countTick_eq (s : State) : s.countTick = s.clockSeq.clockCal.clockOper := rfl

theorem State.tickedClock_ticks (s : State) : s.Ticks s.tickedClock := by
  have hreg (u : State) {off : Nat} (h : off ≠ LED_TIME) (h' : off ≠ SCH_EPOCH_NOW) : u.clockOper.clockEpoch.reg off = u.reg off :=
    (u.clockOper.clockEpoch_regs h').trans (u.clockOper_regs h)
  rw [State.tickedClock, State.countTick_eq]
  obtain ⟨hn, hs, hc⟩ := s.clockSeq_regs
  obtain ⟨kn, ks, kc⟩ := s.clockSeq.clockCal_regs
  refine ⟨(hreg _ (by decide) (by decide)).trans (kn.trans hn), (congrArg TIM_TICK_TICK_SEQ.of (hreg _ (by decide) (by decide))).trans (ks.trans hs),
    (hreg _ (by decide) (by decide)).trans (kc.trans (by rw [hc])), rfl, rfl, rfl, rfl, rfl, rfl, rfl, rfl⟩

theorem State.Ticks.keeps (h : s.Ticks t) (g : t.KeepsTick u) : s.Ticks u :=
  ⟨g.now.trans h.now, (congrArg TIM_TICK_TICK_SEQ.of g.tick).trans h.seq, g.cal.trans h.cal, g.oper.trans h.oper, g.epoch.trans h.epoch,
    g.engines.trans h.engines, g.queues.trans h.queues, g.grp.trans h.grp, g.sec.trans h.sec, g.sq.trans h.sq, g.pwr.trans h.pwr⟩

theorem State.ticked_ticks (s : State) (h : ∀ x ∈ s.dom.restarts, x.2.1 ≠ []) : s.Ticks s.ticked ∧ s.ticked.col.resetDue = s.col.resetDue := by
  have hclock := s.tickedClock_ticks
  have hdue : s.tickedClock.col.resetDue = s.col.resetDue := rfl
  have hdom : s.tickedClock.dom = s.dom := rfl
  have hcol (u : State) : u.KeepsTick u.tickCollector := ⟨rfl, rfl, rfl, rfl, rfl, rfl, rfl, rfl, rfl, rfl, rfl, rfl, rfl⟩
  unfold State.ticked
  generalize s.tickedClock = v at *
  have hnodes := ((State.LinkOnly.keepsTick (linkOnly_tickNodes v)).trans (hcol _)).trans (keepsTick_judgeEdges _)
  have hall := hnodes.trans (keepsTick_settleRestarts _ (by rw [hnodes.restarts, hdom]; exact h))
  exact ⟨hclock.keeps hall, hall.due.trans hdue⟩

/-! ## The switchover of the time base (R30, R142) -/

/-- The switchover in the registers of time. -/
def State.switchedTime (s : State) : State :=
  let s := (s.setFld TIM_TICK_SOURCE 1).satFld TIM_STATUS_SWITCHOVERS 1
  let s := if s.fld TIM_STATUS_PPS = 1 then s.setFld TIM_STATUS_PPS 2 else s
  if s.fld TIM_STATUS_PTP = 0 then s else s.setFld TIM_STATUS_PTP 4

theorem exec_timeBaseSwitchover_done (h : s.fld TIM_TICK_SOURCE = 1) : exec .timeBaseSwitchover s = .next s :=
  congrArg Host.Outcome.next (if_pos h)

theorem exec_timeBaseSwitchover_due (h : s.fld TIM_TICK_SOURCE = 0) : exec .timeBaseSwitchover s = .next (s.switchedTime.loseSync 4) :=
  congrArg Host.Outcome.next (if_neg (by omega))

theorem ptp_fits : TIM_STATUS_PTP.fits := by unfold Field.fits; decide
theorem pps_fits : TIM_STATUS_PPS.fits := by unfold Field.fits; decide

/-- The marks of PPS and PTP as lost. -/
theorem State.markLost_leaves (h : t = if s.fld TIM_STATUS_PPS = 1 then s.setFld TIM_STATUS_PPS 2 else s)
    (hu : u = if t.fld TIM_STATUS_PTP = 0 then t else t.setFld TIM_STATUS_PTP 4) :
    (s.fld TIM_STATUS_PPS = 1 → u.fld TIM_STATUS_PPS = 2) ∧ (s.fld TIM_STATUS_PTP ≠ 0 → u.fld TIM_STATUS_PTP = 4)
    ∧ (∀ off, off ≠ TIM_STATUS → u.reg off = s.reg off) ∧ ∃ r, u = { s with regs := r } := by
  have hpps : t.fld TIM_STATUS_PTP = s.fld TIM_STATUS_PTP := by
    rw [h]
    split
    · exact State.fld_setFld_apart s pps_fits ptp_fits (by unfold Field.apart; decide) 2
    · rfl
  have hreg (v : State) (c : Prop) [Decidable c] (f : Field) (n : Nat) (hf : f.off = TIM_STATUS) :
      (∀ off, off ≠ TIM_STATUS → (if c then v.setFld f n else v).reg off = v.reg off) ∧ ∃ r, (if c then v.setFld f n else v) = { v with regs := r } := by
    split
    · exact ⟨fun off ho => State.reg_setFld_off v (hf ▸ ho) n, _, rfl⟩
    · exact ⟨fun _ _ => rfl, _, rfl⟩
  have hnot : (if t.fld TIM_STATUS_PTP = 0 then t else t.setFld TIM_STATUS_PTP 4) = if ¬t.fld TIM_STATUS_PTP = 0 then t.setFld TIM_STATUS_PTP 4 else t := by
    rw [ite_not]
  obtain ⟨ht, r, htr⟩ := hreg s (s.fld TIM_STATUS_PPS = 1) TIM_STATUS_PPS 2 rfl
  obtain ⟨hv, r', hvr⟩ := hreg t (¬t.fld TIM_STATUS_PTP = 0) TIM_STATUS_PTP 4 rfl
  rw [← h] at ht htr
  rw [← hnot, ← hu] at hv hvr
  refine ⟨fun hone => ?_, fun hne => ?_, fun off ho => (hv off ho).trans (ht off ho), ?_⟩
  · have hmark : t.fld TIM_STATUS_PPS = 2 := by
      rw [h, if_pos hone, State.fld_setFld_self s pps_fits]
      rfl
    rw [hu]
    split
    · exact hmark
    · rw [State.fld_setFld_apart t ptp_fits pps_fits (by unfold Field.apart; decide), hmark]
  · rw [hu, if_neg (by rw [hpps]; exact hne), State.fld_setFld_self t ptp_fits]
    rfl
  · exact ⟨r', by rw [hvr, htr]⟩

theorem State.switchedTime_leaves (s : State) : s.switchedTime.fld TIM_TICK_SOURCE = 1 ∧ s.switchedTime.reg TIM_NOW = s.reg TIM_NOW
    ∧ (s.fld TIM_STATUS_PPS = 1 → s.switchedTime.fld TIM_STATUS_PPS = 2) ∧ (s.fld TIM_STATUS_PTP ≠ 0 → s.switchedTime.fld TIM_STATUS_PTP = 4)
    ∧ ∃ r, s.switchedTime = { s with regs := r } := by
  have hsw : TIM_STATUS_SWITCHOVERS.fits := by unfold Field.fits; decide
  have hstart (f : Field) (hf : f.fits) (ho : f.off = TIM_STATUS) (ha : TIM_STATUS_SWITCHOVERS.apart f) :
      ((s.setFld TIM_TICK_SOURCE 1).satFld TIM_STATUS_SWITCHOVERS 1).fld f = s.fld f :=
    (State.fld_setFld_apart _ hsw hf ha _).trans (State.fld_setFld_off s (by rw [ho]; decide) 1)
  have hsource : ((s.setFld TIM_TICK_SOURCE 1).satFld TIM_STATUS_SWITCHOVERS 1).fld TIM_TICK_SOURCE = 1 :=
    (State.fld_setFld_off _ (by decide) _).trans (State.fld_setFld_self s (by unfold Field.fits; decide) 1)
  have hnow : ((s.setFld TIM_TICK_SOURCE 1).satFld TIM_STATUS_SWITCHOVERS 1).reg TIM_NOW = s.reg TIM_NOW :=
    (State.reg_setFld_off _ (by decide) _).trans (State.reg_setFld_off s (by decide) 1)
  have hpps := hstart TIM_STATUS_PPS pps_fits rfl (by unfold Field.apart; decide)
  have hptp := hstart TIM_STATUS_PTP ptp_fits rfl (by unfold Field.apart; decide)
  have hrest : ∃ r, (s.setFld TIM_TICK_SOURCE 1).satFld TIM_STATUS_SWITCHOVERS 1 = { s with regs := r } := ⟨_, rfl⟩
  unfold State.switchedTime
  generalize (s.setFld TIM_TICK_SOURCE 1).satFld TIM_STATUS_SWITCHOVERS 1 = w at *
  obtain ⟨r, hrest⟩ := hrest
  obtain ⟨h1, h2, h3, r', h4⟩ := State.markLost_leaves (s := w) rfl rfl
  refine ⟨(congrArg TIM_TICK_SOURCE.of (h3 _ (by decide))).trans hsource, (h3 _ (by decide)).trans hnow, fun h => h1 (hpps.trans h),
    fun h => h2 (hptp.trans_ne h), r', h4.trans (by rw [hrest])⟩

/-! ## An epoch boundary (R115, R139) -/

theorem exec_epochBoundary_eq (s : State) : exec .epochBoundary s = if s.pwr.pwrgd = false then .next s
    else
      let v := s.missedAdjust (BitVec.ofNat 32 (s.epochNow + 1))
      let w : State := { v.openEpoch with ports := v.openEpoch.ports.mapVals fun _ x => x.epochEnd }
      .next (w.forEach (w.agents.map (·.1)) fun s k => s.openAtAgent (refOfKey k)).swapController := by
  change execEpochBoundary s = _
  unfold execEpochBoundary
  rfl

theorem keepsClock_missedAdjust (s : State) (e : BitVec 32) : s.KeepsClock (s.missedAdjust e) :=
  .ite (.forEach (fun s _ => .ite (keepsClock_lapse s _ _) (.refl s)) _ s) (.refl s)

/-- Where no geometry is pending, the next epoch opens at its first slot. -/
theorem State.openEpoch_leaves (s : State) (h : s.time.pendingGeom = none) :
    s.openEpoch.fld SCH_EPOCH_NOW_EPOCH_NUM = (s.epochNow + 1) % 2 ^ 48 ∧ s.openEpoch.fld SCH_EPOCH_NOW_SLOT = 0 ∧ s.openEpoch.time.epochTick = 0
    ∧ s.openEpoch.reg TIM_NOW = s.reg TIM_NOW ∧ s.openEpoch = { s with regs := s.openEpoch.regs, time := s.openEpoch.time } := by
  have hn : SCH_EPOCH_NOW_EPOCH_NUM.fits := by unfold Field.fits; decide
  have hs : SCH_EPOCH_NOW_SLOT.fits := by unfold Field.fits; decide
  have hregs (n : Nat) : ((s.setFld SCH_EPOCH_NOW_EPOCH_NUM (n % 2 ^ 48)).setFld SCH_EPOCH_NOW_SLOT 0).fld SCH_EPOCH_NOW_EPOCH_NUM = n % 2 ^ 48
      ∧ ((s.setFld SCH_EPOCH_NOW_EPOCH_NUM (n % 2 ^ 48)).setFld SCH_EPOCH_NOW_SLOT 0).fld SCH_EPOCH_NOW_SLOT = 0
      ∧ ((s.setFld SCH_EPOCH_NOW_EPOCH_NUM (n % 2 ^ 48)).setFld SCH_EPOCH_NOW_SLOT 0).reg TIM_NOW = s.reg TIM_NOW := by
    refine ⟨?_, ?_, (State.reg_setFld_off _ (by decide) _).trans (State.reg_setFld_off s (by decide) _)⟩
    · rw [State.fld_setFld_apart _ hs hn (by unfold Field.apart; decide), State.fld_setFld_self s hn]
      exact Nat.mod_mod _ _
    · rw [State.fld_setFld_self _ hs]
      rfl
  have hset (n : Nat) : (s.setFld SCH_EPOCH_NOW_EPOCH_NUM n).setFld SCH_EPOCH_NOW_SLOT 0
      = { s with regs := ((s.setFld SCH_EPOCH_NOW_EPOCH_NUM n).setFld SCH_EPOCH_NOW_SLOT 0).regs } := rfl
  obtain ⟨h1, h2, h3⟩ := hregs (s.epochNow + 1)
  have hrest := hset ((s.epochNow + 1) % 2 ^ 48)
  unfold State.openEpoch
  dsimp only
  generalize (s.setFld SCH_EPOCH_NOW_EPOCH_NUM ((s.epochNow + 1) % 2 ^ 48)).setFld SCH_EPOCH_NOW_SLOT 0 = w at *
  have hgeom : w.time.pendingGeom = none := by
    rw [hrest]
    exact h
  rw [hgeom]
  refine ⟨h1, h2, rfl, h3, ?_⟩
  dsimp only
  rw [hrest]

/-- The controller after a boundary at which an install may be due. -/
def State.installedAt (s : State) (e : BitVec 32) : State :=
  match s.rte.install with
  | some i => if i.committed ∧ i.epoch = e then ((s.installInForce i).checkBounds).showDomainReady else s
  | none => s

/-- The controller after a boundary at which a play may be due. -/
def State.playedAt (s : State) (e : BitVec 32) : State :=
  match s.rte.play with
  | some p =>
    if p.swapEpoch = e then
      let l := (s.rte.gambits.filter fun g => p.gambits.contains g.rec_.gambitId).flatMap fun g => g.rec_.treesReplaced
      ((s.playSwapped p).treesReplaced l).checkBounds
    else s
  | none => s

theorem State.swapController_eq (s : State) : s.swapController = (s.installedAt (BitVec.ofNat 32 s.epochNow)).playedAt (BitVec.ofNat 32 s.epochNow) := by
  unfold State.swapController
  rfl

/-- A boundary with nothing of the controller due at it. -/
theorem State.swapController_idle (s : State) (hi : ∀ i, s.rte.install = some i → i.epoch ≠ BitVec.ofNat 32 s.epochNow)
    (hp : ∀ p, s.rte.play = some p → p.swapEpoch ≠ BitVec.ofNat 32 s.epochNow) : s.swapController = s := by
  have hinst : s.installedAt (BitVec.ofNat 32 s.epochNow) = s := by
    unfold State.installedAt
    split
    · next i h => exact if_neg fun hc => hi i h hc.2
    · rfl
  rw [State.swapController_eq, hinst]
  unfold State.playedAt
  split
  · next p h => exact if_neg (hp p h)
  · rfl

theorem State.epochBoundary_leaves (s : State) (hon : s.pwr.pwrgd = true) {n : Nat} (hn : n = (s.epochNow + 1) % 2 ^ 48)
    (hi : ∀ i, s.rte.install = some i → i.epoch ≠ BitVec.ofNat 32 n) (hp : ∀ p, s.rte.play = some p → p.swapEpoch ≠ BitVec.ofNat 32 n)
    (hg : s.time.pendingGeom = none) : ∃ t, exec .epochBoundary s = .next t
      ∧ t.fld SCH_EPOCH_NOW_EPOCH_NUM = n ∧ t.fld SCH_EPOCH_NOW_SLOT = 0 ∧ t.time.epochTick = 0 ∧ t.reg TIM_NOW = s.reg TIM_NOW
      ∧ t.engines = s.engines ∧ t.queues = s.queues ∧ t.rte = s.rte ∧ t.grp = s.grp := by
  rw [exec_epochBoundary_eq, if_neg (by simp [hon])]
  have hmiss := keepsClock_missedAdjust s (BitVec.ofNat 32 (s.epochNow + 1))
  dsimp only
  generalize s.missedAdjust (BitVec.ofNat 32 (s.epochNow + 1)) = v at *
  obtain ⟨h1, h2, h3, h4, h5⟩ := v.openEpoch_leaves ((congrArg TimeSt.pendingGeom hmiss.time).trans hg)
  have hnow : v.epochNow = s.epochNow := hmiss.fld (by decide) (by decide) (by decide)
  rw [hnow, ← hn] at h1
  have hparts : v.openEpoch.engines = v.engines ∧ v.openEpoch.queues = v.queues ∧ v.openEpoch.rte = v.rte ∧ v.openEpoch.grp = v.grp := by
    rw [h5]
    exact ⟨rfl, rfl, rfl, rfl⟩
  obtain ⟨he, hq, hr, hgrp⟩ := hparts
  generalize v.openEpoch = w at *
  have hagents : w.LinkOnly (({ w with ports := w.ports.mapVals fun _ x => x.epochEnd } : State).forEach (w.agents.map (·.1))
      fun s k => s.openAtAgent (refOfKey k)) :=
    linkOnly_trans (t := { w with ports := w.ports.mapVals fun _ x => x.epochEnd }) rfl (linkOnly_forEach (fun _ _ => linkOnly_openAtAgent _ _) _ _)
  generalize ({ w with ports := w.ports.mapVals fun _ x => x.epochEnd } : State).forEach (w.agents.map (·.1)) (fun s k => s.openAtAgent (refOfKey k)) = x at *
  have hx : x.epochNow = n := (LinkOnly_fld hagents _).trans h1
  have hrte : x.rte = s.rte := (LinkOnly_rte hagents).trans (hr.trans hmiss.rte)
  rw [x.swapController_idle (by rw [hx, hrte]; exact hi) (by rw [hx, hrte]; exact hp)]
  exact ⟨x, rfl, hx, (LinkOnly_fld hagents _).trans h2, (congrArg TimeSt.epochTick (LinkOnly_time hagents)).trans h3,
    (LinkOnly_reg hagents _).trans (h4.trans (hmiss.reg _ (by decide) (by decide) (by decide))),
    (LinkOnly_engines hagents).trans (he.trans hmiss.engines), (LinkOnly_queues hagents).trans (hq.trans hmiss.queues), hrte,
    (LinkOnly_grp hagents).trans (hgrp.trans hmiss.grp)⟩

/-! ## The clauses that are put together -/

theorem exec_slotTick_leaves (hon : s.pwr.pwrgd = true) (hdue : s.col.resetDue = false) (hrest : ∀ x ∈ s.dom.restarts, x.2.1 ≠ []) :
    exec .slotTick s = .next s.ticked := by
  rw [exec_slotTick_eq, if_neg (by simp [hon]), (s.ticked_ticks hrest).2, hdue]
  rfl

theorem exec_timeBaseSwitchover_leaves (h : s.fld TIM_TICK_SOURCE = 0) : ∃ t, exec .timeBaseSwitchover s = .next t ∧ t.fld TIM_TICK_SOURCE = 1
    ∧ t.reg TIM_NOW = s.reg TIM_NOW ∧ t.fld SCH_SYNC_STATUS_STATE = 3 ∧ t.fld SCH_SYNC_STATUS_CAUSE = 4 ∧ t.time.lostNs = some s.now
    ∧ (s.fld TIM_STATUS_PPS = 1 → t.fld TIM_STATUS_PPS = 2) ∧ (s.fld TIM_STATUS_PTP ≠ 0 → t.fld TIM_STATUS_PTP = 4)
    ∧ t.time.epochTick = s.time.epochTick ∧ t.agents = s.agents ∧ t.engines = s.engines ∧ t.pwr = s.pwr := by
  obtain ⟨h1, h2, h3, h4, r, h5⟩ := s.switchedTime_leaves
  have hl := s.switchedTime.loseSync_loses 4
  have hnow : s.switchedTime.now = s.now := congrArg BitVec.toNat h2
  have hparts : s.switchedTime.time = s.time ∧ s.switchedTime.agents = s.agents ∧ s.switchedTime.engines = s.engines ∧ s.switchedTime.pwr = s.pwr := by
    rw [h5]
    exact ⟨rfl, rfl, rfl, rfl⟩
  refine ⟨_, exec_timeBaseSwitchover_due h, ?_⟩
  generalize s.switchedTime = w at *
  generalize w.loseSync 4 = x at *
  obtain ⟨htime, hagents, hengines, hpwr⟩ := hparts
  have hreg (off : Nat) (k1 : off ≠ SCH_SYNC_STATUS) (k2 : off ≠ SCH_ADMIT) (k3 : off ≠ fltSrc 7) (k4 : off ≠ fltSrc 0x60) := hl.reg off k1 k2 k3 k4
  have hfld (f : Field) (hf : x.reg f.off = w.reg f.off) : x.fld f = w.fld f := congrArg f.of hf
  have hstatus := hreg TIM_STATUS (by decide) (by decide) (by decide) (by decide)
  refine ⟨(hfld _ (hreg TIM_TICK (by decide) (by decide) (by decide) (by decide))).trans h1,
    (hreg TIM_NOW (by decide) (by decide) (by decide) (by decide)).trans h2, hl.state, hl.cause, ?_,
    fun hp => (hfld _ hstatus).trans (h3 hp), fun hp => (hfld _ hstatus).trans (h4 hp), ?_, ?_, ?_, ?_⟩
  · rw [hl.time, hnow]
  · rw [hl.time, htime]
  · rw [hl.rest, ← hagents]
  · rw [hl.rest, ← hengines]
  · rw [hl.rest, ← hpwr]

/-- The swap at the epoch of a commit. -/
theorem State.agentSwap_commit_leaves {v e m : BitVec 32} (hp : (s.agent a).play = none) (hc : (s.agent a).commitAt = some (v, e))
    (hcopy : (s.agent a).copying = false) (h : seqLater e m = false) : ((s.agentSwap a m).agent a).active = (s.agent a).shadow
      ∧ ((s.agentSwap a m).agent a).shadow = (s.agent a).shadow ∧ ((s.agentSwap a m).agent a).copying = true
      ∧ ((s.agentSwap a m).agent a).commitAt = none ∧ (s.agentSwap a m).version a = v
      ∧ (s.agentSwap a m).jfld a JX_STATUS_BANK_ACTIVE = (1 - s.jfld a JX_STATUS_BANK_ACTIVE) ∧ (s.agentSwap a m).out = s.out
      ∧ ∀ b, b ≠ a → (s.agentSwap a m).agent b = s.agent b := by
  obtain ⟨⟨x, hx⟩, hv, hb, hpend, ho, hne⟩ := s.swapBanks_leaves a v hcopy
  obtain ⟨hact, hsh⟩ := Agent.bankSwapped_leaves hcopy a.variant (s.agentNow a)
  rw [State.agentSwap_commit hp hc, if_neg (by simp [h]), hx]
  exact ⟨hact, hsh, rfl, rfl, hv, hb, ho, hne⟩

/-- The swap at the epoch of an applied play. -/
theorem State.agentSwap_play_leaves {q : PendingPlay} (hp : (s.agent a).play = some q) (ha : q.applied = true) (hc : (s.agent a).commitAt = none)
    (hcopy : (s.agent a).copying = false) : ((s.agentSwap a q.swapEpoch).agent a).active = (s.agent a).shadow
      ∧ ((s.agentSwap a q.swapEpoch).agent a).play = none ∧ (s.agentSwap a q.swapEpoch).version a = q.resultVersion
      ∧ (s.agentSwap a q.swapEpoch).jfld a JX_STATUS_PLAY_PENDING = 0 ∧ (s.agentSwap a q.swapEpoch).out = s.out := by
  obtain ⟨⟨x, hx⟩, hv, hb, hpend, ho, hne⟩ := s.swapBanks_leaves a q.resultVersion hcopy
  obtain ⟨hact, hsh⟩ := Agent.bankSwapped_leaves hcopy a.variant (s.agentNow a)
  have hout (u : State) (f : Agent → Agent) : (u.updAgent a f).out = u.out := rfl
  rw [State.agentSwap_play hp ha hc]
  generalize s.swapBanks a q.resultVersion = w at *
  have hself : (w.updAgent a fun g => { g with swapOpenedNs := some (w.agentNow a) }).agent a = { w.agent a with swapOpenedNs := some (w.agentNow a) } :=
    State.agent_updAgent_self w a _
  have hfld (f : Field) : (w.updAgent a fun g => { g with swapOpenedNs := some (w.agentNow a) }).jfld a f = w.jfld a f := State.jfld_updAgent rfl f
  refine ⟨by rw [hself, hx]; exact hact, by rw [hself, hx]; rfl, ?_, by rw [hfld, hpend], (hout _ _).trans ho⟩
  rw [State.version, hfld]
  exact hv

end Sys2Proof.Machine

namespace Sys2Proof
open Machine

/-- Settles O22: a tick and a boundary by what their parts leave; the swap by the agent's banks. -/
theorem tickAndEpochResults : Obligations.TickAndEpochResults := by
  refine ⟨fun s a due => ⟨fun h => ?_, fun hon hdue hrest => ?_, ?_, exec_timeBaseSwitchover_done, exec_timeBaseSwitchover_leaves⟩,
    fun s a n hn => ⟨fun hon hi hp hg => s.epochBoundary_leaves hon hn hi hp hg, fun v e hp hc hcopy m => ⟨fun h => ?_, fun h => ?_⟩,
      fun q m hp ha hm hc hcopy => ?_⟩⟩
  · exact ⟨by rw [exec_slotTick_eq, if_pos h], by rw [exec_epochBoundary_eq, if_pos h]⟩
  · obtain ⟨ht, -⟩ := s.ticked_ticks hrest
    exact ⟨s.ticked, exec_slotTick_leaves hon hdue hrest, ht.now, ht.seq, ht.cal, ht.oper, ht.epoch, ht.engines, ht.queues, ht.grp, ht.sec, ht.sq, ht.pwr⟩
  · exact (keepsAccount_afterTick s a due).account.trans (s.tickedAgent_account a due)
  · rw [State.agentSwap_commit hp hc, if_pos h]
  · exact ⟨_, rfl, State.agentSwap_commit_leaves hp hc hcopy h⟩
  · subst hm
    exact ⟨_, rfl, State.agentSwap_play_leaves hp ha hc hcopy⟩

end Sys2Proof
end

section
/-! Frames at a port. -/

namespace Sys2Proof.Machine

variable {s t u : State} {n : Node} {port : Nat}

/-! ## What the link keeps of the last frame heard -/

/-- Every port of the node knows the frame it heard last. -/
def State.KeepsHeard (n : Node) (s t : State) : Prop := ∀ q, (t.port n q).lastRx = (s.port n q).lastRx

theorem State.KeepsHeard.refl (s : State) : s.KeepsHeard n s := fun _ => rfl

theorem State.KeepsHeard.trans (h : s.KeepsHeard n t) (g : t.KeepsHeard n u) : s.KeepsHeard n u := fun q => (g q).trans (h q)

theorem State.KeepsHeard.forEach {α : Type} {f : State → α → State} (h : ∀ (s : State) x, s.KeepsHeard n (f s x)) (l : List α) (s : State) :
    s.KeepsHeard n (s.forEach l f) := by
  induction l generalizing s with
  | nil => exact .refl s
  | cons x l ih => exact (h s x).trans (ih (f s x))

theorem keepsHeard_setPort (s : State) (n : Node) (p : Nat) {x : PortSt} (hx : x.lastRx = (s.port n p).lastRx) : s.KeepsHeard n (s.setPort n p x) := by
  intro q
  by_cases h : q = p
  · rw [h, State.port_setPort_self, hx]
  · rw [State.port_setPort_ne s n x h]

theorem PortSt.start_lastRx (x : PortSt) (now : Nat) (h : Header) : (x.start now h).lastRx = x.lastRx := by
  unfold PortSt.start
  dsimp only
  split
  · split
    · rfl
    · rfl
  · rfl

theorem PortSt.free_lastRx (x : PortSt) (h : Header) (w : Bool) : (x.free h w).lastRx = x.lastRx := by
  unfold PortSt.free
  split
  · rfl
  · split
    · rfl
    · split
      · rfl
      · rfl

theorem PortSt.pump_lastRx (now : Nat) (o : Option Nat) (k : Nat) (x : PortSt) : (PortSt.pump now o k x).1.lastRx = x.lastRx := by
  induction k generalizing x with
  | zero => rfl
  | succ k ih =>
    unfold PortSt.pump
    split
    · rfl
    · next q _ => exact (ih _).trans (x.start_lastRx now q.pkt.hdr)

theorem keepsHeard_startFrame (s : State) (n : Node) (p : Nat) (k : Packet) : s.KeepsHeard n (s.startFrame n p k) := fun q =>
  (congrArg PortSt.lastRx (State.port_emit _ _ n q)).trans (keepsHeard_setPort s n p (PortSt.start_lastRx _ _ _) q)

theorem keepsHeard_sendCredit (s : State) (n : Node) (p : Nat) : s.KeepsHeard n (s.sendCredit n p) := by
  unfold State.sendCredit
  dsimp only
  split
  · exact .refl s
  · split
    · exact (keepsHeard_setPort s n p (x := { s.port n p with lastCreditNs := s.nodeNow n }) rfl).trans (keepsHeard_startFrame _ n p _)
    · exact keepsHeard_setPort s n p rfl

theorem keepsHeard_freeUnits (s : State) (n : Node) (p : Nat) (h : Header) : s.KeepsHeard n (s.freeUnits n p h) := by
  have hreturn (u : State) : u.KeepsHeard n (u.returnCredit n p) := by
    unfold State.returnCredit
    dsimp only
    split
    · exact keepsHeard_sendCredit u n p
    · exact .refl u
  exact (keepsHeard_setPort s n p (PortSt.free_lastRx _ _ _)).trans (hreturn _)

theorem keepsHeard_pumpPort (s : State) (n : Node) (p : Nat) : s.KeepsHeard n (s.pumpPort n p) := by
  have hrecord (s : State) (l : List Sent) : s.KeepsHeard n (s.recordSent n p l) := by
    have hout (v : List Out) : s.KeepsHeard n { s with out := v } := fun q => congrArg PortSt.lastRx (s.port_outs v n q)
    refine (hout _).trans (State.KeepsHeard.forEach (fun s t => ?_) l _)
    split
    · exact keepsHeard_freeUnits s n _ _
    · exact .refl s
  exact (keepsHeard_setPort s n p (PortSt.pump_lastRx _ _ _ _)).trans (hrecord _ _)

theorem keepsHeard_wakeAgentPort (s : State) (n : Node) (p : Nat) : s.KeepsHeard n (s.wakeAgentPort n p) := by
  have hwake (x : PortSt) : x.wake.lastRx = x.lastRx := by
    unfold PortSt.wake
    split
    · rfl
    · rfl
  unfold State.wakeAgentPort
  split
  · exact .refl s
  · split
    · exact keepsHeard_setPort s _ p (hwake _)
    · exact .refl s

/-! ## The checks of a frame (R84, R85) -/

section
variable {f : Frame} {x y : PortSt} {body : State → State}

theorem State.frameIn_uncorrectable (h : f.fecOk = false) : s.frameIn n port f body
    = (s.setPort n port { s.port n port with uncorrectable := min ((s.port n port).uncorrectable + 1) 0xFFFFFFFF }).discard n port 0x0000 := by
  unfold State.frameIn
  dsimp only
  rw [if_pos h]
  rfl

/-- The frame is not later than the last one heard. -/
def PortSt.stale (x : PortSt) (f : Frame) : Bool := match x.lastRx with | some c => decide (f.ctr.toNat ≤ c) | none => false

theorem PortSt.stale_of_le {k : Nat} (h : x.lastRx = some k) (hk : f.ctr.toNat ≤ k) : x.stale f = true := by simp [PortSt.stale, h, hk]

theorem PortSt.not_stale (h : ∀ k, x.lastRx = some k → k < f.ctr.toNat) : x.stale f = false := by
  unfold PortSt.stale
  split
  · next c hc => simpa using h c hc
  · rfl

theorem State.frameIn_eq (s : State) (n : Node) (port : Nat) (f : Frame) (body : State → State) : s.frameIn n port f body =
    let x := s.port n port
    if f.fecOk = false then (s.setPort n port { x with uncorrectable := sat32 x.uncorrectable 1 }).discard n port 0x0000
    else if x.stale f then (s.setPort n port { x with corrected := sat32 x.corrected f.corrected }).discard n port 0x0102
    else if f.tagOk = false then (s.setPort n port { x with corrected := sat32 x.corrected f.corrected }).discard n port 0x0101
    else body (s.setPort n port (x.taken f)) := by
  unfold State.frameIn
  rfl

/-- The port with what FEC corrected counted. -/
def State.correctedPort (s : State) (n : Node) (port : Nat) (f : Frame) : PortSt :=
  { s.port n port with corrected := min ((s.port n port).corrected + f.corrected) 0xFFFFFFFF }

theorem State.frameIn_stale (h : f.fecOk = true) (hs : (s.port n port).stale f = true) :
    s.frameIn n port f body = (s.setPort n port (s.correctedPort n port f)).discard n port 0x0102 := by
  rw [State.frameIn_eq]
  dsimp only
  rw [if_neg (by simp [h]), if_pos hs]
  rfl

theorem State.frameIn_badTag (h : f.fecOk = true) (hs : (s.port n port).stale f = false) (ht : f.tagOk = false) :
    s.frameIn n port f body = (s.setPort n port (s.correctedPort n port f)).discard n port 0x0101 := by
  rw [State.frameIn_eq]
  dsimp only
  rw [if_neg (by simp [h]), if_neg (by simp [hs]), if_pos ht]
  rfl

theorem State.frameIn_passed (h : f.fecOk = true) (hs : (s.port n port).stale f = false) (ht : f.tagOk = true) :
    s.frameIn n port f body = body (s.setPort n port ((s.port n port).taken f)) := by
  rw [State.frameIn_eq]
  dsimp only
  rw [if_neg (by simp [h]), if_neg (by simp [hs]), if_neg (by simp [ht])]

theorem exec_frameReceive_eq (s : State) (n : Node) (port : Nat) (f : Frame) : exec (.frameReceive n port f) s = .next (s.frameIn n port f fun s =>
    if f.pkt.hdr.isCredit then s.takeCreditFrame n port f.pkt.hdr else s.takeFrame n port f.pkt) := rfl

theorem exec_creditFrame_eq (s : State) (n : Node) (port : Nat) (f : Frame) : exec (.creditFrame n port f) s
    = .next (s.frameIn n port f fun s => s.takeCreditFrame n port f.pkt.hdr) := rfl

/-- A frame of either command is checked, whatever follows the checks. -/
theorem exec_frame_checked {c : Instr} (hc : c ∈ [Instr.frameReceive n port f, .creditFrame n port f]) :
    ∃ body, exec c s = .next (s.frameIn n port f body) := by
  simp only [List.mem_cons, List.not_mem_nil, or_false] at hc
  obtain rfl | rfl := hc
  · exact ⟨_, exec_frameReceive_eq s n port f⟩
  · exact ⟨_, exec_creditFrame_eq s n port f⟩

/-! ## The port a frame has passed to (R83, R89, R90) -/

theorem PortSt.account_leaves (x : PortSt) (h : Header) : (x.account h).lastRx = x.lastRx ∧ (x.account h).corrected = x.corrected
    ∧ (x.account h).rxKey = x.rxKey ∧ (x.account h).rxFrames = x.rxFrames ∧ (x.account h).rxBoot = x.rxBoot ∧ (x.account h).scrub = x.scrub := by
  unfold PortSt.account
  split
  · exact ⟨rfl, rfl, rfl, rfl, rfl, rfl⟩
  · split
    · exact ⟨rfl, rfl, rfl, rfl, rfl, rfl⟩
    · exact ⟨rfl, rfl, rfl, rfl, rfl, rfl⟩

/-- The receive key of the port changes with this frame. -/
def PortSt.activates (x : PortSt) (f : Frame) : Bool := match x.rxAct with | some c => decide (c ≤ f.ctr.toNat) | none => false

theorem PortSt.taken_leaves (x : PortSt) (f : Frame) : (x.taken f).lastRx = some f.ctr.toNat
    ∧ (x.taken f).corrected = min (x.corrected + f.corrected) 0xFFFFFFFF
    ∧ (x.taken f).rxKey = (if x.activates f then x.rxNext else x.rxKey)
    ∧ (x.taken f).rxFrames = (if x.activates f then 1 else x.rxFrames + 1) ∧ (x.taken f).rxBoot = (x.rxBoot && !x.activates f)
    ∧ (x.taken f).scrub = x.scrub := PortSt.account_leaves _ f.pkt.hdr

/-- The units that an audit names, by pool (R90). -/
def auditUnits (h : Header) : Pools :=
  { control := bitsAt h.addr.toNat 32 16, collData := bitsAt h.addr.toNat 16 16, collShort := bitsAt h.addr.toNat 0 16, bulk := bitsAt h.aux.toNat 0 16 }

theorem Pools.get_spread (q : Pools) (d : Nat → Nat) {i : Nat} (hi : i < 4) :
    ((((q.add 0 (d 0)).add 1 (d 1)).add 2 (d 2)).add 3 (d 3)).get i = q.get i + d i := by
  obtain rfl | rfl | rfl | rfl : i = 0 ∨ i = 1 ∨ i = 2 ∨ i = 3 := by omega
  · rfl
  · rfl
  · rfl
  · rfl

theorem bitsAt_lt (n lo w : Nat) : bitsAt n lo w < 2 ^ w := Nat.mod_lt _ (Nat.two_pow_pos w)

theorem auditUnits_get (h : Header) {i : Nat} (hi : i < 4) : (auditUnits h).get i
      = [bitsAt h.addr.toNat 32 16, bitsAt h.addr.toNat 16 16, bitsAt h.addr.toNat 0 16, bitsAt h.aux.toNat 0 16].getD i 0
    ∧ (auditUnits h).get i < 65536 := by
  obtain rfl | rfl | rfl | rfl : i = 0 ∨ i = 1 ∨ i = 2 ∨ i = 3 := by omega
  · exact ⟨rfl, bitsAt_lt _ _ 16⟩
  · exact ⟨rfl, bitsAt_lt _ _ 16⟩
  · exact ⟨rfl, bitsAt_lt _ _ 16⟩
  · exact ⟨rfl, bitsAt_lt _ _ 16⟩

/-- The audit accounts for and frees the difference to the units that the frame names. -/
theorem PortSt.audit_units (x : PortSt) (h : Header) {i : Nat} (hi : i < 4) :
    (x.audit h).accounted.get i % 65536 = [bitsAt h.addr.toNat 32 16, bitsAt h.addr.toNat 16 16, bitsAt h.addr.toNat 0 16, bitsAt h.aux.toNat 0 16].getD i 0
    ∧ (x.audit h).freed.get i + x.accounted.get i = x.freed.get i + (x.audit h).accounted.get i := by
  obtain ⟨hget, hlt⟩ := auditUnits_get h hi
  have hacc : (x.audit h).accounted.get i = x.accounted.get i + ((auditUnits h).get i + 65536 - x.accounted.get i % 65536) % 65536 :=
    Pools.get_spread x.accounted (fun i => ((auditUnits h).get i + 65536 - x.accounted.get i % 65536) % 65536) hi
  have hfreed : (x.audit h).freed.get i = x.freed.get i + ((auditUnits h).get i + 65536 - x.accounted.get i % 65536) % 65536 :=
    Pools.get_spread x.freed (fun i => ((auditUnits h).get i + 65536 - x.accounted.get i % 65536) % 65536) hi
  rw [← hget, hacc, hfreed]
  omega

/-! ## A packet that passed (R84, R336, R346) -/

/-- The port with the time of its last frame. -/
def State.heardPort (s : State) (n : Node) (port : Nat) (h : Header) : PortSt :=
  if (s.port n port).sleepTalk h then s.port n port else { s.port n port with lastFrameNs := s.nodeNow n, sleepAsked := false }

/-- The node at which a frame of a packet has arrived: its port is awake and sends what fits. -/
def State.heard (s : State) (n : Node) (port : Nat) (h : Header) : State :=
  ((s.setPort n port (s.heardPort n port h)).wakeAgentPort n port).pumpPort n port

/-- A packet that passed every check is delivered at the controller and taken on by an agent. -/
def State.passFrame (s : State) (n : Node) (port : Nat) (p : Packet) : State :=
  match n with
  | .ctl => (((s.heard .ctl port p.hdr).noteTraffic .ctl port p.hdr).emit (.delivered .ctl port p)).freeUnits .ctl port p.hdr
  | .agent a => (((s.heard (.agent a) port p.hdr).noteTraffic (.agent a) port p.hdr).sample a port p.hdr).agentTake a port p

theorem State.takeFrame_eq (s : State) (n : Node) (port : Nat) (p : Packet) : s.takeFrame n port p =
    match (if (s.heardPort n port p.hdr).rxBoot ∧ p.hdr.cls ≠ .control then some 0x0103 else headerFault p.hdr) with
    | some d => ((s.heard n port p.hdr).discard n port d).freeUnits n port p.hdr
    | none =>
      if (s.heardPort n port p.hdr).scrubBlocks p.hdr then
        (((s.heard n port p.hdr).discard n port 0x0120 0).countScrub (s.heardPort n port p.hdr) p.hdr).freeUnits n port p.hdr
      else s.passFrame n port p := by
  unfold State.takeFrame State.passFrame State.heard State.heardPort
  cases n <;> rfl

theorem State.heardPort_leaves (s : State) (n : Node) (port : Nat) (h : Header) : (s.heardPort n port h).rxBoot = (s.port n port).rxBoot
    ∧ (s.heardPort n port h).scrub = (s.port n port).scrub ∧ (s.heardPort n port h).lastRx = (s.port n port).lastRx := by
  unfold State.heardPort
  split
  · exact ⟨rfl, rfl, rfl⟩
  · exact ⟨rfl, rfl, rfl⟩

theorem State.heard_leaves (s : State) (n : Node) (port : Nat) (h : Header) : s.LinkOnly (s.heard n port h)
    ∧ ((s.heard n port h).port n port).lastRx = (s.port n port).lastRx :=
  ⟨linkOnly_trans (linkOnly_trans (linkOnly_setPort s n port _) (linkOnly_wakeAgentPort _ n port)) (linkOnly_pumpPort _ n port),
    ((((keepsHeard_setPort s n port (s.heardPort_leaves n port h).2.2).trans (keepsHeard_wakeAgentPort _ n port)).trans (keepsHeard_pumpPort _ n port)) port)⟩

theorem PortSt.scrubBlocks_congr {x y : PortSt} (h : y.scrub = x.scrub) (k : Header) : y.scrubBlocks k = x.scrubBlocks k := by
  unfold PortSt.scrubBlocks
  rw [h]

theorem State.countScrub_congr {x y : PortSt} (h : y.scrub = x.scrub) (s : State) (k : Header) : s.countScrub y k = s.countScrub x k := by
  unfold State.countScrub
  rw [h]

section
variable {p : Packet}

theorem State.takeFrame_boot (h : (s.port n port).rxBoot = true) (hc : p.hdr.cls ≠ .control) :
    s.takeFrame n port p = ((s.heard n port p.hdr).discard n port 0x0103).freeUnits n port p.hdr := by
  rw [State.takeFrame_eq, if_pos ⟨(s.heardPort_leaves n port p.hdr).1.trans h, hc⟩]

theorem State.takeFrame_checked (h : (s.port n port).rxBoot = false ∨ p.hdr.cls = .control) :
    ¬((s.heardPort n port p.hdr).rxBoot = true ∧ p.hdr.cls ≠ .control) := by
  rintro ⟨hb, hc⟩
  rw [(s.heardPort_leaves n port p.hdr).1] at hb
  obtain h | h := h
  · simp [h] at hb
  · exact hc h

theorem State.takeFrame_fault (h : (s.port n port).rxBoot = false ∨ p.hdr.cls = .control) {d : BitVec 16} (hd : headerFault p.hdr = some d) :
    s.takeFrame n port p = ((s.heard n port p.hdr).discard n port d).freeUnits n port p.hdr := by
  rw [State.takeFrame_eq, if_neg (State.takeFrame_checked h), hd]

theorem State.takeFrame_scrub (h : (s.port n port).rxBoot = false ∨ p.hdr.cls = .control) (hd : headerFault p.hdr = none) {x : PortSt}
    (hx : (s.port n port).scrub = x.scrub) (hb : x.scrubBlocks p.hdr = true) :
    s.takeFrame n port p = (((s.heard n port p.hdr).discard n port 0x0120 0).countScrub x p.hdr).freeUnits n port p.hdr := by
  have hs := (s.heardPort_leaves n port p.hdr).2.1.trans hx
  rw [State.takeFrame_eq, if_neg (State.takeFrame_checked h), hd]
  dsimp only
  rw [if_pos ((PortSt.scrubBlocks_congr hs _).trans hb), State.countScrub_congr hs]

theorem State.takeFrame_passed (h : (s.port n port).rxBoot = false ∨ p.hdr.cls = .control) (hd : headerFault p.hdr = none) {x : PortSt}
    (hx : (s.port n port).scrub = x.scrub) (hb : x.scrubBlocks p.hdr = false) :
    s.takeFrame n port p = s.passFrame n port p := by
  have hs := (s.heardPort_leaves n port p.hdr).2.1.trans hx
  rw [State.takeFrame_eq, if_neg (State.takeFrame_checked h), hd]
  dsimp only
  rw [if_neg (by rw [PortSt.scrubBlocks_congr hs, hb]; simp)]

end

end

end Sys2Proof.Machine

namespace Sys2Proof
open Machine

/-- Settles O28: each check by the first one that fails; a frame that passes by what its port leaves. -/
theorem frameResults : Obligations.FrameResults := by
  rintro s u n port f x y h rfl rfl rfl rfl
  obtain ⟨hrx, hcor, hkey, hfr, hboot, hscrub⟩ := (s.port n port).taken_leaves f
  refine ⟨fun c hc => ?_, ⟨hrx, hcor, fun k hk hle => ?_, fun hk => ?_⟩, fun hfec hlate htag => ⟨fun c hc => ⟨?_, ?_⟩, fun hcr => ?_⟩⟩
  · obtain ⟨body, hb⟩ := exec_frame_checked (s := s) hc
    rw [hb]
    refine ⟨fun hf => by rw [State.frameIn_uncorrectable hf], fun hf v hv => ⟨fun k hk hle => ?_, fun hl ht => ?_⟩⟩
    · rw [State.frameIn_stale hf (PortSt.stale_of_le hk hle), hv, State.correctedPort]
    · rw [State.frameIn_badTag hf (PortSt.not_stale hl) ht, hv, State.correctedPort]
  · have hact : (s.port n port).activates f = true := by simp [PortSt.activates, hk, hle]
    rw [hkey, hfr, hboot, hact]
    simp
  · have hact : (s.port n port).activates f = false := by simp [PortSt.activates, hk]
    rw [hkey, hfr, hboot, hact]
    simp
  · have hcredit : exec c s = .next ((s.setPort n port ((s.port n port).taken f)).takeCreditFrame n port f.pkt.hdr) := by
      obtain rfl | ⟨rfl, hcr⟩ := hc
      · rw [exec_creditFrame_eq, State.frameIn_passed hfec (PortSt.not_stale hlate) htag]
      · rw [exec_frameReceive_eq, State.frameIn_passed hfec (PortSt.not_stale hlate) htag, if_pos hcr]
    rw [hcredit, State.takeCreditFrame, State.port_setPort_self]
  · rintro l rfl i hi
    exact PortSt.audit_units _ _ hi
  · have hexec : exec (.frameReceive n port f) s = .next ((s.setPort n port ((s.port n port).taken f)).takeFrame n port f.pkt) := by
      rw [exec_frameReceive_eq, State.frameIn_passed hfec (PortSt.not_stale hlate) htag, if_neg (by simp [hcr])]
    have hset := linkOnly_setPort s n port ((s.port n port).taken f)
    have hself := State.port_setPort_self s n port ((s.port n port).taken f)
    rw [hexec]
    generalize s.setPort n port ((s.port n port).taken f) = v at *
    obtain ⟨hlink, hheard⟩ := v.heard_leaves n port f.pkt.hdr
    have hall := linkOnly_trans hset hlink
    have hvscrub : (v.port n port).scrub = (s.port n port).scrub := by rw [hself, hscrub]
    refine ⟨v.heard n port f.pkt.hdr, by rw [hheard, hself, hrx], LinkOnly_regs hall, LinkOnly_engines hall, LinkOnly_queues hall,
      fun hb hc => ?_, fun hb => ⟨fun d hd => ?_, fun hd hb' => ?_, fun hd hb' => ⟨fun hn => ?_, fun a hn => ?_⟩⟩⟩
    · rw [State.takeFrame_boot (by rw [hself]; exact hb) hc]
    · rw [State.takeFrame_fault (by rw [hself]; exact hb) hd]
    · rw [State.takeFrame_scrub (by rw [hself]; exact hb) hd hvscrub hb']
    · subst hn
      rw [State.takeFrame_passed (by rw [hself]; exact hb) hd hvscrub hb', State.passFrame]
    · subst hn
      rw [State.takeFrame_passed (by rw [hself]; exact hb) hd hvscrub hb', State.passFrame]

end Sys2Proof
end

section
/-! The commands of the queues. -/

namespace Sys2Proof.Machine

variable {s t u : State} {q : Nat} {c : Cmd}

/-! ## The checks that every command meets (R205, R214, R217, R219) -/

/-- The level a command needs. -/
def cmdLevel (op : Nat) (c : Cmd) : Level := if op = 1 ∧ leAt c.bytes 8 1 < 32 then .operator else .tenant

/-- The commands that start in their queue's order, with their opcodes. -/
def queueCmds (q : Nat) (b1 b2 : Bool) (bd : Bundle) : List (Nat × Instr) :=
  [(1, .load q b1), (2, .unload q), (3, .run q), (3, .engineGrant q), (4, .cancel q), (5, .imgload q b1 b2), (6, .imgfree q), (7, .admission q bd)]

theorem exec_queueCmd {op : Nat} {i : Instr} {b1 b2 : Bool} {bd : Bundle} (h : (op, i) ∈ queueCmds q b1 b2 bd) :
    ∃ lv body, (∀ c, lv c = cmdLevel op c) ∧ exec i s = .next (s.startCmd q (· == op) lv body) := by
  have htenant (op : Nat) (h1 : op ≠ 1) (c : Cmd) : Level.tenant = cmdLevel op c := (if_neg fun h => h1 h.1).symm
  simp only [queueCmds, List.mem_cons, Prod.mk.injEq, List.not_mem_nil, or_false] at h
  obtain ⟨rfl, rfl⟩ | ⟨rfl, rfl⟩ | ⟨rfl, rfl⟩ | ⟨rfl, rfl⟩ | ⟨rfl, rfl⟩ | ⟨rfl, rfl⟩ | ⟨rfl, rfl⟩ | ⟨rfl, rfl⟩ := h
  · exact ⟨_, _, fun c => by simp [cmdLevel], rfl⟩
  · exact ⟨_, _, htenant 2 (by decide), rfl⟩
  · exact ⟨_, _, htenant 3 (by decide), rfl⟩
  · exact ⟨_, _, htenant 3 (by decide), rfl⟩
  · exact ⟨_, _, htenant 4 (by decide), rfl⟩
  · exact ⟨_, _, htenant 5 (by decide), rfl⟩
  · exact ⟨_, _, htenant 6 (by decide), rfl⟩
  · exact ⟨_, _, htenant 7 (by decide), rfl⟩

theorem State.queueLevel_rank (s : State) (q : Nat) : (s.queueLevel q = .tenant ∧ levelRank (s.queueLevel q) = levelRank .tenant)
    ∨ (s.queueLevel q = .operator ∧ levelRank (s.queueLevel q) = levelRank .operator) := by
  unfold State.queueLevel
  split
  · exact .inr ⟨rfl, rfl⟩
  · exact .inl ⟨rfl, rfl⟩

section
variable {op : Nat} {lv : Cmd → Level} {body : State → Cmd → State}

theorem State.startCmd_blocked (h : s.mirrorBlocks (some 4) = true) : s.startCmd q (· == op) lv body = s := by
  unfold State.startCmd
  split
  · rfl
  · exact if_pos (.inr h)

/-- A command of its opcode, at the checks behind its form. -/
theorem State.startCmd_formed (h : nextStart (s.queue q).cmds = some c) (ho : c.opcode = op) (hw : c.wellFormed = true)
    (hm : s.mirrorBlocks (some 4) = false) : s.startCmd q (· == op) lv body =
    if levelRank (s.queueLevel q) < levelRank (lv c) then (s.endCmd q c 0 0).countViolation (s.queueLevel q)
    else if s.queueLevel q = .tenant ∧ s.partActive (s.queuePartition q) = false then s.endCmd q c 2 9
    else if c.readFailed then s.endCmd q c 2 4
    else if c.hostRange.2 ≠ 0 ∧ c.data.isNone then s
    else body s c := by
  unfold State.startCmd
  rw [h]
  dsimp only
  rw [if_neg (by simp [ho, hm]), if_neg (by simp [hw])]

/-- A command that needs the operator's level, at a tenant's queue. -/
theorem State.startCmd_level (h : nextStart (s.queue q).cmds = some c) (ho : c.opcode = op) (hw : c.wellFormed = true)
    (hm : s.mirrorBlocks (some 4) = false) (hl : lv c = .operator) (hq : s.queueLevel q = .tenant) :
    s.startCmd q (· == op) lv body = (s.endCmd q c 0 0).satFld FLT_VIOL_TENANT 1 := by
  rw [State.startCmd_formed h ho hw hm, if_pos (by rw [hl, hq]; decide), hq]
  rfl

/-- A command at a queue of the level it needs. -/
theorem State.startCmd_levelOk (h : nextStart (s.queue q).cmds = some c) (ho : c.opcode = op) (hw : c.wellFormed = true)
    (hm : s.mirrorBlocks (some 4) = false) (hl : lv c = .tenant ∨ s.queueLevel q ≠ .tenant) (hlv : lv c = .tenant ∨ lv c = .operator) :
    s.startCmd q (· == op) lv body =
    if s.queueLevel q = .tenant ∧ s.partActive (s.queuePartition q) = false then s.endCmd q c 2 9
    else if c.readFailed then s.endCmd q c 2 4
    else if c.hostRange.2 ≠ 0 ∧ c.data.isNone then s
    else body s c := by
  rw [State.startCmd_formed h ho hw hm, if_neg]
  obtain ⟨hq, hr⟩ | ⟨hq, hr⟩ := s.queueLevel_rank q
  · obtain hl | hl := hl
    · rw [hr, hl]
      decide
    · exact absurd hq hl
  · rw [hr]
    obtain hlv | hlv := hlv
    · rw [hlv]
      decide
    · rw [hlv]
      decide

end

theorem cmdLevel_cases (op : Nat) (c : Cmd) : cmdLevel op c = .tenant ∨ cmdLevel op c = .operator := by
  unfold cmdLevel
  split
  · exact .inr rfl
  · exact .inl rfl

theorem exec_cmdNop_undefined (h : nextStart (s.queue q).cmds = some c) (hm : s.mirrorBlocks (some 4) = false) (ho : 7 < c.opcode) :
    exec (.cmdNop q) s = .next (s.endCmd q c 2 1) := by
  have hw : c.wellFormed = false := by
    unfold Cmd.wellFormed
    have : ¬c.opcode ≤ 7 := by omega
    simp [this]
  exact congrArg Host.Outcome.next (State.startCmd_malformed h (by simp [ho]) hw hm)

/-! ## The commands that start -/

theorem exec_load_starts {b : Bool} (h : s.starts q c 1 (if leAt c.bytes 8 1 < 32 then .operator else .tenant)) : exec (.load q b) s = .next (
    let slot := leAt c.bytes 8 1
    let l := c.data.getD []
    let p := programOf l (s.queueLevel q) (s.queuePartition q)
    if slot < 8 ∨ (s.programs.get slot).isSome ∨ (slot < 32 ∧ s.voters < 3) then s.endCmd q c 2 7
    else if programOk l = false then s.endCmd q c 2 1
    else if programDigestOk l = false then s.endCmd q c 2 5
    else if slot < 32 then
      if p.signed = false ∨ p.level ≠ .vendor ∨ b = false then s.endCmd q c 2 5
      else (({ s with programs := s.programs.set slot p } : State).extendMeas 2 (BitVec.ofNat 384 (beAt l 16 48))).endCmd q c 0 0 (BitVec.ofNat 64 slot)
    else if p.signed ∨ p.level ≠ s.queueLevel q then s.endCmd q c 2 5
    else ({ s with programs := s.programs.set slot p } : State).endCmd q c 0 0 (BitVec.ofNat 64 slot)) :=
  congrArg Host.Outcome.next (State.startCmd_starts h rfl rfl)

theorem exec_unload_starts (h : s.starts q c 2 .tenant) : exec (.unload q) s = .next (
    if leAt c.bytes 8 1 < 32 then s.endCmd q c 2 7
    else if (s.seesSlot q (leAt c.bytes 8 1)).isNone then s.endCmd q c 2 2
    else ({ s with programs := s.programs.erase (leAt c.bytes 8 1) } : State).endCmd q c 0 0) :=
  congrArg Host.Outcome.next (State.startCmd_starts h rfl rfl)

/-- What a RUN that starts does. -/
def State.runBody (s : State) (q : Nat) (c : Cmd) : State :=
  match s.seesSlot q c.runSlot with
  | none => s.endCmd q c 2 2
  | some p =>
    if bindingsOk (c.data.getD []) c.runBinds = false then s.endCmd q c 2 3
    else if s.cq q CTL_CQn_CFG_MAX_ENGINES ≤ (s.queue q).running then s
    else match s.freeEngine c.runEngine with
      | none => s
      | some e =>
        if s.grantNext ≠ some q then s
        else
          let s : State := { s with turn := { s.turn with granted := q } }
          if c.runSlot < 8 then s.runVendor q c e c.runSlot else s.startProgram q c p e

theorem exec_run_starts (h : s.starts q c 3 .tenant) {i : Instr} (hi : i ∈ [Instr.run q, .engineGrant q]) : exec i s = .next (s.runBody q c) := by
  simp only [List.mem_cons, List.not_mem_nil, or_false] at hi
  obtain rfl | rfl := hi
  · exact congrArg Host.Outcome.next (State.startCmd_starts h rfl rfl)
  · exact congrArg Host.Outcome.next (State.startCmd_starts h rfl rfl)

theorem exec_cancel_starts (h : s.starts q c 4 .tenant) : exec (.cancel q) s = .next (
    match ((s.markStarted q c).queue q).cmds.find? fun t => t != { c with state := CmdState.started } && t.cmdId == leAt c.bytes 8 4 with
    | some t => ((s.markStarted q c).cancelCmd q t 1).endCmd q { c with state := CmdState.started } 0 0 1
    | none => (s.markStarted q c).endCmd q { c with state := CmdState.started } 0 0 0) :=
  congrArg Host.Outcome.next (State.startCmd_starts h rfl rfl)

/-- What an IMGLOAD does by where its image is placed. -/
def State.placeBody (s : State) (q : Nat) (c : Cmd) (selfCheckOk signed : Bool) (lvl : Level) : ImageLoad → State
  | .refused r => s.endCmd q c 2 r
  | .waits qs => s.forEach qs fun s k => s.ungateReq (if s.queueLevel q = .tenant then 3 else 2) k
  | .loaded k tiles =>
    if selfCheckOk = false then s.endCmd q c 2 8
    else
      let l := c.data.getD []
      let s := s.addImage k tiles l lvl (s.queueLevel q) (s.queuePartition q)
      let s := if signed then s.extendMeas 3 (BitVec.ofNat 384 (beAt l 16 48)) else s
      s.endCmd q c 0 0 (BitVec.ofNat 64 k)

/-- What an IMGLOAD that starts does. -/
def State.imgloadBody (s : State) (q : Nat) (c : Cmd) (sigOk selfCheckOk : Bool) (signed : Bool) (lvl : Level) : State :=
  let l := c.data.getD []
  if imageHeaderOk l = false then s.endCmd q c 2 1
  else if imageDigestOk l = false ∨ (signed ∧ sigOk = false) ∨ (signed = false ∧ lvl ≠ s.queueLevel q) then s.endCmd q c 2 5
  else s.placeBody q c selfCheckOk signed lvl (s.placeImage l lvl (s.queueLevel q) (s.queuePartition q))

theorem exec_imgload_starts {b1 b2 : Bool} (h : s.starts q c 5 .tenant) : exec (.imgload q b1 b2) s = .next (
    s.imgloadBody q c b1 b2 (leAt (c.data.getD []) 2 1 / 4 % 2 == 1)
      (if (leAt (c.data.getD []) 2 1 / 4 % 2 == 1) = true then Level.vendor else levelOf (leAt (c.data.getD []) 2 1 % 4))) :=
  congrArg Host.Outcome.next (State.startCmd_starts h rfl rfl)

/-- An image whose header, digest and signature or level are right, by where it is placed. -/
theorem State.imgloadBody_placed {b1 b2 signed : Bool} {lvl : Level} {pl : ImageLoad} (hok : imageHeaderOk (c.data.getD []) = true)
    (hdig : imageDigestOk (c.data.getD []) = true) (hsig : (signed = true ∧ b1 = true) ∨ (signed = false ∧ lvl = s.queueLevel q))
    (hpl : pl = s.placeImage (c.data.getD []) lvl (s.queueLevel q) (s.queuePartition q)) :
    (∀ r, pl = .refused r → s.imgloadBody q c b1 b2 signed lvl = s.endCmd q c 2 r)
    ∧ (∀ qs, pl = .waits qs → s.imgloadBody q c b1 b2 signed lvl = s.forEach qs fun s k => s.ungateReq (if s.queueLevel q = .tenant then 3 else 2) k)
    ∧ (∀ k tiles u, pl = .loaded k tiles → u = s.addImage k tiles (c.data.getD []) lvl (s.queueLevel q) (s.queuePartition q) →
      s.imgloadBody q c b1 false signed lvl = s.endCmd q c 2 8
      ∧ (signed = false → s.imgloadBody q c b1 true signed lvl = u.endCmd q c 0 0 (BitVec.ofNat 64 k))
      ∧ (signed = true → s.imgloadBody q c b1 true signed lvl
          = (u.extendMeas 3 (BitVec.ofNat 384 (beAt (c.data.getD []) 16 48))).endCmd q c 0 0 (BitVec.ofNat 64 k))) := by
  have hgo : ¬(imageDigestOk (c.data.getD []) = false ∨ (signed = true ∧ b1 = false) ∨ (signed = false ∧ lvl ≠ s.queueLevel q)) := by
    obtain ⟨h1, h2⟩ | ⟨h1, h2⟩ := hsig
    · simp [hdig, h1, h2]
    · simp [hdig, h1, h2]
  have hbody (b : Bool) : s.imgloadBody q c b1 b signed lvl = s.placeBody q c b signed lvl pl := by
    rw [State.imgloadBody, if_neg (by simp [hok]), if_neg hgo, hpl]
  refine ⟨fun r h => by rw [hbody, h]; rfl, fun qs h => by rw [hbody, h]; rfl, fun k tiles u h hu => ⟨?_, fun hs => ?_, fun hs => ?_⟩⟩
  · rw [hbody, h]
    rfl
  · rw [hbody, h, hu, hs]
    rfl
  · rw [hbody, h, hu, hs]
    rfl

theorem exec_imgfree_starts (h : s.starts q c 6 .tenant) : exec (.imgfree q) s = .next (
    match s.sq.images.get (leAt c.bytes 8 4) with
    | none => s.endCmd q c 2 1
    | some i =>
      if s.queueLevel q = .tenant ∧ (i.level ≠ .tenant ∨ i.partition.toNat ≠ s.queuePartition q) then
        (s.endCmd q c 0 0).satFld FLT_VIOL_TENANT 1
      else if i.freeing then s.endCmd q c 0 0
      else ({ s with sq := { s.sq with images := s.sq.images.set (leAt c.bytes 8 4) { i with freeing := true, freeCmd := some (q, c.cmdId) } } } :
        State).markStarted q c) :=
  congrArg Host.Outcome.next (State.startCmd_starts h rfl rfl)

theorem exec_admission_starts {b : Bundle} (h : s.starts q c 7 .tenant) : exec (.admission q b) s = .next (
    if s.queueLevel q = .tenant ∧ b.partition.toNat ≠ s.queuePartition q then (s.endCmd q c 0 0).satFld FLT_VIOL_TENANT 1
    else match s.checkBundle b with
      | .refused r => (s.countRefused b).refuseAdmit q c r
      | .taken n sets =>
        if sets.isEmpty then (((s.takeBundle b n).markStarted q c).finishInstall (.admission q c.cmdId n c.irq) 0 0).showStalled q
        else ((s.takeBundle b n).markStarted q c).submitInstall sets (.admission q c.cmdId n c.irq)) :=
  congrArg Host.Outcome.next (State.startCmd_starts h rfl rfl)

/-! ## The rotation of RUN (R203) -/

/-- A RUN that only waits for its grant. -/
theorem State.runWaits_of_starts {p : Program} {e : Nat} (h : s.starts q c 3 .tenant) (hp : s.seesSlot q c.runSlot = some p)
    (hb : bindingsOk (c.data.getD []) c.runBinds = true) (hr : (s.queue q).running < s.cq q CTL_CQn_CFG_MAX_ENGINES)
    (he : s.freeEngine c.runEngine = some e) : s.runWaits q = true := by
  obtain ⟨hn, ho, hw, -, ha, hf, hd, -⟩ := h
  have hpart : (s.queueLevel q != .tenant || s.partActive (s.queuePartition q)) = true := by
    by_cases hq : s.queueLevel q = .tenant
    · simp [ha hq]
    · simp [hq]
  unfold State.runWaits
  rw [hn]
  simp only [ho, hw, hf, hpart, hp, hb, hr, he]
  simpa using hd

/-- The only queue whose RUN waits has its turn. -/
theorem State.grantNext_only (hq : q < 64) (h : s.runWaits q = true) (ho : ∀ k, k < 64 → k ≠ q → s.runWaits k = false) : s.grantNext = some q := by
  have hmod (k : Nat) : (s.turn.granted + 1 + k) % 64 < 64 := Nat.mod_lt _ (by decide)
  have honly (k : Nat) (hk : s.runWaits ((s.turn.granted + 1 + k) % 64) = true) : (s.turn.granted + 1 + k) % 64 = q := by
    by_contra hne
    rw [ho _ (hmod k) hne] at hk
    simp at hk
  unfold State.grantNext
  cases hfind : (List.range 64).find? fun k => s.runWaits ((s.turn.granted + 1 + k) % 64) with
  | some k => exact congrArg some (honly k (List.find?_some (p := fun k => s.runWaits ((s.turn.granted + 1 + k) % 64)) hfind))
  | none =>
    have hk := List.find?_eq_none.1 hfind ((q + 64 * (s.turn.granted + 1) - (s.turn.granted + 1)) % 64) (List.mem_range.2 (Nat.mod_lt _ (by decide)))
    have hself : (s.turn.granted + 1 + (q + 64 * (s.turn.granted + 1) - (s.turn.granted + 1)) % 64) % 64 = q := by omega
    rw [hself] at hk
    exact absurd h hk

/-! ## Images that are freed (R224) -/

theorem exec_imgfreeComplete_eq (s : State) (k : Nat) : exec (.imgfreeComplete k) s = match s.sq.images.get k with
    | none => .next s
    | some i =>
      if i.freeing = false ∨ s.imageOpen k ∨ i.runs ≠ [] then .next s
      else match i.freeCmd with
        | none => .next (s.dropImage k)
        | some (q, id) =>
          match ((s.dropImage k).queue q).cmds.find? fun c => c.cmdId == id && c.opcode == 6 && c.state == .started with
          | some c => .next ((s.dropImage k).completeCmd q c (c.record 0 0))
          | none => .next (s.dropImage k) := rfl

theorem State.queue_dropImage (s : State) (k q : Nat) : (s.dropImage k).queue q = s.queue q := rfl

end Sys2Proof.Machine

namespace Sys2Proof
open Machine

/-- Settles O44: the checks at the start of a command, then each command by what it does when it starts. -/
theorem commandResults : Obligations.CommandResults := by
  rintro s q slot c b1 b2 bd l rfl rfl
  refine ⟨fun op i hi => ?_, fun h => ?_, fun hn hm ho => exec_cmdNop_undefined hn hm ho, fun h p hp => ?_, fun h => ?_, fun h i hi => ?_,
    fun h u hu d hd => ?_, fun h signed lvl hs hl => ?_, fun h k hk => ?_, fun h => ?_, fun k hk => ?_, fun k i hk => ?_⟩
  · obtain ⟨lv, body, hlv, hex⟩ := exec_queueCmd (s := s) hi
    rw [hex]
    refine ⟨fun h => ?_, fun hn hm => ⟨fun ho => ?_, fun ho hw => ?_, fun ho hw h1 hslot hq => ?_, fun ho hw hok => ?_⟩⟩
    · obtain h | h := h
      · rw [State.startCmd_none h]
      · rw [State.startCmd_blocked h]
    · rw [State.startCmd_other hn (by simpa using ho)]
    · rw [State.startCmd_malformed hn (by simpa using ho) hw hm]
    · rw [State.startCmd_level hn ho hw hm ((hlv c).trans (if_pos ⟨h1, hslot⟩)) hq]
    · have hl : lv c = .tenant ∨ s.queueLevel q ≠ .tenant := by
        rw [hlv]
        obtain h | h | h := hok
        · exact .inl (if_neg fun hc => h hc.1)
        · exact .inl (if_neg fun hc => by omega)
        · exact .inr h
      rw [State.startCmd_levelOk hn ho hw hm hl ((hlv c).symm ▸ cmdLevel_cases op c)]
      refine ⟨fun hq ha => by rw [if_pos ⟨hq, ha⟩], fun ha hr => ?_, fun ha hr hd hn => ?_⟩
      · rw [if_neg (by rintro ⟨h1, h2⟩; simp [h1, h2] at ha), if_pos hr]
      · rw [if_neg (by rintro ⟨h1, h2⟩; simp [h1, h2] at ha), if_neg (by simp [hr]), if_pos ⟨hd, by simp [hn]⟩]
  · exact congrArg Host.Outcome.next (State.startCmd_starts h rfl rfl)
  · subst hp
    refine ⟨fun hbad => ?_, fun h8 hfree hv hok => ?_, fun h8 hfree hv hok hdig => ?_, fun h8 hfree hv hok hdig => ⟨fun h32 hbad => ?_, fun h32 hsig hven => ?_,
      fun h32 hbad => ?_, fun h32 hsig hlev => ?_⟩⟩
    · rw [exec_load_starts h]
      exact congrArg Host.Outcome.next (if_pos (by simpa [Option.isSome_iff_ne_none] using hbad))
    all_goals
      have hgo : ¬(leAt c.bytes 8 1 < 8 ∨ (s.programs.get (leAt c.bytes 8 1)).isSome = true ∨ (leAt c.bytes 8 1 < 32 ∧ s.voters < 3)) := by
        simp [hfree]
        omega
      rw [exec_load_starts h]
      dsimp only
      rw [if_neg hgo]
    · rw [if_pos hok]
    · rw [if_neg (by simp [hok]), if_pos hdig]
    · rw [if_neg (by simp [hok]), if_neg (by simp [hdig]), if_pos h32, if_pos hbad]
    · rw [if_neg (by simp [hok]), if_neg (by simp [hdig]), if_pos h32, if_neg (by simp [hsig, hven])]
    · rw [if_neg (by simp [hok]), if_neg (by simp [hdig]), if_neg (by omega), if_pos hbad]
    · rw [if_neg (by simp [hok]), if_neg (by simp [hdig]), if_neg (by omega), if_neg (by simp [hsig, hlev])]
  · rw [exec_unload_starts h]
    refine ⟨fun h32 => by rw [if_pos h32], fun h32 hsee => ?_, fun h32 hsee => ?_⟩
    · rw [if_neg (by omega), if_pos (by simp [hsee])]
    · rw [if_neg (by omega), if_neg (by simpa using hsee)]
  · rw [exec_run_starts h hi]
    refine ⟨fun hsee => ?_, fun p hp => ⟨fun hb => ?_, fun hb hfull => ?_, fun e hb hr he => ⟨fun hg => ?_, fun hg u hu => ?_⟩⟩⟩
    · rw [State.runBody, Cmd.runSlot, hsee]
    · rw [State.runBody, Cmd.runSlot, hp]
      dsimp only
      rw [if_pos hb]
    · rw [State.runBody, Cmd.runSlot, hp]
      dsimp only
      rw [if_neg (by simp [hb])]
      obtain hfull | hfull := hfull
      · rw [if_pos hfull]
      · rw [hfull]
        split
        · rfl
        · rfl
    · rw [State.runBody, Cmd.runSlot, hp]
      dsimp only
      rw [if_neg (by simp [hb]), if_neg (by omega), he]
      dsimp only
      rw [if_pos hg]
    · have hgrant : s.grantNext = some q := by
        obtain hg | ⟨hq, ho⟩ := hg
        · exact hg
        · exact State.grantNext_only hq (State.runWaits_of_starts h hp hb hr he) ho
      rw [State.runBody, Cmd.runSlot, hp]
      dsimp only
      rw [if_neg (by simp [hb]), if_neg (by omega), he]
      dsimp only
      rw [if_neg (by simp [hgrant]), hu]
  · subst hu hd
    rw [exec_cancel_starts h]
    exact ⟨fun hnone => by rw [hnone], fun t ht => by rw [ht]⟩
  · have hx (b : Bool) : exec (.imgload q b1 b) s = .next (s.imgloadBody q c b1 b signed lvl) := by rw [exec_imgload_starts h, ← hs, ← hl]
    simp only [hx]
    refine ⟨fun hbad => ?_, fun hok hbad => ?_, fun pl hok hdig hsig hpl => ?_⟩
    · rw [State.imgloadBody, if_pos hbad]
    · rw [State.imgloadBody, if_neg (by simp [hok]), if_pos hbad]
    · obtain ⟨hr, hw, hl⟩ := State.imgloadBody_placed hok hdig hsig hpl
      exact ⟨fun r h => by rw [hr r h], fun qs h => by rw [hw qs h], fun k tiles u h hu => by
        obtain ⟨h1, h2, h3⟩ := hl k tiles u h hu
        exact ⟨by rw [h1], fun hs => by rw [h2 hs], fun hs => by rw [h3 hs]⟩⟩
  · subst hk
    rw [exec_imgfree_starts h]
    refine ⟨fun hnone => by rw [hnone], fun i hi => ?_⟩
    rw [hi]
    dsimp only
    refine ⟨fun hq hbad => by rw [if_pos ⟨hq, hbad⟩], fun hok => ⟨fun hf => ?_, fun j hf hj => ?_⟩⟩
    · rw [if_neg (by rintro ⟨h1, h2⟩; simp [h1] at hok; simp [hok] at h2), if_pos hf]
    · rw [if_neg (by rintro ⟨h1, h2⟩; simp [h1] at hok; simp [hok] at h2), if_neg (by simp [hf]), hj]
  · rw [exec_admission_starts h]
    refine ⟨fun hq hp => by rw [if_pos ⟨hq, hp⟩], fun hok => ?_⟩
    rw [if_neg (by rintro ⟨h1, h2⟩; simp [h1, h2] at hok)]
    refine ⟨fun r hr => by rw [hr], fun n hn => by rw [hn]; rfl, fun n sets hn hne => ?_⟩
    rw [hn]
    dsimp only
    rw [if_neg (by simpa using hne)]
  · rw [exec_imgfreeComplete_eq, hk]
  · rw [exec_imgfreeComplete_eq, hk]
    dsimp only
    refine ⟨fun hbad => by rw [if_pos hbad], fun hf ho hr hc => ?_, fun id d hf ho hr hc hd => ?_⟩
    · rw [if_neg (by simp [hf, ho, hr]), hc]
    · rw [if_neg (by simp [hf, ho, hr]), hc]
      dsimp only
      rw [State.queue_dropImage, hd]

end Sys2Proof
end

section
/-! What no command changes: the canonical form of the system area, and, but for LCADV, the life cycle. -/

namespace Sys2Proof.Machine

variable {s t u : State}

/-- The life cycle stands, and a canonical system area stays canonical. -/
structure State.Steady (s t : State) : Prop where
  lifeCycle : t.sec.lifeCycle = s.sec.lifeCycle
  hbm : s.hbm.wf = true → t.hbm.wf = true

theorem State.Steady.refl (s : State) : s.Steady s := ⟨rfl, id⟩

theorem State.Steady.trans (h : s.Steady t) (g : t.Steady u) : s.Steady u := ⟨g.lifeCycle.trans h.lifeCycle, g.hbm ∘ h.hbm⟩

/-- A step that keeps, after one that does. -/
theorem State.Steady.after (g : t.Steady u) (h : s.Steady t) : s.Steady u := h.trans g

theorem State.Steady.ite {c : Prop} [Decidable c] (h : s.Steady t) (g : s.Steady u) : s.Steady (if c then t else u) := by
  split
  · exact h
  · exact g

theorem State.Steady.ite_fst {α : Type} {c : Prop} [Decidable c] {x y : State × α} (h : s.Steady x.1) (g : s.Steady y.1) :
    s.Steady (if c then x else y).1 := by
  split
  · exact h
  · exact g

theorem State.Steady.dite {c : Prop} [Decidable c] {f : c → State} {g : ¬c → State} (h : ∀ hc, s.Steady (f hc)) (k : ∀ hc, s.Steady (g hc)) :
    s.Steady (if hc : c then f hc else g hc) := by
  split
  · next hc => exact h hc
  · next hc => exact k hc

/-- Every part of the state but the system area and the life cycle may change. -/
theorem steady_update
    {regs : NMap Word64} {time : TimeSt} {noc : NocSt} {sq : SquareSt} {pwr : PowerSt} {col : CollectorSt} {led : LedgerSt} {tri : TriadSt}
    {dom : DomainSt} {rte : RouteSt} {sch : SchedSt} {grp : GroupSt} {plc : BrokerSt} {sec : SecSt} {engines : NMap Engine} {programs : NMap
    Program} {queues : NMap QueueSt} {turn : TurnSt} {sets : NMap InstallSet} {store : NMap Memory} {spill : NMap Memory} {ports : NMap
    PortSt} {streams : Streams} {hooks : List AckHook} {agents : NMap Agent} {lapses : List (Nat × Nat)} {out : List Out} {fresh : Nat}
    {pending : List Instr}
    (h : sec.lifeCycle = s.sec.lifeCycle) : s.Steady
      { regs := regs, time, noc, sq, pwr, col, led, tri, dom, rte, sch, grp, plc, sec, engines, programs, queues, turn, sets, store, hbm := s.hbm,
        spill, ports, streams, hooks, agents, lapses, out, fresh, pending } := ⟨h, fun h => h⟩

theorem State.LinkOnly.steady (h : s.LinkOnly t) : s.Steady t := by
  unfold State.LinkOnly at h
  rw [h]
  exact ⟨rfl, id⟩

theorem steady_forEach {α : Type} {f : State → α → State} (h : ∀ (s : State) x, s.Steady (f s x)) (s : State) (l : List α) : s.Steady (s.forEach
    l f) := by
  induction l generalizing s with
  | nil => exact .refl s
  | cons x l ih => exact (h s x).trans (ih (f s x))

theorem steady_foldl {α : Type} {f : State → α → State} (h : ∀ (s : State) x, s.Steady (f s x)) (s : State) (l : List α) : s.Steady (l.foldl f s) :=
  steady_forEach h s l

/-- A next state that is steady, or another answer. -/
structure Leaves (s : State) (o : Answer) : Prop where
  steady : ∀ t, o = .next t → s.Steady t

theorem Leaves.next (h : s.Steady t) : Leaves s (.next t) := ⟨fun _ hu => Host.Outcome.next.inj hu ▸ h⟩

theorem Leaves.after {o : Answer} (g : Leaves t o) (h : s.Steady t) : Leaves s o := ⟨fun u hu => (g.steady u hu).after h⟩

theorem Leaves.ite {c : Prop} [Decidable c] {x y : Answer} (h : Leaves s x) (g : Leaves s y) : Leaves s (if c then x else y) := by
  split
  · exact h
  · exact g

theorem steady_accept {body : State → State × Option Nat} (h : ∀ s : State, s.Steady (body s).1) (s : State) (n : Node) (p : Packet) : s.Steady
    (s.accept n p body) := by
  unfold State.accept
  refine .ite (linkOnly_nakPkt ..).steady (.ite (linkOnly_again ..).steady (.ite (linkOnly_nakPkt ..).steady ?_))
  have hb := h s
  split
  · next v hv =>
    rw [hv] at hb
    exact hb.trans (linkOnly_complete ..).steady
  · next v r hv =>
    rw [hv] at hb
    exact hb.trans (linkOnly_nakPkt ..).steady

theorem steady_fromOwner {body : State → State} (h : ∀ s : State, s.Steady (body s)) (s : State) (a : AgentRef) (p : Packet) : s.Steady
    (s.fromOwner a p body) :=
  .ite (linkOnly_raiseAgent ..).steady (.ite (.refl s) (h s))

theorem steady_consume {body : State → State} (h : ∀ s : State, s.Steady (body s)) (s : State) (n : Node) (p : Packet) : s.Steady (s.consume n p
    body) :=
  .ite (linkOnly_nakPkt ..).steady (h s)

theorem steady_deliverTo {body : State → State × Option Nat} (h : ∀ s : State, s.Steady (body s).1) (s : State) (a : AgentRef) (p : Packet) :
    s.Steady (s.deliverTo a p body) :=
  .ite (.trans (.ite (linkOnly_raiseAgent ..).steady (.refl _)) (linkOnly_nakPkt ..).steady)
    ((linkOnly_updAgent ..).steady.trans (steady_accept (fun s => .ite_fst (.refl s) (h s)) ..))

theorem steady_deliverMem {body : State → State × Option Nat} (h : ∀ s : State, s.Steady (body s).1) (s : State) (a : AgentRef) (p : Packet) :
    s.Steady (s.deliverMem a p body) := steady_deliverTo (fun s => .ite_fst (.refl s) (h s)) s a p

end Sys2Proof.Machine
end

section
/-! One lemma per state function: its own steps one after the other keep the life cycle and the canonical form. The outermost step
stands first. -/

namespace Sys2Proof.Machine

theorem steady_setReg (s : State) (off : Nat) (w : Word64) : s.Steady (s.setReg off w) := ⟨rfl, fun h => h⟩

theorem steady_setFld (s : State) (f : Field) (v : Nat) : s.Steady (s.setFld f v) := steady_setReg ..

theorem steady_satFld (s : State) (f : Field) (n : Nat) : s.Steady (s.satFld f n) := steady_setFld ..

theorem steady_setAgent (s : State) (a : AgentRef) (x : Agent) : s.Steady (s.setAgent a x) := (linkOnly_setAgent ..).steady

theorem steady_updAgent (s : State) (a : AgentRef) (f : Agent → Agent) : s.Steady (s.updAgent a f) := (linkOnly_updAgent ..).steady

theorem steady_setJx (s : State) (a : AgentRef) (off : Nat) (w : Word64) : s.Steady (s.setJx a off w) := steady_updAgent ..

theorem steady_setJfld (s : State) (a : AgentRef) (f : Field) (v : Nat) : s.Steady (s.setJfld a f v) := (linkOnly_setJfld ..).steady

theorem steady_satJfld (s : State) (a : AgentRef) (f : Field) (n : Nat) : s.Steady (s.satJfld a f n) := (linkOnly_satJfld ..).steady

theorem steady_useFree (s : State) : s.Steady s.useFree := ⟨rfl, fun h => h⟩

theorem steady_emit (s : State) (o : Out) : s.Steady (s.emit o) := (linkOnly_emit ..).steady

theorem steady_act (s : State) (o : Out) : s.Steady (s.act o) := .ite (steady_emit ..) (.refl _)

theorem steady_setPort (s : State) (n : Node) (p : Nat) (x : PortSt) : s.Steady (s.setPort n p x) := (linkOnly_setPort ..).steady

theorem steady_startFrame (s : State) (n : Node) (p : Nat) (k : Packet) : s.Steady (s.startFrame n p k) := (linkOnly_startFrame ..).steady

theorem steady_sendCredit (s : State) (n : Node) (p : Nat) : s.Steady (s.sendCredit n p) := (linkOnly_sendCredit ..).steady

theorem steady_returnCredit (s : State) (n : Node) (p : Nat) : s.Steady (s.returnCredit n p) := (linkOnly_returnCredit ..).steady

theorem steady_freeUnits (s : State) (n : Node) (p : Nat) (h : Header) : s.Steady (s.freeUnits n p h) := (linkOnly_freeUnits ..).steady

theorem steady_recordSent (s : State) (n : Node) (p : Nat) (l : List Sent) : s.Steady (s.recordSent n p l) := (linkOnly_recordSent ..).steady

theorem steady_pumpPort (s : State) (n : Node) (p : Nat) : s.Steady (s.pumpPort n p) := (linkOnly_pumpPort ..).steady

theorem steady_noteTraffic (s : State) (n : Node) (port : Nat) (h : Header) : s.Steady (s.noteTraffic n port h) := (linkOnly_noteTraffic ..).steady

theorem steady_wakeAgentPort (s : State) (n : Node) (p : Nat) : s.Steady (s.wakeAgentPort n p) := (linkOnly_wakeAgentPort ..).steady

theorem steady_wakeFor (s : State) (f : Fid) (p : Nat) : s.Steady (s.wakeFor f p) := by
  unfold State.wakeFor
  split; exacts [steady_wakeAgentPort .., .refl _]

theorem steady_portSend (s : State) (n : Node) (p : Nat) (k : Packet) (source : Option Nat) : s.Steady (s.portSend n p k source) :=
  .after (.ite (.ite ((steady_startFrame ..).after (steady_setPort ..)) (steady_setPort ..)) ((steady_pumpPort ..).after (steady_setPort ..)))
    ((steady_wakeAgentPort ..).after (steady_noteTraffic ..))

theorem steady_setStreams (s : State) (n : Node) (x : Streams) : s.Steady (s.setStreams n x) := (linkOnly_setStreams ..).steady

theorem steady_setTx (s : State) (n : Node) (dest : Fid) (stream : BitVec 16) (x : StreamTx) : s.Steady (s.setTx n dest stream x) :=
  (linkOnly_setTx ..).steady

theorem steady_setRx (s : State) (n : Node) (src : Fid) (stream : BitVec 16) (x : StreamRx) : s.Steady (s.setRx n src stream x) :=
  (linkOnly_setRx ..).steady

theorem steady_originateOn (s : State) (n : Node) (port : Nat) (p : Packet) : s.Steady (s.originateOn n port p) := (linkOnly_originateOn ..).steady

theorem steady_originate (s : State) (n : Node) (p : Packet) : s.Steady (s.originate n p) := (linkOnly_originate ..).steady

theorem steady_emitTx (s : State) (n : Node) (t : TxPkt) : s.Steady (s.emitTx n t) := (linkOnly_emitTx ..).steady

theorem steady_sendPkt (s : State) (n : Node) (p : Packet) (kept : Bool) (port : Option Nat) : s.Steady (s.sendPkt n p kept port) :=
  .ite (.after (.ite (.refl _) (steady_emitTx ..)) (steady_setTx ..)) ((steady_emitTx ..).after (steady_setTx ..))

theorem steady_releaseWaiting (s : State) (n : Node) (dest : Fid) (stream : BitVec 16) : s.Steady (s.releaseWaiting n dest stream) :=
  (linkOnly_releaseWaiting ..).steady

theorem steady_sendMgmt (s : State) (n : Node) (dest : Fid) (typ : BitVec 8) (payload : List Byte) (aux : BitVec 24) (kept : Bool) : s.Steady
    (s.sendMgmt n dest typ payload aux kept) :=
  (linkOnly_sendMgmt ..).steady

theorem steady_sendHooked (s : State) (dest : Fid) (typ : BitVec 8) (payload : List Byte) (kind : AckKind) (addr : BitVec 57) (aux : BitVec 24)
    : s.Steady (s.sendHooked dest typ payload kind addr aux) := by
  unfold State.sendHooked
  exact (steady_sendPkt ..).after ⟨rfl, fun h => h⟩

theorem steady_mirrorOut (s : State) (item : Nat) : s.Steady (s.mirrorOut item) :=
  .ite (.refl _) ((steady_sendMgmt ..).after ((steady_setFld ..).after ⟨rfl, fun h => h⟩))

theorem steady_broadcast (s : State) (typ : BitVec 8) (payload : List Byte) (kind : Option AckKind) (addr : BitVec 57) (aux : BitVec 24) :
    s.Steady (s.broadcast typ payload kind addr aux) := by
  refine steady_forEach (fun _ _ => (steady_sendPkt ..).after ?_) ..
  split
  · exact ⟨rfl, fun h => h⟩
  · exact .refl _

theorem steady_answer (s : State) (n : Node) (h : Header) (typ : BitVec 8) (seq : BitVec 32) (aux : BitVec 24) : s.Steady (s.answer n h typ seq
    aux) :=
  (linkOnly_answer ..).steady

theorem steady_ackPkt (s : State) (n : Node) (h : Header) : s.Steady (s.ackPkt n h) := (linkOnly_ackPkt ..).steady

theorem steady_nakPkt (s : State) (n : Node) (h : Header) (reason : Nat) : s.Steady (s.nakPkt n h reason) := (linkOnly_nakPkt ..).steady

theorem steady_recordSeq (s : State) (n : Node) (h : Header) : s.Steady (s.recordSeq n h) := (linkOnly_recordSeq ..).steady

theorem steady_readAnswer (s : State) (n : Node) (h : Header) : s.Steady (s.readAnswer n h) := by
  unfold State.readAnswer
  exact steady_sendPkt ..

theorem steady_finish (s : State) (n : Node) (h : Header) : s.Steady (s.finish n h) := (linkOnly_finish ..).steady

theorem steady_endHeld (s : State) (n : Node) (f : HeldFlag) (bad : Bool) : s.Steady (s.endHeld n f bad) := (linkOnly_endHeld ..).steady

theorem steady_settle (n : Node) (src : Fid) (stream : BitVec 16) (a : Nat) (y4 : State) : y4.Steady (State.settle n src stream a y4) :=
  (linkOnly_settle ..).steady

theorem steady_complete (s : State) (n : Node) (h : Header) : s.Steady (s.complete n h) := (linkOnly_complete ..).steady

theorem steady_again (s : State) (n : Node) (h : Header) : s.Steady (s.again n h) := (linkOnly_again ..).steady

theorem steady_countSource (s : State) (src : Nat) (n : Nat) (detail : BitVec 16) (cap : Option Capture) : s.Steady (s.countSource src n detail
    cap) := by
  unfold State.countSource
  split
  · exact .after (.ite ((steady_update rfl).after (steady_setFld ..)) (.refl _)) ((steady_setFld ..).after (steady_satFld ..))
  · exact (steady_setFld ..).after (steady_satFld ..)

theorem steady_present (s : State) (ev : Event) : s.Steady (s.present ev) := ⟨rfl, fun h => h⟩

theorem steady_raise (s : State) (src : Nat) (stated : Nat) (detail : BitVec 16) (port : Nat) (cap : Option Capture) : s.Steady (s.raise src
    stated detail port cap) :=
  .after (.ite (.refl _) (steady_present ..)) (steady_countSource ..)

theorem steady_countDrop (s : State) (a : AgentRef) (e : Event) : s.Steady (s.countDrop a e) := steady_satJfld ..

theorem steady_displace (s : State) (a : AgentRef) (sev : Nat) : s.Steady (s.displace a sev) := (linkOnly_displace ..).steady

theorem steady_bufferEvent (s : State) (a : AgentRef) (e : Event) : s.Steady (s.bufferEvent a e) := (linkOnly_bufferEvent ..).steady

theorem steady_sendEvents (s : State) (a : AgentRef) (evs : List Event) : s.Steady (s.sendEvents a evs) := (linkOnly_sendEvents ..).steady

theorem steady_sendUrgent (s : State) (a : AgentRef) : s.Steady (s.sendUrgent a) := (linkOnly_sendUrgent ..).steady

theorem steady_countAgentSource (s : State) (a : AgentRef) (src : Nat) (detail : BitVec 16) (cap : Option Capture) : s.Steady
    (s.countAgentSource a src detail cap) :=
  (linkOnly_countAgentSource ..).steady

theorem steady_raiseAgent (s : State) (a : AgentRef) (src : Nat) (stated : Nat) (detail : BitVec 16) (port : Nat) (cap : Option Capture) :
    s.Steady (s.raiseAgent a src stated detail port cap) :=
  (linkOnly_raiseAgent ..).steady

theorem steady_presentLatched (a : AgentRef) (y1 : Nat) (y2 : State) : y2.Steady (State.presentLatched a y1 y2) := (linkOnly_presentLatched ..).steady

theorem steady_raiseAt (s : State) (n : Node) (asrc : Nat) (o : Nat) (stated : Nat) (port : Nat) (detail : BitVec 16) : s.Steady (s.raiseAt n
    asrc o stated port detail) := by
  unfold State.raiseAt
  split; exacts [steady_raiseAgent .., steady_raise ..]

theorem steady_discard (s : State) (n : Node) (port : Nat) (detail : BitVec 16) (sev : Nat) : s.Steady (s.discard n port detail sev) :=
  (steady_raiseAt ..).after (steady_emit ..)

theorem steady_lapseRecord (s : State) (detail : BitVec 16) (object : Nat) : s.Steady (s.lapseRecord detail object) :=
  .after (.ite (.refl _) (steady_present ..)) (steady_countSource ..)

theorem steady_lapse (s : State) (code : Nat) (object : Nat) : s.Steady (s.lapse code object) :=
  .ite (.refl _) ((steady_lapseRecord ..).after ⟨rfl, fun h => h⟩)

theorem steady_restore (s : State) (code : Nat) (object : Nat) : s.Steady (s.restore code object) :=
  .ite ((steady_lapseRecord ..).after ⟨rfl, fun h => h⟩) (.refl _)

theorem steady_violation (s : State) (lvl : Level) : s.Steady (s.violation lvl) := by
  unfold State.violation
  split; exacts [steady_satFld .., steady_satFld ..]

theorem steady_agentViolation (s : State) (a : AgentRef) (lvl : Level) : s.Steady (s.agentViolation a lvl) := by
  unfold State.agentViolation
  split; exacts [steady_satJfld .., steady_satJfld ..]

theorem steady_setEngine (s : State) (e : Nat) (x : Engine) : s.Steady (s.setEngine e x) := ⟨rfl, fun h => h⟩

theorem steady_inboxPut (s : State) (e : Nat) (sev : Nat) (m : List Byte) : s.Steady (s.inboxPut e sev m) :=
  .ite (steady_setEngine ..) (steady_setEngine ..)

theorem steady_completeTag (s : State) (e : Nat) (tag : Nat) (status : Nat) (result : Word64) : s.Steady (s.completeTag e tag status result) :=
  .ite ((steady_inboxPut ..).after (steady_setEngine ..)) (.refl _)

theorem steady_completeOpt (s : State) (tag : Option (Nat × Nat)) (status : Nat) (result : Word64) : s.Steady (s.completeOpt tag status result) := by
  unfold State.completeOpt
  split; exacts [steady_completeTag .., .refl _]

theorem steady_countViolation (s : State) (l : Level) : s.Steady (s.countViolation l) := steady_violation ..

theorem steady_setCq (s : State) (n : Nat) (f : Field) (v : Nat) : s.Steady (s.setCq n f v) := steady_setFld ..

theorem steady_setQueue (s : State) (n : Nat) (x : QueueSt) : s.Steady (s.setQueue n x) := ⟨rfl, fun h => h⟩

theorem steady_hold (s : State) (x : HeldIo) : s.Steady (s.hold x) := ⟨rfl, fun h => h⟩

theorem steady_hubAct (s : State) (hub : Nat) (o : Out) : s.Steady (s.hubAct hub o) := .ite (steady_hold ..) (steady_act ..)

theorem steady_putRecord (s : State) (n : Nat) (l : List Byte) (irq : Bool) : s.Steady (s.putRecord n l irq) :=
  .after (.ite (steady_act ..) (.refl _)) ((steady_setQueue ..).after ((steady_setCq ..).after (steady_act ..)))

theorem steady_writeRecord (s : State) (n : Nat) (r : Record) (irq : Bool) : s.Steady (s.writeRecord n r irq) :=
  .ite (steady_hold ..) (steady_putRecord ..)

theorem steady_endDisable (s : State) (n : Nat) : s.Steady (s.endDisable n) := .ite ((steady_setCq ..).after (steady_setQueue ..)) (.refl _)

theorem steady_releaseIo (s : State) (a : HeldIo) : s.Steady (s.releaseIo a) := by
  unfold State.releaseIo
  split; exacts [(steady_endDisable ..).after (steady_putRecord ..), steady_act ..]

theorem steady_releaseHub (s : State) (hub : Nat) : s.Steady (s.releaseHub hub) :=
  .ite (.refl _) ((steady_forEach (fun _ _ => steady_releaseIo ..) ..).after ⟨rfl, fun h => h⟩)

theorem steady_completeCmd (s : State) (n : Nat) (c : Cmd) (r : Record) : s.Steady (s.completeCmd n c r) :=
  (steady_endDisable ..).after ((steady_setQueue ..).after (steady_writeRecord ..))

theorem steady_forgetTags (s : State) (e : Nat) : s.Steady (s.forgetTags e) := ⟨rfl, fun h => h⟩

theorem steady_quitGate (s : State) (e : Nat) : s.Steady (s.quitGate e) := .ite ⟨rfl, fun h => h⟩ (.refl _)

theorem steady_endProgram (s : State) (e : Nat) (status : Nat) (detail : Nat) (result : Word64) (faultPc : Nat) : s.Steady (s.endProgram e
    status detail result faultPc) := by
  unfold State.endProgram
  split
  · split
    · dsimp only
      split
      · exact .refl _
      · split
        · exact (steady_setEngine ..).after ((steady_quitGate ..).after (steady_forgetTags ..))
        · split
          · exact (steady_setQueue ..).after (.ite ((steady_setEngine ..).after ((steady_quitGate ..).after (steady_forgetTags ..)))
                ((steady_hubAct ..).after ((steady_setEngine ..).after ((steady_quitGate ..).after (steady_forgetTags ..)))))
          · exact (steady_completeCmd ..).after ((steady_setQueue ..).after (.ite ((steady_setEngine ..).after ((steady_quitGate ..).after
                (steady_forgetTags ..))) ((steady_hubAct ..).after ((steady_setEngine ..).after ((steady_quitGate ..).after
                (steady_forgetTags ..))))))
    · dsimp only
      split
      · exact .refl _
      · split
        · exact (steady_setEngine ..).after ((steady_quitGate ..).after (steady_forgetTags ..))
        · split
          · exact (steady_setQueue ..).after (.ite ((steady_setEngine ..).after ((steady_quitGate ..).after (steady_forgetTags ..)))
                ((steady_hubAct ..).after ((steady_setEngine ..).after ((steady_quitGate ..).after (steady_forgetTags ..)))))
          · exact (steady_completeCmd ..).after ((steady_useFree ..).after ((steady_setQueue ..).after (.ite ((steady_setEngine ..).after
                ((steady_quitGate ..).after (steady_forgetTags ..))) ((steady_hubAct ..).after ((steady_setEngine ..).after
                ((steady_quitGate ..).after (steady_forgetTags ..)))))))
  · split
    · dsimp only
      split
      · exact .refl _
      · split
        · exact (steady_setEngine ..).after ((steady_quitGate ..).after (steady_forgetTags ..))
        · split
          · exact (steady_setQueue ..).after (.ite ((steady_setEngine ..).after ((steady_quitGate ..).after (steady_forgetTags ..)))
                ((steady_hubAct ..).after ((steady_setEngine ..).after ((steady_quitGate ..).after (steady_forgetTags ..)))))
          · exact (steady_completeCmd ..).after ((steady_setQueue ..).after (.ite ((steady_setEngine ..).after ((steady_quitGate ..).after
                (steady_forgetTags ..))) ((steady_hubAct ..).after ((steady_setEngine ..).after ((steady_quitGate ..).after
                (steady_forgetTags ..))))))
    · dsimp only
      split
      · exact .refl _
      · split
        · exact (steady_setEngine ..).after ((steady_quitGate ..).after (steady_forgetTags ..))
        · split
          · exact (steady_setQueue ..).after (.ite ((steady_setEngine ..).after ((steady_quitGate ..).after (steady_forgetTags ..)))
                ((steady_hubAct ..).after ((steady_setEngine ..).after ((steady_quitGate ..).after (steady_forgetTags ..)))))
          · exact (steady_completeCmd ..).after ((steady_useFree ..).after ((steady_setQueue ..).after (.ite ((steady_setEngine ..).after
                ((steady_quitGate ..).after (steady_forgetTags ..))) ((steady_hubAct ..).after ((steady_setEngine ..).after
                ((steady_quitGate ..).after (steady_forgetTags ..)))))))

theorem steady_faultProgram (s : State) (e : Nat) (code : Nat) (result : Word64) : s.Steady (s.faultProgram e code result) :=
  (steady_raise ..).after (steady_endProgram ..)

theorem steady_bindOne (s : State) (e : Nat) (l : Level) (part : Nat) (arg : List Byte) (i : Nat) : s.Steady (s.bindOne e l part arg i) := by
  unfold State.bindOne
  dsimp only
  split
  · exact steady_setEngine ..
  · exact steady_setEngine ..
  · split
    · exact (steady_setEngine ..).after (.ite ⟨rfl, fun h => h⟩ (.refl _))
    · exact (steady_countViolation ..).after ((steady_setEngine ..).after (.ite ⟨rfl, fun h => h⟩ (.refl _)))
    · exact (steady_setEngine ..).after (.ite ⟨rfl, fun h => h⟩ (.refl _))

theorem steady_startProgram (s : State) (n : Nat) (c : Cmd) (p : Program) (e : Nat) : s.Steady (s.startProgram n c p e) :=
  (steady_forEach (fun _ _ => steady_bindOne ..) ..).after ((steady_setEngine ..).after (steady_setQueue ..))

theorem steady_showAdmit (s : State) : s.Steady s.showAdmit := (steady_setFld ..).after (steady_setFld ..)

theorem steady_setAdmitted (s : State) (a : Admitted) : s.Steady (s.setAdmitted a) := ⟨rfl, fun h => h⟩

theorem steady_markUnfit (s : State) (a : Admitted) (report : List Byte) : s.Steady (s.markUnfit a report) :=
  (steady_lapse ..).after ((steady_act ..).after ((steady_showAdmit ..).after (steady_setAdmitted ..)))

theorem steady_planWidths (s : State) (c : Schedule) : s.Steady (s.planWidths c) := ⟨rfl, fun h => h⟩

theorem steady_recheck (s : State) (a : Admitted) : s.Steady (s.recheck a) := .ite (steady_planWidths ..) (steady_markUnfit ..)

theorem steady_recheckLink (s : State) (f : Fid) (port : Nat) : s.Steady (s.recheckLink f port) := steady_forEach (fun _ _ => steady_recheck ..) ..

theorem steady_unfitNested (s : State) : s.Steady s.unfitNested :=
  .after (.ite (.refl _) (steady_lapse ..)) (steady_forEach (fun _ _ => steady_markUnfit ..) ..)

theorem steady_flushSamples (s : State) (a : AgentRef) : s.Steady (s.flushSamples a) :=
  .ite (.refl _) (.after (.ite (steady_sendMgmt ..) (steady_satJfld ..)) (steady_updAgent ..))

theorem steady_addSample (s : State) (a : AgentRef) (r : Sample) : s.Steady (s.addSample a r) :=
  .ite (steady_satJfld ..) (.after (.ite (steady_flushSamples ..) (.refl _)) (steady_updAgent ..))

theorem steady_sample (s : State) (a : AgentRef) (port : Nat) (h : Header) : s.Steady (s.sample a port h) :=
  .ite (.refl _) (.after (.ite (steady_addSample ..) (.refl _)) (steady_setPort ..))

theorem steady_freeSource (s : State) (n : Node) (source : Option Nat) (h : Header) : s.Steady (s.freeSource n source h) :=
  (linkOnly_freeSource ..).steady

theorem steady_noRoute (s : State) (a : AgentRef) (port : Nat) (source : Option Nat) (h : Header) (detail : BitVec 16) (reason : Nat)
    (nak : Bool) : s.Steady (s.noRoute a port source h detail reason nak) :=
  .after (.ite (.refl _) (steady_nakPkt ..)) ((steady_freeSource ..).after (steady_discard ..))

theorem steady_expressOut (s : State) (a : AgentRef) (inPort : Nat) (out : Nat) (k : Packet) : s.Steady (s.expressOut a inPort out k) := by
  unfold State.expressOut
  split; exacts [steady_discard .., (steady_portSend ..).after (steady_setPort ..)]

theorem steady_forwardExpress (s : State) (a : AgentRef) (inPort : Nat) (out : Nat) (k : Packet) : s.Steady (s.forwardExpress a inPort out k) :=
  .ite (steady_expressOut ..) (.ite (steady_setPort ..) (steady_discard ..))

theorem steady_serveIngress (s : State) (a : AgentRef) (inPort : Nat) : s.Steady (s.serveIngress a inPort) :=
  (steady_forEach (fun _ _ => steady_forwardExpress ..) ..).after (steady_setPort ..)

theorem steady_serveExpress (s : State) (a : AgentRef) : s.Steady (s.serveExpress a) := steady_forEach (fun _ _ => steady_serveIngress ..) ..

theorem steady_forward (s : State) (a : AgentRef) (inPort : Nat) (source : Option Nat) (p : Packet) : s.Steady (s.forward a inPort source p) := by
  unfold State.forward
  split
  · exact steady_noRoute ..
  · split
    · exact steady_noRoute ..
    · split
      · exact steady_noRoute ..
      · exact .ite (steady_forwardExpress ..) (steady_portSend ..)

theorem steady_replicate (s : State) (a : AgentRef) (inPort : Nat) (p : Packet) (payload : List Byte) : s.Steady (s.replicate a inPort p payload) :=
  .ite (.refl _) (.ite (steady_noRoute ..) (steady_forEach (fun _ _ => .ite (steady_portSend ..) (steady_forward ..)) ..))

theorem steady_countScrub (s : State) (x : PortSt) (h : Header) : s.Steady (s.countScrub x h) := (steady_satFld ..).after ⟨rfl, fun h => h⟩

theorem steady_agentTake (s : State) (a : AgentRef) (port : Nat) (p : Packet) : s.Steady (s.agentTake a port p) :=
  .ite ((steady_freeUnits ..).after (steady_discard ..)) (.ite (.after (.ite (steady_replicate ..) (.refl _)) ((steady_freeUnits ..).after
    (steady_emit ..))) (steady_forward ..))

theorem steady_takeCreditFrame (s : State) (n : Node) (port : Nat) (h : Header) : s.Steady (s.takeCreditFrame n port h) :=
  (steady_returnCredit ..).after ((steady_pumpPort ..).after (steady_setPort ..))

theorem steady_takeFrame (s : State) (n : Node) (port : Nat) (p : Packet) : s.Steady (s.takeFrame n port p) := by
  unfold State.takeFrame
  split
  · dsimp only
    split
    · exact (steady_freeUnits ..).after ((steady_discard ..).after ((steady_pumpPort ..).after ((steady_wakeAgentPort ..).after (steady_setPort ..))))
    · exact .ite ((steady_freeUnits ..).after ((steady_countScrub ..).after ((steady_discard ..).after ((steady_pumpPort ..).after
          ((steady_wakeAgentPort ..).after (steady_setPort ..)))))) ((steady_freeUnits ..).after ((steady_emit ..).after
          ((steady_noteTraffic ..).after ((steady_pumpPort ..).after ((steady_wakeAgentPort ..).after (steady_setPort ..))))))
  · dsimp only
    split
    · exact (steady_freeUnits ..).after ((steady_discard ..).after ((steady_pumpPort ..).after ((steady_wakeAgentPort ..).after (steady_setPort ..))))
    · exact .ite ((steady_freeUnits ..).after ((steady_countScrub ..).after ((steady_discard ..).after ((steady_pumpPort ..).after
          ((steady_wakeAgentPort ..).after (steady_setPort ..)))))) ((steady_agentTake ..).after ((steady_sample ..).after
          ((steady_noteTraffic ..).after ((steady_pumpPort ..).after ((steady_wakeAgentPort ..).after (steady_setPort ..))))))

theorem steady_showPortsUp (s : State) (n : Node) : s.Steady (s.showPortsUp n) := by
  unfold State.showPortsUp
  split; exacts [.refl _, steady_setJfld ..]

theorem steady_showPorts (s : State) : s.Steady s.showPorts :=
  (steady_setFld ..).after ((steady_setFld ..).after ((steady_setFld ..).after (steady_setFld ..)))

theorem steady_resetPort (s : State) (n : Node) (p : Nat) : s.Steady (s.resetPort n p) := (linkOnly_resetPort ..).steady

theorem steady_showWakes (s : State) : s.Steady s.showWakes := steady_setFld ..

theorem steady_queueWake (s : State) (port : Nat) (cls : Nat) : s.Steady (s.queueWake port cls) :=
  .ite (.refl _) ((steady_showWakes ..).after ⟨rfl, fun h => h⟩)

theorem steady_portDown (s : State) (n : Node) (port : Nat) (detail : BitVec 16) : s.Steady (s.portDown n port detail) := by
  unfold State.portDown
  extract_lets s1 s2 s3
  have h1 : s.Steady s1 := (steady_showPortsUp ..).after (steady_resetPort ..)
  have h2 : s1.Steady s2 := by
    cases n with
    | ctl => exact (steady_queueWake ..).after (steady_showPorts ..)
    | agent => exact .refl _
  exact .after (t := s3) ⟨rfl, fun h => h⟩ ((steady_raiseAt ..).after (h2.after h1))

theorem steady_discardInstall (s : State) (a : AgentRef) : s.Steady (s.discardInstall a) := by
  unfold State.discardInstall
  dsimp only
  split; exacts [(steady_raiseAgent ..).after (steady_updAgent ..), (steady_raiseAgent ..).after (steady_updAgent ..), .refl _]

theorem steady_takeInstall (s : State) (a : AgentRef) (v : BitVec 32) (payload : List Byte) : s.Steady (s.takeInstall a v payload).1 := by
  unfold State.takeInstall
  extract_lets g t
  have ht : s.Steady t := .ite (.refl _) (steady_discardInstall ..)
  clear_value t
  split
  · exact .refl _
  · dsimp only
    exact (steady_updAgent ..).after ht

theorem steady_takeCommit (s : State) (a : AgentRef) (v e : BitVec 32) : s.Steady (s.takeCommit a v e).1 := by
  have hr (n : Nat) (d : BitVec 16) : s.Steady (s.raiseAgent a n 2 d) := steady_raiseAgent ..
  unfold State.takeCommit
  split
  · exact hr ..
  dsimp only
  refine .ite_fst (.refl _) (.ite_fst (.refl _) (.ite_fst ?_ (.refl _)))
  generalize Agent.finishCopy .. = f
  split
  · exact hr ..
  · dsimp only
    exact steady_updAgent ..

theorem steady_setValid (s : State) (a : AgentRef) (slot : Nat) (b : Bool) : s.Steady (s.setValid a slot b) := steady_setJx ..

theorem steady_setStaged (s : State) (a : AgentRef) (slot : Nat) (x : Staged) : s.Steady (s.setStaged a slot x) :=
  (steady_setValid ..).after (steady_updAgent ..)

theorem steady_takeStage (s : State) (a : AgentRef) (h : Header) (payload : List Byte) : s.Steady (s.takeStage a h payload).1 :=
  .ite_fst (.refl _) (steady_setStaged ..)

theorem steady_cancelPlay (s : State) (a : AgentRef) : s.Steady (s.cancelPlay a) := .ite (.refl _) ((steady_setJfld ..).after (steady_updAgent ..))

theorem steady_suspendAttempts (s : State) (a : AgentRef) (swap : BitVec 32) : s.Steady (s.suspendAttempts a swap) := by
  unfold State.suspendAttempts
  split; exacts [.refl _, steady_updAgent ..]

theorem steady_takePlay (s : State) (a : AgentRef) (p : Packet) : s.Steady (s.takePlay a p).1 :=
  .after (.ite_fst (.refl _) (.ite_fst ((steady_setJfld ..).after ((steady_updAgent ..).after (steady_discardInstall ..))) (steady_forEach
    (fun _ _ => steady_raiseAgent ..) ..))) ((steady_cancelPlay ..).after ((steady_suspendAttempts ..).after ((steady_updAgent ..).after
    ((steady_setJfld ..).after ((steady_setJfld ..).after (steady_setJfld ..))))))

theorem steady_swapBanks (s : State) (a : AgentRef) (version : BitVec 32) : s.Steady (s.swapBanks a version) :=
  (steady_setJfld ..).after ((steady_setJfld ..).after ((steady_setJfld ..).after (steady_updAgent ..)))

theorem steady_agentSwap (s : State) (a : AgentRef) (n : BitVec 32) : s.Steady (s.agentSwap a n) := by
  unfold State.agentSwap
  dsimp only
  split
  · split
    · split
      · split
        · exact (steady_updAgent ..).after ((steady_swapBanks ..).after (steady_raiseAgent ..))
        · exact (steady_updAgent ..).after (steady_swapBanks ..)
      · split
        · exact (steady_raiseAgent ..).after ((steady_satJfld ..).after ((steady_updAgent ..).after ((steady_swapBanks ..).after
              (steady_raiseAgent ..))))
        · exact (steady_raiseAgent ..).after ((steady_satJfld ..).after ((steady_updAgent ..).after (steady_swapBanks ..)))
    · exact .refl _
  · split
    · exact .ite (.refl _) (steady_swapBanks ..)
    · exact .refl _

theorem steady_updateDrained (s : State) (a : AgentRef) : s.Steady (s.updateDrained a) := (steady_setJfld ..).after (steady_updAgent ..)

theorem steady_clearDrained (s : State) (a : AgentRef) : s.Steady (s.clearDrained a) :=
  .ite ((steady_setJfld ..).after (steady_updAgent ..)) (.refl _)

theorem steady_stepTime (s : State) (a : AgentRef) : s.Steady (s.stepTime a) := by
  unfold State.stepTime
  split; exacts [.refl _, (steady_raiseAgent ..).after (steady_updAgent ..)]

theorem steady_realignEpochs (s : State) (a : AgentRef) : s.Steady (s.realignEpochs a) :=
  .ite (.refl _) ((steady_raiseAgent ..).after (steady_updAgent ..))

theorem steady_agentGeometry (s : State) (a : AgentRef) (n : BitVec 32) : s.Steady (s.agentGeometry a n) := steady_updAgent ..

theorem steady_endSuspension (s : State) (a : AgentRef) (n : BitVec 32) : s.Steady (s.endSuspension a n) := by
  unfold State.endSuspension
  dsimp only
  split; exacts [.ite (steady_updAgent ..) (.refl _), .refl _]

theorem steady_agentBoundary (s : State) (a : AgentRef) : s.Steady (s.agentBoundary a) :=
  (steady_endSuspension ..).after ((steady_clearDrained ..).after ((steady_agentSwap ..).after ((steady_agentGeometry ..).after
    ((steady_setJfld ..).after ((steady_setJfld ..).after ((steady_updateDrained ..).after ((steady_realignEpochs ..).after
    (steady_stepTime ..))))))))

theorem steady_treatFailed (s : State) (f : Fid) : s.Steady (s.treatFailed f) := ⟨rfl, fun h => h⟩

theorem steady_restoreFaults (s : State) : s.Steady s.restoreFaults :=
  (steady_forEach (fun _ _ => steady_restore ..) ..).after (steady_forEach (fun _ _ => steady_restore ..) ..)

theorem steady_bringBack (s : State) (agents : List Fid) : s.Steady (s.bringBack agents) := (steady_restoreFaults ..).after ⟨rfl, fun h => h⟩

theorem steady_setDrain (s : State) (x : Drain) : s.Steady (s.setDrain x) := ⟨rfl, fun h => h⟩

theorem steady_drainInForce (s : State) (d : DrainElem) : s.Steady (s.drainInForce d) :=
  (steady_setDrain ..).after ((steady_restoreFaults ..).after ((steady_showAdmit ..).after ((steady_forEach (fun _ _ =>
    (steady_restore ..).after (steady_restore ..)) ..).after ⟨rfl, fun h => h⟩)))

theorem steady_finishInstall (s : State) (p : InstallFor) (status : Nat) (result : Word64) : s.Steady (s.finishInstall p status result) := by
  unfold State.finishInstall
  split
  · split
    · exact (steady_completeTag ..).after ⟨rfl, fun h => h⟩
    · exact steady_completeTag ..
  · exact .ite (steady_drainInForce ..) ⟨rfl, fun h => h⟩
  · split
    · exact ⟨rfl, fun h => h⟩
    · split
      · exact .ite (steady_completeCmd ..) (steady_completeCmd ..)
      · exact .refl _
  · exact .refl _

theorem steady_dropInstall (s : State) : s.Steady s.dropInstall := (steady_setFld ..).after ⟨rfl, fun h => h⟩

theorem steady_sendCommit (s : State) (v : BitVec 32) (e : BitVec 32) : s.Steady (s.sendCommit v e) := steady_broadcast ..

theorem steady_commitInstall (s : State) (i : InstallSt) : s.Steady (s.commitInstall i) :=
  .ite ⟨rfl, fun h => h⟩ ((steady_sendCommit ..).after ((steady_setFld ..).after ((steady_update rfl).after (steady_mirrorOut ..))))

theorem steady_sendInstalls (s : State) (v : BitVec 32) (f : Fid) (l : List (List Byte)) : s.Steady (s.sendInstalls v f l).1 := by
  induction l generalizing s with
  | nil => exact .refl _
  | cons x l ih => exact (ih _).after (steady_sendHooked ..)

theorem steady_sendSets (s : State) (v : BitVec 32) (l : List (Fid × List Byte)) : s.Steady (s.sendSets v l).1 := by
  induction l generalizing s with
  | nil => exact .refl _
  | cons x l ih => exact (ih _).after (steady_sendInstalls ..)

theorem steady_noteFull (s : State) (sets : List (Fid × List Byte)) : s.Steady (s.noteFull sets) :=
  .ite (.refl _) ((steady_useFree ..).after ⟨rfl, fun h => h⟩)

theorem steady_startInstall (s : State) (sets : List (Fid × List Byte)) (p : InstallFor) : s.Steady (s.startInstall sets p) :=
  .ite (steady_finishInstall ..) (.after (.ite (steady_commitInstall ..) ⟨rfl, fun h => h⟩) ((steady_sendSets ..).after
    ((steady_update rfl).after (steady_noteFull ..))))

theorem steady_submitInstall (s : State) (sets : List (Fid × List Byte)) (p : InstallFor) : s.Steady (s.submitInstall sets p) :=
  .ite (steady_startInstall ..) ⟨rfl, fun h => h⟩

theorem steady_nextInstall (s : State) : s.Steady s.nextInstall := by
  refine .ite ?_ (.refl _)
  split
  · exact .refl _
  · exact (steady_startInstall ..).after ⟨rfl, fun h => h⟩

theorem steady_installAcked (s : State) (v : BitVec 32) (f : Fid) (seq : BitVec 32) : s.Steady (s.installAcked v f seq) := by
  unfold State.installAcked
  split; exacts [.ite (.ite (steady_commitInstall ..) ⟨rfl, fun h => h⟩) (.refl _), .refl _]

theorem steady_installFailed (s : State) (v : BitVec 32) (status : Nat) : s.Steady (s.installFailed v status) := by
  unfold State.installFailed
  split; exacts [.ite ((steady_nextInstall ..).after ((steady_finishInstall ..).after (steady_dropInstall ..))) (.refl _), .refl _]

theorem steady_commitAcked (s : State) (v : BitVec 32) (f : Fid) : s.Steady (s.commitAcked v f) := by
  unfold State.commitAcked
  split; exacts [.ite ⟨rfl, fun h => h⟩ (.refl _), .refl _]

theorem steady_commitUnicast (s : State) (v : BitVec 32) (f : Fid) : s.Steady (s.commitUnicast v f) := by
  unfold State.commitUnicast
  split; exacts [.ite ((steady_sendHooked ..).after ⟨rfl, fun h => h⟩) (.refl _), .refl _]

theorem steady_commitWithout (s : State) (i : InstallSt) (l : List Fid) : s.Steady (s.commitWithout i l) :=
  (steady_forEach (fun _ _ => (steady_raise ..).after (steady_treatFailed ..)) ..).after ⟨rfl, fun h => h⟩

theorem steady_commitRefused (s : State) (v : BitVec 32) (f : Fid) : s.Steady (s.commitRefused v f) := by
  unfold State.commitRefused
  split; exacts [.ite (steady_commitWithout ..) (.refl _), .refl _]

theorem steady_notePiece (s : State) (id : BitVec 24) (f : Fid) (seq : BitVec 32) : s.Steady (s.notePiece id f seq) := ⟨rfl, fun h => h⟩

theorem steady_sendStage (s : State) (id : BitVec 24) (f : Fid) (slot : BitVec 6) (off : Nat) (l : List (List Byte)) :
    s.Steady (s.sendStage id f slot off l) := by
  induction l generalizing s off with
  | nil => exact .refl _
  | cons x l ih => exact (ih ..).after ((steady_sendHooked ..).after (steady_notePiece ..))

theorem steady_sendInvalidate (s : State) (f : Fid) (slot : BitVec 6) : s.Steady (s.sendInvalidate f slot) := steady_sendHooked ..

theorem steady_sendRebase (s : State) (f : Fid) (mask : Nat) (base : BitVec 32) : s.Steady (s.sendRebase f mask base) := steady_sendHooked ..

theorem steady_showUnarmed (s : State) : s.Steady s.showUnarmed :=
  (steady_restoreFaults ..).after ((steady_forEach (fun _ _ => steady_restore ..) ..).after ((steady_forEach (fun _ _ =>
    steady_lapse ..) ..).after (steady_setFld ..)))

theorem steady_setGambit (s : State) (g : Gambit) : s.Steady (s.setGambit g) := ⟨rfl, fun h => h⟩

theorem steady_stageGambit (s : State) (g : Gambit) (again : Bool) : s.Steady (s.stageGambit g again) := by
  refine .after (.ite (.refl _) ((steady_forEach (fun _ _ => (steady_sendStage ..).after (.after (.ite (steady_sendInvalidate ..) (.refl _))
      ?_)) ..).after (steady_mirrorOut ..))) (steady_setGambit ..)
  split
  · exact steady_forEach (fun _ _ => steady_wakeFor ..) ..
  · exact .refl _

theorem steady_stageDue (s : State) : s.Steady s.stageDue := steady_forEach (fun _ _ => steady_stageGambit ..) ..

theorem steady_takeGambit (s : State) (r : GambitRec) (job : Nat) (base : BitVec 32) (tag : Option (Nat × Nat)) : s.Steady (s.takeGambit r job
    base tag) :=
  .ite ⟨rfl, fun h => h⟩ ((steady_showUnarmed ..).after ((steady_stageGambit ..).after ⟨rfl, fun h => h⟩))

theorem steady_stageAcked (s : State) (id : BitVec 24) (f : Fid) (seq : BitVec 32) : s.Steady (s.stageAcked id f seq) := by
  unfold State.stageAcked
  split; exacts [.refl _, .after (.ite (steady_completeOpt ..) (.refl _)) ((steady_showUnarmed ..).after (steady_setGambit ..))]

theorem steady_slotsSeen (s : State) (f : Fid) (valid : Nat) : s.Steady (s.slotsSeen f valid) :=
  .ite (.refl _) ((steady_showUnarmed ..).after (steady_forEach (fun _ _ => steady_stageGambit ..) ..))

theorem steady_stageFailed (s : State) (id : BitVec 24) (status : Nat) : s.Steady (s.stageFailed id status) := by
  unfold State.stageFailed
  split; exacts [.refl _, (steady_completeOpt ..).after ((steady_showUnarmed ..).after (steady_setGambit ..))]

theorem steady_rebaseGambit (s : State) (sets : List (Fid × List Byte)) (v : BitVec 32) (g : Gambit) : s.Steady (s.rebaseGambit sets v g) :=
  .ite (steady_setGambit ..) (.ite (steady_stageGambit ..) (steady_setGambit ..))

theorem steady_rebaseAgents (s : State) (v : BitVec 32) (agents : List Fid) : s.Steady (s.rebaseAgents v agents) :=
  steady_forEach (fun _ _ => .ite (.refl _) (steady_sendRebase ..)) ..

theorem steady_installInForce (s : State) (i : InstallSt) : s.Steady (s.installInForce i) :=
  (steady_nextInstall ..).after ((steady_finishInstall ..).after ((steady_bringBack ..).after ((steady_showUnarmed ..).after
    ((steady_rebaseAgents ..).after ((steady_forEach (fun _ _ => steady_rebaseGambit ..) ..).after ((steady_setFld ..).after
    ((steady_setFld ..).after ⟨rfl, fun h => h⟩)))))))

theorem steady_withdrawInstall (s : State) : s.Steady s.withdrawInstall := by
  unfold State.withdrawInstall
  split
  · exact .refl _
  · split
    · exact (steady_finishInstall ..).after (steady_dropInstall ..)
    · exact (steady_update rfl).after (steady_dropInstall ..)

theorem steady_emitPlay (s : State) (new : List (BitVec 24)) (firstNs : Nat) (want : Nat) : s.Steady (s.emitPlay new firstNs want) := by
  unfold State.emitPlay
  exact (steady_broadcast ..).after ((steady_mirrorOut ..).after ((steady_setFld ..).after ((steady_satFld ..).after ((steady_update rfl).after
      (steady_withdrawInstall ..)))))

theorem steady_closeClassification (s : State) : s.Steady s.closeClassification := by
  unfold State.closeClassification
  split
  · exact .refl _
  · exact .after (.ite (.refl _) (.ite (steady_emitPlay ..) ⟨rfl, fun h => h⟩)) ((steady_forEach (fun _ _ => (steady_lapse ..).after
        ((steady_satFld ..).after (steady_raise ..))) ..).after ((steady_forEach (fun _ _ => .ite (steady_lapse ..) (.refl _)) ..).after
        ⟨rfl, fun h => h⟩))

theorem steady_reportDown (s : State) (f : Fid) (port : Nat) : s.Steady (s.reportDown f port) :=
  .after (.ite (steady_raise ..) (.ite (.refl _) (.after (.ite (steady_closeClassification ..) (.refl _)) ⟨rfl, fun h => h⟩))) ⟨rfl, fun h => h⟩

theorem steady_playAcked (s : State) (seq : BitVec 16) (f : Fid) : s.Steady (s.playAcked seq f) := by
  unfold State.playAcked
  split; exacts [.ite ⟨rfl, fun h => h⟩ (.refl _), .refl _]

theorem steady_applyGambit (s : State) (g : Gambit) : s.Steady (s.applyGambit g) := ⟨rfl, fun h => h⟩

theorem steady_recheckNested (s : State) (a : Admitted) : s.Steady (s.recheckNested a) := by
  unfold State.recheckNested
  split; exacts [.refl _, .ite (.refl _) (steady_markUnfit ..)]

theorem steady_takeWaiting (s : State) (jobs : List Nat) (agents : List Fid) (v : BitVec 32) (w : GambitWait) : s.Steady (s.takeWaiting jobs
    agents v w) :=
  .ite (steady_completeOpt ..) (steady_takeGambit ..)

theorem steady_playSwapped (s : State) (p : CtlPlay) : s.Steady (s.playSwapped p) :=
  (steady_nextInstall ..).after ((steady_showUnarmed ..).after ((steady_stageDue ..).after ((steady_forEach (fun _ _ =>
    steady_takeWaiting ..) ..).after ((steady_update rfl).after ((steady_rebaseAgents ..).after ((steady_forEach (fun _ _ =>
    steady_rebaseGambit ..) ..).after ((steady_update rfl).after ((steady_forEach (fun _ _ => steady_forEach (fun _ _ =>
    steady_sendInvalidate ..) ..) ..).after ((steady_setFld ..).after ((steady_setFld ..).after ((steady_forEach (fun _ _ =>
    steady_recheckNested ..) ..).after ((steady_update rfl).after ((steady_forEach (fun _ _ => steady_applyGambit ..) ..).after
    ⟨rfl, fun h => h⟩)))))))))))))

theorem steady_writeAutoPlay (s : State) (v : Nat) : s.Steady (s.writeAutoPlay v) :=
  .after (.ite (steady_lapse ..) (steady_restore ..)) (steady_setFld ..)

theorem steady_startDrain (s : State) (d : DrainElem) : s.Steady (s.startDrain d) :=
  .ite (.ite (steady_drainInForce ..) ((steady_submitInstall ..).after (steady_setDrain ..))) (.refl _)

theorem steady_sendColl (s : State) (n : Node) (port : Nat) (dest : Fid) (c : CollFields) : s.Steady (s.sendColl n port dest c) :=
  .ite (steady_emit ..) (.ite (.refl _) ((steady_portSend ..).after (steady_emit ..)))

theorem steady_sendReport (s : State) (a : AgentRef) (typ : BitVec 8) (payload : List Byte) (form : Nat) : s.Steady (s.sendReport a typ payload
    form) :=
  .ite (steady_sendMgmt ..) (steady_updAgent ..)

theorem steady_setGq (s : State) (a : AgentRef) (q : Nat) (g : GroupQueue) : s.Steady (s.setGq a q g) := steady_updAgent ..

theorem steady_setOp (s : State) (a : AgentRef) (o : MemberOp) : s.Steady (s.setOp a o) := steady_updAgent ..

theorem steady_dropOp (s : State) (a : AgentRef) (o : MemberOp) : s.Steady (s.dropOp a o) := steady_updAgent ..

theorem steady_dropLaunchCopies (s : State) (group : Nat) (op : BitVec 32) : s.Steady (s.dropLaunchCopies group op) := ⟨rfl, fun h => h⟩

theorem steady_takeCopy (s : State) (a : AgentRef) (group : Nat) (op : BitVec 32) (bytes : List Byte) : s.Steady (s.takeCopy a group op bytes) :=
  .ite ⟨rfl, fun h => h⟩ (.refl _)

theorem steady_groupComplete (s : State) (a : AgentRef) (q : Nat) (d : List Byte) (status : Nat) (detail : Nat) (o : Option MemberOp)
    (copy : Bool) : s.Steady (s.groupComplete a q d status detail o copy) := by
  unfold State.groupComplete
  split; exacts [.refl _, .after (.ite (steady_takeCopy ..) (.refl _)) ((steady_emit ..).after ((steady_setGq ..).after (steady_updAgent ..)))]

theorem steady_memberSend (s : State) (a : AgentRef) (c : CollFields) : s.Steady (s.memberSend a c) := by
  unfold State.memberSend
  split; exacts [steady_sendColl .., .refl _]

theorem steady_sendMemberChunk (s : State) (a : AgentRef) (g : GroupQueue) (o : MemberOp) (c : Nat) (resend : Bool) : s.Steady
    (s.sendMemberChunk a g o c resend) := by
  unfold State.sendMemberChunk
  split
  · exact steady_memberSend ..
  · exact steady_forEach (fun _ _ => steady_memberSend ..) ..
  · dsimp only
    split
    · exact steady_memberSend ..
    · exact steady_memberSend ..

theorem steady_endOp (s : State) (a : AgentRef) (o : MemberOp) (status : Nat) (detail : Nat) (record : Bool) : s.Steady (s.endOp a o status
    detail record) :=
  (steady_dropOp ..).after (.ite (steady_groupComplete ..) (.refl _))

theorem steady_memberAbort (s : State) (a : AgentRef) (o : MemberOp) (reason : Nat) (record : Bool) : s.Steady (s.memberAbort a o reason record)
    := by
  refine .ite ((steady_endOp ..).after ?_) (steady_endOp ..)
  split
  · exact .ite (.refl _) (steady_memberSend ..)
  · exact .refl _

theorem steady_ringSend (s : State) (a : AgentRef) (g : GroupQueue) (o : MemberOp) (x : MemberChunk) (resend : Bool) :
    s.Steady (s.ringSend a g o x resend) := by
  unfold State.ringSend
  extract_lets f el c p
  exact (steady_portSend ..).after (steady_emit ..)

theorem steady_sendOne (s : State) (a : AgentRef) (q : Nat) : s.Steady (s.sendOne a q) := by
  unfold State.sendOne
  split
  · exact .refl _
  · dsimp only
    split
    · exact .refl _
    · exact .ite (.refl _) (.ite ((steady_ringSend ..).after (steady_setOp ..)) (.ite (steady_memberAbort ..) ((steady_sendMemberChunk ..).after
          (steady_setOp ..))))

theorem steady_sendMany (s : State) (a : AgentRef) (q n : Nat) : s.Steady (s.sendMany a q n) := by
  induction n generalizing s with
  | zero => exact .refl _
  | succ n ih => exact (ih _).after (steady_sendOne ..)

theorem steady_takeDesc (s : State) (a : AgentRef) (q : Nat) (d : List Byte) (copy : Bool) : s.Steady (s.takeDesc a q d copy) := by
  unfold State.takeDesc
  split
  · exact .refl _
  · split
    · exact steady_groupComplete ..
    · exact .ite (steady_groupComplete ..) (.after (.ite (.refl _) (steady_sendReport ..)) ((steady_updAgent ..).after (steady_setGq ..)))

theorem steady_takeRing (s : State) (a : AgentRef) (q n : Nat) : s.Steady (s.takeRing a q n) := by
  induction n generalizing s with
  | zero => exact .refl _
  | succ n ih =>
    unfold State.takeRing
    split
    · exact .refl _
    · exact .ite (.refl _) ((ih _).after ((steady_takeDesc ..).after (steady_setGq ..)))

theorem steady_finishOps (s : State) (a : AgentRef) (q : Nat) : s.Steady (s.finishOps a q) := by
  unfold State.finishOps
  dsimp only
  split
  · exact steady_forEach (fun _ _ => steady_endOp ..) ..
  · exact .ite ((steady_sendReport ..).after ((steady_setGq ..).after (steady_forEach (fun _ _ => steady_endOp ..) ..))) (steady_forEach
        (fun _ _ => steady_endOp ..) ..)

theorem steady_workQueue (s : State) (a : AgentRef) (q : Nat) : s.Steady (s.workQueue a q) := by
  unfold State.workQueue
  split; exacts [.refl _, (steady_finishOps ..).after (steady_sendMany ..)]

theorem steady_takeTurns (s : State) (a : AgentRef) (n : Nat) : s.Steady (s.takeTurns a n) := by
  induction n generalizing s with
  | zero => exact .refl _
  | succ n ih =>
    unfold State.takeTurns
    split
    · exact .refl _
    · exact (ih _).after ((steady_workQueue ..).after ((steady_takeRing ..).after (steady_updAgent ..)))

theorem steady_runQueue (s : State) (a : AgentRef) (q : Nat) : s.Steady (s.runQueue a q) := (steady_workQueue ..).after (steady_takeTurns ..)

theorem steady_signalWord (s : State) (a : AgentRef) (g : GroupQueue) (o : MemberOp) (c : Nat) : s.Steady (s.signalWord a g o c) :=
  .ite (steady_updAgent ..) (.refl _)

theorem steady_memberTake (s : State) (a : AgentRef) (g : GroupQueue) (o : MemberOp) (c : Nat) (mem : Memory) (elided : Bool) (flags : Nat)
    (scalar : Option Nat) : s.Steady (s.memberTake a g o c mem elided flags scalar) :=
  (steady_memberSend ..).after ((steady_setOp ..).after ((steady_signalWord ..).after (steady_updAgent ..)))

theorem steady_genDiscard (s : State) (a : AgentRef) (got : BitVec 8) (want : BitVec 8) : s.Steady (s.genDiscard a got want) := steady_raiseAgent ..

theorem steady_memberResult (s : State) (a : AgentRef) (p : Packet) : s.Steady (s.memberResult a p) := by
  unfold State.memberResult
  dsimp only
  split
  · exact .refl _
  · refine .ite (.refl _) (.ite (steady_genDiscard ..) ?_)
    split
    · exact .refl _
    · refine .ite (.refl _) ?_
      split
      · exact steady_memberTake ..
      · exact .ite (steady_setOp ..) (steady_memberTake ..)
      · exact steady_memberTake ..

theorem steady_memberRootAck (s : State) (a : AgentRef) (h : Header) : s.Steady (s.memberRootAck a h) := by
  unfold State.memberRootAck
  split
  · exact .refl _
  · refine .ite (.refl _) (.ite (steady_genDiscard ..) (.ite ((steady_runQueue ..).after (steady_endOp ..)) ?_))
    split
    · exact .refl _
    · refine .ite (.refl _) ((steady_runQueue ..).after ((steady_setOp ..).after ?_))
      split
      · exact steady_setGq ..
      · exact .refl _

theorem steady_ringFinish (s : State) (a : AgentRef) (g : GroupQueue) (o : MemberOp) (c : Nat) (x : List Byte × BitVec 32) : s.Steady
    (s.ringFinish a g o c x) :=
  (steady_setOp ..).after ((steady_signalWord ..).after (steady_updAgent ..))

theorem steady_ringPass (s : State) (a : AgentRef) (g : GroupQueue) (o : MemberOp) (c : Nat) (final : Bool) (x : List Byte × BitVec 32) :
    s.Steady (s.ringPass a g o c final x) :=
  (steady_ringSend ..).after (steady_setOp ..)

theorem steady_ringChunk (s : State) (a : AgentRef) (p : Packet) : s.Steady (s.ringChunk a p) := by
  unfold State.ringChunk
  dsimp only
  split
  · exact .refl _
  · split
    · exact .refl _
    · split
      · exact (steady_portSend ..).after (steady_emit ..)
      · split
        · exact .ite ((steady_runQueue ..).after (.ite ((steady_ringFinish ..).after ((steady_portSend ..).after (steady_emit ..)))
              ((steady_ringPass ..).after ((steady_ringFinish ..).after ((steady_portSend ..).after (steady_emit ..))))))
              ((steady_runQueue ..).after (.ite ((steady_ringPass ..).after ((steady_ringFinish ..).after ((steady_setOp ..).after
              ((steady_portSend ..).after (steady_emit ..))))) ((steady_ringPass ..).after (.ite ((steady_setOp ..).after
              ((steady_portSend ..).after (steady_emit ..))) ((steady_updAgent ..).after ((steady_setOp ..).after ((steady_portSend ..).after
              (steady_emit ..))))))))
        · exact .ite ((steady_portSend ..).after (steady_emit ..)) ((steady_runQueue ..).after (.ite ((steady_ringFinish ..).after
              ((steady_portSend ..).after (steady_emit ..))) ((steady_ringPass ..).after ((steady_ringFinish ..).after
              ((steady_portSend ..).after (steady_emit ..))))))

theorem steady_ringAck (s : State) (a : AgentRef) (h : Header) : s.Steady (s.ringAck a h) := by
  unfold State.ringAck
  split; exacts [.refl _, .ite ((steady_runQueue ..).after (steady_setOp ..)) (.refl _)]

theorem steady_reissueOp (s : State) (a : AgentRef) (g : GroupQueue) (o : MemberOp) (tree : BitVec 24) (gen : BitVec 8) : s.Steady (s.reissueOp
    a g o tree gen) :=
  (steady_forEach (fun _ _ => steady_sendMemberChunk ..) ..).after (steady_setOp ..)

theorem steady_takeGo (s : State) (a : AgentRef) (q : Nat) (g : GroupQueue) (n : GoNotice) : s.Steady (s.takeGo a q g n) := by
  unfold State.takeGo
  split
  · split
    · exact .after (.ite (steady_forEach (fun _ _ => steady_endOp ..) ..) (.refl _)) (steady_setGq ..)
    · split
      · exact (steady_runQueue ..).after (steady_memberAbort ..)
      · exact .refl _
  · split
    · split
      · exact (steady_runQueue ..).after ((steady_forEach (fun _ _ => steady_reissueOp ..) ..).after ((steady_updAgent ..).after
            ((steady_updAgent ..).after (steady_setGq ..))))
      · split
        · exact (steady_updAgent ..).after (steady_setGq ..)
        · dsimp only
          split
          · exact .ite ((steady_updAgent ..).after (steady_setGq ..)) ((steady_runQueue ..).after ((steady_setOp ..).after
                ((steady_updAgent ..).after (steady_setGq ..))))
          · exact (steady_runQueue ..).after ((steady_updAgent ..).after (steady_setGq ..))
    · split
      · exact (steady_runQueue ..).after ((steady_forEach (fun _ _ => steady_reissueOp ..) ..).after ((steady_updAgent ..).after
            ((steady_updAgent ..).after (steady_setGq ..))))
      · split
        · exact (steady_updAgent ..).after (steady_setGq ..)
        · dsimp only
          split
          · exact .ite ((steady_updAgent ..).after (steady_setGq ..)) ((steady_runQueue ..).after ((steady_setOp ..).after
                ((steady_updAgent ..).after (steady_setGq ..))))
          · exact (steady_runQueue ..).after ((steady_updAgent ..).after (steady_setGq ..))

theorem steady_setCtxs (s : State) (n : Node) (l : List Ctx) : s.Steady (s.setCtxs n l) := by
  unfold State.setCtxs
  split; exacts [⟨rfl, fun h => h⟩, steady_updAgent ..]

theorem steady_setCtx (s : State) (n : Node) (c : Ctx) : s.Steady (s.setCtx n c) := steady_setCtxs ..

theorem steady_sendInput (s : State) (n : Node) (h : BitVec 128) (kids : List (BitVec 128)) (i : Nat) (f : CollFields) : s.Steady (s.sendInput n
    h kids i f) := by
  unfold State.sendInput
  split
  · split
    · exact .ite (steady_memberResult ..) (steady_memberRootAck ..)
    · exact .refl _
  · split
    · exact steady_sendColl ..
    · exact .refl _

theorem steady_sendInputs (s : State) (n : Node) (h : BitVec 128) (kids : List (BitVec 128)) (f : CollFields) : s.Steady (s.sendInputs n h kids
    f) :=
  steady_forEach (fun _ _ => steady_sendInput ..) ..

theorem steady_sendUp (s : State) (n : Node) (h : BitVec 128) (f : CollFields) : s.Steady (s.sendUp n h f) := by
  unfold State.sendUp
  split; exacts [steady_sendColl .., by split; exacts [by split; exacts [steady_sendColl .., .refl _], .refl _]]

theorem steady_sendResult (s : State) (n : Node) (h : BitVec 128) (kids : List (BitVec 128)) (c : Ctx) (x : ChunkSet) : s.Steady (s.sendResult n
    h kids c x) :=
  steady_forEach (fun _ _ => steady_sendInputs ..) ..

theorem steady_rootAbort (s : State) (n : Node) (h : BitVec 128) (kids : List (BitVec 128)) (c : Ctx) (op : BitVec 32) (index reason : Nat) :
    s.Steady (s.rootAbort n h kids c op index reason) := by
  unfold State.rootAbort
  extract_lets s1 _ s2
  have h2 : s1.Steady s2 := by
    cases n with
    | ctl => exact .trans (steady_satFld ..) (.ite (steady_satFld ..) (.refl _))
    | agent => exact steady_raiseAgent ..
  exact (steady_sendInputs ..).after (h2.after (steady_setCtx ..))

theorem steady_nodeAbort (s : State) (n : Node) (h : BitVec 128) (kids : List (BitVec 128)) (c : Ctx) (op : BitVec 32) (index : Nat)
    (reason : Nat) : s.Steady (s.nodeAbort n h kids c op index reason) :=
  .ite (.ite (.refl _) (steady_rootAbort ..)) ((steady_sendUp ..).after (steady_setCtx ..))

theorem steady_nodeFault (s : State) (n : Node) (h : BitVec 128) (kids : List (BitVec 128)) (c : Ctx) (op : BitVec 32) (index : Nat)
    (reason : Nat) : s.Steady (s.nodeFault n h kids c op index reason) := by
  refine (steady_nodeAbort ..).after ?_
  split
  · exact steady_raiseAgent ..
  · exact steady_raise ..

theorem steady_charge (s : State) (n : Node) (h : Header) : s.Steady (s.charge n h) := by
  unfold State.charge
  split; exacts [.ite (steady_updAgent ..) (.refl _), .refl _]

theorem steady_releaseWithheld (s : State) (n : Node) : s.Steady (s.releaseWithheld n) := (linkOnly_releaseWithheld ..).steady

theorem steady_collDiscard (s : State) (n : Node) (tree : BitVec 24) : s.Steady (s.collDiscard n tree) := by
  unfold State.collDiscard
  split; exacts [steady_raiseAgent .., steady_raise ..]

theorem steady_nodeGenDiscard (s : State) (n : Node) (got : BitVec 8) (want : BitVec 8) : s.Steady (s.nodeGenDiscard n got want) := by
  unfold State.nodeGenDiscard
  split; exacts [steady_genDiscard .., steady_raise ..]

theorem steady_closeSet (s : State) (n : Node) (h : BitVec 128) (kids : List (BitVec 128)) (c : Ctx) (x : ChunkSet) : s.Steady (s.closeSet n h
    kids c x) :=
  .ite (.refl _) (.ite ((steady_sendResult ..).after (steady_setCtx ..)) ((steady_forEach (fun _ _ => steady_sendUp ..) ..).after
    (steady_setCtx ..)))

theorem steady_storeChunk (s : State) (n : Node) (h : BitVec 128) (kids : List (BitVec 128)) (c : Ctx) (x : ChunkSet) (k : Contribution) :
    s.Steady (s.storeChunk n h kids c x k) :=
  .ite ((steady_closeSet ..).after (steady_setCtx ..)) (steady_setCtx ..)

theorem steady_nodeChunk (s : State) (n : Node) (h : BitVec 128) (kids : List (BitVec 128)) (c : Ctx) (i : Nat) (p : Packet) : s.Steady
    (s.nodeChunk n h kids c i p) := by
  refine .ite ?_ ?_
  · split
    · exact steady_sendInput ..
    · exact steady_nodeAbort ..
  · split
    · exact steady_sendInput ..
    · split
      · split
        · exact steady_sendInput ..
        · exact .ite (.ite (steady_closeSet ..) (.refl _)) (.ite (steady_nodeFault ..) (steady_storeChunk ..))
        · exact .ite ((steady_forEach (fun _ _ => steady_sendUp ..) ..).after (steady_setCtx ..)) (.refl _)
        · exact .ite (steady_forEach (fun _ _ => steady_sendInput ..) ..) (.refl _)
      · exact .ite (steady_sendInput ..) (.ite (steady_collDiscard ..) (.ite (steady_nodeFault ..) (steady_storeChunk ..)))

theorem steady_nodeResult (s : State) (n : Node) (h : BitVec 128) (kids : List (BitVec 128)) (c : Ctx) (p : Packet) : s.Steady (s.nodeResult n h
    kids c p) := by
  unfold State.nodeResult
  split; exacts [.ite (.ite (steady_setCtx ..) ((steady_sendResult ..).after (steady_setCtx ..))) (.refl _), .refl _]

theorem steady_hearUplink (s : State) (h : Header) : s.Steady (s.hearUplink h) := ⟨rfl, fun h => h⟩

theorem steady_nodeParentAck (s : State) (n : Node) (h : BitVec 128) (kids : List (BitVec 128)) (c : Ctx) (p : Packet) : s.Steady
    (s.nodeParentAck n h kids c p) := by
  unfold State.nodeParentAck
  split
  · exact .ite (.refl _) ((steady_sendInputs ..).after (steady_setCtx ..))
  · dsimp only
    split
    · exact .ite ((steady_sendInputs ..).after (steady_setCtx ..)) (.refl _)
    · exact .refl _

theorem steady_nodeChildAck (s : State) (n : Node) (h : BitVec 128) (kids : List (BitVec 128)) (c : Ctx) (i : Nat) (p : Packet) : s.Steady
    (s.nodeChildAck n h kids c i p) := by
  unfold State.nodeChildAck
  split
  · dsimp only
    split
    · exact steady_sendInput ..
    · split
      · split
        · exact steady_sendInput ..
        · exact .ite (steady_setCtx ..) ((steady_sendInputs ..).after (steady_setCtx ..))
        · exact .ite ((steady_sendUp ..).after (steady_setCtx ..)) (.refl _)
        · exact steady_collDiscard ..
      · exact .ite (steady_sendInput ..) (steady_collDiscard ..)
  · dsimp only
    split
    · exact steady_sendInput ..
    · split
      · split
        · exact steady_sendInput ..
        · exact .ite (steady_setCtx ..) ((steady_sendUp ..).after (steady_setCtx ..))
        · exact .ite ((steady_sendUp ..).after (steady_setCtx ..)) (.refl _)
        · exact steady_collDiscard ..
      · exact .ite (steady_sendInput ..) (steady_collDiscard ..)

theorem steady_showCtx (s : State) (a : AgentRef) : s.Steady (s.showCtx a) := (steady_setJfld ..).after (steady_setJfld ..)

theorem steady_freeCtxs (s : State) (a : AgentRef) (p : Ctx → Bool) : s.Steady (s.freeCtxs a p) := (steady_showCtx ..).after (steady_updAgent ..)

theorem steady_beginComputeReset (s : State) (a : AgentRef) : s.Steady (s.beginComputeReset a) :=
  .ite (.refl _) ((steady_setJfld ..).after ((steady_setJfld ..).after ((steady_updAgent ..).after ((steady_forEach (fun _ _ =>
    steady_memberAbort ..) ..).after ((steady_update rfl).after ((steady_update rfl).after (steady_raiseAgent ..)))))))

theorem steady_endComputeReset (s : State) (a : AgentRef) : s.Steady (s.endComputeReset a) :=
  .ite (.refl _) ((steady_raiseAgent ..).after ((steady_setJfld ..).after ⟨rfl, fun h => h⟩))

theorem steady_linkDomainReset (s : State) (a : AgentRef) : s.Steady (s.linkDomainReset a) :=
  (steady_update rfl).after ((steady_setJfld ..).after ((steady_updAgent ..).after (steady_updAgent ..)))

theorem steady_linkResetDone (s : State) (a : AgentRef) (origin : Fid) : s.Steady (s.linkResetDone a origin) :=
  (steady_update rfl).after (steady_updAgent ..)

theorem steady_forceAgent (s : State) (a : AgentRef) (src : Nat) : s.Steady (s.forceAgent a src) :=
  .after (.ite (.refl _) (.ite ((steady_sendUrgent ..).after (steady_bufferEvent ..)) (steady_bufferEvent ..))) (steady_countAgentSource ..)

theorem steady_writeJxSrc (s : State) (a : AgentRef) (src : Nat) (v : Word64) : s.Steady (s.writeJxSrc a src v) :=
  .after (.ite (steady_forceAgent ..) (.refl _)) (.after (.ite (steady_agentViolation ..) (.refl _)) (steady_setJx ..))

theorem steady_writeSample (s : State) (a : AgentRef) (v : Word64) : s.Steady (s.writeSample a v) := steady_foldl (fun _ _ => steady_setJfld ..) ..

theorem steady_writeHb (s : State) (a : AgentRef) (v : Word64) : s.Steady (s.writeHb a v) :=
  .after (.ite (steady_setJfld ..) (.refl _)) (.ite (steady_setJfld ..) (.refl _))

theorem steady_askComputeReset (s : State) (a : AgentRef) : s.Steady (s.askComputeReset a) := by
  unfold State.askComputeReset
  split; exacts [.refl _, steady_beginComputeReset ..]

theorem steady_takeRejoinDone (s : State) (a : AgentRef) : s.Steady (s.takeRejoinDone a) := .ite (steady_setJfld ..) (.refl _)

theorem steady_askLinkReset (s : State) (a : AgentRef) : s.Steady (s.askLinkReset a).1 := by
  unfold State.askLinkReset
  split <;> dsimp only
  · exact (steady_linkResetDone ..).after (steady_linkDomainReset ..)
  · exact steady_raiseAgent ..

theorem steady_writeCtrl (s : State) (a : AgentRef) (v : Word64) : s.Steady (s.writeCtrl a v).1 :=
  .after (.ite_fst (steady_askLinkReset ..) (.refl _)) (.after (.ite (steady_askComputeReset ..) (.refl _)) (.ite (steady_takeRejoinDone ..)
    (.refl _)))

theorem steady_jxWrite (s : State) (a : AgentRef) (off : Nat) (v : Word64) : s.Steady (s.jxWrite a off v).1 := by
  have hv : s.Steady (s.agentViolation a .operator) := steady_agentViolation ..
  refine .ite_fst hv (.ite_fst (steady_writeCtrl ..) (.ite_fst (steady_writeSample ..) (.ite_fst (steady_writeHb ..)
    (.ite_fst (steady_writeJxSrc ..) ?_))))
  split
  · exact steady_setJx ..
  · exact .refl _

theorem steady_regRespond (s : State) (a : AgentRef) (h : Header) (value : Word64) (status : Nat) : s.Steady (s.regRespond a h value status) :=
  steady_originate ..

theorem steady_noteRefused (s : State) (a : AgentRef) (h : Header) (refused : Bool) : s.Steady (s.noteRefused a h refused) :=
  .ite (steady_setRx ..) (.refl _)

theorem steady_sendStatus (s : State) (a : AgentRef) : s.Steady (s.sendStatus a) := .ite ((steady_sendMgmt ..).after (steady_updAgent ..)) (.refl _)

theorem steady_sendKept (s : State) (a : AgentRef) : s.Steady (s.sendKept a) :=
  (steady_forEach (fun _ _ => steady_originate ..) ..).after ((steady_setTx ..).after ((steady_forEach (fun _ _ => steady_sendMgmt ..) ..).after
    (steady_updAgent ..)))

theorem steady_unorphan (s : State) (a : AgentRef) : s.Steady (s.unorphan a) :=
  .ite ((steady_sendStatus ..).after (.after (.ite (steady_sendEvents ..) (.refl _)) ((steady_sendUrgent ..).after (steady_setJfld ..)))) (.refl _)

theorem steady_showMissed (s : State) (a : AgentRef) : s.Steady (s.showMissed a) := steady_setJfld ..

theorem steady_countMissed (s : State) (a : AgentRef) : s.Steady (s.countMissed a) := by
  unfold State.countMissed
  split; exacts [(steady_showMissed ..).after (steady_updAgent ..), .refl _]

theorem steady_recallReports (s : State) (a : AgentRef) (far : Fid) : s.Steady (s.recallReports a far) := by
  unfold State.recallReports
  exact steady_updAgent ..

theorem steady_restartStreams (s : State) (a : AgentRef) (far : Fid) : s.Steady (s.restartStreams a far) :=
  (steady_forEach (fun _ _ => steady_emit ..) ..).after ((steady_updAgent ..).after ((steady_setStreams ..).after (steady_recallReports ..)))

theorem steady_acceptClaim (s : State) (a : AgentRef) (p : Packet) (deviceMatch : Bool) (higher : Bool) : s.Steady (s.acceptClaim a p
    deviceMatch higher) :=
  (steady_sendUrgent ..).after ((steady_unorphan ..).after ((steady_complete ..).after (.after (.ite ((steady_restartStreams ..).after
    (steady_restartStreams ..)) (.refl _)) ((steady_setJfld ..).after ((steady_setJfld ..).after (.after (.ite (steady_setJfld ..) (.refl _))
    (steady_updAgent ..)))))))

theorem steady_correctPhase (s : State) (a : AgentRef) (port : Nat) (p : Packet) : s.Steady (s.correctPhase a port p) := by
  unfold State.correctPhase
  exact steady_updAgent ..

theorem steady_takeBeacon (s : State) (a : AgentRef) (p : Packet) : s.Steady (s.takeBeacon a p) :=
  (steady_setJfld ..).after ((steady_updAgent ..).after (.ite ((steady_updAgent ..).after ((steady_setJfld ..).after (steady_setJfld ..)))
    (.refl _)))

theorem steady_deferredDeep (s : State) (a : AgentRef) : s.Steady (s.deferredDeep a) := .ite (steady_updAgent ..) (.refl _)

theorem steady_securityRecord (s : State) (src : Nat) (detail : BitVec 16) : s.Steady (s.securityRecord src detail) :=
  .ite (.refl _) (.after (.ite (.refl _) (steady_present ..)) ((steady_countSource ..).after ⟨rfl, fun h => h⟩))

theorem steady_setPart (s : State) (p : Nat) (x : PartSt) : s.Steady (s.setPart p x) := ⟨rfl, fun h => h⟩

theorem steady_setDev (s : State) (e : Nat) (x : DevSt) : s.Steady (s.setDev e x) := ⟨rfl, fun h => h⟩

theorem steady_showKeys (s : State) : s.Steady s.showKeys := steady_setFld ..

theorem steady_showScrubs (s : State) : s.Steady s.showScrubs := steady_setFld ..

theorem steady_refuseAction (s : State) : s.Steady s.refuseAction := (steady_raise ..).after (steady_satFld ..)

theorem steady_extendMeas (s : State) (i : Nat) (d : BitVec 384) : s.Steady (s.extendMeas i d) := ⟨rfl, fun h => h⟩

theorem steady_makeKey (s : State) (typ : Nat) (part : BitVec 12) (l : Level) : s.Steady (s.makeKey typ part l).1 :=
  .ite_fst (.refl _) ((steady_showKeys ..).after (.after (.ite (steady_useFree ..) (.refl _)) ⟨rfl, fun h => h⟩))

theorem steady_clearTarget (s : State) (t : Nat × Nat × Nat) : s.Steady (s.clearTarget t) := by
  unfold State.clearTarget
  split
  · exact steady_setPort ..
  · split
    · exact steady_setPort ..
    · exact .refl _
  · split
    · exact steady_updAgent ..
    · exact .refl _

theorem steady_zeroKey (s : State) (n : Nat) : s.Steady (s.zeroKey n) := by
  unfold State.zeroKey
  split
  · exact .refl _
  · exact (steady_showKeys _).after (State.Steady.after (t := State.forEach ..) ⟨rfl, fun h => h⟩ (steady_forEach (fun _ _ =>
        steady_clearTarget ..) ..))

theorem steady_zeroPartition (s : State) (p : Nat) : s.Steady (s.zeroPartition p) := steady_forEach (fun _ _ => steady_zeroKey ..) ..

theorem steady_wrapKey (s : State) (n : Nat) (w : Nat) : s.Steady (s.wrapKey n w).1 := ⟨rfl, fun h => h⟩

theorem steady_keyPort (s : State) (n : Node) (port : Nat) (receive : Bool) (act : Nat) (k : LinkKey) : s.Steady (s.keyPort n port receive act
    k).1 :=
  .ite_fst (steady_setPort ..) (.ite_fst (.refl _) (steady_setPort ..))

theorem steady_addTarget (s : State) (n : Nat) (k : Key) (t : Nat × Nat × Nat) : s.Steady (s.addTarget n k t) := ⟨rfl, fun h => h⟩

theorem steady_installKey (s : State) (n : Nat) (target : Nat) (ra : Nat) (rb : Nat) (rb1 : Nat) : s.Steady (s.installKey n target ra rb rb1).1 := by
  unfold State.installKey
  split
  · exact .refl _
  · split
    · exact .ite_fst (.ite_fst ((steady_addTarget ..).after (steady_keyPort ..)) (.refl _)) (.refl _)
    · split
      · exact .refl _
      · exact .ite_fst (.ite_fst ((steady_addTarget ..).after (steady_keyPort ..)) (.refl _)) (.refl _)
    · split
      · exact .refl _
      · exact .ite_fst ((steady_addTarget ..).after (steady_updAgent ..)) (.refl _)

theorem steady_kinst (s : State) (n : Nat) (target : Nat) (ra : Nat) (rb : Nat) (rb1 : Nat) : s.Steady (s.kinst n target ra rb rb1).1 :=
  .ite_fst (.refl _) (.ite_fst (steady_installKey ..) (steady_securityRecord ..))

theorem steady_drawLinkKey (s : State) : s.Steady s.drawLinkKey.1 := (steady_useFree ..).after ⟨rfl, fun h => h⟩

theorem steady_rekeyOneWay (s : State) (from_ : Node) (fp : Nat) (dst : Node) (tp : Nat) (act : Nat) : s.Steady (s.rekeyOneWay from_ fp dst tp
    act) :=
  .ite (.refl _) ((steady_keyPort ..).after ((steady_keyPort ..).after (steady_drawLinkKey ..)))

theorem steady_scrubAgain (s : State) (device : Node) (facing : Node) (p : Nat) : s.Steady (s.scrubAgain device facing p) := by
  unfold State.scrubAgain
  split; exacts [.refl _, .ite (steady_setPort ..) (.refl _)]

theorem steady_rekeyLink (s : State) (n : Node) (p : Nat) (ahead : Nat) : s.Steady (s.rekeyLink n p ahead) := by
  unfold State.rekeyLink
  split; exacts [.refl _, (steady_rekeyOneWay ..).after ((steady_rekeyOneWay ..).after ((steady_scrubAgain ..).after (steady_scrubAgain ..)))]

theorem steady_openPart (s : State) (p : Nat) : s.Steady (s.openPart p) :=
  .ite ((steady_mirrorOut ..).after ((steady_setPart ..).after ⟨rfl, fun h => h⟩)) (steady_refuseAction ..)

theorem steady_registerEndpoint (s : State) (a : AgentRef) (p : BitVec 12) (e : Nat) : s.Steady (s.registerEndpoint a p e) := by
  unfold State.registerEndpoint
  exact steady_updAgent ..

theorem steady_setPartition (s : State) (e : Nat) (p : BitVec 12) : s.Steady (s.setPartition e p) := by
  unfold State.setPartition
  split; exacts [.refl _, .after (.ite (steady_updAgent ..) (steady_registerEndpoint ..)) (steady_updAgent ..)]

theorem steady_assignDev (s : State) (e : Nat) (p : Nat) : s.Steady (s.assignDev e p) :=
  .ite ((steady_mirrorOut ..).after ((steady_setPartition ..).after (steady_setDev ..))) (steady_refuseAction ..)

theorem steady_orderScrub (s : State) (e : Nat) : s.Steady (s.orderScrub e) := (steady_setPartition ..).after (steady_setDev ..)

theorem steady_releaseDev (s : State) (e : Nat) : s.Steady (s.releaseDev e) := .ite (steady_orderScrub ..) (steady_refuseAction ..)

theorem steady_rescrubDev (s : State) (e : Nat) : s.Steady (s.rescrubDev e) := .ite (steady_orderScrub ..) (steady_refuseAction ..)

theorem steady_scrubMode (s : State) (a : AgentRef) (f : Fid) (on : Bool) : s.Steady (s.scrubMode a f on) :=
  steady_forEach (fun _ _ => steady_setPort ..) ..

theorem steady_keepRecord (s : State) (l : List Byte) : s.Steady (s.keepRecord l) := by
  have h (r : List (List Byte)) d : s.Steady (State.securityRecord { s with sec := { s.sec with scrubRecords := r } } 0x1A04 d) :=
    (steady_securityRecord ..).after ⟨rfl, fun h => h⟩
  exact h ..

theorem steady_endScrub (s : State) (e : Nat) (result : Nat) (zeroed : Nat) (verified : Nat) (mem : Nat) : s.Steady (s.endScrub e result zeroed
    verified mem) := by
  unfold State.endScrub
  dsimp only
  split
  · split
    · split
      · exact (steady_satFld ..).after ((steady_showScrubs ..).after ((steady_setDev ..).after ((steady_setEngine ..).after (steady_keepRecord ..))))
      · exact (steady_satFld ..).after ((steady_showScrubs ..).after ((steady_setDev ..).after (steady_keepRecord ..)))
    · split
      · exact (steady_raise ..).after ((steady_satFld ..).after ((steady_showScrubs ..).after ((steady_setDev ..).after
            ((steady_setEngine ..).after (steady_keepRecord ..)))))
      · exact (steady_raise ..).after ((steady_satFld ..).after ((steady_showScrubs ..).after ((steady_setDev ..).after (steady_keepRecord ..))))
  · split
    · split
      · exact .ite ((steady_endComputeReset ..).after ((steady_updAgent ..).after ((steady_scrubMode ..).after ((steady_satFld ..).after
            ((steady_showScrubs ..).after ((steady_setDev ..).after ((steady_setEngine ..).after (steady_keepRecord ..))))))))
            ((steady_updAgent ..).after ((steady_scrubMode ..).after ((steady_satFld ..).after ((steady_showScrubs ..).after
            ((steady_setDev ..).after ((steady_setEngine ..).after (steady_keepRecord ..)))))))
      · exact .ite ((steady_endComputeReset ..).after ((steady_updAgent ..).after ((steady_scrubMode ..).after ((steady_satFld ..).after
            ((steady_showScrubs ..).after ((steady_setDev ..).after (steady_keepRecord ..))))))) ((steady_updAgent ..).after
            ((steady_scrubMode ..).after ((steady_satFld ..).after ((steady_showScrubs ..).after ((steady_setDev ..).after
            (steady_keepRecord ..))))))
    · split
      · exact .ite ((steady_endComputeReset ..).after ((steady_updAgent ..).after ((steady_raise ..).after ((steady_satFld ..).after
            ((steady_showScrubs ..).after ((steady_setDev ..).after ((steady_setEngine ..).after (steady_keepRecord ..))))))))
            ((steady_updAgent ..).after ((steady_raise ..).after ((steady_satFld ..).after ((steady_showScrubs ..).after
            ((steady_setDev ..).after ((steady_setEngine ..).after (steady_keepRecord ..)))))))
      · exact .ite ((steady_endComputeReset ..).after ((steady_updAgent ..).after ((steady_raise ..).after ((steady_satFld ..).after
            ((steady_showScrubs ..).after ((steady_setDev ..).after (steady_keepRecord ..))))))) ((steady_updAgent ..).after
            ((steady_raise ..).after ((steady_satFld ..).after ((steady_showScrubs ..).after ((steady_setDev ..).after
            (steady_keepRecord ..))))))

theorem steady_beginScrub (s : State) (e g : Nat) : s.Steady (s.beginScrub e g) := by
  unfold State.beginScrub
  extract_lets seqNo d sec s1 s2 s3 keys sec s4
  have h1 : s.Steady s1 := ⟨rfl, fun h => h⟩
  have h3 : s.Steady s3 := (steady_showScrubs _).after ((steady_setEngine ..).after ((steady_setDev ..).after h1))
  have h4 : s3.Steady s4 := ⟨rfl, fun h => h⟩
  clear_value s4 s3
  split
  · exact (steady_endScrub ..).after h3
  · extract_lets s5 s6 s7
    have h6 : s4.Steady s6 := (steady_forEach (fun _ _ => steady_rekeyLink ..) ..).after (steady_updAgent ..)
    have h7 : s6.Steady s7 := (steady_beginComputeReset ..).after (steady_scrubMode ..)
    have h := h7.after (h6.after (h4.after h3))
    exact .ite ((steady_endScrub ..).after h) ((steady_updAgent ..).after h)

theorem steady_showQuote (s : State) : s.Steady s.showQuote := steady_setFld ..

theorem steady_spdmNext (s : State) : s.Steady s.spdmNext := (steady_useFree ..).after ⟨rfl, fun h => h⟩

theorem steady_spdmAnswer (s : State) (always : Bool) (l : List Byte) (early : Bool) : s.Steady (s.spdmAnswer always l early) :=
  (steady_spdmNext ..).after (.ite (.refl _) (.ite (steady_emit ..) (steady_emit ..)))

theorem steady_addRootHead (s : State) (t : TreeRec) : s.Steady (s.addRootHead t) := by
  unfold State.addRootHead
  split; exacts [⟨rfl, fun h => h⟩, .refl _]

theorem steady_showGroups (s : State) : s.Steady s.showGroups :=
  (steady_setFld ..).after ((steady_setFld ..).after ((steady_setFld ..).after ((steady_setFld ..).after ((steady_setFld ..).after
    (steady_setFld ..)))))

theorem steady_checkBounds (s : State) : s.Steady s.checkBounds :=
  (steady_showGroups ..).after ((steady_update rfl).after ((steady_forEach (fun _ _ => steady_lapse ..) ..).after (steady_forEach (fun _ _ =>
    steady_restore ..) ..)))

theorem steady_setGroup (s : State) (g : Group) : s.Steady (s.setGroup g) := ⟨rfl, fun h => h⟩

theorem steady_bindMember (s : State) (g : Group) (m : Member) : s.Steady (s.bindMember g m) := by
  unfold State.bindMember
  split; exacts [.refl _, steady_setGq ..]

theorem steady_bindAgent (s : State) (f : Fid) : s.Steady (s.bindAgent f) :=
  steady_forEach (fun _ _ => steady_forEach (fun _ _ => steady_bindMember ..) ..) ..

theorem steady_sendUplinks (s : State) (g : GroupRec) : s.Steady (s.sendUplinks g) := by
  unfold State.sendUplinks
  split; exacts [.refl _, steady_forEach (fun _ _ => by split; exacts [steady_sendPkt .., .refl _]) ..]

theorem steady_setNodeMap (s : State) (f : Fid) (m : NodeMap) : s.Steady (s.setNodeMap f m) := ⟨rfl, fun h => h⟩

theorem steady_mapTake (s : State) (f : Fid) (tree : BitVec 24) (group : Nat) (n : Nat) : s.Steady (s.mapTake f tree group n).1 :=
  steady_setNodeMap ..

theorem steady_mapFree (s : State) (f : Fid) (tree : BitVec 24) (group : Nat) : s.Steady (s.mapFree f tree group) := by
  unfold State.mapFree
  dsimp only
  split; exacts [steady_setNodeMap .., .refl _]

theorem steady_sendGo (s : State) (g : Group) (op : BitVec 32) (ring : Bool) (reissue : Bool) : s.Steady (s.sendGo g op ring reissue) :=
  steady_forEach (fun _ _ => steady_sendMgmt ..) ..

theorem steady_sendWithdrawn (s : State) (g : Group) (op : BitVec 32) (reason : Nat) : s.Steady (s.sendWithdrawn g op reason) :=
  steady_forEach (fun _ _ => steady_sendMgmt ..) ..

theorem steady_bindUplink (s : State) (h : Header) (payload : List Byte) : s.Steady (s.bindUplink h payload) :=
  steady_forEach (fun _ _ => .after (.ite (steady_sendGo ..) (.refl _)) (steady_setGroup ..)) ..

theorem steady_showTickets (s : State) : s.Steady s.showTickets := (steady_setFld ..).after (steady_setFld ..)

theorem steady_setTickets (s : State) (l : List Ticket) : s.Steady (s.setTickets l) := (steady_showTickets ..).after ⟨rfl, fun h => h⟩

theorem steady_drawTicket (s : State) (group : Nat) (goal : ResvFor) : s.Steady (s.drawTicket group goal) :=
  (steady_setTickets ..).after (steady_setFld ..)

theorem steady_freeAt (s : State) (g : Group) (f : Fid) : s.Steady (s.freeAt g f) :=
  .ite ((steady_showGroups ..).after ((steady_mapFree ..).after (steady_setCtxs ..))) (steady_sendHooked ..)

theorem steady_freeReservation (s : State) (g : Group) : s.Steady (s.freeReservation g) :=
  (steady_setGroup ..).after (steady_forEach (fun _ _ => steady_freeAt ..) ..)

theorem steady_endGresv (s : State) (e : Nat) (group : Nat) (status : Nat) : s.Steady (s.endGresv e group status) := by
  unfold State.endGresv
  dsimp only
  split; exacts [.ite (steady_setEngine ..) (.refl _), .refl _]

theorem steady_granted (s : State) (g : Group) (goal : ResvFor) : s.Steady (s.granted g goal) := by
  unfold State.granted
  split
  · exact (steady_setGroup ..).after (steady_forEach (fun _ _ => steady_sendGo ..) ..)
  · exact (steady_endGresv ..).after ((steady_sendGo ..).after (steady_setGroup ..))
  · exact (steady_forEach (fun _ _ => steady_sendGo ..) ..).after ((steady_sendGo ..).after ((steady_setGroup ..).after (steady_satFld ..)))

theorem steady_startReservation (s : State) (g : Group) (t : Ticket) : s.Steady (s.startReservation g t) :=
  .after (.ite (steady_granted ..) (.refl _)) ((steady_setGroup ..).after ((steady_forEach (fun _ _ => .after (.ite
    ((steady_showGroups ..).after (steady_setCtxs ..)) (steady_sendHooked ..)) (steady_mapTake ..)) ..).after (steady_mirrorOut ..)))

theorem steady_freeIdle (s : State) : s.Steady s.freeIdle := steady_forEach (fun _ _ => steady_freeReservation ..) ..

theorem steady_decideLaunch (s : State) (g : Group) (op : BitVec 32) (sparse : Bool) : s.Steady (s.decideLaunch g op sparse) :=
  .ite ((steady_sendGo ..).after (steady_setGroup ..)) (.ite ((steady_sendGo ..).after ((steady_satFld ..).after (steady_setGroup ..))) (.after
    (.ite (.refl _) (.ite (.ite (.refl _) (steady_satFld ..)) (.ite (steady_startReservation ..) ((steady_freeIdle ..).after
    ((steady_drawTicket ..).after (.ite (.refl _) (steady_satFld ..))))))) (steady_setGroup ..)))

theorem steady_launchNotice (s : State) (group : Nat) (op : BitVec 32) (sparse : Bool) : s.Steady (s.launchNotice group op sparse) := by
  unfold State.launchNotice
  split; exacts [.refl _, .ite (.refl _) (.ite (steady_setGroup ..) (steady_decideLaunch ..))]

theorem steady_endRollback (s : State) (g : Group) : s.Steady (s.endRollback g) := .ite (steady_setGroup ..) (steady_setGroup ..)

theorem steady_reserveAcked (s : State) (group : Nat) (f : Fid) : s.Steady (s.reserveAcked group f) := by
  unfold State.reserveAcked
  split
  · exact .refl _
  · split
    · exact .refl _
    · dsimp only
      split
      · exact (steady_freeAt ..).after (steady_setGroup ..)
      · split
        · split
          · exact (steady_granted ..).after (steady_setGroup ..)
          · exact steady_setGroup ..
        · exact steady_setGroup ..

theorem steady_reserveRefused (s : State) (group : Nat) (f : Fid) : s.Steady (s.reserveRefused group f) := by
  unfold State.reserveRefused
  split
  · exact .refl _
  · split
    · exact .refl _
    · dsimp only
      split
      · exact (steady_endRollback ..).after (.ite ((steady_drawTicket ..).after ((steady_forEach (fun _ _ => steady_sendPkt ..) ..).after (.ite
            ((steady_forEach (fun _ _ => steady_freeAt ..) ..).after ((steady_setGroup ..).after (steady_mapFree ..)))
            ((steady_setGroup ..).after (steady_mapFree ..))))) ((steady_setTickets ..).after ((steady_forEach (fun _ _ =>
            steady_sendPkt ..) ..).after (.ite ((steady_forEach (fun _ _ => steady_freeAt ..) ..).after ((steady_setGroup ..).after
            (steady_mapFree ..))) ((steady_setGroup ..).after (steady_mapFree ..))))))
      · exact (steady_endRollback ..).after ((steady_forEach (fun _ _ => steady_sendPkt ..) ..).after (.ite ((steady_forEach (fun _ _ =>
            steady_freeAt ..) ..).after ((steady_setGroup ..).after (steady_mapFree ..))) ((steady_setGroup ..).after (steady_mapFree ..))))

theorem steady_freeAnswered (s : State) (group : Nat) (f : Fid) : s.Steady (s.freeAnswered group f) := by
  unfold State.freeAnswered
  split
  · dsimp only
    split
    · exact steady_mapFree ..
    · exact .ite ((steady_endRollback ..).after (steady_mapFree ..)) (steady_mapFree ..)
  · dsimp only
    split
    · exact .refl _
    · exact .ite (steady_endRollback ..) (.refl _)

theorem steady_correctMap (s : State) (f : Fid) (off : Nat) (v : Word64) : s.Steady (s.correctMap f off v) :=
  .ite (steady_setNodeMap ..) (.ite (steady_setNodeMap ..) (.refl _))

theorem steady_gresv (s : State) (e : Nat) (group : Nat) : s.Steady (s.gresv e group).1 := by
  unfold State.gresv
  split
  · exact .refl _
  · exact .ite_fst (.refl _) (.ite_fst ((steady_sendGo ..).after ((steady_setGroup ..).after (steady_satFld ..))) ((steady_freeIdle ..).after
        ((steady_drawTicket ..).after (.ite (.refl _) (steady_satFld ..)))))

theorem steady_grel (s : State) (group : Nat) : s.Steady (s.grel group) := by
  unfold State.grel
  split; exacts [.refl _, .ite (.refl _) ((steady_freeReservation ..).after ((steady_sendWithdrawn ..).after (steady_setTickets ..)))]

theorem steady_gcancel (s : State) (group : Nat) (op : BitVec 32) : s.Steady (s.gcancel group op) := by
  unfold State.gcancel
  split; exacts [.refl _, (steady_sendWithdrawn ..).after (.after (.ite (steady_setTickets ..) (.refl _)) (steady_setGroup ..))]

theorem steady_glaunch (s : State) (group : Nat) (d : List Byte) : s.Steady (s.glaunch group d) := by
  unfold State.glaunch
  split; exacts [.refl _, (steady_launchNotice ..).after (steady_forEach (fun _ _ => steady_sendMgmt ..) ..)]

theorem steady_treesReplaced (s : State) (l : List (BitVec 24 × BitVec 24)) : s.Steady (s.treesReplaced l) := by
  refine (steady_checkBounds ..).after ((steady_forEach (fun s g => ?_) ..).after ((steady_update rfl).after
    (steady_forEach (fun _ _ => .ite (steady_addRootHead ..) (.refl _)) ..)))
  split
  · exact .refl _
  · next t _ =>
    extract_lets gid had s1 s2 old s3 s4
    have h3 : s.Steady s3 := (steady_setGroup ..).after ((steady_setTickets ..).after (steady_forEach (fun _ _ => steady_mapFree ..) ..))
    have h4 : s3.Steady s4 := by
      unfold s4 old
      split
      · exact .ite (.refl _) (.ite (steady_drawTicket ..) (steady_setTickets ..))
      · exact .refl _
    exact .ite ((steady_drawTicket ..).after (h4.after h3)) (h4.after h3)

theorem steady_endGroups (s : State) (part : Nat) : s.Steady (s.endGroups part) :=
  steady_forEach (fun _ _ => (steady_freeReservation ..).after ((steady_setGroup ..).after ((steady_forEach (fun _ _ =>
    steady_freeAt ..) ..).after ((steady_forEach (fun _ _ => steady_sendWithdrawn ..) ..).after (steady_setTickets ..))))) ..

theorem steady_dropGroups (s : State) (part : Nat) : s.Steady (s.dropGroups part) := by
  refine (steady_checkBounds ..).after ((steady_update rfl).after (steady_forEach (fun _ _ => steady_forEach (fun _ _ => ?_) ..) ..))
  split
  · exact steady_updAgent ..
  · exact .refl _

theorem steady_takeGroups (s : State) (number : Nat) (trees : List TreeRec) (groups : List GroupRec) :
    s.Steady (s.takeGroups number trees groups) := by
  refine (steady_showGroups _).after (.after (steady_forEach (fun s r => ?_) _ _) ((steady_forEach (fun _ _ => steady_addRootHead ..) _ _).after
    ⟨rfl, fun h => h⟩))
  exact (steady_sendUplinks ..).after ((steady_forEach (fun _ _ => steady_bindMember ..) ..).after ⟨rfl, fun h => h⟩)

theorem steady_showPlc (s : State) : s.Steady s.showPlc :=
  (steady_setFld ..).after ((steady_setFld ..).after ((steady_setFld ..).after ((steady_setFld ..).after (steady_setFld ..))))

theorem steady_setPage (s : State) (i : Nat) (x : Page) : s.Steady (s.setPage i x) := ⟨rfl, fun h => h⟩

theorem steady_addPage (s : State) (i : Nat) (x : Page) (at_ : Nat × Nat × Nat) : s.Steady (s.addPage i x at_) := by
  have h := steady_setPage s i { x with state := at_.1, endpoint := at_.2.1, slot := at_.2.2 }
  exact .ite ⟨h.1, h.2⟩ h

theorem steady_kvAnswer (s : State) (h : Header) (op : Nat) (tag : Nat) (r : KvReply) : s.Steady (s.kvAnswer h op tag r) := by
  unfold State.kvAnswer
  exact (steady_sendPkt ..).after (.ite (steady_satFld ..) (.refl _))

theorem steady_setSeq (s : State) (q : Seq) : s.Steady (s.setSeq q) := ⟨rfl, fun h => h⟩

theorem steady_kvOpen (s : State) (p : Packet) : s.Steady (s.kvOpen p).1 := by
  unfold State.kvOpen
  extract_lets want n part
  split
  · exact .refl _
  split
  · exact .refl _
  split
  · exact .refl _
  split
  · exact .refl _
  exact (steady_showPlc ..).after ⟨rfl, fun h => h⟩

theorem steady_setFills (s : State) (q : Seq) (tokens : Nat) : s.Steady (s.setFills q tokens) := by
  refine steady_forEach (fun _ _ => ?_) ..
  split
  · split
    · exact steady_setPage ..
    · exact .refl _
  · exact .refl _

theorem steady_growPages (q : Seq) (l : List Nat) (s : State) {r : State × Nat} (h : s.growPages q l = some r) : s.Steady r.1 := by
  induction l generalizing s r with
  | nil =>
    obtain rfl := Option.some.inj h
    exact .refl s
  | cons i l ih =>
    unfold State.growPages at h
    split at h
    · dsimp only at h
      split at h
      · next r' hr =>
        obtain rfl := Option.some.inj h
        exact (ih _ hr).after (steady_addPage ..)
      · cases h
    · cases h

theorem steady_kvGrow (s : State) (p : Packet) : s.Steady (s.kvGrow p).1 := by
  unfold State.kvGrow
  refine .ite_fst (.refl _) ?_
  split
  · exact .refl _
  refine .ite_fst (.refl _) ?_
  split
  · exact .refl _
  dsimp only
  split
  · exact .refl _
  · next r hr =>
    exact (steady_showPlc _).after ((steady_setFills ..).after ((steady_setSeq ..).after ((steady_growPages _ _ _ hr).after (steady_setSeq ..))))

theorem steady_cancelMoves (s : State) (f : Page → Bool) : s.Steady (s.cancelMoves f) := ⟨rfl, fun h => h⟩

theorem steady_kvClose (s : State) (p : Packet) : s.Steady (s.kvClose p).1 := by
  unfold State.kvClose
  split
  · exact .refl _
  · dsimp only
    split
    · exact .refl _
    · exact (steady_showPlc ..).after ((steady_setSeq ..).after ((steady_update rfl).after (steady_cancelMoves ..)))

theorem steady_kvPrefetch (s : State) (p : Packet) : s.Steady (s.kvPrefetch p).1 := by
  refine .ite_fst (.refl _) ?_
  split
  · exact .refl _
  · exact .ite_fst (.refl _) ⟨rfl, fun h => h⟩

theorem steady_renewPages (q : Seq) (l : List Nat) (s : State) {r : State × Nat} (h : s.renewPages q l = some r) : s.Steady r.1 := by
  induction l generalizing s r with
  | nil =>
    obtain rfl := Option.some.inj h
    exact .refl s
  | cons i l ih =>
    unfold State.renewPages at h
    split at h
    · split at h
      · next r' hr =>
        obtain rfl := Option.some.inj h
        exact (ih _ hr).after (steady_addPage ..)
      · cases h
    · cases h

theorem steady_kvRenew (s : State) (p : Packet) : s.Steady (s.kvRenew p).1 := by
  unfold State.kvRenew
  refine .ite_fst (.refl _) ?_
  split
  · exact .refl _
  refine .ite_fst (.refl _) ?_
  split
  · exact .refl _
  · next r hr => exact (steady_showPlc _).after (steady_renewPages _ _ _ hr)

theorem steady_kvAny (s : State) (p : Packet) : s.Steady (s.kvAny p).1 := by
  unfold State.kvAny
  split; exacts [steady_kvOpen .., steady_kvGrow .., steady_kvClose .., steady_kvPrefetch .., steady_kvRenew .., .refl _]

theorem steady_startMove (s : State) (entry : Nat) (endpoint : Nat) (slot : Nat) (tag : Option (Nat × Nat)) : s.Steady (s.startMove entry
    endpoint slot tag) := by
  unfold State.startMove
  split; exacts [.refl _, (steady_showPlc ..).after ((steady_update rfl).after (steady_setPage ..))]

theorem steady_setPageMem (s : State) (p : BitVec 12) (e : Nat) (m : Memory) : s.Steady (s.setPageMem p e m) := by
  refine .ite ⟨rfl, fun h => h⟩ ?_
  split
  · exact steady_updAgent ..
  · exact .refl _

theorem steady_losePage (s : State) (entry : Nat) : s.Steady (s.losePage entry) := by
  unfold State.losePage
  split; exacts [(steady_satFld ..).after (steady_setPage ..), .refl _]

theorem steady_losePages (s : State) (es : List Nat) : s.Steady (s.losePages es) :=
  .ite (.refl _) ((steady_showPlc ..).after ((steady_raise ..).after ((steady_forEach (fun _ _ => steady_forEach (fun _ _ =>
    steady_sendPkt ..) ..) ..).after ((steady_update rfl).after (steady_forEach (fun _ _ => steady_losePage ..) ..)))))

theorem steady_endMove (s : State) (m : Move) (ok : Bool) : s.Steady (s.endMove m ok) := by
  unfold State.endMove
  split
  · dsimp only
    split
    · exact ⟨rfl, fun h => h⟩
    · exact (steady_losePages ..).after ⟨rfl, fun h => h⟩
  · split
    · dsimp only
      split
      · exact ⟨rfl, fun h => h⟩
      · exact (steady_showPlc ..).after ((steady_satFld ..).after ((steady_update rfl).after ((steady_setPage ..).after
            ((steady_mirrorOut ..).after ((steady_setPageMem ..).after ⟨rfl, fun h => h⟩)))))
    · dsimp only
      split
      · exact ⟨rfl, fun h => h⟩
      · exact (steady_showPlc ..).after ((steady_satFld ..).after ((steady_update rfl).after ((steady_setPage ..).after
            ((steady_mirrorOut ..).after ((steady_setPageMem ..).after ⟨rfl, fun h => h⟩)))))

theorem steady_setNocPair (s : State) (p : NocPair) : s.Steady (s.setNocPair p) := ⟨rfl, fun h => h⟩

theorem steady_showRails (s : State) : s.Steady s.showRails := steady_setFld ..

theorem steady_setTemp (s : State) (source : Nat) (celsius : Nat) : s.Steady (s.setTemp source celsius) := (steady_setFld ..).after ⟨rfl, fun h => h⟩

theorem steady_showGated (s : State) : s.Steady s.showGated := steady_setFld ..

theorem steady_setQuarter (s : State) (q : Nat) (x : QuarterState) : s.Steady (s.setQuarter q x) := (steady_showGated ..).after ⟨rfl, fun h => h⟩

theorem steady_startRamp (s : State) : s.Steady s.startRamp := by
  refine .ite (.refl _) ?_
  split
  · exact .refl _
  · exact (steady_setQuarter ..).after ⟨rfl, fun h => h⟩

theorem steady_ungateReq (s : State) (cls q : Nat) : s.Steady (s.ungateReq cls q) := by
  unfold State.ungateReq
  extract_lets put
  have hp : s.Steady (put s) := ⟨rfl, fun h => h⟩
  clear_value put
  split
  · exact (steady_startRamp ..).after ((steady_setQuarter ..).after hp)
  · exact .ite (.refl _) ((steady_startRamp ..).after hp)
  · exact .refl _

theorem steady_showCfb (s : State) : s.Steady s.showCfb := (steady_setFld ..).after ((steady_setFld ..).after (steady_setFld ..))

theorem steady_tryReload (s : State) (r : Reload) : s.Steady (s.tryReload r) := by
  unfold State.tryReload
  extract_lets rest _ keep
  have hk (b : Bool) : s.Steady (keep b) := ⟨rfl, fun h => h⟩
  clear_value keep
  split
  · exact (steady_raise ..).after (hk true)
  · exact .ite ((steady_showCfb _).after ⟨rfl, fun h => h⟩) ((steady_forEach (fun _ _ => steady_ungateReq ..) ..).after (hk false))

theorem steady_unloadInstance (s : State) (image : Nat) (inst : Nat) (die : Nat) (odd : Bool) : s.Steady (s.unloadInstance image inst die odd) := by
  unfold State.unloadInstance
  dsimp only
  split; exacts [.refl _, (steady_tryReload ..).after ((steady_showCfb ..).after ⟨rfl, fun h => h⟩)]

theorem steady_serveReloads (s : State) : s.Steady s.serveReloads := steady_forEach (fun _ _ => steady_tryReload ..) ..

theorem steady_addImage (s : State) (k : Nat) (tiles : List Tile) (l : List Byte) (lvl : Level) (queue : Level) (part : Nat) : s.Steady
    (s.addImage k tiles l lvl queue part) :=
  (steady_showCfb ..).after ⟨rfl, fun h => h⟩

theorem steady_dropImage (s : State) (k : Nat) : s.Steady (s.dropImage k) := (steady_showCfb ..).after ⟨rfl, fun h => h⟩

theorem steady_takeFoot (s : State) (number : Nat) (p : BitVec 12) (f : Footprint) : s.Steady (s.takeFoot number p f) := ⟨rfl, fun h => h⟩

theorem steady_takeBundle (s : State) (b : Bundle) (number : Nat) : s.Steady (s.takeBundle b number) := by
  unfold State.takeBundle
  extract_lets adm adm sch s1 s2 again s3 s4 s5 s6 s7
  have h1 : s.Steady s1 := ⟨rfl, fun h => h⟩
  have h2 : s1.Steady s2 := steady_forEach (fun _ _ => steady_wakeFor ..) ..
  have h4 : s2.Steady s4 := (steady_forEach (fun _ _ => steady_planWidths ..) ..).after (steady_forEach (fun _ _ => steady_restore ..) ..)
  have h5 : s4.Steady s5 := (steady_takeGroups ..).after (steady_showAdmit ..)
  have h6 : s5.Steady s6 := by
    clear_value s5
    unfold s6
    split
    · exact steady_takeFoot ..
    · exact .refl _
  have h7 : s6.Steady s7 := steady_forEach (fun _ _ => steady_takeGambit ..) ..
  exact (steady_mirrorOut ..).after ((steady_checkBounds ..).after (h7.after (h6.after (h5.after (h4.after (h2.after h1))))))

theorem steady_countRefused (s : State) (b : Bundle) : s.Steady (s.countRefused b) :=
  .after (.ite (steady_satFld ..) (.refl _)) (.ite (.refl _) (steady_satFld ..))

theorem steady_outcomeEvent (s : State) (a : AgentRef) (o : Nat) : s.Steady (s.outcomeEvent a o) :=
  .ite (steady_raiseAgent ..) (.ite (steady_raiseAgent ..) (.refl _))

theorem steady_copySeq (s : State) (a : AgentRef) (endpoint : Nat) : s.Steady (s.copySeq a endpoint).1 := by
  unfold State.copySeq
  dsimp only
  exact steady_setTx ..

theorem steady_numberCopies (s : State) (a : AgentRef) (l : List DispCopy) : s.Steady (s.numberCopies a l).1 := by
  induction l generalizing s with
  | nil => exact .refl _
  | cons c l ih => exact (ih _).after (steady_copySeq ..)

theorem steady_sendCopies (s : State) (a : AgentRef) (h : Header) (payload : List Byte) (l : List DispCopy) : s.Steady (s.sendCopies a h payload
    l) :=
  steady_forEach (fun _ _ => steady_originate ..) ..

theorem steady_sendReceipt (s : State) (a : AgentRef) (h : Header) (l : List Byte) (outcomes : List Nat) (copies : List DispCopy) : s.Steady
    (s.sendReceipt a h l outcomes copies).1 := by
  unfold State.sendReceipt
  dsimp only
  exact steady_sendPkt ..

theorem steady_updDisp (s : State) (a : AgentRef) (f : DispatchSt → DispatchSt) : s.Steady (s.updDisp a f) := steady_updAgent ..

theorem steady_setRecord (s : State) (a : AgentRef) (r : DispRecord) : s.Steady (s.setRecord a r) := steady_updDisp ..

theorem steady_ackToken (s : State) (a : AgentRef) (r : DispRecord) : s.Steady (s.ackToken a r) := (steady_ackPkt ..).after (steady_updDisp ..)

theorem steady_finishToken (s : State) (a : AgentRef) (r : DispRecord) : s.Steady (s.finishToken a r) :=
  .ite (steady_setRecord ..) (.ite (steady_ackToken ..) (.ite (steady_setRecord ..) (.after (.ite (steady_ackToken ..) (steady_setRecord ..))
    (steady_sendReceipt ..))))

theorem steady_resendToken (s : State) (a : AgentRef) (r : DispRecord) (p : Packet) : s.Steady (s.resendToken a r p) :=
  .after (.ite (steady_originate ..) (.refl _)) (steady_sendCopies ..)

theorem steady_openToken (s : State) (a : AgentRef) (p : Packet) (outcomes : List Nat) (copies : List DispCopy) : s.Steady (s.openToken a p
    outcomes copies) :=
  (steady_finishToken ..).after ((steady_sendCopies ..).after (.after (.ite (steady_updDisp ..) (.refl _)) ((steady_updDisp ..).after
    (steady_numberCopies ..))))

theorem steady_placeToken (s : State) (a : AgentRef) (p : Packet) (i : Nat) (e : BitVec 512) : s.Steady (s.placeToken a p i e) := by
  unfold State.placeToken
  dsimp only
  split
  · exact steady_nakPkt ..
  · split
    · exact (steady_openToken ..).after (steady_raiseAgent ..)
    · split
      · split
        · exact steady_nakPkt ..
        · exact steady_openToken ..
      · exact (steady_openToken ..).after ((steady_forEach (fun _ _ => steady_outcomeEvent ..) ..).after (steady_updDisp ..))

theorem steady_dispatchAcked (s : State) (a : AgentRef) (src : Fid) (stream : BitVec 16) (seq : BitVec 32) : s.Steady (s.dispatchAcked a src
    stream seq) := by
  refine .ite ?_ ?_
  · split
    · exact steady_finishToken ..
    · exact .refl _
  · split
    · exact steady_finishToken ..
    · exact .refl _

theorem steady_copyRefused (s : State) (a : AgentRef) (src : Fid) (seq : BitVec 32) (reason : Nat) : s.Steady (s.copyRefused a src seq reason) := by
  unfold State.copyRefused
  dsimp only
  refine .ite (.refl _) ?_
  split
  · exact .refl _
  · split
    · exact .refl _
    · split
      · exact (steady_finishToken ..).after ((steady_updDisp ..).after (steady_raiseAgent ..))
      · split
        · exact (steady_finishToken ..).after ((steady_updDisp ..).after (steady_raiseAgent ..))
        · refine .ite ((steady_finishToken ..).after ((steady_updDisp ..).after (steady_raiseAgent ..))) ?_
          split
          · exact (steady_finishToken ..).after ((steady_updDisp ..).after (steady_raiseAgent ..))
          · exact (steady_setRecord ..).after ((steady_updDisp ..).after ((steady_copySeq ..).after (steady_updDisp ..)))

theorem steady_takeExperts (s : State) (f : Fid) (part : BitVec 12) (layer steps n first : Nat) (l : List Byte) :
    s.Steady (s.takeExperts f part layer steps n first l) := by
  induction n generalizing s first l with
  | zero => exact .refl _
  | succ n ih => exact (ih ..).after ((steady_satFld ..).after ((steady_satFld ..).after ⟨rfl, fun h => h⟩))

theorem steady_takeBlocks (s : State) (f : Fid) (n : Nat) (l : List Byte) : s.Steady (s.takeBlocks f n l) := by
  induction n generalizing s l with
  | zero => exact .refl _
  | succ n ih => exact .ite (.refl _) ((ih ..).after ((steady_update rfl).after (steady_takeExperts ..)))

theorem steady_setExpert (s : State) (x : Expert) : s.Steady (s.setExpert x) := ⟨rfl, fun h => h⟩

theorem steady_brokerInstall (s : State) (xs : List Expert) : s.Steady (s.brokerInstall xs) := .ite (.refl _) (steady_submitInstall ..)

theorem steady_writeEndpoint (s : State) (e : Nat) (a : Nat) (l : List Byte) : s.Steady (s.writeEndpoint e a l) := by
  unfold State.writeEndpoint
  split; exacts [steady_updAgent .., .refl _]

theorem steady_copyWeights (s : State) (x : Expert) (src : Replica) (d : DevFootprint) (slot : Nat) : s.Steady (s.copyWeights x src d slot) := by
  refine (steady_writeEndpoint ..).after ((steady_useFree ..).after ?_)
  split
  · exact steady_updAgent ..
  · exact .refl _

theorem steady_addTo (s : State) (x : Expert) : s.Steady (s.addTo x).1 := by
  unfold State.addTo
  split
  · exact steady_satFld ..
  · split
    · exact steady_satFld ..
    · exact .ite_fst (steady_satFld ..) ((steady_satFld ..).after ((steady_setExpert ..).after (steady_copyWeights ..)))

theorem steady_addAll (s : State) (l : List Expert) (n : Nat) : s.Steady (s.addAll l n) := by
  induction l generalizing s n with
  | nil => exact .refl _
  | cons x l ih =>
    cases n with
    | zero => exact .refl _
    | succ n => exact (ih ..).after (steady_addTo ..)

theorem steady_removeReplica (s : State) (x : Expert) (r : Replica) : s.Steady (s.removeReplica x r) :=
  (steady_satFld ..).after ((steady_update rfl).after (steady_setExpert ..))

theorem steady_removeCold (s : State) (x : Expert) : s.Steady (s.removeCold x) := by
  unfold State.removeCold
  dsimp only
  split; exacts [steady_removeReplica .., steady_setExpert ..]

theorem steady_clearSlots (s : State) : s.Steady s.clearSlots :=
  .ite (.refl _) ((steady_update rfl).after (steady_forEach (fun _ _ => steady_writeEndpoint ..) ..))

theorem steady_closeWindow (s : State) : s.Steady s.closeWindow := (steady_mirrorOut ..).after ⟨rfl, fun h => h⟩

theorem steady_dropReplicas (s : State) (e : Nat) : s.Steady (s.dropReplicas e) :=
  .ite (.refl _) ((steady_brokerInstall ..).after ((steady_satFld ..).after (steady_forEach (fun _ _ => steady_setExpert ..) ..)))

theorem steady_showStalled (s : State) (q : Nat) : s.Steady (s.showStalled q) := steady_setCq ..

theorem steady_doorbellBad (s : State) (q : Nat) : s.Steady (s.doorbellBad q) := steady_setCq ..

theorem steady_fetchServed (s : State) (q : Nat) : s.Steady (s.fetchServed q) := ⟨rfl, fun h => h⟩

theorem steady_takeEntry (s : State) (q : Nat) (c : Cmd) : s.Steady (s.takeEntry q c) :=
  .after (.ite (.refl _) (steady_hubAct ..)) ((steady_mirrorOut ..).after (steady_setQueue ..))

theorem steady_takeRingBytes (s : State) (q : Nat) (ok : Bool) (data : List Byte) : s.Steady (s.takeRingBytes q ok data) :=
  (steady_endDisable ..).after ((steady_forEach (fun _ _ => .ite (steady_writeRecord ..) (.ite (steady_writeRecord ..)
    (steady_takeEntry ..))) ..).after (steady_setQueue ..))

theorem steady_endCmd (s : State) (q : Nat) (c : Cmd) (status : Nat) (detail : Nat) (result : Word64) : s.Steady (s.endCmd q c status detail
    result) :=
  (steady_showStalled ..).after (steady_completeCmd ..)

theorem steady_markStarted (s : State) (q : Nat) (c : Cmd) : s.Steady (s.markStarted q c) := (steady_setQueue ..).after (steady_mirrorOut ..)

theorem steady_runVendor (s : State) (q : Nat) (c : Cmd) (e slot : Nat) : s.Steady (s.runVendor q c e slot) := by
  unfold State.runVendor
  extract_lets l g1 g2 done id ok left first rte s1
  have hd (t : State) (r : Word64) : t.Steady (done t r) := (steady_showStalled ..).after (steady_completeCmd ..)
  have h1 : s.Steady s1 := ⟨rfl, fun h => h⟩
  clear_value done s1
  split
  · exact (hd ..).after (steady_rescrubDev ..)
  · exact (hd ..).after (.after (.ite (steady_emitPlay ..) (.refl _)) h1)
  · exact (hd ..).after ((steady_sendMgmt ..).after (steady_useFree _))
  · exact hd ..

theorem steady_startCmd {body : State → Cmd → State} (h : ∀ (s : State) c, s.Steady (body s c)) (s : State) (q : Nat) (op : Nat → Bool)
    (lvl : Cmd → Level) : s.Steady (s.startCmd q op lvl body) := by
  unfold State.startCmd
  split
  · exact .refl _
  · exact .ite (.refl _) (.ite (steady_endCmd ..) (.ite ((steady_countViolation ..).after (steady_endCmd ..)) (.ite (steady_endCmd ..)
      (.ite (steady_endCmd ..) (.ite (.refl _) (h ..))))))

theorem steady_startRun (s : State) (q : Nat) : s.Steady (s.startRun q) := by
  refine steady_startCmd (fun s c => ?_) ..
  split
  · exact steady_endCmd ..
  refine .ite (steady_endCmd ..) (.ite (.refl _) ?_)
  split
  · exact .refl _
  · refine .ite (.refl _) (.after (.ite (steady_runVendor ..) (steady_startProgram ..)) ⟨rfl, fun h => h⟩)

theorem steady_cancelCmd (s : State) (q : Nat) (t : Cmd) (detail : Nat) : s.Steady (s.cancelCmd q t detail) := by
  unfold State.cancelCmd
  split; exacts [steady_endCmd .., .ite (by split; exacts [steady_endProgram .., .refl _]) (.refl _)]

theorem steady_writeCfg (s : State) (q : Nat) (v : Word64) : s.Steady (s.writeCfg q v) :=
  .after (.ite (steady_setCq ..) (.refl _)) ((steady_setCq ..).after ((steady_setCq ..).after (.after (.ite (steady_setCq ..) (.refl _)) (.after
    (.ite (steady_setCq ..) (.refl _)) ((steady_setCq ..).after (.ite (.refl _) (steady_setCq ..)))))))

theorem steady_writeJournal (s : State) (q : Nat) : s.Steady (s.writeJournal q) :=
  (steady_forEach (fun _ _ => steady_writeRecord ..) ..).after (steady_setQueue ..)

theorem steady_enableQueue (s : State) (q : Nat) (v : Word64) : s.Steady (s.enableQueue q v) :=
  .ite (.refl _) ((steady_showStalled ..).after ((steady_writeJournal ..).after ((steady_setCq ..).after ((steady_setCq ..).after
    ((steady_setCq ..).after ((steady_setCq ..).after ((steady_setQueue ..).after (steady_writeCfg ..))))))))

theorem steady_disableQueue (s : State) (q : Nat) (v : Word64) : s.Steady (s.disableQueue q v) :=
  .ite (steady_writeCfg ..) ((steady_showStalled ..).after ((steady_endDisable ..).after ((steady_forEach (fun _ _ =>
    steady_cancelCmd ..) ..).after (steady_setQueue ..))))

theorem steady_refuseAdmit (s : State) (q : Nat) (c : Cmd) (report : List Byte) : s.Steady (s.refuseAdmit q c report) :=
  (steady_showStalled ..).after ((steady_completeCmd ..).after (.ite (.refl _) (steady_hubAct ..)))

theorem steady_faultPartition (s : State) (p : Nat) : s.Steady (s.faultPartition p) := steady_forEach (fun _ _ => steady_faultProgram ..) ..

theorem steady_releasePlacement (s : State) (p : Nat) : s.Steady (s.releasePlacement p) := (steady_showPlc ..).after ⟨rfl, fun h => h⟩

theorem steady_scrubSpill (s : State) (p : Nat) (bytes : Nat) : s.Steady (s.scrubSpill p bytes) :=
  (steady_satFld ..).after ((steady_keepRecord ..).after ((steady_setPart ..).after ⟨rfl, fun h => h⟩))

theorem steady_endPartition (s : State) (p : Nat) : s.Steady (s.endPartition p) :=
  (steady_forEach (fun _ _ => steady_orderScrub ..) ..).after ((steady_scrubSpill ..).after ((steady_zeroPartition ..).after
    ((steady_releasePlacement ..).after ((steady_endGroups ..).after ((steady_faultPartition ..).after (steady_setPart ..))))))

theorem steady_setBlk (s : State) (f : Field) (b : Nat) (v : Nat) : s.Steady (s.setBlk f b v) := steady_setFld ..

theorem steady_showBlocks (s : State) : s.Steady s.showBlocks := (steady_setFld ..).after (steady_setFld ..)

theorem steady_restartQuiet (s : State) (b : Nat) : s.Steady (s.restartQuiet b) := ⟨rfl, fun h => h⟩

theorem steady_setBlockState (s : State) (b : Nat) (st : Nat) : s.Steady (s.setBlockState b st) :=
  (steady_showBlocks ..).after ((steady_setBlk ..).after ⟨rfl, fun h => h⟩)

theorem steady_openShadow (s : State) (b : Nat) (t : Nat) : s.Steady (s.openShadow b t) := (steady_setBlk ..).after ⟨rfl, fun h => h⟩

theorem steady_closeShadows (s : State) (f : Shadow → Bool) (t : Nat) : s.Steady (s.closeShadows f t) := ⟨rfl, fun h => h⟩

theorem steady_assertFaultN (s : State) : s.Steady s.assertFaultN := (steady_setFld ..).after ⟨rfl, fun h => h⟩

theorem steady_requestTakeover (s : State) : s.Steady s.requestTakeover := ⟨rfl, fun h => h⟩

theorem steady_cfOut (s : State) (cf : Nat) : s.Steady (s.cfOut cf) :=
  (steady_showCfb ..).after ((steady_forEach (fun _ _ => steady_unloadInstance ..) ..).after ((steady_startRamp ..).after ((steady_forEach
    (fun _ _ => steady_setQuarter ..) ..).after ((steady_update rfl).after ⟨rfl, fun h => h⟩))))

theorem steady_pdOut (s : State) (pd : Nat) : s.Steady (s.pdOut pd) :=
  (steady_showPorts ..).after (steady_forEach (fun _ _ => (steady_setPort ..).after (steady_resetPort ..)) ..)

theorem steady_tsOut (s : State) (ts : Nat) : s.Steady (s.tsOut ts) :=
  .ite ⟨rfl, fun h => h⟩ (.ite ⟨rfl, fun h => h⟩ (.ite (.refl _) (steady_requestTakeover ..)))

theorem steady_cutSpill (s : State) (l : List AdmittedFoot) (n : Nat) : s.Steady (s.cutSpill l n) := by
  induction l generalizing s n with
  | nil => exact .refl _
  | cons f l ih => exact .ite (.refl _) ((ih ..).after (.after (.ite (.refl _) (steady_raise ..)) ⟨rfl, fun h => h⟩))

theorem steady_stackOut (s : State) (m : Nat) : s.Steady (s.stackOut m) :=
  (steady_showPlc ..).after ((steady_cutSpill ..).after ((steady_losePages ..).after ((steady_update rfl).after (steady_setFld ..))))

theorem steady_loseSync (s : State) (cause : Nat) : s.Steady (s.loseSync cause) :=
  .after (.ite ((steady_lapse ..).after (steady_unfitNested ..)) (.refl _)) ((steady_update rfl).after ((steady_raise ..).after
    ((steady_setFld ..).after (steady_setFld ..))))

theorem steady_switchTime (s : State) : s.Steady s.switchTime :=
  .ite (.refl _) ((steady_loseSync ..).after (.after (.ite (.refl _) (steady_setFld ..)) (.after (.ite (steady_setFld ..) (.refl _))
    ((steady_satFld ..).after (steady_setFld ..)))))

theorem steady_clearAccum (s : State) : s.Steady s.clearAccum := (steady_setFld ..).after ⟨rfl, fun h => h⟩

theorem steady_hubOut (s : State) (h : Nat) : s.Steady (s.hubOut h) :=
  .ite ((steady_clearAccum ..).after (steady_switchTime ..)) (.ite (steady_setFld ..) (.refl _))

theorem steady_blockOut (s : State) (b : Nat) : s.Steady (s.blockOut b) :=
  .ite (.refl _) (.ite (steady_cfOut ..) (.ite (steady_pdOut ..) (.ite (steady_tsOut ..) (.ite (steady_stackOut ..) (.ite (steady_hubOut ..)
    (steady_requestTakeover ..))))))

theorem steady_orderFence (s : State) (die : Nat) (gate : Nat) : s.Steady (s.orderFence die gate) := .ite (.refl _) ⟨rfl, fun h => h⟩

theorem steady_gateFence (s : State) (die : Nat) (gate : Nat) : s.Steady (s.gateFence die gate) :=
  (steady_orderFence ..).after ((steady_update rfl).after ((steady_satFld ..).after (steady_raise ..)))

theorem steady_noteLastCopy (s : State) (b : Nat) : s.Steady (s.noteLastCopy b) :=
  .ite ((steady_requestTakeover ..).after (steady_raise ..)) (.refl _)

theorem steady_startReset (s : State) (b : Nat) : s.Steady (s.startReset b) :=
  .after (.ite (.refl _) (steady_blockOut ..)) ((steady_showQuote ..).after ((steady_update rfl).after ((steady_openShadow ..).after
    ((steady_setBlockState ..).after (steady_noteLastCopy ..)))))

theorem steady_retire (s : State) (b : Nat) : s.Steady (s.retire b) :=
  .after (.ite (.refl _) (steady_blockOut ..)) ((steady_update rfl).after ((steady_showQuote ..).after ((steady_setBlockState ..).after
    ((steady_update rfl).after (steady_noteLastCopy ..)))))

theorem steady_worst (s : State) (b : Nat) (sev : Nat) : s.Steady (s.worst b sev) := steady_setBlk ..

theorem steady_respond (s : State) (ev : Event) : s.Steady (s.respond ev).1 := by
  unfold State.respond
  extract_lets fatal note
  have hf (t : State) (e : Event) : t.Steady (fatal t e) := .ite (steady_requestTakeover _) (.refl _)
  have hn (t : State) (e : Event) : t.Steady (note t e) := .ite (steady_assertFaultN _) (.refl _)
  clear_value fatal note
  split
  · exact (hf ..).after (hn ..)
  next b _ =>
  extract_lets st repeats ev s1 s2 s3 limit s4 s5
  have h1 : s.Steady s1 := hn ..
  have h2 : s1.Steady s2 := .ite (steady_restartQuiet ..) (.refl _)
  have h3 : s2.Steady s3 := .ite ((steady_showBlocks _).after (steady_worst ..)) (.refl _)
  have h4 : s3.Steady s4 := .ite (.refl _) (steady_retire ..)
  have h5 : s3.Steady s5 :=
    .ite (.ite ((steady_orderFence ..).after h4) h4) (.ite (.ite (steady_retire ..) (.ite (steady_orderFence ..)
      (.ite ((steady_restartQuiet ..).after (steady_setBlockState ..)) (steady_startReset ..))))
      (.ite ((steady_restartQuiet ..).after (steady_setBlockState ..)) (.refl _)))
  exact (hf ..).after (h5.after (h3.after (h2.after h1)))

theorem steady_orderBlockReset (s : State) (lvl : Level) (v : Word64) : s.Steady (s.orderBlockReset lvl v) :=
  .after (.ite (.refl _) (.ite (steady_violation ..) (.ite (.refl _) (.ite (steady_present ..) (steady_startReset ..))))) (steady_setFld ..)

theorem steady_tsBack (s : State) (ts : Nat) : s.Steady (s.tsBack ts) := .after (.ite (.refl _) ⟨rfl, fun h => h⟩) ⟨rfl, fun h => h⟩

theorem steady_blockBack (s : State) (b : Nat) : s.Steady (s.blockBack b) :=
  .ite ((steady_forEach (fun _ _ => steady_tryReload ..) ..).after ((steady_showCfb ..).after ⟨rfl, fun h => h⟩)) (.ite
    ((steady_showPorts ..).after (steady_forEach (fun _ _ => (steady_queueWake ..).after (steady_setPort ..)) ..)) (.ite (steady_tsBack ..)
    (.ite (steady_releaseHub ..) (.ite (.ite (.refl _) (steady_setFld ..)) (.ite (.ite (.refl _) (steady_setFld ..)) (.ite (steady_setFld ..)
    (.refl _)))))))

theorem steady_showQueue (s : State) : s.Steady s.showQueue := (steady_setFld ..).after (steady_setFld ..)

theorem steady_noteDropped (s : State) (sev : Nat) (n : Nat) : s.Steady (s.noteDropped sev n) := (steady_update rfl).after (steady_satFld ..)

theorem steady_setIngress (s : State) (l : List QEntry) : s.Steady (s.setIngress l) := (steady_showQueue ..).after ⟨rfl, fun h => h⟩

theorem steady_ingest {s t : State} {ev : Event} (h : s.ingest ev = some t) : s.Steady t := by
  unfold State.ingest at h
  extract_lets l put at h
  have hp (t : State) l b : t.Steady (put t l b) := steady_setIngress ..
  split at h
  · obtain rfl := Option.some.inj h
    exact steady_setIngress ..
  split at h
  · obtain rfl := Option.some.inj h
    exact hp ..
  split at h
  · obtain rfl := Option.some.inj h
    exact hp ..
  split at h
  · obtain rfl := Option.some.inj h
    exact (hp ..).after (steady_noteDropped ..)
  split at h
  · cases h
  · obtain rfl := Option.some.inj h
    exact steady_noteDropped ..

theorem steady_ingestNext (s : State) : s.Steady s.ingestNext := by
  unfold State.ingestNext
  split
  · exact .refl _
  split
  · next x hx => exact (steady_ingest hx).after ⟨rfl, fun h => h⟩
  · exact .refl _

theorem steady_flushLre0 (s : State) : s.Steady s.flushLre0 := by
  unfold State.flushLre0
  split; exacts [.refl _, .ite ((steady_inboxPut ..).after ⟨rfl, fun h => h⟩) (.refl _)]

theorem steady_deliver (s : State) (ev : Event) (live : Bool) : s.Steady (s.deliver ev live) :=
  .after (.ite (.refl _) (.after (.ite (steady_treatFailed ..) (.refl _)) (.after (.ite (steady_reportDown ..) (.refl _))
    ((steady_flushLre0 ..).after ⟨rfl, fun h => h⟩)))) (steady_forEach (fun _ _ => steady_inboxPut ..) ..)

theorem steady_showBacklog (s : State) : s.Steady s.showBacklog := steady_setFld ..

theorem steady_toWriter (s : State) (r : LedgerRec) : s.Steady (s.toWriter r) := (steady_showBacklog ..).after ⟨rfl, fun h => h⟩

theorem steady_serve (s : State) (ev : Event) (lastNs : Nat) : s.Steady (s.serve ev lastNs) :=
  (steady_toWriter ..).after ((steady_deliver ..).after (.ite_fst (steady_respond ..) (.refl _)))

theorem steady_showLag (s : State) : s.Steady s.showLag := steady_setFld ..

theorem steady_queueFlash (s : State) (r : LedgerRec) : s.Steady (s.queueFlash r) := .ite (.refl _) ((steady_showLag ..).after ⟨rfl, fun h => h⟩)

theorem steady_closeRecord (s : State) (r : LedgerRec) : s.Steady (s.closeRecord r) :=
  .after (.ite (steady_queueFlash ..) (.refl _)) ⟨rfl, fun h => h⟩

theorem steady_overwrite (s : State) (i : Nat) : s.Steady (s.overwrite i) := by
  unfold State.overwrite
  split
  · exact .refl _
  extract_lets _ s1
  have h1 : s.Steady s1 := ⟨rfl, fun h => h⟩
  exact .ite ((steady_showLag _).after ((steady_satFld ..).after (.after (t := s1) ⟨rfl, fun h => h⟩ h1))) h1

theorem steady_writeNew (s : State) (r : LedgerRec) : s.Steady (s.writeNew r) := by
  unfold State.writeNew
  dsimp only
  split
  · exact (steady_queueFlash ..).after ((steady_satFld ..).after ((steady_setFld ..).after ((steady_update rfl).after
        ((steady_overwrite ..).after (.ite (steady_closeRecord ..) (.refl _))))))
  · exact (steady_queueFlash ..).after ((steady_satFld ..).after ((steady_setFld ..).after ((steady_update rfl).after (steady_overwrite ..))))

theorem steady_writeMerge (s : State) (o : LedgerRec) (r : LedgerRec) : s.Steady (s.writeMerge o r) := (steady_satFld ..).after ⟨rfl, fun h => h⟩

theorem steady_writeFlash (s : State) (r : LedgerRec) : s.Steady (s.writeFlash r) := by
  unfold State.writeFlash
  extract_lets seq r s1
  have h1 : s.Steady s1 := steady_setFld ..
  exact .ite ((steady_act ..).after (.after (t := s1) ⟨rfl, fun h => h⟩ h1)) ((steady_satFld ..).after h1)

theorem steady_forceSource (s : State) (n : Nat) : s.Steady (s.forceSource n) := .after (.ite (.refl _) (steady_present ..)) (steady_countSource ..)

theorem steady_writeSource (s : State) (lvl : Level) (n : Nat) (v : Word64) : s.Steady (s.writeSource lvl n v) := by
  unfold State.writeSource
  extract_lets old w s1 s2 col s3
  have h2 : s.Steady s2 := .after (t := s1) (.ite (steady_violation ..) (.refl _)) (steady_setReg ..)
  have h3 : s2.Steady s3 := .ite ⟨rfl, fun h => h⟩ (.refl _)
  have h := h3.after h2
  exact .ite ((steady_forceSource ..).after h) h

theorem steady_writeFltCfg (s : State) (v : Word64) : s.Steady (s.writeFltCfg v) := by
  unfold State.writeFltCfg
  extract_lets s1 sev s2 bad
  have h2 : s.Steady s2 := .after (t := s1) (.ite (steady_setFld ..) (.refl _)) (steady_setFld ..)
  exact .after (t := s2) (.ite ((steady_setFld ..).after ⟨rfl, fun h => h⟩) (.refl _)) h2

theorem steady_setAct (s : State) (x : GateAct) : s.Steady (s.setAct x) := ⟨rfl, fun h => h⟩

theorem steady_endAct (s : State) (x : GateAct) : s.Steady (s.endAct x) := ⟨rfl, fun h => h⟩

theorem steady_refuseAct (s : State) (x : GateAct) : s.Steady (s.refuseAct x) := by
  unfold State.refuseAct
  exact (steady_raise ..).after ⟨rfl, fun h => h⟩

theorem steady_judge (s : State) (x : GateAct) : s.Steady (s.judge x) := by
  unfold State.judge
  split
  · exact .ite (steady_setAct ..) (.after (.ite (steady_endAct ..) (steady_setAct ..)) (steady_forEach (fun _ _ => steady_gateFence ..) ..))
  · exact .ite (steady_setAct ..) (.ite (steady_refuseAct ..) (steady_setAct ..))

theorem steady_refuseOutput (s : State) (x : GateAct) (image : Nat) : s.Steady (s.refuseOutput x image) := by
  unfold State.refuseOutput
  exact (steady_raise ..).after ⟨rfl, fun h => h⟩

theorem steady_settleOutput (s : State) (x : GateAct) (image : Nat) : s.Steady (s.settleOutput x image) := by
  unfold State.settleOutput
  split
  · exact .ite (steady_setAct ..) (.ite (steady_endAct ..) (steady_setAct ..))
  · split
    · exact .ite (steady_setAct ..) (.ite (steady_endAct ..) (steady_setAct ..))
    · exact .ite (steady_setAct ..) (.ite (steady_refuseOutput ..) (steady_setAct ..))

theorem steady_oddInstances (s : State) (image : Nat) (odd : List Nat) : s.Steady (s.oddInstances image odd) := by
  refine .ite (.refl _) ((steady_forEach (fun _ _ => steady_settleOutput ..) ..).after (steady_forEach (fun _ _ => ?_) ..))
  split
  · exact .refl _
  · exact steady_unloadInstance ..

theorem steady_judgeOutput (s : State) (x : GateAct) (image : Nat) : s.Steady (s.judgeOutput x image) :=
  (steady_oddInstances ..).after (steady_settleOutput ..)

theorem steady_takeOutput (s : State) (gate : Nat) (unit : Nat) (seq : Nat) (image : Nat) (inst : Nat) (content : List Byte) : s.Steady
    (s.takeOutput gate unit seq image inst content) := by
  unfold State.takeOutput
  split; exacts [steady_judgeOutput .., .ite (.refl _) (.ite ((steady_oddInstances ..).after (steady_endAct ..)) (steady_judgeOutput ..))]

theorem steady_outputTimeout (s : State) (x : GateAct) (image : Nat) : s.Steady (s.outputTimeout x image) :=
  .ite (.ite (.refl _) ((steady_oddInstances ..).after (steady_endAct ..))) (.ite (.refl _) (.ite (steady_refuseOutput ..) (.refl _)))

theorem steady_dropCopies (s : State) (die : Nat) : s.Steady (s.dropCopies die) :=
  (steady_forEach (fun _ _ => .ite (steady_setAct ..) (.ite (.ite (steady_endAct ..) (steady_setAct ..)) (.ite (.refl _)
    (steady_judge ..)))) ..).after ⟨rfl, fun h => h⟩

theorem steady_fence (s : State) (die : Nat) (gate : Nat) : s.Steady (s.fence die gate) :=
  .ite (.refl _) (.after (.ite ((steady_requestTakeover ..).after ((steady_raise ..).after (.ite (steady_setFld ..) (.refl _)))) (.refl _))
    ((steady_dropCopies ..).after (.after (.ite (.refl _) (.ite ((steady_present ..).after (steady_retire ..)) (.ite (steady_retire ..)
    ((steady_update rfl).after ((steady_setFld ..).after ((steady_setFld ..).after (steady_startReset ..))))))) ((steady_showQuote ..).after
    ((steady_lapse ..).after (steady_setFld ..))))))

theorem steady_writeTriCfg (s : State) (lvl : Level) (v : Word64) : s.Steady (s.writeTriCfg lvl v) := by
  unfold State.writeTriCfg
  split
  · split
    · exact (steady_setFld ..).after (steady_setFld ..)
    · dsimp only
      split
      · exact (steady_setFld ..).after ((steady_setFld ..).after ((steady_setFld ..).after (steady_setFld ..)))
      · exact (steady_setFld ..).after (steady_setFld ..)
  · split
    · exact .after (.ite (steady_violation ..) (.ite (steady_orderFence ..) (.refl _))) ((steady_setFld ..).after (steady_setFld ..))
    · dsimp only
      split
      · exact (steady_setFld ..).after ((steady_setFld ..).after (.ite ((steady_violation ..).after ((steady_setFld ..).after
            (steady_setFld ..))) (.ite ((steady_orderFence ..).after ((steady_setFld ..).after (steady_setFld ..))) ((steady_setFld ..).after
            (steady_setFld ..)))))
      · exact .ite ((steady_violation ..).after ((steady_setFld ..).after (steady_setFld ..))) (.ite ((steady_orderFence ..).after
            ((steady_setFld ..).after (steady_setFld ..))) ((steady_setFld ..).after (steady_setFld ..)))

theorem steady_releaseBehind (s : State) : s.Steady s.releaseBehind := by
  refine .ite (.refl _) ((steady_forEach (fun _ _ => ?_) ..).after ⟨rfl, fun h => h⟩)
  split
  · exact steady_originateOn ..
  · exact steady_finishInstall ..

theorem steady_beginHold (s : State) : s.Steady s.beginHold :=
  .ite ((steady_releaseBehind ..).after ((steady_setFld ..).after ⟨rfl, fun h => h⟩)) (.refl _)

theorem steady_writeStandbyCfg (s : State) (v : Word64) : s.Steady (s.writeStandbyCfg v) :=
  .after (.ite (.after (.ite (.refl _) ((steady_sendMgmt ..).after ⟨rfl, fun h => h⟩)) (steady_extendMeas ..)) (.ite
    ((steady_releaseBehind ..).after ((steady_lapse ..).after ⟨rfl, fun h => h⟩)) (.refl _))) (.after (.ite (steady_setFld ..) (.refl _))
    (.after (.ite (steady_setFld ..) (.refl _)) ((steady_setFld ..).after (steady_setFld ..))))

theorem steady_mirrorAcked (s : State) (seq : Nat) : s.Steady (s.mirrorAcked seq) :=
  .after (.ite ((steady_releaseBehind ..).after (.ite (.refl _) (steady_restore ..))) ((steady_restore ..).after ((steady_setFld ..).after
    (.after (.ite (steady_setFld ..) (.refl _)) ⟨rfl, fun h => h⟩)))) (.after (.ite (.refl _) ⟨rfl, fun h => h⟩) ((steady_setFld ..).after
    ⟨rfl, fun h => h⟩))

theorem steady_endHold (s : State) : s.Steady s.endHold := by
  unfold State.endHold
  dsimp only
  split
  · exact .ite (.ite ((steady_commitInstall ..).after ((steady_setFld ..).after ⟨rfl, fun h => h⟩)) ((steady_setFld ..).after
        ⟨rfl, fun h => h⟩)) ((steady_stageDue ..).after (.ite ((steady_commitInstall ..).after ((steady_setFld ..).after ⟨rfl, fun h => h⟩))
        ((steady_setFld ..).after ⟨rfl, fun h => h⟩)))
  · exact .ite ((steady_setFld ..).after ⟨rfl, fun h => h⟩) ((steady_stageDue ..).after ((steady_setFld ..).after ⟨rfl, fun h => h⟩))

theorem steady_stepDown (s : State) : s.Steady s.stepDown :=
  (steady_forEach (fun _ _ => .ite (steady_disableQueue ..) (.refl _)) ..).after ((steady_setFld ..).after ((steady_update rfl).after
    ((steady_satFld ..).after (steady_setFld ..))))

theorem steady_deriveVersion (s : State) (f : Fid) (v : BitVec 32) : s.Steady (s.deriveVersion f v) := by
  unfold State.deriveVersion
  split
  · split
    · split
      · exact .ite (.refl _) ((steady_setFld ..).after (steady_applyGambit ..))
      · exact .ite (.refl _) ((steady_useFree ..).after (steady_submitInstall ..))
    · split
      · exact .ite (.refl _) ((steady_setFld ..).after (steady_applyGambit ..))
      · exact .ite (.refl _) ((steady_useFree ..).after (steady_submitInstall ..))
  · split
    · split
      · exact .ite (.refl _) ((steady_setFld ..).after (steady_applyGambit ..))
      · exact .ite (.refl _) ((steady_useFree ..).after (steady_submitInstall ..))
    · split
      · exact .ite (.refl _) ((steady_setFld ..).after (steady_applyGambit ..))
      · exact .ite (.refl _) ((steady_useFree ..).after (steady_submitInstall ..))

theorem steady_resumeReservation (s : State) (g : Group) : s.Steady (s.resumeReservation g) := by
  unfold State.resumeReservation
  split
  · exact .refl _
  · split
    · exact (steady_endRollback ..).after ((steady_forEach (fun _ _ => steady_freeAt ..) ..).after (.after (.ite (steady_drawTicket ..)
          (steady_setTickets ..)) (steady_setGroup ..)))
    · exact (steady_endRollback ..).after ((steady_forEach (fun _ _ => steady_freeAt ..) ..).after (steady_setGroup ..))

theorem steady_takeoverEnd (s : State) : s.Steady s.takeoverEnd :=
  .ite (.refl _) ((steady_restore ..).after ((steady_raise ..).after ((steady_setFld ..).after ((steady_setFld ..).after ((steady_forEach
    (fun _ _ => steady_rekeyLink ..) ..).after ((steady_forEach (fun _ _ => steady_resumeReservation ..) ..).after
    ((steady_rebaseAgents ..).after ((steady_forEach (fun _ _ => steady_stageGambit ..) ..).after ⟨rfl, fun h => h⟩))))))))

theorem steady_takeoverDone (s : State) : s.Steady s.takeoverDone :=
  .ite ((steady_takeoverEnd ..).after ((steady_forEach (fun _ _ => steady_sendHooked ..) ..).after ⟨rfl, fun h => h⟩)) (.refl _)

theorem steady_takeoverRead (s : State) (f : Fid) (reg : Nat) (v : Option Word64) : s.Steady (s.takeoverRead f reg v) := by
  unfold State.takeoverRead
  split
  · exact .refl _
  · split
    · exact (steady_takeoverEnd ..).after ⟨rfl, fun h => h⟩
    · exact (steady_takeoverEnd ..).after (.after (.ite (steady_deriveVersion ..) ⟨rfl, fun h => h⟩) ⟨rfl, fun h => h⟩)

theorem steady_claimFailed (s : State) (f : Fid) : s.Steady (s.claimFailed f) :=
  .ite ((steady_takeoverDone ..).after (steady_treatFailed ..)) (.refl _)

theorem steady_endRooted (s : State) : s.Steady s.endRooted :=
  (steady_forEach (fun _ _ => steady_forEach (fun _ _ => (steady_runQueue ..).after (steady_endOp ..)) ..) ..).after ⟨rfl, fun h => h⟩

theorem steady_adoptQueues (s : State) : s.Steady s.adoptQueues := by
  unfold State.adoptQueues
  split
  · exact .refl _
  · exact (steady_forEach (fun _ _ => steady_setQueue ..) ..).after (steady_forEach (fun _ _ => (steady_setCq ..).after (steady_writeCfg ..)) ..)

theorem steady_adoptPart (s : State) (x : Nat × PartSt) : s.Steady (s.adoptPart x) := (steady_setPart ..).after ⟨rfl, fun h => h⟩

theorem steady_adoptReg (s m : State) (d : RegDesc) : s.Steady (s.adoptReg m d) := steady_setReg ..

theorem steady_adoptMirror (s : State) : s.Steady (s.adoptMirror) := by
  unfold State.adoptMirror
  split
  · exact .refl _
  next m _ =>
    extract_lets s1 inst devs _ _ _ _ _ s2 s3 s4
    have h1 : s.Steady s1 := steady_foldl (fun _ _ => steady_adoptReg ..) ..
    clear_value s1
    have h2 : s1.Steady s2 := ⟨rfl, fun h => h⟩
    have h3 : s2.Steady s3 := steady_forEach (fun _ _ => steady_adoptPart ..) ..
    exact (steady_losePages ..).after ((steady_setFld ..).after ((steady_setFld ..).after (h3.after (h2.after h1))))

theorem steady_takeOver (s : State) : s.Steady s.takeOver :=
  (steady_takeoverDone ..).after ((steady_broadcast ..).after ((steady_update rfl).after ((steady_lapse ..).after ((steady_adoptQueues ..).after
    ((steady_endRooted ..).after ((steady_adoptMirror ..).after ((steady_satFld ..).after ((steady_setFld ..).after (steady_setFld ..)))))))))

theorem steady_packageReset (s : State) (lost : Bool) (kind : Nat) : s.Steady (s.packageReset lost kind) :=
  ⟨rfl, fun _ => Memory.wf_nil⟩

theorem steady_startBringup (s : State) : s.Steady s.startBringup := .ite (steady_setFld ..) (.refl _)

theorem steady_controllerReset (s : State) (kind : Nat) : s.Steady (s.controllerReset kind) :=
  .ite (.refl _) ((steady_startBringup ..).after ((steady_showRails ..).after ((steady_setFld ..).after (steady_packageReset ..))))

theorem steady_showDomain (s : State) : s.Steady s.showDomain :=
  (steady_setFld ..).after ((steady_setFld ..).after ((steady_setFld ..).after (steady_setFld ..)))

theorem steady_learnLink (s : State) (f : Fid) (p : Nat) (x : PortSt) (lanes : Nat) : s.Steady (s.learnLink f p x lanes) :=
  .ite (.refl _) ((steady_showDomain ..).after ⟨rfl, fun h => h⟩)

theorem steady_closeTrainShadow (s : State) (n : Node) (p : Nat) : s.Steady (s.closeTrainShadow n p) := steady_closeShadows ..

theorem steady_showNodePorts (s : State) (n : Node) : s.Steady (s.showNodePorts n) := by
  unfold State.showNodePorts
  split; exacts [steady_showPorts .., steady_showPortsUp ..]

theorem steady_askDiscovery (s : State) (p : Nat) : s.Steady (s.askDiscovery p) := (linkOnly_askDiscovery ..).steady

theorem steady_discoveryAnswered (s : State) (p : Nat) : s.Steady (s.discoveryAnswered p) := steady_setTx ..

theorem steady_failReached (s : State) (a : AgentRef) (p : Nat) : s.Steady (s.failReached a p) := by
  unfold State.failReached
  split; exacts [.refl _, (steady_showDomain ..).after ⟨rfl, fun h => h⟩]

theorem steady_failLinks (s : State) (f : Fid) : s.Steady (s.failLinks f) := (steady_showDomain ..).after ⟨rfl, fun h => h⟩

theorem steady_rejoinFailed (s : State) (f : Fid) (step : Nat) : s.Steady (s.rejoinFailed f step) := (steady_present ..).after ⟨rfl, fun h => h⟩

theorem steady_katFailed (s : State) (f : Fid) : s.Steady (s.katFailed f) := by
  unfold State.katFailed
  split; exacts [.ite ((steady_sendHooked ..).after ⟨rfl, fun h => h⟩) (steady_rejoinFailed ..), .ite (steady_failLinks ..) (.refl _)]

theorem steady_hookFailed (s : State) (k : AckKind) (f : Fid) (status : Nat) (value : Word64) : s.Steady (s.hookFailed k f status value) := by
  unfold State.hookFailed
  split
  · exact steady_installFailed ..
  · exact .ite (steady_commitRefused ..) (.refl _)
  · exact steady_stageFailed ..
  · exact steady_reserveRefused ..
  · exact steady_freeAnswered ..
  · exact steady_completeTag ..
  · exact steady_setEngine ..
  · exact .refl _
  · exact steady_claimFailed ..
  · exact .refl _
  · exact steady_katFailed ..
  · exact steady_takeoverRead ..
  · exact .refl _

theorem steady_restartOwn (s : State) (far : Fid) : s.Steady (s.restartOwn far) :=
  (steady_forEach (fun _ _ => steady_hookFailed ..) ..).after ((steady_forEach (fun _ _ => steady_emit ..) ..).after ⟨rfl, fun h => h⟩)

theorem steady_keyLinks (s : State) : s.Steady s.keyLinks := .ite (steady_forEach (fun _ _ => steady_rekeyLink ..) ..) (.refl _)

theorem steady_retrainPort (s : State) (p : Nat) : s.Steady (s.retrainPort p) :=
  (steady_queueWake ..).after ((steady_update rfl).after ((steady_update rfl).after ((steady_showPorts ..).after (steady_resetPort ..))))

theorem steady_stopBringup (s : State) : s.Steady s.stopBringup := (steady_assertFaultN ..).after ⟨rfl, fun h => h⟩

theorem steady_nextPhase (s : State) (n : Nat) : s.Steady (s.nextPhase n) := steady_setFld ..

theorem steady_phase1 (s : State) : s.Steady s.phase1 := by
  unfold State.phase1
  extract_lets _ s1 _ s2
  have h1 : s.Steady s1 := ⟨rfl, fun h => h⟩
  have h2 : s1.Steady s2 := .ite ((steady_satFld ..).after ⟨rfl, fun h => h⟩) (.refl _)
  exact (steady_nextPhase ..).after (h2.after h1)

theorem steady_phase2 (s : State) (r : PhaseResult) : s.Steady (s.phase2 r) :=
  .ite (steady_stopBringup ..) ((steady_nextPhase ..).after ((steady_showPorts ..).after ((steady_forEach (fun _ _ =>
    (steady_queueWake ..).after (steady_setPort ..)) ..).after ((steady_setFld ..).after ((steady_extendMeas ..).after
    ((steady_extendMeas ..).after (steady_extendMeas ..)))))))

theorem steady_phase4 (s : State) : s.Steady s.phase4 := by
  unfold State.phase4
  extract_lets next s1 s2
  have h1 : s.Steady s1 := ⟨rfl, fun _ => Memory.wf_nil⟩
  exact (steady_forEach (fun _ _ => steady_ungateReq ..) ..).after ((steady_nextPhase ..).after ((steady_setFld ..).after h1))

theorem steady_phase5 (s : State) (r : PhaseResult) : s.Steady (s.phase5 r) :=
  (steady_nextPhase ..).after ((steady_showGated ..).after ((steady_showCfb ..).after ⟨rfl, fun h => h⟩))

theorem steady_loadSlot (s : State) (slot : Nat) (sigOk : Bool) (l : List Byte) : s.Steady (s.loadSlot slot sigOk l) :=
  .ite ((steady_extendMeas ..).after ⟨rfl, fun h => h⟩) (.refl _)

theorem steady_startResident (s : State) (e : Nat) : s.Steady (s.startResident e) := by
  unfold State.startResident
  split; exacts [steady_setEngine .., .refl _]

theorem steady_takeInventory (s : State) (r : PhaseResult) : s.Steady (s.takeInventory r) :=
  .after (.ite (.refl _) ((steady_forEach (fun _ _ => steady_raise ..) ..).after ⟨rfl, fun h => h⟩)) (steady_extendMeas ..)

theorem steady_phase6 (s : State) (r : PhaseResult) : s.Steady (s.phase6 r) :=
  (steady_nextPhase ..).after ((steady_forEach (fun _ _ => steady_startResident ..) ..).after ((steady_takeInventory ..).after (steady_forEach
    (fun _ _ => steady_loadSlot ..) ..)))

theorem steady_becomeReady (s : State) : s.Steady s.becomeReady :=
  (steady_forEach (fun _ _ => steady_askDiscovery ..) ..).after ((steady_setFld ..).after ((steady_setFld ..).after ((steady_setFld ..).after
    ((steady_toWriter ..).after ((steady_nextPhase ..).after (steady_setFld ..))))))

theorem steady_joinEnds (s : State) (a : AgentRef) (f : Fid) (p : Nat) : s.Steady (s.joinEnds a f p) := by
  unfold State.joinEnds
  dsimp only
  split; exacts [steady_setPort .., .refl _]

theorem steady_raiseGeneration (s : State) (found : Nat) : s.Steady (s.raiseGeneration found) := .ite (steady_setFld ..) (.refl _)

theorem steady_claimOne (s : State) (f : Fid) (digest : BitVec 384) : s.Steady (s.claimOne f digest) :=
  (steady_sendHooked ..).after (steady_mirrorOut ..)

theorem steady_reclaim (s : State) : s.Steady s.reclaim := steady_forEach (fun _ _ => steady_sendHooked ..) ..

theorem steady_adoptDevice (s : State) (f : Fid) (r : DiscoverInfo) : s.Steady (s.adoptDevice f r) :=
  .after (.ite ((steady_orderScrub ..).after (steady_setDev ..)) (.ite (steady_setPartition ..) (.ite (.refl _) (steady_setDev ..)))) (.ite
    (.refl _) ((steady_setPart ..).after ⟨rfl, fun h => h⟩))

theorem steady_adoptEpoch (s : State) (port : Nat) (r : DiscoverInfo) : s.Steady (s.adoptEpoch port r) :=
  .ite (.refl _) ((steady_update rfl).after ((steady_setFld ..).after (steady_setFld ..)))

theorem steady_enterKnown (s : State) (k : Known) : s.Steady (s.enterKnown k) := ⟨rfl, fun h => h⟩

theorem steady_discover (s : State) (port : Nat) (r : DiscoverInfo) (f : Fid) (other : Bool) : s.Steady (s.discover port r f other) :=
  .after (.ite (steady_reclaim ..) (.refl _)) ((steady_claimOne ..).after ((steady_adoptDevice ..).after ((steady_adoptEpoch ..).after
    ((steady_setFld ..).after ((steady_rekeyLink ..).after ((steady_joinEnds ..).after ((steady_updAgent ..).after (.after (.ite
    (steady_restartOwn ..) (.refl _)) ((steady_discoveryAnswered ..).after ((steady_enterKnown ..).after ((steady_raiseGeneration ..).after
    (.ite (steady_raise ..) (.refl _)))))))))))))

theorem steady_claimAcked (s : State) (f : Fid) : s.Steady (s.claimAcked f) :=
  (steady_takeoverDone ..).after (.after (.ite (steady_sendHooked ..) (.refl _)) ⟨rfl, fun h => h⟩)

theorem steady_intoService (s : State) (f : Fid) : s.Steady (s.intoService f) :=
  .after (.ite ((steady_useFree ..).after ((steady_submitInstall ..).after (steady_keyLinks ..))) (.refl _)) ⟨rfl, fun h => h⟩

theorem steady_startRestart (s : State) (f : Fid) : s.Steady (s.startRestart f) :=
  .after (.ite (steady_intoService ..) ⟨rfl, fun h => h⟩) (steady_broadcast ..)

theorem steady_restartAcked (s : State) (target : Fid) (f : Fid) : s.Steady (s.restartAcked target f) := by
  unfold State.restartAcked
  split; exacts [.refl _, .ite ((steady_intoService ..).after ⟨rfl, fun h => h⟩) ⟨rfl, fun h => h⟩]

theorem steady_settleRestarts (s : State) : s.Steady s.settleRestarts :=
  (steady_forEach (fun _ _ => steady_intoService ..) ..).after ⟨rfl, fun h => h⟩

theorem steady_admitAgent (s : State) (k : Known) : s.Steady (s.admitAgent k) :=
  .after (.ite (steady_startRestart ..) (steady_intoService ..)) ((steady_showDomain ..).after ((steady_extendMeas ..).after ⟨rfl, fun h => h⟩))

theorem steady_showDomainReady (s : State) : s.Steady s.showDomainReady := .ite (steady_setFld ..) (.refl _)

theorem steady_rejoinKeys (s : State) (a : AgentRef) (f : Fid) : s.Steady (s.rejoinKeys a f) := by
  unfold State.rejoinKeys
  exact steady_updAgent ..

theorem steady_rejoinReplicas (s : State) (e : Nat) : s.Steady (s.rejoinReplicas e) := (steady_brokerInstall ..).after ⟨rfl, fun h => h⟩

theorem steady_rejoinStep (s : State) (a : AgentRef) (f : Fid) (n : Nat) : s.Steady (s.rejoinStep a f n) := by
  unfold State.rejoinStep
  split
  · exact steady_sendHooked ..
  · exact steady_rejoinKeys ..
  · exact (steady_bindAgent ..).after (steady_registerEndpoint ..)
  · exact steady_rejoinReplicas ..
  · exact steady_sendHooked ..

theorem steady_rejoinRest (s : State) (a : AgentRef) (r : Rejoin) : s.Steady (s.rejoinRest a r) := by
  unfold State.rejoinRest
  extract_lets dom s1
  have h1 : s.Steady s1 := ⟨rfl, fun h => h⟩
  have steps (l : List Nat) : s1.Steady (s1.forEach l fun s n => s.rejoinStep a r.fid n) := steady_forEach (fun _ _ => steady_rejoinStep ..) ..
  split
  · exact (steps _).after h1
  · exact (steady_rejoinFailed ..).after ((steps _).after h1)

theorem steady_katPassed (s : State) (f : Fid) : s.Steady (s.katPassed f) := by
  unfold State.katPassed
  split; exacts [steady_rejoinRest .., by split; exacts [steady_admitAgent .., .refl _]]

theorem steady_noteEvent (s : State) (ev : Event) : s.Steady (s.noteEvent ev) :=
  .after (.ite ((steady_losePages ..).after (steady_dropReplicas ..)) (.refl _)) (.ite (.after (.ite (steady_satFld ..) (.refl _))
    (steady_satFld ..)) (.refl _))

theorem steady_sleepPort (s : State) (n : Node) (p : Nat) : s.Steady (s.sleepPort n p) := (steady_showNodePorts ..).after (steady_setPort ..)

theorem steady_sleepAnswered (s : State) (n : Node) (port : Option Nat) (status : Nat) : s.Steady (s.sleepAnswered n port status) := by
  unfold State.sleepAnswered
  split; exacts [.ite (steady_sleepPort ..) (steady_setPort ..), .refl _]

theorem steady_grantWakes (s : State) (group n : Nat) : s.Steady (s.grantWakes group n) := by
  induction n generalizing s with
  | zero => exact .refl _
  | succ n ih =>
    unfold State.grantWakes
    split
    · exact .refl _
    refine .ite (.ite (.refl _) ((steady_satFld ..).after ⟨rfl, fun h => h⟩)) ?_
    exact (ih _).after ((steady_satFld ..).after ((steady_showWakes _).after ⟨rfl, fun h => h⟩))

theorem steady_countTick (s : State) : s.Steady s.countTick :=
  (steady_setFld ..).after ((steady_update rfl).after ((steady_setReg ..).after ((steady_setFld ..).after ((steady_setFld ..).after
    (steady_setReg ..)))))

theorem steady_freeHeadless (s : State) (a : AgentRef) : s.Steady (s.freeHeadless a) := steady_freeCtxs ..

theorem steady_boundaryAt (s : State) (a : AgentRef) : s.Steady (s.boundaryAt a) :=
  (steady_deferredDeep ..).after (.after (.ite (.refl _) ((steady_freeHeadless ..).after (steady_updAgent ..))) (steady_agentBoundary ..))

theorem steady_openAtAgent (s : State) (a : AgentRef) : s.Steady (s.openAtAgent a) := (linkOnly_openAtAgent ..).steady

theorem steady_ownBoundary (s : State) (a : AgentRef) : s.Steady (s.ownBoundary a) := by
  unfold State.ownBoundary
  dsimp only
  split
  · exact .ite ((steady_boundaryAt ..).after (steady_updAgent ..)) (steady_updAgent ..)
  · exact .ite ((steady_boundaryAt ..).after (steady_updAgent ..)) (.refl _)

theorem steady_tickAgent (s : State) (a : AgentRef) (due : Bool) : s.Steady (s.tickAgent a due) := (linkOnly_tickAgent ..).steady

theorem steady_pumpAll (s : State) (n : Node) : s.Steady (s.pumpAll n) := (linkOnly_pumpAll ..).steady

theorem steady_tickCollector (s : State) : s.Steady s.tickCollector := ⟨rfl, fun h => h⟩

theorem steady_judgeEdges (s : State) : s.Steady s.judgeEdges := .ite (steady_loseSync ..) (.refl _)

theorem steady_writeEpochCfg (s : State) (v : Word64) : s.Steady (s.writeEpochCfg v) :=
  .ite ((steady_mirrorOut ..).after ((steady_setFld ..).after ⟨rfl, fun h => h⟩)) (steady_raise ..)

theorem steady_acquire (s : State) : s.Steady s.acquire := (steady_setFld ..).after ⟨rfl, fun h => h⟩

theorem steady_writeSyncCfg (s : State) (v : Word64) : s.Steady (s.writeSyncCfg v) :=
  .after (.ite (steady_acquire ..) (.refl _)) (.after (.ite (steady_setFld ..) (.refl _)) ((steady_mirrorOut ..).after (steady_setReg ..)))

theorem steady_announce (s : State) (a : Option (BitVec 32 × ℤ)) : s.Steady (s.announce a) := (steady_setFld ..).after ⟨rfl, fun h => h⟩

theorem steady_steer (s : State) : s.Steady s.steer := by
  unfold State.steer
  split
  · exact steady_announce ..
  · exact .ite (steady_announce ..) (.after (.ite ((steady_loseSync ..).after (steady_announce ..)) (.ite ((steady_loseSync ..).after
        (steady_announce ..)) (.ite ((steady_loseSync ..).after (steady_announce ..)) (.after (.ite ((steady_restore ..).after
        (steady_setFld ..)) (.refl _)) (steady_announce ..))))) ((steady_setFld ..).after ⟨rfl, fun h => h⟩))

theorem steady_discardEth (s : State) : s.Steady s.discardEth := steady_raise ..

theorem steady_missedAdjust (s : State) (e : BitVec 32) : s.Steady (s.missedAdjust e) :=
  .ite (steady_forEach (fun _ _ => .ite (steady_lapse ..) (.refl _)) ..) (.refl _)

theorem steady_takeGeometry (s : State) (slots : Nat) (ticks : Nat) : s.Steady (s.takeGeometry slots ticks) :=
  .after (.ite (.ite (steady_lapse ..) (.refl _)) (steady_forEach (fun _ _ => steady_restore ..) ..)) ((steady_update rfl).after
    ((steady_setFld ..).after ((steady_setFld ..).after ((steady_setFld ..).after (steady_setFld ..)))))

theorem steady_openEpoch (s : State) : s.Steady s.openEpoch := by
  unfold State.openEpoch
  dsimp only
  split
  · exact .ite ((steady_update rfl).after ((steady_setFld ..).after (steady_setFld ..))) ((steady_takeGeometry ..).after
        ((steady_update rfl).after ((steady_setFld ..).after (steady_setFld ..))))
  · exact (steady_update rfl).after ((steady_setFld ..).after (steady_setFld ..))

theorem steady_swapController (s : State) : s.Steady s.swapController := by
  unfold State.swapController
  split
  · dsimp only
    split
    · exact .ite ((steady_checkBounds ..).after ((steady_treesReplaced ..).after ((steady_playSwapped ..).after (.ite
          ((steady_showDomainReady ..).after ((steady_checkBounds ..).after (steady_installInForce ..))) (.refl _))))) (.ite
          ((steady_showDomainReady ..).after ((steady_checkBounds ..).after (steady_installInForce ..))) (.refl _))
    · exact .ite ((steady_showDomainReady ..).after ((steady_checkBounds ..).after (steady_installInForce ..))) (.refl _)
  · dsimp only
    split
    · exact .ite ((steady_checkBounds ..).after ((steady_treesReplaced ..).after (steady_playSwapped ..))) (.refl _)
    · exact .refl _

theorem steady_emitExpress (s : State) (a : AgentRef) (port : Nat) (x : Fid × TxPkt) : s.Steady (s.emitExpress a port x) :=
  (steady_portSend ..).after ((steady_emit ..).after (steady_setTx ..))

theorem steady_emitHead (a : AgentRef) (port n : Nat) (l : List (Fid × TxPkt)) (s : State) : s.Steady (State.emitHead a port n l s).1 := by
  induction l generalizing n s with
  | nil => exact .refl _
  | cons x l ih => exact .ite_fst (ih ..) (.ite_fst ((ih ..).after (steady_emitExpress ..)) (.refl _))

theorem steady_fillRing (s : State) (a : AgentRef) (p : Packet) : s.Steady (s.fillRing a p).1 := by
  unfold State.fillRing
  split
  · exact .refl _
  refine .ite_fst (.refl _) (.ite_fst (.refl _) ?_)
  dsimp only
  exact steady_updAgent ..

theorem steady_sendToEngine (s : State) (p : Packet) : s.Steady (s.sendToEngine p).1 := .ite_fst (.refl _) (.ite_fst (.refl _) (steady_setEngine ..))

theorem steady_plainWrite (s : State) (off : Nat) (v : Word64) : s.Steady (s.plainWrite off v) := by
  unfold State.plainWrite
  split; exacts [steady_setReg .., .refl _]

theorem steady_takeRange (s : State) (f : Field) (v : Word64) (lo : Nat) (hi : Nat) : s.Steady (s.takeRange f v lo hi) :=
  .ite (steady_setFld ..) (.refl _)

theorem steady_writeLnk (s : State) (off : Nat) (v : Word64) : s.Steady (s.writeLnk off v) :=
  .ite (steady_takeRange ..) (.ite (steady_setPort ..) (.ite (steady_setPort ..) (.ite (.after (.ite (steady_retrainPort ..) (.refl _)) (.ite
    (steady_rekeyLink ..) (.refl _))) (.refl _))))

theorem steady_writePlc (s : State) (lvl : Level) (off : Nat) (v : Word64) : s.Steady (s.writePlc lvl off v) :=
  .ite ((steady_takeRange ..).after ((steady_takeRange ..).after ((steady_takeRange ..).after ((steady_takeRange ..).after
    (steady_setFld ..))))) (.ite ((steady_takeRange ..).after (steady_setFld ..)) (.ite ((steady_takeRange ..).after (steady_setFld ..)) (.ite
    ⟨rfl, fun h => h⟩ (.ite (.ite (steady_violation ..) ⟨rfl, fun h => h⟩) (steady_plainWrite ..)))))

theorem steady_writeSec (s : State) (off : Nat) (v : Word64) : s.Steady (s.writeSec off v) :=
  .ite (.ite (.refl _) (.ite (steady_openPart ..) (.ite (steady_endPartition ..) (steady_refuseAction ..)))) (.ite (.ite (.refl _) (.ite
    (steady_assignDev ..) (.ite (steady_releaseDev ..) (steady_rescrubDev ..)))) (steady_plainWrite ..))

theorem steady_writeBlk (s : State) (n : Nat) (v : Word64) : s.Steady (s.writeBlk n v) := by
  unfold State.writeBlk
  extract_lets at_ pips had s1 s2
  have h : s.Steady s2 := .after (t := s1) (steady_takeRange ..) ((steady_setBlk ..).after (steady_setBlk ..))
  exact .after (t := s2) (.ite ⟨rfl, fun h => h⟩ (.refl _)) h

theorem steady_writePwrCtrl (s : State) (lvl : Level) (v : Word64) : s.Steady (s.writePwrCtrl lvl v) :=
  .after (.ite (steady_controllerReset ..) (.refl _)) (steady_orderBlockReset ..)

theorem steady_writeCq (s : State) (off : Nat) (v : Word64) : s.Steady (s.writeCq off v) :=
  .ite (.ite (steady_enableQueue ..) (steady_disableQueue ..)) (.ite (steady_plainWrite ..) (.ite (.refl _) (steady_plainWrite ..)))

theorem steady_writeReg (s : State) (lvl : Level) (off : Nat) (v : Word64) : s.Steady (s.writeReg lvl off v) :=
  .ite (.refl _) (.ite (steady_writeLnk ..) (.ite (steady_writeEpochCfg ..) (.ite (steady_writeSyncCfg ..) (.ite
    ((steady_writeAutoPlay ..).after (steady_plainWrite ..)) (.ite ((steady_mirrorOut ..).after ⟨rfl, fun h => h⟩) (.ite (.after (.ite
    (steady_setFld ..) (.ite (steady_setFld ..) (.refl _))) (steady_plainWrite ..)) (.ite ((steady_mirrorOut ..).after (steady_plainWrite ..))
    (.ite ((steady_mirrorOut ..).after (steady_writePlc ..)) (.ite (steady_writeSec ..) (.ite (steady_writeFltCfg ..) (.ite
    (steady_writeBlk ..) (.ite (steady_writeSource ..) (.ite (steady_writeTriCfg ..) (.ite (steady_writeStandbyCfg ..) (.ite
    (steady_writePwrCtrl ..) (.ite (.after (.ite (steady_setFld ..) (steady_takeRange ..)) (steady_takeRange ..)) (.ite (steady_writeCq ..)
    (steady_plainWrite ..))))))))))))))))))

theorem steady_setDirLine (s : State) (i : Nat) (l : List Byte) : s.Steady (s.setDirLine i l) := ⟨rfl, fun h => h⟩

theorem steady_writeHbm (s : State) (area a : Nat) (l : List Byte) : s.Steady (s.writeHbm area a l) := by
  unfold State.writeHbm
  split
  · exact steady_forEach (fun _ _ => steady_setDirLine ..) ..
  · exact .refl _
  · exact ⟨rfl, Memory.wf_writeBytes _ l⟩

theorem steady_writeOwn (s : State) (e : Nat) (h : Handle) (a : Nat) (l : List Byte) : s.Steady (s.writeOwn e h a l) :=
  .ite (steady_setEngine ..) (steady_setEngine ..)

theorem steady_putSpace (s : State) (e : Nat) (h : Handle) (a : Nat) (l : List Byte) : s.Steady (s.putSpace e h a l) := by
  unfold State.putSpace
  split
  · exact steady_writeOwn ..
  · exact steady_writeOwn ..
  · exact ⟨rfl, fun h => h⟩
  · exact steady_writeHbm ..
  · exact ⟨rfl, fun h => h⟩
  · split
    · exact ⟨rfl, fun h => h⟩
    · exact .refl _
  · exact steady_writeReg ..

theorem steady_zeroSpace (s : State) (e : Nat) (h : Handle) : s.Steady (s.zeroSpace e h) := by
  unfold State.zeroSpace
  split
  · exact steady_setEngine ..
  · exact steady_setEngine ..
  · exact ⟨rfl, fun h => h⟩
  · exact .ite ⟨rfl, fun h => h⟩ ⟨rfl, Memory.wf_zero _ _⟩
  · exact ⟨rfl, fun h => h⟩
  · split
    · exact ⟨rfl, fun h => h⟩
    · exact .refl _
  · exact .refl _

theorem steady_suppress (s : State) (e : Nat) (w : Word64) : s.Steady (s.suppress e w) := (steady_countViolation ..).after (steady_setEngine ..)

theorem steady_setPc (s : State) (e : Nat) (pc : Nat) : s.Steady (s.setPc e pc) := .ite (steady_setEngine ..) (.refl _)

theorem steady_setBlocked (s : State) (e : Nat) (b : Blocked) : s.Steady (s.setBlocked e b) := steady_setEngine ..

theorem steady_waitAtGate (s : State) (e : Nat) : s.Steady (s.waitAtGate e) := .ite (.refl _) ⟨rfl, fun h => h⟩

theorem steady_leaveGate (s : State) (e : Nat) : s.Steady (s.leaveGate e) := .ite ⟨rfl, fun h => h⟩ (.refl _)

theorem steady_putG (s : State) (e : Nat) (r : Nat) (v : Word64) : s.Steady (s.putG e r v) := steady_setEngine ..

theorem steady_putP (s : State) (e : Nat) (i : Nat) (b : Bool) : s.Steady (s.putP e i b) := steady_setEngine ..

theorem steady_putGs (s : State) (e r : Nat) (l : List Word64) : s.Steady (s.putGs e r l) := by
  induction l generalizing s r with
  | nil => exact .refl _
  | cons v l ih => exact (ih ..).after (steady_putG ..)

theorem steady_putH (s : State) (e : Nat) (i : Nat) (h : Option Handle) : s.Steady (s.putH e i h) := steady_setEngine ..

theorem steady_openTag (s : State) (e : Nat) (rd : Nat) (t : Tag) : s.Steady (s.openTag e rd t) := steady_setEngine ..

theorem steady_sendProgram (s : State) (p : Packet) (kind : AckKind) : s.Steady (s.sendProgram p kind) := by
  unfold State.sendProgram
  extract_lets kept one
  have h (t : State) p d : t.Steady (one t p d) := (steady_sendPkt ..).after (.ite ⟨rfl, fun h => h⟩ (.refl _))
  clear_value one
  exact .ite (steady_forEach (fun _ _ => h ..) ..) (h ..)

theorem steady_writeSpace {s t : State} {e : Nat} {h : Handle} {a : Nat} {l : List Byte} (ht : s.writeSpace e h a l = .ok t) : s.Steady t := by
  unfold State.writeSpace at ht
  split at ht
  · cases ht
  split at ht
  · cases ht
  · obtain rfl := Except.ok.inj ht
    exact steady_putSpace ..

theorem steady_endRun (s : State) (e tag image entry : Nat) (src : Handle) (addr len : Nat) (dst : Handle) :
    s.Steady (s.endRun e tag image entry src addr len dst) := by
  unfold State.endRun
  extract_lets _ s1 out
  have h1 : s.Steady s1 := by
    unfold s1
    split
    · exact ⟨rfl, fun h => h⟩
    · exact .refl _
  clear_value s1
  split
  · next t ht => exact (steady_completeTag ..).after ((steady_writeSpace ht).after h1)
  · exact (steady_completeTag ..).after h1

theorem steady_endForgotten (s : State) (image : Nat) : s.Steady (s.endForgotten image) := by
  unfold State.endForgotten
  split; exacts [.ite ⟨rfl, fun h => h⟩ (.refl _), .refl _]

theorem steady_regRequest (s : State) (e : Nat) (dest : Fid) (typ : BitVec 8) (off : Nat) (payload : List Byte) : s.Steady (s.regRequest e dest
    typ off payload) :=
  steady_sendProgram ..

theorem steady_hookDone (s : State) (k : AckKind) (f : Fid) (seq : BitVec 32) (status : Nat) (value : Word64) : s.Steady (s.hookDone k f seq
    status value) := by
  unfold State.hookDone
  split
  · exact steady_hookFailed ..
  · split
    · exact steady_installAcked ..
    · exact steady_commitAcked ..
    · exact steady_stageAcked ..
    · exact steady_playAcked ..
    · exact steady_claimAcked ..
    · exact steady_restartAcked ..
    · exact steady_reserveAcked ..
    · exact steady_freeAnswered ..
    · exact steady_completeTag ..
    · exact steady_setEngine ..
    · exact .refl _
    · exact steady_takeoverRead ..
    · exact .refl _

theorem steady_ctlDone (s : State) (t : TxPkt) (status : Nat) (value : Word64) : s.Steady (s.ctlDone t status value) :=
  .after (.ite (steady_mirrorAcked ..) (.refl _)) (.after (.ite (steady_sleepAnswered ..) (.refl _)) ((steady_forEach (fun _ _ =>
    steady_hookDone ..) ..).after ⟨rfl, fun h => h⟩))

theorem steady_releaseEvents (s : State) (a : AgentRef) (seq : BitVec 32) : s.Steady (s.releaseEvents a seq) :=
  (steady_presentLatched ..).after (steady_updAgent ..)

theorem steady_agentDone (s : State) (a : AgentRef) (t : TxPkt) (status : Nat) : s.Steady (s.agentDone a t status) :=
  (steady_emit ..).after (.after (.ite (steady_sleepAnswered ..) (.refl _)) (.ite (steady_releaseEvents ..) (.refl _)))

theorem steady_packetEnd (s : State) (n : Node) (t : TxPkt) (status : Nat) (value : Word64) : s.Steady (s.packetEnd n t status value) := by
  unfold State.packetEnd
  extract_lets h x l s1 s2
  have h2 : s1.Steady s2 := by
    cases n with
    | ctl => exact steady_ctlDone ..
    | agent => exact steady_agentDone ..
  exact (steady_forEach (fun _ _ => steady_releaseWaiting ..) ..).after (h2.after (steady_setTx ..))

theorem steady_resendPkt (s : State) (n : Node) (t : TxPkt) : s.Steady (s.resendPkt n t) :=
  .after (.ite (.refl _) (steady_emitTx ..)) (steady_setTx ..)

theorem steady_park (s : State) (n : Node) (t : TxPkt) : s.Steady (s.park n t) := steady_setTx ..

theorem steady_failPkt (s : State) (n : Node) (t : TxPkt) (status : Nat) : s.Steady (s.failPkt n t status) :=
  .ite (steady_park ..) (steady_packetEnd ..)

theorem steady_giveUp (s : State) (n : Node) (t : TxPkt) (status : Nat) : s.Steady (s.giveUp n t status) := by
  refine .ite (steady_park ..) ((steady_packetEnd ..).after ?_)
  split
  · exact steady_raiseAgent ..
  · exact steady_raiseAt ..

theorem steady_refuseTx (s : State) (n : Node) (t : TxPkt) : s.Steady (s.refuseTx n t) := steady_setTx ..

theorem steady_bcastAnswered (s : State) (h : Header) (seq : BitVec 32) (status : Nat) : s.Steady (s.bcastAnswered h seq status) :=
  steady_forEach (fun _ _ => steady_hookDone ..) ..

theorem steady_ackOne (s : State) (n : Node) (h : Header) (seq : BitVec 32) : s.Steady (s.ackOne n h seq) := by
  unfold State.ackOne
  split
  · exact .ite (.refl _) (steady_packetEnd ..)
  · split
    · exact steady_bcastAnswered ..
    · exact steady_dispatchAcked ..

theorem steady_resendOne (s : State) (n : Node) (h : Header) (seq : BitVec 32) : s.Steady (s.resendOne n h seq) := by
  unfold State.resendOne
  split
  · exact .ite (.refl _) (.ite (steady_resendPkt ..) (.refl _))
  · split
    · exact steady_raiseAgent ..
    · exact steady_raiseAt ..

theorem steady_takeReadResp (s : State) (n : Node) (p : Packet) : s.Steady (s.takeReadResp n p).1 := by
  unfold State.takeReadResp
  dsimp only
  split; exacts [.ite_fst ((steady_packetEnd ..).after (steady_emit ..)) (.refl _), .refl _]

end Sys2Proof.Machine
end

section
/-! What the instructions of a program and the operations that take a step as an argument keep. -/

namespace Sys2Proof.Machine

variable {s s' : State} {e : Nat}

/-- Where an instruction has an effect, its state is a steady one. -/
inductive Effect.Steady (s : State) : Effect → Prop
  | done {t : State} (h : s.Steady t) : Effect.Steady s (.done t)
  | goto {t : State} {pc : Nat} (h : s.Steady t) : Effect.Steady s (.goto t pc)
  | fault {code : Nat} {r : Word64} : Effect.Steady s (.fault code r)
  | suppress : Effect.Steady s .suppress
  | stay : Effect.Steady s .stay
  | block {t : State} {b : Blocked} (h : s.Steady t) : Effect.Steady s (.block t b)
  | ended {t : State} (h : s.Steady t) : Effect.Steady s (.ended t)

theorem Effect.Steady.after {t : State} {x : Effect} (g : x.Steady t) (h : s.Steady t) : x.Steady s := by
  cases g with
  | done g => exact .done (g.after h)
  | goto g => exact .goto (g.after h)
  | fault => exact .fault
  | suppress => exact .suppress
  | stay => exact .stay
  | block g => exact .block (g.after h)
  | ended g => exact .ended (g.after h)

theorem Effect.Steady.ite {c : Prop} [Decidable c] {x y : Effect} (h : x.Steady s) (g : y.Steady s) : Effect.Steady s (if c then x else y) := by
  split
  · exact h
  · exact g

theorem steady_settleEffect {t : State} {x : Effect} (ht : s.Steady t) (h : x.Steady t) (w : Word64) : s.Steady (s.settleEffect t e w x) := by
  cases h with
  | done h => exact (steady_setPc ..).after (h.after ht)
  | goto h => exact (steady_setPc ..).after (h.after ht)
  | fault => exact (steady_faultProgram ..).after ht
  | suppress => exact (steady_suppress ..).after ht
  | stay => exact .refl s
  | block h => exact (steady_setBlocked ..).after (h.after ht)
  | ended h => exact h.after ht

/-- An instruction that does not come to its effect leaves a steady state; one that does has it on a steady one. -/
theorem State.issue_cases (s : State) (e op : Nat) (lvl : Level) (body : State → Word64 → Effect) :
    s.Steady (s.issue e op lvl body) ∨ ∃ t w, s.Steady t ∧ s.issue e op lvl body = s.settleEffect t e w (body t w) := by
  have hl (t : State) : t.Steady (t.leaveGate e) := steady_leaveGate ..
  unfold State.issue
  extract_lets x t
  have ht : s.Steady t := (hl _).after (steady_setEngine ..)
  clear_value t
  split
  · exact .inl (.refl _)
  split
  · exact .inl (steady_faultProgram ..)
  · next w _ =>
    repeat' split
    · exact .inl (.refl _)
    · exact .inl (steady_faultProgram ..)
    · exact .inl (steady_faultProgram ..)
    · exact .inl ((steady_setPc ..).after ht)
    · exact .inl ((steady_suppress ..).after ht)
    · exact .inl (steady_waitAtGate ..)
    · exact .inr ⟨t, w, ht, rfl⟩

theorem steady_issue {body : State → Word64 → Effect} (h : ∀ s w, (body s w).Steady s) (s : State) (e op : Nat) (lvl : Level) :
    s.Steady (s.issue e op lvl body) := by
  obtain hs | ⟨t, w, ht, heq⟩ := s.issue_cases e op lvl body
  · exact hs
  · rw [heq]
    exact steady_settleEffect ht (h t w) w

theorem steady_withHandle {k : Handle → Effect} (h : ∀ x, (k x).Steady s) (e i : Nat) (kinds : List Nat) (need : Nat) :
    (s'.withHandle e i kinds need k).Steady s := by
  unfold State.withHandle
  split
  · exact .fault
  · exact .ite (h _) .fault

theorem steady_withBytes {k : List Byte → Effect} (h : ∀ l, (k l).Steady s) (e : Nat) (x : Handle) (a n : Nat) : (s'.withBytes e x a n k).Steady
    s := by
  unfold State.withBytes
  split
  · exact h _
  · exact .fault

theorem steady_withStore {k : State → Effect} (h : ∀ t, s.Steady t → (k t).Steady s) (e : Nat) (x : Handle) (a : Nat) (l : List Byte) :
    (s.withStore e x a l k).Steady s := by
  unfold State.withStore
  split
  · next t ht => exact h _ (steady_writeSpace ht)
  · exact .fault

theorem steady_async {k : State → Nat → State} (h : ∀ t n, State.Steady t (k t n)) (s : State) (e rd : Nat) (t : Tag) : (s.async e rd t
    k).Steady s :=
  .ite .stay (.done ((h ..).after (steady_openTag ..)))

theorem steady_alu (f : Word64 → Word64 → Word64) (s : State) (w : Word64) : (alu e f s w).Steady s := .done (steady_putG ..)

theorem steady_aluI (f : Word64 → Word64 → Word64) (s : State) (w : Word64) : (aluI e f s w).Steady s := .done (steady_putG ..)

theorem steady_compareInto (s : State) (w : Word64) (cond comb : Nat) (b : Word64) : (compareInto e s w cond comb b).Steady s :=
  .done (steady_putP ..)

theorem steady_withMem {k : Handle → Nat → Effect} (h : ∀ x a, (k x a).Steady s) (e : Nat) (w : Word64) (need : Nat) (regs : Bool) :
    (withMem s' e w need regs k).Steady s :=
  steady_withHandle (fun _ => .ite .fault (h ..)) ..

theorem steady_load (f : Nat → Nat → Word64) (s : State) (w : Word64) : (load e f s w).Steady s :=
  steady_withMem (fun _ _ => steady_withBytes (fun _ => .done (steady_putG ..)) ..) ..

theorem steady_atomic (f : State → Word64 → Nat → Option Nat) (s : State) (w : Word64) : (atomic e f s w).Steady s := by
  refine steady_withMem (fun _ _ => .ite .fault (steady_withBytes (fun _ => ?_) ..)) ..
  dsimp only
  split
  · exact .done (steady_putG ..)
  · exact steady_withStore (fun _ h => .done ((steady_putG ..).after h)) ..

theorem steady_withRecord {k : List Byte → Effect} (h : ∀ l, (k l).Steady s) (e : Nat) (x : Handle) (a : Nat) : (withRecord s' e x a k).Steady s :=
  steady_withBytes (fun _ => steady_withBytes h ..) ..

theorem steady_withKey {k : Handle → Effect} (h : ∀ x, (k x).Steady s) (e i : Nat) : (s'.withKey e i k).Steady s :=
  steady_withHandle (fun _ => .ite (h _) .fault) ..

theorem steady_frameIn {body : State → State} (h : ∀ s : State, s.Steady (body s)) (s : State) (n : Node) (port : Nat) (f : Frame) :
    s.Steady (s.frameIn n port f body) :=
  .ite ((steady_discard ..).after (steady_setPort ..)) (.ite ((steady_discard ..).after (steady_setPort ..))
    (.ite ((steady_discard ..).after (steady_setPort ..)) ((h _).after (steady_setPort ..))))

theorem steady_collCrc {body : State → State} (h : ∀ s : State, s.Steady (body s)) (s : State) (n : Node) (p : Packet) :
    s.Steady (s.collCrc n p body) := .ite (h _) (steady_discard ..)

theorem steady_regWriteReq {write : State → State × Bool} (h : ∀ s : State, s.Steady (write s).1) (s : State) (a : AgentRef) (p : Packet) :
    s.Steady (s.regWriteReq a p write) :=
  .ite (steady_nakPkt ..) (.ite ((steady_regRespond ..).after (steady_raiseAgent ..)) (.ite (.refl _) (.ite (steady_regRespond ..)
    ((steady_regRespond ..).after ((steady_noteRefused ..).after ((steady_recordSeq ..).after (h _)))))))

theorem steady_kvTake {f : State → Packet → State × KvReply} (h : ∀ (s : State) p, s.Steady (f s p).1) (s : State) (p : Packet) :
    s.Steady (s.kvTake p f) :=
  steady_accept (fun _ => .ite_fst (.refl _) ((steady_kvAnswer ..).after (h ..))) ..

theorem steady_bringFailures {r : PhaseResult} {t : State} (h : s.bringFailures r = some t) : s.Steady t := by
  unfold State.bringFailures at h
  extract_lets arbiters at h
  split at h
  · cases h
  · obtain rfl := Option.some.inj h
    exact steady_forEach (fun _ _ => .ite (steady_fence ..) (steady_retire ..)) ..

end Sys2Proof.Machine
end

section
/-! One lemma per command but LCADV. -/

namespace Sys2Proof.Machine

theorem leaves_execFrameReceive (n : Node) (port : Nat) (f : Frame) (s : State) : Leaves s (execFrameReceive n port f s) :=
  .next (steady_frameIn (fun _ => .ite (steady_takeCreditFrame ..) (steady_takeFrame ..)) ..)

theorem leaves_execCreditFrame (n : Node) (port : Nat) (f : Frame) (s : State) : Leaves s (execCreditFrame n port f s) :=
  .next (steady_frameIn (fun _ => steady_takeCreditFrame ..) ..)

theorem leaves_execCreditFrameTimer (n : Node) (port : Nat) (s : State) : Leaves s (execCreditFrameTimer n port s) :=
  .ite (.next (steady_sendCredit ..)) (.next (.refl _))

theorem leaves_execLinkDown (n : Node) (port : Nat) (cause : LinkDownCause) (s : State) : Leaves s (execLinkDown n port cause s) :=
  .ite (.next (steady_portDown ..)) (.next (.refl _))

theorem leaves_execRekeyOverrun (n : Node) (port : Nat) (s : State) : Leaves s (execRekeyOverrun n port s) :=
  .after (.next (steady_setPort ..)) (steady_portDown ..)

theorem leaves_execShadowCopyDone (a : AgentRef) (s : State) : Leaves s (execShadowCopyDone a s) := .next (steady_updAgent ..)

theorem leaves_execInstall (a : AgentRef) (p : Packet) (s : State) : Leaves s (execInstall a p s) :=
  .next (steady_fromOwner (fun _ => steady_accept (fun _ => steady_takeInstall ..) ..) ..)

theorem leaves_execCommit (a : AgentRef) (p : Packet) (s : State) : Leaves s (execCommit a p s) :=
  .next (steady_fromOwner (fun _ => steady_accept (fun _ => steady_takeCommit ..) ..) ..)

theorem leaves_execStageWrite (a : AgentRef) (p : Packet) (s : State) : Leaves s (execStageWrite a p s) :=
  .next (steady_fromOwner (fun _ => steady_accept (fun _ => steady_takeStage ..) ..) ..)

theorem leaves_execStageInvalidate (a : AgentRef) (p : Packet) (s : State) : Leaves s (execStageInvalidate a p s) :=
  .next (steady_fromOwner (fun _ => steady_accept (fun _ => steady_setStaged ..) ..) ..)

theorem leaves_execStageRebase (a : AgentRef) (p : Packet) (s : State) : Leaves s (execStageRebase a p s) :=
  .next (steady_fromOwner (fun _ => steady_accept (fun _ => steady_forEach (fun _ _ => .ite (steady_setStaged ..) (.refl _)) ..) ..) ..)

theorem leaves_execStagedSlotEccError (a : AgentRef) (slot : BitVec 6) (s : State) : Leaves s (execStagedSlotEccError a slot s) :=
  .next (steady_setStaged ..)

theorem leaves_execPlay (a : AgentRef) (p : Packet) (s : State) : Leaves s (execPlay a p s) :=
  .next (steady_fromOwner (fun _ => .ite (steady_nakPkt ..) (.ite (.ite (steady_again ..) (.refl _)) (.ite (steady_nakPkt ..) (.ite
    (steady_raiseAgent ..) (.after (.ite (steady_complete ..) (steady_recordSeq ..)) (steady_takePlay ..)))))) ..)

theorem leaves_execPlayApplyDone (a : AgentRef) (s : State) : Leaves s (execPlayApplyDone a s) := by
  unfold execPlayApplyDone
  dsimp only
  split
  · exact .next (.refl _)
  · split
    · exact .next (.refl _)
    · split
      · exact .next (steady_updAgent ..)
      · exact .next ((steady_raiseAgent ..).after (steady_cancelPlay ..))

theorem leaves_execCommitDeadline (s : State) : Leaves s (execCommitDeadline s) := by
  unfold execCommitDeadline
  split
  · exact .ite (.next (.refl _)) (.ite (.next ((steady_sendCommit ..).after ⟨rfl, fun h => h⟩)) (.next (steady_commitWithout ..)))
  · exact .next (.refl _)

theorem leaves_execClassificationClose (s : State) : Leaves s (execClassificationClose s) := by
  unfold execClassificationClose
  split; exacts [.ite (.next (.refl _)) (.next (steady_closeClassification ..)), .next (.refl _)]

theorem leaves_execPlayResendTimer (s : State) : Leaves s (execPlayResendTimer s) := by
  unfold execPlayResendTimer
  split; exacts [.ite (.next (.refl _)) (.after (.next (steady_forEach (fun _ _ => steady_sendHooked ..) ..)) ⟨rfl, fun h => h⟩), .next (.refl _)]

theorem leaves_execAutoPlayWrite (lvl : Level) (v : Word64) (s : State) : Leaves s (execAutoPlayWrite lvl v s) := by
  unfold execAutoPlayWrite
  split; exacts [.next (steady_violation ..), .next ((steady_writeAutoPlay ..).after (steady_setReg ..))]

theorem leaves_execDrainQuiet (d : DrainElem) (s : State) : Leaves s (execDrainQuiet d s) := by
  unfold execDrainQuiet
  split; exacts [.next (steady_startDrain ..), .ite (.next (steady_setDrain ..)) (.next (.refl _))]

theorem leaves_execDrainTimeout (d : DrainElem) (s : State) : Leaves s (execDrainTimeout d s) := by
  unfold execDrainTimeout
  split
  · exact .next (.refl _)
  · split
    · exact .next (.refl _)
    · exact .ite (.next (.refl _)) (.next ((steady_raise ..).after (steady_setDrain ..)))

theorem leaves_execGqDoorbell (a : AgentRef) (q : Nat) (part : BitVec 12) (tail : BitVec 32) (s : State) : Leaves s (execGqDoorbell a q part
    tail s) := by
  unfold execGqDoorbell
  split
  · exact .next (steady_agentViolation ..)
  · exact .ite (.next (steady_agentViolation ..)) (.ite (.next (.refl _)) (.after (.ite (.next (steady_setGq ..)) (.next
        ((steady_runQueue ..).after (steady_setGq ..)))) (steady_updAgent ..)))

theorem leaves_execGqCqHeadDoorbell (a : AgentRef) (q : Nat) (v : BitVec 32) (s : State) : Leaves s (execGqCqHeadDoorbell a q v s) := by
  unfold execGqCqHeadDoorbell
  split; exacts [.next (.refl _), .ite (.next (.refl _)) (.ite (.next (steady_setGq ..)) (.next ((steady_runQueue ..).after (steady_setGq ..))))]

theorem leaves_execLaunch (a : AgentRef) (group : Nat) (p : Packet) (s : State) : Leaves s (execLaunch a group p s) := by
  unfold execLaunch
  split
  · exact .next (steady_nakPkt ..)
  · refine .next ?_
    refine steady_accept (fun s => ?_) ..
    split
    · exact (steady_runQueue ..).after (steady_takeDesc ..)
    · exact .refl _

theorem leaves_execChunkTimeout (a : AgentRef) (group : Nat) (opSeq : BitVec 32) (index : Nat) (s : State) : Leaves s (execChunkTimeout a group
    opSeq index s) := by
  unfold execChunkTimeout
  split
  · exact .next (.refl _)
  · split
    · exact .ite (.next (.refl _)) (.ite (.next ((steady_runQueue ..).after ((steady_memberAbort ..).after (steady_raiseAgent ..)))) (.after
          (.ite (.next (steady_ringSend ..)) (.ite (.next (steady_memberSend ..)) (.next (steady_sendMemberChunk ..)))) (steady_setOp ..)))
    · exact .next (.refl _)

theorem leaves_execAttemptResumeTimer (a : AgentRef) (s : State) : Leaves s (execAttemptResumeTimer a s) := by
  unfold execAttemptResumeTimer
  split; exacts [.next (.refl _), .ite (.next (.refl _)) (.next (steady_updAgent ..))]

theorem leaves_execGo (a : AgentRef) (p : Packet) (g : GoNotice) (s : State) : Leaves s (execGo a p g s) := by
  refine .next (steady_fromOwner (fun _ => steady_accept (fun _ => ?_) ..) ..)
  split
  · exact .refl _
  · exact steady_takeGo ..

theorem leaves_execChunk (n : Node) (p : Packet) (s : State) : Leaves s (execChunk n p s) := by
  unfold execChunk
  refine .next ?_
  refine steady_collCrc (fun s => ?_) ..
  split
  · split
    · exact .ite (steady_ringChunk ..) (.refl _)
    · exact steady_collDiscard ..
  · dsimp only
    split
    · split
      · exact (steady_collDiscard ..).after (steady_charge ..)
      · split
        · exact (steady_nodeGenDiscard ..).after (steady_charge ..)
        · split
          · exact (steady_nodeChunk ..).after (steady_charge ..)
          · exact (steady_collDiscard ..).after (steady_charge ..)
    · exact (steady_collDiscard ..).after (steady_charge ..)

theorem leaves_execChunkResult (n : Node) (p : Packet) (s : State) : Leaves s (execChunkResult n p s) := by
  unfold execChunkResult
  refine .next ?_
  refine steady_collCrc (fun s => ?_) ..
  split
  · split
    · exact (steady_nodeResult ..).after (steady_hearUplink ..)
    · exact steady_collDiscard ..
  · split
    · exact .after (.ite (steady_collDiscard ..) (.ite (steady_nodeGenDiscard ..) (steady_nodeResult ..))) (steady_charge ..)
    · exact .ite (steady_memberResult ..) (.refl _)
    · exact steady_collDiscard ..

theorem leaves_execChunkAck (n : Node) (p : Packet) (s : State) : Leaves s (execChunkAck n p s) := by
  unfold execChunkAck
  refine .next ?_
  refine steady_collCrc (fun s => ?_) ..
  split
  · split
    · exact .ite (steady_ringAck ..) (.refl _)
    · exact steady_collDiscard ..
  · split
    · split
      · exact steady_collDiscard ..
      · split
        · exact steady_nodeGenDiscard ..
        · split
          · exact steady_nodeChildAck ..
          · exact .ite (steady_nodeParentAck ..) (steady_collDiscard ..)
    · split
      · exact .ite (steady_memberRootAck ..) (.refl _)
      · split
        · exact (steady_nodeParentAck ..).after (steady_hearUplink ..)
        · exact steady_collDiscard ..
    · exact steady_collDiscard ..

theorem leaves_execReserveWrite (a : AgentRef) (p : Packet) (s : State) : Leaves s (execReserveWrite a p s) :=
  .next (steady_fromOwner (fun _ => steady_accept (fun _ => .ite_fst (steady_satJfld ..) ((steady_showCtx ..).after (steady_updAgent ..))) ..) ..)

theorem leaves_execReserveFree (a : AgentRef) (p : Packet) (s : State) : Leaves s (execReserveFree a p s) :=
  .next (steady_fromOwner (fun _ => steady_accept (fun _ => .ite_fst (steady_freeCtxs ..) (.refl _)) ..) ..)

theorem leaves_execCrstAssert (a : AgentRef) (s : State) : Leaves s (execCrstAssert a s) := by
  unfold execCrstAssert
  split; exacts [.next (.refl _), .next ((steady_beginComputeReset ..).after (steady_updAgent ..))]

theorem leaves_execCrstDeassert (a : AgentRef) (s : State) : Leaves s (execCrstDeassert a s) := by
  unfold execCrstDeassert
  split; exacts [.next (.refl _), .next ((steady_endComputeReset ..).after (steady_updAgent ..))]

theorem leaves_execComputeResetEnd (a : AgentRef) (s : State) : Leaves s (execComputeResetEnd a s) :=
  .ite (.next (steady_endComputeReset ..)) (.next (.refl _))

theorem leaves_execLrstAssert (a : AgentRef) (s : State) : Leaves s (execLrstAssert a s) :=
  .next ((steady_linkDomainReset ..).after (steady_updAgent ..))

theorem leaves_execLrstDeassert (a : AgentRef) (s : State) : Leaves s (execLrstDeassert a s) :=
  .next ((steady_linkResetDone ..).after (steady_updAgent ..))

theorem leaves_execRegWrite (a : AgentRef) (p : Packet) (s : State) : Leaves s (execRegWrite a p s) :=
  .next (steady_regWriteReq (fun _ => steady_jxWrite ..) ..)

theorem leaves_execRegRead (a : AgentRef) (p : Packet) (lvl : Level) (s : State) : Leaves s (execRegRead a p lvl s) :=
  .ite (.next (steady_nakPkt ..)) (.ite (.next ((steady_regRespond ..).after (steady_raiseAgent ..))) (.ite (.next (.refl _)) (.after (.ite
    (.next (steady_regRespond ..)) (.ite (.next ((steady_regRespond ..).after (steady_agentViolation ..))) (.next (steady_regRespond ..))))
    (steady_recordSeq ..))))

theorem leaves_execComputeReset (a : AgentRef) (p : Packet) (s : State) : Leaves s (execComputeReset a p s) :=
  .next (steady_regWriteReq (fun _ => steady_askComputeReset ..) ..)

theorem leaves_execRejoinDone (a : AgentRef) (p : Packet) (s : State) : Leaves s (execRejoinDone a p s) :=
  .next (steady_regWriteReq (fun _ => steady_takeRejoinDone ..) ..)

theorem leaves_execLinkReset (a : AgentRef) (p : Packet) (s : State) : Leaves s (execLinkReset a p s) :=
  .next (steady_regWriteReq (fun _ => steady_askLinkReset ..) ..)

theorem leaves_execJxFltForce (a : AgentRef) (p : Packet) (s : State) : Leaves s (execJxFltForce a p s) :=
  .next (steady_regWriteReq (fun _ => .ite_fst (steady_forceAgent ..) (.refl _)) ..)

theorem leaves_execLocalPathWrite (a : AgentRef) (offset : Nat) (v : Word64) (s : State) : Leaves s (execLocalPathWrite a offset v s) :=
  .next (steady_agentViolation ..)

theorem leaves_execEventsSendTimer (a : AgentRef) (s : State) : Leaves s (execEventsSendTimer a s) :=
  .ite (.next (steady_sendEvents ..)) (.next (.refl _))

theorem leaves_execStatusReportTimer (a : AgentRef) (s : State) : Leaves s (execStatusReportTimer a s) := .next (steady_sendStatus ..)

theorem leaves_execSampleFlushTimer (a : AgentRef) (s : State) : Leaves s (execSampleFlushTimer a s) := .next (steady_flushSamples ..)

theorem leaves_execOrphanTimeout (a : AgentRef) (s : State) : Leaves s (execOrphanTimeout a s) :=
  .ite (.next (.refl _)) (.next ((steady_showMissed ..).after ((steady_updAgent ..).after (steady_setJfld ..))))

theorem leaves_execHoldoverExceeded (a : AgentRef) (s : State) : Leaves s (execHoldoverExceeded a s) :=
  .ite (.next (.refl _)) (.after (.next (steady_lapse ..)) ((steady_raiseAgent ..).after (steady_updAgent ..)))

theorem leaves_execStreamsReset (a : AgentRef) (p : Packet) (s : State) : Leaves s (execStreamsReset a p s) :=
  .next (steady_fromOwner (fun _ => steady_accept (fun _ => steady_restartStreams ..) ..) ..)

theorem leaves_execClaim (a : AgentRef) (port : Nat) (p : Packet) (chainOk : Bool) (sigOk : Bool) (deviceMatch : Bool) (s : State) : Leaves s
    (execClaim a port p chainOk sigOk deviceMatch s) :=
  .ite (.next (.refl _)) (.ite (.next (steady_nakPkt ..)) (.ite (.next (.refl _)) (.ite (.next (.refl _)) (.ite (.next (steady_acceptClaim ..))
    (.ite (.next (steady_raiseAgent ..)) (.ite (.next (.ite (steady_again ..) (steady_acceptClaim ..))) (.next (steady_raiseAgent ..))))))))

theorem leaves_execBeacon (a : AgentRef) (port : Nat) (p : Packet) (s : State) : Leaves s (execBeacon a port p s) :=
  .ite (.next (steady_nakPkt ..)) (.after (.ite (.next (.refl _)) (.after (.next ((steady_restore ..).after (steady_sendKept ..)))
    ((steady_unorphan ..).after ((steady_takeBeacon ..).after (steady_correctPhase ..))))) (steady_replicate ..))

theorem leaves_execDiscoverReq (a : AgentRef) (port : Nat) (p : Packet) (s : State) : Leaves s (execDiscoverReq a port p s) :=
  .next (steady_consume (fun _ => steady_portSend ..) ..)

theorem leaves_execKatOrder (a : AgentRef) (p : Packet) (failed : BitVec 32) (s : State) : Leaves s (execKatOrder a p failed s) :=
  .next (steady_fromOwner (fun _ => steady_accept (fun _ => steady_sendReport ..) ..) ..)

theorem leaves_execEIdleRequest (a : AgentRef) (s : State) : Leaves s (execEIdleRequest a s) := .ite (.next (steady_updAgent ..)) (.next (.refl _))

theorem leaves_execEDeepRequest (a : AgentRef) (s : State) : Leaves s (execEDeepRequest a s) :=
  .ite (.ite (.next (steady_updAgent ..)) (.next (steady_updAgent ..))) (.next (.refl _))

theorem leaves_execEWake (a : AgentRef) (s : State) : Leaves s (execEWake a s) := .next (steady_updAgent ..)

theorem leaves_execScrubZeroDone (a : AgentRef) (s : State) : Leaves s (execScrubZeroDone a s) := by
  unfold execScrubZeroDone
  split; exacts [.next (.refl _), .next (steady_updAgent ..)]

theorem leaves_execScrubStatusTimer (a : AgentRef) (s : State) : Leaves s (execScrubStatusTimer a s) := by
  unfold execScrubStatusTimer
  split
  · exact .next (.refl _)
  · exact .next (steady_forEach (fun _ _ => .ite ((steady_portSend ..).after ((steady_emit ..).after (steady_setTx ..))) (.refl _)) ..)

theorem leaves_execRekeyThreshold (n : Node) (port : Nat) (s : State) : Leaves s (execRekeyThreshold n port s) := by
  unfold execRekeyThreshold
  split
  · exact .ite (.next (.refl _)) (.after (.next (steady_sendReport ..)) (steady_setPort ..))
  · dsimp only
    split
    · exact .next (.refl _)
    · split
      · exact .next ((steady_rekeyOneWay ..).after (steady_setPort ..))
      · exact .next (steady_setPort ..)

theorem leaves_execRekeyReq (p : Packet) (s : State) : Leaves s (execRekeyReq p s) := by
  unfold execRekeyReq
  dsimp only
  exact .next (steady_accept (fun _ => by split; exacts [.refl _, by split; exacts [steady_rekeyOneWay .., .refl _]]) ..)

theorem leaves_execRekey (lvl : Level) (v : Word64) (s : State) : Leaves s (execRekey lvl v s) := by
  unfold execRekey
  split; exacts [.next (steady_violation ..), .ite (.next (steady_rekeyLink ..)) (.next (.refl _))]

theorem leaves_execPartOpen (lvl : Level) (v : Word64) (s : State) : Leaves s (execPartOpen lvl v s) := by
  unfold execPartOpen
  split; exacts [.next (steady_violation ..), .ite (.next (steady_openPart ..)) (.next (.refl _))]

theorem leaves_execDevAssign (lvl : Level) (v : Word64) (s : State) : Leaves s (execDevAssign lvl v s) := by
  unfold execDevAssign
  split; exacts [.next (steady_violation ..), .ite (.next (steady_assignDev ..)) (.next (.refl _))]

theorem leaves_execDevRelease (lvl : Level) (v : Word64) (s : State) : Leaves s (execDevRelease lvl v s) := by
  unfold execDevRelease
  split; exacts [.next (steady_violation ..), .ite (.next (steady_releaseDev ..)) (.next (.refl _))]

theorem leaves_execDevRescrub (lvl : Level) (v : Word64) (s : State) : Leaves s (execDevRescrub lvl v s) := by
  unfold execDevRescrub
  split; exacts [.next (steady_violation ..), .ite (.next (steady_rescrubDev ..)) (.next (.refl _))]

theorem leaves_execScrubStart (dev : Nat) (s : State) : Leaves s (execScrubStart dev s) := by
  refine .ite ?_ (.next (.refl _))
  split
  · exact .next (steady_beginScrub ..)
  · exact .next (.refl _)

theorem leaves_execScrubVerifyDone (a : AgentRef) (zeroed verified : Nat) (s : State) : Leaves s (execScrubVerifyDone a zeroed verified s) := by
  have timer (t : State) : Leaves t (execScrubStatusTimer a t) := leaves_execScrubStatusTimer ..
  unfold execScrubVerifyDone
  split
  · exact .next (.refl _)
  extract_lets mem ok s1
  have h1 : s.Steady s1 := steady_updAgent ..
  clear_value s1
  split
  · next t ht =>
    have h := ((timer s1).steady t ht).after h1
    exact .ite (.next ((steady_endScrub ..).after h)) (.next ((steady_updAgent ..).after h))
  · exact (timer s1).after h1

theorem leaves_execScrubStatus (p : Packet) (s : State) : Leaves s (execScrubStatus p s) :=
  .next (steady_consume (fun _ => .ite (steady_setDev ..) (.refl _)) ..)

theorem leaves_execScrubStatusMissing (dev : Nat) (s : State) : Leaves s (execScrubStatusMissing dev s) :=
  .ite (.next ((steady_raise ..).after (steady_setDev ..))) (.next (.refl _))

theorem leaves_execGetVersion (s : State) : Leaves s (execGetVersion s) := .next (steady_spdmAnswer ..)

theorem leaves_execGetCapabilities (s : State) : Leaves s (execGetCapabilities s) := .next (steady_spdmAnswer ..)

theorem leaves_execNegotiateAlgorithms (s : State) : Leaves s (execNegotiateAlgorithms s) := .next (steady_spdmAnswer ..)

theorem leaves_execGetDigests (s : State) : Leaves s (execGetDigests s) := .next (steady_spdmAnswer ..)

theorem leaves_execGetCertificate (offset : Nat) (length : Nat) (s : State) : Leaves s (execGetCertificate offset length s) :=
  .next (steady_spdmAnswer ..)

theorem leaves_execChallenge (nonce : BitVec 256) (s : State) : Leaves s (execChallenge nonce s) := .next (steady_spdmAnswer ..)

theorem leaves_execGetMeasurements (nonce : BitVec 256) (index : Nat) (s : State) : Leaves s (execGetMeasurements nonce index s) :=
  .next (steady_spdmAnswer ..)

theorem leaves_execSpdmUnsupported (code : BitVec 8) (s : State) : Leaves s (execSpdmUnsupported code s) := .next (steady_spdmAnswer ..)

theorem leaves_execBootImageVerified (image : Nat) (digest : BitVec 384) (s : State) : Leaves s (execBootImageVerified image digest s) :=
  .next ((steady_showQuote ..).after ⟨rfl, fun h => h⟩)

theorem leaves_execTicketGrant (s : State) : Leaves s (execTicketGrant s) := by
  unfold execTicketGrant
  dsimp only
  split
  · exact .next (steady_freeIdle ..)
  · split
    · exact .next (steady_freeIdle ..)
    · exact .next ((steady_startReservation ..).after ((steady_setTickets ..).after (steady_freeIdle ..)))

theorem leaves_execLaunchNotice (p : Packet) (group : Nat) (opSeq : BitVec 32) (sparse : Bool) (s : State) : Leaves s (execLaunchNotice p group
    opSeq sparse s) := by
  refine .next (steady_accept (fun _ => ?_) ..)
  split
  · exact .ite_fst (steady_launchNotice ..) (.refl _)
  · exact .refl _

theorem leaves_execIdleReport (p : Packet) (s : State) : Leaves s (execIdleReport p s) := by
  unfold execIdleReport
  refine .next ?_
  refine steady_accept (fun s => ?_) ..
  split
  · exact .refl _
  · exact .ite_fst (.refl _) ((steady_freeIdle ..).after (steady_setGroup ..))

theorem leaves_execReservationReleaseTimer (group : Nat) (s : State) : Leaves s (execReservationReleaseTimer group s) := by
  unfold execReservationReleaseTimer
  split
  · exact .next (.refl _)
  · split
    · exact .ite (.next (steady_freeReservation ..)) (.next (.refl _))
    · exact .next (.refl _)

theorem leaves_execCrossOrderTimer (ticket : Nat) (s : State) : Leaves s (execCrossOrderTimer ticket s) := by
  unfold execCrossOrderTimer
  split
  · exact .next (.refl _)
  · split
    · exact .ite (.next (.refl _)) (.after (.next (steady_setTickets ..)) (steady_forEach (fun _ _ => (steady_raise ..).after
          ((steady_setFld ..).after ((steady_setFld ..).after (steady_satFld ..)))) ..))
    · exact .next (.refl _)

theorem leaves_execKvOpen (p : Packet) (s : State) : Leaves s (execKvOpen p s) :=
  .next (.ite (steady_kvTake (fun _ _ => steady_kvOpen ..) ..) (.refl _))

theorem leaves_execKvGrow (p : Packet) (s : State) : Leaves s (execKvGrow p s) :=
  .next (.ite (steady_kvTake (fun _ _ => steady_kvGrow ..) ..) (.refl _))

theorem leaves_execKvClose (p : Packet) (s : State) : Leaves s (execKvClose p s) :=
  .next (.ite (steady_kvTake (fun _ _ => steady_kvClose ..) ..) (.refl _))

theorem leaves_execKvPrefetch (p : Packet) (s : State) : Leaves s (execKvPrefetch p s) :=
  .next (.ite (steady_kvTake (fun _ _ => steady_kvPrefetch ..) ..) (.refl _))

theorem leaves_execKvRenew (p : Packet) (s : State) : Leaves s (execKvRenew p s) :=
  .next (.ite (steady_kvTake (fun _ _ => steady_kvRenew ..) ..) (.refl _))

theorem leaves_execKvMoveStart (s : State) : Leaves s (execKvMoveStart s) := by
  unfold execKvMoveStart
  refine .ite (.next (.refl _)) ?_
  split
  · exact .next (.refl _)
  split
  · exact .next (.refl _)
  extract_lets x s1 s2
  have h : s.Steady s2 := (steady_startMove ..).after (steady_setEngine ..)
  exact .next (.after (t := s2) ⟨rfl, fun h => h⟩ h)

theorem leaves_execKvGraceTimer (s : State) : Leaves s (execKvGraceTimer s) := by
  unfold execKvGraceTimer
  split
  · exact .next (.refl _)
  · split
    · exact .next (.refl _)
    · split
      · exact .after (.next (steady_showPlc ..)) ⟨rfl, fun h => h⟩
      · exact .after (.ite (.next ((steady_showPlc ..).after ⟨rfl, fun h => h⟩)) (.next ((steady_showPlc ..).after ⟨rfl, fun h => h⟩)))
            ⟨rfl, fun h => h⟩

theorem leaves_execNocItemArrive (src : Nat) (dst : Nat) (seq : Nat) (data : Word64) (s : State) : Leaves s (execNocItemArrive src dst seq data
    s) :=
  .next (steady_setNocPair ..)

theorem leaves_execNocItemAck (src : Nat) (dst : Nat) (seq : Nat) (s : State) : Leaves s (execNocItemAck src dst seq s) :=
  .next (steady_setNocPair ..)

theorem leaves_execNocRouterFail (cf : Nat) (s : State) : Leaves s (execNocRouterFail cf s) := .next ⟨rfl, fun h => h⟩

theorem leaves_execSupplyOutOfRange (source : Nat) (s : State) : Leaves s (execSupplyOutOfRange source s) :=
  .after (.next ((steady_lapse ..).after ((steady_raise ..).after (steady_showRails ..)))) ⟨rfl, fun h => h⟩

theorem leaves_execBrownOut (rail : Nat) (s : State) : Leaves s (execBrownOut rail s) :=
  .after (.next (steady_setFld ..)) ((steady_update rfl).after (steady_raise ..))

theorem leaves_execTempHigh (source : Nat) (celsius : Nat) (s : State) : Leaves s (execTempHigh source celsius s) :=
  .after (.ite (.next (.refl _)) (.after (.next ((steady_lapse ..).after (steady_raise ..))) ⟨rfl, fun h => h⟩)) (steady_setTemp ..)

theorem leaves_execThermalTrip (source celsius : Nat) (s : State) : Leaves s (execThermalTrip source celsius s) := by
  unfold execThermalTrip
  extract_lets s1 s2
  have h1 : s.Steady s1 := steady_setTemp ..
  have h2 : s.Steady s2 := (steady_raise ..).after h1
  exact .ite (.next h1) (.next (.after (t := s2) ⟨rfl, fun h => h⟩ h2))

theorem leaves_execSupplyBackInRange (source : Nat) (s : State) : Leaves s (execSupplyBackInRange source s) :=
  .after (.next ((steady_restore ..).after (steady_showRails ..))) ⟨rfl, fun h => h⟩

theorem leaves_execQuarterIdleTimeout (quarter : Nat) (s : State) : Leaves s (execQuarterIdleTimeout quarter s) :=
  .ite (.next ((steady_setQuarter ..).after ⟨rfl, fun h => h⟩)) (.next (.refl _))

theorem leaves_execQuarterRampDone (s : State) : Leaves s (execQuarterRampDone s) := by
  unfold execQuarterRampDone
  split
  · exact .next (.refl _)
  · exact .after (.next ((steady_serveReloads ..).after ((steady_showCfb ..).after ((steady_startRamp ..).after ((steady_setQuarter ..).after
        (steady_useFree ..)))))) ⟨rfl, fun h => h⟩

theorem leaves_execImgfreeComplete (image : Nat) (s : State) : Leaves s (execImgfreeComplete image s) := by
  unfold execImgfreeComplete
  split
  · exact .next (.refl _)
  · split
    · exact .next (.refl _)
    · split
      · exact .after (.next (.refl _)) (steady_dropImage ..)
      · dsimp only
        split
        · exact .next ((steady_completeCmd ..).after (steady_dropImage ..))
        · exact .next (steady_dropImage ..)

theorem leaves_execDispatch (a : AgentRef) (port : Nat) (p : Packet) (s : State) : Leaves s (execDispatch a port p s) := by
  unfold execDispatch
  split
  · exact .next (steady_nakPkt ..)
  · dsimp only
    split
    · exact .next (steady_resendToken ..)
    · split
      · exact .next (steady_ackPkt ..)
      · split
        · exact .ite (.next (steady_placeToken ..)) (.next (steady_nakPkt ..))
        · exact .next (steady_nakPkt ..)

theorem leaves_execPendingRecordTimeout (a : AgentRef) (src : Fid) (stream : BitVec 16) (seq : BitVec 32) (s : State) : Leaves s
    (execPendingRecordTimeout a src stream seq s) := by
  unfold execPendingRecordTimeout
  split; exacts [.ite (.next ((steady_raiseAgent ..).after (steady_updDisp ..))) (.next (.refl _)), .next (.refl _)]

theorem leaves_execPartRecordTimeout (a : AgentRef) (src : Fid) (tag : Word64) (s : State) : Leaves s (execPartRecordTimeout a src tag s) :=
  .next (steady_updDisp ..)

theorem leaves_execSwitchWindowEnd (a : AgentRef) (s : State) : Leaves s (execSwitchWindowEnd a s) :=
  .ite (.next (.refl _)) (.after (.next (steady_updDisp ..)) (steady_forEach (fun _ _ => steady_sendReport ..) ..))

theorem leaves_execWindowReport (p : Packet) (s : State) : Leaves s (execWindowReport p s) :=
  .next (steady_accept (fun _ => .ite_fst (.refl _) (steady_takeBlocks ..)) ..)

theorem leaves_execBrokerWindowEnd (s : State) : Leaves s (execBrokerWindowEnd s) :=
  .ite (.next (.refl _)) (.ite (.after (.next (steady_closeWindow ..)) ⟨rfl, fun h => h⟩) (.ite (.next (.refl _)) (.after (.next
    ((steady_closeWindow ..).after (steady_brokerInstall ..))) ((steady_addAll ..).after ((steady_forEach (fun _ _ =>
    steady_removeCold ..) ..).after ((steady_clearSlots ..).after ⟨rfl, fun h => h⟩))))))

theorem leaves_execSqDoorbell (q : Nat) (v : BitVec 32) (s : State) : Leaves s (execSqDoorbell q v s) :=
  .ite (.next (.refl _)) (.ite (.next ((steady_showStalled ..).after (steady_setQueue ..))) (.next (steady_doorbellBad ..)))

theorem leaves_execCqHeadDoorbell (q : Nat) (v : BitVec 32) (s : State) : Leaves s (execCqHeadDoorbell q v s) :=
  .ite (.next (.refl _)) (.ite (.next ((steady_showStalled ..).after (steady_setCq ..))) (.next (steady_doorbellBad ..)))

theorem leaves_execQueueFetch (q : Nat) (s : State) : Leaves s (execQueueFetch q s) :=
  .ite (.next (steady_showStalled ..)) (.ite (.next (.refl _)) (.after (.next ((steady_showStalled ..).after (steady_setQueue ..)))
    ((steady_setCq ..).after ((steady_act ..).after (steady_fetchServed ..)))))

theorem leaves_execHostReadCompletion (q : Nat) (what : HostRead) (ok : Bool) (data : List Byte) (s : State) : Leaves s (execHostReadCompletion
    q what ok data s) := by
  unfold execHostReadCompletion
  split; exacts [.next (steady_takeRingBytes ..), .next (steady_setQueue ..)]

theorem leaves_execCmdNop (q : Nat) (s : State) : Leaves s (execCmdNop q s) := .next (steady_startCmd (fun _ _ => steady_endCmd ..) ..)

/-- Programs may change without the system area and the life cycle. -/
theorem steady_programs (s : State) (p : NMap Program) : s.Steady { s with programs := p } := ⟨rfl, fun h => h⟩

theorem leaves_execLoad (q : Nat) (sigOk : Bool) (s : State) : Leaves s (execLoad q sigOk s) := by
  have refused (s : State) c n : s.Steady (s.endCmd q c 2 n) := steady_endCmd ..
  refine .next (steady_startCmd (fun s c => ?_) ..)
  extract_lets slot l p s1
  refine .ite (refused ..) (.ite (refused ..) (.ite (refused ..) (.ite (.ite (refused ..) ?_) (.ite (refused ..) ?_))))
  · exact (steady_endCmd ..).after ((steady_extendMeas ..).after (steady_programs ..))
  · exact (steady_endCmd ..).after (steady_programs ..)

theorem leaves_execUnload (q : Nat) (s : State) : Leaves s (execUnload q s) := by
  refine .next (steady_startCmd (fun s c => ?_) ..)
  extract_lets slot
  refine .ite (steady_endCmd ..) (.ite (steady_endCmd ..) ?_)
  exact (steady_endCmd ..).after (steady_programs ..)

theorem leaves_execRun (q : Nat) (s : State) : Leaves s (execRun q s) := .next (steady_startRun ..)

theorem leaves_execEngineGrant (q : Nat) (s : State) : Leaves s (execEngineGrant q s) := .next (steady_startRun ..)

theorem leaves_execWallTimeLimit (e : Nat) (s : State) : Leaves s (execWallTimeLimit e s) := by
  unfold execWallTimeLimit
  split; exacts [.ite (.next (steady_endProgram ..)) (.next (.refl _)), .next (.refl _)]

theorem leaves_execCancel (q : Nat) (s : State) : Leaves s (execCancel q s) := by
  unfold execCancel
  refine .next ?_
  refine steady_startCmd (fun s c => ?_) ..
  dsimp only
  split
  · exact (steady_endCmd ..).after ((steady_cancelCmd ..).after (steady_markStarted ..))
  · exact (steady_endCmd ..).after (steady_markStarted ..)

theorem leaves_execQueueEnable (lvl : Level) (q : Nat) (v : Word64) (s : State) : Leaves s (execQueueEnable lvl q v s) :=
  .ite (.next (steady_countViolation ..)) (.ite (.next (.refl _)) (.next (steady_enableQueue ..)))

theorem leaves_execQueueDisable (lvl : Level) (q : Nat) (v : Word64) (s : State) : Leaves s (execQueueDisable lvl q v s) :=
  .ite (.next (steady_countViolation ..)) (.ite (.next (.refl _)) (.next (steady_disableQueue ..)))

theorem leaves_execImgload (q : Nat) (sigOk : Bool) (selfCheckOk : Bool) (s : State) : Leaves s (execImgload q sigOk selfCheckOk s) := by
  unfold execImgload
  refine .next ?_
  refine steady_startCmd (fun s c => ?_) ..
  split
  · dsimp only
    split
    · exact steady_endCmd ..
    · split
      · split
        · exact steady_endCmd ..
        · split
          · exact steady_endCmd ..
          · exact steady_forEach (fun _ _ => steady_ungateReq ..) ..
          · exact steady_endCmd ..
      · split
        · exact steady_endCmd ..
        · split
          · exact steady_endCmd ..
          · exact steady_forEach (fun _ _ => steady_ungateReq ..) ..
          · exact steady_endCmd ..
  · dsimp only
    split
    · exact steady_endCmd ..
    · split
      · split
        · exact steady_endCmd ..
        · split
          · exact steady_endCmd ..
          · exact steady_forEach (fun _ _ => steady_ungateReq ..) ..
          · exact (steady_endCmd ..).after ((steady_extendMeas ..).after (steady_addImage ..))
      · split
        · exact steady_endCmd ..
        · split
          · exact steady_endCmd ..
          · exact steady_forEach (fun _ _ => steady_ungateReq ..) ..
          · exact (steady_endCmd ..).after (steady_addImage ..)

theorem leaves_execImgfree (q : Nat) (s : State) : Leaves s (execImgfree q s) := by
  unfold execImgfree
  refine .next ?_
  refine steady_startCmd (fun s c => ?_) ..
  dsimp only
  split
  · exact steady_endCmd ..
  · exact .ite ((steady_countViolation ..).after (steady_endCmd ..)) (.ite (steady_endCmd ..) ((steady_markStarted ..).after ⟨rfl, fun h => h⟩))

theorem leaves_execAdmit (q : Nat) (b : Bundle) (s : State) : Leaves s (execAdmit q b s) := by
  unfold execAdmit
  refine .next ?_
  refine steady_startCmd (fun s c => ?_) ..
  split
  · exact (steady_countViolation ..).after (steady_endCmd ..)
  · split
    · exact (steady_refuseAdmit ..).after (steady_countRefused ..)
    · exact .after (.ite ((steady_showStalled ..).after ((steady_finishInstall ..).after (steady_markStarted ..)))
          ((steady_submitInstall ..).after (steady_markStarted ..))) (steady_takeBundle ..)

theorem leaves_execPartEnd (lvl : Level) (v : Word64) (s : State) : Leaves s (execPartEnd lvl v s) := by
  unfold execPartEnd
  split; exacts [.next (steady_violation ..), .ite (.next (.refl _)) (.ite (.next (steady_endPartition ..)) (.next (steady_refuseAction ..)))]

theorem leaves_execPartFree (part : Nat) (s : State) : Leaves s (execPartFree part s) :=
  .ite (.next ((steady_dropGroups ..).after (steady_setPart ..))) (.next (.refl _))

theorem leaves_execDieLost (block : Nat) (s : State) : Leaves s (execDieLost block s) :=
  .ite (.next (.refl _)) (.ite (.next ((steady_orderFence ..).after (steady_raise ..))) (.after (.next (.ite (steady_requestTakeover ..)
    (.refl _))) ((steady_blockOut ..).after ((steady_update rfl).after (steady_raise ..)))))

theorem leaves_execBlockReset (lvl : Level) (v : Word64) (s : State) : Leaves s (execBlockReset lvl v s) := by
  unfold execBlockReset
  split; exacts [.next (steady_violation ..), .next (steady_orderBlockReset ..)]

theorem leaves_execBlockResetDone (block : Nat) (katPass : Bool) (startNs : Nat) (s : State) : Leaves s (execBlockResetDone block katPass
    startNs s) :=
  .ite (.next (.refl _)) (.after (.ite (.ite (.next ((steady_setFld ..).after ((steady_retire ..).after (steady_closeShadows ..)))) (.ite (.next
    ((steady_showQuote ..).after ((steady_setFld ..).after (steady_setFld ..)))) (.next ((steady_showQuote ..).after (steady_setFld ..)))))
    (.after (.ite (.next (steady_showQuote ..)) (.ite (.next ((steady_showQuote ..).after ((steady_blockBack ..).after
    ((steady_restartQuiet ..).after (steady_setBlockState ..))))) (.next (steady_retire ..)))) (steady_closeShadows ..)))
    ((steady_update rfl).after (.ite (.refl _) (steady_openShadow ..))))

theorem leaves_execResetTimeout (block : Nat) (s : State) : Leaves s (execResetTimeout block s) := by
  unfold execResetTimeout
  split; exacts [.next (.refl _), .ite (.next (.refl _)) (.after (.next (steady_present ..)) ((steady_retire ..).after (steady_closeShadows ..)))]

theorem leaves_execShadowClose (block : Nat) (s : State) : Leaves s (execShadowClose block s) :=
  .after (.next (.ite (steady_setBlk ..) (.refl _))) ⟨rfl, fun h => h⟩

theorem leaves_execQuietExpire (block : Nat) (s : State) : Leaves s (execQuietExpire block s) := by
  unfold execQuietExpire
  split; exacts [.ite (.after (.next ((steady_setBlockState ..).after (steady_satFld ..))) ⟨rfl, fun h => h⟩) (.next (.refl _)), .next (.refl _)]

theorem leaves_execEventIngress (ev : Option Event) (s : State) : Leaves s (execEventIngress ev s) := by
  unfold execEventIngress
  split; exacts [.next ((steady_ingestNext ..).after (steady_present ..)), .next (steady_ingestNext ..)]

theorem leaves_execEventServe (s : State) : Leaves s (execEventServe s) := by
  unfold execEventServe
  dsimp only
  split
  · exact .next (steady_flushLre0 ..)
  · exact .ite (.next (steady_flushLre0 ..)) (.next ((steady_serve ..).after ((steady_setIngress ..).after ((steady_update rfl).after
        (steady_flushLre0 ..)))))

theorem leaves_execLedgerWrite (s : State) : Leaves s (execLedgerWrite s) := by
  unfold execLedgerWrite
  split
  · exact .next (.refl _)
  · split
    · split
      · dsimp only
        split
        · exact .next (.refl _)
        · split
          · exact .next ((steady_writeFlash ..).after ((steady_showBacklog ..).after ⟨rfl, fun h => h⟩))
          · split
            · exact .next ((steady_writeMerge ..).after ((steady_showBacklog ..).after ⟨rfl, fun h => h⟩))
            · exact .next ((steady_writeNew ..).after ((steady_showBacklog ..).after ⟨rfl, fun h => h⟩))
      · dsimp only
        split
        · exact .next (.refl _)
        · split
          · exact .next ((steady_writeFlash ..).after ((steady_showBacklog ..).after ⟨rfl, fun h => h⟩))
          · split
            · exact .next ((steady_writeMerge ..).after ((steady_showBacklog ..).after ⟨rfl, fun h => h⟩))
            · exact .next ((steady_writeNew ..).after ((steady_showBacklog ..).after ⟨rfl, fun h => h⟩))
    · split
      · dsimp only
        split
        · exact .next (.refl _)
        · split
          · exact .next ((steady_writeFlash ..).after ((steady_showBacklog ..).after ⟨rfl, fun h => h⟩))
          · split
            · exact .next ((steady_writeMerge ..).after ((steady_showBacklog ..).after ⟨rfl, fun h => h⟩))
            · exact .next ((steady_writeNew ..).after ((steady_showBacklog ..).after ⟨rfl, fun h => h⟩))
      · dsimp only
        split
        · exact .next (.refl _)
        · split
          · exact .next ((steady_writeFlash ..).after ((steady_showBacklog ..).after ⟨rfl, fun h => h⟩))
          · split
            · exact .next ((steady_writeMerge ..).after ((steady_showBacklog ..).after ⟨rfl, fun h => h⟩))
            · exact .next ((steady_writeNew ..).after ((steady_showBacklog ..).after ⟨rfl, fun h => h⟩))

theorem leaves_execMsBoundary (s : State) : Leaves s (execMsBoundary s) := by
  unfold execMsBoundary
  extract_lets ms s1
  have h1 : s.Steady s1 := steady_forEach (fun _ _ => steady_toWriter ..) ..
  exact .ite (.next (.refl _)) (.next (.after (t := s1) ⟨rfl, fun h => h⟩ h1))

theorem leaves_execFlashCopy (s : State) : Leaves s (execFlashCopy s) := by
  unfold execFlashCopy
  split
  · dsimp only
    split
    · exact .next (.refl _)
    · exact .next (.refl _)
  · dsimp only
    split
    · exact .next (.refl _)
    · split
      · exact .next ((steady_showLag ..).after ⟨rfl, fun h => h⟩)
      · exact .next ((steady_act ..).after ((steady_update rfl).after ((steady_showLag ..).after ⟨rfl, fun h => h⟩)))

theorem leaves_execRecordCloseTimer (origin : Fid) (source : Nat) (s : State) : Leaves s (execRecordCloseTimer origin source s) := by
  unfold execRecordCloseTimer
  split
  · exact .next (.refl _)
  · split
    · exact .next (.refl _)
    · exact .ite (.next (steady_closeRecord ..)) (.next (.refl _))

theorem leaves_execFltForce (lvl : Level) (n : Nat) (v : Word64) (s : State) : Leaves s (execFltForce lvl n v s) := by
  unfold execFltForce
  split; exacts [.next (steady_violation ..), .ite (.next (steady_writeSource ..)) (.next (.refl _))]

theorem leaves_execSeverityWrite (lvl : Level) (n : Nat) (v : Word64) (s : State) : Leaves s (execSeverityWrite lvl n v s) := by
  unfold execSeverityWrite
  split; exacts [.next (steady_violation ..), .ite (.next (steady_writeSource ..)) (.next (.refl _))]

theorem leaves_execFaultnClr (lvl : Level) (v : Word64) (s : State) : Leaves s (execFaultnClr lvl v s) := by
  unfold execFaultnClr
  split; exacts [.next (steady_violation ..), .next (steady_writeFltCfg ..)]

theorem leaves_execActCopyArrive (gate : Nat) (die : Nat) (unit : Nat) (seq : Nat) (content : List Byte) (s : State) : Leaves s
    (execActCopyArrive gate die unit seq content s) := by
  unfold execActCopyArrive
  split
  · exact .next (.refl _)
  · split
    · split
      · exact .next (.refl _)
      · split
        · exact .next (.refl _)
        · exact .next (steady_takeOutput ..)
    · split
      · exact .next (.refl _)
      · split
        · exact .ite (.next (.refl _)) (.next (steady_judge ..))
        · exact .ite (.next (.refl _)) (.ite (.after (.next (steady_endAct ..)) (.ite (.refl _) (steady_gateFence ..))) (.next (steady_judge ..)))

theorem leaves_execVoteTimeout (gate : Nat) (unit : Nat) (seq : Nat) (s : State) : Leaves s (execVoteTimeout gate unit seq s) := by
  unfold execVoteTimeout
  split
  · exact .next (.refl _)
  · split
    · exact .next (steady_outputTimeout ..)
    · exact .ite (.ite (.next (.refl _)) (.next ((steady_endAct ..).after (steady_forEach (fun _ _ => steady_gateFence ..) ..)))) (.ite (.next
          (.refl _)) (.ite (.next (steady_refuseAct ..)) (.next (.refl _))))

theorem leaves_execFenceEffect (s : State) : Leaves s (execFenceEffect s) :=
  .after (.next (steady_forEach (fun _ _ => steady_fence ..) ..)) ⟨rfl, fun h => h⟩

theorem leaves_execFenceReq (lvl : Level) (v : Word64) (s : State) : Leaves s (execFenceReq lvl v s) := by
  unfold execFenceReq
  split; exacts [.next (steady_violation ..), .next (steady_writeTriCfg ..)]

theorem leaves_execResyncReq (lvl : Level) (v : Word64) (s : State) : Leaves s (execResyncReq lvl v s) := by
  unfold execResyncReq
  split; exacts [.next (steady_violation ..), .next (steady_writeTriCfg ..)]

theorem leaves_execResyncPassDone (markedBytes : Nat) (s : State) : Leaves s (execResyncPassDone markedBytes s) :=
  .ite (.next (.refl _)) (.after (.ite (.next (steady_setFld ..)) (.next (.refl _))) ⟨rfl, fun h => h⟩)

theorem leaves_execResyncPauseDone (digestsEqual : Bool) (s : State) : Leaves s (execResyncPauseDone digestsEqual s) :=
  .ite (.next (.refl _)) (.after (.ite (.after (.next ((steady_flushLre0 ..).after ((steady_beginHold ..).after ((steady_showQuote ..).after
    (steady_restore ..))))) ((steady_closeShadows ..).after ((steady_restartQuiet ..).after ((steady_setBlockState ..).after
    ((steady_setFld ..).after (steady_setFld ..)))))) (.next ((steady_flushLre0 ..).after ((steady_beginHold ..).after
    ((steady_present ..).after (steady_retire ..)))))) (steady_setFld ..))

theorem leaves_execGateProbeTimer (s : State) : Leaves s (execGateProbeTimer s) := .next ⟨rfl, fun h => h⟩

theorem leaves_execComparatorSelftest (gate : Nat) (detected : Bool) (s : State) : Leaves s (execComparatorSelftest gate detected s) :=
  .ite (.next (.refl _)) (.next ((steady_raise ..).after ⟨rfl, fun h => h⟩))

theorem leaves_execDigestProbeTimer (digests : List (BitVec 384)) (s : State) : Leaves s (execDigestProbeTimer digests s) := by
  unfold execDigestProbeTimer
  split
  · exact .next (.refl _)
  · dsimp only
    split
    · exact .next (steady_forEach (fun _ _ => steady_gateFence ..) ..)
    · exact .next (steady_refuseAct ..)

theorem leaves_execPatrolRead (parityErrors : List Nat) (s : State) : Leaves s (execPatrolRead parityErrors s) := by
  refine .next (steady_forEach (fun s k => ?_) ..)
  have h (t : TriadSt) : s.Steady { s with tri := t } := ⟨rfl, fun h => h⟩
  exact (steady_orderFence ..).after ((steady_raise ..).after (h _))

theorem leaves_execPairEnable (lvl : Level) (v : Word64) (s : State) : Leaves s (execPairEnable lvl v s) := by
  unfold execPairEnable
  split; exacts [.next (steady_violation ..), .next (steady_writeStandbyCfg ..)]

theorem leaves_execMirror (p : Packet) (s : State) : Leaves s (execMirror p s) := by
  refine .next (steady_accept (fun s => .ite_fst (.refl _) ?_) ..)
  have h (t : TriadSt) : s.Steady { s with tri := t } := ⟨rfl, fun h => h⟩
  exact .ite_fst (.refl _) ((steady_setFld ..).after ((steady_setFld ..).after (h _)))

theorem leaves_execMirrorLagTimeout (s : State) : Leaves s (execMirrorLagTimeout s) := by
  unfold execMirrorLagTimeout
  split; exacts [.next (.refl _), .ite (.next (.refl _)) (.after (.next ((steady_lapse ..).after (steady_raise ..))) ⟨rfl, fun h => h⟩)]

theorem leaves_execHeartbeatTimer (s : State) : Leaves s (execHeartbeatTimer s) :=
  .ite (.next (.refl _)) (.after (.next (steady_portSend ..)) ((steady_emit ..).after ((steady_setTx ..).after (.after (.ite (.refl _)
    (steady_emit ..)) ⟨rfl, fun h => h⟩))))

theorem leaves_execTakeoverStart (s : State) : Leaves s (execTakeoverStart s) := .ite (.next (steady_takeOver ..)) (.next (.refl _))

theorem leaves_execHeartbeat (path : HbPath) (bytes : List Byte) (s : State) : Leaves s (execHeartbeat path bytes s) :=
  .ite (.next (.refl _)) (.after (.ite (.next (steady_stepDown ..)) (.ite (.ite (.next (steady_takeOver ..)) (.next (steady_raise ..))) (.next
    (.refl _)))) (.after (.ite (steady_endHold ..) (.refl _)) ((steady_setFld ..).after ((steady_setFld ..).after ⟨rfl, fun h => h⟩))))

theorem leaves_execHbPathLost (path : HbPath) (s : State) : Leaves s (execHbPathLost path s) := by
  unfold execHbPathLost
  split
  · exact .ite (.next (.refl _)) (.after (.next (steady_beginHold ..)) ((steady_raise ..).after ((steady_satFld ..).after (steady_setFld ..))))
  · exact .ite (.next (.refl _)) (.after (.next (steady_beginHold ..)) ((steady_raise ..).after ((steady_satFld ..).after (steady_setFld ..))))

theorem leaves_execHoldExpire (s : State) : Leaves s (execHoldExpire s) := by
  unfold execHoldExpire
  split
  · exact .next (.refl _)
  · exact .ite (.next (.refl _)) (.after (.next ((steady_endHold ..).after (steady_setFld ..))) ((steady_lapse ..).after
        ((steady_raise ..).after ((steady_setFld ..).after ⟨rfl, fun h => h⟩))))

theorem leaves_execHealthReportTimer (s : State) : Leaves s (execHealthReportTimer s) := .next ⟨rfl, fun h => h⟩

theorem leaves_execResetNAssert (s : State) : Leaves s (execResetNAssert s) := .next ((steady_controllerReset ..).after ⟨rfl, fun h => h⟩)

theorem leaves_execResetNDeassert (s : State) : Leaves s (execResetNDeassert s) :=
  .after (.next (.ite (.refl _) (steady_startBringup ..))) ⟨rfl, fun h => h⟩

theorem leaves_execCtrlReset (lvl : Level) (v : Word64) (s : State) : Leaves s (execCtrlReset lvl v s) := by
  unfold execCtrlReset
  split; exacts [.next (steady_violation ..), .ite (.next (steady_controllerReset ..)) (.next (.refl _))]

theorem leaves_execBrownOutRecovery (s : State) : Leaves s (execBrownOutRecovery s) := by
  unfold execBrownOutRecovery
  split; exacts [.next (.refl _), .ite (.next (.refl _)) (.next (steady_controllerReset ..))]

theorem leaves_execPowerLoss (s : State) : Leaves s (execPowerLoss s) :=
  .next (.after (t := s.packageReset true 0) ⟨rfl, fun h => h⟩ (steady_packageReset ..))

theorem leaves_execPowerGood (s : State) : Leaves s (execPowerGood s) :=
  .ite (.next (.refl _)) (.next ((steady_startBringup ..).after ((steady_showRails ..).after ⟨rfl, fun h => h⟩)))

theorem leaves_execPerstAssert (hub : Nat) (s : State) : Leaves s (execPerstAssert hub s) := .next ⟨rfl, fun h => h⟩

theorem leaves_execPerstDeassert (hub : Nat) (s : State) : Leaves s (execPerstDeassert hub s) :=
  .next ((steady_releaseHub ..).after ⟨rfl, fun h => h⟩)

theorem leaves_execJtagInternalScan (digest : BitVec 384) (s : State) : Leaves s (execJtagInternalScan digest s) :=
  .ite (.next (steady_extendMeas ..)) (.next (.refl _))

theorem leaves_execLinkTrainDone (n : Node) (port : Nat) (lanes : Nat) (planned : Nat) (delayPs : Nat) (far : Fid) (farPort : Nat) (s : State) :
    Leaves s (execLinkTrainDone n port lanes planned delayPs far farPort s) := by
  unfold execLinkTrainDone
  split
  · exact .after (.next (.ite ((steady_askDiscovery ..).after (steady_keyLinks ..)) (.refl _))) ((steady_learnLink ..).after
        ((steady_closeTrainShadow ..).after ((steady_showNodePorts ..).after (steady_setPort ..))))
  · exact .after (.next (steady_keyLinks ..)) ((steady_learnLink ..).after ((steady_closeTrainShadow ..).after ((steady_showNodePorts ..).after
        (steady_setPort ..))))

theorem leaves_execTrainTimeout (n : Node) (port : Nat) (s : State) : Leaves s (execTrainTimeout n port s) :=
  .ite (.next (.refl _)) (.next ((steady_learnLink ..).after ((steady_closeTrainShadow ..).after ((steady_showNodePorts ..).after
    (steady_setPort ..)))))

theorem leaves_execRetrainComplete (n : Node) (port : Nat) (lanes : Nat) (s : State) : Leaves s (execRetrainComplete n port lanes s) :=
  .after (.next ((steady_checkBounds ..).after (.ite ((steady_recheckLink ..).after (steady_keyLinks ..)) (steady_reportDown ..))))
    ((steady_learnLink ..).after ((steady_closeTrainShadow ..).after ((steady_showNodePorts ..).after (steady_setPort ..))))

theorem leaves_execPortRetrain (lvl : Level) (v : Word64) (s : State) : Leaves s (execPortRetrain lvl v s) := by
  unfold execPortRetrain
  split; exacts [.next (steady_violation ..), .ite (.next (steady_retrainPort ..)) (.next (.refl _))]

theorem leaves_execBringupPhaseDone (r : PhaseResult) (s : State) : Leaves s (execBringupPhaseDone r s) := by
  refine .ite (.next (.refl _)) (.ite (.next (.refl _)) (.ite (.next (steady_phase1 _)) (.ite (.next (steady_phase2 ..)) ?_)))
  split
  · exact .next (steady_stopBringup _)
  · next t ht =>
    refine .after ?_ (steady_bringFailures ht)
    exact .ite (.next (steady_nextPhase ..)) (.ite (.next (steady_phase4 _)) (.ite (.next (steady_phase5 ..)) (.ite (.next (steady_phase6 ..))
      (.next (steady_becomeReady _)))))

theorem leaves_execDiscoverResp (port : Nat) (r : DiscoverInfo) (s : State) : Leaves s (execDiscoverResp port r s) := by
  unfold execDiscoverResp
  split
  · exact .next (.refl _)
  · split
    · exact .next ((steady_failReached ..).after (steady_securityRecord ..))
    · split
      · exact .next (steady_discover ..)
      · exact .next (.refl _)

theorem leaves_execClaimAckTimeout (dest : Fid) (s : State) : Leaves s (execClaimAckTimeout dest s) := by
  unfold execClaimAckTimeout
  split; exacts [.next (.refl _), .ite (.next (.refl _)) (.after (.next (steady_sendHooked ..)) ⟨rfl, fun h => h⟩)]

theorem leaves_execStreamsResetTimeout (dest : Fid) (s : State) : Leaves s (execStreamsResetTimeout dest s) := by
  refine .next (steady_forEach (fun s x => ?_) ..)
  have h (d : DomainSt) : s.Steady { s with dom := d } := ⟨rfl, fun h => h⟩
  exact (steady_sendHooked ..).after (h _)

theorem leaves_execDiscoveryClose (s : State) : Leaves s (execDiscoveryClose s) :=
  .ite (.next (.refl _)) (.after (.next (.ite (steady_setFld ..) ((steady_useFree ..).after (steady_submitInstall ..))))
    ((steady_keyLinks ..).after ⟨rfl, fun h => h⟩))

theorem leaves_execRejoinStart (a : AgentRef) (failedStep : Option Nat) (s : State) : Leaves s (execRejoinStart a failedStep s) :=
  .ite (.next (.refl _)) (.after (.next (steady_rejoinStep ..)) ⟨rfl, fun h => h⟩)

theorem leaves_execKatResult (p : Packet) (s : State) : Leaves s (execKatResult p s) :=
  .next (steady_accept (fun _ => .ite (steady_katPassed ..) (steady_katFailed ..)) ..)

theorem leaves_execEvents (p : Packet) (s : State) : Leaves s (execEvents p s) :=
  .next (steady_accept (fun _ => steady_forEach (fun _ _ => (steady_present ..).after (steady_noteEvent ..)) ..) ..)

theorem leaves_execSamples (p : Packet) (s : State) : Leaves s (execSamples p s) := by
  refine .next (steady_consume (fun s => ?_) ..)
  exact .ite (.refl _) ⟨rfl, Memory.wf_writeBytes _ _⟩

theorem leaves_execStatusReport (p : Packet) (s : State) : Leaves s (execStatusReport p s) := by
  refine .next (steady_consume (fun s => ?_) ..)
  have h (d : DomainSt) : s.Steady { s with dom := d } := ⟨rfl, fun h => h⟩
  exact .ite ((steady_slotsSeen ..).after (h _)) (h _)

theorem leaves_execPortIdleTimeout (n : Node) (port : Nat) (s : State) : Leaves s (execPortIdleTimeout n port s) :=
  .ite (.next (.refl _)) (.after (.next (steady_setPort ..)) (steady_sendPkt ..))

theorem leaves_execSleep (n : Node) (port : Nat) (p : Packet) (s : State) : Leaves s (execSleep n port p s) := by
  unfold execSleep
  extract_lets answer
  have ha (s : State) t x : s.Steady (answer s t x) := steady_originateOn ..
  clear_value answer
  exact .ite (.next (ha ..)) (.ite (.next ((steady_sleepPort ..).after ((ha ..).after (steady_recordSeq ..))))
    (.next ((ha ..).after (steady_recordSeq ..))))

theorem leaves_execWakeRequest (port : Nat) (cls : WakeClass) (s : State) : Leaves s (execWakeRequest port cls s) :=
  .ite (.next (.refl _)) (.next (steady_queueWake ..))

theorem leaves_execWakeGrant (group : Nat) (s : State) : Leaves s (execWakeGrant group s) := .next (steady_grantWakes ..)

theorem leaves_execWakeComplete (port : Nat) (s : State) : Leaves s (execWakeComplete port s) :=
  .ite (.next (.refl _)) (.after (.next ((steady_pumpPort ..).after ((steady_showPorts ..).after (steady_setPort ..)))) ⟨rfl, fun h => h⟩)

theorem leaves_execPowerInterval (packageW : Nat) (endpoints : List (Nat × Nat)) (s : State) :
    Leaves s (execPowerInterval packageW endpoints s) := by
  unfold execPowerInterval
  extract_lets start s1 s2
  have h2 : s1.Steady s2 := by
    refine steady_forEach (fun s x => ?_) ..
    split
    · exact steady_updAgent ..
    · exact .refl _
  exact .next (.after (t := s2) ⟨rfl, fun h => h⟩ (h2.after (steady_setFld ..)))

theorem leaves_execSlotTick (s : State) : Leaves s (execSlotTick s) :=
  .ite (.next (.refl _)) (.after (.next (.ite (steady_controllerReset ..) (.refl _))) ((steady_settleRestarts ..).after
    ((steady_judgeEdges ..).after ((steady_tickCollector ..).after ((steady_pumpAll ..).after ((steady_forEach (fun _ _ =>
    steady_pumpAll ..) ..).after ((steady_update rfl).after ((steady_forEach (fun _ _ => steady_tickAgent ..) ..).after
    ((steady_setFld ..).after ((steady_update rfl).after (steady_countTick ..)))))))))))

theorem leaves_execTimeBaseSwitchover (s : State) : Leaves s (execTimeBaseSwitchover s) := .next (steady_switchTime ..)

theorem leaves_execEpochCfgWrite (lvl : Level) (v : Word64) (s : State) : Leaves s (execEpochCfgWrite lvl v s) := by
  unfold execEpochCfgWrite
  split; exacts [.next (steady_violation ..), .next (steady_writeEpochCfg ..)]

theorem leaves_execSyncArm (lvl : Level) (v : Word64) (s : State) : Leaves s (execSyncArm lvl v s) := by
  unfold execSyncArm
  split; exacts [.next (steady_violation ..), .next (steady_writeSyncCfg ..)]

theorem leaves_execSyncRearmTimer (s : State) : Leaves s (execSyncRearmTimer s) := by
  unfold execSyncRearmTimer
  split; exacts [.ite (.next (steady_acquire ..)) (.next (.refl _)), .next (.refl _)]

theorem leaves_execSyncInEdge (falling : Bool) (ns : Nat) (s : State) : Leaves s (execSyncInEdge falling ns s) := by
  unfold execSyncInEdge
  split
  · exact .next (.refl _)
  · dsimp only
    split
    · exact .next ((steady_setReg ..).after ⟨rfl, fun h => h⟩)
    · split
      · exact .next ((steady_setReg ..).after ⟨rfl, fun h => h⟩)
      · exact .next ((steady_update rfl).after ((steady_setReg ..).after ⟨rfl, fun h => h⟩))

theorem leaves_execPpsInEdge (ns : Nat) (s : State) : Leaves s (execPpsInEdge ns s) :=
  .ite (.next (.refl _)) (.after (.next (steady_setReg ..)) ((steady_setFld ..).after ((steady_setReg ..).after ⟨rfl, fun h => h⟩)))

theorem leaves_execPtpFrame (f : PtpFrame) (s : State) : Leaves s (execPtpFrame f s) :=
  .ite (.next (.refl _)) (.ite (.next (steady_discardEth ..)) (.after (.next (steady_setReg ..)) ((steady_setFld ..).after
    ((steady_setFld ..).after (steady_setFld ..)))))

theorem leaves_execArpRequest (isArp : Bool) (ip : BitVec 32) (s : State) : Leaves s (execArpRequest isArp ip s) :=
  .ite (.next (.refl _)) (.ite (.next (steady_emit ..)) (.next (steady_discardEth ..)))

theorem leaves_execBeaconTimer (s : State) : Leaves s (execBeaconTimer s) :=
  .ite (.next (.refl _)) (.after (.next (steady_broadcast ..)) ((steady_update rfl).after (steady_steer ..)))

theorem leaves_execEpochBoundary (s : State) : Leaves s (execEpochBoundary s) :=
  .ite (.next (.refl _)) (.after (.next ((steady_swapController ..).after (steady_forEach (fun _ _ => steady_openAtAgent ..) ..)))
    ((steady_update rfl).after ((steady_openEpoch ..).after (steady_missedAdjust ..))))

theorem leaves_execPacketPost (a : AgentRef) (p : Packet) (s : State) : Leaves s (execPacketPost a p s) :=
  .ite (.next (steady_emit ..)) (.ite (.next (steady_emit ..)) (.next (steady_sendPkt ..)))

theorem leaves_execExpressHeadSlot (a : AgentRef) (port : Nat) (slot : Nat) (s : State) : Leaves s (execExpressHeadSlot a port slot s) :=
  .ite (.next (.refl _)) (.after (.next (steady_setPort ..)) (steady_emitHead ..))

theorem leaves_execWrite (n : Node) (p : Packet) (s : State) : Leaves s (execWrite n p s) := by
  cases n with
  | agent a =>
    refine .next (steady_deliverMem (fun s => .ite_fst (.refl _) ?_) ..)
    dsimp only
    exact steady_updAgent s a _
  | ctl =>
    refine .next (steady_accept (fun s => .ite_fst (.refl _) (.ite_fst (.refl _) ?_)) ..)
    exact ⟨rfl, fun h => h⟩

theorem leaves_execReadReq (n : Node) (p : Packet) (tagOk : Bool) (s : State) : Leaves s (execReadReq n p tagOk s) := by
  unfold execReadReq
  split
  · exact .next (steady_deliverMem (fun _ => .ite_fst (.refl _) (.refl _)) ..)
  · exact .ite (.next (steady_raise ..)) (.next (steady_accept (fun _ => .ite_fst (.refl _) (.ite_fst (.refl _) (.refl _))) ..))

theorem leaves_execSendPacket (n : Node) (p : Packet) (s : State) : Leaves s (execSendPacket n p s) := by
  unfold execSendPacket
  split
  · exact .next (steady_deliverTo (fun _ => steady_fillRing ..) ..)
  · exact .ite (.next (steady_kvTake (fun _ _ => steady_kvAny ..) ..)) (.next (steady_accept (fun _ => .ite_fst (steady_bindUplink ..)
        (steady_sendToEngine ..)) ..))

theorem leaves_execDispatchCopy (a : AgentRef) (p : Packet) (s : State) : Leaves s (execDispatchCopy a p s) :=
  .next (steady_deliverTo (fun _ => steady_fillRing ..) ..)

theorem leaves_execRxRingHeadWrite (a : AgentRef) (v : Nat) (s : State) : Leaves s (execRxRingHeadWrite a v s) := .next (steady_updAgent ..)

theorem leaves_execPrecedentTimer (n : Node) (src : Fid) (stream : BitVec 16) (seq : BitVec 32) (s : State) : Leaves s (execPrecedentTimer n src
    stream seq s) := by
  unfold execPrecedentTimer
  dsimp only
  split
  · exact .next (.refl _)
  · exact .ite (.next (.refl _)) (.ite (.after (.next (steady_forEach (fun _ _ => steady_answer ..) ..)) (steady_setRx ..)) (.after (.next
        (steady_settle ..)) ((steady_raiseAt ..).after (steady_endHeld ..))))

theorem leaves_execRegisterWrite (lvl : Level) (size : Nat) (addr : Nat) (v : Word64) (s : State) : Leaves s (execRegisterWrite lvl size addr v
    s) := by
  refine .ite (.next (.refl _)) ?_
  split
  · exact .next (steady_violation ..)
  · exact .next (steady_writeReg ..)

theorem leaves_execSend (e : Nat) (s : State) : Leaves s (execSend e s) :=
  .next (steady_issue (fun _ _ => steady_withHandle (fun _ => .ite (.suppress) (.ite (.ite (.done ((steady_putP ..).after (steady_putG ..)))
    (.ite (.done ((steady_putP ..).after ((steady_putG ..).after (steady_sendProgram ..)))) (.block (steady_sendProgram ..)))) (steady_async
    (fun _ _ => .ite (steady_completeTag ..) (.ite ((steady_completeTag ..).after (steady_sendProgram ..))
    (steady_sendProgram ..))) ..))) ..) ..)

theorem leaves_execWait (e : Nat) (s : State) : Leaves s (execWait e s) := by
  unfold execWait
  refine .next ?_
  refine steady_issue (fun s w => ?_) ..
  dsimp only
  split
  · exact .done ((steady_putP ..).after (steady_putGs ..))
  · split
    · exact .done ((steady_putP ..).after ((steady_putGs ..).after (steady_setEngine ..)))
    · exact .block (.refl _)

theorem leaves_execTagComplete (e : Nat) (tag : Nat) (status : Nat) (result : Word64) (s : State) : Leaves s (execTagComplete e tag status
    result s) := by
  unfold execTagComplete
  split
  · split
    · exact .next (steady_endMove ..)
    · exact .next (.refl _)
  · split
    · exact .next (steady_endForgotten ..)
    · split
      · exact .next (.refl _)
      · split
        · exact .next (.refl _)
        · split
          · split
            · exact .next ((steady_completeTag ..).after (steady_endMove ..))
            · exact .next (steady_completeTag ..)
          · exact .ite (.next (.refl _)) (.next (steady_endRun ..))
          · split
            · exact .next ((steady_completeTag ..).after (steady_dropLaunchCopies ..))
            · exact .next (.refl _)
          · exact .next (steady_completeTag ..)

theorem leaves_execRecv (e : Nat) (s : State) : Leaves s (execRecv e s) := by
  unfold execRecv
  refine .next ?_
  refine steady_issue (fun s w => ?_) ..
  refine steady_withHandle (fun h => ?_) ..
  split
  · dsimp only
    split
    · exact .done ((steady_putP ..).after (steady_putG ..))
    · exact .done ((steady_flushLre0 ..).after ((steady_putP ..).after ((steady_putG ..).after (steady_setEngine ..))))
  · dsimp only
    split
    · exact .done ((steady_putP ..).after (steady_putG ..))
    · exact .done ((steady_putP ..).after ((steady_putG ..).after (steady_setEngine ..)))

theorem leaves_execRread (e : Nat) (s : State) : Leaves s (execRread e s) := .next (steady_issue (fun _ _ => .block (steady_regRequest ..)) ..)

theorem leaves_execRwrite (e : Nat) (s : State) : Leaves s (execRwrite e s) := .next (steady_issue (fun _ _ => .block (steady_regRequest ..)) ..)

theorem leaves_execEvwait (e : Nat) (s : State) : Leaves s (execEvwait e s) :=
  .next (steady_issue (fun _ _ => .ite (.done (steady_putG ..)) (.ite (.done (steady_putG ..)) (.block (.refl _)))) ..)

theorem leaves_execEvwaitDeadline (e : Nat) (s : State) : Leaves s (execEvwaitDeadline e s) := by
  unfold execEvwaitDeadline
  split; exacts [.ite (.next (.refl _)) (.next ((steady_setPc ..).after ((steady_setBlocked ..).after (steady_putG ..)))), .next (.refl _)]

theorem leaves_execEvsub (e : Nat) (s : State) : Leaves s (execEvsub e s) := by
  refine .next (steady_issue (fun s w => .done ?_) ..)
  exact ⟨rfl, fun h => h⟩

theorem leaves_execEvpost (e : Nat) (s : State) : Leaves s (execEvpost e s) :=
  .next (steady_issue (fun _ _ => .ite (.done (steady_raise ..)) (.ite (.done (.refl _)) (.done (steady_raise ..)))) ..)

theorem leaves_execTime (e : Nat) (s : State) : Leaves s (execTime e s) := .next (steady_issue (fun _ _ => .done (steady_putG ..)) ..)

theorem leaves_execEpoch (e : Nat) (s : State) : Leaves s (execEpoch e s) := .next (steady_issue (fun _ _ => .done (steady_putG ..)) ..)

theorem leaves_execRetryTimeout (n : Node) (dest : Fid) (stream : BitVec 16) (seq : BitVec 32) (s : State) : Leaves s (execRetryTimeout n dest
    stream seq s) := by
  unfold execRetryTimeout
  split
  · split
    · exact .next (steady_commitUnicast ..)
    · exact .next (.refl _)
  · exact .ite (.next (.refl _)) (.ite (.next (steady_resendPkt ..)) (.next (steady_giveUp ..)))

theorem leaves_execAck (n : Node) (p : Packet) (s : State) : Leaves s (execAck n p s) :=
  .ite (.next (.refl _)) (.next (steady_forEach (fun _ _ => steady_ackOne ..) ..))

theorem leaves_execNak (n : Node) (p : Packet) (s : State) : Leaves s (execNak n p s) := by
  unfold execNak
  split
  · exact .next (.refl _)
  · split
    · dsimp only
      split
      · exact .ite (.next (.refl _)) (.ite (.next (steady_failPkt ..)) (.ite (.next (.refl _)) (.ite (.next (steady_giveUp ..)) (.ite (.next
            (.ite (.refl _) (steady_resendPkt ..))) (.next (steady_refuseTx ..))))))
      · exact .next (steady_bcastAnswered ..)
    · dsimp only
      split
      · exact .ite (.next (.refl _)) (.ite (.next (steady_failPkt ..)) (.ite (.next (.refl _)) (.ite (.next (steady_giveUp ..)) (.ite (.next
            (.ite (.refl _) (steady_resendPkt ..))) (.next (steady_refuseTx ..))))))
      · exact .next (.ite (steady_copyRefused ..) (.refl _))

theorem leaves_execResendReq (n : Node) (p : Packet) (s : State) : Leaves s (execResendReq n p s) :=
  .ite (.next (.refl _)) (.next (steady_forEach (fun _ _ => steady_resendOne ..) ..))

theorem leaves_execReadResp (n : Node) (p : Packet) (s : State) : Leaves s (execReadResp n p s) := by
  unfold execReadResp
  split; exacts [.next (steady_accept (fun _ => steady_takeReadResp ..) ..), .next (steady_deliverTo (fun _ => steady_takeReadResp ..) ..)]

theorem leaves_execRegResp (p : Packet) (s : State) : Leaves s (execRegResp p s) := by
  unfold execRegResp
  split
  · exact .next (.refl _)
  · split
    · exact .next (.refl _)
    · exact .ite (.next (.refl _)) (.after (.next (steady_packetEnd ..)) (.ite (steady_correctMap ..) (.refl _)))

theorem leaves_execInv (e : Nat) (s : State) : Leaves s (execInv e s) := .next (steady_issue (fun _ _ => .fault) ..)

theorem leaves_execNop (e : Nat) (s : State) : Leaves s (execNop e s) := .next (steady_issue (fun _ _ => .done (.refl _)) ..)

theorem leaves_execAdd (e : Nat) (s : State) : Leaves s (execAdd e s) := .next (steady_issue (fun _ _ => steady_alu ..) ..)

theorem leaves_execSub (e : Nat) (s : State) : Leaves s (execSub e s) := .next (steady_issue (fun _ _ => steady_alu ..) ..)

theorem leaves_execMul (e : Nat) (s : State) : Leaves s (execMul e s) := .next (steady_issue (fun _ _ => steady_alu ..) ..)

theorem leaves_execMulhu (e : Nat) (s : State) : Leaves s (execMulhu e s) := .next (steady_issue (fun _ _ => steady_alu ..) ..)

theorem leaves_execDivu (e : Nat) (s : State) : Leaves s (execDivu e s) := .next (steady_issue (fun _ _ => steady_alu ..) ..)

theorem leaves_execRemu (e : Nat) (s : State) : Leaves s (execRemu e s) := .next (steady_issue (fun _ _ => steady_alu ..) ..)

theorem leaves_execAnd (e : Nat) (s : State) : Leaves s (execAnd e s) := .next (steady_issue (fun _ _ => steady_alu ..) ..)

theorem leaves_execOr (e : Nat) (s : State) : Leaves s (execOr e s) := .next (steady_issue (fun _ _ => steady_alu ..) ..)

theorem leaves_execXor (e : Nat) (s : State) : Leaves s (execXor e s) := .next (steady_issue (fun _ _ => steady_alu ..) ..)

theorem leaves_execShl (e : Nat) (s : State) : Leaves s (execShl e s) := .next (steady_issue (fun _ _ => steady_alu ..) ..)

theorem leaves_execShr (e : Nat) (s : State) : Leaves s (execShr e s) := .next (steady_issue (fun _ _ => steady_alu ..) ..)

theorem leaves_execSar (e : Nat) (s : State) : Leaves s (execSar e s) := .next (steady_issue (fun _ _ => steady_alu ..) ..)

theorem leaves_execMinu (e : Nat) (s : State) : Leaves s (execMinu e s) := .next (steady_issue (fun _ _ => steady_alu ..) ..)

theorem leaves_execMaxu (e : Nat) (s : State) : Leaves s (execMaxu e s) := .next (steady_issue (fun _ _ => steady_alu ..) ..)

theorem leaves_execAddi (e : Nat) (s : State) : Leaves s (execAddi e s) := .next (steady_issue (fun _ _ => steady_aluI ..) ..)

theorem leaves_execAndi (e : Nat) (s : State) : Leaves s (execAndi e s) := .next (steady_issue (fun _ _ => steady_aluI ..) ..)

theorem leaves_execOri (e : Nat) (s : State) : Leaves s (execOri e s) := .next (steady_issue (fun _ _ => steady_aluI ..) ..)

theorem leaves_execXori (e : Nat) (s : State) : Leaves s (execXori e s) := .next (steady_issue (fun _ _ => steady_aluI ..) ..)

theorem leaves_execShli (e : Nat) (s : State) : Leaves s (execShli e s) := .next (steady_issue (fun _ _ => steady_aluI ..) ..)

theorem leaves_execShri (e : Nat) (s : State) : Leaves s (execShri e s) := .next (steady_issue (fun _ _ => steady_aluI ..) ..)

theorem leaves_execLi (e : Nat) (s : State) : Leaves s (execLi e s) := .next (steady_issue (fun _ _ => steady_aluI ..) ..)

theorem leaves_execLih (e : Nat) (s : State) : Leaves s (execLih e s) := .next (steady_issue (fun _ _ => steady_aluI ..) ..)

theorem leaves_execSel (e : Nat) (s : State) : Leaves s (execSel e s) := .next (steady_issue (fun _ _ => .done (steady_putG ..)) ..)

theorem leaves_execBfx (e : Nat) (s : State) : Leaves s (execBfx e s) := .next (steady_issue (fun _ _ => .done (steady_putG ..)) ..)

theorem leaves_execBfi (e : Nat) (s : State) : Leaves s (execBfi e s) := .next (steady_issue (fun _ _ => .done (steady_putG ..)) ..)

theorem leaves_execPopc (e : Nat) (s : State) : Leaves s (execPopc e s) := .next (steady_issue (fun _ _ => steady_alu ..) ..)

theorem leaves_execClz (e : Nat) (s : State) : Leaves s (execClz e s) := .next (steady_issue (fun _ _ => steady_alu ..) ..)

theorem leaves_execCrc (e : Nat) (s : State) : Leaves s (execCrc e s) := .next (steady_issue (fun _ _ => .done (steady_putG ..)) ..)

theorem leaves_execCmp (e : Nat) (s : State) : Leaves s (execCmp e s) := .next (steady_issue (fun _ _ => steady_compareInto ..) ..)

theorem leaves_execCmpi (e : Nat) (s : State) : Leaves s (execCmpi e s) := .next (steady_issue (fun _ _ => steady_compareInto ..) ..)

theorem leaves_execLd (e : Nat) (s : State) : Leaves s (execLd e s) := .next (steady_issue (fun _ _ => steady_load ..) ..)

theorem leaves_execLds (e : Nat) (s : State) : Leaves s (execLds e s) := .next (steady_issue (fun _ _ => steady_load ..) ..)

theorem leaves_execSt (e : Nat) (s : State) : Leaves s (execSt e s) :=
  .next (steady_issue (fun _ _ => steady_withMem (fun _ _ => steady_withStore (fun _ h => .done h) ..) ..) ..)

theorem leaves_execLdl (e : Nat) (s : State) : Leaves s (execLdl e s) :=
  .next (steady_issue (fun _ _ => steady_withMem (fun _ _ => steady_withBytes (fun _ => .done (steady_putGs ..)) ..) ..) ..)

theorem leaves_execStl (e : Nat) (s : State) : Leaves s (execStl e s) :=
  .next (steady_issue (fun _ _ => steady_withMem (fun _ _ => .ite (steady_withStore (fun _ h => .done ((steady_update rfl).after h)) ..)
    (steady_withStore (fun _ h => .done h) ..)) ..) ..)

theorem leaves_execCas (e : Nat) (s : State) : Leaves s (execCas e s) := .next (steady_issue (fun _ _ => steady_atomic ..) ..)

theorem leaves_execFadd (e : Nat) (s : State) : Leaves s (execFadd e s) := .next (steady_issue (fun _ _ => steady_atomic ..) ..)

theorem leaves_execMcopy (e : Nat) (s : State) : Leaves s (execMcopy e s) :=
  .next (steady_issue (fun _ _ => steady_withHandle (fun _ => steady_withHandle (fun _ => .ite (.fault) (.ite (.fault) (steady_withBytes
    (fun _ => steady_withStore (fun _ h => .done h) ..) ..))) ..) ..) ..)

theorem leaves_execSeal (e : Nat) (s : State) : Leaves s (execSeal e s) :=
  .next (steady_issue (fun _ _ => steady_withHandle (fun _ => steady_withBytes (fun _ => steady_withStore (fun _ h => .done
    ((steady_putG ..).after h)) ..) ..) ..) ..)

theorem leaves_execTlook (e : Nat) (s : State) : Leaves s (execTlook e s) :=
  .next (steady_issue (fun _ _ => steady_withHandle (fun _ => .ite (.fault) (.done (steady_putGs ..))) ..) ..)

theorem leaves_execTinst (e : Nat) (s : State) : Leaves s (execTinst e s) := by
  refine .next (steady_issue (fun _ _ => steady_withHandle (fun _ => .ite (.fault) (steady_async (fun _ _ => ?_) ..)) ..) ..)
  split
  · exact steady_completeTag ..
  · refine (steady_submitInstall ..).after ?_
    split
    · exact ⟨rfl, fun h => h⟩
    · exact .refl _

theorem leaves_execTstage (e : Nat) (s : State) : Leaves s (execTstage e s) :=
  .next (steady_issue (fun _ _ => steady_withHandle (fun _ => steady_withRecord (fun _ => steady_async (fun _ _ => .ite (steady_takeGambit ..)
    (steady_completeTag ..)) ..) ..) ..) ..)

theorem leaves_execGlaunch (e : Nat) (s : State) : Leaves s (execGlaunch e s) :=
  .next (steady_issue (fun _ _ => steady_withHandle (fun _ => steady_withHandle (fun _ => steady_withBytes (fun _ => steady_async (fun _ _ =>
    .ite (steady_glaunch ..) (steady_completeTag ..)) ..) ..) ..) ..) ..)

theorem leaves_execGresv (e : Nat) (s : State) : Leaves s (execGresv e s) := by
  refine .next (steady_issue (fun s w => steady_withHandle (fun h => ?_) ..) ..)
  have hg : s.Steady (s.gresv e h.obj).1 := steady_gresv ..
  split
  · next t st ht =>
    rw [ht] at hg
    exact .done ((steady_putP ..).after ((steady_putG ..).after hg))
  · next t ht =>
    rw [ht] at hg
    exact .block hg

theorem leaves_execGrel (e : Nat) (s : State) : Leaves s (execGrel e s) :=
  .next (steady_issue (fun _ _ => steady_withHandle (fun _ => .done (steady_grel ..)) ..) ..)

theorem leaves_execGcancel (e : Nat) (s : State) : Leaves s (execGcancel e s) := by
  unfold execGcancel
  refine .next ?_
  refine steady_issue (fun s w => ?_) ..
  dsimp only
  split
  · exact .done ((steady_putG ..).after ((steady_completeTag ..).after ((steady_dropLaunchCopies ..).after (steady_gcancel ..))))
  · exact .done (steady_putG ..)

theorem leaves_execImgrun (e : Nat) (s : State) : Leaves s (execImgrun e s) := by
  refine .next (steady_issue (fun _ _ => steady_withHandle (fun _ => steady_withHandle (fun _ => steady_withHandle (fun _ => steady_withBytes
      (fun _ => steady_async (fun _ _ => ?_) ..) ..) ..) ..) ..) ..)
  split
  · exact .ite (steady_completeTag ..) ⟨rfl, fun h => h⟩
  · exact steady_completeTag ..

theorem leaves_execPlook (e : Nat) (s : State) : Leaves s (execPlook e s) :=
  .next (steady_issue (fun _ _ => steady_withHandle (fun _ => .done (steady_putGs ..)) ..) ..)

theorem leaves_execPload (e : Nat) (s : State) : Leaves s (execPload e s) :=
  .next (steady_issue (fun _ _ => steady_withHandle (fun _ => .done (steady_putG ..)) ..) ..)

theorem leaves_execKvlook (e : Nat) (s : State) : Leaves s (execKvlook e s) := by
  unfold execKvlook
  dsimp only
  refine .next (steady_issue (fun _ _ => ?_) ..)
  split
  · exact .done ((steady_putP ..).after (steady_putGs ..))
  · exact .done ((steady_putP ..).after (steady_putGs ..))

theorem leaves_execKvput (e : Nat) (s : State) : Leaves s (execKvput e s) := by
  refine .next (steady_issue (fun _ _ => ?_) ..)
  split
  · exact .done (steady_setDirLine ..)
  · exact .done (.refl _)

theorem leaves_execKvmove (e : Nat) (s : State) : Leaves s (execKvmove e s) := by
  unfold execKvmove
  refine .next ?_
  refine steady_issue (fun s w => ?_) ..
  refine steady_withHandle (fun h => ?_) ..
  refine steady_withBytes (fun l => ?_) ..
  split
  · exact steady_async (fun _ _ => steady_completeTag ..) ..
  · exact steady_async (fun _ _ => .ite (steady_startMove ..) (steady_completeTag ..)) ..

theorem leaves_execFoot (e : Nat) (fp : Footprint) (s : State) : Leaves s (execFoot e fp s) :=
  .next (steady_issue (fun _ _ => steady_withHandle (fun _ => steady_withHandle (fun _ => steady_withStore (fun _ h => .done
    ((steady_putP ..).after h)) ..) ..) ..) ..)

theorem leaves_execHopen (e : Nat) (s : State) : Leaves s (execHopen e s) := by
  unfold execHopen
  refine .next ?_
  refine steady_issue (fun s w => ?_) ..
  dsimp only
  split
  · exact .done ((steady_putP ..).after (steady_putH ..))
  · exact .suppress
  · exact .done ((steady_putP ..).after (steady_putH ..))

theorem leaves_execHclose (e : Nat) (s : State) : Leaves s (execHclose e s) :=
  .next (steady_issue (fun _ _ => .ite (.fault) (.ite (.stay) (.done (steady_putH ..)))) ..)

theorem leaves_execHdup (e : Nat) (s : State) : Leaves s (execHdup e s) := by
  refine .next (steady_issue (fun _ _ => ?_) ..)
  split
  · exact .fault
  · exact .ite (.fault) (.done (steady_putH ..))

theorem leaves_execHinfo (e : Nat) (s : State) : Leaves s (execHinfo e s) := by
  refine .next (steady_issue (fun _ _ => ?_) ..)
  split
  · exact .fault
  · exact .done (steady_putGs ..)

theorem leaves_execKgen (e : Nat) (s : State) : Leaves s (execKgen e s) := by
  refine .next (steady_issue (fun s w => .ite .fault (.ite (.done (steady_putH ..)) ?_)) ..)
  have hk : s.Steady (s.makeKey (wImmH w) (s.engine e).partition (s.engine e).level).1 := steady_makeKey ..
  split
  · next t k ht =>
    rw [ht] at hk
    exact .done ((steady_putH ..).after hk)
  · next t ht =>
    rw [ht] at hk
    exact .done ((steady_putH ..).after hk)

theorem leaves_execKwrap (e : Nat) (s : State) : Leaves s (execKwrap e s) :=
  .next (steady_issue (fun _ _ => steady_withKey (fun _ => steady_withKey (fun _ => steady_withHandle (fun _ => (steady_withStore (fun _ h =>
    .done ((steady_putG ..).after h)) ..).after (steady_wrapKey ..)) ..) ..) ..) ..)

theorem leaves_execKinst (e : Nat) (s : State) : Leaves s (execKinst e s) :=
  .next (steady_issue (fun _ _ => .ite (.suppress) (steady_withKey (fun _ => steady_async (fun _ _ => (steady_completeTag ..).after
    (steady_kinst ..)) ..) ..)) ..)

theorem leaves_execKzero (e : Nat) (s : State) : Leaves s (execKzero e s) :=
  .next (steady_issue (fun _ _ => steady_withKey (fun _ => .ite (.stay) (.done ((steady_putH ..).after (steady_zeroKey ..)))) ..) ..)

theorem leaves_execMext (e : Nat) (s : State) : Leaves s (execMext e s) :=
  .next (steady_issue (fun _ _ => steady_withHandle (fun _ => steady_withBytes (fun _ => .done (.ite (steady_extendMeas ..) (.refl _))) ..) ..) ..)

theorem leaves_execZfill (e : Nat) (s : State) : Leaves s (execZfill e s) :=
  .next (steady_issue (fun _ _ => steady_withHandle (fun _ => .ite (.fault) (steady_async (fun _ _ => (steady_completeTag ..).after
    (steady_zeroSpace ..)) ..)) ..) ..)

theorem leaves_execBr (e : Nat) (s : State) : Leaves s (execBr e s) := .next (steady_issue (fun _ _ => .goto (.refl _)) ..)

theorem leaves_execCall (e : Nat) (s : State) : Leaves s (execCall e s) := .next (steady_issue (fun _ _ => .goto (steady_putG ..)) ..)

theorem leaves_execRet (e : Nat) (s : State) : Leaves s (execRet e s) := .next (steady_issue (fun _ _ => .goto (.refl _)) ..)

theorem leaves_execLoop (e : Nat) (s : State) : Leaves s (execLoop e s) :=
  .next (steady_issue (fun _ _ => .after (.ite (.done (.refl _)) (.goto (.refl _))) (steady_putG ..)) ..)

theorem leaves_execPlog (e : Nat) (s : State) : Leaves s (execPlog e s) := .next (steady_issue (fun _ _ => .done (steady_putP ..)) ..)

theorem leaves_execHalt (e : Nat) (s : State) : Leaves s (execHalt e s) := .next (steady_issue (fun _ _ => .ended (steady_endProgram ..)) ..)

theorem leaves_execTrap (e : Nat) (s : State) : Leaves s (execTrap e s) := .next (steady_issue (fun _ _ => .fault) ..)

theorem leaves_execFence (e : Nat) (s : State) : Leaves s (execFence e s) := .next (steady_issue (fun _ _ => .done (.refl _)) ..)

end Sys2Proof.Machine
end

section
/-! The life cycle moves forward, and only by LCADV. -/

namespace Sys2Proof.Machine

variable {s t u : State}

/-- The life cycle stands or moves forward to one of R349's states, and a canonical system area stays canonical. -/
structure State.Forward (s t : State) : Prop where
  le : s.sec.lifeCycle ≤ t.sec.lifeCycle
  bound : t.sec.lifeCycle ≠ s.sec.lifeCycle → t.sec.lifeCycle ≤ 3
  hbm : s.hbm.wf = true → t.hbm.wf = true

theorem State.Steady.forward (h : s.Steady t) : s.Forward t := ⟨h.lifeCycle.ge, fun hne => absurd h.lifeCycle hne, h.hbm⟩

theorem State.Forward.between {s' t' : State} (h : s.Forward t) (hs : s'.Steady s) (ht : t.Steady t') : s'.Forward t' := by
  obtain ⟨hle, hb, hm⟩ := h
  rw [← ht.lifeCycle, hs.lifeCycle] at hle hb
  exact ⟨hle, hb, ht.hbm ∘ hm ∘ hs.hbm⟩

/-- Every key is zeroed and every memory emptied (R352). -/
theorem State.wipe_spec (s : State) (st : Nat) : (s.wipe st).sec.lifeCycle = s.sec.lifeCycle ∧ (s.wipe st).hbm = [] := by
  have h := steady_forEach (f := fun s n => s.zeroKey n) (fun _ _ => steady_zeroKey ..) s (s.sec.keys.map (·.1))
  exact ⟨h.lifeCycle, rfl⟩

theorem State.advance_forward (s : State) (st : Nat) : s.Forward (s.advance st).1 := by
  unfold State.advance
  split
  · exact (steady_securityRecord ..).forward
  split
  · next hc =>
    obtain ⟨hlt, hle, -⟩ := hc
    extract_lets _ s1 s2
    have hw := s1.wipe_spec st
    have h2 : s2.sec.lifeCycle = st ∧ s2.hbm = [] := ⟨(steady_setFld ..).lifeCycle.trans hw.1, hw.2⟩
    have h1 : s.Forward s2 := ⟨by rw [h2.1]; exact hlt.le, fun _ => by rw [h2.1]; exact hle, fun _ => by rw [h2.2]; rfl⟩
    clear_value s2
    exact h1.between (.refl s) ((steady_extendMeas ..).after ⟨rfl, fun h => h⟩)
  · exact (State.Steady.refl s).forward

theorem execLcadv_forward {e : Nat} (h : execLcadv e s = .next t) : s.Forward t := by
  obtain rfl := Host.Outcome.next.inj h
  obtain hs | ⟨u, w, hu, heq⟩ := s.issue_cases e 0x7A .vendor _
  · exact hs.forward
  rw [heq]
  dsimp only
  split
  · exact ((steady_settleEffect hu (.done (steady_putP ..)) w)).forward
  split
  · exact (steady_settleEffect hu .stay w).forward
  · exact (u.advance_forward _).between hu ((steady_setPc ..).after (steady_putP ..))

/-- Every command but LCADV keeps the life cycle, and each of them the canonical system area. -/
theorem leaves_exec (s : State) (c : Instr) (hc : ∀ e, c ≠ .lcadv e) : Leaves s (exec c s) := by
  cases c with
  | registerWrite => exact leaves_execRegisterWrite ..
  | nocItemArrive => exact leaves_execNocItemArrive ..
  | nocItemAck => exact leaves_execNocItemAck ..
  | nocRouterFail => exact leaves_execNocRouterFail ..
  | slotTick => exact leaves_execSlotTick ..
  | timeBaseSwitchover => exact leaves_execTimeBaseSwitchover ..
  | supplyOutOfRange => exact leaves_execSupplyOutOfRange ..
  | brownOut => exact leaves_execBrownOut ..
  | brownOutRecovery => exact leaves_execBrownOutRecovery ..
  | tempHigh => exact leaves_execTempHigh ..
  | thermalTrip => exact leaves_execThermalTrip ..
  | quarterRampDone => exact leaves_execQuarterRampDone ..
  | quarterIdleTimeout => exact leaves_execQuarterIdleTimeout ..
  | dieLost => exact leaves_execDieLost ..
  | crstAssert => exact leaves_execCrstAssert ..
  | computeReset => exact leaves_execComputeReset ..
  | computeResetEnd => exact leaves_execComputeResetEnd ..
  | crstDeassert => exact leaves_execCrstDeassert ..
  | rejoinStart => exact leaves_execRejoinStart ..
  | rejoinDone => exact leaves_execRejoinDone ..
  | linkReset => exact leaves_execLinkReset ..
  | lrstAssert => exact leaves_execLrstAssert ..
  | jxFltForce => exact leaves_execJxFltForce ..
  | epochBoundary => exact leaves_execEpochBoundary ..
  | shadowCopyDone => exact leaves_execShadowCopyDone ..
  | install => exact leaves_execInstall ..
  | commit => exact leaves_execCommit ..
  | stageWrite => exact leaves_execStageWrite ..
  | stageInvalidate => exact leaves_execStageInvalidate ..
  | stageRebase => exact leaves_execStageRebase ..
  | stagedSlotEccError => exact leaves_execStagedSlotEccError ..
  | play => exact leaves_execPlay ..
  | playApplyDone => exact leaves_execPlayApplyDone ..
  | reserveWrite => exact leaves_execReserveWrite ..
  | reserveFree => exact leaves_execReserveFree ..
  | gqDoorbell => exact leaves_execGqDoorbell ..
  | sampleFlushTimer => exact leaves_execSampleFlushTimer ..
  | beaconTimer => exact leaves_execBeaconTimer ..
  | beacon => exact leaves_execBeacon ..
  | statusReportTimer => exact leaves_execStatusReportTimer ..
  | orphanTimeout => exact leaves_execOrphanTimeout ..
  | holdoverExceeded => exact leaves_execHoldoverExceeded ..
  | claim => exact leaves_execClaim ..
  | eventsSendTimer => exact leaves_execEventsSendTimer ..
  | linkDown => exact leaves_execLinkDown ..
  | frameReceive => exact leaves_execFrameReceive ..
  | creditFrame => exact leaves_execCreditFrame ..
  | creditFrameTimer => exact leaves_execCreditFrameTimer ..
  | rekeyThreshold => exact leaves_execRekeyThreshold ..
  | rekeyOverrun => exact leaves_execRekeyOverrun ..
  | packetPost => exact leaves_execPacketPost ..
  | expressHeadSlot => exact leaves_execExpressHeadSlot ..
  | retryTimeout => exact leaves_execRetryTimeout ..
  | ack => exact leaves_execAck ..
  | nak => exact leaves_execNak ..
  | resendReq => exact leaves_execResendReq ..
  | precedentTimer => exact leaves_execPrecedentTimer ..
  | write => exact leaves_execWrite ..
  | readReq => exact leaves_execReadReq ..
  | readResp => exact leaves_execReadResp ..
  | sendPacket => exact leaves_execSendPacket ..
  | rxRingHeadWrite => exact leaves_execRxRingHeadWrite ..
  | streamsReset => exact leaves_execStreamsReset ..
  | streamsResetTimeout => exact leaves_execStreamsResetTimeout ..
  | discoverReq => exact leaves_execDiscoverReq ..
  | discoverResp => exact leaves_execDiscoverResp ..
  | katOrder => exact leaves_execKatOrder ..
  | katResult => exact leaves_execKatResult ..
  | statusReport => exact leaves_execStatusReport ..
  | windowReport => exact leaves_execWindowReport ..
  | idleReport => exact leaves_execIdleReport ..
  | regRead => exact leaves_execRegRead ..
  | regWrite => exact leaves_execRegWrite ..
  | regResp => exact leaves_execRegResp ..
  | events => exact leaves_execEvents ..
  | samples => exact leaves_execSamples ..
  | rekeyReq => exact leaves_execRekeyReq ..
  | sleep => exact leaves_execSleep ..
  | portIdleTimeout => exact leaves_execPortIdleTimeout ..
  | wakeRequest => exact leaves_execWakeRequest ..
  | wakeGrant => exact leaves_execWakeGrant ..
  | wakeComplete => exact leaves_execWakeComplete ..
  | eIdleRequest => exact leaves_execEIdleRequest ..
  | eDeepRequest => exact leaves_execEDeepRequest ..
  | eWake => exact leaves_execEWake ..
  | epochCfgWrite => exact leaves_execEpochCfgWrite ..
  | syncArm => exact leaves_execSyncArm ..
  | syncRearmTimer => exact leaves_execSyncRearmTimer ..
  | syncInEdge => exact leaves_execSyncInEdge ..
  | ppsInEdge => exact leaves_execPpsInEdge ..
  | ptpFrame => exact leaves_execPtpFrame ..
  | arpRequest => exact leaves_execArpRequest ..
  | retrainComplete => exact leaves_execRetrainComplete ..
  | portRetrain => exact leaves_execPortRetrain ..
  | rekey => exact leaves_execRekey ..
  | commitDeadline => exact leaves_execCommitDeadline ..
  | drainQuiet => exact leaves_execDrainQuiet ..
  | drainTimeout => exact leaves_execDrainTimeout ..
  | classificationClose => exact leaves_execClassificationClose ..
  | playResendTimer => exact leaves_execPlayResendTimer ..
  | autoPlayWrite => exact leaves_execAutoPlayWrite ..
  | attemptResumeTimer => exact leaves_execAttemptResumeTimer ..
  | inv => exact leaves_execInv ..
  | nop => exact leaves_execNop ..
  | add => exact leaves_execAdd ..
  | sub => exact leaves_execSub ..
  | mul => exact leaves_execMul ..
  | mulhu => exact leaves_execMulhu ..
  | divu => exact leaves_execDivu ..
  | remu => exact leaves_execRemu ..
  | and => exact leaves_execAnd ..
  | or => exact leaves_execOr ..
  | xor => exact leaves_execXor ..
  | shl => exact leaves_execShl ..
  | shr => exact leaves_execShr ..
  | sar => exact leaves_execSar ..
  | minu => exact leaves_execMinu ..
  | maxu => exact leaves_execMaxu ..
  | addi => exact leaves_execAddi ..
  | andi => exact leaves_execAndi ..
  | ori => exact leaves_execOri ..
  | xori => exact leaves_execXori ..
  | shli => exact leaves_execShli ..
  | shri => exact leaves_execShri ..
  | li => exact leaves_execLi ..
  | lih => exact leaves_execLih ..
  | sel => exact leaves_execSel ..
  | bfx => exact leaves_execBfx ..
  | bfi => exact leaves_execBfi ..
  | popc => exact leaves_execPopc ..
  | clz => exact leaves_execClz ..
  | crc => exact leaves_execCrc ..
  | cmp => exact leaves_execCmp ..
  | cmpi => exact leaves_execCmpi ..
  | ld => exact leaves_execLd ..
  | lds => exact leaves_execLds ..
  | st => exact leaves_execSt ..
  | ldl => exact leaves_execLdl ..
  | stl => exact leaves_execStl ..
  | cas => exact leaves_execCas ..
  | fadd => exact leaves_execFadd ..
  | mcopy => exact leaves_execMcopy ..
  | tlook => exact leaves_execTlook ..
  | tinst => exact leaves_execTinst ..
  | tstage => exact leaves_execTstage ..
  | send => exact leaves_execSend ..
  | wait => exact leaves_execWait ..
  | tagComplete => exact leaves_execTagComplete ..
  | recv => exact leaves_execRecv ..
  | rread => exact leaves_execRread ..
  | rwrite => exact leaves_execRwrite ..
  | evwait => exact leaves_execEvwait ..
  | evwaitDeadline => exact leaves_execEvwaitDeadline ..
  | evsub => exact leaves_execEvsub ..
  | evpost => exact leaves_execEvpost ..
  | time => exact leaves_execTime ..
  | epoch => exact leaves_execEpoch ..
  | glaunch => exact leaves_execGlaunch ..
  | gresv => exact leaves_execGresv ..
  | grel => exact leaves_execGrel ..
  | gcancel => exact leaves_execGcancel ..
  | imgrun => exact leaves_execImgrun ..
  | plook => exact leaves_execPlook ..
  | pload => exact leaves_execPload ..
  | kvlook => exact leaves_execKvlook ..
  | kvput => exact leaves_execKvput ..
  | kvmove => exact leaves_execKvmove ..
  | foot => exact leaves_execFoot ..
  | hopen => exact leaves_execHopen ..
  | hclose => exact leaves_execHclose ..
  | hdup => exact leaves_execHdup ..
  | hinfo => exact leaves_execHinfo ..
  | kgen => exact leaves_execKgen ..
  | kwrap => exact leaves_execKwrap ..
  | kinst => exact leaves_execKinst ..
  | kzero => exact leaves_execKzero ..
  | mext => exact leaves_execMext ..
  | zfill => exact leaves_execZfill ..
  | lcadv e => exact absurd rfl (hc e)
  | br => exact leaves_execBr ..
  | call => exact leaves_execCall ..
  | ret => exact leaves_execRet ..
  | loop => exact leaves_execLoop ..
  | plog => exact leaves_execPlog ..
  | halt => exact leaves_execHalt ..
  | trap => exact leaves_execTrap ..
  | fence => exact leaves_execFence ..
  | sqDoorbell => exact leaves_execSqDoorbell ..
  | cqHeadDoorbell => exact leaves_execCqHeadDoorbell ..
  | queueFetch => exact leaves_execQueueFetch ..
  | queueEnable => exact leaves_execQueueEnable ..
  | queueDisable => exact leaves_execQueueDisable ..
  | engineGrant => exact leaves_execEngineGrant ..
  | cmdNop => exact leaves_execCmdNop ..
  | load => exact leaves_execLoad ..
  | unload => exact leaves_execUnload ..
  | run => exact leaves_execRun ..
  | cancel => exact leaves_execCancel ..
  | imgload => exact leaves_execImgload ..
  | imgfree => exact leaves_execImgfree ..
  | imgfreeComplete => exact leaves_execImgfreeComplete ..
  | admission => exact leaves_execAdmit ..
  | wallTimeLimit => exact leaves_execWallTimeLimit ..
  | launch => exact leaves_execLaunch ..
  | launchNotice => exact leaves_execLaunchNotice ..
  | ticketGrant => exact leaves_execTicketGrant ..
  | go => exact leaves_execGo ..
  | chunk => exact leaves_execChunk ..
  | chunkResult => exact leaves_execChunkResult ..
  | chunkAck => exact leaves_execChunkAck ..
  | chunkTimeout => exact leaves_execChunkTimeout ..
  | reservationReleaseTimer => exact leaves_execReservationReleaseTimer ..
  | crossOrderTimer => exact leaves_execCrossOrderTimer ..
  | dispatch => exact leaves_execDispatch ..
  | dispatchCopy => exact leaves_execDispatchCopy ..
  | pendingRecordTimeout => exact leaves_execPendingRecordTimeout ..
  | brokerWindowEnd => exact leaves_execBrokerWindowEnd ..
  | kvOpen => exact leaves_execKvOpen ..
  | kvGrow => exact leaves_execKvGrow ..
  | kvClose => exact leaves_execKvClose ..
  | kvPrefetch => exact leaves_execKvPrefetch ..
  | kvRenew => exact leaves_execKvRenew ..
  | kvMoveStart => exact leaves_execKvMoveStart ..
  | kvGraceTimer => exact leaves_execKvGraceTimer ..
  | partOpen => exact leaves_execPartOpen ..
  | partEnd => exact leaves_execPartEnd ..
  | partFree => exact leaves_execPartFree ..
  | devAssign => exact leaves_execDevAssign ..
  | devRelease => exact leaves_execDevRelease ..
  | devRescrub => exact leaves_execDevRescrub ..
  | scrubStart => exact leaves_execScrubStart ..
  | scrubZeroDone => exact leaves_execScrubZeroDone ..
  | scrubVerifyDone => exact leaves_execScrubVerifyDone ..
  | scrubStatusTimer => exact leaves_execScrubStatusTimer ..
  | scrubStatus => exact leaves_execScrubStatus ..
  | scrubStatusMissing => exact leaves_execScrubStatusMissing ..
  | bootImageVerified image digest => exact leaves_execBootImageVerified image digest s
  | getVersion => exact leaves_execGetVersion ..
  | getCapabilities => exact leaves_execGetCapabilities ..
  | negotiateAlgorithms => exact leaves_execNegotiateAlgorithms ..
  | getDigests => exact leaves_execGetDigests ..
  | getCertificate => exact leaves_execGetCertificate ..
  | challenge => exact leaves_execChallenge ..
  | getMeasurements => exact leaves_execGetMeasurements ..
  | spdmUnsupported => exact leaves_execSpdmUnsupported ..
  | eventIngress => exact leaves_execEventIngress ..
  | eventServe => exact leaves_execEventServe ..
  | ledgerWrite => exact leaves_execLedgerWrite ..
  | msBoundary => exact leaves_execMsBoundary ..
  | flashCopy => exact leaves_execFlashCopy ..
  | recordCloseTimer => exact leaves_execRecordCloseTimer ..
  | shadowClose => exact leaves_execShadowClose ..
  | resetTimeout => exact leaves_execResetTimeout ..
  | quietExpire => exact leaves_execQuietExpire ..
  | fltForce => exact leaves_execFltForce ..
  | severityWrite => exact leaves_execSeverityWrite ..
  | faultnClr => exact leaves_execFaultnClr ..
  | actCopyArrive => exact leaves_execActCopyArrive ..
  | voteTimeout => exact leaves_execVoteTimeout ..
  | fenceEffect => exact leaves_execFenceEffect ..
  | fenceReq => exact leaves_execFenceReq ..
  | resyncReq => exact leaves_execResyncReq ..
  | resyncPassDone => exact leaves_execResyncPassDone ..
  | resyncPauseDone => exact leaves_execResyncPauseDone ..
  | gateProbeTimer => exact leaves_execGateProbeTimer ..
  | comparatorSelftest => exact leaves_execComparatorSelftest ..
  | digestProbeTimer => exact leaves_execDigestProbeTimer ..
  | patrolRead => exact leaves_execPatrolRead ..
  | pairEnable => exact leaves_execPairEnable ..
  | mirror => exact leaves_execMirror ..
  | mirrorLagTimeout => exact leaves_execMirrorLagTimeout ..
  | heartbeatTimer => exact leaves_execHeartbeatTimer ..
  | heartbeat => exact leaves_execHeartbeat ..
  | hbPathLost => exact leaves_execHbPathLost ..
  | takeoverStart => exact leaves_execTakeoverStart ..
  | holdExpire => exact leaves_execHoldExpire ..
  | healthReportTimer => exact leaves_execHealthReportTimer ..
  | powerGood => exact leaves_execPowerGood ..
  | bringupPhaseDone => exact leaves_execBringupPhaseDone ..
  | powerLoss => exact leaves_execPowerLoss ..
  | resetNAssert => exact leaves_execResetNAssert ..
  | ctrlReset => exact leaves_execCtrlReset ..
  | blockReset => exact leaves_execBlockReset ..
  | perstAssert => exact leaves_execPerstAssert ..
  | linkTrainDone => exact leaves_execLinkTrainDone ..
  | trainTimeout => exact leaves_execTrainTimeout ..
  | discoveryClose => exact leaves_execDiscoveryClose ..
  | powerInterval => exact leaves_execPowerInterval ..
  | supplyBackInRange => exact leaves_execSupplyBackInRange ..
  | blockResetDone => exact leaves_execBlockResetDone ..
  | perstDeassert => exact leaves_execPerstDeassert ..
  | lrstDeassert => exact leaves_execLrstDeassert ..
  | resetNDeassert => exact leaves_execResetNDeassert ..
  | jtagInternalScan => exact leaves_execJtagInternalScan ..
  | localPathWrite a offset v => exact leaves_execLocalPathWrite a offset v s
  | gqCqHeadDoorbell => exact leaves_execGqCqHeadDoorbell ..
  | partRecordTimeout => exact leaves_execPartRecordTimeout ..
  | switchWindowEnd => exact leaves_execSwitchWindowEnd ..
  | hostReadCompletion => exact leaves_execHostReadCompletion ..
  | claimAckTimeout => exact leaves_execClaimAckTimeout ..
  | _ => exact leaves_execSeal ..

theorem exec_forward {c : Instr} (h : exec c s = .next t) : s.Forward t := by
  by_cases hc : ∃ e, c = .lcadv e
  · obtain ⟨e, rfl⟩ := hc
    exact execLcadv_forward h
  · exact ((leaves_exec s c (not_exists.mp hc)).steady t h).forward

/-- Settles O59: each command answers a steady state or, LCADV, one whose system area is wiped or stands. -/
theorem hbmCanonical : Obligations.HbmCanonical := by
  intro s t hwf hstep
  unfold step at hstep
  split at hstep
  · obtain rfl := Host.Outcome.next.inj hstep
    exact hwf
  · exact (exec_forward hstep).hbm hwf

/-- Settles O60: every command but LCADV is steady, and LCADV moves the life cycle to a later state of R349. -/
theorem lifeCycleForward : Obligations.LifeCycleForward := by
  intro s t c h
  refine ⟨(exec_forward h).le, fun hne => ⟨(exec_forward h).bound hne, ?_⟩⟩
  by_contra hc
  exact hne ((leaves_exec s c (not_exists.mp hc)).steady t h).lifeCycle

end Sys2Proof.Machine
end
